-- ==== Sys2Proof/Word.lean ====
section
/-!
DEFINITION. The word types of the Z770: a scalar register is 64 bits, a memory byte 8 bits and a vector register 512 bits
(R178, R10); a table from numbers to values is a list of pairs with rising keys.
-/

namespace Sys2Proof

/-- A scalar, predicate or extension register, an address or a pointer: 64 bits (R178). -/
abbrev Word := BitVec 64

/-- A byte of memory (R4). -/
abbrev Byte := BitVec 8

/-- A vector register: 512 bits (R178). -/
abbrev Vec := BitVec 512

/-- Values by number, keys rising, absent where they hold their reset or idle value. -/
abbrev Tbl (α : Type) := List (Nat × α)

/-- A memory of bytes: the pairs of an address and a byte that differ from what an unlisted address reads as. -/
abbrev Memory := List Host.Cell

end Sys2Proof
end

