-- ==== Sys2Proof/Syntax.lean ====
section
/-!
DEFINITION. The instructions and events of the Z770: one constructor for each row of spec/opcode_table.json.
The first 342 are the words of the Rugeka set with the fields the table gives them (highest bits first). The last 119 are
the steps of the other agents (host, engines, homes, Scarab, dispensers, Molt, links); their arguments carry what the
acting agent or the environment chooses, and an index names the travelling item the step is about.
-/

namespace Sys2Proof

/-- One row of the opcode table. -/
inductive Instr where
  /-- R199: Adds sA and sB at width w and writes the sign-extended result to sD under the predicate. -/
  | add (p : BitVec 3) (b : BitVec 5) (a : BitVec 5) (w : BitVec 2) (d : BitVec 5)
  /-- R199: Subtracts sB from sA at width w into sD. -/
  | sub (p : BitVec 3) (b : BitVec 5) (a : BitVec 5) (w : BitVec 2) (d : BitVec 5)
  /-- R199: Bitwise AND of sA and sB into sD. -/
  | and (p : BitVec 3) (b : BitVec 5) (a : BitVec 5) (w : BitVec 2) (d : BitVec 5)
  /-- R199: Bitwise OR of sA and sB into sD. -/
  | or (p : BitVec 3) (b : BitVec 5) (a : BitVec 5) (w : BitVec 2) (d : BitVec 5)
  /-- R199: Bitwise XOR of sA and sB into sD. -/
  | xor (p : BitVec 3) (b : BitVec 5) (a : BitVec 5) (w : BitVec 2) (d : BitVec 5)
  /-- R199: sA AND NOT sB into sD. -/
  | andn (p : BitVec 3) (b : BitVec 5) (a : BitVec 5) (w : BitVec 2) (d : BitVec 5)
  /-- R199: Shifts sA left by the low bits of sB. -/
  | shl (p : BitVec 3) (b : BitVec 5) (a : BitVec 5) (w : BitVec 2) (d : BitVec 5)
  /-- R199: Logical right shift of sA by sB. -/
  | shr (p : BitVec 3) (b : BitVec 5) (a : BitVec 5) (w : BitVec 2) (d : BitVec 5)
  /-- R199: Arithmetic right shift of sA by sB. -/
  | sar (p : BitVec 3) (b : BitVec 5) (a : BitVec 5) (w : BitVec 2) (d : BitVec 5)
  /-- R199: Rotates sA right by sB within w bits. -/
  | ror (p : BitVec 3) (b : BitVec 5) (a : BitVec 5) (w : BitVec 2) (d : BitVec 5)
  /-- R199: Low product of sA and sB. -/
  | mul (p : BitVec 3) (b : BitVec 5) (a : BitVec 5) (w : BitVec 2) (d : BitVec 5)
  /-- R199: High half of the signed product. -/
  | mulh (p : BitVec 3) (b : BitVec 5) (a : BitVec 5) (w : BitVec 2) (d : BitVec 5)
  /-- R199: High half of the unsigned product. -/
  | mulhu (p : BitVec 3) (b : BitVec 5) (a : BitVec 5) (w : BitVec 2) (d : BitVec 5)
  /-- R199: Signed division truncated toward zero, with defined results for zero and overflow. -/
  | div (p : BitVec 3) (b : BitVec 5) (a : BitVec 5) (w : BitVec 2) (d : BitVec 5)
  /-- R199: Unsigned division. -/
  | divu (p : BitVec 3) (b : BitVec 5) (a : BitVec 5) (w : BitVec 2) (d : BitVec 5)
  /-- R199: Signed remainder. -/
  | rem (p : BitVec 3) (b : BitVec 5) (a : BitVec 5) (w : BitVec 2) (d : BitVec 5)
  /-- R199: Unsigned remainder. -/
  | remu (p : BitVec 3) (b : BitVec 5) (a : BitVec 5) (w : BitVec 2) (d : BitVec 5)
  /-- R199: Sets sD to 1 if sA is below sB, signed. -/
  | slt (p : BitVec 3) (b : BitVec 5) (a : BitVec 5) (w : BitVec 2) (d : BitVec 5)
  /-- R199: Sets sD to 1 if sA is below sB, unsigned. -/
  | sltu (p : BitVec 3) (b : BitVec 5) (a : BitVec 5) (w : BitVec 2) (d : BitVec 5)
  /-- R199: Signed minimum. -/
  | min (p : BitVec 3) (b : BitVec 5) (a : BitVec 5) (w : BitVec 2) (d : BitVec 5)
  /-- R199: Signed maximum. -/
  | max (p : BitVec 3) (b : BitVec 5) (a : BitVec 5) (w : BitVec 2) (d : BitVec 5)
  /-- R199: Unsigned minimum. -/
  | minu (p : BitVec 3) (b : BitVec 5) (a : BitVec 5) (w : BitVec 2) (d : BitVec 5)
  /-- R199: Unsigned maximum. -/
  | maxu (p : BitVec 3) (b : BitVec 5) (a : BitVec 5) (w : BitVec 2) (d : BitVec 5)
  /-- R199: Signed saturating addition. -/
  | adds (p : BitVec 3) (b : BitVec 5) (a : BitVec 5) (w : BitVec 2) (d : BitVec 5)
  /-- R199: Unsigned saturating addition. -/
  | addsu (p : BitVec 3) (b : BitVec 5) (a : BitVec 5) (w : BitVec 2) (d : BitVec 5)
  /-- R199: Signed saturating subtraction. -/
  | subs (p : BitVec 3) (b : BitVec 5) (a : BitVec 5) (w : BitVec 2) (d : BitVec 5)
  /-- R199: Unsigned saturating subtraction. -/
  | subsu (p : BitVec 3) (b : BitVec 5) (a : BitVec 5) (w : BitVec 2) (d : BitVec 5)
  /-- R199: Counts leading zeros of sA within w bits. -/
  | clz (p : BitVec 3) (a : BitVec 5) (w : BitVec 2) (d : BitVec 5)
  /-- R199: Counts trailing zeros of sA. -/
  | ctz (p : BitVec 3) (a : BitVec 5) (w : BitVec 2) (d : BitVec 5)
  /-- R199: Counts one bits of sA. -/
  | popc (p : BitVec 3) (a : BitVec 5) (w : BitVec 2) (d : BitVec 5)
  /-- R199: Sign-extends sA from width w. -/
  | sext (p : BitVec 3) (a : BitVec 5) (w : BitVec 2) (d : BitVec 5)
  /-- R199: Zero-extends sA from width w. -/
  | zext (p : BitVec 3) (a : BitVec 5) (w : BitVec 2) (d : BitVec 5)
  /-- R200: Adds a sign-extended immediate to sA. -/
  | addi (i : BitVec 12) (a : BitVec 5) (d : BitVec 5)
  /-- R200: ANDs sA with a sign-extended immediate. -/
  | andi (i : BitVec 12) (a : BitVec 5) (d : BitVec 5)
  /-- R200: ORs sA with a sign-extended immediate. -/
  | ori (i : BitVec 12) (a : BitVec 5) (d : BitVec 5)
  /-- R200: XORs sA with a sign-extended immediate. -/
  | xori (i : BitVec 12) (a : BitVec 5) (d : BitVec 5)
  /-- R200: Signed compare of sA with an immediate. -/
  | slti (i : BitVec 12) (a : BitVec 5) (d : BitVec 5)
  /-- R200: Unsigned compare of sA with an immediate. -/
  | sltiu (i : BitVec 12) (a : BitVec 5) (d : BitVec 5)
  /-- R200: Shifts sA left by an immediate count at 64 bits. -/
  | shli (n : BitVec 6) (a : BitVec 5) (d : BitVec 5)
  /-- R200: Logical right shift by an immediate count. -/
  | shri (n : BitVec 6) (a : BitVec 5) (d : BitVec 5)
  /-- R200: Arithmetic right shift by an immediate count. -/
  | sari (n : BitVec 6) (a : BitVec 5) (d : BitVec 5)
  /-- R200: Rotates right by an immediate count. -/
  | rori (n : BitVec 6) (a : BitVec 5) (d : BitVec 5)
  /-- R200: Multiplies sA by a sign-extended immediate. -/
  | muli (i : BitVec 12) (a : BitVec 5) (d : BitVec 5)
  /-- R201: Loads a 20-bit upper immediate, sign-extended from bit 31. -/
  | ldhi (i : BitVec 20) (d : BitVec 5)
  /-- R201: Adds a 20-bit upper immediate to the PC. -/
  | addpc (i : BitVec 20) (d : BitVec 5)
  /-- R210: Loads a sign-extended byte from device memory. -/
  | ldB (i : BitVec 12) (a : BitVec 5) (d : BitVec 5)
  /-- R210: Loads a sign-extended halfword from device memory. -/
  | ldH (i : BitVec 12) (a : BitVec 5) (d : BitVec 5)
  /-- R210: Loads a sign-extended word from device memory. -/
  | ldW (i : BitVec 12) (a : BitVec 5) (d : BitVec 5)
  /-- R210: Loads a doubleword from device memory through the L1. -/
  | ldD (i : BitVec 12) (a : BitVec 5) (d : BitVec 5)
  /-- R210: Loads a zero-extended byte from device memory. -/
  | ldBu (i : BitVec 12) (a : BitVec 5) (d : BitVec 5)
  /-- R210: Loads a zero-extended halfword from device memory. -/
  | ldHu (i : BitVec 12) (a : BitVec 5) (d : BitVec 5)
  /-- R210: Loads a zero-extended word from device memory. -/
  | ldWu (i : BitVec 12) (a : BitVec 5) (d : BitVec 5)
  /-- R213: Prefetches a line into the L1 or the home cache, never faulting. -/
  | pf (i : BitVec 12) (a : BitVec 5) (k : BitVec 1)
  /-- R210: Stores a byte to device memory. -/
  | stB (i : BitVec 12) (a : BitVec 5) (d : BitVec 5)
  /-- R210: Stores a halfword to device memory. -/
  | stH (i : BitVec 12) (a : BitVec 5) (d : BitVec 5)
  /-- R210: Stores a word to device memory. -/
  | stW (i : BitVec 12) (a : BitVec 5) (d : BitVec 5)
  /-- R210: Stores a doubleword to device memory, into the L1 for cached pages. -/
  | stD (i : BitVec 12) (a : BitVec 5) (d : BitVec 5)
  /-- R211: Allocates a whole L1 line as zero, valid and dirty. -/
  | stZ (i : BitVec 12) (a : BitVec 5)
  /-- R214: Loads a sign-extended byte from the local store. -/
  | ldBLs (i : BitVec 12) (a : BitVec 5) (d : BitVec 5)
  /-- R214: Loads a sign-extended halfword from the local store. -/
  | ldHLs (i : BitVec 12) (a : BitVec 5) (d : BitVec 5)
  /-- R214: Loads a sign-extended word from the local store. -/
  | ldWLs (i : BitVec 12) (a : BitVec 5) (d : BitVec 5)
  /-- R214: Loads a doubleword from the local store. -/
  | ldDLs (i : BitVec 12) (a : BitVec 5) (d : BitVec 5)
  /-- R214: Stores a byte to the local store. -/
  | stBLs (i : BitVec 12) (a : BitVec 5) (d : BitVec 5)
  /-- R214: Stores a halfword to the local store. -/
  | stHLs (i : BitVec 12) (a : BitVec 5) (d : BitVec 5)
  /-- R214: Stores a word to the local store. -/
  | stWLs (i : BitVec 12) (a : BitVec 5) (d : BitVec 5)
  /-- R214: Stores a doubleword to the local store, setting tile-slot dirty bits. -/
  | stDLs (i : BitVec 12) (a : BitVec 5) (d : BitVec 5)
  /-- R215: Atomically swaps sB into memory and returns the old value. -/
  | amoSwap (r : BitVec 1) (q : BitVec 1) (l : BitVec 1) (b : BitVec 5) (a : BitVec 5) (w : BitVec 1) (d : BitVec 5)
  /-- R215: Atomically adds sB, returning the old value; a reduction when D = 0. -/
  | amoAdd (r : BitVec 1) (q : BitVec 1) (l : BitVec 1) (b : BitVec 5) (a : BitVec 5) (w : BitVec 1) (d : BitVec 5)
  /-- R215: Atomic AND. -/
  | amoAnd (r : BitVec 1) (q : BitVec 1) (l : BitVec 1) (b : BitVec 5) (a : BitVec 5) (w : BitVec 1) (d : BitVec 5)
  /-- R215: Atomic OR. -/
  | amoOr (r : BitVec 1) (q : BitVec 1) (l : BitVec 1) (b : BitVec 5) (a : BitVec 5) (w : BitVec 1) (d : BitVec 5)
  /-- R215: Atomic XOR. -/
  | amoXor (r : BitVec 1) (q : BitVec 1) (l : BitVec 1) (b : BitVec 5) (a : BitVec 5) (w : BitVec 1) (d : BitVec 5)
  /-- R215: Atomic signed minimum. -/
  | amoMin (r : BitVec 1) (q : BitVec 1) (l : BitVec 1) (b : BitVec 5) (a : BitVec 5) (w : BitVec 1) (d : BitVec 5)
  /-- R215: Atomic signed maximum. -/
  | amoMax (r : BitVec 1) (q : BitVec 1) (l : BitVec 1) (b : BitVec 5) (a : BitVec 5) (w : BitVec 1) (d : BitVec 5)
  /-- R215: Atomic unsigned minimum. -/
  | amoMinu (r : BitVec 1) (q : BitVec 1) (l : BitVec 1) (b : BitVec 5) (a : BitVec 5) (w : BitVec 1) (d : BitVec 5)
  /-- R215: Atomic unsigned maximum. -/
  | amoMaxu (r : BitVec 1) (q : BitVec 1) (l : BitVec 1) (b : BitVec 5) (a : BitVec 5) (w : BitVec 1) (d : BitVec 5)
  /-- R215: Atomic compare-and-swap against sD. -/
  | amoCas (r : BitVec 1) (q : BitVec 1) (l : BitVec 1) (b : BitVec 5) (a : BitVec 5) (w : BitVec 1) (d : BitVec 5)
  /-- R219: Atomic floating-point add rounded RNE, flags ORed without trap. -/
  | amoFadd (r : BitVec 1) (q : BitVec 1) (l : BitVec 1) (b : BitVec 5) (a : BitVec 5) (w : BitVec 1) (d : BitVec 5)
  /-- R215: Atomic load returning the value. -/
  | amoLd (r : BitVec 1) (q : BitVec 1) (l : BitVec 1) (a : BitVec 5) (w : BitVec 1) (d : BitVec 5)
  /-- R215: Atomic store returning nothing. -/
  | amoSt (r : BitVec 1) (q : BitVec 1) (l : BitVec 1) (b : BitVec 5) (a : BitVec 5) (w : BitVec 1)
  /-- R204: Scalar floating-point addition. -/
  | fadd (r : BitVec 3) (b : BitVec 5) (a : BitVec 5) (f : BitVec 2) (d : BitVec 5)
  /-- R204: Scalar floating-point subtraction. -/
  | fsub (r : BitVec 3) (b : BitVec 5) (a : BitVec 5) (f : BitVec 2) (d : BitVec 5)
  /-- R204: Scalar floating-point multiplication. -/
  | fmul (r : BitVec 3) (b : BitVec 5) (a : BitVec 5) (f : BitVec 2) (d : BitVec 5)
  /-- R204: Scalar floating-point division. -/
  | fdiv (r : BitVec 3) (b : BitVec 5) (a : BitVec 5) (f : BitVec 2) (d : BitVec 5)
  /-- R204: Scalar floating-point square root. -/
  | fsqrt (r : BitVec 3) (a : BitVec 5) (f : BitVec 2) (d : BitVec 5)
  /-- R204: Floating-point minimum without rounding. -/
  | fmin (b : BitVec 5) (a : BitVec 5) (f : BitVec 2) (d : BitVec 5)
  /-- R204: Floating-point maximum without rounding. -/
  | fmax (b : BitVec 5) (a : BitVec 5) (f : BitVec 2) (d : BitVec 5)
  /-- R204: Magnitude of a with the sign of b. -/
  | fsgnj (b : BitVec 5) (a : BitVec 5) (f : BitVec 2) (d : BitVec 5)
  /-- R204: Magnitude of a with the inverted sign of b. -/
  | fsgnjn (b : BitVec 5) (a : BitVec 5) (f : BitVec 2) (d : BitVec 5)
  /-- R204: Magnitude of a with the XOR of both signs. -/
  | fsgnjx (b : BitVec 5) (a : BitVec 5) (f : BitVec 2) (d : BitVec 5)
  /-- R204: Floating-point equality compare. -/
  | feq (b : BitVec 5) (a : BitVec 5) (f : BitVec 2) (d : BitVec 5)
  /-- R204: Floating-point less-than compare. -/
  | flt (b : BitVec 5) (a : BitVec 5) (f : BitVec 2) (d : BitVec 5)
  /-- R204: Floating-point less-or-equal compare. -/
  | fle (b : BitVec 5) (a : BitVec 5) (f : BitVec 2) (d : BitVec 5)
  /-- R204: Classifies a floating-point value into a one-hot mask. -/
  | fclass (a : BitVec 5) (f : BitVec 2) (d : BitVec 5)
  /-- R204: Converts float to an integer type with saturation. -/
  | ftoi (r : BitVec 3) (t : BitVec 3) (a : BitVec 5) (f : BitVec 2) (d : BitVec 5)
  /-- R204: Converts an integer type to float. -/
  | itof (r : BitVec 3) (t : BitVec 3) (a : BitVec 5) (f : BitVec 2) (d : BitVec 5)
  /-- R204: Converts between floating-point formats. -/
  | fcvt (r : BitVec 3) (g : BitVec 2) (a : BitVec 5) (f : BitVec 2) (d : BitVec 5)
  /-- R205: Fused a × b + c with one rounding. -/
  | fmadd (c : BitVec 5) (r : BitVec 3) (b : BitVec 5) (a : BitVec 5) (f : BitVec 1) (d : BitVec 5)
  /-- R205: Fused a × b − c. -/
  | fmsub (c : BitVec 5) (r : BitVec 3) (b : BitVec 5) (a : BitVec 5) (f : BitVec 1) (d : BitVec 5)
  /-- R205: Fused −(a × b) + c. -/
  | fnmsub (c : BitVec 5) (r : BitVec 3) (b : BitVec 5) (a : BitVec 5) (f : BitVec 1) (d : BitVec 5)
  /-- R205: Fused −(a × b) − c. -/
  | fnmadd (c : BitVec 5) (r : BitVec 3) (b : BitVec 5) (a : BitVec 5) (f : BitVec 1) (d : BitVec 5)
  /-- R206: Branches if sA is zero. -/
  | bZ (o : BitVec 15) (a : BitVec 5)
  /-- R206: Branches if sA is nonzero. -/
  | bNz (o : BitVec 15) (a : BitVec 5)
  /-- R206: Branches if sA is negative. -/
  | bLt (o : BitVec 15) (a : BitVec 5)
  /-- R206: Branches if sA is non-negative. -/
  | bGe (o : BitVec 15) (a : BitVec 5)
  /-- R206: Branches if sA is positive. -/
  | bGt (o : BitVec 15) (a : BitVec 5)
  /-- R206: Branches if sA is not positive. -/
  | bLe (o : BitVec 15) (a : BitVec 5)
  /-- R206: Branches if sA is odd. -/
  | bOdd (o : BitVec 15) (a : BitVec 5)
  /-- R206: Branches if sA is even. -/
  | bEven (o : BitVec 15) (a : BitVec 5)
  /-- R206: Decrements sA and branches if zero. -/
  | lpZ (o : BitVec 15) (a : BitVec 5)
  /-- R206: Decrements sA and branches if nonzero. -/
  | lpNz (o : BitVec 15) (a : BitVec 5)
  /-- R206: Decrements sA and branches if negative. -/
  | lpLt (o : BitVec 15) (a : BitVec 5)
  /-- R206: Decrements sA and branches if non-negative. -/
  | lpGe (o : BitVec 15) (a : BitVec 5)
  /-- R206: Decrements sA and branches if positive. -/
  | lpGt (o : BitVec 15) (a : BitVec 5)
  /-- R206: Decrements sA and branches if not positive. -/
  | lpLe (o : BitVec 15) (a : BitVec 5)
  /-- R206: Decrements sA and branches if odd. -/
  | lpOdd (o : BitVec 15) (a : BitVec 5)
  /-- R206: Decrements sA and branches if even. -/
  | lpEven (o : BitVec 15) (a : BitVec 5)
  /-- R207: Relative jump. -/
  | jmp (o : BitVec 24)
  /-- R207: Relative call that sets lk and opens a window. -/
  | call (o : BitVec 24)
  /-- R208: Indirect jump to sA plus an immediate. -/
  | jr (i : BitVec 12) (a : BitVec 5)
  /-- R208: Indirect jump that writes the return address to sD without a window change. -/
  | jal (i : BitVec 12) (a : BitVec 5) (d : BitVec 5)
  /-- R208: Indirect call that sets lk and opens a window. -/
  | callr (i : BitVec 12) (a : BitVec 5)
  /-- R208: Closes the current window and jumps to lk. -/
  | ret
  /-- R208: Spills every resident window except the current one. -/
  | wflush
  /-- R202: Writes the tile start of a dimension from the geometry and WID. -/
  | geoStart (m : BitVec 2) (d : BitVec 5)
  /-- R202: Writes the tile length of a dimension. -/
  | geoLen (m : BitVec 2) (d : BitVec 5)
  /-- R202: Writes the 3-bit edge mask. -/
  | geoEdge (d : BitVec 5)
  /-- R202: Writes the tile coordinate of a dimension. -/
  | geoCrd (m : BitVec 2) (d : BitVec 5)
  /-- R202: Extracts field k of WID. -/
  | widField (k : BitVec 3) (d : BitVec 5)
  /-- R202: Extracts field k of sA using the launch widths. -/
  | widReg (k : BitVec 3) (a : BitVec 5) (d : BitVec 5)
  /-- R202: Loads an extension register from the local store. -/
  | xld (i : BitVec 12) (a : BitVec 5) (n : BitVec 3)
  /-- R202: Sets an extension register to sA plus an immediate. -/
  | xli (i : BitVec 12) (a : BitVec 5) (n : BitVec 3)
  /-- R202: Copies an extension register to sD. -/
  | xmv (n : BitVec 3) (d : BitVec 5)
  /-- R203: Computes the local address of tile slot j of the running transaction frame. -/
  | tsa (j : BitVec 3) (a : BitVec 5) (d : BitVec 5)
  /-- R175: Executes as a no-op whatever its hint value. -/
  | hint (h : BitVec 25)
  /-- R175: The all-zero hint word, a no-op. -/
  | nop
  /-- R177: Compact or sD, sA, s0. -/
  | cMove (d : BitVec 4) (a : BitVec 4)
  /-- R177: Compact add sD, sD, sA. -/
  | cAdd (d : BitVec 4) (a : BitVec 4)
  /-- R177: Compact sub sD, sD, sA. -/
  | cSub (d : BitVec 4) (a : BitVec 4)
  /-- R177: Compact and sD, sD, sA. -/
  | cAnd (d : BitVec 4) (a : BitVec 4)
  /-- R177: Compact or sD, sD, sA. -/
  | cOr (d : BitVec 4) (a : BitVec 4)
  /-- R177: Compact xor sD, sD, sA. -/
  | cXor (d : BitVec 4) (a : BitVec 4)
  /-- R177: Compact shl sD, sD, sA. -/
  | cShl (d : BitVec 4) (a : BitVec 4)
  /-- R177: Compact shr sD, sD, sA. -/
  | cShr (d : BitVec 4) (a : BitVec 4)
  /-- R177: Compact sar sD, sD, sA. -/
  | cSar (d : BitVec 4) (a : BitVec 4)
  /-- R177: Compact mul sD, sD, sA. -/
  | cMul (d : BitVec 4) (a : BitVec 4)
  /-- R177: Compact ld.d sD, [sA]. -/
  | cLdD (d : BitVec 4) (a : BitVec 4)
  /-- R177: Compact st.d sD, [sA]. -/
  | cStD (d : BitVec 4) (a : BitVec 4)
  /-- R177: Compact ld.d sD, ls[sA]. -/
  | cLdDLs (d : BitVec 4) (a : BitVec 4)
  /-- R177: Compact st.d sD, ls[sA]. -/
  | cStDLs (d : BitVec 4) (a : BitVec 4)
  /-- R177: Compact jr sA. -/
  | cJr (a : BitVec 4)
  /-- R177: Compact ret. -/
  | cRet
  /-- R177: Compact hint, a no-op. -/
  | cHint (d : BitVec 4) (a : BitVec 4)
  /-- R177: Compact addi sD, s0, imm. -/
  | cAddiS0 (d : BitVec 4) (i : BitVec 6)
  /-- R177: Compact addi sD, sD, imm. -/
  | cAddi (d : BitVec 4) (i : BitVec 6)
  /-- R177: Compact shli sD, sD, imm. -/
  | cShli (d : BitVec 4) (i : BitVec 6)
  /-- R177: Compact shri sD, sD, imm. -/
  | cShri (d : BitVec 4) (i : BitVec 6)
  /-- R177: Compact sari sD, sD, imm. -/
  | cSari (d : BitVec 4) (i : BitVec 6)
  /-- R177: Compact andi sD, sD, imm. -/
  | cAndi (d : BitVec 4) (i : BitVec 6)
  /-- R177: Compact ld.d sD, [sp+8×imm]. -/
  | cLdDSp (d : BitVec 4) (i : BitVec 6)
  /-- R177: Compact st.d sD, [sp+8×imm]. -/
  | cStDSp (d : BitVec 4) (i : BitVec 6)
  /-- R177: Compact relative jump. -/
  | cJmp (o : BitVec 12)
  /-- R177: Compact branch if sA is zero. -/
  | cBZ (a : BitVec 4) (o : BitVec 8)
  /-- R177: Compact branch if sA is nonzero. -/
  | cBNz (a : BitVec 4) (o : BitVec 8)
  /-- R230: Element-wise integer addition. -/
  | vadd (p : BitVec 3) (e : BitVec 2) (s : BitVec 1) (b : BitVec 5) (a : BitVec 4) (d : BitVec 4)
  /-- R230: Element-wise integer subtraction. -/
  | vsub (p : BitVec 3) (e : BitVec 2) (s : BitVec 1) (b : BitVec 5) (a : BitVec 4) (d : BitVec 4)
  /-- R230: Element-wise integer multiplication. -/
  | vmul (p : BitVec 3) (e : BitVec 2) (s : BitVec 1) (b : BitVec 5) (a : BitVec 4) (d : BitVec 4)
  /-- R230: High half of the signed element product. -/
  | vmulh (p : BitVec 3) (e : BitVec 2) (s : BitVec 1) (b : BitVec 5) (a : BitVec 4) (d : BitVec 4)
  /-- R230: High half of the unsigned element product. -/
  | vmulhu (p : BitVec 3) (e : BitVec 2) (s : BitVec 1) (b : BitVec 5) (a : BitVec 4) (d : BitVec 4)
  /-- R230: Signed saturating element addition. -/
  | vadds (p : BitVec 3) (e : BitVec 2) (s : BitVec 1) (b : BitVec 5) (a : BitVec 4) (d : BitVec 4)
  /-- R230: Unsigned saturating element addition. -/
  | vaddsu (p : BitVec 3) (e : BitVec 2) (s : BitVec 1) (b : BitVec 5) (a : BitVec 4) (d : BitVec 4)
  /-- R230: Signed saturating element subtraction. -/
  | vsubs (p : BitVec 3) (e : BitVec 2) (s : BitVec 1) (b : BitVec 5) (a : BitVec 4) (d : BitVec 4)
  /-- R230: Unsigned saturating element subtraction. -/
  | vsubsu (p : BitVec 3) (e : BitVec 2) (s : BitVec 1) (b : BitVec 5) (a : BitVec 4) (d : BitVec 4)
  /-- R230: Signed element minimum. -/
  | vmin (p : BitVec 3) (e : BitVec 2) (s : BitVec 1) (b : BitVec 5) (a : BitVec 4) (d : BitVec 4)
  /-- R230: Signed element maximum. -/
  | vmax (p : BitVec 3) (e : BitVec 2) (s : BitVec 1) (b : BitVec 5) (a : BitVec 4) (d : BitVec 4)
  /-- R230: Unsigned element minimum. -/
  | vminu (p : BitVec 3) (e : BitVec 2) (s : BitVec 1) (b : BitVec 5) (a : BitVec 4) (d : BitVec 4)
  /-- R230: Unsigned element maximum. -/
  | vmaxu (p : BitVec 3) (e : BitVec 2) (s : BitVec 1) (b : BitVec 5) (a : BitVec 4) (d : BitVec 4)
  /-- R230: Element-wise AND. -/
  | vand (p : BitVec 3) (e : BitVec 2) (s : BitVec 1) (b : BitVec 5) (a : BitVec 4) (d : BitVec 4)
  /-- R230: Element-wise OR. -/
  | vor (p : BitVec 3) (e : BitVec 2) (s : BitVec 1) (b : BitVec 5) (a : BitVec 4) (d : BitVec 4)
  /-- R230: Element-wise XOR. -/
  | vxor (p : BitVec 3) (e : BitVec 2) (s : BitVec 1) (b : BitVec 5) (a : BitVec 4) (d : BitVec 4)
  /-- R230: Element-wise left shift. -/
  | vshl (p : BitVec 3) (e : BitVec 2) (s : BitVec 1) (b : BitVec 5) (a : BitVec 4) (d : BitVec 4)
  /-- R230: Element-wise logical right shift. -/
  | vshr (p : BitVec 3) (e : BitVec 2) (s : BitVec 1) (b : BitVec 5) (a : BitVec 4) (d : BitVec 4)
  /-- R230: Element-wise arithmetic right shift. -/
  | vsar (p : BitVec 3) (e : BitVec 2) (s : BitVec 1) (b : BitVec 5) (a : BitVec 4) (d : BitVec 4)
  /-- R230: Element-wise signed absolute value. -/
  | vabs (p : BitVec 3) (e : BitVec 2) (a : BitVec 4) (d : BitVec 4)
  /-- R231: Element equality compare into a predicate. -/
  | vcmpeq (p : BitVec 3) (e : BitVec 2) (s : BitVec 1) (b : BitVec 5) (a : BitVec 4) (d : BitVec 3)
  /-- R231: Signed less-than compare into a predicate. -/
  | vcmplt (p : BitVec 3) (e : BitVec 2) (s : BitVec 1) (b : BitVec 5) (a : BitVec 4) (d : BitVec 3)
  /-- R231: Unsigned less-than compare into a predicate. -/
  | vcmpltu (p : BitVec 3) (e : BitVec 2) (s : BitVec 1) (b : BitVec 5) (a : BitVec 4) (d : BitVec 3)
  /-- R231: Signed less-or-equal compare into a predicate. -/
  | vcmple (p : BitVec 3) (e : BitVec 2) (s : BitVec 1) (b : BitVec 5) (a : BitVec 4) (d : BitVec 3)
  /-- R231: Unsigned less-or-equal compare into a predicate. -/
  | vcmpleu (p : BitVec 3) (e : BitVec 2) (s : BitVec 1) (b : BitVec 5) (a : BitVec 4) (d : BitVec 3)
  /-- R234: Decodes trit plane k of ternary bytes into signed INT8 elements. -/
  | vtunp (p : BitVec 3) (k : BitVec 3) (a : BitVec 4) (d : BitVec 4)
  /-- R235: Ternary-weight dot product of 20 weights per lane accumulated into INT32. -/
  | vtdot (p : BitVec 3) (b : BitVec 4) (a : BitVec 4) (d : BitVec 4)
  /-- R236: Inclusive or exclusive prefix sum, min or max over active elements. -/
  | vscan (p : BitVec 3) (e : BitVec 3) (x : BitVec 1) (u : BitVec 1) (o : BitVec 2) (a : BitVec 4) (d : BitVec 4)
  /-- R237: Reduces the active elements into a scalar. -/
  | vred (p : BitVec 3) (e : BitVec 3) (k : BitVec 3) (a : BitVec 4) (d : BitVec 4)
  /-- R233: Four-way signed byte dot product accumulated into 32-bit elements. -/
  | vdot4 (p : BitVec 3) (s : BitVec 1) (b : BitVec 5) (a : BitVec 4) (d : BitVec 4)
  /-- R232: Selects elements of A or B by the predicate. -/
  | vsel (p : BitVec 3) (e : BitVec 3) (s : BitVec 1) (b : BitVec 5) (a : BitVec 4) (d : BitVec 4)
  /-- R232: Moves or broadcasts into active elements. -/
  | vmv (p : BitVec 3) (e : BitVec 3) (s : BitVec 1) (b : BitVec 5) (d : BitVec 4)
  /-- R239: Element-wise floating-point addition. -/
  | vfadd (p : BitVec 3) (e : BitVec 2) (s : BitVec 1) (b : BitVec 5) (a : BitVec 4) (d : BitVec 4)
  /-- R239: Element-wise floating-point subtraction. -/
  | vfsub (p : BitVec 3) (e : BitVec 2) (s : BitVec 1) (b : BitVec 5) (a : BitVec 4) (d : BitVec 4)
  /-- R239: Element-wise floating-point multiplication. -/
  | vfmul (p : BitVec 3) (e : BitVec 2) (s : BitVec 1) (b : BitVec 5) (a : BitVec 4) (d : BitVec 4)
  /-- R239: Element-wise floating-point division. -/
  | vfdiv (p : BitVec 3) (e : BitVec 2) (s : BitVec 1) (b : BitVec 5) (a : BitVec 4) (d : BitVec 4)
  /-- R239: Element-wise floating-point square root. -/
  | vfsqrt (p : BitVec 3) (e : BitVec 2) (a : BitVec 4) (d : BitVec 4)
  /-- R239: Element-wise floating-point minimum. -/
  | vfmin (p : BitVec 3) (e : BitVec 2) (s : BitVec 1) (b : BitVec 5) (a : BitVec 4) (d : BitVec 4)
  /-- R239: Element-wise floating-point maximum. -/
  | vfmax (p : BitVec 3) (e : BitVec 2) (s : BitVec 1) (b : BitVec 5) (a : BitVec 4) (d : BitVec 4)
  /-- R239: Element-wise sign injection. -/
  | vfsgnj (p : BitVec 3) (e : BitVec 2) (s : BitVec 1) (b : BitVec 5) (a : BitVec 4) (d : BitVec 4)
  /-- R239: Element-wise negated sign injection. -/
  | vfsgnjn (p : BitVec 3) (e : BitVec 2) (s : BitVec 1) (b : BitVec 5) (a : BitVec 4) (d : BitVec 4)
  /-- R239: Element-wise XOR sign injection. -/
  | vfsgnjx (p : BitVec 3) (e : BitVec 2) (s : BitVec 1) (b : BitVec 5) (a : BitVec 4) (d : BitVec 4)
  /-- R239: Floating-point equality compare into a predicate. -/
  | vfcmpeq (p : BitVec 3) (e : BitVec 2) (s : BitVec 1) (b : BitVec 5) (a : BitVec 4) (d : BitVec 3)
  /-- R239: Floating-point less-than compare into a predicate. -/
  | vfcmplt (p : BitVec 3) (e : BitVec 2) (s : BitVec 1) (b : BitVec 5) (a : BitVec 4) (d : BitVec 3)
  /-- R239: Floating-point less-or-equal compare into a predicate. -/
  | vfcmple (p : BitVec 3) (e : BitVec 2) (s : BitVec 1) (b : BitVec 5) (a : BitVec 4) (d : BitVec 3)
  /-- R240: Converts one chunk between element types, integers signed. -/
  | vcvt (p : BitVec 3) (s : BitVec 3) (c : BitVec 1) (h : BitVec 2) (t : BitVec 3) (a : BitVec 4) (d : BitVec 4)
  /-- R240: Converts one chunk between element types, integers unsigned. -/
  | vcvtu (p : BitVec 3) (s : BitVec 3) (c : BitVec 1) (h : BitVec 2) (t : BitVec 3) (a : BitVec 4) (d : BitVec 4)
  /-- R241: Permutes elements of A by index. -/
  | vperm (p : BitVec 3) (e : BitVec 3) (s : BitVec 1) (b : BitVec 5) (a : BitVec 4) (d : BitVec 4)
  /-- R241: Slides elements of A by a scalar offset. -/
  | vslide (p : BitVec 3) (e : BitVec 3) (b : BitVec 5) (a : BitVec 4) (d : BitVec 4)
  /-- R241: Interleaves the low halves of A and B. -/
  | vzipLo (p : BitVec 3) (e : BitVec 3) (b : BitVec 4) (a : BitVec 4) (d : BitVec 4)
  /-- R241: Interleaves the high halves of A and B. -/
  | vzipHi (p : BitVec 3) (e : BitVec 3) (b : BitVec 4) (a : BitVec 4) (d : BitVec 4)
  /-- R241: Takes the even elements of A then B. -/
  | vunzipEv (p : BitVec 3) (e : BitVec 3) (b : BitVec 4) (a : BitVec 4) (d : BitVec 4)
  /-- R241: Takes the odd elements of A then B. -/
  | vunzipOd (p : BitVec 3) (e : BitVec 3) (b : BitVec 4) (a : BitVec 4) (d : BitVec 4)
  /-- R242: Packs selected elements of A to the bottom of D. -/
  | vcompress (p : BitVec 3) (e : BitVec 3) (a : BitVec 4) (d : BitVec 4)
  /-- R242: Extracts one element into a scalar. -/
  | vext (e : BitVec 3) (b : BitVec 5) (a : BitVec 4) (d : BitVec 4)
  /-- R243: Predicate AND. -/
  | pand (b : BitVec 3) (a : BitVec 3) (d : BitVec 3)
  /-- R243: Predicate OR. -/
  | por (b : BitVec 3) (a : BitVec 3) (d : BitVec 3)
  /-- R243: Predicate XOR. -/
  | pxor (b : BitVec 3) (a : BitVec 3) (d : BitVec 3)
  /-- R243: Predicate AND-NOT. -/
  | pandn (b : BitVec 3) (a : BitVec 3) (d : BitVec 3)
  /-- R243: Predicate NOT. -/
  | pnot (a : BitVec 3) (d : BitVec 3)
  /-- R243: Counts set predicate elements into a scalar. -/
  | ppop (e : BitVec 3) (a : BitVec 3) (d : BitVec 4)
  /-- R243: Moves a scalar into a predicate. -/
  | pmvToPred (b : BitVec 5) (d : BitVec 3)
  /-- R243: Moves a predicate into a scalar. -/
  | pmvFromPred (a : BitVec 3) (d : BitVec 4)
  /-- R243: Sets the predicate elements below a scalar count. -/
  | pwhile (e : BitVec 3) (b : BitVec 5) (d : BitVec 3)
  /-- R245: Vector fused a × b + c. -/
  | vfmadd (r : BitVec 3) (p : BitVec 3) (c : BitVec 4) (b : BitVec 4) (f : BitVec 1) (a : BitVec 4) (d : BitVec 4)
  /-- R245: Vector fused a × b − c. -/
  | vfmsub (r : BitVec 3) (p : BitVec 3) (c : BitVec 4) (b : BitVec 4) (f : BitVec 1) (a : BitVec 4) (d : BitVec 4)
  /-- R245: Vector fused −(a × b) + c. -/
  | vfnmsub (r : BitVec 3) (p : BitVec 3) (c : BitVec 4) (b : BitVec 4) (f : BitVec 1) (a : BitVec 4) (d : BitVec 4)
  /-- R245: Vector fused −(a × b) − c. -/
  | vfnmadd (r : BitVec 3) (p : BitVec 3) (c : BitVec 4) (b : BitVec 4) (f : BitVec 1) (a : BitVec 4) (d : BitVec 4)
  /-- R246: Contiguous vector load from device memory. -/
  | vld (p : BitVec 3) (a : BitVec 5) (e : BitVec 3) (d : BitVec 4)
  /-- R246: Contiguous vector store to device memory. -/
  | vst (p : BitVec 3) (a : BitVec 5) (e : BitVec 3) (d : BitVec 4)
  /-- R246: Strided vector load from device memory. -/
  | vlds (p : BitVec 3) (b : BitVec 5) (a : BitVec 5) (e : BitVec 3) (d : BitVec 4)
  /-- R246: Strided vector store to device memory. -/
  | vsts (p : BitVec 3) (b : BitVec 5) (a : BitVec 5) (e : BitVec 3) (d : BitVec 4)
  /-- R246: Gather load from device memory. -/
  | vldg (p : BitVec 3) (b : BitVec 4) (a : BitVec 5) (e : BitVec 3) (d : BitVec 4)
  /-- R246: Scatter store to device memory. -/
  | vstg (p : BitVec 3) (b : BitVec 4) (a : BitVec 5) (e : BitVec 3) (d : BitVec 4)
  /-- R248: Contiguous vector load from the local store. -/
  | vldLs (p : BitVec 3) (a : BitVec 5) (e : BitVec 3) (d : BitVec 4)
  /-- R248: Contiguous vector store to the local store. -/
  | vstLs (p : BitVec 3) (a : BitVec 5) (e : BitVec 3) (d : BitVec 4)
  /-- R248: Gather load from the local store. -/
  | vldgLs (p : BitVec 3) (b : BitVec 4) (a : BitVec 5) (e : BitVec 3) (d : BitVec 4)
  /-- R248: Scatter store to the local store. -/
  | vstgLs (p : BitVec 3) (b : BitVec 4) (a : BitVec 5) (e : BitVec 3) (d : BitVec 4)
  /-- R248: Strided vector load from the local store. -/
  | vldsLs (p : BitVec 3) (b : BitVec 5) (a : BitVec 5) (e : BitVec 3) (d : BitVec 4)
  /-- R248: Strided vector store to the local store. -/
  | vstsLs (p : BitVec 3) (b : BitVec 5) (a : BitVec 5) (e : BitVec 3) (d : BitVec 4)
  /-- R259: Queues the setting of the active extents KACT and NACT. -/
  | mgeo (b : BitVec 5) (a : BitVec 5)
  /-- R257: Queues a staged weight format descriptor. -/
  | mwfmt (x : BitVec 3)
  /-- R258: Queues a weight-tile reload that latches the staged descriptor. -/
  | mwld (a : BitVec 5)
  /-- R260: Queues a multiply-accumulate streaming activation rows into a bank. -/
  | macc (x : BitVec 3) (b : BitVec 5) (a : BitVec 5) (d : BitVec 2)
  /-- R262: Queues the zeroing of a bank. -/
  | mzero (d : BitVec 2)
  /-- R263: Queues a converting store of bank rows to the local store. -/
  | mst (x : BitVec 3) (b : BitVec 5) (a : BitVec 2) (d : BitVec 5)
  /-- R262: Queues a raw load of bank rows from the local store. -/
  | mld (x : BitVec 3) (b : BitVec 5) (a : BitVec 5) (d : BitVec 2)
  /-- R262: Queues per-column scaling of bank rows. -/
  | mscl (x : BitVec 3) (a : BitVec 5) (d : BitVec 2)
  /-- R262: Queues per-column bias addition to bank rows. -/
  | mbias (x : BitVec 3) (a : BitVec 5) (d : BitVec 2)
  /-- R262: Queues a bank-to-bank copy. -/
  | mmv (a : BitVec 2) (d : BitVec 2)
  /-- R266: Queues a byte copy between device memory and local store. -/
  | cpy (b : BitVec 5) (a : BitVec 5) (m : BitVec 2) (d : BitVec 5)
  /-- R266: Queues a two-dimensional strided copy. -/
  | cpy2d (x : BitVec 3) (b : BitVec 5) (a : BitVec 5) (m : BitVec 2) (d : BitVec 5)
  /-- R112: Queues a block-cyclic deal to the local stores of listed cores. -/
  | deal (b : BitVec 5) (a : BitVec 5) (d : BitVec 5)
  /-- R267: Queues a weight-store column fill. -/
  | cpyw (x : BitVec 3) (a : BitVec 5) (d : BitVec 5)
  /-- R268: Queues an LZ4 decompress or stored copy with CRC check and status record. -/
  | cpyz (x : BitVec 3) (b : BitVec 5) (a : BitVec 5) (m : BitVec 1) (d : BitVec 5)
  /-- R269: Queues a converting copy of elements. -/
  | cpyc (x : BitVec 3) (b : BitVec 5) (a : BitVec 5) (d : BitVec 5)
  /-- R266: Queues a fill of destination bytes with a repeated 8-byte pattern. -/
  | cpyset (b : BitVec 5) (a : BitVec 5) (m : BitVec 1) (d : BitVec 5)
  /-- R271: Queues a sparse union adding common values. -/
  | mergeAdd (x : BitVec 3) (z : BitVec 1) (i : BitVec 1) (d : BitVec 5)
  /-- R271: Queues a sparse union taking the larger common value. -/
  | mergeMax (x : BitVec 3) (z : BitVec 1) (i : BitVec 1) (d : BitVec 5)
  /-- R271: Queues a sparse union taking the smaller common value. -/
  | mergeMin (x : BitVec 3) (z : BitVec 1) (i : BitVec 1) (d : BitVec 5)
  /-- R271: Queues a sparse union subtracting B from A. -/
  | mergeSub (x : BitVec 3) (z : BitVec 1) (i : BitVec 1) (d : BitVec 5)
  /-- R271: Queues a sparse intersection multiplying values. -/
  | isectMul (x : BitVec 3) (z : BitVec 1) (i : BitVec 1) (d : BitVec 5)
  /-- R271: Queues a sparse intersection taking the smaller value. -/
  | isectMin (x : BitVec 3) (z : BitVec 1) (i : BitVec 1) (d : BitVec 5)
  /-- R271: Queues a sparse intersection taking the larger value. -/
  | isectMax (x : BitVec 3) (z : BitVec 1) (i : BitVec 1) (d : BitVec 5)
  /-- R271: Queues a sparse intersection keeping A's value. -/
  | isectFirst (x : BitVec 3) (z : BitVec 1) (i : BitVec 1) (d : BitVec 5)
  /-- R272: Queues conversion of a dense array into a sparse stream. -/
  | condense (x : BitVec 3) (i : BitVec 1) (a : BitVec 5) (d : BitVec 5)
  /-- R272: Queues expansion of a sparse stream into a dense array. -/
  | expand (x : BitVec 3) (i : BitVec 1) (d : BitVec 5)
  /-- R273: Queues selection of the k largest entries. -/
  | topkMax (x : BitVec 3) (i : BitVec 1) (a : BitVec 5) (d : BitVec 5)
  /-- R273: Queues selection of the k smallest entries. -/
  | topkMin (x : BitVec 3) (i : BitVec 1) (a : BitVec 5) (d : BitVec 5)
  /-- R274: Queues a stable sort of 32-bit key-value pairs. -/
  | ksortK32 (x : BitVec 3) (t : BitVec 1) (s : BitVec 1) (d : BitVec 5)
  /-- R274: Queues a stable sort of 64-bit key-value pairs. -/
  | ksortK64 (x : BitVec 3) (t : BitVec 1) (s : BitVec 1) (d : BitVec 5)
  /-- R309: Releases, translates the buffer and queues an NVMe command, returning its tag. -/
  | nvsub (x : BitVec 3) (a : BitVec 5) (d : BitVec 5)
  /-- R311: Takes a matching storage completion from the mailboxes if present. -/
  | nvpoll (a : BitVec 5) (d : BitVec 5)
  /-- R308: Writes the thread's storage context and returns the old one. -/
  | nvcfg (a : BitVec 5) (d : BitVec 5)
  /-- R276: Claims a Hive table and clears its tag bytes. -/
  | kclaim (b : BitVec 5) (a : BitVec 5) (n : BitVec 5)
  /-- R276: Waits for kq drains and unclaims the Hive table. -/
  | krel
  /-- R279: Inserts a key if absent. -/
  | kins (b : BitVec 5) (a : BitVec 5) (d : BitVec 5)
  /-- R280: Inserts 8 keys lane by lane. -/
  | kinsV64 (x : BitVec 3) (b : BitVec 4) (a : BitVec 4) (d : BitVec 4)
  /-- R280: Inserts 16 keys lane by lane. -/
  | kinsV32 (x : BitVec 3) (b : BitVec 4) (a : BitVec 4) (d : BitVec 4)
  /-- R279: Probes a key for its value and found flag. -/
  | kprb (f : BitVec 5) (a : BitVec 5) (d : BitVec 5)
  /-- R280: Probes 8 keys, writing values and a found predicate. -/
  | kprbV64 (x : BitVec 3) (f : BitVec 3) (a : BitVec 4) (d : BitVec 4)
  /-- R280: Probes 16 keys, writing values and a found predicate. -/
  | kprbV32 (x : BitVec 3) (f : BitVec 3) (a : BitVec 4) (d : BitVec 4)
  /-- R279: Deletes a key. -/
  | kdel (a : BitVec 5) (d : BitVec 5)
  /-- R280: Deletes 8 keys lane by lane. -/
  | kdelV64 (x : BitVec 3) (a : BitVec 4) (d : BitVec 4)
  /-- R280: Deletes 16 keys lane by lane. -/
  | kdelV32 (x : BitVec 3) (a : BitVec 4) (d : BitVec 4)
  /-- R279: Adds a delta to a key's value, placing it if absent. -/
  | kaccAdd (b : BitVec 5) (a : BitVec 5) (d : BitVec 5)
  /-- R280: Accumulates 8 key deltas lane by lane. -/
  | kaccAddV64 (x : BitVec 3) (b : BitVec 4) (a : BitVec 4) (d : BitVec 4)
  /-- R280: Accumulates 16 key deltas lane by lane. -/
  | kaccAddV32 (x : BitVec 3) (b : BitVec 4) (a : BitVec 4) (d : BitVec 4)
  /-- R279: Keeps the signed minimum for a key. -/
  | kaccMin (b : BitVec 5) (a : BitVec 5) (d : BitVec 5)
  /-- R280: Vector signed minimum over 8 keys. -/
  | kaccMinV64 (x : BitVec 3) (b : BitVec 4) (a : BitVec 4) (d : BitVec 4)
  /-- R280: Vector signed minimum over 16 keys. -/
  | kaccMinV32 (x : BitVec 3) (b : BitVec 4) (a : BitVec 4) (d : BitVec 4)
  /-- R279: Keeps the signed maximum for a key. -/
  | kaccMax (b : BitVec 5) (a : BitVec 5) (d : BitVec 5)
  /-- R280: Vector signed maximum over 8 keys. -/
  | kaccMaxV64 (x : BitVec 3) (b : BitVec 4) (a : BitVec 4) (d : BitVec 4)
  /-- R280: Vector signed maximum over 16 keys. -/
  | kaccMaxV32 (x : BitVec 3) (b : BitVec 4) (a : BitVec 4) (d : BitVec 4)
  /-- R279: Adds an FP64 delta to a key's value rounded RNE. -/
  | kaccFadd (b : BitVec 5) (a : BitVec 5) (d : BitVec 5)
  /-- R280: Vector FP64 accumulation over 8 keys. -/
  | kaccFaddV64 (x : BitVec 3) (b : BitVec 4) (a : BitVec 4) (d : BitVec 4)
  /-- R282: Queues a drain of all live Hive entries in table order. -/
  | kdrain (c : BitVec 1) (b : BitVec 5) (a : BitVec 5) (m : BitVec 1)
  /-- R282: Queues a drain of all live Hive entries sorted by key. -/
  | kdrains (s : BitVec 1) (c : BitVec 1) (b : BitVec 5) (a : BitVec 5) (m : BitVec 1)
  /-- R283: Reads a Hive count or status into sD. -/
  | kstat (s : BitVec 5) (d : BitVec 5)
  /-- R291: Increments the frame COUNT and pushes a child task record, or runs it inline. -/
  | spawn (b : BitVec 5) (a : BitVec 5) (d : BitVec 5)
  /-- R292: Writes back, counts and sends a child record to a named logical core. -/
  | spawnAt (b : BitVec 5) (a : BitVec 5) (d : BitVec 5)
  /-- R47: Checks a frame COUNT and continues, parks, runs popped work inline or stalls. -/
  | await (a : BitVec 5)
  /-- R295: Ends the task, inline child or pass, waiting for counters and write-backs before the join decrement. -/
  | quit
  /-- R296: Quits keeping the region and some registers, and leaves rotation for dispenser work. -/
  | wfw
  /-- R297: Parks the thread at the run-list tail when other work is eligible. -/
  | yield
  /-- R298: Builds a transaction submission record and sends it to the Scarab. -/
  | txsub (b : BitVec 5) (a : BitVec 5) (d : BitVec 5)
  /-- R299: Runs a body inline in reconnaissance mode and returns its check word and set. -/
  | txrecon (b : BitVec 5) (a : BitVec 5) (d : BitVec 5)
  /-- R300: Compares ACC with the record's CHECK and may start a checked restart. -/
  | txchk
  /-- R301: Sends a 32-byte message at low priority. -/
  | sendLo (a : BitVec 5) (d : BitVec 5)
  /-- R301: Sends a 32-byte message at high priority. -/
  | sendHi (a : BitVec 5) (d : BitVec 5)
  /-- R302: Takes one mailbox entry into five registers. -/
  | recv (d : BitVec 5)
  /-- R303: Stalls until either mailbox holds an entry. -/
  | waitm
  /-- R303: Stalls until the high mailbox holds an entry. -/
  | waitmHi
  /-- R304: Enters a cluster monitor, waiting or being evicted as needed. -/
  | menter (a : BitVec 5)
  /-- R304: Passes the monitor to the oldest waiter or frees the entry. -/
  | mexit (a : BitVec 5)
  /-- R305: Sets EXPECTED of a barrier unit and clears ARRIVED. -/
  | barCfg (n : BitVec 4) (a : BitVec 5)
  /-- R305: Sends an arrival to a barrier unit and awaits the seen generation. -/
  | barArrive (n : BitVec 4) (d : BitVec 5)
  /-- R305: Stalls until the barrier generation differs from sA. -/
  | barWait (n : BitVec 4) (a : BitVec 5)
  /-- R306: Configures the core's queue registers. -/
  | qcfg (a : BitVec 5)
  /-- R307: Unmaps q0–q3 from s24–s27. -/
  | qmapOff
  /-- R307: Maps q0–q3 onto s24–s27. -/
  | qmapOn
  /-- R221: Stalls until the outstanding counters are within the given bounds. -/
  | wait (t : BitVec 4) (c : BitVec 4) (s : BitVec 4) (l : BitVec 4)
  /-- R132: Orders the thread's later submissions to the named queues after its earlier ones. -/
  | qfence (q : BitVec 5)
  /-- R220: Writes back every dirty L1 line of the core. -/
  | l1wb
  /-- R220: Writes back the L1 line holding sA. -/
  | l1wbL (a : BitVec 5)
  /-- R220: Invalidates the clean bytes of every L1 line. -/
  | l1inv
  /-- R220: Invalidates the clean bytes of the line holding sA. -/
  | l1invL (a : BitVec 5)
  /-- R220: Bumps the core's L1 epoch. -/
  | epoch
  /-- R222: Raises the software trap with an immediate. -/
  | trap (n : BitVec 12)
  /-- R362: Restores the saved globals, privilege and QMAP and returns to XPC. -/
  | sysret
  /-- R222: Reads a special register into sD. -/
  | mfs (n : BitVec 12) (d : BitVec 5)
  /-- R222: Reads an extension register into sD. -/
  | mfsE (n : BitVec 3) (d : BitVec 5)
  /-- R223: Writes a special register field by field by access code. -/
  | mts (n : BitVec 12) (a : BitVec 5)
  /-- R223: Writes an extension register from sA. -/
  | mtsE (n : BitVec 3) (a : BitVec 5)
  /-- R224: Halts the thread for the debugger, or raises the breakpoint trap. -/
  | bkpt (n : BitVec 12)
  /-- R222: Halts the thread until a debug resume. -/
  | halt
  /-- R225: Writes a TLB entry from e0 and e1 into the cluster and a core TLB. -/
  | tlbw (a : BitVec 5)
  /-- R225: Invalidates the TLB entries covering a virtual address in the cluster. -/
  | tlbi (a : BitVec 5)
  /-- R225: Invalidates every TLB entry of the cluster. -/
  | tlbiAll
  /-- R316: Host writes a 64-byte launch header at LPORT, held by flow control when the port is full. -/
  | launchHeaderWrite (hdr : BitVec 512)
  /-- R316: Host writes a 32-byte shape record for the newest waiting header, or it is refused. -/
  | shapeRecordWrite (shape : BitVec 256)
  /-- R317: The port checks the next header in arrival order once its shape record and the ring are present, and reports accept or refuse. -/
  | launchHeaderCheck
  /-- R37: An accepted header becomes a live launch with an index when fewer than 16 are live. -/
  | launchStart
  /-- R318: The device writes a report record into the ring when there is room and advances LRTAIL. -/
  | reportRecordWrite
  /-- R318: Host advances LRHEAD; a value exceeding the ring bound is ignored. -/
  | lrheadWrite (v : Word)
  /-- R451: Host sets the report ring base, taking effect only with no live launch and an empty ring. -/
  | lrbaseWrite (v : Word)
  /-- R321: Host sets the shared window, effective only while no launch is live. -/
  | shwinWrite (v : Word)
  /-- R321: Host sets the host-window base, effective only while no launch is live. -/
  | hwbaseWrite (v : Word)
  /-- R66: PRGRP with CMD = 1 pre-empts a core group, saving every core's state. -/
  | preemptRequest (v : Word)
  /-- R319: When every core of the group reports pre-empted, KIND 4 records are written. -/
  | preemptComplete
  /-- R67: PRGRP with CMD = 2 restores a pre-empted group and replays its engine records. -/
  | resumeRequest (v : Word)
  /-- R319: When the group has resumed, KIND 5 records are written. -/
  | resumeComplete
  /-- R446: OP 0 makes the boot ROM verify the image and start boot. -/
  | fwreqBootDoorbell (tag : Byte)
  /-- R118: OP 1 makes firmware invalidate the mappings of a range in every TLB. -/
  | fwreqInvalidate (tag : Byte) (va len : Word)
  /-- R345: OP 2 writes a signed attestation quote for a nonce. -/
  | fwreqAttestationQuote (tag : Byte) (nonceAt resultAt : Word)
  /-- R320: OP 3 submits an NVMe admin command on a controller's admin queue. -/
  | fwreqAdminCommand (tag : Byte) (cmdAt ctl : Word) (completion : BitVec 128)
  /-- R320: OP 4 writes the device identity public key. -/
  | fwreqIdentityKey (tag : Byte) (resultAt : Word)
  /-- R443: OP 5 returns and clears the thermal trip log. -/
  | fwreqTripLog (tag : Byte) (resultAt : Word)
  /-- R445: OP 6 clears the governor freeze of one or all cores. -/
  | fwreqUnfreeze (tag : Byte) (which : Word)
  /-- R320: A firmware request with an unknown OP ends with REASON 1. -/
  | fwreqUnknownOp (tag op : Byte)
  /-- R320: A firmware request ends and a KIND 7 record with its status is written. -/
  | firmwareRequestDone
  /-- R73: Writing LOAD starts the load of the descriptor named by INDEX. -/
  | tsctlLoad (index : Byte)
  /-- R73: Once every transaction naming the space has committed, the Scarab reads and checks the descriptor and enrols. -/
  | tsDescriptorLoad
  /-- R332: A write to an access-table entry, reaching every home's copy for DRAM. -/
  | accessTableWrite (master : BitVec 4) (t : BitVec 3) (e : BitVec 6) (part : BitVec 2) (v : Word)
  /-- R333: Sets ENF so that targets enforce their access tables. -/
  | atctlEnfSet (master : BitVec 4)
  /-- R333: Sets HL so that only the host may write the tables, ATCTL and PCAP. -/
  | atctlHlSet (master : BitVec 4)
  /-- R327: Host sets CONSENT, opening the storage write gate. -/
  | swgateConsent (master : BitVec 4)
  /-- R327: Host clears CONSENT, closing the storage write gate. -/
  | swgateClear (master : BitVec 4)
  /-- R338: The COOL command moves the Molt from WARM_SERVICE toward cooling. -/
  | mcmdCool
  /-- R338: The WARM command moves the Molt to WARMING where allowed. -/
  | mcmdWarm
  /-- R322: Resumes a halted thread named by core and slot. -/
  | dbgresResume (v : Word)
  /-- R334: A write to PCAP or SORL is clamped to the hardware limit and takes effect at once. -/
  | hwLimitWrite (master : BitVec 4) (off : BitVec 32) (v : Word)
  /-- R313: Writes a home's race trace ring control, emptying the ring when EN rises. -/
  | hrtcWrite (h : Byte) (v : Word)
  /-- R312: Any other control-window register write, checked for size, alignment and access table. -/
  | controlRegisterWrite (master : BitVec 4) (off : BitVec 32) (size : Nat) (v : Word)
  /-- R55: A cluster dispenser gives the best eligible item to a thread that can take dispenser work. -/
  | dispenserPlace (cluster : Nat)
  /-- R50: A free slot takes the run-list head and resumes the continuation. -/
  | runListResume (site slot : Nat)
  /-- R50: A free slot takes the bottom deque record as a new task. -/
  | dequePop (site slot : Nat)
  /-- R51: An idle core sends a steal request to its next mesh neighbour. -/
  | stealAttempt (site : Nat)
  /-- R51: The victim answers with its oldest eligible record after writing back its L1, or empty. -/
  | stealRequestServe (k : Nat)
  /-- R51: The thief receives the record and starts the stolen task, or the attempt fails. -/
  | stealReply (k : Nat)
  /-- R49: A decrement reaches a frame, possibly appending its continuation to the run list. -/
  | joinDecrement (k : Nat)
  /-- R47: A stalled await executes again when a region frees, a record arrives or a decrement reaches the frame. -/
  | awaitRetry (site slot : Nat)
  /-- R292: A spawn.at record arrives and takes a free slot or the deque. -/
  | spawnAtArrival (k : Nat)
  /-- R292: A returned spawn.at record undoes the counts and runs the child inline. -/
  | spawnAtReturn (k : Nat)
  /-- R58: A message arrives at the target and is delivered or bounced. -/
  | messageDelivery (k : Nat)
  /-- R59: A bounce record arrives at the sender's mailbox or waits in its network interface. -/
  | bounceReturn (k : Nat)
  /-- R61: When a monitor entry frees, the oldest evicted context is reloaded onto an idle slot. -/
  | evictedContextReload (cluster : Nat)
  /-- R62: An arrival reaches the barrier unit, increments ARRIVED and may advance GEN. -/
  | barrierArrival (k : Nat)
  /-- R77: The Scarab numbers a submission record, picks its cluster and sends lock requests. -/
  | scarabNumbering
  /-- R78: The 1 µs batch period ends; the batch seals and seals go on every enrolled channel. -/
  | batchSeal
  /-- R77: The dispenser gives the next transaction a frame on a core and sends frame notices. -/
  | frameAssignment (cluster : Nat)
  /-- R81: A lock request reaches its lock home and is queued in sequence order. -/
  | lockRequestArrival (k : Nat)
  /-- R80: A seal reaches a home and may let the next request group be served. -/
  | sealArrival (k : Nat)
  /-- R423: A seal wait of 10 ms writes a kind 21 record. -/
  | sealOverdue (h : Nat)
  /-- R82: A frame notice reaches a lock home, releasing held grants and pushes. -/
  | frameNoticeArrival (k : Nat)
  /-- R82: A grant message lands at the dispatch core after its push. -/
  | grantLanding (k : Nat)
  /-- R84: After its last grant, the transaction is placed on a wfw thread of its dispatch core. -/
  | transactionDispatch (cluster : Nat)
  /-- R86: An owning home applies a commit segment and acknowledges to the lock home. -/
  | commitSegmentArrival (k : Nat)
  /-- R86: A lock home releases a tile once all its write-back acknowledgements arrive. -/
  | tileRelease (k : Nat)
  /-- R86: When every tile is released the frame frees and the FRAME decrement goes out. -/
  | transactionFrameFree (k : Nat)
  /-- R107: A fetched line arrives at the L1 and fills its non-dirty bytes. -/
  | lineFill (k : Nat)
  /-- R211: An uncached load value arrives and the destination leaves pending. -/
  | loadResponse (k : Nat)
  /-- R99: A read or write arrives at a home and is served through the home cache. -/
  | homeAccess (k : Nat)
  /-- R109: A masked L1 write-back arrives at its home and is applied. -/
  | writebackArrival (k : Nat)
  /-- R187: An acknowledgement returns and the thread's counter falls. -/
  | acknowledgementArrival (k : Nat)
  /-- R216: An atomic executes indivisibly in the home's arithmetic unit. -/
  | homeAtomic (k : Nat)
  /-- R217: An atomic result returns, writing the destination and bumping the epoch for acquire. -/
  | atomicResult (k : Nat)
  /-- R96: A local-store window access from another core is served at the target port. -/
  | windowAccessArrival (k : Nat)
  /-- R116: A cluster TLB miss becomes a walk request at the translation service core. -/
  | walkRequest (cluster : Nat)
  /-- R447: An unanswered walk after 10 ms returns a translation fault and a kind 44 record. -/
  | walkTimeout (cluster : Nat)
  /-- R415: A refusal decided at the target returns, writing a hand-back record and making a deferred map fault due. -/
  | accessRefusalResponse (k : Nat)
  /-- R412: The patrol scrub reads, corrects and rewrites a DRAM line. -/
  | patrolScrub (line : Nat) (bad : Bool)
  /-- R335: A home refreshes its DRAM at the period of the band. -/
  | dramRefresh (h : Nat)
  /-- R411: Once per second a structure instance reports its corrected errors. -/
  | correctedErrorReport (cluster : Nat) (code : Byte) (at_ : Word)
  /-- R251: A queued engine operation begins and its begin-time checks are made. -/
  | engineOpBegin (site q k : Nat)
  /-- R282: A Hive drain collects live entries once earlier Hive instructions complete. -/
  | drainReadPhase (site : Nat)
  /-- R131: An engine operation is performed, its counter falls and its flags are ORed. -/
  | engineOpPerformed (site q k : Nat)
  /-- R419: An engine stops on a fault, writes the hand-back record and makes the trap due. -/
  | engineHandback (site q k : Nat)
  /-- R361: A due handed-back trap is taken at the start of the thread's next issuing slot. -/
  | handbackTrap (site slot : Nat)
  /-- R359: In the trapped slot the globals are saved, privilege is raised and the handler entered. -/
  | trapEntry (site slot : Nat)
  /-- R364: A failing thread drains, writes back, scrubs, records and releases its slot. -/
  | threadFailure (site slot : Nat)
  /-- R64: Effects of a redundant pair are compared and take place once when equal. -/
  | pairCompare (site slot : Nat)
  /-- R375: After 2^20 queue-blocked cycles the core records and fails the blocked threads. -/
  | queueStallWatchdog (site : Nat)
  /-- R369: A cluster writes an error record to its queue and advances TAIL. -/
  | errorRecordWrite (cluster : Nat)
  /-- R369: A full error queue re-reads HEAD every 1 µs. -/
  | errorQueueHeadPoll (cluster : Nat)
  /-- R338: Power-on resets the device and moves the Molt from OFF by TMAX. -/
  | powerOn (readings : List Nat)
  /-- R338: Loss of power moves the Molt to OFF. -/
  | powerLoss
  /-- R342: The next home or cluster powers up on the 2 µs staging interval. -/
  | unitPowerUp
  /-- R336: Every 4 µs the sensors are sampled, TMAX formed and band requests decided. -/
  | sensorSample (readings : List Nat)
  /-- R336: TMAX staying at or below 89 K for 10 s calls for band C. -/
  | bandFallTimer
  /-- R340: After 200 ns the clocks restart at the new frequency and homes switch timings. -/
  | clockRestart
  /-- R338: The Molt changes state when its waited-for condition holds. -/
  | moltTransition
  /-- R338: After 120 s of stable soak, DRAM is trained and the Molt enters COLD_READY. -/
  | soakComplete (failedStack : Option Nat)
  /-- R444: A Molt state passing its time limit holds and writes a kind 41 record. -/
  | moltLimitExpiry
  /-- R445: Each second the voltage governor steps, freezes or reports predictive failure. -/
  | governorTick (site n : Nat)
  /-- R432: A failed Ulisil flit is replayed and may start a retrain. -/
  | ulisilFlitCrcError (replays : Nat)
  /-- R432: A Ulisil retrain ends, held flits are sent and a record is written, or the link goes down. -/
  | ulisilRetrainEnd (goodFlits : Nat)
  /-- R432: Every 100 ms a down Ulisil link tries to come up. -/
  | ulisilUpAttempt (works : Bool)
  /-- R137: A companion write obtains its line from the home and is applied. -/
  | companionWrite (at_ : Word) (data : List Byte)
  /-- R137: A companion read of the shared window is served coherently by the home. -/
  | companionRead (at_ : Word) (size : Nat)
  /-- R405: A failing mesh or seam flit is retried, delivered poisoned, or stops the link. -/
  | meshFlitError (k retries : Nat) (header : Bool)
  /-- R438: A scale-up lane fails and its link starts retraining. -/
  | fabricLaneFailure (link lane : Nat)
  /-- R438: A fabric retrain ends at a new width with updated cost and window. -/
  | fabricRetrainEnd (link : Nat)
  /-- R438: Every second the failed lanes of a width-2 link are tested. -/
  | fabricLaneTest (link : Nat) (good : BitVec 4)
  /-- R439: A fabric flit failing its replays is poisoned or takes the link down. -/
  | fabricFlitError (link k : Nat) (header : Bool)
  /-- R440: After 1 ms without a path, non-ordered accesses fail with WHY = 5. -/
  | fabricFlowTimeout (k : Nat)
  /-- R441: A scale-out port or queue pair changes state and a kind 39 record is written. -/
  | scaleoutEvent (port : BitVec 4) (isQp : Bool) (qp : BitVec 24) (syndrome : BitVec 32) (newState : Word)
  /-- R330: An inbound RDMA operation reaches device memory at the homes or is refused. -/
  | rdmaInbound (write bad : Bool) (at_ : Word) (data : List Byte)
  /-- R324: A controller signals a completion that the engine consumes from its queue. -/
  | nvmeCompletion (qp tag : Nat) (status : BitVec 15) (dw0 : BitVec 32) (data : List Byte) (bad : List Nat)
  /-- R310: A storage completion enters the issuing thread's mailbox once it has room. -/
  | storageCompletionDelivery (k : Nat)
  /-- R437: A command outstanding for 30 s is recorded and aborted. -/
  | nvmeCommandTimeout (k : Nat)
  /-- R437: A controller fatal status or removal completes its commands with ENG = 3. -/
  | nvmeControllerLost (ctl : Nat) (hierarchy : Bool)
  /-- R171: Issue of a word that no encoding assigns raises the illegal-instruction trap with its own PC and changes no other state. -/
  | illegalInstruction (w : BitVec 32) (half : Bool)
  /-- R169: An instruction fetch that fails the EX, FWO or translation check on either halfword raises the translation fault with the PC of the first halfword. -/
  | instructionFetchFault (va : Word) (why : BitVec 3)
  /-- R100: A local-store bank serves a waiting request (a delayed rank-2 block, a spill or fill, a later vector block) and a pending destination or stalled thread is released. -/
  | localStoreBankService (site slot : Nat)
  /-- R439: A scale-up link that is down trains and comes up, and its held flits are sent in order. -/
  | fabricLinkUp (link : Nat) (lanes : BitVec 4) (peer : Byte) (plink : BitVec 5)
  /-- R334: When package power exceeds PCAP, hardware stops each core's clock for whole barrel periods, and it restarts them when power falls below the cap. -/
  | packagePowerCap (above : Bool)
  /-- R448: A reset input to a powered package, as needed to leave the fatal state or to recover a pod, returns the package to its reset state. -/
  | packageReset (readings : List Nat)
  deriving DecidableEq, Repr

end Sys2Proof
end

