-- ==== Sys2Proof/WellFormed.lean ====
section
/-!
DEFINITION. Which instructions the spec assigns: the conditions on a row's fields that its fixed bits do not say. A word
that breaks one raises the illegal-instruction trap (R171, R383).
-/

namespace Sys2Proof

/-- RM = 6 is reserved (R151). -/
def rmOk (r : BitVec 3) : Bool := decide (r ≠ 6)

/-- DIM = 3 is illegal (R202). -/
def dimOk (m : BitVec 2) : Bool := decide (m ≠ 3)

/-- With BS = 0 the B field names v0 to v15, so its top bit is 0 (R173). -/
def bOk (s : BitVec 1) (b : BitVec 5) : Bool := decide (s = 1) || decide (b.toNat < 16)

/-- ET 4 to 7 are the floating-point element types (R173). -/
def isFloatEt (e : BitVec 3) : Bool := decide (4 ≤ e.toNat)

/-- `vscan`: OP = 3 is illegal, and U = 1 is illegal for a floating-point type (R236). -/
def scanOk (e : BitVec 3) (u : BitVec 1) (o : BitVec 2) : Bool := decide (o ≠ 3) && !(decide (u = 1) && isFloatEt e)

/-- `vred`: a floating-point type takes kinds 0 to 2 only (R237). -/
def redOk (e k : BitVec 3) : Bool := !(isFloatEt e && decide (3 ≤ k.toNat))

/-- Width in bytes of an element type (R173). -/
def etBytes (e : BitVec 3) : Nat :=
  match e.toNat with
  | 0 => 1
  | 1 => 2
  | 2 => 4
  | 3 => 8
  | 4 => 2
  | 5 => 2
  | 6 => 4
  | _ => 8

/-- `vcvt`: the chunk number h is below max(ns, nd) / min(ns, nd) (R240). -/
def chunkOk (st : BitVec 3) (c : BitVec 1) (h : BitVec 2) (dt : BitVec 3) : Bool :=
  decide (c.toNat * 4 + h.toNat < max (etBytes st) (etBytes dt) / min (etBytes st) (etBytes dt))

/-- A register group of four, where 0 stands for four zeros (R288, R400). -/
def groupOk0 (d : BitVec 5) : Bool := decide (d.toNat ≤ 20)

/-- A register group of five within s1 to s23 (R288, R400). -/
def groupOk5 (d : BitVec 5) : Bool := decide (1 ≤ d.toNat) && decide (d.toNat ≤ 19)

/-- The special registers that R185 lists. -/
def sprListed (n : BitVec 12) : Bool :=
  [0x000, 0x001, 0x002, 0x003, 0x004, 0x005, 0x010, 0x011, 0x012, 0x013, 0x014, 0x015, 0x016, 0x017, 0x018, 0x019, 0x020,
   0x030, 0x031, 0x032, 0x033, 0x040, 0x080, 0x081, 0x082, 0x083].contains n.toNat

/-- The row is an instruction word (the others are events, which have no encoding). -/
def Instr.isWord : Instr → Bool
  | .launchHeaderWrite _ => false
  | .shapeRecordWrite _ => false
  | .launchHeaderCheck => false
  | .launchStart => false
  | .reportRecordWrite => false
  | .lrheadWrite _ => false
  | .lrbaseWrite _ => false
  | .shwinWrite _ => false
  | .hwbaseWrite _ => false
  | .preemptRequest _ => false
  | .preemptComplete => false
  | .resumeRequest _ => false
  | .resumeComplete => false
  | .fwreqBootDoorbell _ => false
  | .fwreqInvalidate _ _ _ => false
  | .fwreqAttestationQuote _ _ _ => false
  | .fwreqAdminCommand _ _ _ _ => false
  | .fwreqIdentityKey _ _ => false
  | .fwreqTripLog _ _ => false
  | .fwreqUnfreeze _ _ => false
  | .fwreqUnknownOp _ _ => false
  | .firmwareRequestDone => false
  | .tsctlLoad _ => false
  | .tsDescriptorLoad => false
  | .accessTableWrite _ _ _ _ _ => false
  | .atctlEnfSet _ => false
  | .atctlHlSet _ => false
  | .swgateConsent _ => false
  | .swgateClear _ => false
  | .mcmdCool => false
  | .mcmdWarm => false
  | .dbgresResume _ => false
  | .hwLimitWrite _ _ _ => false
  | .hrtcWrite _ _ => false
  | .controlRegisterWrite _ _ _ _ => false
  | .dispenserPlace _ => false
  | .runListResume _ _ => false
  | .dequePop _ _ => false
  | .stealAttempt _ => false
  | .stealRequestServe _ => false
  | .stealReply _ => false
  | .joinDecrement _ => false
  | .awaitRetry _ _ => false
  | .spawnAtArrival _ => false
  | .spawnAtReturn _ => false
  | .messageDelivery _ => false
  | .bounceReturn _ => false
  | .evictedContextReload _ => false
  | .barrierArrival _ => false
  | .scarabNumbering => false
  | .batchSeal => false
  | .frameAssignment _ => false
  | .lockRequestArrival _ => false
  | .sealArrival _ => false
  | .sealOverdue _ => false
  | .frameNoticeArrival _ => false
  | .grantLanding _ => false
  | .transactionDispatch _ => false
  | .commitSegmentArrival _ => false
  | .tileRelease _ => false
  | .transactionFrameFree _ => false
  | .lineFill _ => false
  | .loadResponse _ => false
  | .homeAccess _ => false
  | .writebackArrival _ => false
  | .acknowledgementArrival _ => false
  | .homeAtomic _ => false
  | .atomicResult _ => false
  | .windowAccessArrival _ => false
  | .walkRequest _ => false
  | .walkTimeout _ => false
  | .accessRefusalResponse _ => false
  | .patrolScrub _ _ => false
  | .dramRefresh _ => false
  | .correctedErrorReport _ _ _ => false
  | .engineOpBegin _ _ _ => false
  | .drainReadPhase _ => false
  | .engineOpPerformed _ _ _ => false
  | .engineHandback _ _ _ => false
  | .handbackTrap _ _ => false
  | .trapEntry _ _ => false
  | .threadFailure _ _ => false
  | .pairCompare _ _ => false
  | .queueStallWatchdog _ => false
  | .errorRecordWrite _ => false
  | .errorQueueHeadPoll _ => false
  | .powerOn _ => false
  | .powerLoss => false
  | .unitPowerUp => false
  | .sensorSample _ => false
  | .bandFallTimer => false
  | .clockRestart => false
  | .moltTransition => false
  | .soakComplete _ => false
  | .moltLimitExpiry => false
  | .governorTick _ _ => false
  | .ulisilFlitCrcError _ => false
  | .ulisilRetrainEnd _ => false
  | .ulisilUpAttempt _ => false
  | .companionWrite _ _ => false
  | .companionRead _ _ => false
  | .meshFlitError _ _ _ => false
  | .fabricLaneFailure _ _ => false
  | .fabricRetrainEnd _ => false
  | .fabricLaneTest _ _ => false
  | .fabricFlitError _ _ _ => false
  | .fabricFlowTimeout _ => false
  | .scaleoutEvent _ _ _ _ _ => false
  | .rdmaInbound _ _ _ _ => false
  | .nvmeCompletion _ _ _ _ _ _ => false
  | .storageCompletionDelivery _ => false
  | .nvmeCommandTimeout _ => false
  | .nvmeControllerLost _ _ => false
  | .illegalInstruction _ _ => false
  | .instructionFetchFault _ _ => false
  | .localStoreBankService _ _ => false
  | .fabricLinkUp _ _ _ _ => false
  | .packagePowerCap _ => false
  | .packageReset _ => false
  | _ => true

/-- The conditions on the fields of a row; true where the row states none. -/
def Instr.wellFormed : Instr → Bool
  | .fadd r _ _ _ _ => rmOk r
  | .fsub r _ _ _ _ => rmOk r
  | .fmul r _ _ _ _ => rmOk r
  | .fdiv r _ _ _ _ => rmOk r
  | .fsqrt r _ _ _ => rmOk r
  | .ftoi r _ _ _ _ => rmOk r
  | .itof r _ _ _ _ => rmOk r
  | .fcvt r _ _ _ _ => rmOk r
  | .fmadd _ r _ _ _ _ => rmOk r
  | .fmsub _ r _ _ _ _ => rmOk r
  | .fnmsub _ r _ _ _ _ => rmOk r
  | .fnmadd _ r _ _ _ _ => rmOk r
  | .geoStart m _ => dimOk m
  | .geoLen m _ => dimOk m
  | .geoCrd m _ => dimOk m
  | .widField k _ => decide (k.toNat ≤ 5)
  | .widReg k _ _ => decide (k.toNat ≤ 5)
  | .hint h => decide (h ≠ 0)
  | .vadd _ _ s b _ _ => bOk s b
  | .vsub _ _ s b _ _ => bOk s b
  | .vmul _ _ s b _ _ => bOk s b
  | .vmulh _ _ s b _ _ => bOk s b
  | .vmulhu _ _ s b _ _ => bOk s b
  | .vadds _ _ s b _ _ => bOk s b
  | .vaddsu _ _ s b _ _ => bOk s b
  | .vsubs _ _ s b _ _ => bOk s b
  | .vsubsu _ _ s b _ _ => bOk s b
  | .vmin _ _ s b _ _ => bOk s b
  | .vmax _ _ s b _ _ => bOk s b
  | .vminu _ _ s b _ _ => bOk s b
  | .vmaxu _ _ s b _ _ => bOk s b
  | .vand _ _ s b _ _ => bOk s b
  | .vor _ _ s b _ _ => bOk s b
  | .vxor _ _ s b _ _ => bOk s b
  | .vshl _ _ s b _ _ => bOk s b
  | .vshr _ _ s b _ _ => bOk s b
  | .vsar _ _ s b _ _ => bOk s b
  | .vcmpeq _ _ s b _ _ => bOk s b
  | .vcmplt _ _ s b _ _ => bOk s b
  | .vcmpltu _ _ s b _ _ => bOk s b
  | .vcmple _ _ s b _ _ => bOk s b
  | .vcmpleu _ _ s b _ _ => bOk s b
  | .vtunp _ k _ _ => decide (k.toNat ≤ 4)
  | .vscan _ e _ u o _ _ => scanOk e u o
  | .vred _ e k _ _ => redOk e k
  | .vdot4 _ s b _ _ => bOk s b
  | .vsel _ _ s b _ _ => bOk s b
  | .vmv _ _ s b _ => bOk s b
  | .vfadd _ _ s b _ _ => bOk s b
  | .vfsub _ _ s b _ _ => bOk s b
  | .vfmul _ _ s b _ _ => bOk s b
  | .vfdiv _ _ s b _ _ => bOk s b
  | .vfmin _ _ s b _ _ => bOk s b
  | .vfmax _ _ s b _ _ => bOk s b
  | .vfsgnj _ _ s b _ _ => bOk s b
  | .vfsgnjn _ _ s b _ _ => bOk s b
  | .vfsgnjx _ _ s b _ _ => bOk s b
  | .vfcmpeq _ _ s b _ _ => bOk s b
  | .vfcmplt _ _ s b _ _ => bOk s b
  | .vfcmple _ _ s b _ _ => bOk s b
  | .vcvt _ s c h t _ _ => chunkOk s c h t
  | .vcvtu _ s c h t _ _ => chunkOk s c h t && !(isFloatEt s && isFloatEt t)
  | .vperm _ _ s b _ _ => bOk s b
  | .vfmadd r _ _ _ _ _ _ => rmOk r
  | .vfmsub r _ _ _ _ _ _ => rmOk r
  | .vfnmsub r _ _ _ _ _ _ => rmOk r
  | .vfnmadd r _ _ _ _ _ _ => rmOk r
  | .kstat s _ => decide (s.toNat ≤ 6)
  | .spawn _ _ d => groupOk0 d
  | .spawnAt _ _ d => groupOk0 d
  | .txsub _ _ d => groupOk5 d
  | .txrecon b _ _ => groupOk0 b
  | .sendLo _ d => groupOk0 d
  | .sendHi _ d => groupOk0 d
  | .recv d => groupOk5 d
  | .qfence q => decide (q ≠ 0)
  | .mfs n _ => sprListed n
  | .mts n _ => sprListed n
  | _ => true

end Sys2Proof
end

