-- ==== Sys2Proof/Decode.lean ====
section
/-!
DEFINITION. Decoding and encoding (R169 to R177). A word is split by its major opcode and its minor field as the map of
R174 lays down, and its other fixed fields are compared; a word that no row assigns is refused under a name, and the step
raises the illegal-instruction trap for it (R171). The encoder lays the fields out from the same formats, highest bit first.
-/

namespace Sys2Proof

/-- Why a word is no instruction (R171). -/
inductive DecodeError where
  /-- fewer bytes than the word needs -/
  | truncated
  /-- a major opcode (or a 16-bit quadrant) that the map leaves illegal -/
  | illegalMajor (maj : Nat)
  /-- a minor value that no instruction of the major assigns -/
  | illegalMinor (maj minor : Nat)
  /-- a field that the instruction requires to be 0 is not -/
  | reservedField
  /-- a field value that the instruction's entry refuses (WellFormed) -/
  | refusedOperand
  deriving DecidableEq, Repr

/-- Major opcode 0 (R174). -/
def decodeMaj0 (w : BitVec 32) : Except DecodeError Instr :=
  match (w.extractLsb' 27 5).toNat with
  | 0 => .ok (.add (w.extractLsb' 24 3) (w.extractLsb' 19 5) (w.extractLsb' 14 5) (w.extractLsb' 12 2) (w.extractLsb' 7 5))
  | 1 => .ok (.sub (w.extractLsb' 24 3) (w.extractLsb' 19 5) (w.extractLsb' 14 5) (w.extractLsb' 12 2) (w.extractLsb' 7 5))
  | 2 => .ok (.and (w.extractLsb' 24 3) (w.extractLsb' 19 5) (w.extractLsb' 14 5) (w.extractLsb' 12 2) (w.extractLsb' 7 5))
  | 3 => .ok (.or (w.extractLsb' 24 3) (w.extractLsb' 19 5) (w.extractLsb' 14 5) (w.extractLsb' 12 2) (w.extractLsb' 7 5))
  | 4 => .ok (.xor (w.extractLsb' 24 3) (w.extractLsb' 19 5) (w.extractLsb' 14 5) (w.extractLsb' 12 2) (w.extractLsb' 7 5))
  | 5 => .ok (.andn (w.extractLsb' 24 3) (w.extractLsb' 19 5) (w.extractLsb' 14 5) (w.extractLsb' 12 2) (w.extractLsb' 7 5))
  | 6 => .ok (.shl (w.extractLsb' 24 3) (w.extractLsb' 19 5) (w.extractLsb' 14 5) (w.extractLsb' 12 2) (w.extractLsb' 7 5))
  | 7 => .ok (.shr (w.extractLsb' 24 3) (w.extractLsb' 19 5) (w.extractLsb' 14 5) (w.extractLsb' 12 2) (w.extractLsb' 7 5))
  | 8 => .ok (.sar (w.extractLsb' 24 3) (w.extractLsb' 19 5) (w.extractLsb' 14 5) (w.extractLsb' 12 2) (w.extractLsb' 7 5))
  | 9 => .ok (.ror (w.extractLsb' 24 3) (w.extractLsb' 19 5) (w.extractLsb' 14 5) (w.extractLsb' 12 2) (w.extractLsb' 7 5))
  | 10 => .ok (.mul (w.extractLsb' 24 3) (w.extractLsb' 19 5) (w.extractLsb' 14 5) (w.extractLsb' 12 2) (w.extractLsb' 7 5))
  | 11 => .ok (.mulh (w.extractLsb' 24 3) (w.extractLsb' 19 5) (w.extractLsb' 14 5) (w.extractLsb' 12 2) (w.extractLsb' 7 5))
  | 12 => .ok (.mulhu (w.extractLsb' 24 3) (w.extractLsb' 19 5) (w.extractLsb' 14 5) (w.extractLsb' 12 2) (w.extractLsb' 7 5))
  | 13 => .ok (.div (w.extractLsb' 24 3) (w.extractLsb' 19 5) (w.extractLsb' 14 5) (w.extractLsb' 12 2) (w.extractLsb' 7 5))
  | 14 => .ok (.divu (w.extractLsb' 24 3) (w.extractLsb' 19 5) (w.extractLsb' 14 5) (w.extractLsb' 12 2) (w.extractLsb' 7 5))
  | 15 => .ok (.rem (w.extractLsb' 24 3) (w.extractLsb' 19 5) (w.extractLsb' 14 5) (w.extractLsb' 12 2) (w.extractLsb' 7 5))
  | 16 => .ok (.remu (w.extractLsb' 24 3) (w.extractLsb' 19 5) (w.extractLsb' 14 5) (w.extractLsb' 12 2) (w.extractLsb' 7 5))
  | 17 => .ok (.slt (w.extractLsb' 24 3) (w.extractLsb' 19 5) (w.extractLsb' 14 5) (w.extractLsb' 12 2) (w.extractLsb' 7 5))
  | 18 => .ok (.sltu (w.extractLsb' 24 3) (w.extractLsb' 19 5) (w.extractLsb' 14 5) (w.extractLsb' 12 2) (w.extractLsb' 7 5))
  | 19 => .ok (.min (w.extractLsb' 24 3) (w.extractLsb' 19 5) (w.extractLsb' 14 5) (w.extractLsb' 12 2) (w.extractLsb' 7 5))
  | 20 => .ok (.max (w.extractLsb' 24 3) (w.extractLsb' 19 5) (w.extractLsb' 14 5) (w.extractLsb' 12 2) (w.extractLsb' 7 5))
  | 21 => .ok (.minu (w.extractLsb' 24 3) (w.extractLsb' 19 5) (w.extractLsb' 14 5) (w.extractLsb' 12 2) (w.extractLsb' 7 5))
  | 22 => .ok (.maxu (w.extractLsb' 24 3) (w.extractLsb' 19 5) (w.extractLsb' 14 5) (w.extractLsb' 12 2) (w.extractLsb' 7 5))
  | 23 => .ok (.adds (w.extractLsb' 24 3) (w.extractLsb' 19 5) (w.extractLsb' 14 5) (w.extractLsb' 12 2) (w.extractLsb' 7 5))
  | 24 => .ok (.addsu (w.extractLsb' 24 3) (w.extractLsb' 19 5) (w.extractLsb' 14 5) (w.extractLsb' 12 2) (w.extractLsb' 7 5))
  | 25 => .ok (.subs (w.extractLsb' 24 3) (w.extractLsb' 19 5) (w.extractLsb' 14 5) (w.extractLsb' 12 2) (w.extractLsb' 7 5))
  | 26 => .ok (.subsu (w.extractLsb' 24 3) (w.extractLsb' 19 5) (w.extractLsb' 14 5) (w.extractLsb' 12 2) (w.extractLsb' 7 5))
  | 27 =>
    if w.extractLsb' 19 5 = 0 then .ok (.clz (w.extractLsb' 24 3) (w.extractLsb' 14 5) (w.extractLsb' 12 2) (w.extractLsb' 7 5))
    else .error .reservedField
  | 28 =>
    if w.extractLsb' 19 5 = 0 then .ok (.ctz (w.extractLsb' 24 3) (w.extractLsb' 14 5) (w.extractLsb' 12 2) (w.extractLsb' 7 5))
    else .error .reservedField
  | 29 =>
    if w.extractLsb' 19 5 = 0 then .ok (.popc (w.extractLsb' 24 3) (w.extractLsb' 14 5) (w.extractLsb' 12 2) (w.extractLsb' 7 5))
    else .error .reservedField
  | 30 =>
    if w.extractLsb' 19 5 = 0 then .ok (.sext (w.extractLsb' 24 3) (w.extractLsb' 14 5) (w.extractLsb' 12 2) (w.extractLsb' 7 5))
    else .error .reservedField
  | 31 =>
    if w.extractLsb' 19 5 = 0 then .ok (.zext (w.extractLsb' 24 3) (w.extractLsb' 14 5) (w.extractLsb' 12 2) (w.extractLsb' 7 5))
    else .error .reservedField
  | n => .error (.illegalMinor 0 n)

/-- Major opcode 1 (R174). -/
def decodeMaj1 (w : BitVec 32) : Except DecodeError Instr :=
  match (w.extractLsb' 12 3).toNat with
  | 0 => .ok (.addi (w.extractLsb' 20 12) (w.extractLsb' 15 5) (w.extractLsb' 7 5))
  | 1 => .ok (.andi (w.extractLsb' 20 12) (w.extractLsb' 15 5) (w.extractLsb' 7 5))
  | 2 => .ok (.ori (w.extractLsb' 20 12) (w.extractLsb' 15 5) (w.extractLsb' 7 5))
  | 3 => .ok (.xori (w.extractLsb' 20 12) (w.extractLsb' 15 5) (w.extractLsb' 7 5))
  | 4 => .ok (.slti (w.extractLsb' 20 12) (w.extractLsb' 15 5) (w.extractLsb' 7 5))
  | 5 => .ok (.sltiu (w.extractLsb' 20 12) (w.extractLsb' 15 5) (w.extractLsb' 7 5))
  | 6 =>
    if w.extractLsb' 26 6 = 0 then .ok (.shli (w.extractLsb' 20 6) (w.extractLsb' 15 5) (w.extractLsb' 7 5))
    else if w.extractLsb' 26 6 = 16 then .ok (.shri (w.extractLsb' 20 6) (w.extractLsb' 15 5) (w.extractLsb' 7 5))
    else if w.extractLsb' 26 6 = 32 then .ok (.sari (w.extractLsb' 20 6) (w.extractLsb' 15 5) (w.extractLsb' 7 5))
    else if w.extractLsb' 26 6 = 48 then .ok (.rori (w.extractLsb' 20 6) (w.extractLsb' 15 5) (w.extractLsb' 7 5))
    else .error .reservedField
  | 7 => .ok (.muli (w.extractLsb' 20 12) (w.extractLsb' 15 5) (w.extractLsb' 7 5))
  | n => .error (.illegalMinor 1 n)

/-- Major opcode 2 (R174). -/
def decodeMaj2 (w : BitVec 32) : Except DecodeError Instr :=
  .ok (.ldhi (w.extractLsb' 12 20) (w.extractLsb' 7 5))

/-- Major opcode 3 (R174). -/
def decodeMaj3 (w : BitVec 32) : Except DecodeError Instr :=
  .ok (.addpc (w.extractLsb' 12 20) (w.extractLsb' 7 5))

/-- Major opcode 4 (R174). -/
def decodeMaj4 (w : BitVec 32) : Except DecodeError Instr :=
  match (w.extractLsb' 12 3).toNat with
  | 0 => .ok (.ldB (w.extractLsb' 20 12) (w.extractLsb' 15 5) (w.extractLsb' 7 5))
  | 1 => .ok (.ldH (w.extractLsb' 20 12) (w.extractLsb' 15 5) (w.extractLsb' 7 5))
  | 2 => .ok (.ldW (w.extractLsb' 20 12) (w.extractLsb' 15 5) (w.extractLsb' 7 5))
  | 3 => .ok (.ldD (w.extractLsb' 20 12) (w.extractLsb' 15 5) (w.extractLsb' 7 5))
  | 4 => .ok (.ldBu (w.extractLsb' 20 12) (w.extractLsb' 15 5) (w.extractLsb' 7 5))
  | 5 => .ok (.ldHu (w.extractLsb' 20 12) (w.extractLsb' 15 5) (w.extractLsb' 7 5))
  | 6 => .ok (.ldWu (w.extractLsb' 20 12) (w.extractLsb' 15 5) (w.extractLsb' 7 5))
  | 7 =>
    if w.extractLsb' 8 4 = 0 then .ok (.pf (w.extractLsb' 20 12) (w.extractLsb' 15 5) (w.extractLsb' 7 1))
    else .error .reservedField
  | n => .error (.illegalMinor 4 n)

/-- Major opcode 5 (R174). -/
def decodeMaj5 (w : BitVec 32) : Except DecodeError Instr :=
  match (w.extractLsb' 12 3).toNat with
  | 0 => .ok (.stB (w.extractLsb' 20 12) (w.extractLsb' 15 5) (w.extractLsb' 7 5))
  | 1 => .ok (.stH (w.extractLsb' 20 12) (w.extractLsb' 15 5) (w.extractLsb' 7 5))
  | 2 => .ok (.stW (w.extractLsb' 20 12) (w.extractLsb' 15 5) (w.extractLsb' 7 5))
  | 3 => .ok (.stD (w.extractLsb' 20 12) (w.extractLsb' 15 5) (w.extractLsb' 7 5))
  | 4 =>
    if w.extractLsb' 7 5 = 0 then .ok (.stZ (w.extractLsb' 20 12) (w.extractLsb' 15 5))
    else .error .reservedField
  | n => .error (.illegalMinor 5 n)

/-- Major opcode 6 (R174). -/
def decodeMaj6 (w : BitVec 32) : Except DecodeError Instr :=
  match (w.extractLsb' 12 3).toNat with
  | 0 => .ok (.ldBLs (w.extractLsb' 20 12) (w.extractLsb' 15 5) (w.extractLsb' 7 5))
  | 1 => .ok (.ldHLs (w.extractLsb' 20 12) (w.extractLsb' 15 5) (w.extractLsb' 7 5))
  | 2 => .ok (.ldWLs (w.extractLsb' 20 12) (w.extractLsb' 15 5) (w.extractLsb' 7 5))
  | 3 => .ok (.ldDLs (w.extractLsb' 20 12) (w.extractLsb' 15 5) (w.extractLsb' 7 5))
  | 4 => .ok (.stBLs (w.extractLsb' 20 12) (w.extractLsb' 15 5) (w.extractLsb' 7 5))
  | 5 => .ok (.stHLs (w.extractLsb' 20 12) (w.extractLsb' 15 5) (w.extractLsb' 7 5))
  | 6 => .ok (.stWLs (w.extractLsb' 20 12) (w.extractLsb' 15 5) (w.extractLsb' 7 5))
  | 7 => .ok (.stDLs (w.extractLsb' 20 12) (w.extractLsb' 15 5) (w.extractLsb' 7 5))
  | n => .error (.illegalMinor 6 n)

/-- Major opcode 7 (R174). -/
def decodeMaj7 (w : BitVec 32) : Except DecodeError Instr :=
  match (w.extractLsb' 27 5).toNat with
  | 0 =>
    if w.extractLsb' 13 1 = 0 then .ok (.amoSwap (w.extractLsb' 26 1) (w.extractLsb' 25 1) (w.extractLsb' 24 1) (w.extractLsb' 19 5) (w.extractLsb' 14 5) (w.extractLsb' 12 1) (w.extractLsb' 7 5))
    else .error .reservedField
  | 1 =>
    if w.extractLsb' 13 1 = 0 then .ok (.amoAdd (w.extractLsb' 26 1) (w.extractLsb' 25 1) (w.extractLsb' 24 1) (w.extractLsb' 19 5) (w.extractLsb' 14 5) (w.extractLsb' 12 1) (w.extractLsb' 7 5))
    else .error .reservedField
  | 2 =>
    if w.extractLsb' 13 1 = 0 then .ok (.amoAnd (w.extractLsb' 26 1) (w.extractLsb' 25 1) (w.extractLsb' 24 1) (w.extractLsb' 19 5) (w.extractLsb' 14 5) (w.extractLsb' 12 1) (w.extractLsb' 7 5))
    else .error .reservedField
  | 3 =>
    if w.extractLsb' 13 1 = 0 then .ok (.amoOr (w.extractLsb' 26 1) (w.extractLsb' 25 1) (w.extractLsb' 24 1) (w.extractLsb' 19 5) (w.extractLsb' 14 5) (w.extractLsb' 12 1) (w.extractLsb' 7 5))
    else .error .reservedField
  | 4 =>
    if w.extractLsb' 13 1 = 0 then .ok (.amoXor (w.extractLsb' 26 1) (w.extractLsb' 25 1) (w.extractLsb' 24 1) (w.extractLsb' 19 5) (w.extractLsb' 14 5) (w.extractLsb' 12 1) (w.extractLsb' 7 5))
    else .error .reservedField
  | 5 =>
    if w.extractLsb' 13 1 = 0 then .ok (.amoMin (w.extractLsb' 26 1) (w.extractLsb' 25 1) (w.extractLsb' 24 1) (w.extractLsb' 19 5) (w.extractLsb' 14 5) (w.extractLsb' 12 1) (w.extractLsb' 7 5))
    else .error .reservedField
  | 6 =>
    if w.extractLsb' 13 1 = 0 then .ok (.amoMax (w.extractLsb' 26 1) (w.extractLsb' 25 1) (w.extractLsb' 24 1) (w.extractLsb' 19 5) (w.extractLsb' 14 5) (w.extractLsb' 12 1) (w.extractLsb' 7 5))
    else .error .reservedField
  | 7 =>
    if w.extractLsb' 13 1 = 0 then .ok (.amoMinu (w.extractLsb' 26 1) (w.extractLsb' 25 1) (w.extractLsb' 24 1) (w.extractLsb' 19 5) (w.extractLsb' 14 5) (w.extractLsb' 12 1) (w.extractLsb' 7 5))
    else .error .reservedField
  | 8 =>
    if w.extractLsb' 13 1 = 0 then .ok (.amoMaxu (w.extractLsb' 26 1) (w.extractLsb' 25 1) (w.extractLsb' 24 1) (w.extractLsb' 19 5) (w.extractLsb' 14 5) (w.extractLsb' 12 1) (w.extractLsb' 7 5))
    else .error .reservedField
  | 9 =>
    if w.extractLsb' 13 1 = 0 then .ok (.amoCas (w.extractLsb' 26 1) (w.extractLsb' 25 1) (w.extractLsb' 24 1) (w.extractLsb' 19 5) (w.extractLsb' 14 5) (w.extractLsb' 12 1) (w.extractLsb' 7 5))
    else .error .reservedField
  | 10 =>
    if w.extractLsb' 13 1 = 0 then .ok (.amoFadd (w.extractLsb' 26 1) (w.extractLsb' 25 1) (w.extractLsb' 24 1) (w.extractLsb' 19 5) (w.extractLsb' 14 5) (w.extractLsb' 12 1) (w.extractLsb' 7 5))
    else .error .reservedField
  | 11 =>
    if w.extractLsb' 19 5 = 0 ∧ w.extractLsb' 13 1 = 0 then .ok (.amoLd (w.extractLsb' 26 1) (w.extractLsb' 25 1) (w.extractLsb' 24 1) (w.extractLsb' 14 5) (w.extractLsb' 12 1) (w.extractLsb' 7 5))
    else .error .reservedField
  | 12 =>
    if w.extractLsb' 13 1 = 0 ∧ w.extractLsb' 7 5 = 0 then .ok (.amoSt (w.extractLsb' 26 1) (w.extractLsb' 25 1) (w.extractLsb' 24 1) (w.extractLsb' 19 5) (w.extractLsb' 14 5) (w.extractLsb' 12 1))
    else .error .reservedField
  | n => .error (.illegalMinor 7 n)

/-- Major opcode 8 (R174). -/
def decodeMaj8 (w : BitVec 32) : Except DecodeError Instr :=
  match (w.extractLsb' 27 5).toNat with
  | 0 => .ok (.fadd (w.extractLsb' 24 3) (w.extractLsb' 19 5) (w.extractLsb' 14 5) (w.extractLsb' 12 2) (w.extractLsb' 7 5))
  | 1 => .ok (.fsub (w.extractLsb' 24 3) (w.extractLsb' 19 5) (w.extractLsb' 14 5) (w.extractLsb' 12 2) (w.extractLsb' 7 5))
  | 2 => .ok (.fmul (w.extractLsb' 24 3) (w.extractLsb' 19 5) (w.extractLsb' 14 5) (w.extractLsb' 12 2) (w.extractLsb' 7 5))
  | 3 => .ok (.fdiv (w.extractLsb' 24 3) (w.extractLsb' 19 5) (w.extractLsb' 14 5) (w.extractLsb' 12 2) (w.extractLsb' 7 5))
  | 4 =>
    if w.extractLsb' 19 5 = 0 then .ok (.fsqrt (w.extractLsb' 24 3) (w.extractLsb' 14 5) (w.extractLsb' 12 2) (w.extractLsb' 7 5))
    else .error .reservedField
  | 5 =>
    if w.extractLsb' 24 3 = 0 then .ok (.fmin (w.extractLsb' 19 5) (w.extractLsb' 14 5) (w.extractLsb' 12 2) (w.extractLsb' 7 5))
    else .error .reservedField
  | 6 =>
    if w.extractLsb' 24 3 = 0 then .ok (.fmax (w.extractLsb' 19 5) (w.extractLsb' 14 5) (w.extractLsb' 12 2) (w.extractLsb' 7 5))
    else .error .reservedField
  | 7 =>
    if w.extractLsb' 24 3 = 0 then .ok (.fsgnj (w.extractLsb' 19 5) (w.extractLsb' 14 5) (w.extractLsb' 12 2) (w.extractLsb' 7 5))
    else .error .reservedField
  | 8 =>
    if w.extractLsb' 24 3 = 0 then .ok (.fsgnjn (w.extractLsb' 19 5) (w.extractLsb' 14 5) (w.extractLsb' 12 2) (w.extractLsb' 7 5))
    else .error .reservedField
  | 9 =>
    if w.extractLsb' 24 3 = 0 then .ok (.fsgnjx (w.extractLsb' 19 5) (w.extractLsb' 14 5) (w.extractLsb' 12 2) (w.extractLsb' 7 5))
    else .error .reservedField
  | 10 =>
    if w.extractLsb' 24 3 = 0 then .ok (.feq (w.extractLsb' 19 5) (w.extractLsb' 14 5) (w.extractLsb' 12 2) (w.extractLsb' 7 5))
    else .error .reservedField
  | 11 =>
    if w.extractLsb' 24 3 = 0 then .ok (.flt (w.extractLsb' 19 5) (w.extractLsb' 14 5) (w.extractLsb' 12 2) (w.extractLsb' 7 5))
    else .error .reservedField
  | 12 =>
    if w.extractLsb' 24 3 = 0 then .ok (.fle (w.extractLsb' 19 5) (w.extractLsb' 14 5) (w.extractLsb' 12 2) (w.extractLsb' 7 5))
    else .error .reservedField
  | 13 =>
    if w.extractLsb' 19 8 = 0 then .ok (.fclass (w.extractLsb' 14 5) (w.extractLsb' 12 2) (w.extractLsb' 7 5))
    else .error .reservedField
  | 14 =>
    if w.extractLsb' 22 2 = 0 then .ok (.ftoi (w.extractLsb' 24 3) (w.extractLsb' 19 3) (w.extractLsb' 14 5) (w.extractLsb' 12 2) (w.extractLsb' 7 5))
    else .error .reservedField
  | 15 =>
    if w.extractLsb' 22 2 = 0 then .ok (.itof (w.extractLsb' 24 3) (w.extractLsb' 19 3) (w.extractLsb' 14 5) (w.extractLsb' 12 2) (w.extractLsb' 7 5))
    else .error .reservedField
  | 16 =>
    if w.extractLsb' 21 3 = 0 then .ok (.fcvt (w.extractLsb' 24 3) (w.extractLsb' 19 2) (w.extractLsb' 14 5) (w.extractLsb' 12 2) (w.extractLsb' 7 5))
    else .error .reservedField
  | n => .error (.illegalMinor 8 n)

/-- Major opcode 9 (R174). -/
def decodeMaj9 (w : BitVec 32) : Except DecodeError Instr :=
  match (w.extractLsb' 12 1).toNat with
  | 0 => .ok (.fmadd (w.extractLsb' 27 5) (w.extractLsb' 24 3) (w.extractLsb' 19 5) (w.extractLsb' 14 5) (w.extractLsb' 13 1) (w.extractLsb' 7 5))
  | 1 => .ok (.fmsub (w.extractLsb' 27 5) (w.extractLsb' 24 3) (w.extractLsb' 19 5) (w.extractLsb' 14 5) (w.extractLsb' 13 1) (w.extractLsb' 7 5))
  | n => .error (.illegalMinor 9 n)

/-- Major opcode 10 (R174). -/
def decodeMaj10 (w : BitVec 32) : Except DecodeError Instr :=
  match (w.extractLsb' 12 1).toNat with
  | 0 => .ok (.fnmsub (w.extractLsb' 27 5) (w.extractLsb' 24 3) (w.extractLsb' 19 5) (w.extractLsb' 14 5) (w.extractLsb' 13 1) (w.extractLsb' 7 5))
  | 1 => .ok (.fnmadd (w.extractLsb' 27 5) (w.extractLsb' 24 3) (w.extractLsb' 19 5) (w.extractLsb' 14 5) (w.extractLsb' 13 1) (w.extractLsb' 7 5))
  | n => .error (.illegalMinor 10 n)

/-- Major opcode 11 (R174). -/
def decodeMaj11 (w : BitVec 32) : Except DecodeError Instr :=
  match (w.extractLsb' 7 5).toNat with
  | 0 => .ok (.bZ (w.extractLsb' 17 15) (w.extractLsb' 12 5))
  | 1 => .ok (.lpZ (w.extractLsb' 17 15) (w.extractLsb' 12 5))
  | 4 => .ok (.bNz (w.extractLsb' 17 15) (w.extractLsb' 12 5))
  | 5 => .ok (.lpNz (w.extractLsb' 17 15) (w.extractLsb' 12 5))
  | 8 => .ok (.bLt (w.extractLsb' 17 15) (w.extractLsb' 12 5))
  | 9 => .ok (.lpLt (w.extractLsb' 17 15) (w.extractLsb' 12 5))
  | 12 => .ok (.bGe (w.extractLsb' 17 15) (w.extractLsb' 12 5))
  | 13 => .ok (.lpGe (w.extractLsb' 17 15) (w.extractLsb' 12 5))
  | 16 => .ok (.bGt (w.extractLsb' 17 15) (w.extractLsb' 12 5))
  | 17 => .ok (.lpGt (w.extractLsb' 17 15) (w.extractLsb' 12 5))
  | 20 => .ok (.bLe (w.extractLsb' 17 15) (w.extractLsb' 12 5))
  | 21 => .ok (.lpLe (w.extractLsb' 17 15) (w.extractLsb' 12 5))
  | 24 => .ok (.bOdd (w.extractLsb' 17 15) (w.extractLsb' 12 5))
  | 25 => .ok (.lpOdd (w.extractLsb' 17 15) (w.extractLsb' 12 5))
  | 28 => .ok (.bEven (w.extractLsb' 17 15) (w.extractLsb' 12 5))
  | 29 => .ok (.lpEven (w.extractLsb' 17 15) (w.extractLsb' 12 5))
  | n => .error (.illegalMinor 11 n)

/-- Major opcode 12 (R174). -/
def decodeMaj12 (w : BitVec 32) : Except DecodeError Instr :=
  match (w.extractLsb' 7 1).toNat with
  | 0 => .ok (.jmp (w.extractLsb' 8 24))
  | 1 => .ok (.call (w.extractLsb' 8 24))
  | n => .error (.illegalMinor 12 n)

/-- Major opcode 13 (R174). -/
def decodeMaj13 (w : BitVec 32) : Except DecodeError Instr :=
  match (w.extractLsb' 12 3).toNat with
  | 0 =>
    if w.extractLsb' 7 5 = 0 then .ok (.jr (w.extractLsb' 20 12) (w.extractLsb' 15 5))
    else .error .reservedField
  | 1 => .ok (.jal (w.extractLsb' 20 12) (w.extractLsb' 15 5) (w.extractLsb' 7 5))
  | 2 =>
    if w.extractLsb' 7 5 = 0 then .ok (.callr (w.extractLsb' 20 12) (w.extractLsb' 15 5))
    else .error .reservedField
  | 3 =>
    if w.extractLsb' 15 17 = 0 ∧ w.extractLsb' 7 5 = 0 then .ok .ret
    else .error .reservedField
  | 4 =>
    if w.extractLsb' 15 17 = 0 ∧ w.extractLsb' 7 5 = 0 then .ok .wflush
    else .error .reservedField
  | n => .error (.illegalMinor 13 n)

/-- Major opcode 14 (R174). -/
def decodeMaj14 (w : BitVec 32) : Except DecodeError Instr :=
  match (w.extractLsb' 12 3).toNat with
  | 0 =>
    if w.extractLsb' 15 17 = 256 then .ok (.geoEdge (w.extractLsb' 7 5))
    else if w.extractLsb' 22 10 = 0 ∧ w.extractLsb' 15 5 = 0 then .ok (.geoStart (w.extractLsb' 20 2) (w.extractLsb' 7 5))
    else if w.extractLsb' 22 10 = 1 ∧ w.extractLsb' 15 5 = 0 then .ok (.geoLen (w.extractLsb' 20 2) (w.extractLsb' 7 5))
    else if w.extractLsb' 22 10 = 3 ∧ w.extractLsb' 15 5 = 0 then .ok (.geoCrd (w.extractLsb' 20 2) (w.extractLsb' 7 5))
    else .error .reservedField
  | 1 =>
    if w.extractLsb' 23 9 = 0 ∧ w.extractLsb' 15 5 = 0 then .ok (.widField (w.extractLsb' 20 3) (w.extractLsb' 7 5))
    else if w.extractLsb' 23 9 = 2 then .ok (.widReg (w.extractLsb' 20 3) (w.extractLsb' 15 5) (w.extractLsb' 7 5))
    else .error .reservedField
  | 2 =>
    if w.extractLsb' 10 2 = 0 then .ok (.xld (w.extractLsb' 20 12) (w.extractLsb' 15 5) (w.extractLsb' 7 3))
    else .error .reservedField
  | 3 =>
    if w.extractLsb' 10 2 = 0 then .ok (.xli (w.extractLsb' 20 12) (w.extractLsb' 15 5) (w.extractLsb' 7 3))
    else .error .reservedField
  | 4 =>
    if w.extractLsb' 23 9 = 0 ∧ w.extractLsb' 15 5 = 0 then .ok (.xmv (w.extractLsb' 20 3) (w.extractLsb' 7 5))
    else .error .reservedField
  | 5 =>
    if w.extractLsb' 23 9 = 0 then .ok (.tsa (w.extractLsb' 20 3) (w.extractLsb' 15 5) (w.extractLsb' 7 5))
    else .error .reservedField
  | n => .error (.illegalMinor 14 n)

/-- Major opcode 15 (R174). -/
def decodeMaj15 (w : BitVec 32) : Except DecodeError Instr :=
  if w.extractLsb' 7 25 = 0 then .ok .nop
  else .ok (.hint (w.extractLsb' 7 25))

/-- Major opcode 16 (R174). -/
def decodeMaj16 (w : BitVec 32) : Except DecodeError Instr :=
  match (w.extractLsb' 27 5).toNat with
  | 0 =>
    if w.extractLsb' 23 1 = 0 then .ok (.vadd (w.extractLsb' 24 3) (w.extractLsb' 21 2) (w.extractLsb' 20 1) (w.extractLsb' 15 5) (w.extractLsb' 11 4) (w.extractLsb' 7 4))
    else .error .reservedField
  | 1 =>
    if w.extractLsb' 23 1 = 0 then .ok (.vsub (w.extractLsb' 24 3) (w.extractLsb' 21 2) (w.extractLsb' 20 1) (w.extractLsb' 15 5) (w.extractLsb' 11 4) (w.extractLsb' 7 4))
    else .error .reservedField
  | 2 =>
    if w.extractLsb' 23 1 = 0 then .ok (.vmul (w.extractLsb' 24 3) (w.extractLsb' 21 2) (w.extractLsb' 20 1) (w.extractLsb' 15 5) (w.extractLsb' 11 4) (w.extractLsb' 7 4))
    else .error .reservedField
  | 3 =>
    if w.extractLsb' 23 1 = 0 then .ok (.vmulh (w.extractLsb' 24 3) (w.extractLsb' 21 2) (w.extractLsb' 20 1) (w.extractLsb' 15 5) (w.extractLsb' 11 4) (w.extractLsb' 7 4))
    else .error .reservedField
  | 4 =>
    if w.extractLsb' 23 1 = 0 then .ok (.vmulhu (w.extractLsb' 24 3) (w.extractLsb' 21 2) (w.extractLsb' 20 1) (w.extractLsb' 15 5) (w.extractLsb' 11 4) (w.extractLsb' 7 4))
    else .error .reservedField
  | 5 =>
    if w.extractLsb' 23 1 = 0 then .ok (.vadds (w.extractLsb' 24 3) (w.extractLsb' 21 2) (w.extractLsb' 20 1) (w.extractLsb' 15 5) (w.extractLsb' 11 4) (w.extractLsb' 7 4))
    else .error .reservedField
  | 6 =>
    if w.extractLsb' 23 1 = 0 then .ok (.vaddsu (w.extractLsb' 24 3) (w.extractLsb' 21 2) (w.extractLsb' 20 1) (w.extractLsb' 15 5) (w.extractLsb' 11 4) (w.extractLsb' 7 4))
    else .error .reservedField
  | 7 =>
    if w.extractLsb' 23 1 = 0 then .ok (.vsubs (w.extractLsb' 24 3) (w.extractLsb' 21 2) (w.extractLsb' 20 1) (w.extractLsb' 15 5) (w.extractLsb' 11 4) (w.extractLsb' 7 4))
    else .error .reservedField
  | 8 =>
    if w.extractLsb' 23 1 = 0 then .ok (.vsubsu (w.extractLsb' 24 3) (w.extractLsb' 21 2) (w.extractLsb' 20 1) (w.extractLsb' 15 5) (w.extractLsb' 11 4) (w.extractLsb' 7 4))
    else .error .reservedField
  | 9 =>
    if w.extractLsb' 23 1 = 0 then .ok (.vmin (w.extractLsb' 24 3) (w.extractLsb' 21 2) (w.extractLsb' 20 1) (w.extractLsb' 15 5) (w.extractLsb' 11 4) (w.extractLsb' 7 4))
    else .error .reservedField
  | 10 =>
    if w.extractLsb' 23 1 = 0 then .ok (.vmax (w.extractLsb' 24 3) (w.extractLsb' 21 2) (w.extractLsb' 20 1) (w.extractLsb' 15 5) (w.extractLsb' 11 4) (w.extractLsb' 7 4))
    else .error .reservedField
  | 11 =>
    if w.extractLsb' 23 1 = 0 then .ok (.vminu (w.extractLsb' 24 3) (w.extractLsb' 21 2) (w.extractLsb' 20 1) (w.extractLsb' 15 5) (w.extractLsb' 11 4) (w.extractLsb' 7 4))
    else .error .reservedField
  | 12 =>
    if w.extractLsb' 23 1 = 0 then .ok (.vmaxu (w.extractLsb' 24 3) (w.extractLsb' 21 2) (w.extractLsb' 20 1) (w.extractLsb' 15 5) (w.extractLsb' 11 4) (w.extractLsb' 7 4))
    else .error .reservedField
  | 13 =>
    if w.extractLsb' 23 1 = 0 then .ok (.vand (w.extractLsb' 24 3) (w.extractLsb' 21 2) (w.extractLsb' 20 1) (w.extractLsb' 15 5) (w.extractLsb' 11 4) (w.extractLsb' 7 4))
    else .error .reservedField
  | 14 =>
    if w.extractLsb' 23 1 = 0 then .ok (.vor (w.extractLsb' 24 3) (w.extractLsb' 21 2) (w.extractLsb' 20 1) (w.extractLsb' 15 5) (w.extractLsb' 11 4) (w.extractLsb' 7 4))
    else .error .reservedField
  | 15 =>
    if w.extractLsb' 23 1 = 0 then .ok (.vxor (w.extractLsb' 24 3) (w.extractLsb' 21 2) (w.extractLsb' 20 1) (w.extractLsb' 15 5) (w.extractLsb' 11 4) (w.extractLsb' 7 4))
    else .error .reservedField
  | 16 =>
    if w.extractLsb' 23 1 = 0 then .ok (.vshl (w.extractLsb' 24 3) (w.extractLsb' 21 2) (w.extractLsb' 20 1) (w.extractLsb' 15 5) (w.extractLsb' 11 4) (w.extractLsb' 7 4))
    else .error .reservedField
  | 17 =>
    if w.extractLsb' 23 1 = 0 then .ok (.vshr (w.extractLsb' 24 3) (w.extractLsb' 21 2) (w.extractLsb' 20 1) (w.extractLsb' 15 5) (w.extractLsb' 11 4) (w.extractLsb' 7 4))
    else .error .reservedField
  | 18 =>
    if w.extractLsb' 23 1 = 0 then .ok (.vsar (w.extractLsb' 24 3) (w.extractLsb' 21 2) (w.extractLsb' 20 1) (w.extractLsb' 15 5) (w.extractLsb' 11 4) (w.extractLsb' 7 4))
    else .error .reservedField
  | 19 =>
    if w.extractLsb' 23 1 = 0 ∧ w.extractLsb' 15 6 = 0 then .ok (.vabs (w.extractLsb' 24 3) (w.extractLsb' 21 2) (w.extractLsb' 11 4) (w.extractLsb' 7 4))
    else .error .reservedField
  | 20 =>
    if w.extractLsb' 23 1 = 0 ∧ w.extractLsb' 10 1 = 0 then .ok (.vcmpeq (w.extractLsb' 24 3) (w.extractLsb' 21 2) (w.extractLsb' 20 1) (w.extractLsb' 15 5) (w.extractLsb' 11 4) (w.extractLsb' 7 3))
    else .error .reservedField
  | 21 =>
    if w.extractLsb' 23 1 = 0 ∧ w.extractLsb' 10 1 = 0 then .ok (.vcmplt (w.extractLsb' 24 3) (w.extractLsb' 21 2) (w.extractLsb' 20 1) (w.extractLsb' 15 5) (w.extractLsb' 11 4) (w.extractLsb' 7 3))
    else .error .reservedField
  | 22 =>
    if w.extractLsb' 23 1 = 0 ∧ w.extractLsb' 10 1 = 0 then .ok (.vcmpltu (w.extractLsb' 24 3) (w.extractLsb' 21 2) (w.extractLsb' 20 1) (w.extractLsb' 15 5) (w.extractLsb' 11 4) (w.extractLsb' 7 3))
    else .error .reservedField
  | 23 =>
    if w.extractLsb' 23 1 = 0 ∧ w.extractLsb' 10 1 = 0 then .ok (.vcmple (w.extractLsb' 24 3) (w.extractLsb' 21 2) (w.extractLsb' 20 1) (w.extractLsb' 15 5) (w.extractLsb' 11 4) (w.extractLsb' 7 3))
    else .error .reservedField
  | 24 =>
    if w.extractLsb' 23 1 = 0 ∧ w.extractLsb' 10 1 = 0 then .ok (.vcmpleu (w.extractLsb' 24 3) (w.extractLsb' 21 2) (w.extractLsb' 20 1) (w.extractLsb' 15 5) (w.extractLsb' 11 4) (w.extractLsb' 7 3))
    else .error .reservedField
  | 25 =>
    if w.extractLsb' 18 6 = 0 then .ok (.vtunp (w.extractLsb' 24 3) (w.extractLsb' 15 3) (w.extractLsb' 11 4) (w.extractLsb' 7 4))
    else .error .reservedField
  | 26 =>
    if w.extractLsb' 19 5 = 8 then .ok (.vtdot (w.extractLsb' 24 3) (w.extractLsb' 15 4) (w.extractLsb' 11 4) (w.extractLsb' 7 4))
    else .error .reservedField
  | 27 =>
    if w.extractLsb' 19 2 = 0 then .ok (.vscan (w.extractLsb' 24 3) (w.extractLsb' 21 3) (w.extractLsb' 18 1) (w.extractLsb' 17 1) (w.extractLsb' 15 2) (w.extractLsb' 11 4) (w.extractLsb' 7 4))
    else .error .reservedField
  | 28 =>
    if w.extractLsb' 18 3 = 0 then .ok (.vred (w.extractLsb' 24 3) (w.extractLsb' 21 3) (w.extractLsb' 15 3) (w.extractLsb' 11 4) (w.extractLsb' 7 4))
    else .error .reservedField
  | 29 =>
    if w.extractLsb' 21 3 = 2 then .ok (.vdot4 (w.extractLsb' 24 3) (w.extractLsb' 20 1) (w.extractLsb' 15 5) (w.extractLsb' 11 4) (w.extractLsb' 7 4))
    else .error .reservedField
  | 30 => .ok (.vsel (w.extractLsb' 24 3) (w.extractLsb' 21 3) (w.extractLsb' 20 1) (w.extractLsb' 15 5) (w.extractLsb' 11 4) (w.extractLsb' 7 4))
  | 31 =>
    if w.extractLsb' 11 4 = 0 then .ok (.vmv (w.extractLsb' 24 3) (w.extractLsb' 21 3) (w.extractLsb' 20 1) (w.extractLsb' 15 5) (w.extractLsb' 7 4))
    else .error .reservedField
  | n => .error (.illegalMinor 16 n)

/-- Major opcode 17 (R174). -/
def decodeMaj17 (w : BitVec 32) : Except DecodeError Instr :=
  match (w.extractLsb' 27 5).toNat with
  | 0 =>
    if w.extractLsb' 23 1 = 1 then .ok (.vfadd (w.extractLsb' 24 3) (w.extractLsb' 21 2) (w.extractLsb' 20 1) (w.extractLsb' 15 5) (w.extractLsb' 11 4) (w.extractLsb' 7 4))
    else .error .reservedField
  | 1 =>
    if w.extractLsb' 23 1 = 1 then .ok (.vfsub (w.extractLsb' 24 3) (w.extractLsb' 21 2) (w.extractLsb' 20 1) (w.extractLsb' 15 5) (w.extractLsb' 11 4) (w.extractLsb' 7 4))
    else .error .reservedField
  | 2 =>
    if w.extractLsb' 23 1 = 1 then .ok (.vfmul (w.extractLsb' 24 3) (w.extractLsb' 21 2) (w.extractLsb' 20 1) (w.extractLsb' 15 5) (w.extractLsb' 11 4) (w.extractLsb' 7 4))
    else .error .reservedField
  | 3 =>
    if w.extractLsb' 23 1 = 1 then .ok (.vfdiv (w.extractLsb' 24 3) (w.extractLsb' 21 2) (w.extractLsb' 20 1) (w.extractLsb' 15 5) (w.extractLsb' 11 4) (w.extractLsb' 7 4))
    else .error .reservedField
  | 4 =>
    if w.extractLsb' 23 1 = 1 ∧ w.extractLsb' 15 6 = 0 then .ok (.vfsqrt (w.extractLsb' 24 3) (w.extractLsb' 21 2) (w.extractLsb' 11 4) (w.extractLsb' 7 4))
    else .error .reservedField
  | 5 =>
    if w.extractLsb' 23 1 = 1 then .ok (.vfmin (w.extractLsb' 24 3) (w.extractLsb' 21 2) (w.extractLsb' 20 1) (w.extractLsb' 15 5) (w.extractLsb' 11 4) (w.extractLsb' 7 4))
    else .error .reservedField
  | 6 =>
    if w.extractLsb' 23 1 = 1 then .ok (.vfmax (w.extractLsb' 24 3) (w.extractLsb' 21 2) (w.extractLsb' 20 1) (w.extractLsb' 15 5) (w.extractLsb' 11 4) (w.extractLsb' 7 4))
    else .error .reservedField
  | 7 =>
    if w.extractLsb' 23 1 = 1 then .ok (.vfsgnj (w.extractLsb' 24 3) (w.extractLsb' 21 2) (w.extractLsb' 20 1) (w.extractLsb' 15 5) (w.extractLsb' 11 4) (w.extractLsb' 7 4))
    else .error .reservedField
  | 8 =>
    if w.extractLsb' 23 1 = 1 then .ok (.vfsgnjn (w.extractLsb' 24 3) (w.extractLsb' 21 2) (w.extractLsb' 20 1) (w.extractLsb' 15 5) (w.extractLsb' 11 4) (w.extractLsb' 7 4))
    else .error .reservedField
  | 9 =>
    if w.extractLsb' 23 1 = 1 then .ok (.vfsgnjx (w.extractLsb' 24 3) (w.extractLsb' 21 2) (w.extractLsb' 20 1) (w.extractLsb' 15 5) (w.extractLsb' 11 4) (w.extractLsb' 7 4))
    else .error .reservedField
  | 10 =>
    if w.extractLsb' 23 1 = 1 ∧ w.extractLsb' 10 1 = 0 then .ok (.vfcmpeq (w.extractLsb' 24 3) (w.extractLsb' 21 2) (w.extractLsb' 20 1) (w.extractLsb' 15 5) (w.extractLsb' 11 4) (w.extractLsb' 7 3))
    else .error .reservedField
  | 11 =>
    if w.extractLsb' 23 1 = 1 ∧ w.extractLsb' 10 1 = 0 then .ok (.vfcmplt (w.extractLsb' 24 3) (w.extractLsb' 21 2) (w.extractLsb' 20 1) (w.extractLsb' 15 5) (w.extractLsb' 11 4) (w.extractLsb' 7 3))
    else .error .reservedField
  | 12 =>
    if w.extractLsb' 23 1 = 1 ∧ w.extractLsb' 10 1 = 0 then .ok (.vfcmple (w.extractLsb' 24 3) (w.extractLsb' 21 2) (w.extractLsb' 20 1) (w.extractLsb' 15 5) (w.extractLsb' 11 4) (w.extractLsb' 7 3))
    else .error .reservedField
  | 13 => .ok (.vcvt (w.extractLsb' 24 3) (w.extractLsb' 21 3) (w.extractLsb' 20 1) (w.extractLsb' 18 2) (w.extractLsb' 15 3) (w.extractLsb' 11 4) (w.extractLsb' 7 4))
  | 14 => .ok (.vcvtu (w.extractLsb' 24 3) (w.extractLsb' 21 3) (w.extractLsb' 20 1) (w.extractLsb' 18 2) (w.extractLsb' 15 3) (w.extractLsb' 11 4) (w.extractLsb' 7 4))
  | 16 => .ok (.vperm (w.extractLsb' 24 3) (w.extractLsb' 21 3) (w.extractLsb' 20 1) (w.extractLsb' 15 5) (w.extractLsb' 11 4) (w.extractLsb' 7 4))
  | 17 =>
    if w.extractLsb' 20 1 = 1 then .ok (.vslide (w.extractLsb' 24 3) (w.extractLsb' 21 3) (w.extractLsb' 15 5) (w.extractLsb' 11 4) (w.extractLsb' 7 4))
    else .error .reservedField
  | 18 =>
    if w.extractLsb' 19 2 = 0 then .ok (.vzipLo (w.extractLsb' 24 3) (w.extractLsb' 21 3) (w.extractLsb' 15 4) (w.extractLsb' 11 4) (w.extractLsb' 7 4))
    else .error .reservedField
  | 19 =>
    if w.extractLsb' 19 2 = 0 then .ok (.vzipHi (w.extractLsb' 24 3) (w.extractLsb' 21 3) (w.extractLsb' 15 4) (w.extractLsb' 11 4) (w.extractLsb' 7 4))
    else .error .reservedField
  | 20 =>
    if w.extractLsb' 19 2 = 0 then .ok (.vunzipEv (w.extractLsb' 24 3) (w.extractLsb' 21 3) (w.extractLsb' 15 4) (w.extractLsb' 11 4) (w.extractLsb' 7 4))
    else .error .reservedField
  | 21 =>
    if w.extractLsb' 19 2 = 0 then .ok (.vunzipOd (w.extractLsb' 24 3) (w.extractLsb' 21 3) (w.extractLsb' 15 4) (w.extractLsb' 11 4) (w.extractLsb' 7 4))
    else .error .reservedField
  | 22 =>
    if w.extractLsb' 15 6 = 0 then .ok (.vcompress (w.extractLsb' 24 3) (w.extractLsb' 21 3) (w.extractLsb' 11 4) (w.extractLsb' 7 4))
    else .error .reservedField
  | 23 =>
    if w.extractLsb' 24 3 = 0 ∧ w.extractLsb' 20 1 = 1 then .ok (.vext (w.extractLsb' 21 3) (w.extractLsb' 15 5) (w.extractLsb' 11 4) (w.extractLsb' 7 4))
    else .error .reservedField
  | 24 =>
    if w.extractLsb' 14 13 = 512 ∧ w.extractLsb' 10 1 = 0 then .ok (.pnot (w.extractLsb' 11 3) (w.extractLsb' 7 3))
    else if w.extractLsb' 18 9 = 0 ∧ w.extractLsb' 14 1 = 0 ∧ w.extractLsb' 10 1 = 0 then .ok (.pand (w.extractLsb' 15 3) (w.extractLsb' 11 3) (w.extractLsb' 7 3))
    else if w.extractLsb' 18 9 = 8 ∧ w.extractLsb' 14 1 = 0 ∧ w.extractLsb' 10 1 = 0 then .ok (.por (w.extractLsb' 15 3) (w.extractLsb' 11 3) (w.extractLsb' 7 3))
    else if w.extractLsb' 18 9 = 16 ∧ w.extractLsb' 14 1 = 0 ∧ w.extractLsb' 10 1 = 0 then .ok (.pxor (w.extractLsb' 15 3) (w.extractLsb' 11 3) (w.extractLsb' 7 3))
    else if w.extractLsb' 18 9 = 24 ∧ w.extractLsb' 14 1 = 0 ∧ w.extractLsb' 10 1 = 0 then .ok (.pandn (w.extractLsb' 15 3) (w.extractLsb' 11 3) (w.extractLsb' 7 3))
    else .error .reservedField
  | 25 =>
    if w.extractLsb' 24 3 = 0 ∧ w.extractLsb' 14 7 = 0 then .ok (.ppop (w.extractLsb' 21 3) (w.extractLsb' 11 3) (w.extractLsb' 7 4))
    else .error .reservedField
  | 26 =>
    if w.extractLsb' 20 7 = 1 ∧ w.extractLsb' 10 5 = 0 then .ok (.pmvToPred (w.extractLsb' 15 5) (w.extractLsb' 7 3))
    else .error .reservedField
  | 27 =>
    if w.extractLsb' 14 13 = 0 then .ok (.pmvFromPred (w.extractLsb' 11 3) (w.extractLsb' 7 4))
    else .error .reservedField
  | 28 =>
    if w.extractLsb' 24 3 = 0 ∧ w.extractLsb' 20 1 = 1 ∧ w.extractLsb' 10 5 = 0 then .ok (.pwhile (w.extractLsb' 21 3) (w.extractLsb' 15 5) (w.extractLsb' 7 3))
    else .error .reservedField
  | n => .error (.illegalMinor 17 n)

/-- Major opcode 18 (R174). -/
def decodeMaj18 (w : BitVec 32) : Except DecodeError Instr :=
  match (w.extractLsb' 16 2).toNat with
  | 0 => .ok (.vfmadd (w.extractLsb' 29 3) (w.extractLsb' 26 3) (w.extractLsb' 22 4) (w.extractLsb' 18 4) (w.extractLsb' 15 1) (w.extractLsb' 11 4) (w.extractLsb' 7 4))
  | 1 => .ok (.vfmsub (w.extractLsb' 29 3) (w.extractLsb' 26 3) (w.extractLsb' 22 4) (w.extractLsb' 18 4) (w.extractLsb' 15 1) (w.extractLsb' 11 4) (w.extractLsb' 7 4))
  | 2 => .ok (.vfnmsub (w.extractLsb' 29 3) (w.extractLsb' 26 3) (w.extractLsb' 22 4) (w.extractLsb' 18 4) (w.extractLsb' 15 1) (w.extractLsb' 11 4) (w.extractLsb' 7 4))
  | 3 => .ok (.vfnmadd (w.extractLsb' 29 3) (w.extractLsb' 26 3) (w.extractLsb' 22 4) (w.extractLsb' 18 4) (w.extractLsb' 15 1) (w.extractLsb' 11 4) (w.extractLsb' 7 4))
  | n => .error (.illegalMinor 18 n)

/-- Major opcode 19 (R174). -/
def decodeMaj19 (w : BitVec 32) : Except DecodeError Instr :=
  match (w.extractLsb' 27 5).toNat with
  | 0 =>
    if w.extractLsb' 19 5 = 0 then .ok (.vld (w.extractLsb' 24 3) (w.extractLsb' 14 5) (w.extractLsb' 11 3) (w.extractLsb' 7 4))
    else .error .reservedField
  | 1 =>
    if w.extractLsb' 19 5 = 0 then .ok (.vst (w.extractLsb' 24 3) (w.extractLsb' 14 5) (w.extractLsb' 11 3) (w.extractLsb' 7 4))
    else .error .reservedField
  | 2 => .ok (.vlds (w.extractLsb' 24 3) (w.extractLsb' 19 5) (w.extractLsb' 14 5) (w.extractLsb' 11 3) (w.extractLsb' 7 4))
  | 3 => .ok (.vsts (w.extractLsb' 24 3) (w.extractLsb' 19 5) (w.extractLsb' 14 5) (w.extractLsb' 11 3) (w.extractLsb' 7 4))
  | 4 =>
    if w.extractLsb' 23 1 = 0 then .ok (.vldg (w.extractLsb' 24 3) (w.extractLsb' 19 4) (w.extractLsb' 14 5) (w.extractLsb' 11 3) (w.extractLsb' 7 4))
    else .error .reservedField
  | 5 =>
    if w.extractLsb' 23 1 = 0 then .ok (.vstg (w.extractLsb' 24 3) (w.extractLsb' 19 4) (w.extractLsb' 14 5) (w.extractLsb' 11 3) (w.extractLsb' 7 4))
    else .error .reservedField
  | 6 =>
    if w.extractLsb' 19 5 = 0 then .ok (.vldLs (w.extractLsb' 24 3) (w.extractLsb' 14 5) (w.extractLsb' 11 3) (w.extractLsb' 7 4))
    else .error .reservedField
  | 7 =>
    if w.extractLsb' 19 5 = 0 then .ok (.vstLs (w.extractLsb' 24 3) (w.extractLsb' 14 5) (w.extractLsb' 11 3) (w.extractLsb' 7 4))
    else .error .reservedField
  | 8 =>
    if w.extractLsb' 23 1 = 0 then .ok (.vldgLs (w.extractLsb' 24 3) (w.extractLsb' 19 4) (w.extractLsb' 14 5) (w.extractLsb' 11 3) (w.extractLsb' 7 4))
    else .error .reservedField
  | 9 =>
    if w.extractLsb' 23 1 = 0 then .ok (.vstgLs (w.extractLsb' 24 3) (w.extractLsb' 19 4) (w.extractLsb' 14 5) (w.extractLsb' 11 3) (w.extractLsb' 7 4))
    else .error .reservedField
  | 10 => .ok (.vldsLs (w.extractLsb' 24 3) (w.extractLsb' 19 5) (w.extractLsb' 14 5) (w.extractLsb' 11 3) (w.extractLsb' 7 4))
  | 11 => .ok (.vstsLs (w.extractLsb' 24 3) (w.extractLsb' 19 5) (w.extractLsb' 14 5) (w.extractLsb' 11 3) (w.extractLsb' 7 4))
  | n => .error (.illegalMinor 19 n)

/-- Major opcode 20 (R174). -/
noncomputable def decodeMaj20 (w : BitVec 32) : Except DecodeError Instr :=
  match (w.extractLsb' 27 5).toNat with
  | 0 =>
    if w.extractLsb' 24 3 = 0 ∧ w.extractLsb' 7 7 = 0 then .ok (.mgeo (w.extractLsb' 19 5) (w.extractLsb' 14 5))
    else .error .reservedField
  | 1 =>
    if w.extractLsb' 7 17 = 0 then .ok (.mwfmt (w.extractLsb' 24 3))
    else .error .reservedField
  | 2 =>
    if w.extractLsb' 19 8 = 0 ∧ w.extractLsb' 7 7 = 0 then .ok (.mwld (w.extractLsb' 14 5))
    else .error .reservedField
  | 3 =>
    if w.extractLsb' 9 5 = 0 then .ok (.macc (w.extractLsb' 24 3) (w.extractLsb' 19 5) (w.extractLsb' 14 5) (w.extractLsb' 7 2))
    else .error .reservedField
  | 4 =>
    if w.extractLsb' 9 18 = 0 then .ok (.mzero (w.extractLsb' 7 2))
    else .error .reservedField
  | 5 =>
    if w.extractLsb' 16 3 = 0 ∧ w.extractLsb' 12 2 = 0 then .ok (.mst (w.extractLsb' 24 3) (w.extractLsb' 19 5) (w.extractLsb' 14 2) (w.extractLsb' 7 5))
    else .error .reservedField
  | 6 =>
    if w.extractLsb' 9 5 = 0 then .ok (.mld (w.extractLsb' 24 3) (w.extractLsb' 19 5) (w.extractLsb' 14 5) (w.extractLsb' 7 2))
    else .error .reservedField
  | 7 =>
    if w.extractLsb' 19 5 = 0 ∧ w.extractLsb' 9 5 = 0 then .ok (.mscl (w.extractLsb' 24 3) (w.extractLsb' 14 5) (w.extractLsb' 7 2))
    else .error .reservedField
  | 8 =>
    if w.extractLsb' 19 5 = 0 ∧ w.extractLsb' 9 5 = 0 then .ok (.mbias (w.extractLsb' 24 3) (w.extractLsb' 14 5) (w.extractLsb' 7 2))
    else .error .reservedField
  | 9 =>
    if w.extractLsb' 16 11 = 0 ∧ w.extractLsb' 9 5 = 0 then .ok (.mmv (w.extractLsb' 14 2) (w.extractLsb' 7 2))
    else .error .reservedField
  | n => .error (.illegalMinor 20 n)

/-- Major opcode 21 (R174). -/
noncomputable def decodeMaj21 (w : BitVec 32) : Except DecodeError Instr :=
  match (w.extractLsb' 27 5).toNat with
  | 0 =>
    if w.extractLsb' 24 3 = 0 then .ok (.cpy (w.extractLsb' 19 5) (w.extractLsb' 14 5) (w.extractLsb' 12 2) (w.extractLsb' 7 5))
    else .error .reservedField
  | 1 => .ok (.cpy2d (w.extractLsb' 24 3) (w.extractLsb' 19 5) (w.extractLsb' 14 5) (w.extractLsb' 12 2) (w.extractLsb' 7 5))
  | 2 =>
    if w.extractLsb' 24 3 = 0 ∧ w.extractLsb' 12 2 = 0 then .ok (.deal (w.extractLsb' 19 5) (w.extractLsb' 14 5) (w.extractLsb' 7 5))
    else .error .reservedField
  | 3 =>
    if w.extractLsb' 19 5 = 0 ∧ w.extractLsb' 12 2 = 0 then .ok (.cpyw (w.extractLsb' 24 3) (w.extractLsb' 14 5) (w.extractLsb' 7 5))
    else .error .reservedField
  | 4 =>
    if w.extractLsb' 13 1 = 0 then .ok (.cpyz (w.extractLsb' 24 3) (w.extractLsb' 19 5) (w.extractLsb' 14 5) (w.extractLsb' 12 1) (w.extractLsb' 7 5))
    else .error .reservedField
  | 5 =>
    if w.extractLsb' 12 2 = 0 then .ok (.cpyc (w.extractLsb' 24 3) (w.extractLsb' 19 5) (w.extractLsb' 14 5) (w.extractLsb' 7 5))
    else .error .reservedField
  | 6 =>
    if w.extractLsb' 24 3 = 0 ∧ w.extractLsb' 12 1 = 0 then .ok (.cpyset (w.extractLsb' 19 5) (w.extractLsb' 14 5) (w.extractLsb' 13 1) (w.extractLsb' 7 5))
    else .error .reservedField
  | n => .error (.illegalMinor 21 n)

/-- Major opcode 22 (R174). -/
noncomputable def decodeMaj22 (w : BitVec 32) : Except DecodeError Instr :=
  match (w.extractLsb' 27 5).toNat with
  | 0 =>
    if w.extractLsb' 21 3 = 0 ∧ w.extractLsb' 12 7 = 0 then .ok (.mergeAdd (w.extractLsb' 24 3) (w.extractLsb' 20 1) (w.extractLsb' 19 1) (w.extractLsb' 7 5))
    else if w.extractLsb' 21 3 = 0 ∧ w.extractLsb' 12 7 = 1 then .ok (.mergeMax (w.extractLsb' 24 3) (w.extractLsb' 20 1) (w.extractLsb' 19 1) (w.extractLsb' 7 5))
    else if w.extractLsb' 21 3 = 0 ∧ w.extractLsb' 12 7 = 2 then .ok (.mergeMin (w.extractLsb' 24 3) (w.extractLsb' 20 1) (w.extractLsb' 19 1) (w.extractLsb' 7 5))
    else if w.extractLsb' 21 3 = 0 ∧ w.extractLsb' 12 7 = 3 then .ok (.mergeSub (w.extractLsb' 24 3) (w.extractLsb' 20 1) (w.extractLsb' 19 1) (w.extractLsb' 7 5))
    else .error .reservedField
  | 1 =>
    if w.extractLsb' 21 3 = 0 ∧ w.extractLsb' 12 7 = 0 then .ok (.isectMul (w.extractLsb' 24 3) (w.extractLsb' 20 1) (w.extractLsb' 19 1) (w.extractLsb' 7 5))
    else if w.extractLsb' 21 3 = 0 ∧ w.extractLsb' 12 7 = 1 then .ok (.isectMin (w.extractLsb' 24 3) (w.extractLsb' 20 1) (w.extractLsb' 19 1) (w.extractLsb' 7 5))
    else if w.extractLsb' 21 3 = 0 ∧ w.extractLsb' 12 7 = 2 then .ok (.isectMax (w.extractLsb' 24 3) (w.extractLsb' 20 1) (w.extractLsb' 19 1) (w.extractLsb' 7 5))
    else if w.extractLsb' 21 3 = 0 ∧ w.extractLsb' 12 7 = 3 then .ok (.isectFirst (w.extractLsb' 24 3) (w.extractLsb' 20 1) (w.extractLsb' 19 1) (w.extractLsb' 7 5))
    else .error .reservedField
  | 2 =>
    if w.extractLsb' 20 4 = 0 ∧ w.extractLsb' 12 2 = 0 then .ok (.condense (w.extractLsb' 24 3) (w.extractLsb' 19 1) (w.extractLsb' 14 5) (w.extractLsb' 7 5))
    else .error .reservedField
  | 3 =>
    if w.extractLsb' 20 4 = 0 ∧ w.extractLsb' 12 7 = 0 then .ok (.expand (w.extractLsb' 24 3) (w.extractLsb' 19 1) (w.extractLsb' 7 5))
    else .error .reservedField
  | 4 =>
    if w.extractLsb' 20 4 = 0 ∧ w.extractLsb' 12 2 = 0 then .ok (.topkMax (w.extractLsb' 24 3) (w.extractLsb' 19 1) (w.extractLsb' 14 5) (w.extractLsb' 7 5))
    else if w.extractLsb' 20 4 = 0 ∧ w.extractLsb' 12 2 = 1 then .ok (.topkMin (w.extractLsb' 24 3) (w.extractLsb' 19 1) (w.extractLsb' 14 5) (w.extractLsb' 7 5))
    else .error .reservedField
  | 5 =>
    if w.extractLsb' 21 3 = 0 ∧ w.extractLsb' 12 7 = 0 then .ok (.ksortK32 (w.extractLsb' 24 3) (w.extractLsb' 20 1) (w.extractLsb' 19 1) (w.extractLsb' 7 5))
    else if w.extractLsb' 21 3 = 0 ∧ w.extractLsb' 12 7 = 1 then .ok (.ksortK64 (w.extractLsb' 24 3) (w.extractLsb' 20 1) (w.extractLsb' 19 1) (w.extractLsb' 7 5))
    else .error .reservedField
  | 16 =>
    if w.extractLsb' 19 5 = 0 ∧ w.extractLsb' 12 2 = 0 then .ok (.nvsub (w.extractLsb' 24 3) (w.extractLsb' 14 5) (w.extractLsb' 7 5))
    else .error .reservedField
  | 17 =>
    if w.extractLsb' 19 8 = 0 ∧ w.extractLsb' 12 2 = 0 then .ok (.nvpoll (w.extractLsb' 14 5) (w.extractLsb' 7 5))
    else .error .reservedField
  | 18 =>
    if w.extractLsb' 19 8 = 0 ∧ w.extractLsb' 12 2 = 0 then .ok (.nvcfg (w.extractLsb' 14 5) (w.extractLsb' 7 5))
    else .error .reservedField
  | n => .error (.illegalMinor 22 n)

/-- Major opcode 23 (R174). -/
noncomputable def decodeMaj23 (w : BitVec 32) : Except DecodeError Instr :=
  match (w.extractLsb' 27 5).toNat with
  | 0 =>
    if w.extractLsb' 24 3 = 0 ∧ w.extractLsb' 12 2 = 0 then .ok (.kclaim (w.extractLsb' 19 5) (w.extractLsb' 14 5) (w.extractLsb' 7 5))
    else .error .reservedField
  | 1 =>
    if w.extractLsb' 7 20 = 0 then .ok .krel
    else .error .reservedField
  | 2 =>
    if w.extractLsb' 24 3 = 0 ∧ w.extractLsb' 12 2 = 0 then .ok (.kins (w.extractLsb' 19 5) (w.extractLsb' 14 5) (w.extractLsb' 7 5))
    else if w.extractLsb' 23 1 = 0 ∧ w.extractLsb' 18 1 = 0 ∧ w.extractLsb' 11 3 = 2 then .ok (.kinsV64 (w.extractLsb' 24 3) (w.extractLsb' 19 4) (w.extractLsb' 14 4) (w.extractLsb' 7 4))
    else if w.extractLsb' 23 1 = 0 ∧ w.extractLsb' 18 1 = 0 ∧ w.extractLsb' 11 3 = 4 then .ok (.kinsV32 (w.extractLsb' 24 3) (w.extractLsb' 19 4) (w.extractLsb' 14 4) (w.extractLsb' 7 4))
    else .error .reservedField
  | 3 =>
    if w.extractLsb' 22 2 = 0 ∧ w.extractLsb' 18 1 = 0 ∧ w.extractLsb' 11 3 = 2 then .ok (.kprbV64 (w.extractLsb' 24 3) (w.extractLsb' 19 3) (w.extractLsb' 14 4) (w.extractLsb' 7 4))
    else if w.extractLsb' 22 2 = 0 ∧ w.extractLsb' 18 1 = 0 ∧ w.extractLsb' 11 3 = 4 then .ok (.kprbV32 (w.extractLsb' 24 3) (w.extractLsb' 19 3) (w.extractLsb' 14 4) (w.extractLsb' 7 4))
    else if w.extractLsb' 24 3 = 0 ∧ w.extractLsb' 12 2 = 0 then .ok (.kprb (w.extractLsb' 19 5) (w.extractLsb' 14 5) (w.extractLsb' 7 5))
    else .error .reservedField
  | 4 =>
    if w.extractLsb' 19 8 = 0 ∧ w.extractLsb' 12 2 = 0 then .ok (.kdel (w.extractLsb' 14 5) (w.extractLsb' 7 5))
    else if w.extractLsb' 18 6 = 0 ∧ w.extractLsb' 11 3 = 2 then .ok (.kdelV64 (w.extractLsb' 24 3) (w.extractLsb' 14 4) (w.extractLsb' 7 4))
    else if w.extractLsb' 18 6 = 0 ∧ w.extractLsb' 11 3 = 4 then .ok (.kdelV32 (w.extractLsb' 24 3) (w.extractLsb' 14 4) (w.extractLsb' 7 4))
    else .error .reservedField
  | 5 =>
    if w.extractLsb' 24 3 = 0 ∧ w.extractLsb' 12 2 = 0 then .ok (.kaccAdd (w.extractLsb' 19 5) (w.extractLsb' 14 5) (w.extractLsb' 7 5))
    else if w.extractLsb' 23 1 = 0 ∧ w.extractLsb' 18 1 = 0 ∧ w.extractLsb' 11 3 = 2 then .ok (.kaccAddV64 (w.extractLsb' 24 3) (w.extractLsb' 19 4) (w.extractLsb' 14 4) (w.extractLsb' 7 4))
    else if w.extractLsb' 23 1 = 0 ∧ w.extractLsb' 18 1 = 0 ∧ w.extractLsb' 11 3 = 4 then .ok (.kaccAddV32 (w.extractLsb' 24 3) (w.extractLsb' 19 4) (w.extractLsb' 14 4) (w.extractLsb' 7 4))
    else .error .reservedField
  | 6 =>
    if w.extractLsb' 24 3 = 0 ∧ w.extractLsb' 12 2 = 0 then .ok (.kaccMin (w.extractLsb' 19 5) (w.extractLsb' 14 5) (w.extractLsb' 7 5))
    else if w.extractLsb' 23 1 = 0 ∧ w.extractLsb' 18 1 = 0 ∧ w.extractLsb' 11 3 = 2 then .ok (.kaccMinV64 (w.extractLsb' 24 3) (w.extractLsb' 19 4) (w.extractLsb' 14 4) (w.extractLsb' 7 4))
    else if w.extractLsb' 23 1 = 0 ∧ w.extractLsb' 18 1 = 0 ∧ w.extractLsb' 11 3 = 4 then .ok (.kaccMinV32 (w.extractLsb' 24 3) (w.extractLsb' 19 4) (w.extractLsb' 14 4) (w.extractLsb' 7 4))
    else .error .reservedField
  | 7 =>
    if w.extractLsb' 24 3 = 0 ∧ w.extractLsb' 12 2 = 0 then .ok (.kaccMax (w.extractLsb' 19 5) (w.extractLsb' 14 5) (w.extractLsb' 7 5))
    else if w.extractLsb' 23 1 = 0 ∧ w.extractLsb' 18 1 = 0 ∧ w.extractLsb' 11 3 = 2 then .ok (.kaccMaxV64 (w.extractLsb' 24 3) (w.extractLsb' 19 4) (w.extractLsb' 14 4) (w.extractLsb' 7 4))
    else if w.extractLsb' 23 1 = 0 ∧ w.extractLsb' 18 1 = 0 ∧ w.extractLsb' 11 3 = 4 then .ok (.kaccMaxV32 (w.extractLsb' 24 3) (w.extractLsb' 19 4) (w.extractLsb' 14 4) (w.extractLsb' 7 4))
    else .error .reservedField
  | 8 =>
    if w.extractLsb' 24 3 = 0 ∧ w.extractLsb' 12 2 = 0 then .ok (.kaccFadd (w.extractLsb' 19 5) (w.extractLsb' 14 5) (w.extractLsb' 7 5))
    else if w.extractLsb' 23 1 = 0 ∧ w.extractLsb' 18 1 = 0 ∧ w.extractLsb' 11 3 = 2 then .ok (.kaccFaddV64 (w.extractLsb' 24 3) (w.extractLsb' 19 4) (w.extractLsb' 14 4) (w.extractLsb' 7 4))
    else .error .reservedField
  | 9 =>
    if w.extractLsb' 25 2 = 0 ∧ w.extractLsb' 13 1 = 0 ∧ w.extractLsb' 7 5 = 0 then .ok (.kdrain (w.extractLsb' 24 1) (w.extractLsb' 19 5) (w.extractLsb' 14 5) (w.extractLsb' 12 1))
    else .error .reservedField
  | 10 =>
    if w.extractLsb' 26 1 = 0 ∧ w.extractLsb' 13 1 = 0 ∧ w.extractLsb' 7 5 = 0 then .ok (.kdrains (w.extractLsb' 25 1) (w.extractLsb' 24 1) (w.extractLsb' 19 5) (w.extractLsb' 14 5) (w.extractLsb' 12 1))
    else .error .reservedField
  | 11 =>
    if w.extractLsb' 24 3 = 0 ∧ w.extractLsb' 12 7 = 0 then .ok (.kstat (w.extractLsb' 19 5) (w.extractLsb' 7 5))
    else .error .reservedField
  | n => .error (.illegalMinor 23 n)

/-- Major opcode 24 (R174). -/
noncomputable def decodeMaj24 (w : BitVec 32) : Except DecodeError Instr :=
  match (w.extractLsb' 27 5).toNat with
  | 0 =>
    if w.extractLsb' 24 3 = 0 ∧ w.extractLsb' 12 2 = 0 then .ok (.spawn (w.extractLsb' 19 5) (w.extractLsb' 14 5) (w.extractLsb' 7 5))
    else .error .reservedField
  | 1 =>
    if w.extractLsb' 24 3 = 0 ∧ w.extractLsb' 12 2 = 0 then .ok (.spawnAt (w.extractLsb' 19 5) (w.extractLsb' 14 5) (w.extractLsb' 7 5))
    else .error .reservedField
  | 2 =>
    if w.extractLsb' 19 8 = 0 ∧ w.extractLsb' 7 7 = 0 then .ok (.await (w.extractLsb' 14 5))
    else .error .reservedField
  | 3 =>
    if w.extractLsb' 7 20 = 0 then .ok .quit
    else .error .reservedField
  | 4 =>
    if w.extractLsb' 7 20 = 0 then .ok .wfw
    else .error .reservedField
  | 5 =>
    if w.extractLsb' 7 20 = 0 then .ok .yield
    else .error .reservedField
  | 6 =>
    if w.extractLsb' 24 3 = 0 ∧ w.extractLsb' 12 2 = 0 then .ok (.txsub (w.extractLsb' 19 5) (w.extractLsb' 14 5) (w.extractLsb' 7 5))
    else .error .reservedField
  | 7 =>
    if w.extractLsb' 24 3 = 0 ∧ w.extractLsb' 12 2 = 0 then .ok (.txrecon (w.extractLsb' 19 5) (w.extractLsb' 14 5) (w.extractLsb' 7 5))
    else .error .reservedField
  | 8 =>
    if w.extractLsb' 7 20 = 0 then .ok .txchk
    else .error .reservedField
  | n => .error (.illegalMinor 24 n)

/-- Major opcode 25 (R174). -/
noncomputable def decodeMaj25 (w : BitVec 32) : Except DecodeError Instr :=
  match (w.extractLsb' 27 5).toNat with
  | 0 =>
    if w.extractLsb' 19 8 = 0 ∧ w.extractLsb' 12 2 = 0 then .ok (.sendLo (w.extractLsb' 14 5) (w.extractLsb' 7 5))
    else if w.extractLsb' 19 8 = 0 ∧ w.extractLsb' 12 2 = 1 then .ok (.sendHi (w.extractLsb' 14 5) (w.extractLsb' 7 5))
    else .error .reservedField
  | 1 =>
    if w.extractLsb' 12 15 = 0 then .ok (.recv (w.extractLsb' 7 5))
    else .error .reservedField
  | 2 =>
    if w.extractLsb' 7 20 = 0 then .ok .waitm
    else if w.extractLsb' 7 20 = 32 then .ok .waitmHi
    else .error .reservedField
  | 3 =>
    if w.extractLsb' 19 8 = 0 ∧ w.extractLsb' 7 7 = 0 then .ok (.menter (w.extractLsb' 14 5))
    else .error .reservedField
  | 4 =>
    if w.extractLsb' 19 8 = 0 ∧ w.extractLsb' 7 7 = 0 then .ok (.mexit (w.extractLsb' 14 5))
    else .error .reservedField
  | 5 =>
    if w.extractLsb' 23 4 = 0 ∧ w.extractLsb' 7 7 = 0 then .ok (.barCfg (w.extractLsb' 19 4) (w.extractLsb' 14 5))
    else .error .reservedField
  | 6 =>
    if w.extractLsb' 23 4 = 0 ∧ w.extractLsb' 12 7 = 0 then .ok (.barArrive (w.extractLsb' 19 4) (w.extractLsb' 7 5))
    else .error .reservedField
  | 7 =>
    if w.extractLsb' 23 4 = 0 ∧ w.extractLsb' 7 7 = 0 then .ok (.barWait (w.extractLsb' 19 4) (w.extractLsb' 14 5))
    else .error .reservedField
  | 8 =>
    if w.extractLsb' 19 8 = 0 ∧ w.extractLsb' 7 7 = 0 then .ok (.qcfg (w.extractLsb' 14 5))
    else .error .reservedField
  | 9 =>
    if w.extractLsb' 7 20 = 0 then .ok .qmapOff
    else if w.extractLsb' 7 20 = 32 then .ok .qmapOn
    else .error .reservedField
  | n => .error (.illegalMinor 25 n)

/-- Major opcode 26 (R174). -/
noncomputable def decodeMaj26 (w : BitVec 32) : Except DecodeError Instr :=
  match (w.extractLsb' 27 5).toNat with
  | 0 =>
    if w.extractLsb' 23 4 = 0 then .ok (.wait (w.extractLsb' 19 4) (w.extractLsb' 15 4) (w.extractLsb' 11 4) (w.extractLsb' 7 4))
    else .error .reservedField
  | 1 =>
    if w.extractLsb' 12 15 = 0 then .ok (.qfence (w.extractLsb' 7 5))
    else .error .reservedField
  | 2 =>
    if w.extractLsb' 7 20 = 0 then .ok .l1wb
    else if w.extractLsb' 19 8 = 0 ∧ w.extractLsb' 7 7 = 32 then .ok (.l1wbL (w.extractLsb' 14 5))
    else .error .reservedField
  | 3 =>
    if w.extractLsb' 7 20 = 0 then .ok .l1inv
    else if w.extractLsb' 19 8 = 0 ∧ w.extractLsb' 7 7 = 32 then .ok (.l1invL (w.extractLsb' 14 5))
    else .error .reservedField
  | 4 =>
    if w.extractLsb' 7 20 = 0 then .ok .epoch
    else .error .reservedField
  | 8 =>
    if w.extractLsb' 24 3 = 0 ∧ w.extractLsb' 7 5 = 0 then .ok (.trap (w.extractLsb' 12 12))
    else .error .reservedField
  | 9 =>
    if w.extractLsb' 7 20 = 0 then .ok .sysret
    else .error .reservedField
  | 10 =>
    if w.extractLsb' 15 12 = 512 then .ok (.mfsE (w.extractLsb' 12 3) (w.extractLsb' 7 5))
    else if w.extractLsb' 24 3 = 0 then .ok (.mfs (w.extractLsb' 12 12) (w.extractLsb' 7 5))
    else .error .reservedField
  | 11 =>
    if w.extractLsb' 15 12 = 512 then .ok (.mtsE (w.extractLsb' 12 3) (w.extractLsb' 7 5))
    else if w.extractLsb' 24 3 = 0 then .ok (.mts (w.extractLsb' 12 12) (w.extractLsb' 7 5))
    else .error .reservedField
  | 12 =>
    if w.extractLsb' 24 3 = 0 ∧ w.extractLsb' 7 5 = 0 then .ok (.bkpt (w.extractLsb' 12 12))
    else .error .reservedField
  | 13 =>
    if w.extractLsb' 7 20 = 0 then .ok .halt
    else .error .reservedField
  | 14 =>
    if w.extractLsb' 19 8 = 0 ∧ w.extractLsb' 7 7 = 0 then .ok (.tlbw (w.extractLsb' 14 5))
    else .error .reservedField
  | 15 =>
    if w.extractLsb' 7 20 = 32 then .ok .tlbiAll
    else if w.extractLsb' 19 8 = 0 ∧ w.extractLsb' 7 7 = 0 then .ok (.tlbi (w.extractLsb' 14 5))
    else .error .reservedField
  | n => .error (.illegalMinor 26 n)

/-- 16-bit quadrant 0 (R176, R177). -/
def decodeQuad0 (w : BitVec 16) : Except DecodeError Instr :=
  match (w.extractLsb' 10 6).toNat with
  | 1 => .ok (.cMove (w.extractLsb' 6 4) (w.extractLsb' 2 4))
  | 2 => .ok (.cAdd (w.extractLsb' 6 4) (w.extractLsb' 2 4))
  | 3 => .ok (.cSub (w.extractLsb' 6 4) (w.extractLsb' 2 4))
  | 4 => .ok (.cAnd (w.extractLsb' 6 4) (w.extractLsb' 2 4))
  | 5 => .ok (.cOr (w.extractLsb' 6 4) (w.extractLsb' 2 4))
  | 6 => .ok (.cXor (w.extractLsb' 6 4) (w.extractLsb' 2 4))
  | 7 => .ok (.cShl (w.extractLsb' 6 4) (w.extractLsb' 2 4))
  | 8 => .ok (.cShr (w.extractLsb' 6 4) (w.extractLsb' 2 4))
  | 9 => .ok (.cSar (w.extractLsb' 6 4) (w.extractLsb' 2 4))
  | 10 => .ok (.cMul (w.extractLsb' 6 4) (w.extractLsb' 2 4))
  | 11 => .ok (.cLdD (w.extractLsb' 6 4) (w.extractLsb' 2 4))
  | 12 => .ok (.cStD (w.extractLsb' 6 4) (w.extractLsb' 2 4))
  | 13 => .ok (.cLdDLs (w.extractLsb' 6 4) (w.extractLsb' 2 4))
  | 14 => .ok (.cStDLs (w.extractLsb' 6 4) (w.extractLsb' 2 4))
  | 16 =>
    if w.extractLsb' 6 4 = 0 then .ok (.cJr (w.extractLsb' 2 4))
    else .error .reservedField
  | 17 =>
    if w.extractLsb' 2 8 = 0 then .ok .cRet
    else .error .reservedField
  | 63 => .ok (.cHint (w.extractLsb' 6 4) (w.extractLsb' 2 4))
  | n => .error (.illegalMinor (100) n)

/-- 16-bit quadrant 1 (R176, R177). -/
def decodeQuad1 (w : BitVec 16) : Except DecodeError Instr :=
  match (w.extractLsb' 12 4).toNat with
  | 0 => .ok (.cAddiS0 (w.extractLsb' 8 4) (w.extractLsb' 2 6))
  | 1 => .ok (.cAddi (w.extractLsb' 8 4) (w.extractLsb' 2 6))
  | 2 => .ok (.cShli (w.extractLsb' 8 4) (w.extractLsb' 2 6))
  | 3 => .ok (.cShri (w.extractLsb' 8 4) (w.extractLsb' 2 6))
  | 4 => .ok (.cSari (w.extractLsb' 8 4) (w.extractLsb' 2 6))
  | 5 => .ok (.cAndi (w.extractLsb' 8 4) (w.extractLsb' 2 6))
  | 6 => .ok (.cLdDSp (w.extractLsb' 8 4) (w.extractLsb' 2 6))
  | 7 => .ok (.cStDSp (w.extractLsb' 8 4) (w.extractLsb' 2 6))
  | n => .error (.illegalMinor (101) n)

/-- 16-bit quadrant 2 (R176, R177). -/
def decodeQuad2 (w : BitVec 16) : Except DecodeError Instr :=
  match (w.extractLsb' 14 2).toNat with
  | 0 => .ok (.cJmp (w.extractLsb' 2 12))
  | 1 => .ok (.cBZ (w.extractLsb' 10 4) (w.extractLsb' 2 8))
  | 2 => .ok (.cBNz (w.extractLsb' 10 4) (w.extractLsb' 2 8))
  | n => .error (.illegalMinor (102) n)

/-- A 32-bit word by its major opcode (R172, R174). -/
noncomputable def decodeRaw32 (w : BitVec 32) : Except DecodeError Instr :=
  match (w.extractLsb' 2 5).toNat with
  | 0 => decodeMaj0 w
  | 1 => decodeMaj1 w
  | 2 => decodeMaj2 w
  | 3 => decodeMaj3 w
  | 4 => decodeMaj4 w
  | 5 => decodeMaj5 w
  | 6 => decodeMaj6 w
  | 7 => decodeMaj7 w
  | 8 => decodeMaj8 w
  | 9 => decodeMaj9 w
  | 10 => decodeMaj10 w
  | 11 => decodeMaj11 w
  | 12 => decodeMaj12 w
  | 13 => decodeMaj13 w
  | 14 => decodeMaj14 w
  | 15 => decodeMaj15 w
  | 16 => decodeMaj16 w
  | 17 => decodeMaj17 w
  | 18 => decodeMaj18 w
  | 19 => decodeMaj19 w
  | 20 => decodeMaj20 w
  | 21 => decodeMaj21 w
  | 22 => decodeMaj22 w
  | 23 => decodeMaj23 w
  | 24 => decodeMaj24 w
  | 25 => decodeMaj25 w
  | 26 => decodeMaj26 w
  | m => .error (.illegalMajor m)

/-- A 16-bit word by its quadrant (R176). -/
def decodeRaw16 (w : BitVec 16) : Except DecodeError Instr :=
  match (w.extractLsb' 0 2).toNat with
  | 0 => decodeQuad0 w
  | 1 => decodeQuad1 w
  | 2 => decodeQuad2 w
  | q => .error (.illegalMajor (100 + q))

/-- Refuse an instruction whose fields its entry does not allow. -/
def checkFields (r : Except DecodeError Instr) : Except DecodeError Instr :=
  match r with
  | .ok i => if i.wellFormed then .ok i else .error .refusedOperand
  | .error e => .error e

/-- The instruction of a 32-bit word. -/
noncomputable def decode32 (w : BitVec 32) : Except DecodeError Instr := checkFields (decodeRaw32 w)

/-- The instruction of a 16-bit word. -/
def decode16 (w : BitVec 16) : Except DecodeError Instr := checkFields (decodeRaw16 w)

/-- The first halfword says whether the word has 32 bits (R169). -/
def isLong (h : BitVec 16) : Bool := decide (h.extractLsb' 0 2 = 3)

/-- The halfword of two bytes, the lower address first (R4). -/
def halfOf (b0 b1 : Byte) : BitVec 16 := b1 ++ b0

/-- Decode the instruction at the head of a list of bytes; answers it, its length in bytes and the bytes left. -/
noncomputable def decode (bs : List Byte) : Except DecodeError (Instr × Nat × List Byte) :=
  match bs with
  | b0 :: b1 :: rest =>
    if isLong (halfOf b0 b1) then
      match rest with
      | b2 :: b3 :: rest' =>
        match decode32 (halfOf b2 b3 ++ halfOf b0 b1) with
        | .ok i => .ok (i, 4, rest')
        | .error e => .error e
      | _ => .error .truncated
    else
      match decode16 (halfOf b0 b1) with
      | .ok i => .ok (i, 2, rest)
      | .error e => .error e
  | _ => .error .truncated

/-- The word of an instruction: its fields and fixed bits, highest first (R172, R176). An event has none. -/
inductive Code where
  | half (w : BitVec 16)
  | long (w : BitVec 32)
  | none
  deriving DecidableEq, Repr

/-- The word that stands for an instruction. -/
def encode (i : Instr) : Code :=
  match i with
  | .add p b a w d => .long (0#5 ++ p ++ b ++ a ++ w ++ d ++ 3#7)
  | .sub p b a w d => .long (1#5 ++ p ++ b ++ a ++ w ++ d ++ 3#7)
  | .and p b a w d => .long (2#5 ++ p ++ b ++ a ++ w ++ d ++ 3#7)
  | .or p b a w d => .long (3#5 ++ p ++ b ++ a ++ w ++ d ++ 3#7)
  | .xor p b a w d => .long (4#5 ++ p ++ b ++ a ++ w ++ d ++ 3#7)
  | .andn p b a w d => .long (5#5 ++ p ++ b ++ a ++ w ++ d ++ 3#7)
  | .shl p b a w d => .long (6#5 ++ p ++ b ++ a ++ w ++ d ++ 3#7)
  | .shr p b a w d => .long (7#5 ++ p ++ b ++ a ++ w ++ d ++ 3#7)
  | .sar p b a w d => .long (8#5 ++ p ++ b ++ a ++ w ++ d ++ 3#7)
  | .ror p b a w d => .long (9#5 ++ p ++ b ++ a ++ w ++ d ++ 3#7)
  | .mul p b a w d => .long (10#5 ++ p ++ b ++ a ++ w ++ d ++ 3#7)
  | .mulh p b a w d => .long (11#5 ++ p ++ b ++ a ++ w ++ d ++ 3#7)
  | .mulhu p b a w d => .long (12#5 ++ p ++ b ++ a ++ w ++ d ++ 3#7)
  | .div p b a w d => .long (13#5 ++ p ++ b ++ a ++ w ++ d ++ 3#7)
  | .divu p b a w d => .long (14#5 ++ p ++ b ++ a ++ w ++ d ++ 3#7)
  | .rem p b a w d => .long (15#5 ++ p ++ b ++ a ++ w ++ d ++ 3#7)
  | .remu p b a w d => .long (16#5 ++ p ++ b ++ a ++ w ++ d ++ 3#7)
  | .slt p b a w d => .long (17#5 ++ p ++ b ++ a ++ w ++ d ++ 3#7)
  | .sltu p b a w d => .long (18#5 ++ p ++ b ++ a ++ w ++ d ++ 3#7)
  | .min p b a w d => .long (19#5 ++ p ++ b ++ a ++ w ++ d ++ 3#7)
  | .max p b a w d => .long (20#5 ++ p ++ b ++ a ++ w ++ d ++ 3#7)
  | .minu p b a w d => .long (21#5 ++ p ++ b ++ a ++ w ++ d ++ 3#7)
  | .maxu p b a w d => .long (22#5 ++ p ++ b ++ a ++ w ++ d ++ 3#7)
  | .adds p b a w d => .long (23#5 ++ p ++ b ++ a ++ w ++ d ++ 3#7)
  | .addsu p b a w d => .long (24#5 ++ p ++ b ++ a ++ w ++ d ++ 3#7)
  | .subs p b a w d => .long (25#5 ++ p ++ b ++ a ++ w ++ d ++ 3#7)
  | .subsu p b a w d => .long (26#5 ++ p ++ b ++ a ++ w ++ d ++ 3#7)
  | .clz p a w d => .long (27#5 ++ p ++ 0#5 ++ a ++ w ++ d ++ 3#7)
  | .ctz p a w d => .long (28#5 ++ p ++ 0#5 ++ a ++ w ++ d ++ 3#7)
  | .popc p a w d => .long (29#5 ++ p ++ 0#5 ++ a ++ w ++ d ++ 3#7)
  | .sext p a w d => .long (30#5 ++ p ++ 0#5 ++ a ++ w ++ d ++ 3#7)
  | .zext p a w d => .long (31#5 ++ p ++ 0#5 ++ a ++ w ++ d ++ 3#7)
  | .addi i a d => .long (i ++ a ++ 0#3 ++ d ++ 7#7)
  | .andi i a d => .long (i ++ a ++ 1#3 ++ d ++ 7#7)
  | .ori i a d => .long (i ++ a ++ 2#3 ++ d ++ 7#7)
  | .xori i a d => .long (i ++ a ++ 3#3 ++ d ++ 7#7)
  | .slti i a d => .long (i ++ a ++ 4#3 ++ d ++ 7#7)
  | .sltiu i a d => .long (i ++ a ++ 5#3 ++ d ++ 7#7)
  | .shli n a d => .long (0#6 ++ n ++ a ++ 6#3 ++ d ++ 7#7)
  | .shri n a d => .long (16#6 ++ n ++ a ++ 6#3 ++ d ++ 7#7)
  | .sari n a d => .long (32#6 ++ n ++ a ++ 6#3 ++ d ++ 7#7)
  | .rori n a d => .long (48#6 ++ n ++ a ++ 6#3 ++ d ++ 7#7)
  | .muli i a d => .long (i ++ a ++ 7#3 ++ d ++ 7#7)
  | .ldhi i d => .long (i ++ d ++ 11#7)
  | .addpc i d => .long (i ++ d ++ 15#7)
  | .ldB i a d => .long (i ++ a ++ 0#3 ++ d ++ 19#7)
  | .ldH i a d => .long (i ++ a ++ 1#3 ++ d ++ 19#7)
  | .ldW i a d => .long (i ++ a ++ 2#3 ++ d ++ 19#7)
  | .ldD i a d => .long (i ++ a ++ 3#3 ++ d ++ 19#7)
  | .ldBu i a d => .long (i ++ a ++ 4#3 ++ d ++ 19#7)
  | .ldHu i a d => .long (i ++ a ++ 5#3 ++ d ++ 19#7)
  | .ldWu i a d => .long (i ++ a ++ 6#3 ++ d ++ 19#7)
  | .pf i a k => .long (i ++ a ++ 112#7 ++ k ++ 19#7)
  | .stB i a d => .long (i ++ a ++ 0#3 ++ d ++ 23#7)
  | .stH i a d => .long (i ++ a ++ 1#3 ++ d ++ 23#7)
  | .stW i a d => .long (i ++ a ++ 2#3 ++ d ++ 23#7)
  | .stD i a d => .long (i ++ a ++ 3#3 ++ d ++ 23#7)
  | .stZ i a => .long (i ++ a ++ 16407#15)
  | .ldBLs i a d => .long (i ++ a ++ 0#3 ++ d ++ 27#7)
  | .ldHLs i a d => .long (i ++ a ++ 1#3 ++ d ++ 27#7)
  | .ldWLs i a d => .long (i ++ a ++ 2#3 ++ d ++ 27#7)
  | .ldDLs i a d => .long (i ++ a ++ 3#3 ++ d ++ 27#7)
  | .stBLs i a d => .long (i ++ a ++ 4#3 ++ d ++ 27#7)
  | .stHLs i a d => .long (i ++ a ++ 5#3 ++ d ++ 27#7)
  | .stWLs i a d => .long (i ++ a ++ 6#3 ++ d ++ 27#7)
  | .stDLs i a d => .long (i ++ a ++ 7#3 ++ d ++ 27#7)
  | .amoSwap r q l b a w d => .long (0#5 ++ r ++ q ++ l ++ b ++ a ++ 0#1 ++ w ++ d ++ 31#7)
  | .amoAdd r q l b a w d => .long (1#5 ++ r ++ q ++ l ++ b ++ a ++ 0#1 ++ w ++ d ++ 31#7)
  | .amoAnd r q l b a w d => .long (2#5 ++ r ++ q ++ l ++ b ++ a ++ 0#1 ++ w ++ d ++ 31#7)
  | .amoOr r q l b a w d => .long (3#5 ++ r ++ q ++ l ++ b ++ a ++ 0#1 ++ w ++ d ++ 31#7)
  | .amoXor r q l b a w d => .long (4#5 ++ r ++ q ++ l ++ b ++ a ++ 0#1 ++ w ++ d ++ 31#7)
  | .amoMin r q l b a w d => .long (5#5 ++ r ++ q ++ l ++ b ++ a ++ 0#1 ++ w ++ d ++ 31#7)
  | .amoMax r q l b a w d => .long (6#5 ++ r ++ q ++ l ++ b ++ a ++ 0#1 ++ w ++ d ++ 31#7)
  | .amoMinu r q l b a w d => .long (7#5 ++ r ++ q ++ l ++ b ++ a ++ 0#1 ++ w ++ d ++ 31#7)
  | .amoMaxu r q l b a w d => .long (8#5 ++ r ++ q ++ l ++ b ++ a ++ 0#1 ++ w ++ d ++ 31#7)
  | .amoCas r q l b a w d => .long (9#5 ++ r ++ q ++ l ++ b ++ a ++ 0#1 ++ w ++ d ++ 31#7)
  | .amoFadd r q l b a w d => .long (10#5 ++ r ++ q ++ l ++ b ++ a ++ 0#1 ++ w ++ d ++ 31#7)
  | .amoLd r q l a w d => .long (11#5 ++ r ++ q ++ l ++ 0#5 ++ a ++ 0#1 ++ w ++ d ++ 31#7)
  | .amoSt r q l b a w => .long (12#5 ++ r ++ q ++ l ++ b ++ a ++ 0#1 ++ w ++ 31#12)
  | .fadd r b a f d => .long (0#5 ++ r ++ b ++ a ++ f ++ d ++ 35#7)
  | .fsub r b a f d => .long (1#5 ++ r ++ b ++ a ++ f ++ d ++ 35#7)
  | .fmul r b a f d => .long (2#5 ++ r ++ b ++ a ++ f ++ d ++ 35#7)
  | .fdiv r b a f d => .long (3#5 ++ r ++ b ++ a ++ f ++ d ++ 35#7)
  | .fsqrt r a f d => .long (4#5 ++ r ++ 0#5 ++ a ++ f ++ d ++ 35#7)
  | .fmin b a f d => .long (40#8 ++ b ++ a ++ f ++ d ++ 35#7)
  | .fmax b a f d => .long (48#8 ++ b ++ a ++ f ++ d ++ 35#7)
  | .fsgnj b a f d => .long (56#8 ++ b ++ a ++ f ++ d ++ 35#7)
  | .fsgnjn b a f d => .long (64#8 ++ b ++ a ++ f ++ d ++ 35#7)
  | .fsgnjx b a f d => .long (72#8 ++ b ++ a ++ f ++ d ++ 35#7)
  | .feq b a f d => .long (80#8 ++ b ++ a ++ f ++ d ++ 35#7)
  | .flt b a f d => .long (88#8 ++ b ++ a ++ f ++ d ++ 35#7)
  | .fle b a f d => .long (96#8 ++ b ++ a ++ f ++ d ++ 35#7)
  | .fclass a f d => .long (3328#13 ++ a ++ f ++ d ++ 35#7)
  | .ftoi r t a f d => .long (14#5 ++ r ++ 0#2 ++ t ++ a ++ f ++ d ++ 35#7)
  | .itof r t a f d => .long (15#5 ++ r ++ 0#2 ++ t ++ a ++ f ++ d ++ 35#7)
  | .fcvt r g a f d => .long (16#5 ++ r ++ 0#3 ++ g ++ a ++ f ++ d ++ 35#7)
  | .fmadd c r b a f d => .long (c ++ r ++ b ++ a ++ f ++ 0#1 ++ d ++ 39#7)
  | .fmsub c r b a f d => .long (c ++ r ++ b ++ a ++ f ++ 1#1 ++ d ++ 39#7)
  | .fnmsub c r b a f d => .long (c ++ r ++ b ++ a ++ f ++ 0#1 ++ d ++ 43#7)
  | .fnmadd c r b a f d => .long (c ++ r ++ b ++ a ++ f ++ 1#1 ++ d ++ 43#7)
  | .bZ o a => .long (o ++ a ++ 47#12)
  | .bNz o a => .long (o ++ a ++ 559#12)
  | .bLt o a => .long (o ++ a ++ 1071#12)
  | .bGe o a => .long (o ++ a ++ 1583#12)
  | .bGt o a => .long (o ++ a ++ 2095#12)
  | .bLe o a => .long (o ++ a ++ 2607#12)
  | .bOdd o a => .long (o ++ a ++ 3119#12)
  | .bEven o a => .long (o ++ a ++ 3631#12)
  | .lpZ o a => .long (o ++ a ++ 175#12)
  | .lpNz o a => .long (o ++ a ++ 687#12)
  | .lpLt o a => .long (o ++ a ++ 1199#12)
  | .lpGe o a => .long (o ++ a ++ 1711#12)
  | .lpGt o a => .long (o ++ a ++ 2223#12)
  | .lpLe o a => .long (o ++ a ++ 2735#12)
  | .lpOdd o a => .long (o ++ a ++ 3247#12)
  | .lpEven o a => .long (o ++ a ++ 3759#12)
  | .jmp o => .long (o ++ 51#8)
  | .call o => .long (o ++ 179#8)
  | .jr i a => .long (i ++ a ++ 55#15)
  | .jal i a d => .long (i ++ a ++ 1#3 ++ d ++ 55#7)
  | .callr i a => .long (i ++ a ++ 8247#15)
  | .ret => .long 12343#32
  | .wflush => .long 16439#32
  | .geoStart m d => .long (0#10 ++ m ++ 0#8 ++ d ++ 59#7)
  | .geoLen m d => .long (1#10 ++ m ++ 0#8 ++ d ++ 59#7)
  | .geoEdge d => .long (2048#20 ++ d ++ 59#7)
  | .geoCrd m d => .long (3#10 ++ m ++ 0#8 ++ d ++ 59#7)
  | .widField k d => .long (0#9 ++ k ++ 1#8 ++ d ++ 59#7)
  | .widReg k a d => .long (2#9 ++ k ++ a ++ 1#3 ++ d ++ 59#7)
  | .xld i a n => .long (i ++ a ++ 8#5 ++ n ++ 59#7)
  | .xli i a n => .long (i ++ a ++ 12#5 ++ n ++ 59#7)
  | .xmv n d => .long (0#9 ++ n ++ 4#8 ++ d ++ 59#7)
  | .tsa j a d => .long (0#9 ++ j ++ a ++ 5#3 ++ d ++ 59#7)
  | .hint h => .long (h ++ 63#7)
  | .nop => .long 63#32
  | .cMove d a => .half (1#6 ++ d ++ a ++ 0#2)
  | .cAdd d a => .half (2#6 ++ d ++ a ++ 0#2)
  | .cSub d a => .half (3#6 ++ d ++ a ++ 0#2)
  | .cAnd d a => .half (4#6 ++ d ++ a ++ 0#2)
  | .cOr d a => .half (5#6 ++ d ++ a ++ 0#2)
  | .cXor d a => .half (6#6 ++ d ++ a ++ 0#2)
  | .cShl d a => .half (7#6 ++ d ++ a ++ 0#2)
  | .cShr d a => .half (8#6 ++ d ++ a ++ 0#2)
  | .cSar d a => .half (9#6 ++ d ++ a ++ 0#2)
  | .cMul d a => .half (10#6 ++ d ++ a ++ 0#2)
  | .cLdD d a => .half (11#6 ++ d ++ a ++ 0#2)
  | .cStD d a => .half (12#6 ++ d ++ a ++ 0#2)
  | .cLdDLs d a => .half (13#6 ++ d ++ a ++ 0#2)
  | .cStDLs d a => .half (14#6 ++ d ++ a ++ 0#2)
  | .cJr a => .half (256#10 ++ a ++ 0#2)
  | .cRet => .half 17408#16
  | .cHint d a => .half (63#6 ++ d ++ a ++ 0#2)
  | .cAddiS0 d i => .half (0#4 ++ d ++ i ++ 1#2)
  | .cAddi d i => .half (1#4 ++ d ++ i ++ 1#2)
  | .cShli d i => .half (2#4 ++ d ++ i ++ 1#2)
  | .cShri d i => .half (3#4 ++ d ++ i ++ 1#2)
  | .cSari d i => .half (4#4 ++ d ++ i ++ 1#2)
  | .cAndi d i => .half (5#4 ++ d ++ i ++ 1#2)
  | .cLdDSp d i => .half (6#4 ++ d ++ i ++ 1#2)
  | .cStDSp d i => .half (7#4 ++ d ++ i ++ 1#2)
  | .cJmp o => .half (0#2 ++ o ++ 2#2)
  | .cBZ a o => .half (1#2 ++ a ++ o ++ 2#2)
  | .cBNz a o => .half (2#2 ++ a ++ o ++ 2#2)
  | .vadd p e s b a d => .long (0#5 ++ p ++ 0#1 ++ e ++ s ++ b ++ a ++ d ++ 67#7)
  | .vsub p e s b a d => .long (1#5 ++ p ++ 0#1 ++ e ++ s ++ b ++ a ++ d ++ 67#7)
  | .vmul p e s b a d => .long (2#5 ++ p ++ 0#1 ++ e ++ s ++ b ++ a ++ d ++ 67#7)
  | .vmulh p e s b a d => .long (3#5 ++ p ++ 0#1 ++ e ++ s ++ b ++ a ++ d ++ 67#7)
  | .vmulhu p e s b a d => .long (4#5 ++ p ++ 0#1 ++ e ++ s ++ b ++ a ++ d ++ 67#7)
  | .vadds p e s b a d => .long (5#5 ++ p ++ 0#1 ++ e ++ s ++ b ++ a ++ d ++ 67#7)
  | .vaddsu p e s b a d => .long (6#5 ++ p ++ 0#1 ++ e ++ s ++ b ++ a ++ d ++ 67#7)
  | .vsubs p e s b a d => .long (7#5 ++ p ++ 0#1 ++ e ++ s ++ b ++ a ++ d ++ 67#7)
  | .vsubsu p e s b a d => .long (8#5 ++ p ++ 0#1 ++ e ++ s ++ b ++ a ++ d ++ 67#7)
  | .vmin p e s b a d => .long (9#5 ++ p ++ 0#1 ++ e ++ s ++ b ++ a ++ d ++ 67#7)
  | .vmax p e s b a d => .long (10#5 ++ p ++ 0#1 ++ e ++ s ++ b ++ a ++ d ++ 67#7)
  | .vminu p e s b a d => .long (11#5 ++ p ++ 0#1 ++ e ++ s ++ b ++ a ++ d ++ 67#7)
  | .vmaxu p e s b a d => .long (12#5 ++ p ++ 0#1 ++ e ++ s ++ b ++ a ++ d ++ 67#7)
  | .vand p e s b a d => .long (13#5 ++ p ++ 0#1 ++ e ++ s ++ b ++ a ++ d ++ 67#7)
  | .vor p e s b a d => .long (14#5 ++ p ++ 0#1 ++ e ++ s ++ b ++ a ++ d ++ 67#7)
  | .vxor p e s b a d => .long (15#5 ++ p ++ 0#1 ++ e ++ s ++ b ++ a ++ d ++ 67#7)
  | .vshl p e s b a d => .long (16#5 ++ p ++ 0#1 ++ e ++ s ++ b ++ a ++ d ++ 67#7)
  | .vshr p e s b a d => .long (17#5 ++ p ++ 0#1 ++ e ++ s ++ b ++ a ++ d ++ 67#7)
  | .vsar p e s b a d => .long (18#5 ++ p ++ 0#1 ++ e ++ s ++ b ++ a ++ d ++ 67#7)
  | .vabs p e a d => .long (19#5 ++ p ++ 0#1 ++ e ++ 0#6 ++ a ++ d ++ 67#7)
  | .vcmpeq p e s b a d => .long (20#5 ++ p ++ 0#1 ++ e ++ s ++ b ++ a ++ 0#1 ++ d ++ 67#7)
  | .vcmplt p e s b a d => .long (21#5 ++ p ++ 0#1 ++ e ++ s ++ b ++ a ++ 0#1 ++ d ++ 67#7)
  | .vcmpltu p e s b a d => .long (22#5 ++ p ++ 0#1 ++ e ++ s ++ b ++ a ++ 0#1 ++ d ++ 67#7)
  | .vcmple p e s b a d => .long (23#5 ++ p ++ 0#1 ++ e ++ s ++ b ++ a ++ 0#1 ++ d ++ 67#7)
  | .vcmpleu p e s b a d => .long (24#5 ++ p ++ 0#1 ++ e ++ s ++ b ++ a ++ 0#1 ++ d ++ 67#7)
  | .vtunp p k a d => .long (25#5 ++ p ++ 0#6 ++ k ++ a ++ d ++ 67#7)
  | .vtdot p b a d => .long (26#5 ++ p ++ 8#5 ++ b ++ a ++ d ++ 67#7)
  | .vscan p e x u o a d => .long (27#5 ++ p ++ e ++ 0#2 ++ x ++ u ++ o ++ a ++ d ++ 67#7)
  | .vred p e k a d => .long (28#5 ++ p ++ e ++ 0#3 ++ k ++ a ++ d ++ 67#7)
  | .vdot4 p s b a d => .long (29#5 ++ p ++ 2#3 ++ s ++ b ++ a ++ d ++ 67#7)
  | .vsel p e s b a d => .long (30#5 ++ p ++ e ++ s ++ b ++ a ++ d ++ 67#7)
  | .vmv p e s b d => .long (31#5 ++ p ++ e ++ s ++ b ++ 0#4 ++ d ++ 67#7)
  | .vfadd p e s b a d => .long (0#5 ++ p ++ 1#1 ++ e ++ s ++ b ++ a ++ d ++ 71#7)
  | .vfsub p e s b a d => .long (1#5 ++ p ++ 1#1 ++ e ++ s ++ b ++ a ++ d ++ 71#7)
  | .vfmul p e s b a d => .long (2#5 ++ p ++ 1#1 ++ e ++ s ++ b ++ a ++ d ++ 71#7)
  | .vfdiv p e s b a d => .long (3#5 ++ p ++ 1#1 ++ e ++ s ++ b ++ a ++ d ++ 71#7)
  | .vfsqrt p e a d => .long (4#5 ++ p ++ 1#1 ++ e ++ 0#6 ++ a ++ d ++ 71#7)
  | .vfmin p e s b a d => .long (5#5 ++ p ++ 1#1 ++ e ++ s ++ b ++ a ++ d ++ 71#7)
  | .vfmax p e s b a d => .long (6#5 ++ p ++ 1#1 ++ e ++ s ++ b ++ a ++ d ++ 71#7)
  | .vfsgnj p e s b a d => .long (7#5 ++ p ++ 1#1 ++ e ++ s ++ b ++ a ++ d ++ 71#7)
  | .vfsgnjn p e s b a d => .long (8#5 ++ p ++ 1#1 ++ e ++ s ++ b ++ a ++ d ++ 71#7)
  | .vfsgnjx p e s b a d => .long (9#5 ++ p ++ 1#1 ++ e ++ s ++ b ++ a ++ d ++ 71#7)
  | .vfcmpeq p e s b a d => .long (10#5 ++ p ++ 1#1 ++ e ++ s ++ b ++ a ++ 0#1 ++ d ++ 71#7)
  | .vfcmplt p e s b a d => .long (11#5 ++ p ++ 1#1 ++ e ++ s ++ b ++ a ++ 0#1 ++ d ++ 71#7)
  | .vfcmple p e s b a d => .long (12#5 ++ p ++ 1#1 ++ e ++ s ++ b ++ a ++ 0#1 ++ d ++ 71#7)
  | .vcvt p s c h t a d => .long (13#5 ++ p ++ s ++ c ++ h ++ t ++ a ++ d ++ 71#7)
  | .vcvtu p s c h t a d => .long (14#5 ++ p ++ s ++ c ++ h ++ t ++ a ++ d ++ 71#7)
  | .vperm p e s b a d => .long (16#5 ++ p ++ e ++ s ++ b ++ a ++ d ++ 71#7)
  | .vslide p e b a d => .long (17#5 ++ p ++ e ++ 1#1 ++ b ++ a ++ d ++ 71#7)
  | .vzipLo p e b a d => .long (18#5 ++ p ++ e ++ 0#2 ++ b ++ a ++ d ++ 71#7)
  | .vzipHi p e b a d => .long (19#5 ++ p ++ e ++ 0#2 ++ b ++ a ++ d ++ 71#7)
  | .vunzipEv p e b a d => .long (20#5 ++ p ++ e ++ 0#2 ++ b ++ a ++ d ++ 71#7)
  | .vunzipOd p e b a d => .long (21#5 ++ p ++ e ++ 0#2 ++ b ++ a ++ d ++ 71#7)
  | .vcompress p e a d => .long (22#5 ++ p ++ e ++ 0#6 ++ a ++ d ++ 71#7)
  | .vext e b a d => .long (184#8 ++ e ++ 1#1 ++ b ++ a ++ d ++ 71#7)
  | .pand b a d => .long (12288#14 ++ b ++ 0#1 ++ a ++ 0#1 ++ d ++ 71#7)
  | .por b a d => .long (12296#14 ++ b ++ 0#1 ++ a ++ 0#1 ++ d ++ 71#7)
  | .pxor b a d => .long (12304#14 ++ b ++ 0#1 ++ a ++ 0#1 ++ d ++ 71#7)
  | .pandn b a d => .long (12312#14 ++ b ++ 0#1 ++ a ++ 0#1 ++ d ++ 71#7)
  | .pnot a d => .long (197120#18 ++ a ++ 0#1 ++ d ++ 71#7)
  | .ppop e a d => .long (200#8 ++ e ++ 0#7 ++ a ++ d ++ 71#7)
  | .pmvToPred b d => .long (3329#12 ++ b ++ 0#5 ++ d ++ 71#7)
  | .pmvFromPred a d => .long (221184#18 ++ a ++ d ++ 71#7)
  | .pwhile e b d => .long (224#8 ++ e ++ 1#1 ++ b ++ 0#5 ++ d ++ 71#7)
  | .vfmadd r p c b f a d => .long (r ++ p ++ c ++ b ++ 0#2 ++ f ++ a ++ d ++ 75#7)
  | .vfmsub r p c b f a d => .long (r ++ p ++ c ++ b ++ 1#2 ++ f ++ a ++ d ++ 75#7)
  | .vfnmsub r p c b f a d => .long (r ++ p ++ c ++ b ++ 2#2 ++ f ++ a ++ d ++ 75#7)
  | .vfnmadd r p c b f a d => .long (r ++ p ++ c ++ b ++ 3#2 ++ f ++ a ++ d ++ 75#7)
  | .vld p a e d => .long (0#5 ++ p ++ 0#5 ++ a ++ e ++ d ++ 79#7)
  | .vst p a e d => .long (1#5 ++ p ++ 0#5 ++ a ++ e ++ d ++ 79#7)
  | .vlds p b a e d => .long (2#5 ++ p ++ b ++ a ++ e ++ d ++ 79#7)
  | .vsts p b a e d => .long (3#5 ++ p ++ b ++ a ++ e ++ d ++ 79#7)
  | .vldg p b a e d => .long (4#5 ++ p ++ 0#1 ++ b ++ a ++ e ++ d ++ 79#7)
  | .vstg p b a e d => .long (5#5 ++ p ++ 0#1 ++ b ++ a ++ e ++ d ++ 79#7)
  | .vldLs p a e d => .long (6#5 ++ p ++ 0#5 ++ a ++ e ++ d ++ 79#7)
  | .vstLs p a e d => .long (7#5 ++ p ++ 0#5 ++ a ++ e ++ d ++ 79#7)
  | .vldgLs p b a e d => .long (8#5 ++ p ++ 0#1 ++ b ++ a ++ e ++ d ++ 79#7)
  | .vstgLs p b a e d => .long (9#5 ++ p ++ 0#1 ++ b ++ a ++ e ++ d ++ 79#7)
  | .vldsLs p b a e d => .long (10#5 ++ p ++ b ++ a ++ e ++ d ++ 79#7)
  | .vstsLs p b a e d => .long (11#5 ++ p ++ b ++ a ++ e ++ d ++ 79#7)
  | .mgeo b a => .long (0#8 ++ b ++ a ++ 83#14)
  | .mwfmt x => .long (1#5 ++ x ++ 83#24)
  | .mwld a => .long (512#13 ++ a ++ 83#14)
  | .macc x b a d => .long (3#5 ++ x ++ b ++ a ++ 0#5 ++ d ++ 83#7)
  | .mzero d => .long (1048576#23 ++ d ++ 83#7)
  | .mst x b a d => .long (5#5 ++ x ++ b ++ 0#3 ++ a ++ 0#2 ++ d ++ 83#7)
  | .mld x b a d => .long (6#5 ++ x ++ b ++ a ++ 0#5 ++ d ++ 83#7)
  | .mscl x a d => .long (7#5 ++ x ++ 0#5 ++ a ++ 0#5 ++ d ++ 83#7)
  | .mbias x a d => .long (8#5 ++ x ++ 0#5 ++ a ++ 0#5 ++ d ++ 83#7)
  | .mmv a d => .long (18432#16 ++ a ++ 0#5 ++ d ++ 83#7)
  | .cpy b a m d => .long (0#8 ++ b ++ a ++ m ++ d ++ 87#7)
  | .cpy2d x b a m d => .long (1#5 ++ x ++ b ++ a ++ m ++ d ++ 87#7)
  | .deal b a d => .long (16#8 ++ b ++ a ++ 0#2 ++ d ++ 87#7)
  | .cpyw x a d => .long (3#5 ++ x ++ 0#5 ++ a ++ 0#2 ++ d ++ 87#7)
  | .cpyz x b a m d => .long (4#5 ++ x ++ b ++ a ++ 0#1 ++ m ++ d ++ 87#7)
  | .cpyc x b a d => .long (5#5 ++ x ++ b ++ a ++ 0#2 ++ d ++ 87#7)
  | .cpyset b a m d => .long (48#8 ++ b ++ a ++ m ++ 0#1 ++ d ++ 87#7)
  | .mergeAdd x z i d => .long (0#5 ++ x ++ 0#3 ++ z ++ i ++ 0#7 ++ d ++ 91#7)
  | .mergeMax x z i d => .long (0#5 ++ x ++ 0#3 ++ z ++ i ++ 1#7 ++ d ++ 91#7)
  | .mergeMin x z i d => .long (0#5 ++ x ++ 0#3 ++ z ++ i ++ 2#7 ++ d ++ 91#7)
  | .mergeSub x z i d => .long (0#5 ++ x ++ 0#3 ++ z ++ i ++ 3#7 ++ d ++ 91#7)
  | .isectMul x z i d => .long (1#5 ++ x ++ 0#3 ++ z ++ i ++ 0#7 ++ d ++ 91#7)
  | .isectMin x z i d => .long (1#5 ++ x ++ 0#3 ++ z ++ i ++ 1#7 ++ d ++ 91#7)
  | .isectMax x z i d => .long (1#5 ++ x ++ 0#3 ++ z ++ i ++ 2#7 ++ d ++ 91#7)
  | .isectFirst x z i d => .long (1#5 ++ x ++ 0#3 ++ z ++ i ++ 3#7 ++ d ++ 91#7)
  | .condense x i a d => .long (2#5 ++ x ++ 0#4 ++ i ++ a ++ 0#2 ++ d ++ 91#7)
  | .expand x i d => .long (3#5 ++ x ++ 0#4 ++ i ++ 0#7 ++ d ++ 91#7)
  | .topkMax x i a d => .long (4#5 ++ x ++ 0#4 ++ i ++ a ++ 0#2 ++ d ++ 91#7)
  | .topkMin x i a d => .long (4#5 ++ x ++ 0#4 ++ i ++ a ++ 1#2 ++ d ++ 91#7)
  | .ksortK32 x t s d => .long (5#5 ++ x ++ 0#3 ++ t ++ s ++ 0#7 ++ d ++ 91#7)
  | .ksortK64 x t s d => .long (5#5 ++ x ++ 0#3 ++ t ++ s ++ 1#7 ++ d ++ 91#7)
  | .nvsub x a d => .long (16#5 ++ x ++ 0#5 ++ a ++ 0#2 ++ d ++ 91#7)
  | .nvpoll a d => .long (4352#13 ++ a ++ 0#2 ++ d ++ 91#7)
  | .nvcfg a d => .long (4608#13 ++ a ++ 0#2 ++ d ++ 91#7)
  | .kclaim b a n => .long (0#8 ++ b ++ a ++ 0#2 ++ n ++ 95#7)
  | .krel => .long 134217823#32
  | .kins b a d => .long (16#8 ++ b ++ a ++ 0#2 ++ d ++ 95#7)
  | .kinsV64 x b a d => .long (2#5 ++ x ++ 0#1 ++ b ++ 0#1 ++ a ++ 2#3 ++ d ++ 95#7)
  | .kinsV32 x b a d => .long (2#5 ++ x ++ 0#1 ++ b ++ 0#1 ++ a ++ 4#3 ++ d ++ 95#7)
  | .kprb f a d => .long (24#8 ++ f ++ a ++ 0#2 ++ d ++ 95#7)
  | .kprbV64 x f a d => .long (3#5 ++ x ++ 0#2 ++ f ++ 0#1 ++ a ++ 2#3 ++ d ++ 95#7)
  | .kprbV32 x f a d => .long (3#5 ++ x ++ 0#2 ++ f ++ 0#1 ++ a ++ 4#3 ++ d ++ 95#7)
  | .kdel a d => .long (1024#13 ++ a ++ 0#2 ++ d ++ 95#7)
  | .kdelV64 x a d => .long (4#5 ++ x ++ 0#6 ++ a ++ 2#3 ++ d ++ 95#7)
  | .kdelV32 x a d => .long (4#5 ++ x ++ 0#6 ++ a ++ 4#3 ++ d ++ 95#7)
  | .kaccAdd b a d => .long (40#8 ++ b ++ a ++ 0#2 ++ d ++ 95#7)
  | .kaccAddV64 x b a d => .long (5#5 ++ x ++ 0#1 ++ b ++ 0#1 ++ a ++ 2#3 ++ d ++ 95#7)
  | .kaccAddV32 x b a d => .long (5#5 ++ x ++ 0#1 ++ b ++ 0#1 ++ a ++ 4#3 ++ d ++ 95#7)
  | .kaccMin b a d => .long (48#8 ++ b ++ a ++ 0#2 ++ d ++ 95#7)
  | .kaccMinV64 x b a d => .long (6#5 ++ x ++ 0#1 ++ b ++ 0#1 ++ a ++ 2#3 ++ d ++ 95#7)
  | .kaccMinV32 x b a d => .long (6#5 ++ x ++ 0#1 ++ b ++ 0#1 ++ a ++ 4#3 ++ d ++ 95#7)
  | .kaccMax b a d => .long (56#8 ++ b ++ a ++ 0#2 ++ d ++ 95#7)
  | .kaccMaxV64 x b a d => .long (7#5 ++ x ++ 0#1 ++ b ++ 0#1 ++ a ++ 2#3 ++ d ++ 95#7)
  | .kaccMaxV32 x b a d => .long (7#5 ++ x ++ 0#1 ++ b ++ 0#1 ++ a ++ 4#3 ++ d ++ 95#7)
  | .kaccFadd b a d => .long (64#8 ++ b ++ a ++ 0#2 ++ d ++ 95#7)
  | .kaccFaddV64 x b a d => .long (8#5 ++ x ++ 0#1 ++ b ++ 0#1 ++ a ++ 2#3 ++ d ++ 95#7)
  | .kdrain c b a m => .long (36#7 ++ c ++ b ++ a ++ 0#1 ++ m ++ 95#12)
  | .kdrains s c b a m => .long (20#6 ++ s ++ c ++ b ++ a ++ 0#1 ++ m ++ 95#12)
  | .kstat s d => .long (88#8 ++ s ++ 0#7 ++ d ++ 95#7)
  | .spawn b a d => .long (0#8 ++ b ++ a ++ 0#2 ++ d ++ 99#7)
  | .spawnAt b a d => .long (8#8 ++ b ++ a ++ 0#2 ++ d ++ 99#7)
  | .await a => .long (512#13 ++ a ++ 99#14)
  | .quit => .long 402653283#32
  | .wfw => .long 536871011#32
  | .yield => .long 671088739#32
  | .txsub b a d => .long (48#8 ++ b ++ a ++ 0#2 ++ d ++ 99#7)
  | .txrecon b a d => .long (56#8 ++ b ++ a ++ 0#2 ++ d ++ 99#7)
  | .txchk => .long 1073741923#32
  | .sendLo a d => .long (0#13 ++ a ++ 0#2 ++ d ++ 103#7)
  | .sendHi a d => .long (0#13 ++ a ++ 1#2 ++ d ++ 103#7)
  | .recv d => .long (32768#20 ++ d ++ 103#7)
  | .waitm => .long 268435559#32
  | .waitmHi => .long 268439655#32
  | .menter a => .long (768#13 ++ a ++ 103#14)
  | .mexit a => .long (1024#13 ++ a ++ 103#14)
  | .barCfg n a => .long (80#9 ++ n ++ a ++ 103#14)
  | .barArrive n d => .long (96#9 ++ n ++ 0#7 ++ d ++ 103#7)
  | .barWait n a => .long (112#9 ++ n ++ a ++ 103#14)
  | .qcfg a => .long (2048#13 ++ a ++ 103#14)
  | .qmapOff => .long 1207959655#32
  | .qmapOn => .long 1207963751#32
  | .wait t c s l => .long (0#9 ++ t ++ c ++ s ++ l ++ 107#7)
  | .qfence q => .long (32768#20 ++ q ++ 107#7)
  | .l1wb => .long 268435563#32
  | .l1wbL a => .long (512#13 ++ a ++ 4203#14)
  | .l1inv => .long 402653291#32
  | .l1invL a => .long (768#13 ++ a ++ 4203#14)
  | .epoch => .long 536871019#32
  | .trap n => .long (64#8 ++ n ++ 107#12)
  | .sysret => .long 1207959659#32
  | .mfs n d => .long (80#8 ++ n ++ d ++ 107#7)
  | .mfsE n d => .long (41472#17 ++ n ++ d ++ 107#7)
  | .mts n a => .long (88#8 ++ n ++ a ++ 107#7)
  | .mtsE n a => .long (45568#17 ++ n ++ a ++ 107#7)
  | .bkpt n => .long (96#8 ++ n ++ 107#12)
  | .halt => .long 1744830571#32
  | .tlbw a => .long (3584#13 ++ a ++ 107#14)
  | .tlbi a => .long (3840#13 ++ a ++ 107#14)
  | .tlbiAll => .long 2013270123#32
  | _ => .none

/-- The word as the trap value shows it: a 16-bit word in bits [15:0] (R360). -/
def Code.bits : Code → BitVec 32
  | .half w => w.zeroExtend 32
  | .long w => w
  | .none => 0

/-- Length in bytes; the next PC is the PC plus this (R169). -/
def Code.bytes : Code → Nat
  | .half _ => 2
  | .long _ => 4
  | .none => 0

/-- The bytes of a word, the byte at the lowest address first (R4, R169). -/
def Code.toBytes : Code → List Byte
  | .half w => [w.extractLsb' 0 8, w.extractLsb' 8 8]
  | .long w => [w.extractLsb' 0 8, w.extractLsb' 8 8, w.extractLsb' 16 8, w.extractLsb' 24 8]
  | .none => []

/-- The instruction that the decoder reads from bits numbered as the opcode table numbers them. -/
noncomputable def decodeTableWord (nbits w : Nat) : Option Instr :=
  let v : BitVec 32 := BitVec.ofNat 32 (w % 2 ^ nbits)
  match decode [v.extractLsb' 0 8, v.extractLsb' 8 8, v.extractLsb' 16 8, v.extractLsb' 24 8] with
  | .ok (i, _) => some i
  | .error _ => none

end Sys2Proof
end

