-- ==== Sys2Proof/Config.lean ====
section
/-!
DEFINITION. What an implementation fixes and what the spec leaves free. An opaque constant has no value that a proof can see;
the machine applies it to its counter `tick`, so every use may get another value.
-/

namespace Sys2Proof

/-- What the part's structures and the world outside the package bring about, besides the events of the opcode table (log entries 26 and
32). -/
inductive Outside where
  /-- a register of a slot fails its parity: file 0 s, 1 v, 2 p, 3 e, 4 a special register of the thread (R405) -/
  | registerError (site slot file num : Nat)
  /-- an uncorrectable error in a granule of a core's L1, met for a slot or by a write-back (R405) -/
  | l1Error (site slot pa : Nat) (writeback : Bool)
  /-- one in a granule of a local store, met by 1 a thread, 2 an engine, 5 a write-back of a segment, 6 a push (R405, R429) -/
  | localError (site slot granule found : Nat)
  /-- one at a home, in its cache or in DRAM, met by 1 a thread, 2 an engine, 4 a fill, 5 a write-back, 6 a push (R405, R429) -/
  | homeError (dram : Bool) (pa found site slot : Nat)
  /-- one in a granule of a weight store, and one in an accumulator word, met by an operation of a slot (R405, R409) -/
  | weightError (site slot granule : Nat)
  | accumulatorError (site slot word : Nat)
  /-- one in a lock manager, for a tile (space, tile) or for one that cannot be identified (R425) -/
  | lockError (home : Nat) (tile : Option (Nat × Nat))
  /-- one in the numbering or channel state of the Scarab, at a unit of it (R448) -/
  | scarabError (unit : Nat)
  /-- the next save of a core will meet one (R377) -/
  | saveError (site : Nat)
  /-- a line of a home cache goes to DRAM and comes back (R406) -/
  | homeEvict (pa : Nat)
  /-- a structure instance corrects errors (R411) -/
  | corrected (code unit count : Nat) (at_ : BitVec 64)
  /-- another package of the pod enrols with a home, and sends it a seal, a request, a frame notice and a release (R79 to R82, R86) -/
  | podEnrol (home pkg batch : Nat)
  | podSeal (home pkg batch : Nat)
  | podRequest (home seq entry space tile mode : Nat)
  | podNotice (home seq : Nat)
  | podRelease (seq entry : Nat)
  /-- an access of a peer package: 0 a read, 1 a write, 2 an atomic, with the bytes that it leaves (R331) -/
  | peerAccess (acc pa : Nat) (data : List (BitVec 8))
  /-- an engine operation, the k-th of a queue, reads a piece of its source before its turn, or writes one of its destination before the
  rest; the place is the operation offset of the part and the place in it, for an operation of `mq` or `xq` a local address (R130, R131); a
  code of R431 says that the payload was poisoned on its way, 0 that it was not -/
  | engineRead (site queue k off delta code : Nat)
  | engineWrite (site k off delta code : Nat)
  /-- an engine operation, or the fetch or log access of a slot, has waited 1 ms for a path (R440) -/
  | engineLate (site queue k : Nat)
  | slotLate (site slot : Nat)
  /-- the payload of the next fetch, or log read, of a slot is poisoned on its way over the structure of a code (R405, R432, R439) -/
  | slotPayload (site slot code : Nat)
  /-- firmware has recreated a queue pair on a controller that is back (R437) -/
  | controllerBack (ctl pair : Nat)
  /-- a write of the companion whose payload is marked poisoned, a write of a peer package whose payload a link poisons, and a read of the
  host window that is marked so (R432, R439) -/
  | poisonedWrite (pa : Nat) (data : List (BitVec 8))
  | poisonedPeer (link pa : Nat) (data : List (BitVec 8))
  | poisonedRead (flight : Nat)
  deriving DecidableEq, Repr, Inhabited

/-- Which agent makes the next step: a core (its next cycle), an event of another agent (log entry 1), or something that the opcode
table has no row for. -/
inductive Turn where
  /-- one cycle of the core at a site; the translation service core of cluster c has number 2048 + c -/
  | core (site : Nat)
  /-- one row of the event part of the opcode table; a word given here does nothing -/
  | event (i : Instr)
  /-- an error in a structure of the part, something from outside the package, or a piece that an engine moves (log entries 26 and 32) -/
  | outside (x : Outside)
  deriving DecidableEq, Repr, Inhabited

namespace Config

/-- The free schedule: who moves next, and what the environment gives with it (log entry 1). -/
opaque nextTurn : Nat → Turn

/-- A 64-bit value the spec leaves undefined (log entry 2). -/
opaque freeWord : Nat → Nat → Word

/-- A 512-bit value the spec leaves undefined (log entry 2). -/
opaque freeVec : Nat → Nat → Vec

/-- A byte the spec leaves open: device-private bytes, drive data, bytes of the storage window (log entry 2). -/
opaque freeByte : Nat → Nat → Byte

/-- A choice that the spec leaves to the implementation, below a given bound where it is used (log entry 2). -/
opaque freeChoice : Nat → Nat

/-- The physical address that an access table checks for a message to a thread, whose mailbox the spec gives none (R59, R333). -/
opaque mailboxAt : (core slot : Nat) → Nat

/-- Where in a core's save a poisoned granule of its memories stands: the layout of a save is private to the device (R319, R406). -/
opaque savePlace : (core key : Nat) → Nat

/-- The fixed hash by which the flow from a core to a home of another package chooses among its links (R440). -/
opaque flowHash : (site home : Nat) → Nat

/-- Whether the blocks of a namespace of a controller are 4 KiB; else they are 512 B (R323). -/
opaque bigBlocks : (ctl nsid : Nat) → Bool

/-- Whether a namespace of a controller is formatted with protection information (R323, R326). -/
opaque protectedNs : (ctl nsid : Nat) → Bool

/-- Places in the run queue of evicted contexts that firmware gives a cluster (R61, R374). -/
opaque runQueueRoom : (cluster : Nat) → Nat

/-- Physical base of the top page table that firmware puts into PTROOT of a cluster at the boot commit (R119). -/
opaque tableRoot : (cluster : Nat) → Nat

/-- The private half of the device identity key pair, which the device derives from a fused secret (R345; log entry 8). -/
opaque identitySecret : List Byte

/-- The serial number that the fuses give DEVSN (R314; log entry 8). -/
opaque serial : BitVec 64

/-- The fused hash of each vendor key slot, the slots whose revoke fuse is blown, and the fused minimum version (R344; log entry 8). -/
opaque fusedKeys : Tbl (List Byte)
opaque revokedKeys : List Nat
opaque fusedVersion : Nat

end Config

end Sys2Proof
end

