-- ==== Sys2Proof/Machine/State.lean ====
section
/-!
DEFINITION. The state of the Z770 as plain data: threads, cores, clusters, homes, the Scarab, the ports, memories, what travels
between them, and the reset state. Numbers that programs shift or see as words are bit vectors; counts, addresses and indices
are natural numbers; sparse data is a table or a byte memory by number.
-/

namespace Sys2Proof.Machine

open Sys2Proof

/-! ## Threads -/

/-- A register that a word names (R178). -/
inductive RegName where
  /-- a scalar register -/
  | s (n : Nat)
  /-- a vector register -/
  | v (n : Nat)
  /-- a predicate register -/
  | p (n : Nat)
  /-- an operand-extension register -/
  | e (n : Nat)
  /-- a window register by its number over all windows (R179) -/
  | w (n : Nat)
  /-- a special register of the thread (R185) -/
  | spr (n : Nat)
  deriving DecidableEq, Repr

/-- The thread states of R34 as the slot shows them. -/
inductive Run where
  /-- no task: a free slot (R50) -/
  | free
  /-- out of rotation in `wfw` (R54, R296) -/
  | wfw
  /-- issues in its slot -/
  | running
  /-- the instruction at PC could not complete; it issues again in the next slot (R34) -/
  | stalled
  /-- halted by a breakpoint, `halt` or the debugger (R68) -/
  | halted
  /-- the slot after a trap, in which the park save area is written (R359) -/
  | trapped
  /-- in step n of the failure sequence (R364) -/
  | failing (n : Nat)
  deriving DecidableEq, Repr

/-- A frame reference: local address, home core and frame generation (R290). -/
structure FRef where
  addr : Nat
  core : Nat
  gen : Nat
  deriving DecidableEq, Repr

/-- A transaction frame: base on its dispatch core (TXF of R290). -/
structure TxF where
  base : Nat
  core : Nat
  deriving DecidableEq, Repr

/-- What belongs to the task a thread runs and no register shows whole. -/
structure Task where
  /-- launch index, s31.LNCH (R35) -/
  lnch : Nat := 0
  /-- launch priority, s31.PRIO (R35) -/
  prio : Nat := 0
  /-- the task belongs to a transaction's spawn tree, s31.TXN (R35) -/
  txn : Bool := false
  /-- transaction frame of the tree (R290) -/
  txf : Option TxF := none
  /-- stream core (R156) -/
  score : Nat := 0
  /-- join frame of the task; a root has none (R48) -/
  fref : Option FRef := none
  /-- item number of a root task (R38) -/
  item : Option Nat := none
  /-- sequence number of the transaction whose dispatched root the thread runs (R84) -/
  body : Option Nat := none
  /-- `txchk` was executed in this dispatch (R300) -/
  checked : Bool := false
  /-- the root has executed a `spawn` or `spawn.at` (R300) -/
  spawned : Bool := false
  geo0 : Word := 0
  geo1 : Word := 0
  geo2 : Word := 0
  deriving DecidableEq, Repr

/-- Why a window was opened without a call (R43, R47, R91). -/
inductive InlKind where
  /-- a child run inline at its spawn -/
  | child
  /-- a record popped by an `await` -/
  | popped
  /-- a reconnaissance pass; the pass of a checked restart ends the transaction -/
  | pass (restart : Bool)
  deriving DecidableEq, Repr

/-- An open inline child or reconnaissance pass; its inline save stands in the region (R181). -/
structure Inl where
  kind : InlKind
  /-- where the interrupted thread continues -/
  ret : Word
  /-- depth of the child's first window -/
  depth : Nat
  /-- destination register of `txrecon` -/
  dst : Nat
  /-- the interrupted task -/
  task : Task
  deriving DecidableEq, Repr

/-- A mailbox entry (R58, R302). -/
structure Entry where
  core : Nat
  slot : Nat
  gen : Nat
  /-- 1 message, 2 bounce, 3 storage completion -/
  kind : Nat
  reason : Nat
  payload : List Word
  /-- launch of the task that the entry answers -/
  lnch : Nat
  /-- FL, SEQ and WID of the sender, for the record of a bounce that cannot be delivered (R367, R372) -/
  fl : Nat := 0
  seq : Nat := 0
  wid : Word := 0
  /-- its payload was poisoned on its way (R405; log entry 26) -/
  bad : Bool := false
  deriving DecidableEq, Repr

/-- How the bytes of a load become a register value (R210, R215). -/
inductive LoadExt where
  /-- sign-extended from the given number of bits -/
  | signed (w : Nat)
  /-- zero-extended from the given number of bits -/
  | unsigned (w : Nat)
  /-- the bytes replace the bytes of a vector register -/
  | vector
  deriving DecidableEq, Repr

/-- A load whose value is being assembled (R34, R211, R247). -/
structure Load where
  id : Nat
  dst : RegName
  ext : LoadExt
  /-- bytes that have arrived, by their place in the destination -/
  got : Memory
  /-- pieces that have not -/
  waiting : Nat
  /-- elements for ACC: address, place and bytes of each (R90, R247) -/
  elems : List (Word × Nat × Nat)
  /-- an acquire: the epoch is bumped when the result is written (R136) -/
  acq : Bool
  /-- a piece was refused; its destination is released at the trap (R415) -/
  refused : Bool
  /-- the value is discarded: the thread is failing (R364) -/
  dead : Bool
  /-- the load counts in L -/
  counted : Bool
  /-- atomics push their value but leave ACC alone (R90) -/
  isLoad : Bool
  /-- the destination is a queue register (R212) -/
  toQueue : Bool
  /-- the cycle in which the banks serve a delayed load of the local store; 0 for one from elsewhere (R34, R100) -/
  ready : Nat := 0
  deriving DecidableEq, Repr

/-- A hand-back trap that is due, or an engine hand-back being serviced (R415 to R420). -/
structure Due where
  code : Nat
  val : Word
  /-- identifier of the operation handed back, for the operations held behind it; 0 for a refused access -/
  op : Nat
  /-- its engine queue, and whether the handler has submitted operations in its place (R419) -/
  queue : Option Nat
  resub : Bool
  /-- private stochastic state that a resubmitted `cpyc` takes (R419) -/
  sr : Word
  /-- the refused load whose destination is released (R415) -/
  release : Option Nat
  /-- identifiers from here on were given since the trap was taken -/
  mark : Nat := 0
  deriving DecidableEq, Repr

/-- An effect of one thread of a pair, waiting in the comparator (R64, R370). -/
structure PairEffect where
  /-- cause code of a trap; none for an ordinary effect -/
  trap : Option Nat
  /-- address of the instruction -/
  pc : Word
  /-- the words compared: the instruction and its operands; or a trap's CODE, XPC and XVAL -/
  key : List Word
  /-- addresses and first 8 bytes of the effect, for the record -/
  addrs : List Word := []
  head : Word
  /-- compared equal: the effect takes place once -/
  go : Bool
  /-- flags and advanced SRS of an arithmetic trap (R161) -/
  arith : Option (BitVec 6 × Word) := none
  deriving DecidableEq, Repr

/-- What a failing thread's record will say (R363, R364). -/
structure FailInfo where
  cause : Nat
  pc : Word
  val1 : Word
  val2 : Word
  pre : Bool
  /-- the kind 1 record was queued, as this number of its cluster's queue -/
  queued : Bool
  num : Nat := 0
  /-- WID and CCNT at detection -/
  wid : Word := 0
  cyc : Nat := 0
  deriving DecidableEq, Repr

/-- A hardware thread: one of the 16 slots of a core (R31, R178). Registers without a reset value of the spec hold 0 (log entry 5). -/
structure Thread where
  run : Run := .free
  pc : Word := 0
  /-- s1 to s7 and s24 to s30; the rest of the names go elsewhere (R178) -/
  glob : Tbl Word := []
  /-- window registers: number 12 * k + (n - 8) for sn of window k (R179) -/
  win : Tbl Word := []
  /-- open windows minus 1 (R35, R179) -/
  depth : Nat := 0
  /-- lowest resident window (R180) -/
  resLo : Nat := 0
  vec : Tbl Vec := []
  /-- p1 to p7; p0 reads all ones -/
  prd : Tbl Word := []
  ext : Tbl Word := []
  /-- WID (R39) -/
  wid : Word := 0
  /-- RND.MODE (R159) -/
  rnd : BitVec 3 := 0
  /-- FLG (R160) -/
  flg : BitVec 14 := 0
  /-- SRS (R156) -/
  srs : Word := 1
  /-- DPAT (R111) -/
  dpat : BitVec 51 := 0
  /-- outstanding counters (R187) -/
  cntL : Nat := 0
  cntS : Nat := 0
  cntC : Nat := 0
  cntT : Nat := 0
  /-- check accumulator ACC (R90, R188) -/
  acc : Word := 0
  /-- updates of ACC in program order: the address, the value once it has arrived, the load and the place in it (R90) -/
  accQ : List (Word × Option Word × Nat × Nat) := []
  /-- XPC, XVAL and the fields of XCAUSE (R358) -/
  xpc : Word := 0
  xval : Word := 0
  xcode : BitVec 8 := 0
  ppriv : Bool := false
  pqmap : Bool := false
  act : Bool := false
  /-- index of the window-stack region (R46, R358) -/
  wsr : Nat := 0
  /-- slot generation, s31.GEN (R35) -/
  gen : BitVec 16 := 0
  /-- firmware privilege, s31.PRIV (R35) -/
  priv : Bool := false
  /-- 0 unpaired, 1 leading, 2 trailing, s31.PAIR (R35) -/
  pair : Nat := 0
  /-- s24 to s27 name q0 to q3 (R56) -/
  qmap : Bool := false
  /-- storage context, and the controller of the pair that an `nvcfg` of the task selected, with the number of the change of the pair's
  entry that was then in force (R308, R325) -/
  stctx : BitVec 39 := 0
  stctl : Option (Nat × Nat) := none
  /-- the task, and the open inline children and passes, innermost first (R43, R47, R91) -/
  task : Task := {}
  inl : List Inl := []
  /-- mailboxes (R58) -/
  mbHi : List Entry := []
  mbLo : List Entry := []
  /-- pending registers with the load they wait for (R34) -/
  pend : List (RegName × Nat) := []
  loads : List Load := []
  /-- poisoned registers (R405, R407) -/
  regBad : List RegName := []
  /-- monitor held, and monitor waited for (R61, R401) -/
  monHeld : Option Word := none
  monWait : Option Word := none
  /-- hand-back traps due, oldest first, and the one being serviced (R419, R420) -/
  due : List Due := []
  hb : Option Due := none
  /-- answer of a walk: the page and the fault it met (R116) -/
  walk : Option (Nat × Nat) := none
  /-- progress of an instruction that waits after a first effect -/
  phase : Nat := 0
  /-- reply that a waiting instruction received, if any -/
  reply : Option Nat := none
  /-- operands taken by an instruction that waits -/
  held : List Word := []
  /-- load-value queue of a pair, at the trailing thread: the load and its value, and the comparator (R63, R64) -/
  lvq : List (Nat × Option Vec) := []
  /-- queue that the stalled instruction is blocked on, and whether for a write (R57, R375) -/
  qblock : Option (Nat × Bool) := none
  cmp : Option PairEffect := none
  /-- comment of a breakpoint for the debugger (R224) -/
  bkpt : Option Nat := none
  /-- slots an access of more than 15 cycles still occupies (R248) -/
  busy : Nat := 0
  fail : Option FailInfo := none
  /-- the PC of an instruction whose fetch or log access has waited 1 ms for a path to another package (R440) -/
  late : Option Word := none
  /-- the payload of its next such read over a link arrives poisoned, as a structure's code reports (R405, R432, R439) -/
  linkBad : Option Nat := none
  deriving DecidableEq, Repr

/-! ## Cores -/

/-- A line of the L1 (R106, R107); masks have a bit a byte. -/
structure Line where
  /-- physical address of the line -/
  base : Nat
  data : BitVec 512
  valid : BitVec 64
  dirty : BitVec 64
  /-- slots that stored into the line since its last write-back -/
  writers : BitVec 16
  tag : BitVec 8
  /-- poisoned granules (R406) -/
  bad : BitVec 8
  deriving DecidableEq, Repr

/-- A task record: the 64 bytes of R290, by field. -/
structure Record where
  pc : Word
  args : List Word
  fref : FRef
  txn : Bool
  lnch : Nat
  wid : Word
  score : Nat
  rmode : BitVec 3
  txf : Option TxF
  deriving DecidableEq, Repr

/-- A parked or yielded continuation (R47, R297): its region and its frame, none for a yielded one, and the thread it was. Its
resumption takes from the region and the frame what they hold, and from the thread the rest. -/
structure Cont where
  /-- index of the window-stack region -/
  region : Nat
  frame : Option Nat
  thread : Thread
  deriving DecidableEq, Repr

/-- A queue register q0 to q3 (R56, R306). -/
structure HwQ where
  en : Bool := false
  writer : Nat := 0
  reader : Nat := 0
  items : List Word := []
  deriving DecidableEq, Repr

/-- Stage of an engine operation (R131). -/
inductive OpStage where
  | queued
  /-- its begin-time checks are made -/
  | begun
  /-- a drain that has read its entries (R281) -/
  | read
  /-- waits until its record is written (R369) -/
  | record
  deriving DecidableEq, Repr

/-- An operation of an engine queue (R131, R250). -/
structure EngOp where
  id : Nat
  /-- 0 mq, 1 cq, 2 xq, 3 kq, 4 nq -/
  queue : Nat
  slot : Nat
  gen : Nat
  pc : Word
  /-- the submitting word -/
  word : BitVec 32
  lnch : Nat
  /-- FL, work identifier and sequence number of the submitter, for records (R367) -/
  fl : Nat
  wid : Word
  seq : Nat
  /-- firmware privilege of the submitter (R331) -/
  priv : Bool
  /-- values of the registers named by A, B and D -/
  ra : Word
  rb : Word
  rd : Word
  /-- e registers read at submission -/
  x0 : Word
  x1 : Word
  /-- weight descriptor in `mq` order (R258), DPAT as read at submission, or the third stream descriptor -/
  desc : Word
  /-- core list of a deal as read at submission; the record that a faulted operation waits for (R369) -/
  list : List Nat
  /-- effective rounding mode and private stochastic state (R158) -/
  rm : Nat
  sr : Word
  /-- operations that must be performed before this one begins (R132) -/
  waits : List Nat
  /-- behind a hand-back of its thread (R419) -/
  held : Bool
  stage : OpStage
  /-- entries that a drain has read, and the poisoned words among them with the addresses read (R281, R408) -/
  items : List (Word × Word)
  bads : List (Nat × Nat)
  /-- answer of a walk that it asked for: the page and the fault (R116) -/
  walk : Option (Nat × Nat)
  /-- source pieces that it has read before its turn to be performed, with their poison: the operation offset of the part and the place in
  it, for a copy; 0 and the local address, for the others (R131; log entry 32) -/
  got : List (Nat × Nat × List (Byte × Bool)) := []
  /-- destination pieces that it has written already: the operation offset of the part and the place in it (R130; log entry 32) -/
  wrote : List (Nat × Nat) := []
  /-- it has waited 1 ms for a path to another package (R440) -/
  late : Bool := false
  deriving DecidableEq, Repr

/-- An access of a Hive instruction to the spill log that has not been answered: its group, and for a write the record, the place and the
bytes (R277, R281). -/
structure LogAccess where
  grp : Nat
  rec_ : Nat := 0
  off : Nat := 0
  bytes : List Byte := []
  deriving DecidableEq, Repr

/-- The matrix array besides its banks (R254). -/
structure Arr where
  /-- descriptor latched with the weights, and the one staged by the last `mwfmt` performed -/
  latched : Word := 2
  staged : Word := 2
  /-- weight codes by row * 32 + column, MX scales and group parameters as latched -/
  weights : Tbl Nat := []
  scales : Tbl Nat := []
  params : Tbl Nat := []
  kact : Nat := 128
  nact : Nat := 32
  /-- partial group sums and activation sums by (bank * 128 + row) * 32 + column (R167) -/
  carryC : Tbl Int := []
  carryA : Tbl Int := []
  /-- poisoned columns (R409), and the partial sums into which poison has gone (R408) -/
  badCol : List Nat := []
  carryBad : List Nat := []
  deriving DecidableEq, Repr

/-- The claimed Hive table (R276, R284). -/
structure Hive where
  clm : Bool := false
  b : Nat := 0
  sovf : Bool := false
  spn : Nat := 0
  spcap : Nat := 0
  /-- virtual address of the spill log -/
  log : Word := 0
  deriving DecidableEq, Repr

/-- An entry of a race trace ring (R128, R129). -/
structure RingEntry where
  addr : Nat
  size : Nat
  kind : Nat
  ord : Nat
  src : Nat
  slot : Nat
  gen : Nat
  cyc : Nat
  deriving DecidableEq, Repr

/-- A race trace ring with its control (R126 to R129). -/
structure Ring where
  en : Bool := false
  wrap : Bool := false
  ovf : Bool := false
  own : Bool := false
  lds : Bool := false
  idx : Nat := 0
  mtch : Nat := 0
  mask : Nat := 0
  ord : Nat := 0
  entries : List RingEntry := []
  deriving DecidableEq, Repr

/-- A TLB entry: its two words (R117). -/
structure TlbEntry where
  w0 : Word
  w1 : Word
  deriving DecidableEq, Repr

/-- A transaction frame given to a transaction, with the dirty bits of its tile slots (R77, R85). -/
structure FrameUse where
  /-- index of the frame in the transaction region -/
  index : Nat
  seq : Nat
  /-- W and RW slots: local address and size -/
  slots : List (Nat × Nat)
  /-- local addresses of the dirty 64-byte segments -/
  dirty : List Nat
  deriving DecidableEq, Repr

/-- The voltage governor of a core (18 R445). -/
structure Gov where
  step : Nat := 0
  frozen : Bool := false
  quiet : Nat := 0
  prev : Nat := 0
  /-- corrections of the array in the second under way (R411, R445) -/
  count : Nat := 0
  deriving DecidableEq, Repr

/-- A core (R16); the translation service core of cluster c has number 2048 + c (log entry 3). -/
structure Core where
  /-- logical number, CID.LCORE (R25, R26) -/
  lcore : Nat := 0
  /-- took a number at the boot commit (R355) -/
  numbered : Bool := false
  /-- cycle counter (R32, R186) -/
  cyc : Nat := 0
  threads : Tbl Thread := []
  /-- by bank of the local store, the cycle from which no block of a vector access or of a `kclaim` is left to serve (R100, R248, R276) -/
  bankFree : Tbl Nat := []
  /-- local store and its poisoned granules (R100, R406) -/
  ls : Memory := []
  lsBad : List Nat := []
  /-- weight store and its uncorrectable words (R105, R409) -/
  ws : Memory := []
  wsBad : List Nat := []
  l1 : List Line := []
  epoch : BitVec 8 := 0
  /-- LSP (R101) -/
  wsn : Nat := 16
  flog : Nat := 0
  fcnt : Nat := 0
  hlog : Nat := 0
  /-- THB (R357) -/
  thbEn : Bool := false
  thbBase : BitVec 56 := 0
  ring : Ring := {}
  hive : Hive := {}
  /-- the spill-log accesses of the last Hive instruction; it holds the Hive while one is unanswered (R277, R281) -/
  logOps : List LogAccess := []
  /-- the slot and the address of a Hive instruction that waits for the walk of a page of the log, and holds the Hive (R281, R399) -/
  hiveWalk : Option (Nat × Word) := none
  /-- accumulator words by (bank * 128 + row) * 32 + column, row tags, poisoned words (R184, R394, R409) -/
  banks : Tbl (BitVec 32) := []
  tags : Tbl Nat := []
  accBad : List Nat := []
  arr : Arr := {}
  /-- descriptor that entered `mq` last (R258) -/
  lastFmt : Word := 2
  /-- engine operations in submission order, and identifiers held open by hand-backs (R131, R419) -/
  ops : List EngOp := []
  /-- the fences of each thread: slot, queue mask, operations to wait for (R132) -/
  fences : List (Nat × Nat × List Nat) := []
  /-- deque, bottom first (R42) -/
  deque : List Record := []
  /-- run list, head first (R49, R297) -/
  runList : List Cont := []
  /-- parked continuations (R47) -/
  parked : List Cont := []
  hwq : Tbl HwQ := []
  /-- core TLB, oldest fill first (R115, R117) -/
  tlb : List TlbEntry := []
  /-- transaction frames in use (R77) -/
  frames : List FrameUse := []
  /-- direction tried last, and a steal in flight (R51) -/
  stealDir : Nat := 3
  stealing : Bool := false
  /-- queue-stall watchdog counter (R375) -/
  wdog : Nat := 0
  gov : Gov := {}
  /-- pre-empted, with its state kept in place; the save succeeded (R66, R377) -/
  pre : Bool := false
  saved : Bool := false
  /-- a write of its save will meet an uncorrectable error (R377; log entry 26) -/
  saveBad : Bool := false
  /-- its save or restore failed: its threads are failing, and its records and continuations are still to be reported (R377) -/
  lost : Bool := false
  deriving DecidableEq, Repr

/-! ## Clusters -/

/-- An error record (R367). -/
structure ErrRec where
  kind : Nat
  cause : Nat := 0
  lnch : Nat := 255
  fl : Nat := 0
  core : Nat := 0
  slot : Nat := 0
  gen : Nat := 0
  pc : Word := 0
  val1 : Word := 0
  val2 : Word := 0
  wid : Word := 0
  seq : Nat := 0
  cyc : Nat := 0
  deriving DecidableEq, Repr

/-- A walk request of a 64 KiB region with the requesters that joined it: site and slot, 16 + q for an engine queue (R116). -/
structure Walk where
  page : Nat
  who : List (Nat × Nat)
  /-- it met a poisoned table word and will not be answered: its context waits for the time limit (R447) -/
  lost : Bool := false
  deriving DecidableEq, Repr

/-- An entry of the monitor table (R61). -/
structure Mon where
  key : Word
  holder : Nat × Nat
  waiters : List (Nat × Nat)
  deriving DecidableEq, Repr

/-- A barrier unit (R62). -/
structure Bar where
  arrived : Nat := 0
  expected : Nat := 0
  gen : Nat := 0
  deriving DecidableEq, Repr

/-- A context evicted by a full monitor table: its core and its thread (R61). -/
structure Evicted where
  site : Nat
  thread : Thread
  deriving DecidableEq, Repr

/-- A cluster, numbered 64 * die + index (R14, R15). -/
structure Cluster where
  /-- sets of the cluster TLB, oldest fill first (R115, R117) -/
  tlb : Tbl (List TlbEntry) := []
  walks : List Walk := []
  /-- PTROOT (R119) -/
  ptroot : Word := 0
  /-- FLU.STK (R163) -/
  stk : BitVec 6 := 0
  mons : List Mon := []
  /-- evicted contexts, oldest first (R61, R374) -/
  runq : List Evicted := []
  bars : Tbl Bar := []
  /-- numbered transactions waiting for a frame, in sequence order (R77) -/
  txq : List Nat := []
  /-- core chosen last for a frame, and for a free-task item (R77, R55) -/
  lastFrameCore : Option Nat := none
  lastItemCore : Option Nat := none
  /-- error records waiting, TAIL, and HEAD as last read (R369) -/
  errQ : List ErrRec := []
  errTail : Nat := 0
  errHead : Nat := 0
  deriving DecidableEq, Repr

/-! ## Accesses and messages on their way -/

/-- An atomic operation (R215): its function number, width in bytes, operand and compare value. -/
structure Amo where
  fn : Nat
  width : Nat
  b : Nat
  cmp : Nat
  deriving DecidableEq, Repr

/-- What an access on its way does at its port. -/
inductive FlightKind where
  /-- fetches a line for the L1 (R107) -/
  | fill
  /-- reads bytes (R211) -/
  | load
  /-- writes bytes (R211) -/
  | store
  /-- masked write of a line's dirty bytes (R109) -/
  | writeback
  /-- an atomic (R134) -/
  | atomic (op : Amo)
  /-- prefetch of a line, into the L1 or the home cache only (R213) -/
  | prefetch (l1 : Bool)
  deriving DecidableEq, Repr

/-- Where an access stands. -/
inductive FlightStage where
  /-- on its way to its port -/
  | request
  /-- performed; the answer is on its way, with the bytes read and the place of the first poisoned one -/
  | reply (bad : Option Nat)
  /-- refused at the target with a WHY of R415 -/
  | refusal (why : Nat)
  deriving DecidableEq, Repr

/-- An access to a port outside the core (R95 to R99, R123). -/
structure Flight where
  kind : FlightKind
  stage : FlightStage
  /-- core and slot that count it, and the slot's generation at issue -/
  site : Nat
  slot : Nat
  gen : Nat
  /-- the load it answers, or the store whose pieces are acknowledged together -/
  grp : Nat
  /-- place of its bytes in the destination -/
  place : Nat
  /-- virtual address, for records -/
  va : Word
  pa : Nat
  size : Nat
  /-- bytes written or read; none for a byte that a masked write leaves -/
  data : List (Option Byte)
  /-- poisoned granules that a write-back carries (R406) -/
  bad : BitVec 8
  /-- slots whose stores a write-back carries home (R109) -/
  writers : BitVec 16 := 0
  /-- the epoch came round while a fetched line was on its way: its bytes do not enter the L1 (R108, R125) -/
  stale : Bool := false
  /-- bytes of the line written back while it was on its way, with their poison; the fetched ones do not replace them (R107, R123) -/
  newer : List (Option (Byte × Bool)) := []
  /-- why the package that serves the whole access refuses it, if it does (R97, R415) -/
  far : Option Nat := none
  /-- the physical ranges of its element, which is refused whole, and whether the target has admitted it (R393) -/
  parts : List (Nat × Nat) := []
  admitted : Bool := false
  /-- the link of the fabric that carries it, once it has left toward another package (R440) -/
  via : Option Nat := none
  /-- its store or write-back counts in S until the last piece is acknowledged (R187, R247) -/
  inS : Bool
  /-- epoch of the core at issue, which tags a fetched line (R107, R125; log entry 10) -/
  epoch : BitVec 8
  /-- firmware privilege of the access (R331) -/
  priv : Bool
  /-- NC = 1 or not DRAM: ordered with the thread's other accesses to the port (R123) -/
  nc : Bool
  /-- instruction address and word, for a hand-back record of KIND 3 (R415) -/
  pc : Word
  word : BitVec 32
  acq : Bool
  deriving DecidableEq, Repr

/-- A submission record of a transaction (R76), with what its submitter adds. -/
structure SubRec where
  pc : Word
  args : List Word
  frame : Option FRef
  clus : Nat
  hexp : Bool
  chk : Bool
  restart : Nat
  check : Word
  wid : Word
  set : List Word
  lnch : Nat
  /-- submitting core and slot, none for a batch launch -/
  src : Option (Nat × Nat × Nat)
  /-- item number for a batch launch -/
  item : Option Nat
  deriving DecidableEq, Repr

/-- Stage of a numbered transaction (R77 to R86). -/
inductive TxStage where
  | waiting
  | framed
  | running
  | committing
  /-- its frame is free; its records and its FRAME decrement remain (R366) -/
  | ended
  deriving DecidableEq, Repr

/-- A numbered transaction. -/
structure Txn where
  seq : Nat
  sub : SubRec
  cluster : Nat
  /-- dispatch core (site) and frame index -/
  core : Nat := 0
  frame : Nat := 0
  /-- the lock home of each entry, as it was when the transaction was numbered (R72) -/
  homes : Tbl Nat := []
  stage : TxStage := .waiting
  /-- its age at the dispenser (R55) -/
  age : Nat := 0
  /-- entries whose grant has landed, and whether one was a failed grant (R425) -/
  landed : List Nat := []
  failedGrant : Bool := false
  /-- a no-write commit or a no-op (R92, R366, R426) -/
  noWrite : Bool := false
  failed : Bool := false
  restarted : Bool := false
  /-- entries still to be released (R86) -/
  unreleased : List Nat := []
  /-- CAUSE, VAL1 and VAL2 of the kind 20 record of a failed transaction, if it has one (R424 to R426) -/
  why : Option (Nat × Nat × Nat) := none
  /-- number of its kind 2 record, once queued (R366) -/
  recNum : Option Nat := none
  deriving DecidableEq, Repr

/-- A lock request at a home (R77, R81). -/
structure LockReq where
  seq : Nat
  entry : Nat
  space : Nat
  tile : Nat
  /-- 1 R, 2 W, 3 RW -/
  mode : Nat
  /-- granted, and its grant was sent (R82) -/
  granted : Bool
  sent : Bool
  deriving DecidableEq, Repr

/-- The lock manager and the trace ring of a home. -/
structure Home where
  /-- requests served into the queues, in sequence order (R81) -/
  reqs : List LockReq := []
  /-- requests that arrived and wait for their group (R80) -/
  early : List LockReq := []
  /-- highest sealed batch of each enrolled package, none before its first seal (R80) -/
  seals : Tbl Nat := []
  /-- packages enrolled, with the first batch of each (R79) -/
  enrolled : List (Nat × Nat) := []
  /-- overdue seals that were reported: package and batch (R423) -/
  overdue : List (Nat × Nat) := []
  /-- frame notices that arrived: sequence number (R77, R82) -/
  notices : List Nat := []
  /-- broken tiles (space, tile), and every tile broken (R425) -/
  broken : List (Nat × Nat) := []
  allBroken : Bool := false
  /-- HRTC, HRTF0, HRTF1 and the ring (R313) -/
  ring : Ring := {}
  deriving DecidableEq, Repr

/-- Who an arrival at a port comes from (R128): a slot or the hardware of a core, that core's logical number, slot, generation, and a
cycle counter. -/
structure Source where
  own : Bool
  core : Nat
  slot : Nat
  gen : Nat
  cyc : Nat
  /-- the site of the thread that it comes from, if it comes from one -/
  site : Option Nat := none
  deriving DecidableEq, Repr

/-- A push of a tile into its slot (R82, R130). -/
structure Push where
  /-- places of the 256-byte parts that are still to be gathered, and of the parts that are still to land: 64 bytes each over the mesh, 256
  over the fabric -/
  gather : List Nat := []
  land : List Nat := []
  /-- the bytes gathered so far, and their poisoned granules -/
  bytes : List Byte := []
  bad : List Nat := []
  deriving DecidableEq, Repr

/-- What travels between units besides memory accesses. -/
inductive Packet where
  /-- a message of a thread (R58): sender, target core, slot and generation, and whether its payload was poisoned on its way (R405) -/
  | message (src dst : Nat × Nat × Nat) (hi : Bool) (payload : List Word) (lnch : Nat) (bad : Bool)
  /-- a bounce on its way back to the sender's thread, and whether the message still counts in S (R59, R364) -/
  | bounce (dest : Nat × Nat × Nat) (hi : Bool) (e : Entry) (wid : Word) (counted : Bool)
  /-- a join decrement, the TREE decrement that follows it, its sender, and whether it waits for a pre-empted core, counted in the
  sender's S (R48, R67, R295) -/
  | decrement (f : FRef) (lnch : Nat) (next : Option TxF) (src : Source) (held : Bool)
  /-- a TREE decrement with its sender (R295) -/
  | tree (t : TxF) (src : Source)
  /-- a steal request of a thief at a victim site, and its answer (R51) -/
  | steal (thief victim : Nat)
  | stolen (thief victim : Nat) (r : Option Record)
  /-- a `spawn.at` record on its way, and the answer to its issuer (R292) -/
  | spawnAt (site slot target : Nat) (r : Record)
  | spawnAtReply (site slot : Nat) (placed : Bool) (r : Record)
  /-- a barrier arrival and the load that receives the generation (R62, R305) -/
  | arrive (cluster unit site slot load : Nat)
  /-- a lock request with its ordinal on the channel (R77, R422) -/
  | lockReq (home : Nat) (ordn : Nat) (r : LockReq)
  /-- a seal of a batch with its ordinal (R78) -/
  | seal (home : Nat) (ordn : Nat) (pkg batch : Nat)
  /-- a frame notice (R77) -/
  | notice (home seq : Nat)
  /-- a grant, which follows the push that it comes with (R82) -/
  | grant (seq entry : Nat) (failed : Bool) (push : Push)
  /-- a committed segment for its owning home (R86), and whether its payload was poisoned on its way (R405, R439) -/
  | segment (seq entry : Nat) (pa : Nat) (data : List Byte) (bad : Bool)
  /-- the release of a tile at its lock home (R86) -/
  | release (seq entry : Nat)
  deriving DecidableEq, Repr

/-! ## Scarab, launch port and host registers -/

/-- A tile-space descriptor (R71). -/
structure Space where
  vbase : Word
  pbase : Nat
  log2 : Nat
  explicit : Bool
  count : Nat
  pmap : Nat
  deriving DecidableEq, Repr

/-- A header held at the launch port (R316). -/
structure Header where
  lseq : Nat
  hdr : BitVec 512
  shape : Option (BitVec 256)
  /-- its checks were made and it was accepted (R317) -/
  accepted : Bool
  deriving DecidableEq, Repr

/-- A live launch (R36 to R38). -/
structure Launch where
  lseq : Nat
  /-- when its items reached the dispensers (R55) -/
  age : Nat
  hdr : BitVec 512
  geo0 : Word
  geo1 : Word
  /-- items handed to a dispenser's threads, by cluster (R38) -/
  handed : Tbl Nat
  /-- records of a batch launch numbered so far (R76) -/
  numbered : Nat
  /-- items not yet started, and tasks and transactions not yet ended -/
  toStart : Nat
  live : Nat
  failed : Nat
  /-- rotation of dispatch clusters (R77) -/
  rot : Nat
  /-- suspended by a thermal pre-emption (R341) -/
  suspended : Bool
  deriving DecidableEq, Repr

/-- A report record of the ring (R318). -/
structure Report where
  kind : Nat
  lnch : Nat
  lseq : Nat
  code : Nat
  value : Word
  deriving DecidableEq, Repr

/-- A firmware request waiting for its reply (R320). -/
structure FwReq where
  op : Nat
  tag : Nat
  status : Nat
  value : Word
  deriving DecidableEq, Repr

/-- An outstanding storage command (R309). -/
structure Cmd where
  qp : Nat
  tag : Nat
  site : Nat
  slot : Nat
  gen : Nat
  hi : Bool
  opc : Nat
  nsid : Nat
  slba : Word
  nlb : Nat
  /-- buffer: virtual address, bytes, and the physical addresses of its 4 KiB pages -/
  va : Word
  size : Nat
  pages : List Nat
  /-- submitting instruction, for records -/
  pc : Word
  /-- queued, sent, or completed with status, ENG and dword 0 -/
  sent : Bool
  done : Option (Nat × Nat × Nat)
  lnch : Nat
  wid : Word
  /-- reported overdue (R437) -/
  late : Bool
  /-- when it was submitted, among identifiers, for an invalidation that waits for it (R118) -/
  id : Nat := 0
  /-- the controller it was submitted to (R437), and FL and SEQ of its record (R367) -/
  ctl : Nat := 0
  fl : Nat := 0
  seq : Nat := 0
  deriving DecidableEq, Repr

/-- A link of the scale-up fabric (R328). -/
structure Link where
  st : Nat := 0
  lanes : Nat := 0
  width : Nat := 0
  peer : Nat := 0
  plink : Nat := 0
  cost : Nat := 1
  /-- flits that may be unacknowledged on the link (R438) -/
  window : Nat := 0
  deriving DecidableEq, Repr

/-- States of the Molt machine, codes 0 to 8 (R338). -/
inductive Molt where
  | off
  | warmService
  | coolPrep
  | cooling
  | soak
  | coldReady
  | coldRun
  | excursion
  | warming
  deriving DecidableEq, Repr

/-- The Scarab (R70 to R79). -/
structure Scarab where
  /-- TSBASE, and TSCTL.INDEX, LOAD and ERR (R70) -/
  base : Nat := 0
  index : Nat := 0
  load : Bool := false
  err : Bool := false
  /-- index of the load under way (R73) -/
  loading : Nat := 0
  /-- SCFG (R70) -/
  pidx : Nat := 0
  podm : Nat := 0
  /-- valid descriptors by index (R71) -/
  spaces : Tbl Space := []
  /-- open batch and next position (R78) -/
  batch : Nat := 0
  pos : Nat := 0
  /-- channels enrolled: home, with the first batch (R79) -/
  channels : List (Nat × Nat) := []
  /-- ordinal of the next item on each channel (R422) -/
  ords : Tbl Nat := []
  /-- submission records that have arrived (R76), and the record at the head that waits for the end of a load (R73) -/
  subs : List SubRec := []
  head : Option SubRec := none
  txns : List Txn := []
  deriving DecidableEq, Repr

/-- The launch port and the request port (R316 to R322). -/
structure Port where
  headers : List Header := []
  lseq : Nat := 0
  /-- LRBASE[47:12], LRHEAD, LRTAIL and the reports waiting (R318, R451) -/
  lrbase : Nat := 0
  lrset : Bool := false
  lrhead : Nat := 0
  lrtail : Nat := 0
  reports : List Report := []
  fwreqs : List FwReq := []
  /-- PRSAVE, PRGRP; pre-emptions under way, groups pre-empted and resumptions under way: rectangle and save area (R319) -/
  prsave : Nat := 0
  prgrp : Nat := 0
  pres : List (Nat × Nat) := []
  saves : List (Nat × Nat) := []
  ress : List (Nat × Nat) := []
  /-- SHWIN and HWBASE (R321) -/
  shsize : Nat := 0
  shbase : Nat := 0
  hwbase : Nat := 0
  deriving DecidableEq, Repr

/-- The storage port (R323 to R327). -/
structure Storage where
  stqbase : Nat := 0
  consent : Bool := false
  /-- queue-pair entries: OPEN, LNCH, CTL, NSID as the 41 bits of R325 -/
  qps : Tbl Nat := []
  /-- by pair: how often its entry was changed while no command of it was outstanding, and what the last such change left (R325) -/
  changes : Tbl Nat := []
  settled : Tbl Nat := []
  cmds : List Cmd := []
  /-- next command identifier, queue tails and heads, by pair (R309, R324) -/
  tags : Tbl Nat := []
  tails : Tbl Nat := []
  heads : Tbl Nat := []
  /-- lost controllers; their queue pairs, until host software opens them again after firmware has recreated them; those recreated (R437) -/
  lostCtl : List Nat := []
  lost : List Nat := []
  recreated : List Nat := []
  /-- the Aborts that firmware has issued: controller, queue pair, command identifier (R437) -/
  aborts : List (Nat × Nat × Nat) := []
  deriving DecidableEq, Repr

/-- Temperature, Molt and time (R336 to R341, R442 to R444). -/
structure Cold where
  /-- readings in 1/16 K by sensor (R337). The spec takes the boot values of TBAND and TSENS from a first sample and gives none: those of
  `State.reset`, 77 K everywhere with what follows from it (Band C, SMAX 0, SOAK), are the model's choice (log entry 7) -/
  temps : List Nat := List.replicate 64 1232
  failed : List Nat := []
  /-- by sensor: samples for which it stayed unchanged, and the readings of the sample from which it did (R442) -/
  stuck : List (Nat × List Nat) := []
  /-- BAND and REQ: 0 C, 1 E, 2 W; TMAX and SMAX (R337) -/
  band : Nat := 0
  req : Nat := 0
  tmax : Nat := 1232
  smax : Nat := 0
  molt : Molt := .soak
  under : Bool := false
  rampv : Bool := false
  /-- TLAST: TIME, FROM, TO (R337) -/
  lastTime : Nat := 0
  lastFrom : Nat := 0
  lastTo : Nat := 0
  /-- MSAVE.BASE (R337) -/
  msave : Nat := 0
  /-- `MCMD` = WARM held in COLD_RUN (R338), and the command given while a ramp limit held the state: 1 COOL, 2 WARM, else 0 (R339) -/
  warmHeld : Bool := false
  cmdHeld : Nat := 0
  /-- consecutive samples above 92 K, above 140 K, at or below 137 K (R336) -/
  over92 : Nat := 0
  over140 : Nat := 0
  under137 : Nat := 0
  /-- since when TMAX has been at or below 89 K (R336), and since when the conditions of SOAK have held (R338), in µs -/
  fallFrom : Option Nat := none
  soakFrom : Option Nat := none
  /-- readings of the last full minute and its time, for the ramp limit; a limit is exceeded at present (R339) -/
  minute : List Nat := List.replicate 64 1232
  minuteAt : Nat := 0
  ramping : Bool := false
  /-- the sensor that broke the ramp limit over the last full minute (R339; log entry 35) -/
  rampOver : Option Nat := none
  /-- µs at which the Molt entered its state, and whether its limit was reported (R444) -/
  entered : Nat := 0
  limited : Bool := false
  trainFails : Tbl Nat := []
  /-- the clocks are stopped for a band change, and the band that follows (R340) -/
  stopped : Bool := false
  nextBand : Nat := 0
  /-- package time in µs (R343), and µs since power-on, for the trip log (R443) -/
  time : Nat := 0
  powerTime : Nat := 0
  /-- trip log: time, sensor, Molt state, reading (R443) -/
  trip : Option (Nat × Nat × Nat × Nat) := none
  /-- the arrays are held off before Band W (R341) -/
  holdOff : Bool := false
  /-- power is above the cap, and the die whose clocks a ramp limit stops (R32, R334, R339) -/
  overCap : Bool := false
  hotDie : Option Nat := none
  deriving DecidableEq, Repr

/-- The Ulisil link (R432, R433). -/
structure Ulisil where
  up : Bool := true
  retraining : Bool := false
  replays : Nat := 0
  retrains : Nat := 0
  deriving DecidableEq, Repr

/-- What a structure instance knows of its corrected errors (R411). -/
structure Corrected where
  /-- cluster whose queue its records go to, structure code, and the instance among those of the code -/
  cluster : Nat
  code : Nat
  unit : Nat
  /-- location of the last one, how many since the last record, and when that record was written, in µs -/
  last : Word
  count : Nat
  wrote : Option Nat
  deriving DecidableEq, Repr

/-- The whole machine. -/
structure State where
  /-- the thread that issues in this step: core number and slot -/
  cur : Nat × Nat := (0, 0)
  /-- turns given in advance, then the free schedule (log entry 1) -/
  turns : List Turn := []
  /-- counter of free values and of the schedule (log entries 1, 2) -/
  tick : Nat := 0
  /-- next identifier of a load, an operation or a hand-back -/
  nextId : Nat := 1
  cores : Tbl Core := []
  clusters : Tbl Cluster := []
  homes : Tbl Home := []
  /-- cold DRAM by 48-bit physical address, and its poisoned granules (R98, R406) -/
  dram : Memory := []
  dramBad : List Nat := []
  /-- companion memory by companion address (R110) -/
  hostMem : Memory := []
  flights : List Flight := []
  chan : List Packet := []
  scarab : Scarab := {}
  port : Port := {}
  launches : Tbl Launch := []
  /-- access tables: entry e of target t at 64 * t + e as its four words; ENF and HL (R332, R333) -/
  tables : Tbl (List Word) := []
  enf : Bool := false
  hl : Bool := false
  /-- DBGBP by register (R322) -/
  dbgbp : Tbl Word := []
  /-- PCAP and SORL (R334) -/
  pcap : Nat := 2600
  sorl : Tbl Nat := []
  /-- fused-off sites, numbered die * 1024 + y * 32 + x (R24); the part that `State.reset` shows has none (log entry 8) -/
  fused : List Nat := []
  /-- DEVSN and the fuses: key hashes, revoke fuses, fused minimum (R314, R344). The spec takes them from the part's fuses and gives no
  value: they are free values (log entry 8) -/
  devsn : Word := Config.serial
  keyHash : Tbl (List Byte) := Config.fusedKeys
  revoked : List Nat := Config.revokedKeys
  minVersion : Nat := Config.fusedVersion
  /-- running firmware: VERSION and digest (R345) -/
  fwVersion : Nat := 0
  fwDigest : List Byte := []
  booted : Bool := false
  /-- PIDX of the accepted boot parameters (R315, R343) -/
  bootPidx : Nat := 0
  storage : Storage := {}
  links : Tbl Link := []
  /-- the links of the flows that have packets on their way: the sending unit and the home of another package, and the link (R440) -/
  flows : List ((Nat × Nat) × Nat) := []
  froute : Tbl Nat := []
  cold : Cold := {}
  ulisil : Ulisil := {}
  /-- corrected errors by structure instance (R411) -/
  corrected : List Corrected := []
  /-- CID.ENCNT (R26) -/
  encnt : Nat := 0
  /-- site mode (R353) -/
  site : Bool := true
  /-- units powered up: stacks 0 to 7, then clusters 0 to 127; clusters whose arrays are released (R342; log entry 9) -/
  powered : Nat := 0
  arrays : Nat := 0
  /-- the package is powered, and in the fatal state: the cause, the link or unit, and the package time of the FATAL message (R443, R448) -/
  on : Bool := true
  fatal : Option (Nat × Nat × Nat) := none
  deriving DecidableEq, Repr

/-- The machine stops with a fault. -/
inductive Fault where
  /-- raised by nobody: every fault of the spec is a trap, a thread failure or a record, and the machine goes on; safe -/
  | stuck
  deriving DecidableEq, Repr

/-- The machine has no meaning for an instruction. -/
inductive Refusal where
  /-- raised by the dispatcher for a row without a meaning; safe -/
  | notModelled (mnemonic : String)
  deriving DecidableEq, Repr

/-! ## Reset -/

/-- Where the boot program begins: at the payload of the verified image, behind its 128-byte header (R343, R344; log entry 6). -/
def bootPc : Word := 0x80

/-- Slot 0 of every enabled core runs the boot program at firmware privilege with generation 1; s1 is 1 on the boot core (R353). -/
def Thread.boot (s1 : Word) : Thread :=
  { run := .running, pc := bootPc, priv := true, gen := 1, glob := if s1 = 0 then [] else [(1, s1)] }

/-- The first enabled site in the order of R25 (R343). -/
def bootSite (fused : List Nat) : Nat := ((List.range 2048).find? (fun n => !fused.contains n)).getD 0

/-- A core right after reset: its site number as LCORE (R353); a fused-off site and a translation service core run no boot. -/
def Core.reset (fused : List Nat) (n : Nat) : Core :=
  { lcore := if n < 2048 then n else 0
    threads := if n < 2048 && !fused.contains n then [(0, Thread.boot (if n = bootSite fused then 1 else 0))] else [] }

/-- The machine right after reset, with given fused-off sites (R7, R24, R353). Cores, clusters, homes and threads that no table lists
hold their reset values. -/
def State.resetOf (fused : List Nat) : State := { fused := fused }

/-- The machine right after reset: the part without fused-off sites (log entry 8). -/
def State.reset : State := State.resetOf []

end Sys2Proof.Machine
end

