-- ==== Sys2Proof/Machine/Table.lean ====
section
/-!
DEFINITION. Tables of values by number, byte memories in their canonical form, and little-endian numbers (R4). Every store,
memory and register file of the machine is read and written through these.
-/

namespace Sys2Proof.Machine

/-- The value a table lists for a number. -/
def tblFind {α : Type} (k : Nat) : Tbl α → Option α
  | [] => none
  | (j, v) :: t => if k = j then some v else tblFind k t

/-- The value a table holds for a number, `d` where it lists none. -/
def tblGet {α : Type} (d : α) (k : Nat) (t : Tbl α) : α := (tblFind k t).getD d

/-- The table with a number's value replaced. -/
def tblSet {α : Type} (k : Nat) (v : α) : Tbl α → Tbl α
  | [] => [(k, v)]
  | (j, w) :: t => if k < j then (k, v) :: (j, w) :: t else if k = j then (k, v) :: t else (j, w) :: tblSet k v t

/-- The table without a number. -/
def tblDel {α : Type} (k : Nat) (t : Tbl α) : Tbl α := t.filter (fun x => decide (x.1 ≠ k))

/-- A byte of a memory; an unlisted address reads 0 (log entry 4). -/
def memGet (a : Nat) : Memory → Byte
  | [] => 0
  | (j, b) :: t => if a = j then b else memGet a t

/-- Insert or replace one byte, addresses rising. -/
def memPut (a : Nat) (b : Byte) : Memory → Memory
  | [] => [(a, b)]
  | (j, c) :: t => if a < j then (a, b) :: (j, c) :: t else if a = j then (a, b) :: t else (j, c) :: memPut a b t

/-- Write one byte; a byte equal to what an unlisted address reads is not listed. -/
def memSet (a : Nat) (b : Byte) (m : Memory) : Memory :=
  if b = 0 then m.filter (fun c => decide (c.1 ≠ a)) else memPut a b m

/-- The canonical form: addresses strictly rising and no listed byte 0. -/
def Memory.wf : Memory → Bool
  | [] => true
  | [c] => decide (c.2 ≠ 0)
  | c :: d :: t => decide (c.1 < d.1) && decide (c.2 ≠ 0) && Memory.wf (d :: t)

/-- n bytes from an address up, lowest address first. -/
def memRead (a : Nat) : Nat → Memory → List Byte
  | 0, _ => []
  | n + 1, m => memGet a m :: memRead (a + 1) n m

/-- Write bytes from an address up. -/
def memWrite (a : Nat) : List Byte → Memory → Memory
  | [], m => m
  | b :: t, m => memWrite (a + 1) t (memSet a b m)

/-- Write the bytes whose mask entry is true. -/
def memWriteMasked (a : Nat) : List (Option Byte) → Memory → Memory
  | [], m => m
  | none :: t, m => memWriteMasked (a + 1) t m
  | some b :: t, m => memWriteMasked (a + 1) t (memSet a b m)

/-- The little-endian number of a list of bytes (R4). -/
def leNat : List Byte → Nat
  | [] => 0
  | b :: t => b.toNat + 256 * leNat t

/-- The n little-endian bytes of a number. -/
def leBytes : Nat → Nat → List Byte
  | 0, _ => []
  | n + 1, v => BitVec.ofNat 8 v :: leBytes n (v / 256)

/-- A little-endian number of n bytes in a memory. -/
def memNum (a n : Nat) (m : Memory) : Nat := leNat (memRead a n m)

/-- Store a number as n little-endian bytes. -/
def memPutNum (a n v : Nat) (m : Memory) : Memory := memWrite a (leBytes n v) m

/-- Bits [lo + len - 1 : lo] of a number. -/
def bits (v lo len : Nat) : Nat := v / 2 ^ lo % 2 ^ len

/-- Bit i of a number. -/
def bit (v i : Nat) : Bool := decide (v / 2 ^ i % 2 = 1)

/-- The number with bits [lo + len - 1 : lo] replaced. -/
def setBits (v lo len x : Nat) : Nat := v - bits v lo len * 2 ^ lo + x % 2 ^ len * 2 ^ lo

/-- A Bool as a number. -/
def b2n (b : Bool) : Nat := if b then 1 else 0

/-- The signed reading of the low w bits of a number. -/
def sgn (w v : Nat) : Int :=
  if v % 2 ^ w < 2 ^ (w - 1) then (v % 2 ^ w : Nat) else ((v % 2 ^ w : Nat) : Int) - (2 ^ w : Nat)

/-- An integer modulo 2^w. -/
def wrapN (w : Nat) (x : Int) : Nat := (x % ((2 ^ w : Nat) : Int)).toNat

/-- EXTS of the low w bits (R10). -/
def extS (w v : Nat) : Word := BitVec.ofInt 64 (sgn w v)

/-- EXTZ of the low w bits (R10). -/
def extZ (w v : Nat) : Word := BitVec.ofNat 64 (v % 2 ^ w)

/-- Round up to a multiple. -/
def roundUp (x m : Nat) : Nat := if m = 0 then x else (x + m - 1) / m * m

end Sys2Proof.Machine
end

