-- ==== Sys2Proof/Machine/Base.lean ====
section
/-!
DEFINITION. Accessors: cores, threads, clusters and homes by number, the register files of a thread (R178 to R180), the status
register (R35) and the numbering of sites, clusters and logical cores (R14, R25).
-/

namespace Sys2Proof.Machine

open Sys2Proof

/-! ## Units by number -/

/-- A core; an unlisted one is in its reset state. -/
def State.core (s : State) (n : Nat) : Core := (tblFind n s.cores).getD (Core.reset s.fused n)

/-- Replace a core. -/
def State.setCore (s : State) (n : Nat) (c : Core) : State := { s with cores := tblSet n c s.cores }

/-- A thread of a core; an unlisted one is free. -/
def Core.thread (c : Core) (i : Nat) : Thread := tblGet {} i c.threads

/-- Replace a thread of a core. -/
def Core.setThread (c : Core) (i : Nat) (t : Thread) : Core := { c with threads := tblSet i t c.threads }

/-- A thread by core and slot. -/
def State.thread (s : State) (n i : Nat) : Thread := (s.core n).thread i

/-- Replace a thread by core and slot. -/
def State.setThread (s : State) (n i : Nat) (t : Thread) : State := s.setCore n ((s.core n).setThread i t)

/-- The thread that issues. -/
def State.th (s : State) : Thread := s.thread s.cur.1 s.cur.2

/-- Replace the thread that issues. -/
def State.setTh (s : State) (t : Thread) : State := s.setThread s.cur.1 s.cur.2 t

/-- The core that issues. -/
def State.co (s : State) : Core := s.core s.cur.1

/-- Replace the core that issues. -/
def State.setCo (s : State) (c : Core) : State := s.setCore s.cur.1 c

/-- A cluster. -/
def State.cluster (s : State) (k : Nat) : Cluster := tblGet {} k s.clusters

/-- Replace a cluster. -/
def State.setCluster (s : State) (k : Nat) (c : Cluster) : State := { s with clusters := tblSet k c s.clusters }

/-- A home. -/
def State.home (s : State) (h : Nat) : Home := tblGet {} h s.homes

/-- Replace a home. -/
def State.setHome (s : State) (h : Nat) (x : Home) : State := { s with homes := tblSet h x s.homes }

/-- A launch, when it is live. -/
def State.launch (s : State) (l : Nat) : Option Launch := tblFind l s.launches

/-- The free-value counter moves on (log entry 2). -/
def State.bump (s : State) : State := { s with tick := s.tick + 1 }

/-- A fresh identifier. -/
def State.fresh (s : State) : Nat × State := (s.nextId, { s with nextId := s.nextId + 1 })

/-! ## Sites, clusters and logical numbers -/

/-- The cluster of a core, 64 * die + index; a translation service core belongs to cluster n - 2048 (R14). -/
def clusterOf (n : Nat) : Nat :=
  if n < 2048 then 64 * (n / 1024) + n % 1024 / 128 * 8 + n % 32 / 4 else n - 2048

/-- Position of a site in its cluster (R26). -/
def cposOf (n : Nat) : Nat := n % 1024 / 32 % 4 * 4 + n % 4

/-- The sites of a cluster in the order of R25. -/
def sitesOf (k : Nat) : List Nat :=
  (List.range 16).map (fun p => k / 64 * 1024 + (k % 64 / 8 * 4 + p / 4) * 32 + k % 8 * 4 + p % 4)

/-- The site holds an enabled core: not fused off, and numbered once boot has committed (R24, R355). -/
def State.enabled (s : State) (n : Nat) : Bool :=
  decide (n < 2048) && !s.fused.contains n && (s.site || (s.core n).numbered)

/-- The site of a core number: a site number in site mode, a logical number after it (R25, R353). -/
def State.siteOf (s : State) (l : Nat) : Option Nat :=
  if s.site then (if s.enabled l then some l else none)
  else (s.cores.find? (fun x => decide (x.1 < 2048) && x.2.numbered && decide (x.2.lcore = l))).map (·.1)

/-- Clusters are numbered by die and index; the group of a launch counts columns over both dies (R36). -/
def clusterAt (gx gy : Nat) : Nat := 64 * (gx / 8) + gy * 8 + gx % 8

/-- The columns and rows of a core group, from a number whose bits hold GX0, GY0, GX1, GY1 (R36, R319). -/
def groupClusters (gx0 gy0 gx1 gy1 : Nat) : List Nat :=
  (List.range 8).flatMap (fun y => if gy0 ≤ y ∧ y ≤ gy1 then
    ((List.range 16).filter (fun x => decide (gx0 ≤ x ∧ x ≤ gx1))).map (fun x => clusterAt x y) else [])

/-- The enabled cores of a cluster, ascending in logical number (R25, R55). -/
def State.coresOf (s : State) (k : Nat) : List Nat := (sitesOf k).filter s.enabled

/-- Fields of a launch header by bit range (R36). -/
def Launch.field (l : Launch) (lo len : Nat) : Nat := bits l.hdr.toNat lo len

/-- The clusters of a launch's core group, row by row (R36, R38). -/
def Launch.clusters (l : Launch) : List Nat := groupClusters (l.field 448 4) (l.field 452 3) (l.field 455 4) (l.field 459 3)

/-- A launch whose tasks run as pairs (R65). -/
def State.pairedLaunch (s : State) (l : Nat) : Bool :=
  match s.launch l with
  | some x => decide (x.field 428 1 = 1)
  | none => false

/-! ## Registers of a thread -/

/-- The thread status register s31 (R35). INL reads 1 in a reconnaissance pass as well (log entry 41). -/
def Thread.status (t : Thread) (slot : Nat) : Word :=
  BitVec.ofNat 64 (slot % 16 + t.gen.toNat * 2 ^ 4 + b2n t.priv * 2 ^ 20 + b2n t.task.txn * 2 ^ 21 + t.pair % 4 * 2 ^ 22
    + b2n t.qmap * 2 ^ 24 + t.depth % 32 * 2 ^ 25 + t.task.lnch % 16 * 2 ^ 30 + t.task.prio % 4 * 2 ^ 34
    + b2n (!t.inl.isEmpty) * 2 ^ 36)

/-- The place of a window register of window k (R179). -/
def winIndex (k n : Nat) : Nat := 12 * k + (n - 8)

/-- Read a scalar register that is no queue (R178, R179). -/
def Thread.sreg (t : Thread) (slot n : Nat) : Word :=
  if n = 0 then 0
  else if n = 31 then t.status slot
  else if 8 ≤ n ∧ n ≤ 23 then tblGet 0 (winIndex t.depth n) t.win
  else tblGet 0 n t.glob

/-- A register as the machine keeps it: a window register by its number over all windows (R179). -/
def Thread.abs (t : Thread) : RegName → RegName
  | .s n => if 8 ≤ n ∧ n ≤ 23 then .w (winIndex t.depth n) else .s n
  | .v n => .v n
  | .p n => .p n
  | .e n => .e n
  | .w n => .w n
  | .spr n => .spr n

/-- The poisoned registers once one of them is written (R405, R407). -/
def Thread.healed (t : Thread) (r : RegName) : List RegName := t.regBad.filter (fun x => decide (x ≠ t.abs r))

/-- Write a scalar register that is no queue; s0 and s31 discard the value (R178). -/
def Thread.setSreg (t : Thread) (n : Nat) (x : Word) : Thread :=
  if n = 0 ∨ n = 31 then t
  else if 8 ≤ n ∧ n ≤ 23 then { t with win := tblSet (winIndex t.depth n) x t.win, regBad := t.healed (.s n) }
  else { t with glob := tblSet n x t.glob, regBad := t.healed (.s n) }

/-- Read a vector register. -/
def Thread.vreg (t : Thread) (n : Nat) : Vec := tblGet 0 n t.vec

/-- Write a vector register. -/
def Thread.setVreg (t : Thread) (n : Nat) (x : Vec) : Thread := { t with vec := tblSet n x t.vec, regBad := t.healed (.v n) }

/-- Read a predicate register; p0 reads all ones (R178). -/
def Thread.preg (t : Thread) (n : Nat) : Word := if n = 0 then BitVec.allOnes 64 else tblGet 0 n t.prd

/-- Write a predicate register; p0 discards the value (R178). -/
def Thread.setPreg (t : Thread) (n : Nat) (x : Word) : Thread := 
  if n = 0 then t else { t with prd := tblSet n x t.prd, regBad := t.healed (.p n) }

/-- Read an operand-extension register. -/
def Thread.ereg (t : Thread) (n : Nat) : Word := tblGet 0 n t.ext

/-- Write an operand-extension register (R183). -/
def Thread.setEreg (t : Thread) (n : Nat) (x : Word) : Thread := { t with ext := tblSet n x t.ext, regBad := t.healed (.e n) }

/-- The thread runs a reconnaissance pass, at any depth of its inline children (R91). -/
def Thread.inRecon (t : Thread) : Bool :=
  t.inl.any (fun x => match x.kind with | .pass _ => true | _ => false)

/-- The thread holds a task (R375). -/
def Thread.busyTask (t : Thread) : Bool :=
  match t.run with
  | .free => false
  | .wfw => false
  | _ => true

/-- CNTR (R187). -/
def Thread.cntr (t : Thread) : Word :=
  BitVec.ofNat 64 (t.cntL % 1024 + t.cntS % 1024 * 2 ^ 10 + t.cntC % 1024 * 2 ^ 20 + t.cntT % 1024 * 2 ^ 30)

/-- FLU.LIVE: the OR of the flags of every slot of the cluster that holds a task (R163). -/
def State.fluLive (s : State) (k : Nat) : BitVec 6 :=
  (s.coresOf k).foldl (fun acc n => (List.range 16).foldl (fun a i =>
    let t := s.thread n i
    if t.busyTask then a ||| t.flg.extractLsb' 0 6 else a) acc) 0

/-- Physical region base of a thread in its local store (R102). -/
def Thread.region (t : Thread) : Nat := t.wsr * 0x1000

/-! ## Local-store partition (R101 to R103) -/

/-- TXB (R102). -/
def Core.txb (c : Core) : Nat := if c.fcnt = 0 then c.wsn * 0x1000 else roundUp (c.wsn * 0x1000) (2 ^ c.flog)

/-- SCRB (R102). -/
def Core.scrb (c : Core) : Nat := c.txb + c.fcnt * (if c.fcnt = 0 then 0 else 2 ^ c.flog)

/-- HVB (R102). -/
def Core.hvb (c : Core) : Nat := if c.hlog = 0 then 0x80000 else 0x80000 - 2 ^ c.hlog

/-- LSP as a word (R101). -/
def Core.lsp (c : Core) : Word :=
  BitVec.ofNat 64 (c.wsn % 128 + c.flog % 32 * 2 ^ 8 + c.fcnt % 64 * 2 ^ 13 + c.hlog % 32 * 2 ^ 19)

/-- LSMAP (R103). -/
def Core.lsmap (c : Core) : Word := BitVec.ofNat 64 (c.txb % 2 ^ 19 + c.scrb % 2 ^ 19 * 2 ^ 19 + c.hvb % 2 ^ 20 * 2 ^ 38)

/-- The claimed range of the Hive: base and size (R104, R276). -/
def Core.claimed (c : Core) : Option (Nat × Nat) := if c.hive.clm then some (c.hvb, 65 * 2 ^ c.hive.b) else none

/-- A byte range of the local store meets the claimed range. -/
def Core.inClaim (c : Core) (a n : Nat) : Bool :=
  match c.claimed with
  | some (b, z) => decide (a < b + z ∧ b < a + n)
  | none => false

/-- The window-stack regions in use: by threads that hold one, by continuations and by evicted contexts (R46). -/
def Core.regionsUsed (c : Core) : List Nat :=
  (c.threads.filter (fun x => match x.2.run with | .free => false | _ => true)).map (fun x => x.2.wsr)
    ++ c.runList.map (·.region) ++ c.parked.map (·.region)

/-- The lowest free window-stack region (R46; log entry 16). -/
def State.freeRegion (s : State) (n : Nat) : Option Nat :=
  let c := s.core n
  let used := c.regionsUsed ++
    ((s.cluster (clusterOf n)).runq.filter (fun e => decide (e.site = n))).map (fun e => e.thread.wsr)
  (List.range c.wsn).find? (fun k => !used.contains k)

/-- Free window-stack regions of a core (R47). -/
def State.freeRegions (s : State) (n : Nat) : Nat :=
  let c := s.core n
  let used := c.regionsUsed ++
    ((s.cluster (clusterOf n)).runq.filter (fun e => decide (e.site = n))).map (fun e => e.thread.wsr)
  ((List.range c.wsn).filter (fun k => !used.contains k)).length

end Sys2Proof.Machine
end

