-- ==== Sys2Proof/Machine/Ops.lean ====
section
/-!
DEFINITION. The shared operations: error records, the local-store port with its trace ring and dirty bits, poison, windows,
taking a trap and returning from one, thread failure, and why an instruction stops.
-/

namespace Sys2Proof.Machine

open Sys2Proof

/-- Why an instruction does not complete. -/
inductive Stop where
  /-- a trap with its code and value (R360) -/
  | trap (code : Nat) (val : Word)
  /-- a trap after translations: the core TLB keeps what they filled (R115) -/
  | trapTlb (tlb : List TlbEntry) (code : Nat) (val : Word)
  /-- a trap that returns to an address of its own: `trap` and `bkpt` (R222, R224) -/
  | soft (code : Nat) (val ret : Word)
  /-- an enabled flag was raised: the flags, and the advanced SRS (R161) -/
  | arith (flags : BitVec 6) (srs : Word)
  /-- the slot stays empty and the instruction issues again; the state keeps what was begun (R34) -/
  | stall (s : State)
  /-- the Hive spill-exhaustion trap with its value; SOVF is set (R278, R428) -/
  | spill (val : Word)
  /-- the thread fails with a cause (R363) -/
  | fail (cause : Nat) (val1 val2 : Word)
  /-- a read met poison: the state keeps what it and the reads before it left in the trace rings, and the thread fails with cause 3, the
  address that its record shows, VAL1 and VAL2 (R129, R363, R407) -/
  | failRead (s : State) (pc val1 val2 : Word)
  deriving DecidableEq, Repr

/-- The outcome of an instruction. -/
abbrev Out := Host.Outcome State Fault Refusal

/-! ## Error records (R367 to R369) -/

/-- Queue a record at a cluster. -/
def State.record (s : State) (k : Nat) (r : ErrRec) : State :=
  s.setCluster k { s.cluster k with errQ := (s.cluster k).errQ ++ [r] }

/-- The sequence number of the transaction whose tree a task belongs to; 0 outside one (R367). -/
def State.seqOf (s : State) (t : Task) : Nat :=
  match t.txf with
  | none => 0
  | some f => match s.siteOf f.core with
    | none => 0
    | some n => match (s.core n).frames.find? (fun x => decide ((s.core n).txb + x.index * 2 ^ (s.core n).flog = f.base)) with
      | none => 0
      | some x => x.seq

/-- FL.TXN, FL.PAIR and FL.INL of a thread (R367). -/
def Thread.recFlags (t : Thread) : Nat := b2n t.task.txn + 2 * b2n (decide (t.pair ≠ 0)) + 4 * b2n (!t.inl.isEmpty)

/-- A record that names a thread (R367). -/
def State.threadRec (s : State) (n i kind cause : Nat) (pc v1 v2 : Word) (pre : Bool) : ErrRec :=
  let t := s.thread n i
  { kind := kind, cause := cause, lnch := t.task.lnch
    fl := t.recFlags + 8 * b2n pre
    core := (s.core n).lcore, slot := i, gen := t.gen.toNat, pc := pc, val1 := v1, val2 := v2, wid := t.wid
    seq := s.seqOf t.task, cyc := (s.core n).cyc }

/-- Queue a record that names a thread at its core's cluster. -/
def State.reportThread (s : State) (n i kind cause : Nat) (pc v1 v2 : Word) : State :=
  s.record (clusterOf n) (s.threadRec n i kind cause pc v1 v2 false)

/-- The cluster that a home's records go to (R413). -/
def homeCluster (h : Nat) : Nat := 64 * (h / 128) + h % 128 / 2

/-- The cluster whose queue takes the corrected errors of a structure instance: that of its core, of its home, or of its die's edge. Code 1
has none to correct (R405, R411, R413, R430, R431). -/
def correctedAt (code unit : Nat) : Option Nat :=
  if code = 4 ∨ code = 5 ∨ code = 10 then (if unit < 256 then some (homeCluster unit) else none)
  else if code = 11 then (if unit = 0 then some 0 else none)
  else if code = 12 then (if unit < 18 then some (if unit < 9 then 0 else 64) else none)
  else if code = 13 then (if unit = 0 then some 64 else none)
  else if 2 ≤ code ∧ code ≤ 9 then (if unit < 2176 then some (clusterOf unit) else none)
  else none

/-- A structure instance corrected k errors, the last at a location; those of a core's weight store and accumulators count for its voltage
governor (R411, R445). -/
def State.countCorrected (s : State) (code unit k : Nat) (at_ : Word) : State :=
  match correctedAt code unit with
  | none => s
  | some cluster =>
    let c := s.core unit
    let s := if (code = 6 ∨ code = 7) ∧ unit < 2048 then s.setCore unit { c with gov := { c.gov with count := c.gov.count + k } } else s
    let same (c : Corrected) : Bool := decide (c.code = code ∧ c.unit = unit)
    { s with corrected :=
        if s.corrected.any same then
          s.corrected.map (fun c => if same c then { c with last := at_, count := c.count + k } else c)
        else s.corrected ++ [{ cluster := cluster, code := code, unit := unit, last := at_, count := k, wrote := none }] }

/-- A record that names no thread (R413, R430). -/
def bareRec (kind cause : Nat) (v1 v2 : Word) : ErrRec :=
  { kind := kind, cause := cause, core := 0xFFF, val1 := v1, val2 := v2 }

/-! ## Trace rings (R126 to R129, R313) -/

/-- The aligned pieces of an access of n bytes at a, none longer than 64 bytes, ascending (R97). -/
def pieces : Nat → Nat → Nat → List (Nat × Nat)
  | 0, _, _ => []
  | fuel + 1, a, n =>
    if n = 0 then []
    else
      let z := ([64, 32, 16, 8, 4, 2].find? (fun z => decide (a % z = 0 ∧ z ≤ n))).getD 1
      (a, z) :: pieces fuel (a + z) (n - z)

/-- log2 of an access size (R128). -/
def log2Size (n : Nat) : Nat :=
  if n ≤ 1 then 0 else if n ≤ 2 then 1 else if n ≤ 4 then 2 else if n ≤ 8 then 3 else if n ≤ 16 then 4
  else if n ≤ 32 then 5 else 6

/-- One arrival of one piece; answers the ring and whether it was the first to set OVF (R129, R427). -/
def Ring.arrive (r : Ring) (a n kind : Nat) (w : Source) : Ring × Bool :=
  if !r.en || decide (Nat.land a r.mask ≠ Nat.land r.mtch r.mask) then (r, false)
  else
    let r' := { r with ord := (r.ord + 1) % 2 ^ 32 }
    if (w.own && !r.own) || (decide (kind = 3) && !r.lds) then (r', false)
    else
      let e : RingEntry := { addr := a, size := log2Size n, kind := kind, ord := r.ord % 2 ^ 32, src := w.core, slot := w.slot,
                             gen := w.gen, cyc := w.cyc % 2 ^ 32 }
      if r.entries.length < 256 then ({ r' with entries := r.entries ++ [e] }, false)
      else if r.wrap then ({ r' with entries := r.entries.drop 1 ++ [e], ovf := true }, !r.ovf)
      else ({ r' with ovf := true }, !r.ovf)

/-- All pieces of an access. -/
def Ring.arriveAll (r : Ring) (ps : List (Nat × Nat)) (kind : Nat) (w : Source) : Ring × Option Nat :=
  ps.foldl (fun (acc : Ring × Option Nat) p =>
    let (r', o) := acc.1.arrive p.1 p.2 kind w
    (r', if o then some acc.1.ord else acc.2)) (r, none)

/-- Log an access at a core's local-store port: it is the core's own only where a slot or the hardware of that core makes it, and its
cycle is the port's (R126, R128). The first overflow writes a kind 24 record (R427). -/
def State.logPort (s : State) (n a size kind : Nat) (w : Source) : State :=
  let c := s.core n
  if !c.ring.en then s
  else
    let w := { w with own := w.own && decide (w.core = c.lcore), cyc := c.cyc }
    let (r, o) := c.ring.arriveAll (pieces size a size) kind w
    let s := s.setCore n { c with ring := r }
    match o with
    | none => s
    | some k => s.record (clusterOf n)
        { bareRec 24 0 (BitVec.ofNat 64 (c.lcore * 2 ^ 16)) (BitVec.ofNat 64 k) with core := c.lcore, cyc := c.cyc }

/-- Log an access at a home. -/
def State.logHome (s : State) (h a size kind : Nat) (w : Source) : State :=
  let x := s.home h
  if !x.ring.en then s
  else
    let (r, o) := x.ring.arriveAll (pieces size a size) kind w
    let s := s.setHome h { x with ring := r }
    match o with
    | none => s
    | some k => s.record (homeCluster h) (bareRec 24 0 (BitVec.ofNat 64 (1 + h * 2 ^ 8)) (BitVec.ofNat 64 k))

/-- The source of an access by a thread: its own access or its core's hardware for it, or an engine's. -/
def State.source (s : State) (n i : Nat) (own : Bool) : Source :=
  { own := own, core := (s.core n).lcore, slot := i, gen := (s.thread n i).gen.toNat, cyc := (s.core n).cyc, site := some n }

/-! ## Local store (R85, R100, R406) -/

/-- The 8-byte granules that n bytes at a touch, and those they cover whole (R406). -/
def granules (a n : Nat) : List Nat := if n = 0 then [] else List.range' (a / 8) ((a + n - 1) / 8 - a / 8 + 1)

/-- Poison left after n bytes at a are written: whole granules are cleared (R406). -/
def clearBad (bad : List Nat) (a n : Nat) : List Nat := bad.filter (fun g => !decide (a ≤ 8 * g ∧ 8 * g + 8 ≤ a + n))

/-- A byte range touches a poisoned granule. -/
def anyBad (bad : List Nat) (a n : Nat) : Bool := (granules a n).any bad.contains

/-- The address at which a read of a byte range meets poison first (R407). -/
def firstBad (bad : List Nat) (a n : Nat) : Option Nat := ((granules a n).find? bad.contains).map (fun g => max a (8 * g))

/-- Mark granules poisoned. -/
def addBad (bad : List Nat) (gs : List Nat) : List Nat := bad ++ gs.filter (fun g => !bad.contains g)

/-- Write bytes into a core's local store. -/
def Core.lsPut (c : Core) (a : Nat) (bs : List Byte) : Core :=
  { c with ls := memWrite a bs c.ls, lsBad := clearBad c.lsBad a bs.length }

/-- Copy whole granules of a core's local store from a to b, with their poison (R406). -/
def Core.lsCopy (c : Core) (a b n : Nat) : Core :=
  let d := c.lsPut b (memRead a n c.ls)
  { d with lsBad := addBad d.lsBad (((granules a n).filter c.lsBad.contains).map (fun g => g - a / 8 + b / 8)) }

/-- Set the dirty bits of the W and RW tile-slot segments that a write reaches (R85). -/
def Core.markDirty (c : Core) (a n : Nat) : Core :=
  { c with frames := c.frames.map (fun f =>
      { f with dirty := f.dirty ++ (List.range' (a / 64) ((a + n - 1) / 64 - a / 64 + 1)).filterMap (fun g =>
          if f.slots.any (fun x => decide (x.1 ≤ g * 64 ∧ g * 64 < x.1 + x.2)) && !f.dirty.contains (g * 64)
          then some (g * 64) else none) }) }

/-- The Hive of a core is held: an access to the spill log has not been answered (R281). -/
def State.hiveBusy (s : State) (n : Nat) : Bool :=
  s.flights.any (fun f => decide (f.site = n) && (s.core n).logOps.any (fun a => decide (a.grp = f.grp)))

/-- A store, atomic or engine write at a local-store port: bytes, dirty bits and the ring. -/
def State.lsStore (s : State) (n a : Nat) (bs : List Byte) (kind : Nat) (w : Source) : State :=
  if bs.length = 0 then s
  else
    let s := s.setCore n (((s.core n).lsPut a bs).markDirty a bs.length)
    s.logPort n a bs.length kind w

/-- A hardware write of thread state or a frame: bytes and the ring, no dirty bit. -/
def State.lsHard (s : State) (n a : Nat) (bs : List Byte) (kind : Nat) (w : Source) : State :=
  let s := s.setCore n ((s.core n).lsPut a bs)
  s.logPort n a bs.length kind w

/-- Hardware writes a range of one region into the region of the thread in slot i, with its poison; the write is logged (R65, R128). -/
def State.copyState (s : State) (n i a b size : Nat) : State :=
  (s.setCore n ((s.core n).lsCopy a b size)).logPort n b size 7 (s.source n i true)

/-- What the trace rings took on the way from a state to another, with their records (R129, R427). -/
def State.arrivalsOf (s s' : State) : State :=
  let s := s'.cores.foldl (fun s x => if (s.core x.1).ring = x.2.ring then s else s.setCore x.1 { s.core x.1 with ring := x.2.ring }) s
  let s := s'.homes.foldl (fun s x => if (s.home x.1).ring = x.2.ring then s else s.setHome x.1 { s.home x.1 with ring := x.2.ring }) s
  s'.clusters.foldl (fun s x =>
    if (s.cluster x.1).errQ = x.2.errQ then s else s.setCluster x.1 { s.cluster x.1 with errQ := x.2.errQ }) s

/-- Bytes of a core's local store. -/
def State.lsBytes (s : State) (n a size : Nat) : List Byte := memRead a size (s.core n).ls

/-- A little-endian number in a core's local store. -/
def State.lsNum (s : State) (n a size : Nat) : Nat := memNum a size (s.core n).ls

/-- The bytes of a list of 64-bit words. -/
def wordBytes (ws : List Word) : List Byte := ws.flatMap (fun w => leBytes 8 w.toNat)

/-- A 64-bit word in a core's local store. -/
def State.lsWord (s : State) (n a : Nat) : Word := BitVec.ofNat 64 (s.lsNum n a 8)

/-! ## The generator (R155) -/

/-- One step of the 64-bit xorshift. -/
def xorshift (x : Word) : Word :=
  let a := x ^^^ (x <<< 13)
  let b := a ^^^ (a >>> 7)
  b ^^^ (b <<< 17)

/-- A state of 0 becomes 1 wherever it is loaded (R155). -/
def loadSrs (x : Word) : Word := if x = 0 then 1 else x

/-- SRS at the start of a task (R156). -/
def startSrs (seed : Word) (score : Nat) (wid : Word) : Word :=
  loadSrs (seed ^^^ (BitVec.ofNat 64 (score * 0x9E3779B97F4A7C15)) ^^^ wid.rotateLeft 32)

/-! ## Failure (R363, R364, R370) -/

/-- The thread stops with a failure that was detected; a wait that it is in is undone in step 1 (R364). -/
def Thread.failWith (t : Thread) (f : FailInfo) : Thread :=
  { t with run := .failing 1, fail := some f, cmp := none, lvq := [], qblock := none, busy := 0, pend := [], accQ := []
           late := none, linkBad := none
           loads := t.loads.map (fun (l : Load) => { l with dead := true }) }

/-- A thread begins to fail; the partner of a pair fails with it under the same record (R370). A failure that hits a halted thread
takes effect when the debugger resumes it (R378). -/
def State.failThread (s : State) (n i : Nat) (f : FailInfo) : State :=
  let go (s : State) (i : Nat) (f : FailInfo) : State :=
    let t := s.thread n i
    let f := { f with wid := t.wid, cyc := (s.core n).cyc }
    s.setThread n i (if t.run = .halted then { t with fail := some (t.fail.getD f) } else t.failWith f)
  match (s.thread n i).pair with
  | 1 => go (go s i f) (i + 8) { f with queued := true }
  | 2 => go (go s (i - 8) f) i { f with queued := true }
  | _ => go s i f

/-- The issuing thread fails with a cause. -/
def State.fail (s : State) (cause : Nat) (pc v1 v2 : Word) : State :=
  s.failThread s.cur.1 s.cur.2 { cause := cause, pc := pc, val1 := v1, val2 := v2, pre := false, queued := false }

/-! ## Traps (R357 to R362) -/

/-- The issuing thread takes a trap: return address, code and value are saved, privilege and queue names change, and the PC goes
to the handler. The slot after it writes the park save area (TRAP_ENTRY). With ACT = 1 or THB.EN = 0 the thread fails. -/
def State.takeTrap (s : State) (code : Nat) (val ret : Word) : State :=
  let t := s.th
  if t.act then
    s.fail 1 t.xpc (BitVec.ofNat 64 (t.xcode.toNat + code % 256 * 256)) val
  else if !s.co.thbEn then
    s.fail 2 t.pc (BitVec.ofNat 64 (code % 256)) val
  else
    s.setTh { t with run := .trapped, xpc := ret, xval := val, xcode := BitVec.ofNat 8 code, ppriv := t.priv, pqmap := t.qmap,
                     act := true, priv := true, qmap := false, walk := none, late := none, phase := 0, reply := none, held := [],
                     regBad := t.regBad.filter (fun r => decide (r ≠ .spr 0x081 ∧ r ≠ .spr 0x082 ∧ r ≠ .spr 0x083)),
                     pc := s.co.thbBase ++ 0#8 }

/-- The numbers of the registers that trap entry saves: s1 to s7, then s24 to s30 (R359). -/
def savedGlobals : List Nat := [1, 2, 3, 4, 5, 6, 7, 24, 25, 26, 27, 28, 29, 30]

/-- The globals as the park save area holds them (R181). -/
def Thread.globals (t : Thread) : List Word := savedGlobals.map (fun n => tblGet 0 n t.glob)

/-- Load the globals from 112 bytes (R181). -/
def Thread.setGlobals (t : Thread) (ws : List Word) : Thread :=
  { t with glob := (savedGlobals.zip ws).foldl (fun g x => tblSet x.1 x.2 g) t.glob
           regBad := t.regBad.filter (fun r => !(savedGlobals.map RegName.s).contains r) }

/-- Registers of a thread are written to its region as words; the granule of a poisoned one is poisoned (R180, R181, R406). -/
def State.saveRegs (s : State) (n i a : Nat) (rs : List RegName) (ws : List Word) : State :=
  let bad := (rs.zipIdx.filter (fun x => (s.thread n i).regBad.contains x.1)).map (fun x => a / 8 + x.2)
  let s := s.lsHard n a (wordBytes ws) 7 (s.source n i true)
  if bad.isEmpty then s else s.setCore n { s.core n with lsBad := addBad (s.core n).lsBad bad }

/-- Words of a byte range of a local store. -/
def State.lsWords (s : State) (n a k : Nat) : List Word := (List.range k).map (fun j => s.lsWord n (a + 8 * j))

/-- The second slot of trap entry: the two blocks of the park save area are written, and the handler may issue (R359). -/
def State.enterHandler (s : State) (n i : Nat) : State :=
  let t := s.thread n i
  let s := s.saveRegs n i t.region (savedGlobals.map .s) t.globals
  s.setThread n i { s.thread n i with run := .running }

/-- Return from a trap (R362): the globals come back from the park save area, PRIV, QMAP and ACT from XCAUSE, PC from XPC. -/
def State.returnTrap (s : State) : State :=
  let t := (s.th).setGlobals (s.lsWords s.cur.1 s.th.region 14)
  s.setTh { t with priv := t.ppriv, qmap := t.pqmap, act := false, pc := t.xpc }

/-! ## Program counter -/

/-- A target or pointer is sign-extended from bit 55 (R113). -/
def canonical (x : Word) : Bool := decide ((x.extractLsb' 0 56).signExtend 64 = x)

/-- The issuing thread goes on after a word of n bytes. -/
def State.advance (s : State) (n : Nat) : State := s.setTh { s.th with pc := s.th.pc + BitVec.ofNat 64 n }

/-- The issuing thread goes on at an address. -/
def State.jump (s : State) (a : Word) : State := s.setTh { s.th with pc := a }

/-- The issuing slot stays empty; the instruction issues again (R34). -/
def State.stalled (s : State) : State := s.setTh { s.th with run := .stalled }

/-! ## Windows (R179 to R182) -/

/-- An opening overflows: a 33rd window, or the window area would meet the inline saves (R182). -/
def Thread.overflows (t : Thread) (saves : Nat) : Bool :=
  decide (31 < t.depth + 1) || decide (0x1000 < 0x140 + 96 * (t.depth + 1) + 64 * (t.inl.length + saves))

/-- XVAL of a window-stack overflow (R360). -/
def Thread.overflowVal (t : Thread) : Word := BitVec.ofNat 64 (t.depth % 32 + t.inl.length % 64 * 256)

/-- An opening needs the oldest resident window spilled first (R180). -/
def Thread.needSpill (t : Thread) : Bool := decide (4 ≤ t.depth + 1 - t.resLo)

/-- A closing reaches a window that is not resident (R180). -/
def Thread.needFill (t : Thread) : Bool := decide (t.depth ≤ t.resLo)

/-- The numbers of the registers that a new window brings: s12 to s23 (R179). -/
def freshWindow : List Nat := [12, 13, 14, 15, 16, 17, 18, 19, 20, 21, 22, 23]

/-- Open a window; its new registers hold free values (R179; log entry 2). -/
def State.openWindow (s : State) : State :=
  let t := { s.th with depth := s.th.depth + 1 }
  let t := freshWindow.foldl (fun t n => t.setSreg n (Config.freeWord s.tick n)) t
  (s.setTh t).bump

/-- Place in the region of a window register: s8 to s11 of a deeper window stand as s20 to s23 of its caller (R181). -/
def winPlace (k n : Nat) : Nat :=
  if k = 0 then 0x80 + 8 * (n - 8)
  else if 12 ≤ n then 0x140 + 96 * (k - 1) + 8 * (n - 12)
  else if k = 1 then 0x80 + 8 * (n + 12 - 8)
  else 0x140 + 96 * (k - 2) + 8 * n

/-- Values of the registers r, r + 1, … of window k. -/
def Thread.winWords (t : Thread) (k r cnt : Nat) : List Word :=
  (List.range' r cnt).map (fun j => tblGet 0 (winIndex k j) t.win)

/-- Write the registers of window k to the region (R180, R181). -/
def State.spillWindow (s : State) (n i k : Nat) : State :=
  let t := s.thread n i
  let rs (r cnt : Nat) : List RegName := (List.range' r cnt).map (fun j => .w (winIndex k j))
  if k = 0 then s.saveRegs n i (t.region + 0x80) (rs 8 16) (t.winWords 0 8 16)
  else
    let s := s.saveRegs n i (t.region + winPlace k 12) (rs 12 12) (t.winWords k 12 12)
    s.saveRegs n i (t.region + winPlace k 8) (rs 8 4) (t.winWords k 8 4)

/-- The places of window k in the region: offset and bytes, s12 to s23 and then s8 to s11, which stand in their caller's place; window
0 is one place (R181). -/
def winParts (k : Nat) : List (Nat × Nat) := if k = 0 then [(0x80, 128)] else [(winPlace k 12, 96), (winPlace k 8, 32)]

/-- A fill of window k reads a poisoned granule: its address (R407). -/
def State.windowBad (s : State) (n base k : Nat) : Option Nat :=
  (winParts k).findSome? (fun p => firstBad (s.core n).lsBad (base + p.1) p.2)

/-- Load registers of window k from the region; its places are read in accesses of at most 64 bytes (R180). -/
def State.fillWindow (s : State) (n i k : Nat) (regs : List Nat) : State :=
  let t := s.thread n i
  let s' := (winParts k).foldl (fun s p => s.logPort n (t.region + p.1) p.2 3 (s.source n i true)) s
  s'.setThread n i { t with win := regs.foldl (fun w r => tblSet (winIndex k r) (s.lsWord n (t.region + winPlace k r)) w) t.win
                            regBad := t.regBad.filter (fun r => !(regs.map (fun j => RegName.w (winIndex k j))).contains r) }

/-- A register of window k waits for a load; its spill waits too. -/
def Thread.windowPends (t : Thread) (k : Nat) : Bool :=
  t.pend.any (fun x => match x.1 with | .w j => decide (12 * k ≤ j ∧ j < 12 * k + 16) | _ => false)

/-- Do the spill or fill that a stalled thread waits for: spill its oldest resident window, or fill the caller's (R180). The caller's s20 to
s23 are s8 to s11 of the present window, and are filled too where that one is not resident. A fill that reads a poisoned granule fails
the thread (R407). -/
def State.serveWindow (s : State) (n i : Nat) : State :=
  let t := s.thread n i
  if t.needSpill && t.windowPends t.resLo then s
  else if t.needSpill then
    let s := s.spillWindow n i t.resLo
    s.setThread n i { s.thread n i with resLo := t.resLo + 1 }
  else if t.needFill && decide (0 < t.depth) then
    let k := t.depth - 1
    match s.windowBad n t.region k with
    | some a => s.failThread n i { cause := 3, pc := t.pc, val1 := BitVec.ofNat 64 a, val2 := 3, pre := false, queued := false }
    | none =>
      let s := s.fillWindow n i k (List.range' 8 (if t.depth < t.resLo then 16 else 12))
      s.setThread n i { s.thread n i with resLo := k }
  else s

/-! ## Epoch (R108) -/

/-- The valid bits of a line's clean bytes are cleared. -/
def Line.dropClean (l : Line) : Line := { l with valid := l.valid &&& l.dirty }

/-- Bump the epoch of a core. -/
def Core.bumpEpoch (c : Core) : Core :=
  let e := c.epoch + 1
  { c with epoch := e, l1 := c.l1.map (fun l => if l.tag = e then l.dropClean else l) }

/-- A line on its way to a core under the epoch that comes round does not enter the L1, and a prefetched line enters it only under the
epoch of its request (R108, R125, R213). -/
def Flight.bumped (f : Flight) (n : Nat) (e : BitVec 8) : Flight :=
  if f.site = n ∧ (f.epoch = e ∨ f.kind = .prefetch true) then { f with stale := true } else f

/-- Fetches of a line that are on their way to a core do not enter its L1. -/
def State.staleFetches (s : State) (n : Nat) (p : Nat → Bool) : State :=
  { s with flights := s.flights.map (fun (f : Flight) => if f.site = n ∧ p f.pa = true then { f with stale := true } else f) }

/-- Bump the epoch of a core by number. -/
def State.bumpEpoch (s : State) (n : Nat) : State :=
  let c := (s.core n).bumpEpoch
  { s.setCore n c with flights := s.flights.map (fun f => f.bumped n c.epoch) }

/-! ## Free slots (R50, R65) -/

/-- The thread is a free slot: no task, not in `wfw` (R50). -/
def Thread.isFree (t : Thread) : Bool := decide (t.run = .free)

/-- Release the slot of a thread and its region; mailbox entries stay (R48, R295). -/
def State.releaseSlot (s : State) (n i : Nat) : State :=
  let t := s.thread n i
  s.setThread n i { t with run := .free, qmap := false, task := {}, inl := [], pend := [], loads := [], accQ := [], cmp := none,
                           lvq := [], pair := 0, phase := 0, reply := none, held := [], due := [], hb := none, walk := none,
                           qblock := none, busy := 0, fail := none, late := none, linkBad := none, act := false, priv := false, depth := 0, resLo := 0 }

/-- A slot goes out of rotation in `wfw`: its region and the registers of R296 stay. -/
def State.restOne (s : State) (n i : Nat) : State :=
  let w := (s.thread n i).wsr
  let s := s.releaseSlot n i
  s.setThread n i { s.thread n i with run := .wfw, wsr := w }

end Sys2Proof.Machine
end

