-- ==== Sys2Proof/Machine/Flags.lean ====
section
/-!
DEFINITION. Flags: their places in FLG, raising them with and without a trap, and the cluster's sticky copy (R160 to R163).
-/

namespace Sys2Proof.Machine

open Sys2Proof

/-- Invalid operation. -/
def fNV : BitVec 6 := 1
/-- Division by zero. -/
def fDZ : BitVec 6 := 2
/-- Overflow. -/
def fOF : BitVec 6 := 4
/-- Underflow. -/
def fUF : BitVec 6 := 8
/-- Inexact. -/
def fNX : BitVec 6 := 16
/-- Invalid code: a ternary byte above 242. -/
def fIC : BitVec 6 := 32

/-- The flag when a condition holds. -/
def flagIf (c : Bool) (f : BitVec 6) : BitVec 6 := if c then f else 0

/-- The sticky flags of FLG. -/
def Thread.flags (t : Thread) : BitVec 6 := t.flg.extractLsb' 0 6

/-- The trap enables of FLG. -/
def Thread.enables (t : Thread) : BitVec 6 := t.flg.extractLsb' 8 6

/-- OR flags into FLG. -/
def Thread.orFlags (t : Thread) (f : BitVec 6) : Thread := { t with flg := t.flg ||| f.zeroExtend 14 }

/-- OR flags into a cluster's sticky copy. -/
def State.stick (s : State) (k : Nat) (f : BitVec 6) : State :=
  if f = 0 then s else s.setCluster k { s.cluster k with stk := (s.cluster k).stk ||| f }

/-- A thread's instruction or engine operation raises flags: FLG and the cluster's sticky copy (R161 to R163). -/
def State.raise (s : State) (n i : Nat) (f : BitVec 6) : State :=
  if f = 0 then s else (s.setThread n i ((s.thread n i).orFlags f)).stick (clusterOf n) f

/-- FLG as a write leaves it: the reserved bits stay 0 (R8, R160). -/
def flgWrite (x : Word) : BitVec 14 := (x &&& 0x3F3F).extractLsb' 0 14

/-- Some raised flag has its enable set (R161). -/
def Thread.trapsOn (t : Thread) (f : BitVec 6) : Bool := decide (t.enables &&& f ≠ 0)

/-- FLU (R163). -/
def State.flu (s : State) (k : Nat) : Word :=
  (s.fluLive k).zeroExtend 64 ||| ((s.cluster k).stk.zeroExtend 64 <<< 8)

end Sys2Proof.Machine
end

