-- ==== Sys2Proof/Machine/Operands.lean ====
section
/-!
DEFINITION. Operands: reading and writing the registers a word names, queue registers among them (R56, R57, R212), predicates and
elements (R173, R226, R227), what every word checks before it acts (R383), and issuing an instruction, alone or in a pair
(R34, R63 to R65, R173, R370).
-/

namespace Sys2Proof.Machine

open Sys2Proof

/-! ## Scalar registers and queues -/

/-- The queue that a scalar register names while QMAP = 1 (R56). -/
def Thread.queueOf (t : Thread) (n : Nat) : Option Nat := if t.qmap ∧ 24 ≤ n ∧ n ≤ 27 then some (n - 24) else none

/-- A queue of a core. -/
def Core.queue (c : Core) (q : Nat) : HwQ := tblGet {} q c.hwq

/-- Replace a queue. -/
def Core.setQueue (c : Core) (q : Nat) (x : HwQ) : Core := { c with hwq := tblSet q x c.hwq }

/-- A leading thread passes a value that it took to its trailing thread (R65). -/
def State.pass (s : State) (v : Word) : State :=
  if s.th.pair = 1 then
    let u := s.thread s.cur.1 (s.cur.2 + 8)
    s.setThread s.cur.1 (s.cur.2 + 8) { u with lvq := u.lvq ++ [(0, some (v.zeroExtend 512))] }
  else s

/-- The oldest value that the leading thread passed, as a scalar. -/
def Thread.passed (t : Thread) : Word :=
  match t.lvq with
  | (_, some v) :: _ => v.extractLsb' 0 64
  | _ => 0

/-- The value that a read of a scalar register gives (R57, R65). -/
def State.peekS (s : State) (n : Nat) : Word :=
  match s.th.queueOf n with
  | none => s.th.sreg s.cur.2 n
  | some q => if s.th.pair = 2 then s.th.passed else (s.co.queue q).items.headD 0

/-- Read a scalar register; a queue register dequeues, and in a trailing thread gives what the leading one took (R57, R65). -/
def State.readS (s : State) (n : Nat) : Word × State :=
  (s.peekS n,
    match s.th.queueOf n with
    | none => s
    | some q =>
      if s.th.pair = 2 then s.setTh { s.th with lvq := s.th.lvq.drop 1 }
      else (s.setCo (s.co.setQueue q { s.co.queue q with items := (s.co.queue q).items.drop 1 })).pass (s.peekS n))

/-- An instruction that waited completes: it takes its queue operands now (R57, R359). -/
def State.takeReads (s : State) (rs : List Nat) : State := rs.foldl (fun s r => (s.readS r).2) s

/-- Write a scalar register; a queue register enqueues, once for a pair (R57, R65). -/
def State.writeS (s : State) (n : Nat) (v : Word) : State :=
  match s.th.queueOf n with
  | none => s.setTh (s.th.setSreg n v)
  | some q =>
    if s.th.pair = 2 then s
    else s.setCo (s.co.setQueue q { s.co.queue q with items := (s.co.queue q).items ++ [v] })

/-- Read a group of registers in ascending order; a group that starts at 0 reads zeros (R288). -/
def State.readGroup (s : State) (d k : Nat) : List Word :=
  if d = 0 then List.replicate k 0 else (List.range' d k).map (fun n => s.th.sreg s.cur.2 n)

/-- Write a group of registers in ascending order (R288). -/
def State.writeGroup (s : State) (d : Nat) (vs : List Word) : State :=
  s.setTh ((vs.zipIdx d).foldl (fun t x => t.setSreg x.2 x.1) s.th)

/-! ## Predicates and elements -/

/-- Element i of w bytes is active under a predicate (R173). -/
def active (p : Word) (w i : Nat) : Bool := p.getLsbD (i * w)

/-- Element i of w bytes of a vector register, as a number (R226). -/
def elem (v : Vec) (w i : Nat) : Nat := (v.toNat / 2 ^ (8 * w * i)) % 2 ^ (8 * w)

/-- A vector from its elements of w bytes, element 0 first (R226). -/
def vecOf (w : Nat) : List Nat → Nat
  | [] => 0
  | x :: t => x % 2 ^ (8 * w) + 2 ^ (8 * w) * vecOf w t

/-- A 512-bit register from its elements. -/
def mkVec (w : Nat) (xs : List Nat) : Vec := BitVec.ofNat 512 (vecOf w xs)

/-- The elements of a register. -/
def elems (v : Vec) (w : Nat) : List Nat := (List.range (64 / w)).map (elem v w)

/-- Operand B of a VA word: a vector register, or a scalar that every element reads (R173, R226). -/
def State.operandB (s : State) (bs : BitVec 1) (b : BitVec 5) (w : Nat) : List Nat × State :=
  if bs = 1 then
    let (x, s) := s.readS b.toNat
    (List.replicate (64 / w) (x.toNat % 2 ^ (8 * w)), s)
  else (elems (s.th.vreg b.toNat) w, s)

/-- The new elements where the predicate is active, the old ones elsewhere (R227). -/
def mergeElems (p : Word) (w : Nat) (old new : List Nat) : List Nat :=
  (old.zip new).zipIdx.map (fun x => if active p w x.2 then x.1.2 else x.1.1)

/-- A predicate with the bits of element i all set where the list is true (R231). -/
def predOf (w : Nat) (xs : List Bool) : Word :=
  BitVec.ofNat 64 ((xs.zipIdx.map (fun x => if x.1 then (2 ^ w - 1) * 2 ^ (w * x.2) else 0)).sum)

/-! ## What a word names -/

/-- What issuing needs to know of a word besides its effect. -/
structure Issue where
  code : Code
  /-- scalar registers read, in operand order, and written -/
  reads : List Nat := []
  writes : List Nat := []
  /-- other registers named as sources, and as destinations -/
  others : List RegName := []
  dests : List RegName := []
  /-- governing predicate of an RG word (R173) -/
  pred : Option Nat := none
  /-- suppressed in reconnaissance mode (R91) -/
  quiet : Bool := false
  /-- its effect passes the comparator of a pair (R64) -/
  effect : Bool := false
  /-- its result passes to the trailing thread (R63, R65) -/
  takes : Bool := false
  /-- the body sets the PC itself -/
  jumps : Bool := false
  /-- the illegal-instruction or privilege trap that the word takes before its operands are looked at (R361, R383) -/
  bars : Option Nat := none
  /-- addresses and data of a store or an atomic, which the comparator compares in place of the registers (R370) -/
  shows : Option (List Word × List Byte) := none
  /-- a governing predicate leaves no byte of the vector destination as it was, so that the word does not read it (R232, R242) -/
  overwrites : Bool := false
  /-- bytes of the vector destination stay under every predicate, so that the word reads it (R240) -/
  keeps : Bool := false
  deriving DecidableEq, Repr

/-- Every register a word names (R34). -/
def Issue.names (k : Issue) : List RegName := k.pred.toList.map .p ++ k.reads.map .s ++ k.writes.map .s ++ k.others ++ k.dests

/-- The register waits for a load; queue registers and the constants never do (R34). -/
def Thread.isPending (t : Thread) (r : RegName) : Bool := t.pend.any (fun x => decide (x.1 = t.abs r))

/-- Some register that the word names is pending (R34, R383). -/
def Thread.blocked (t : Thread) (k : Issue) : Bool := !t.pend.isEmpty && k.names.any t.isPending

/-- The word as a trap value shows it (R360). -/
def Issue.word (k : Issue) : Word := k.code.bits.zeroExtend 64

/-- The illegal-operand trap of a word (R381). -/
def Issue.operand (k : Issue) : Stop := .trap 5 k.word

/-- The slot whose queues a thread uses: a trailing thread has those of its leading one (R65). -/
def State.queueSlot (s : State) : Nat := if s.th.pair = 2 then s.cur.2 - 8 else s.cur.2

/-- A read of queue q by this thread is refused (R307). -/
def State.badRead (s : State) (q : Nat) : Bool := !(s.co.queue q).en || decide ((s.co.queue q).reader ≠ s.queueSlot)

/-- A write of queue q by this thread is refused (R307). -/
def State.badWrite (s : State) (q : Nat) : Bool := !(s.co.queue q).en || decide ((s.co.queue q).writer ≠ s.queueSlot)

/-- How many values a word takes from queue registers. -/
def Issue.dequeues (k : Issue) (t : Thread) : Nat := (k.reads.filterMap t.queueOf).length

/-- The first n values of a trailing thread's queue have arrived. -/
def Thread.hasPassed (t : Thread) (n : Nat) : Bool :=
  decide (n ≤ t.lvq.length) && (t.lvq.take n).all (fun x => x.2.isSome)

/-- What the queue registers of a word lead to: nothing, the operand trap, or a stall on a queue (R57, R307, R383). An instruction
that waits after taking its operands is not checked again. A trailing thread waits for the values that its leading one took (R65). -/
def State.queueCheck (s : State) (k : Issue) : Option Stop :=
  if !s.th.qmap || decide (s.th.phase ≠ 0) then none
  else
    let rs := k.reads.filterMap s.th.queueOf
    let ws := k.writes.filterMap s.th.queueOf
    if rs.any s.badRead || ws.any s.badWrite then some k.operand
    else if s.th.pair = 2 then
      if k.effect || k.takes || s.th.hasPassed (k.dequeues s.th) then none else some (.stall s)
    else
      match rs.find? (fun q => decide ((s.co.queue q).items.length < rs.count q)) with
      | some q => some (.stall (s.setTh { s.th with qblock := some (q, false) }))
      | none =>
        match ws.find? (fun q => decide (8 < (s.co.queue q).items.length - rs.count q + ws.count q)) with
        | some q => some (.stall (s.setTh { s.th with qblock := some (q, true) }))
        | none => none

/-! ## Completing -/

/-- The value of a register, as a pair's queue carries it. -/
def Thread.regValue (t : Thread) (slot : Nat) : RegName → Vec
  | .s n => (t.sreg slot n).zeroExtend 512
  | .v n => t.vreg n
  | .p n => (t.preg n).zeroExtend 512
  | .e n => (t.ereg n).zeroExtend 512
  | .w n => (tblGet 0 n t.win).zeroExtend 512
  | .spr n =>
    if n = 0x010 then t.wid.zeroExtend 512
    else if n = 0x014 then t.rnd.zeroExtend 512
    else if n = 0x015 then t.flg.zeroExtend 512
    else if n = 0x016 then t.srs.zeroExtend 512
    else if n = 0x017 then t.dpat.zeroExtend 512
    else 0

/-- Write a register with a value of a pair's queue. -/
def Thread.setReg (t : Thread) (r : RegName) (v : Vec) : Thread :=
  match r with
  | .s n => t.setSreg n (v.extractLsb' 0 64)
  | .v n => t.setVreg n v
  | .p n => t.setPreg n (v.extractLsb' 0 64)
  | .e n => t.setEreg n (v.extractLsb' 0 64)
  | .w n => { t with win := tblSet n (v.extractLsb' 0 64) t.win, regBad := t.healed (.w n) }
  | .spr _ => t

/-- A trap takes place: an arithmetic one first raises its flags and steps SRS as if its instruction had completed, and spill
exhaustion sets SOVF (R161, R278, R428). -/
def State.enterTrap (s : State) (code : Nat) (val ret : Word) (arith : Option (BitVec 6 × Word)) : State :=
  let s := match arith with
    | some (f, srs) => (s.setTh { s.th with srs := srs }).raise s.cur.1 s.cur.2 f
    | none => s
  let s := if code = 16 then s.setCo { s.co with hive := { s.co.hive with sovf := true } } else s
  s.takeTrap code val ret

/-- A trap that compared equal in both threads of a pair takes place in each; a trailing thread drops what was passed to its instruction
(R370). -/
def State.enterCompared (s : State) (e : PairEffect) : State :=
  (s.setTh { s.th with cmp := none, lvq := if s.th.pair = 2 then [] else s.th.lvq }).enterTrap (e.trap.getD 0) (e.key.getD 2 0) (e.key.getD 1 0) e.arith

/-- The trap that the comparator lets this thread take. -/
def Thread.trapReady (t : Thread) : Option PairEffect :=
  if t.pair = 0 then none
  else
    match t.cmp with
    | some e => if e.go && e.trap.isSome then some e else none
    | none => none

/-- A trap of the issuing thread; in a pair it waits in the comparator first, as its CODE, XPC and XVAL (R370). -/
def State.gateTrap (s : State) (code : Nat) (val ret : Word) (arith : Option (BitVec 6 × Word)) : State :=
  let t := s.th
  if t.pair = 0 then s.enterTrap code val ret arith
  else
    match t.trapReady with
    | some e => s.enterCompared e
    | none =>
      match t.cmp with
      | none =>
        let e : PairEffect := { trap := some code, pc := t.pc, key := [BitVec.ofNat 64 code, ret, val]
                                head := BitVec.ofNat 64 code, go := false, arith := arith }
        s.setTh { t with run := .stalled, cmp := some e }
      | some _ => s.stalled

/-- A trap that returns to its own instruction. -/
def State.trapOr (s : State) (code : Nat) (val : Word) : State := s.gateTrap code val s.th.pc none

/-- A stalled instruction that has not begun, or that waits for its release (phases 10 and 11), gives its queue operands back, and those
that it passed on (R57, R65). -/
def State.undoReads (s' s : State) : State :=
  let s' := s'.setCo { s'.co with hwq := s.co.hwq }
  let n := s.cur.1
  let i := s.cur.2
  if s.th.pair = 1 then s'.setThread n (i + 8) { s'.thread n (i + 8) with lvq := (s.thread n (i + 8)).lvq }
  else if s.th.pair = 2 then s'.setTh { s'.th with lvq := s.th.lvq }
  else s'

/-- What a stop leaves, with traps taken in a given way: `s` is the state at issue. -/
def State.stopBy (s : State) (take : State → Nat → Word → Word → Option (BitVec 6 × Word) → State) (r : Stop) : State :=
  match r with
  | .trap code val => take s code val s.th.pc none
  | .trapTlb tlb code val => let s := s.setCo { s.co with tlb := tlb }; take s code val s.th.pc none
  | .soft code val ret => take s code val ret none
  | .arith f srs => take s 6 (f.zeroExtend 64) s.th.pc (some (f, srs))
  | .stall s' => (if s'.th.phase = 0 ∨ s'.th.phase = 10 ∨ s'.th.phase = 11 then s'.undoReads s else s').stalled
  | .spill val => take s 16 val s.th.pc none
  | .fail cause v1 v2 => s.fail cause s.th.pc v1 v2
  | .failRead s' pc v1 v2 => (s.arrivalsOf s').fail 3 pc v1 v2

/-- What a stop leaves. -/
def State.stop (s : State) (r : Stop) : State := s.stopBy State.gateTrap r

/-- The end of an instruction: its body completed, or stopped. -/
def finish (k : Issue) (s : State) (r : Except Stop State) : State :=
  match r with
  | .ok s' => if k.jumps then s' else s'.advance k.code.bytes
  | .error e => s.stop e

/-- The first poisoned register among some, by the number that the word names it with (R407). -/
def Thread.badAmong (t : Thread) (rs : List RegName) : Option Nat :=
  (rs.find? (fun r => t.regBad.contains (t.abs r))).map (fun r =>
    match r with | .s n => n | .v n => n | .p n => n | .e n => n | .w n => n | .spr n => n)

/-- A poisoned register that is read fails the thread (R407). -/
def State.poisonedIn (s : State) (rs : List RegName) : Option Stop :=
  if s.th.regBad.isEmpty then none
  else (s.th.badAmong rs).map (fun n => .fail 3 0 (BitVec.ofNat 64 (1 + n % 256 * 256)))

/-- The registers whose values a word reads: its sources, and a vector destination of which some bytes stay: those of its inactive
elements, and those outside the chunk that a narrowing conversion writes (R227, R240). -/
def Issue.sources (k : Issue) : List RegName :=
  let merges := k.keeps || !k.overwrites && k.others.any (fun r => match r with | .p g => decide (g ≠ 0) | _ => false)
  k.reads.map .s ++ k.others ++ (if merges then k.dests.filter (fun r => match r with | .v _ => true | _ => false) else [])

/-- A poisoned register among the sources of a word (R407). -/
def State.poisoned (s : State) (k : Issue) : Option Stop := s.poisonedIn k.sources

/-! ## Pairs (R63 to R65, R370) -/

/-- The values that the reads of a word take, in operand order, while nothing is dequeued yet. -/
def State.operandWords (s : State) (rs : List Nat) : List Word :=
  rs.zipIdx.map (fun x =>
    match s.th.queueOf x.1 with
    | none => s.th.sreg s.cur.2 x.1
    | some q => (s.co.queue q).items.getD (((rs.take x.2).filterMap s.th.queueOf).count q) 0)

/-- The words that the comparator compares for an effect: the instruction with the addresses and the data of a store or an atomic, and
with every register it reads of any other (R64, R370). -/
def State.effectKey (s : State) (k : Issue) : List Word :=
  match k.shows with
  | some (as, bs) => k.word :: BitVec.ofNat 64 as.length :: as ++ bs.map (fun b => b.zeroExtend 64)
  | none => k.word :: s.operandWords k.reads ++ k.others.flatMap (fun r =>
      let v := s.th.regValue s.cur.2 r
      (List.range 8).map (fun j => v.extractLsb' (64 * j) 64))

/-- Offer an effect to the comparator and wait (R64). -/
def State.offer (s : State) (k : Issue) : State :=
  let key := s.effectKey k
  let e : PairEffect := match k.shows with
    | some (as, bs) => { trap := none, pc := s.th.pc, key := key, addrs := as, head := BitVec.ofNat 64 (leNat (bs.take 8)), go := false }
    | none => { trap := none, pc := s.th.pc, key := key, head := key.getD 1 (key.headD 0), go := false }
  s.setTh { s.th with run := .stalled, cmp := some e }

/-- The trailing thread's values for a list of registers: taken from the queue when the first of them have all arrived. -/
def takeValues : List RegName → List (Nat × Option Vec) → Option (List Vec × List (Nat × Option Vec))
  | [], q => some ([], q)
  | _ :: t, (_, some v) :: q => match takeValues t q with
    | some (vs, q') => some (v :: vs, q')
    | none => none
  | _ :: _, _ => none

/-- The registers whose values pass through the load-value queue; a queue register takes its value once, from the leading thread. -/
def Issue.results (k : Issue) (t : Thread) : List RegName :=
  (k.writes.filter (fun n => (t.queueOf n).isNone)).map RegName.s ++ k.dests

/-- What a word takes from a trailing thread's queue: the values of its queue operands, which it drops, then its results. -/
def Issue.wanted (k : Issue) (t : Thread) : List RegName := List.replicate (k.dequeues t) (.s 0) ++ k.results t

/-- The leading thread's results enter the trailing thread's queue, a pending one with the load it waits for (R63). -/
def State.pushResults (s : State) (k : Issue) : State :=
  let t := s.th
  let i := s.cur.2 + 8
  let u := s.thread s.cur.1 i
  s.setThread s.cur.1 i { u with lvq := u.lvq ++ (k.results t).map (fun r =>
    match t.pend.find? (fun x => decide (x.1 = t.abs r)) with
    | some (_, id) => (id, none)
    | none => (0, some (t.regValue s.cur.2 r))) }

/-- What an instruction changed from a to b, in u: elsewhere u keeps what it has. -/
def carry {α : Type} [DecidableEq α] (a b u : α) : α := if a = b then u else b

/-- The entries of a table that an instruction changed, in u. -/
def carryTbl {α : Type} [DecidableEq α] (a b u : Tbl α) : Tbl α :=
  ((a ++ b).map (·.1)).foldl (fun u k =>
    if tblFind k a = tblFind k b then u else match tblFind k b with | some x => tblSet k x u | none => tblDel k u) u

/-- The bits that an instruction changed, in u. -/
def carryBits {w : Nat} (a b u : BitVec w) : BitVec w := (u &&& ~~~(a ^^^ b)) ||| (b &&& (a ^^^ b))

/-- The trailing thread u after a compared instruction that its leading thread made, from a to b: what the instruction changed changes in
u, and every other register of u keeps its own value (R64, R65; log entry 36). -/
def Thread.follow (a b u : Thread) : Thread :=
  { u with run := carry a.run b.run u.run, pc := carry a.pc b.pc u.pc, glob := carryTbl a.glob b.glob u.glob
           win := carryTbl a.win b.win u.win, depth := carry a.depth b.depth u.depth, resLo := carry a.resLo b.resLo u.resLo
           vec := carryTbl a.vec b.vec u.vec, prd := carryTbl a.prd b.prd u.prd, ext := carryTbl a.ext b.ext u.ext
           wid := carry a.wid b.wid u.wid, rnd := carry a.rnd b.rnd u.rnd, flg := carryBits a.flg b.flg u.flg
           srs := carry a.srs b.srs u.srs, dpat := carry a.dpat b.dpat u.dpat, acc := carry a.acc b.acc u.acc
           xpc := carry a.xpc b.xpc u.xpc, xval := carry a.xval b.xval u.xval, xcode := carry a.xcode b.xcode u.xcode
           ppriv := carry a.ppriv b.ppriv u.ppriv, pqmap := carry a.pqmap b.pqmap u.pqmap, act := carry a.act b.act u.act
           priv := carry a.priv b.priv u.priv, qmap := carry a.qmap b.qmap u.qmap, stctx := carry a.stctx b.stctx u.stctx
           stctl := carry a.stctl b.stctl u.stctl, task := carry a.task b.task u.task, inl := carry a.inl b.inl u.inl
           regBad := u.regBad.filter (fun r => !a.regBad.contains r || b.regBad.contains r) }

/-- Hardware writes part of the leading thread's region into the trailing one's. -/
def State.copyRegion (s : State) (a b n : Nat) : State := s.copyState s.cur.1 (s.cur.2 + 8) a b n

/-- The 64-byte blocks of a region that differ between two local stores. -/
def changedBlocks (r : Nat) (c d : Core) : List Nat :=
  (List.range 64).filter (fun j => decide (memRead (r + 64 * j) 64 c.ls ≠ memRead (r + 64 * j) 64 d.ls))

/-- After a compared instruction that the leading thread made from the state `s0`, the trailing one follows it, in its registers and in
its region (R65). -/
def State.followTrailing (s s0 : State) : State :=
  let t := s.th
  let i := s.cur.2 + 8
  let u := s.thread s.cur.1 i
  if t.pair = 1 ∧ u.pair = 2 then
    (changedBlocks t.region s0.co s.co).foldl (fun s j => s.copyRegion (t.region + 64 * j) (u.region + 64 * j) 64)
      (s.setThread s.cur.1 i (s0.th.follow t u))
  else s

/-- The trailing thread no longer waits for the compared instruction that its leading one has made. -/
def State.freePartner (s : State) : State :=
  let i := s.cur.2 + 8
  let u := s.thread s.cur.1 i
  if s.th.pair = 1 ∧ u.pair = 2 then
    s.setThread s.cur.1 i { u with cmp := none, lvq := [], phase := 0, reply := none, held := [] }
  else s

/-- A trailing thread that stands where its leading one does: its registers and its task. The leading thread alone has accesses on
their way, hand-backs and a monitor. -/
def Thread.mirror (t u : Thread) : Thread :=
  { t with pair := 2, wsr := u.wsr, gen := u.gen, lvq := [], mbHi := u.mbHi, mbLo := u.mbLo, cmp := none, loads := [], accQ := []
           cntL := 0, cntS := 0, cntC := 0, cntT := 0, due := [], hb := none, walk := none, monHeld := none, monWait := none }

/-- At a hand-back trap the trailing thread is put where its leading one stands: its registers, its task and its region (R370; log entry
36). -/
def State.syncTrailing (s : State) : State :=
  let t := s.th
  let i := s.cur.2 + 8
  let u := s.thread s.cur.1 i
  if t.pair = 1 ∧ u.pair = 2 then
    (s.setThread s.cur.1 i (t.mirror u)).copyRegion t.region u.region 0x1000
  else s

/-- Both threads of a pair take a trap that the leading one met in its effect, each with its own registers (R370). -/
def State.bothTrap (s : State) (code : Nat) (val ret : Word) (arith : Option (BitVec 6 × Word)) : State :=
  let (n, i) := s.cur
  let s' := (s.setTh { s.th with cmp := none }).enterTrap code val ret arith
  let u := s'.thread n (i + 8)
  match u.run with
  | .failing _ => s'
  | _ =>
    { ({ s'.setThread n (i + 8) { u with cmp := none, lvq := [] } with cur := (n, i + 8) }.enterTrap code val ret arith) with
      cur := (n, i) }

/-- The leading thread's compared atomic or Hive instruction took place, from the flags `f0`: the trailing one waits for its value, and
has its flags (R63). -/
def State.releaseTrailing (s : State) (f0 : BitVec 14) : State :=
  let u := s.thread s.cur.1 (s.cur.2 + 8)
  s.setThread s.cur.1 (s.cur.2 + 8) { u with cmp := none, phase := 1, flg := carryBits f0 s.th.flg u.flg }

/-- A trap of the leading thread has not yet waited: the values that its queue operands have go to the trailing thread, which meets the same
trap with them (R65, R370). -/
def State.passOperands (s : State) (k : Issue) (r : Stop) : State :=
  let waits := match r with | .stall _ => true | .fail _ _ _ => true | .failRead _ _ _ _ => true | _ => false
  if waits || s.th.cmp.isSome then s
  else
    let u := s.thread s.cur.1 (s.cur.2 + 8)
    let vs := ((k.reads.zip (s.operandWords k.reads)).filter (fun x => (s.th.queueOf x.1).isSome)).map (fun x => x.2.zeroExtend 512)
    s.setThread s.cur.1 (s.cur.2 + 8) { u with lvq := u.lvq ++ vs.map (fun v => (0, some v)) }

/-- The trailing thread's queue has no room for what a word passes on (R63). -/
def State.passFull (s : State) (k : Issue) : Bool :=
  decide (s.th.phase = 0) &&
    decide (32 < (s.thread s.cur.1 (s.cur.2 + 8)).lvq.length + (if k.takes then (k.wanted s.th).length else k.dequeues s.th))

/-- Issue in the leading thread of a pair. -/
def issueLeading (k : Issue) (s : State) (body : State → Except Stop State) : State :=
  let t := s.th
  if s.passFull k then s.stalled
  else if k.effect then
    match t.cmp with
    | none => s.offer k
    | some e =>
      if !e.go then s.stalled
      else
        match body s with
        | .ok s' =>
          let s' := (if k.jumps then s' else s'.advance k.code.bytes)
          let s' := s'.setTh { s'.th with cmp := none }
          if k.takes then (s'.pushResults k).releaseTrailing t.flg else (s'.followTrailing s).freePartner
        | .error (.stall s') => (s.stopBy State.bothTrap (.stall s')).followTrailing s
        | .error r => s.stopBy State.bothTrap r
  else if k.takes then
    match body s with
    | .ok s' => (if k.jumps then s' else s'.advance k.code.bytes).pushResults k
    | .error r => s.stop r
  else
    match body s with
    | .ok s' => finish k s (.ok s')
    | .error r => (s.passOperands k r).stop r

/-- The trailing thread waits for values; a trap of the leading thread's same instruction is its trap too (R370). -/
def State.awaitValues (s : State) (k : Issue) : State :=
  let t := s.th
  let lead := s.thread s.cur.1 (s.cur.2 - 8)
  match lead.cmp with
  | some e =>
    if e.trap.isSome ∧ lead.pc = t.pc ∧ t.lvq.length < (k.wanted t).length ∧ t.cmp = none then
      s.setTh { t with run := .stalled, cmp := some { e with go := false } }
    else s.stalled
  | none => s.stalled

/-- The trailing thread completes a word with the values that the leading one passed. -/
def State.takePassed (s : State) (k : Issue) : State :=
  let t := s.th
  match takeValues (k.wanted t) t.lvq with
  | none => s.awaitValues k
  | some (vs, q) =>
    let t := ((k.wanted t).zip vs).foldl (fun t x => t.setReg x.1 x.2) { t with lvq := q, phase := 0 }
    (s.setTh t).advance k.code.bytes

/-- Issue in the trailing thread of a pair: values come from the queue, effects wait for the leading thread, whose queue operands an
effect takes. -/
def issueTrailing (k : Issue) (s : State) (body : State → Except Stop State) : State :=
  let t := s.th
  if k.effect && !(k.takes && decide (t.phase = 1)) then
    match t.cmp with
    | none => if k.dequeues t ≠ 0 ∧ (s.thread s.cur.1 (s.cur.2 - 8)).cmp = none then s.stalled else s.offer k
    | some _ => s.stalled
  else if k.takes then s.takePassed k
  else finish k s (body s)

/-! ## Issuing -/

/-- Issue an instruction: pending registers stall it, a false predicate makes it a no-op, reconnaissance may suppress it, its
queue registers are checked, and its body acts (R34, R91, R173, R383). -/
def issueState (k : Issue) (s : State) (body : State → Except Stop State) : State :=
  let s := s.setTh { s.th with run := .running, qblock := none }
  if s.th.blocked k then s.stalled
  else
    match s.th.trapReady, s.poisonedIn (k.pred.toList.map RegName.p) with
    | some e, _ => s.enterCompared e
    | none, some r => s.stop r
    | none, none =>
      if (match k.pred with | some p => !(s.th.preg p).getLsbD 0 | none => false) then s.advance k.code.bytes
      else if k.quiet && s.th.inRecon then s.advance k.code.bytes
      else
        match k.bars with
        | some code => s.stop (.trap code k.word)
        | none =>
          match s.poisoned k with
          | some r => s.stop r
          | none =>
            match s.queueCheck k with
            | some r => s.stop r
            | none =>
              if s.th.pair = 1 then issueLeading k s body
              else if s.th.pair = 2 then issueTrailing k s body
              else finish k s (body s)

/-- Issue an instruction, as an outcome of the step. -/
def issue (k : Issue) (s : State) (body : State → Except Stop State) : Host.Outcome State Fault Refusal :=
  .next (issueState k s body)

end Sys2Proof.Machine
end

