-- ==== Sys2Proof/Machine/Access.lean ====
section
/-!
DEFINITION. Addresses and the issue side of every access: translation through the TLBs (R113 to R117), the physical map and its
faults (R95 to R97, R415), access tables (R331 to R333), the L1 (R106 to R109), and what an instruction sends to another port.
-/

namespace Sys2Proof.Machine

open Sys2Proof

/-! ## Translation -/

/-- A TLB entry holds the page of a virtual address (R117). -/
def TlbEntry.hits (e : TlbEntry) (va : Word) : Bool :=
  e.w0.getLsbD 0 &&
    (if e.w0.getLsbD 1 then decide (e.w0.extractLsb' 25 31 = va.extractLsb' 25 31)
     else decide (e.w0.extractLsb' 16 40 = va.extractLsb' 16 40))

/-- The physical address of a virtual address in an entry's page (R117). -/
def TlbEntry.phys (e : TlbEntry) (va : Word) : Nat :=
  if e.w0.getLsbD 1 then (e.w1.extractLsb' 25 23).toNat * 2 ^ 25 + (va.extractLsb' 0 25).toNat
  else (e.w1.extractLsb' 16 32).toNat * 2 ^ 16 + (va.extractLsb' 0 16).toNat

/-- The set of the cluster TLB that holds an entry (R115). -/
def TlbEntry.set (e : TlbEntry) : Nat :=
  if e.w0.getLsbD 1 then (e.w0.extractLsb' 25 8).toNat else (e.w0.extractLsb' 16 8).toNat

/-- Two entries are for one page: of one size, and equal in the address bits that the size does not ignore (R117). -/
def TlbEntry.samePage (x e : TlbEntry) : Bool :=
  x.w0.getLsbD 1 == e.w0.getLsbD 1 &&
    (if e.w0.getLsbD 1 then decide (x.w0.extractLsb' 25 31 = e.w0.extractLsb' 25 31)
     else decide (x.w0.extractLsb' 16 40 = e.w0.extractLsb' 16 40))

/-- Fill a TLB of a given capacity, least recently filled entry out; a page held already is replaced (R117). -/
def fillTlb (cap : Nat) (l : List TlbEntry) (e : TlbEntry) : List TlbEntry :=
  let l := l.filter (fun x => !x.samePage e)
  (l ++ [e]).drop (l.length + 1 - cap)

/-- Cluster TLB entry of an address: both sets are probed (R115). -/
def Cluster.lookup (c : Cluster) (va : Word) : Option TlbEntry :=
  match (tblGet [] (va.extractLsb' 16 8).toNat c.tlb).find? (fun e => e.hits va) with
  | some e => some e
  | none => (tblGet [] (va.extractLsb' 25 8).toNat c.tlb).find? (fun e => e.hits va)

/-- The permission an access needs: 0 read, 1 write, 2 atomic, 3 fetch (R114, R414). -/
def TlbEntry.allows (e : TlbEntry) (acc : Nat) : Bool :=
  match acc with
  | 0 => e.w0.getLsbD 2
  | 1 => e.w0.getLsbD 3
  | 2 => e.w0.getLsbD 2 && e.w0.getLsbD 3
  | 3 => e.w0.getLsbD 4
  | _ => true

/-- The outcome of a translation. -/
inductive Xlat where
  /-- a physical address, NC, and the state with its TLB fills -/
  | ok (pa : Nat) (nc : Bool) (s : State)
  /-- a fault with its WHY, and the state with its TLB fills (R115, R414) -/
  | fault (why : Nat) (s : State)
  /-- a walk was asked for, or is on its way (R116) -/
  | miss (s : State)
  deriving DecidableEq, Repr

/-- The walks under way are the first 8 requests of a cluster; the others are queued, and beyond 32 wait at the network interface of
their core (R116). -/
def walkContexts : Nat := 8

/-- Ask the translation service core for a walk; a request for a region that is being walked joins the walk (R116). -/
def State.askWalk (s : State) (n who : Nat) (va : Word) : State :=
  let k := clusterOf n
  let c := s.cluster k
  let page := (va.extractLsb' 16 40).toNat
  let join (w : Walk) : Walk := if w.page = page then { w with who := w.who ++ [(n, who)] } else w
  let under := c.walks.take walkContexts
  if c.walks.any (fun w => decide (w.page = page) && w.who.contains (n, who)) then s
  else if under.any (fun w => decide (w.page = page)) then
    s.setCluster k { c with walks := under.map join ++ c.walks.drop walkContexts }
  else s.setCluster k { c with walks := c.walks ++ [{ page := page, who := [(n, who)] }] }

/-- Translate for requester `who` of core n: core TLB, then cluster TLB, then a walk (R113 to R116); physical in site mode (R353). -/
def State.translate (s : State) (n who : Nat) (priv : Bool) (answer : Option (Nat × Nat)) (va : Word) (acc : Nat) : Xlat :=
  if !canonical va then .fault 0 s
  else if s.site then .ok (va.extractLsb' 0 48).toNat true s
  else
    let check (e : TlbEntry) (s : State) : Xlat :=
      if e.w0.getLsbD 6 && !priv then .fault 3 s
      else if !e.allows acc then .fault 2 s
      else .ok (e.phys va) (e.w0.getLsbD 5) s
    match (s.core n).tlb.find? (fun e => e.hits va) with
    | some e => check e s
    | none =>
      match (s.cluster (clusterOf n)).lookup va with
      | some e => check e (s.setCore n { s.core n with tlb := fillTlb 64 (s.core n).tlb e })
      | none =>
        match answer with
        | some (page, why) => if page = (va.extractLsb' 16 40).toNat then .fault why s else .miss (s.askWalk n who va)
        | none => .miss (s.askWalk n who va)

/-- XVAL of a translation fault (R414). -/
def xlatVal (va : Word) (acc why : Nat) : Word :=
  (va.extractLsb' 0 56).zeroExtend 64 ||| BitVec.ofNat 64 (acc * 2 ^ 56 + why * 2 ^ 59)

/-- Translate one address of the issuing thread; a miss stalls it (R116). -/
def State.xlatTh (s : State) (va : Word) (acc : Nat) : Except Stop (Nat × Bool × State) :=
  match s.translate s.cur.1 s.cur.2 s.th.priv s.th.walk va acc with
  | .ok pa nc s' => .ok (pa, nc, s')
  | .fault why s' => .error (.trapTlb s'.co.tlb 13 (xlatVal va acc why))
  | .miss s' => .error (.stall s')

/-- A trap of an instruction that has translated addresses keeps the fills of its core's TLB (R115). -/
def Stop.keepTlb (s : State) : Stop → Stop
  | .trap code val => .trapTlb s.co.tlb code val
  | r => r

/-! ## The physical map (R95) -/

/-- What a physical address reaches. -/
inductive Target where
  | dram
  /-- the local store of the core at a site -/
  | window (site : Nat)
  /-- a fused-off site, in site mode: its router refuses (R353) -/
  | router
  | control
  | storage
  | host
  /-- another package, by index -/
  | peer (d : Nat)
  deriving DecidableEq, Repr

/-- The region of R95 that an offset in a package lies in; none for a hole. -/
def regionOf (o : Nat) : Option Nat :=
  if o < 0x7735940000 then some 0
  else if 0x8000000000 ≤ o ∧ o < 0x8080000000 then some (1 + (o - 0x8000000000) / 0x80000)
  else if 0xA000000000 ≤ o ∧ o < 0xA100000000 then some 5000
  else if 0xA100000000 ≤ o ∧ o < 0xC000000000 then some 5001
  else if 0xC000000000 ≤ o ∧ o < 0x10000000000 then some 5002
  else none

/-- An offset of the control window that R312 lists. -/
def ctrlListed (o : Nat) : Bool :=
  [0x0, 0x8, 0x1000, 0x1008, 0x1010, 0x1018, 0x10080, 0x10088, 0x10090, 0x10098, 0x10180, 0x10188, 0x10200, 0x10208,
   0x20000, 0x20008, 0x20010, 0x3F000, 0x40000, 0x40008, 0x50200, 0x60000].contains o
  || decide (0x1100 ≤ o ∧ o < 0x1300) || decide (0x10000 ≤ o ∧ o < 0x10060) || decide (0x10100 ≤ o ∧ o < 0x10140)
  || decide (0x30000 ≤ o ∧ o < 0x37000 ∧ o % 0x1000 < 0x800) || decide (0x40100 ≤ o ∧ o < 0x40300)
  || decide (0x50000 ≤ o ∧ o < 0x50100) || decide (0x60100 ≤ o ∧ o < 0x60180)
  || decide (0x10000000 ≤ o ∧ o < 0x10100000 ∧ o % 0x1000 < 0x30) || decide (0x20000000 ≤ o ∧ o < 0x20012000 ∧ o % 0x1000 < 0x10)
  || decide (0x20100000 ≤ o ∧ o < 0x20100800)

/-- A block write of R312: a header, a shape record or a firmware request. -/
def blockWrite (o size acc : Nat) : Bool :=
  decide (acc = 1) && (decide (o = 0x10000 ∧ size = 64) || decide (o = 0x10100 ∧ size = 64) || decide (o = 0x10040 ∧ size = 32))

/-- Ranges of LPORT and FWREQ, which take block writes only (R312). -/
def portRange (o : Nat) : Bool := decide (0x10000 ≤ o ∧ o < 0x10060) || decide (0x10100 ≤ o ∧ o < 0x10140)

/-- Decode an access under R95 and R97 in a package; `size` bytes, none of them past a region. Answers the target or a WHY of R415. -/
def State.decodeIn (s : State) (o size acc : Nat) : Except Nat Target :=
  match regionOf o with
  | none => .error 0
  | some r =>
    if regionOf (o + size - 1) ≠ some r then .error 2
    else if r = 0 then .ok .dram
    else if r ≤ 4096 then
      if s.site then
        if 2048 ≤ r - 1 then .error 1
        else if s.fused.contains (r - 1) then .ok .router
        else .ok (.window (r - 1))
      else
        match s.siteOf (r - 1) with
        | some n => if r - 1 < s.encnt then .ok (.window n) else .error 1
        | none => .error 1
    else if acc = 2 then .error 7
    else if r = 5000 then
      let c := o - 0xA000000000
      if blockWrite c size acc then .ok .control
      else if portRange c then .error 3
      else if size ≠ 8 ∨ c % 8 ≠ 0 then .error 3
      else if !ctrlListed c then .error 0
      else .ok .control
    else if r = 5001 then .ok .storage
    else .ok .host

/-- Decode a 48-bit physical address (R95). -/
def State.decodePa (s : State) (pa size acc : Nat) : Except Nat Target :=
  if pa / 2 ^ 40 % 256 ≠ s.scarab.pidx then .ok (.peer (pa / 2 ^ 40 % 256)) else s.decodeIn (pa % 2 ^ 40) size acc

/-- XVAL of a map fault (R415). -/
def mapVal (pa why acc : Nat) (deferred : Bool) : Word :=
  BitVec.ofNat 64 (pa % 2 ^ 48 + why * 2 ^ 48 + acc * 2 ^ 51 + b2n deferred * 2 ^ 53)

/-- The target table of an access (R332). -/
def tableOf (t : Target) : Nat :=
  match t with
  | .dram => 0
  | .window _ => 1
  | .router => 1
  | .control => 2
  | .storage => 3
  | .host => 4
  | .peer _ => 5

/-- An access table lets an access pass (R332, R333). -/
def State.tableAllows (s : State) (t master pa size acc : Nat) : Bool :=
  if !s.enf then true
  else
    let es := (List.range 64).map (fun e => tblGet [] (64 * t + e) s.tables)
    match es.find? (fun e =>
        bit (e.getD 2 0).toNat 23 && decide ((e.getD 0 0).toNat % 2 ^ 48 ≤ pa) && decide (pa + size - 1 ≤ (e.getD 1 0).toNat % 2 ^ 48)) with
    | none => false
    | some e => bit (e.getD 2 0).toNat master && bit (e.getD 2 0).toNat (16 + (if acc = 3 then 0 else acc))

/-- The home of a DRAM address (R98). -/
def homeOf (pa : Nat) : Nat := Nat.xor (Nat.xor (bits pa 8 8) (bits pa 16 8)) (Nat.xor (bits pa 24 8) (bits pa 32 8))

/-- A segment of an access: virtual address, physical address, bytes, NC, target. -/
structure Seg where
  va : Word
  pa : Nat
  size : Nat
  nc : Bool
  tgt : Target
  /-- why the package that serves the whole access refuses it, if it does (R97, R415) -/
  far : Option Nat := none
  deriving DecidableEq, Repr

/-- Why another package refuses an access to one or two of its ranges: it decodes each, and the access may not span two regions or two
window cores (R95, R97). A peer's map is the same (log entry 14). -/
def State.peerWhy (s : State) (acc : Nat) (rs : List (Nat × Nat)) : Option Nat :=
  match rs.map (fun r => s.decodeIn (r.1 % 2 ^ 40) r.2 acc) with
  | .error why :: _ => some why
  | [.ok t, .ok u] => if t = u then none else some 2
  | [.ok _, .error why] => some why
  | _ => none

/-- Translate and decode an access of n bytes that may reach into a second page; every check is made before any byte moves
(R97, R387). Answers its segments. -/
def State.segments (s : State) (va : Word) (n acc : Nat) : Except Stop (List Seg × State) :=
  let left := 0x10000 - (va.extractLsb' 0 16).toNat
  do
    let (pa, nc, s) ← s.xlatTh va acc
    if n ≤ left then
      match s.decodePa pa n acc with
      | .error why => throw (.trapTlb s.co.tlb 14 (mapVal pa why acc false))
      | .ok (.peer d) => pure ([{ va := va, pa := pa, size := n, nc := nc, tgt := .peer d, far := s.peerWhy acc [(pa, n)] }], s)
      | .ok t => pure ([{ va := va, pa := pa, size := n, nc := nc, tgt := t }], s)
    else
      let va2 := va + BitVec.ofNat 64 left
      let (pa2, nc2, s) ← s.xlatTh va2 acc
      let both (t : Target) (far : Option Nat) : List Seg :=
        [{ va := va, pa := pa, size := left, nc := nc, tgt := t, far := far },
         { va := va2, pa := pa2, size := n - left, nc := nc2, tgt := t, far := far }]
      match s.decodePa pa left acc, s.decodePa pa2 (n - left) acc with
      | .ok (.peer d), .ok (.peer e) =>
        if d = e then pure (both (.peer d) (s.peerWhy acc [(pa, left), (pa2, n - left)]), s)
        else throw (.trapTlb s.co.tlb 14 (mapVal pa 2 acc false))
      | .ok t, .ok t2 =>
        if t = t2 then pure (both t none, s) else throw (.trapTlb s.co.tlb 14 (mapVal pa 2 acc false))
      | .error why, _ => throw (.trapTlb s.co.tlb 14 (mapVal pa why acc false))
      | _, .error why => throw (.trapTlb s.co.tlb 14 (mapVal pa2 why acc false))

/-- The access of a segment may be cached in the L1 (R106). -/
def Seg.cached (g : Seg) : Bool :=
  !g.nc && (match g.tgt with | .dram => true | .peer _ => decide (regionOf (g.pa % 2 ^ 40) = some 0) | _ => false)

/-! ## The L1 (R106 to R109) -/

/-- Bytes off to off + n - 1 of a line, as a mask. -/
def byteMask (off n : Nat) : BitVec 64 := BitVec.ofNat 64 ((2 ^ n - 1) * 2 ^ off)

/-- The mask of 512 bits that a mask of 64 bytes selects. -/
def spread (m : BitVec 64) : BitVec 512 :=
  BitVec.ofNat 512 (((List.range 64).map (fun j => if m.getLsbD j then 255 * 2 ^ (8 * j) else 0)).sum)

/-- A mask of granules that a byte mask covers whole. -/
def wholeGranules (m : BitVec 64) : BitVec 8 :=
  BitVec.ofNat 8 (((List.range 8).map (fun g => if (m >>> (8 * g)) &&& 255 = 255 then 2 ^ g else 0)).sum)

/-- A mask of granules that a byte mask touches. -/
def touchedGranules (m : BitVec 64) : BitVec 8 :=
  BitVec.ofNat 8 (((List.range 8).map (fun g => if (m >>> (8 * g)) &&& 255 ≠ 0 then 2 ^ g else 0)).sum)

/-- The line of an address. -/
def Core.line (c : Core) (base : Nat) : Option Line := c.l1.find? (fun l => decide (l.base = base))

/-- Replace a line. -/
def Core.setLine (c : Core) (l : Line) : Core := { c with l1 := c.l1.map (fun x => if x.base = l.base then l else x) }

/-- The line serves a load of some bytes: all valid, each dirty or current (R107). -/
def Core.hit (c : Core) (base off n : Nat) : Bool :=
  match c.line base with
  | none => false
  | some l =>
    let m := byteMask off n
    decide (m &&& l.valid = m) && (decide (l.tag = c.epoch) || decide (m &&& l.dirty = m))

/-- Bytes of a line. -/
def Line.bytes (l : Line) (off n : Nat) : List Byte := (List.range' off n).map (fun j => l.data.extractLsb' (8 * j) 8)

/-- A line's dirty bytes, as a masked write (R109). -/
def Line.dirtyBytes (l : Line) : List (Option Byte) :=
  (List.range 64).map (fun j => if l.dirty.getLsbD j then some (l.data.extractLsb' (8 * j) 8) else none)

/-- The write-back of a line on its way, for slot i of core n (R109). -/
def Line.homeward (l : Line) (id n i : Nat) (t : Thread) : Flight :=
  { kind := .writeback, stage := .request, site := n, slot := i, gen := t.gen.toNat, grp := id, place := 0, va := 0, pa := l.base
    size := 64, data := l.dirtyBytes, bad := l.bad &&& touchedGranules l.dirty, writers := l.writers, inS := true, epoch := 0
    priv := t.priv, nc := false, pc := t.pc, word := 0, acq := false }

/-- The access fetches a line for the L1. -/
def Flight.fetches (f : Flight) : Bool := match f.kind with | .fill => true | .prefetch l1 => l1 | _ => false

/-- A line's dirty bytes, with their poison, over those that a fetch of it carries already. -/
def Line.overlay (l : Line) (newer : List (Option (Byte × Bool))) : List (Option (Byte × Bool)) :=
  (List.range 64).map (fun j =>
    if l.dirty.getLsbD j then some (l.data.extractLsb' (8 * j) 8, l.bad.getLsbD (j / 8)) else newer.getD j none)

/-- A write-back leaves while a fetch of its line is on its way: what is fetched does not replace what was stored (R107, R123). -/
def Flight.passedBy (f : Flight) (n : Nat) (l : Line) : Flight :=
  if f.site = n ∧ f.pa = l.base ∧ f.fetches = true then { f with newer := l.overlay f.newer } else f

/-- A write-back sets out. -/
def State.sendHome (s : State) (n : Nat) (l : Line) (f : Flight) : State :=
  { s with flights := s.flights.map (fun g => g.passedBy n l) ++ [f] }

/-- Send the write-back of a line, counted in S of thread i (R109, R187). -/
def State.sendWriteback (s : State) (n i : Nat) (l : Line) : State :=
  let (id, s) := s.fresh
  let t := s.thread n i
  (s.setThread n i { t with cntS := t.cntS + 1 }).sendHome n l (l.homeward id n i t)

/-- Send the write-back of a line that no thread counts: for a thief, or for a prefetched line (R51, R213). -/
def State.sendUncounted (s : State) (n : Nat) (l : Line) : State :=
  let (id, s) := s.fresh
  s.sendHome n l (l.homeward id n 16 {})

/-- Write back one line: the line stays valid and becomes clean (R109). -/
def State.cleanLine (s : State) (n i : Nat) (l : Line) : State :=
  let s := s.sendWriteback n i l
  s.setCore n ((s.core n).setLine { l with dirty := 0, writers := 0 })

/-- Write back lines one at a time while S has room; answers whether all were sent (R187). -/
def State.cleanLines (s : State) (n i : Nat) : List Line → State × Bool
  | [] => (s, true)
  | l :: t =>
    if l.dirty = 0 then s.cleanLines n i t
    else if 1023 ≤ (s.thread n i).cntS then (s, false)
    else (s.cleanLine n i l).cleanLines n i t

/-- Write back the lines whose writer mask holds a slot (R109). -/
def State.cleanSlot (s : State) (n i : Nat) : State × Bool :=
  s.cleanLines n i ((s.core n).l1.filter (fun l => l.writers.getLsbD i))

/-- Write back every dirty line of a core (R109). -/
def State.cleanAll (s : State) (n i : Nat) : State × Bool := s.cleanLines n i (s.core n).l1

/-- No write-back that carries a store of the slot is on its way, whichever thread counts it: the edges that a thread's release, its park
or its end makes hold for stores that a sibling or a thief wrote back (R121, R135, R138). -/
def State.storesHome (s : State) (n i : Nat) : Bool := !s.flights.any (fun f => decide (f.site = n) && f.writers.getLsbD i)

/-- The thread is write-settled: no write-back, store or reduction of it is unacknowledged (R450). -/
def State.settled (s : State) (n i : Nat) : Bool :=
  !s.flights.any (fun f => decide (f.site = n ∧ f.slot = i) && f.inS) && s.storesHome n i

/-- Make room for a line: a set of 8 takes one with no valid byte, else one that the implementation chooses, which writes its
dirty bytes back (R106, R107; log entry 2). None when S of thread i has no room for the write-back; a prefetch, numbered 16, raises no
counter (R213). -/
def State.makeRoom (s : State) (n i base : Nat) : Option State :=
  let c := s.core n
  let set := c.l1.filter (fun l => decide (l.base / 64 % 128 = base / 64 % 128))
  if set.length < 8 then some s
  else
    match (match set.find? (fun l => decide (l.valid = 0)) with
           | some l => some l
           | none => set[Config.freeChoice s.tick % set.length]?) with
    | none => some s
    | some v =>
      let drop (s : State) : State := s.setCore n { s.core n with l1 := (s.core n).l1.filter (fun l => decide (l.base ≠ v.base)) }
      if v.dirty = 0 then some (drop s).bump
      else if 16 ≤ i then some (drop (s.sendUncounted n v)).bump
      else if 1023 ≤ (s.thread n i).cntS then none
      else some (drop (s.sendWriteback n i v)).bump

/-- A line with no byte valid. -/
def emptyLine (base : Nat) (tag : BitVec 8) : Line :=
  { base := base, data := 0, valid := 0, dirty := 0, writers := 0, tag := tag, bad := 0 }

/-- Store bytes into a line (R107). -/
def Line.store (l : Line) (epoch : BitVec 8) (slot off : Nat) (bs : List Byte) : Line :=
  let m := byteMask off bs.length
  let l := if l.tag = epoch then l else { l with valid := l.valid &&& l.dirty, tag := epoch }
  let d : BitVec 512 := BitVec.ofNat 512 (leNat bs * 2 ^ (8 * off))
  { l with data := (l.data &&& ~~~(spread m)) ||| d, valid := l.valid ||| m, dirty := l.dirty ||| m
           writers := l.writers ||| BitVec.ofNat 16 (2 ^ slot), bad := l.bad &&& ~~~(wholeGranules m) }

/-- Store bytes of one line through the L1; none when a write-back must wait for S (R107, R187). -/
def State.storeLine (s : State) (n i base off : Nat) (bs : List Byte) : Option State :=
  match (s.core n).line base with
  | some l => some (s.setCore n ((s.core n).setLine (l.store (s.core n).epoch i off bs)))
  | none =>
    match s.makeRoom n i base with
    | none => none
    | some s =>
      let c := s.core n
      some (s.setCore n { c with l1 := c.l1 ++ [(emptyLine base c.epoch).store c.epoch i off bs] })

/-- Install fetched bytes: every byte that is not dirty takes the fetched value (R107). -/
def Line.fill (l : Line) (tag : BitVec 8) (d : BitVec 512) (bad : BitVec 8) : Line :=
  { l with data := (l.data &&& spread l.dirty) ||| (d &&& ~~~(spread l.dirty)), valid := BitVec.allOnes 64, tag := tag
           bad := (l.bad &&& touchedGranules l.dirty) ||| (bad &&& ~~~(wholeGranules l.dirty)) }

/-- The parts of an access that fall into 64-byte lines: line base, offset, length, place in the access. -/
def lineParts : Nat → Nat → Nat → Nat → List (Nat × Nat × Nat × Nat)
  | 0, _, _, _ => []
  | fuel + 1, a, n, place =>
    if n = 0 then []
    else
      let k := min n (64 - a % 64)
      (a / 64 * 64, a % 64, k, place) :: lineParts fuel (a + k) (n - k) (place + k)

/-! ## Loads: assembling a value (R34, R90, R211) -/

/-- The value of a load from its bytes (R210, R215). -/
def LoadExt.value (e : LoadExt) (m : Memory) : Word :=
  match e with
  | .signed w => extS w (memNum 0 (w / 8) m)
  | .unsigned w => extZ w (memNum 0 (w / 8) m)
  | .vector => 0

/-- A vector register with the loaded bytes in their places (R246). -/
def loadVector (old : Vec) (m : Memory) (places : List (Nat × Nat)) : Vec :=
  places.foldl (fun v p =>
    let mask := spread (byteMask p.1 p.2)
    (v &&& ~~~mask) ||| BitVec.ofNat 512 (memNum p.1 p.2 m * 2 ^ (8 * p.1))) old

/-- The value that a load gives a register whose old value is known (R210, R215, R246). -/
def LoadExt.result (e : LoadExt) (old : Vec) (m : Memory) (places : List (Nat × Nat)) : Vec :=
  match e with
  | .vector => loadVector old m places
  | e => (e.value m).zeroExtend 512

/-- One update of ACC (R90). -/
def accStep (acc addr val : Word) : Word := ((acc.rotateLeft 5) ^^^ addr ^^^ val) * 0x9E3779B97F4A7C15

/-- Apply the updates at the head of the queue whose values have arrived (R90). -/
def drainAcc : Word → List (Word × Option Word × Nat × Nat) → Word × List (Word × Option Word × Nat × Nat)
  | a, [] => (a, [])
  | a, (addr, some v, _) :: t => drainAcc (accStep a addr v) t
  | a, q => (a, q)

/-- ACC after the queue's head is applied. -/
def Thread.drain (t : Thread) : Thread :=
  let (a, q) := drainAcc t.acc t.accQ
  { t with acc := a, accQ := q }

/-- Write the value of a load that has all its bytes: the register, ACC, L and a pair's queue (R34, R63, R90, R136). -/
def State.completeLoad (s : State) (n i : Nat) (l : Load) : State :=
  let t := s.thread n i
  let t := { t with loads := t.loads.filter (fun x => decide (x.id ≠ l.id))
                    pend := t.pend.filter (fun x => decide (x.2 ≠ l.id))
                    cntL := if l.counted then t.cntL - 1 else t.cntL }
  let arrived (x : Word × Option Word × Nat × Nat) : Word × Option Word × Nat × Nat :=
    if x.2.2.1 = l.id then
      match l.elems.find? (fun (e : Word × Nat × Nat) => decide (e.2.1 = x.2.2.2)) with
      | some e => (x.1, some (BitVec.ofNat 64 (memNum e.2.1 e.2.2 l.got)), x.2.2)
      | none => x
    else x
  let t := { t with accQ := t.accQ.map arrived }
  let t := t.drain
  if l.dead then s.setThread n i t
  else
    let v := l.ext.result (match l.dst with | .v r => t.vreg r | _ => 0) l.got (l.elems.map (·.2))
    let s := if l.toQueue then s.setThread n i { t with reply := some l.id, held := [v.extractLsb' 0 64] }
             else s.setThread n i (t.setReg l.dst v)
    let s := if l.acq then s.bumpEpoch n else s
    if t.pair = 1 then
      let u := s.thread n (i + 8)
      let u := if u.pend.any (fun x => decide (x.2 = l.id)) then
          { u.setReg l.dst v with pend := u.pend.filter (fun x => decide (x.2 ≠ l.id)) } else u
      s.setThread n (i + 8) { u with lvq := u.lvq.map (fun x => if x.1 = l.id ∧ x.2 = none then (0, some v) else x) }
    else s

/-- Bytes arrive for a load; with the last of them it completes. -/
def State.deliver (s : State) (n i id place : Nat) (bs : List Byte) : State :=
  let t := s.thread n i
  match t.loads.find? (fun l => decide (l.id = id)) with
  | none => s
  | some l =>
    let l := { l with got := memWrite place bs l.got, waiting := l.waiting - 1 }
    if l.waiting = 0 then s.completeLoad n i l
    else s.setThread n i { t with loads := t.loads.map (fun x => if x.id = id then l else x) }

/-- Bytes that are at hand go into a load without counting as a piece. -/
def Load.take (l : Load) (place : Nat) (bs : List Byte) : Load := { l with got := memWrite place bs l.got }

/-- A flight of the issuing thread. -/
def State.mkFlight (s : State) (k : FlightKind) (grp place : Nat) (va : Word) (pa size : Nat) (data : List (Option Byte))
    (inS nc : Bool) (word : BitVec 32) : Flight :=
  { kind := k, stage := .request, site := s.cur.1, slot := s.cur.2, gen := s.th.gen.toNat, grp := grp, place := place, va := va
    pa := pa, size := size, data := data, bad := 0, inS := inS, epoch := s.co.epoch, priv := s.th.priv, nc := nc, pc := s.th.pc
    word := word, acq := false }

/-- Send an access. -/
def State.send (s : State) (f : Flight) : State := { s with flights := s.flights ++ [f] }

end Sys2Proof.Machine
end

