-- ==== Sys2Proof/Machine/Port.lean ====
section
/-!
DEFINITION. What the ports outside a core hold and do: bytes of DRAM at the homes, of local stores, of companion memory, poison and
trace rings (R95 to R99, R124, R126 to R129, R406), the masters of accesses (R331) and the device's own writes to DRAM.
-/

namespace Sys2Proof.Machine

open Sys2Proof

/-! ## Masters (R331) -/

/-- The master of a thread's accesses and of the engine operations it submits. -/
def masterOf (priv : Bool) : Nat := if priv then 1 else 0

/-! ## Links (R328, R329) -/

/-- A link of the fabric. -/
def State.link (s : State) (l : Nat) : Link := tblGet {} l s.links

/-- A link toward package d is up (R328, R329). -/
def State.reachable (s : State) (d : Nat) : Bool :=
  (List.range 18).any (fun l => bit (tblGet 0 d s.froute) l && decide ((s.link l).st = 2))

/-- The link that a flow takes: one of lowest COST among those that are up toward package d, by a fixed hash in which each counts WIDTH
times (R329, R440). -/
def State.flowLink (s : State) (n d h : Nat) : Option Nat :=
  let up := (List.range 18).filter (fun l => bit (tblGet 0 d s.froute) l && decide ((s.link l).st = 2))
  let least := up.foldl (fun m l => min m (s.link l).cost) 255
  let ws := (up.filter (fun l => decide ((s.link l).cost = least))).flatMap (fun l => List.replicate (s.link l).width l)
  ws[Config.flowHash n (256 * d + h) % ws.length]?

/-- The present instruction of the thread has waited 1 ms for a path (R440). -/
def Thread.isLate (t : Thread) : Bool := decide (t.late = some t.pc)

/-- A read that a thread or an engine waits for cannot leave now: no link toward its package is up, and it has not waited 1 ms for one, or
the Ulisil link retrains (R432, R440). -/
def State.pathHeld (s : State) (late : Bool) (pa : Nat) : Bool :=
  let d := pa / 2 ^ 40 % 256
  if d = s.scarab.pidx then s.ulisil.retraining && decide (regionOf (pa % 2 ^ 40) = some 5002) else !s.reachable d && !late

/-- The payload of an access of core n crosses the structure of a code: 9 the mesh, 11 the Ulisil link, 12 the fabric (R405, R431). -/
def State.crosses (s : State) (n code pa : Nat) : Bool :=
  let r := regionOf (pa % 2 ^ 40)
  if pa / 2 ^ 40 % 256 ≠ s.scarab.pidx then decide (code = 12)
  else if r = some 5002 then decide (code = 11)
  else decide (code = 9) && (decide (r = some 0) || r.any (fun k => decide (0 < k ∧ k ≤ 4096 ∧ s.siteOf (k - 1) ≠ some n)))

/-! ## Bytes by target -/

/-- Where the model keeps a DRAM byte: the own package by its offset, a peer's by its 48-bit address beyond it (R95). -/
def State.dramKey (s : State) (pa : Nat) : Nat := if pa / 2 ^ 40 % 256 = s.scarab.pidx then pa % 2 ^ 40 else 2 ^ 48 + pa % 2 ^ 48

/-- The companion address of a host-window address (R95, R321). -/
def State.hostAddr (s : State) (pa : Nat) : Nat := s.port.hwbase + (pa % 2 ^ 40 - 0xC000000000)

/-- A writer or reader that is no thread: the fields that would name one are free values (R128; log entry 2). -/
def State.outsider (s : State) : Source :=
  { own := false, core := Config.freeChoice s.tick % 0x1000, slot := Config.freeChoice s.tick % 16
    gen := Config.freeChoice s.tick % 0x10000, cyc := Config.freeChoice s.tick % 2 ^ 32 }

/-- The hardware of a core, as the trace ring shows it where no thread makes an access; SLOT and GEN are free (R128; log entry 27). -/
def State.coreSource (s : State) (n : Nat) : Source := { s.outsider with own := true, core := (s.core n).lcore }

/-- The structure in which a poisoned byte of a home is met: its cache or DRAM, which the model does not tell apart (R405, R407; log
entry 2). -/
def State.homeCode (s : State) : Nat := 4 + Config.freeChoice s.tick % 2

/-- Bytes of DRAM, without an arrival at a home. -/
def State.dramPeek (s : State) (pa n : Nat) : List Byte := memRead (s.dramKey pa) n s.dram

/-- A little-endian number in DRAM, without an arrival. -/
def State.dramNum (s : State) (pa n : Nat) : Nat := leNat (s.dramPeek pa n)

/-- The bytes of a masked write that cover whole granules clear their poison (R406). -/
def clearMasked (bad : List Nat) (a : Nat) (bs : List (Option Byte)) : List Nat :=
  bad.filter (fun g => !(decide (a ≤ 8 * g ∧ 8 * g + 8 ≤ a + bs.length)
    && ((bs.drop (8 * g - a)).take 8).all (fun b => b.isSome)))

/-- A read that arrives at a home (R99, R126). -/
def State.dramRead (s : State) (pa n kind : Nat) (w : Source) : List Byte × Bool × State :=
  let k := s.dramKey pa
  (memRead k n s.dram, anyBad s.dramBad k n, s.logHome (homeOf (pa % 2 ^ 40)) pa n kind w)

/-- A masked write that arrives at a home; `poison` marks granules of the data that arrive poisoned (R124, R406). -/
def State.dramWrite (s : State) (pa : Nat) (bs : List (Option Byte)) (poison : List Nat) (kind : Nat) (w : Source) : State :=
  let k := s.dramKey pa
  let s := { s with dram := memWriteMasked k bs s.dram, dramBad := addBad (clearMasked s.dramBad k bs) (poison.map (fun g => k / 8 + g)) }
  s.logHome (homeOf (pa % 2 ^ 40)) pa bs.length kind w

/-- The table that decides an access of the device itself to DRAM: the homes', or that of outbound traffic (R332). -/
def State.dramTable (s : State) (pa : Nat) : Nat := if pa / 2 ^ 40 % 256 = s.scarab.pidx then 0 else 5

/-- No piece of a write, or read, of the device itself is refused (R333). -/
def State.devMay (s : State) (master pa n acc : Nat) : Bool :=
  (pieces n pa n).all (fun p => s.tableAllows (s.dramTable pa) master p.1 p.2 acc)

/-- A write of the device itself to DRAM under a master: records, reports, quotes, queue entries; a piece that the homes' table refuses
writes nothing (R331, R333; log entry 31). -/
def State.devWrite (s : State) (master pa : Nat) (bs : List Byte) : State :=
  (pieces bs.length pa bs.length).foldl (fun s p =>
    if s.tableAllows (s.dramTable pa) master p.1 p.2 1 then s.dramWrite p.1 (((bs.drop (p.1 - pa)).take p.2).map some) [] 0 s.outsider else s) s

/-- A read of DRAM by the device itself under a master, as it arrives at the homes; the bytes of a piece that their table refuses are
free values (R331, R333; log entries 2, 31). -/
def State.devRead (s : State) (master pa n : Nat) : List Byte × State :=
  (pieces n pa n).foldl (fun (acc : List Byte × State) p =>
    let (bs, _, t) := acc.2.dramRead p.1 p.2 3 acc.2.outsider
    if s.tableAllows (s.dramTable pa) master p.1 p.2 0 then (acc.1 ++ bs, t)
    else (acc.1 ++ (List.range p.2).map (fun j => Config.freeByte acc.2.tick j), acc.2.bump)) ([], s)

/-- A whole range lies in DRAM. -/
def inDram (pa n : Nat) : Bool := decide (regionOf (pa % 2 ^ 40) = some 0) && decide (regionOf (pa % 2 ^ 40 + n - 1) = some 0)

/-- A physical address of the package's control window. -/
def State.ctrlPa (s : State) (off : Nat) : Nat := s.scarab.pidx * 2 ^ 40 + 0xA000000000 + off

/-- The physical address of a byte of a core's local store in the window (R96). -/
def State.windowPa (s : State) (n a : Nat) : Nat := s.scarab.pidx * 2 ^ 40 + 0x8000000000 + (s.core n).lcore * 0x80000 + a

/-! ## Reports and records (R318, R369) -/

/-- Queue a report record. -/
def State.report (s : State) (r : Report) : State := { s with port := { s.port with reports := s.port.reports ++ [r] } }

/-- The 64 bytes of an error record (R367). -/
def ErrRec.bytes (r : ErrRec) : List Byte :=
  leBytes 1 r.kind ++ leBytes 1 r.cause ++ leBytes 1 r.lnch ++ leBytes 1 r.fl ++ leBytes 2 (r.core % 0x1000) ++ leBytes 1 (r.slot % 16)
    ++ leBytes 1 0 ++ leBytes 2 r.gen ++ leBytes 6 0 ++ leBytes 8 r.pc.toNat ++ leBytes 8 r.val1.toNat ++ leBytes 8 r.val2.toNat
    ++ leBytes 8 r.wid.toNat ++ leBytes 8 r.seq ++ leBytes 8 r.cyc

/-- The 16 bytes of a report record (R318). -/
def Report.bytes (r : Report) : List Byte :=
  leBytes 1 r.kind ++ leBytes 1 r.lnch ++ leBytes 1 (r.code % 256) ++ leBytes 1 (r.code / 256) ++ leBytes 4 r.lseq ++ leBytes 8 r.value.toNat

/-- The error queue of a cluster in the package's DRAM (R369). -/
def State.errQueue (s : State) (k : Nat) : Nat := s.scarab.pidx * 2 ^ 40 + 0x7735840000 + 0x2000 * k

/-- The queue has no room as far as the cluster knows (R369). -/
def Cluster.errFull (c : Cluster) : Bool := decide (c.errHead + 64 ≤ c.errTail)

/-- The oldest record that waits is written, and then TAIL (R369). -/
def State.writeRecord (s : State) (k : Nat) : State :=
  let c := s.cluster k
  match c.errQ with
  | [] => s
  | r :: _ =>
    if c.errFull || !s.devMay 1 (s.errQueue k + 64 * (c.errTail % 64)) 64 1 then s
    else
      let s := s.devWrite 1 (s.errQueue k + 64 * (c.errTail % 64)) r.bytes
      let s := s.setCluster k { s.cluster k with errQ := (s.cluster k).errQ.drop 1, errTail := c.errTail + 1 }
      s.devWrite 1 (s.errQueue k + 0x1000) (leBytes 8 (c.errTail + 1))

/-- A full queue's HEAD is read again (R369). -/
def State.pollHead (s : State) (k : Nat) : State :=
  if (s.cluster k).errFull && s.devMay 1 (s.errQueue k + 0x1008) 8 0 then
    let (bs, s) := s.devRead 1 (s.errQueue k + 0x1008) 8
    s.setCluster k { s.cluster k with errHead := leNat bs }
  else s

/-- A record that is queued now can be written at once. -/
def State.recordsFlow (s : State) (k : Nat) : Bool := (s.cluster k).errQ.isEmpty && !(s.cluster k).errFull

/-- A record of the package's edges: the Ulisil link, the Molt and links 0 to 8 on the west die, the rest on the east (R430). -/
def State.edgeRec (s : State) (east : Bool) (kind cause : Nat) (v1 v2 : Word) : State :=
  s.record (if east then 64 else 0) { bareRec kind cause v1 v2 with cyc := 0 }

/-! ## Live launches -/

/-- No launch is live (R321, R451). -/
def State.noLaunch (s : State) : Bool := s.launches.isEmpty

/-- The package answers host accesses: powered, not in the fatal state, the link up and not retraining (R432, R433, R448). -/
def State.hostUp (s : State) : Bool := s.on && s.fatal.isNone && s.ulisil.up && !s.ulisil.retraining

/-- Cores whose site lies in the clusters of a rectangle. -/
def State.coresIn (s : State) (ks : List Nat) : List Nat := ks.flatMap s.coresOf

end Sys2Proof.Machine
end

