-- ==== Sys2Proof/Machine/Float.lean ====
section
/-!
DEFINITION. Floating-point formats and arithmetic (R143 to R146, R150 to R154). A finite value is kept exactly as a sign, a whole
number and a power of two, with one bit for what a division or a square root leaves below it; rounding works on the codes
of a format, whose order is that of the magnitudes.
-/

namespace Sys2Proof.Machine

open Sys2Proof

/-- A floating-point format: exponent and fraction widths, bias, greatest finite code, infinity, and how NaN is coded (R143). -/
structure Fmt where
  w : Nat
  m : Nat
  bias : Nat
  /-- code of the greatest finite magnitude -/
  top : Nat
  inf : Option Nat
  /-- code of the canonical NaN (R145) -/
  nan : Option Nat
  deriving DecidableEq, Repr

/-- A format with infinity and NaN as FP64 has them. -/
def ieee (w m : Nat) : Fmt :=
  { w := w, m := m, bias := 2 ^ (w - 1) - 1, top := (2 ^ w - 1) * 2 ^ m - 1, inf := some ((2 ^ w - 1) * 2 ^ m)
    nan := some ((2 ^ w - 1) * 2 ^ m + 2 ^ (m - 1)) }

def fp64 : Fmt := ieee 11 52
def fp32 : Fmt := ieee 8 23
def fp16 : Fmt := ieee 5 10
def bf16 : Fmt := ieee 8 7
def e5m2 : Fmt := ieee 5 2
def e4m3 : Fmt := { w := 4, m := 3, bias := 7, top := 0x7E, inf := none, nan := some 0x7F }
def e3m2 : Fmt := { w := 3, m := 2, bias := 3, top := 0x1F, inf := none, nan := none }
def e2m3 : Fmt := { w := 2, m := 3, bias := 1, top := 0x1F, inf := none, nan := none }
def e2m1 : Fmt := { w := 2, m := 1, bias := 1, top := 0x7, inf := none, nan := none }

/-- Bits of a format. -/
def Fmt.size (f : Fmt) : Nat := 1 + f.w + f.m

/-- Exponent of the least subnormal. -/
def Fmt.emin (f : Fmt) : Int := 1 - (f.bias : Int) - (f.m : Int)

/-- What a code stands for. -/
inductive FVal where
  | nan (signalling : Bool)
  | inf (neg : Bool)
  /-- (-1)^neg * n * 2^e -/
  | fin (neg : Bool) (n : Nat) (e : Int)
  deriving DecidableEq, Repr

/-- Read a code (R143, R145). -/
def Fmt.read (f : Fmt) (x : Nat) : FVal :=
  let mag := x % 2 ^ (f.w + f.m)
  let neg := bit x (f.w + f.m)
  if f.top < mag then
    if f.inf = some mag then .inf neg
    else .nan (f.inf.isSome && !bit mag (f.m - 1))
  else
    let e := mag / 2 ^ f.m
    if e = 0 then .fin neg mag f.emin else .fin neg (mag % 2 ^ f.m + 2 ^ f.m) (f.emin + (e : Int) - 1)

/-- A code with a sign. -/
def Fmt.code (f : Fmt) (neg : Bool) (mag : Nat) : Nat := mag + b2n neg * 2 ^ (f.w + f.m)

/-- The canonical NaN; +0 in a format without NaN (R145, R153). -/
def Fmt.nanCode (f : Fmt) : Nat := f.nan.getD 0

/-- Infinity, or the greatest finite value in a format without infinity (R153). -/
def Fmt.infCode (f : Fmt) (neg : Bool) : Nat := f.code neg (f.inf.getD f.top)

/-- Number of bits of a whole number. -/
def bitLen (n : Nat) : Nat := if n = 0 then 0 else Nat.log2 n + 1

/-- The mode takes the larger magnitude: the remainder is rem / d with a sticky bit below, `odd` the last kept bit, r the random
number of stochastic rounding (R150, R154). -/
def roundsUp (mode r : Nat) (neg odd : Bool) (rem d : Nat) (sticky : Bool) : Bool :=
  let inexact := decide (rem ≠ 0) || sticky
  match mode with
  | 0 => decide (d < 2 * rem) || (decide (2 * rem = d) && (sticky || odd))
  | 1 => false
  | 2 => inexact && !neg
  | 3 => inexact && neg
  | 4 => decide (d ≤ 2 * rem)
  | _ => decide (r < rem * 2 ^ 16 / d)

/-- n * 2^e cut at the exponent q: the whole part, the remainder and its divisor. -/
def cutAt (n : Nat) (e q : Int) : Nat × Nat × Nat :=
  if q ≤ e then (n * 2 ^ (e - q).toNat, 0, 1)
  else (n / 2 ^ (q - e).toNat, n % 2 ^ (q - e).toNat, 2 ^ (q - e).toNat)

/-- Round the exact value (-1)^neg * (n + sticky) * 2^e to a format (R152, R154); answers the code and the flags. -/
def Fmt.round (f : Fmt) (mode r : Nat) (neg : Bool) (n : Nat) (e : Int) (sticky : Bool) : Nat × BitVec 6 :=
  if n = 0 ∧ !sticky then (f.code neg 0, 0)
  else
    let p : Int := (bitLen n : Int) - 1 + e
    let q := max (p - f.m) f.emin
    let (sig, rem, d) := cutAt n e q
    let lo := sig + (q - f.emin).toNat * 2 ^ f.m
    let inexact := decide (rem ≠ 0) || sticky
    let c := lo + b2n (roundsUp mode r neg (bit sig 0) rem d sticky)
    if f.top < c then
      let big := match mode with
        | 1 => false
        | 2 => !neg
        | 3 => neg
        | _ => true
      (if big then f.infCode neg else f.code neg f.top, fOF ||| fNX)
    else
      let below := decide (p < f.emin + f.m)
      let (sig', rem', d') := cutAt n e (p - f.m)
      let carries := decide (p + 1 = f.emin + f.m) &&
        decide (2 ^ (f.m + 1) ≤ sig' + b2n (roundsUp mode r neg (bit sig' 0) rem' d' sticky))
      let tiny := below && (decide (5 ≤ mode) || !carries)
      (f.code neg c, flagIf inexact fNX ||| flagIf ((tiny && inexact) || decide (c = 0)) fUF)

/-- A result with its flags. -/
abbrev FRes := Nat × BitVec 6

/-- The canonical NaN, with NV when an input signals (R145). -/
def Fmt.nanOf (f : Fmt) (xs : List FVal) : FRes := (f.nanCode, flagIf (xs.any (fun x => decide (x = .nan true))) fNV)

/-- Some value is a NaN. -/
def anyNan (xs : List FVal) : Bool := xs.any (fun x => match x with | .nan _ => true | _ => false)

/-- Invalid: the canonical NaN and NV. -/
def Fmt.invalid (f : Fmt) : FRes := (f.nanCode, fNV)

/-- A finite value as a whole number at exponent e. -/
def atExp (neg : Bool) (n : Nat) (e0 e : Int) : Int :=
  let v : Int := ((n * 2 ^ (e0 - e).toNat : Nat) : Int)
  if neg then -v else v

/-- Round a whole number times 2^e; an exact zero takes the given sign. -/
def Fmt.roundInt (f : Fmt) (mode r : Nat) (zeroNeg : Bool) (v e : Int) : FRes :=
  if v = 0 then (f.code zeroNeg 0, 0) else f.round mode r (decide (v < 0)) v.natAbs e false

/-- The sign of an exact zero sum of signed terms (R146). -/
def zeroSign (mode : Nat) (a b : Bool) : Bool := if a = b then a else decide (mode = 3)

/-- Sum of two values (R146, R204). -/
def Fmt.addV (f : Fmt) (mode r : Nat) (a b : FVal) : FRes :=
  if anyNan [a, b] then f.nanOf [a, b]
  else
    match a, b with
    | .inf x, .inf y => if x = y then (f.infCode x, 0) else f.invalid
    | .inf x, _ => (f.infCode x, 0)
    | _, .inf y => (f.infCode y, 0)
    | .fin x n e, .fin y k g =>
      let q := min e g
      f.roundInt mode r (zeroSign mode x y) (atExp x n e q + atExp y k g q) q
    | _, _ => f.invalid

/-- The same value with the other sign. -/
def FVal.neg : FVal → FVal
  | .nan s => .nan s
  | .inf x => .inf (!x)
  | .fin x n e => .fin (!x) n e

/-- a * b + c with one rounding (R205). -/
def Fmt.fmaV (f : Fmt) (mode r : Nat) (a b c : FVal) : FRes :=
  let bad := match a, b with
    | .inf _, .fin _ 0 _ => true
    | .fin _ 0 _, .inf _ => true
    | _, _ => false
  if bad then f.invalid
  else if anyNan [a, b, c] then f.nanOf [a, b, c]
  else
    match a, b with
    | .fin x n e, .fin y k g =>
      let s := xor x y
      match c with
      | .fin z j h =>
        let q := min (e + g) h
        f.roundInt mode r (zeroSign mode s z) (atExp s (n * k) (e + g) q + atExp z j h q) q
      | _ => match c with
        | .inf z => (f.infCode z, 0)
        | _ => f.invalid
    | _, _ =>
      let sa := match a with | .inf x => x | .fin x _ _ => x | _ => false
      let sb := match b with | .inf x => x | .fin x _ _ => x | _ => false
      let s := xor sa sb
      match c with
      | .inf z => if z = s then (f.infCode s, 0) else f.invalid
      | _ => (f.infCode s, 0)

/-- Product of two values (R204). -/
def Fmt.mulV (f : Fmt) (mode r : Nat) (a b : FVal) : FRes :=
  if anyNan [a, b] then f.nanOf [a, b]
  else
    match a, b with
    | .fin x n e, .fin y k g => f.round mode r (xor x y) (n * k) (e + g) false
    | .inf _, .fin _ 0 _ => f.invalid
    | .fin _ 0 _, .inf _ => f.invalid
    | .inf x, .inf y => (f.infCode (xor x y), 0)
    | .inf x, .fin y _ _ => (f.infCode (xor x y), 0)
    | .fin x _ _, .inf y => (f.infCode (xor x y), 0)
    | _, _ => f.invalid

/-- Quotient of two values (R204). -/
def Fmt.divV (f : Fmt) (mode r : Nat) (a b : FVal) : FRes :=
  if anyNan [a, b] then f.nanOf [a, b]
  else
    match a, b with
    | .inf _, .inf _ => f.invalid
    | .inf x, .fin y _ _ => (f.infCode (xor x y), 0)
    | .fin x _ _, .inf y => (f.code (xor x y) 0, 0)
    | .fin x n e, .fin y k g =>
      if k = 0 then (if n = 0 then f.invalid else (f.infCode (xor x y), fDZ))
      else
        let sh := f.m + 40 + bitLen k
        f.round mode r (xor x y) (n * 2 ^ sh / k) (e - g - sh) (decide (n * 2 ^ sh % k ≠ 0))
    | _, _ => f.invalid

/-- Whole square root: the greatest x with x * x ≤ n, by bits from 2^k down. -/
def isqrtFrom (n : Nat) : Nat → Nat → Nat
  | 0, x => x
  | k + 1, x => isqrtFrom n k (if (x + 2 ^ k) * (x + 2 ^ k) ≤ n then x + 2 ^ k else x)

/-- Whole square root. -/
def isqrt (n : Nat) : Nat := isqrtFrom n (bitLen n / 2 + 1) 0

/-- Square root of a value (R204). -/
def Fmt.sqrtV (f : Fmt) (mode r : Nat) (a : FVal) : FRes :=
  match a with
  | .nan _ => f.nanOf [a]
  | .inf x => if x then f.invalid else (f.infCode false, 0)
  | .fin x n e =>
    if n = 0 then (f.code x 0, 0)
    else if x then f.invalid
    else
      let sh := 2 * (f.m + 40) + (if e % 2 = 0 then 0 else 1)
      let v := n * 2 ^ sh
      let q := isqrt v
      f.round mode r false q ((e - sh) / 2) (decide (q * q ≠ v))

/-- The value is below another, −0 below +0 when `zeros`; NaN compares false. -/
def FVal.lt (zeros : Bool) (a b : FVal) : Bool :=
  match a, b with
  | .inf x, .inf y => x && !y
  | .inf x, .fin _ _ _ => x
  | .fin _ _ _, .inf y => !y
  | .fin x n e, .fin y k g =>
    let q := min e g
    let u := atExp x n e q
    let v := atExp y k g q
    decide (u < v) || (zeros && decide (u = 0 ∧ v = 0) && x && !y)
  | _, _ => false

/-- The values are equal; −0 equals +0. -/
def FVal.eq (a b : FVal) : Bool :=
  match a, b with
  | .inf x, .inf y => x == y
  | .fin x n e, .fin y k g => let q := min e g; decide (atExp x n e q = atExp y k g q)
  | _, _ => false

/-- Minimum (or maximum) of two codes (R204, FN 5 and 6). -/
def Fmt.minmax (f : Fmt) (isMax : Bool) (x y : Nat) : FRes :=
  let a := f.read x
  let b := f.read y
  if a = .nan true ∨ b = .nan true then f.invalid
  else if anyNan [a] then (if anyNan [b] then f.nanCode else y, 0)
  else if anyNan [b] then (x, 0)
  else if a.lt true b then (if isMax then y else x, 0)
  else (if isMax then x else y, 0)

/-- One-bit class of a code, R204 FN 13. -/
def Fmt.classOf (f : Fmt) (x : Nat) : Nat :=
  match f.read x with
  | .inf true => 1
  | .inf false => 128
  | .nan true => 256
  | .nan false => 512
  | .fin neg n _ =>
    let sub := decide (n < 2 ^ f.m)
    if n = 0 then (if neg then 8 else 16)
    else if neg then (if sub then 4 else 2)
    else (if sub then 32 else 64)

/-- Float to float (R153); equal formats canonicalise NaNs. -/
def Fmt.convert (src dst : Fmt) (mode r : Nat) (x : Nat) : FRes :=
  match src.read x with
  | .nan s => (dst.nanCode, flagIf (s || dst.nan.isNone) fNV)
  | .inf neg => (dst.infCode neg, if dst.inf.isNone then fOF ||| fNX else 0)
  | .fin neg n e => dst.round mode r neg n e false

/-- Round a value to a whole number in a mode; answers it and whether that was inexact. -/
def toWhole (mode r : Nat) (neg : Bool) (n : Nat) (e : Int) : Int × Bool :=
  let (sig, rem, d) := cutAt n e 0
  let v := sig + b2n (roundsUp mode r neg (bit sig 0) rem d false)
  (if neg then -(v : Int) else (v : Int), decide (rem ≠ 0))

/-- The range of an integer type of w bits. -/
def intMin (w : Nat) (signed : Bool) : Int := if signed then -((2 ^ (w - 1) : Nat) : Int) else 0
def intMax (w : Nat) (signed : Bool) : Int := if signed then ((2 ^ (w - 1) : Nat) : Int) - 1 else ((2 ^ w : Nat) : Int) - 1

/-- Clamp to a range (R142). -/
def satInt (w : Nat) (signed : Bool) (x : Int) : Int := max (intMin w signed) (min (intMax w signed) x)

/-- Float to integer, saturated (R153); the result modulo 2^w. -/
def Fmt.toInt (f : Fmt) (mode r w : Nat) (signed : Bool) (x : Nat) : FRes :=
  match f.read x with
  | .nan _ => (0, fNV)
  | .inf neg => (wrapN w (if neg then intMin w signed else intMax w signed), fNV)
  | .fin neg n e =>
    let (v, inexact) := toWhole mode r neg n e
    let y := satInt w signed v
    (wrapN w y, if y = v then flagIf inexact fNX else fNV)

/-- Integer to float (R153). -/
def Fmt.ofInt (f : Fmt) (mode r : Nat) (v : Int) : FRes := f.round mode r (decide (v < 0)) v.natAbs 0 false

/-- The sign bit of a code. -/
def Fmt.sign (f : Fmt) (x : Nat) : Bool := bit x (f.w + f.m)

/-- The magnitude of x with a sign (R204, FN 7 to 9). -/
def Fmt.withSign (f : Fmt) (neg : Bool) (x : Nat) : Nat := f.code neg (x % 2 ^ (f.w + f.m))

/-! ## Operations on codes -/

/-- Two-operand arithmetic: 0 add, 1 subtract, 2 multiply, 3 divide (R204). -/
def Fmt.arith (f : Fmt) (op mode r x y : Nat) : FRes :=
  match op with
  | 0 => f.addV mode r (f.read x) (f.read y)
  | 1 => f.addV mode r (f.read x) (f.read y).neg
  | 2 => f.mulV mode r (f.read x) (f.read y)
  | _ => f.divV mode r (f.read x) (f.read y)

/-- Fused forms: the product negated, the addend negated (R205). -/
def Fmt.fused (f : Fmt) (negP negC : Bool) (mode r x y z : Nat) : FRes :=
  f.fmaV mode r (if negP then (f.read x).neg else f.read x) (f.read y) (if negC then (f.read z).neg else f.read z)

/-- Equality with its flag (R204, FN 10). -/
def Fmt.feq (f : Fmt) (x y : Nat) : Bool × BitVec 6 :=
  let a := f.read x
  let b := f.read y
  (a.eq b, flagIf (decide (a = .nan true) || decide (b = .nan true)) fNV)

/-- Less than with its flag (R204, FN 11). -/
def Fmt.flt (f : Fmt) (x y : Nat) : Bool × BitVec 6 :=
  ((f.read x).lt false (f.read y), flagIf (anyNan [f.read x, f.read y]) fNV)

/-- Less than or equal with its flag (R204, FN 12). -/
def Fmt.fle (f : Fmt) (x y : Nat) : Bool × BitVec 6 :=
  ((f.read x).lt false (f.read y) || (f.read x).eq (f.read y), flagIf (anyNan [f.read x, f.read y]) fNV)

/-- The format of an FA word's FT field (R173). -/
def ftFmt (ft : BitVec 2) : Fmt :=
  match ft.toNat with
  | 0 => fp32
  | 1 => fp64
  | 2 => fp16
  | _ => bf16

/-- The format of an FM or VF word's FT field (R173). -/
def ftFmt1 (ft : BitVec 1) : Fmt := if ft = 0 then fp32 else fp64

/-- The format of a floating-point element type (R173). -/
def etFmt (et : Nat) : Fmt :=
  match et with
  | 4 => fp16
  | 5 => bf16
  | 6 => fp32
  | _ => fp64

end Sys2Proof.Machine
end

