-- ==== Sys2Proof/Machine/Local.lean ====
section
/-!
DEFINITION. Accesses at the issuing core's own local-store port: loads, stores and atomics by local address or through the own
window (R96, R100, R104, R214 to R216, R387, R388), stores in reconnaissance mode (R91), and the boot commit (R355).
-/

namespace Sys2Proof.Machine

open Sys2Proof

/-- A local access of n bytes leaves the local store (R214). -/
def outOfLocal (la : Word) (n : Nat) : Bool := decide (0x80000 < la.toNat + n)

/-- The first byte of a range that the claimed Hive range refuses (R104, R360). -/
def Core.refusedAt (c : Core) (a n : Nat) : Option Nat :=
  if c.inClaim a n then some (max a c.hvb) else none

/-- A byte that a store in reconnaissance mode may reach: general scratch, and the scratch below the frames (R91). -/
def Core.scratch (c : Core) (a : Nat) : Bool :=
  (decide (c.wsn * 0x1000 ≤ a) && decide (a < c.txb)) || (decide (c.scrb ≤ a) && decide (a < c.hvb))

/-- The port of the issuing thread, as the trace ring shows it. -/
def State.self (s : State) : Source := s.source s.cur.1 s.cur.2 true

/-- The messages in flight at commit are addressed by site, and no core has those numbers any more (R355). -/
def Packet.stale : Packet → Packet
  | .message src dst hi pay l bad => .message src (dst.1 + 0x1000, dst.2.1, dst.2.2) hi pay l bad
  | p => p

/-- The cores take their numbers at the boot commit (R355). -/
def Core.commit (n : Nat) (c : Core) : Core :=
  let num := memNum 0x7FFC0 8 c.ls
  if n < 2048 ∧ bit num 63 then { c with lcore := num % 0x1000, numbered := true } else c

/-- Site mode ends: numbers and ENCNT are loaded, and the writing thread goes out of rotation as `wfw` ends a task (R296, R355). -/
def State.bootCommit (s : State) : State :=
  let n := memNum 0x7FFC8 8 s.co.ls % 0x1000
  let s := s.restOne s.cur.1 s.cur.2
  let s := { s with site := false, encnt := n, chan := s.chan.map Packet.stale, scarab := { s.scarab with pidx := s.bootPidx } }
  let sites := (List.range 2048).filter (fun n => !s.fused.contains n)
  let root (k : Nat) : Cluster := { s.cluster k with ptroot := BitVec.ofNat 64 (Config.tableRoot k) }
  { s with cores := sites.foldl (fun cs n => tblSet n ((s.core n).commit n) cs) s.cores
           clusters := (List.range 128).foldl (fun cs k => tblSet k (root k) cs) s.clusters }

/-- A store of the issuing thread to ranges of its own local store is one that commits the boot where COMMIT[63] is 1 after it (R355). -/
def State.atCommit (s : State) (rs : List (Nat × Nat)) : Bool :=
  s.site && decide (s.cur = (bootSite s.fused, 0)) && rs.any (fun r => decide (r.1 ≤ 0x7FFCF ∧ 0x7FFCF < r.1 + r.2))

/-- The whole store has been made: the boot commits if it wrote byte 15 of the boot block and left COMMIT[63] = 1 (R355). It ends its
thread as `wfw` does, so the store is made once the thread's counters are 0 (R296); `s0` is the state before it. -/
def State.commitAfter (s s0 : State) (rs : List (Nat × Nat)) : Except Stop State :=
  if !(s.atCommit rs && bit (memNum 0x7FFC8 8 s.co.ls) 63) then .ok s
  else if s0.th.cntr ≠ 0 then .error (.stall s0)
  else .ok s.bootCommit

/-- The bits of a byte that are private to the device while its transaction frame is in use (R83). -/
def Core.privateBits (c : Core) (a : Nat) : Byte :=
  if a < c.txb ∨ c.scrb ≤ a then 0
  else
    let o := (a - c.txb) % 2 ^ c.flog
    if ¬ c.frames.any (fun f => decide (f.index = (a - c.txb) / 2 ^ c.flog)) then 0
    else if o = 29 then 0xFE
    else if o = 30 ∨ o = 31 ∨ (64 ≤ o ∧ o < 256) then 0xFF
    else 0

/-- Bytes of a local store as a load sees them: device-private bits are free values (R83; log entry 2). -/
def State.lsSeen (s : State) (n a size : Nat) : List Byte :=
  let c := s.core n
  if c.frames.isEmpty then s.lsBytes n a size
  else (List.range' a size).map (fun j =>
    (memGet j c.ls &&& ~~~(c.privateBits j)) ||| (Config.freeByte s.tick j &&& c.privateBits j))

/-- A read at the own port met poison: the port has the access, of a kind of R128, and the thread fails at the poisoned address (R129,
R407). -/
def State.poisonRead (s : State) (a n kind bad : Nat) : Stop :=
  .failRead (s.logPort s.cur.1 a n kind s.self) s.th.pc (BitVec.ofNat 64 bad) 3

/-- A load at the own port; poison fails the thread (R214, R407). -/
def State.localLoad (s : State) (la : Word) (n : Nat) : Except Stop (List Byte × State) :=
  if outOfLocal la n then .error (.trap 11 la)
  else
    match firstBad s.co.lsBad la.toNat n with
    | some b => .error (s.poisonRead la.toNat n 3 b)
    | none => .ok (s.lsSeen s.cur.1 la.toNat n, (s.logPort s.cur.1 la.toNat n 3 s.self).bump)

/-- The blocks that a byte range of the local store touches. -/
def blocksOf (a n : Nat) : List Nat := List.range' (a / 64) ((a + n - 1) / 64 - a / 64 + 1)

/-- The cycle in which the banks of a byte range have served an access to it (R100). -/
def Core.bankReady (c : Core) (a n : Nat) : Nat := (blocksOf a n).foldl (fun m b => max m (tblGet 0 (b % 8) c.bankFree)) c.cyc

/-- The banks serve the blocks of a vector access, one a cycle each, behind what they have (R100, R248). -/
def Core.bankUse (c : Core) (blocks : List Nat) : Core :=
  blocks.foldl (fun c b => { c with bankFree := tblSet (b % 8) (max c.cyc (tblGet 0 (b % 8) c.bankFree) + 1) c.bankFree }) c

/-- Blocks are served one a cycle in order, as a `kclaim` clears them (R276). -/
def Core.bankSweep (c : Core) (first n : Nat) : Core :=
  (List.range n).foldl (fun c j => { c with bankFree := tblSet ((first + j) % 8) (c.cyc + j + 1) c.bankFree }) c

/-- A load of the local store has its bytes: the register is written, or stays pending where the banks serve the access, in cycle r, only
after the thread's next slot, in cycle `next` (R34, R100, R214). -/
def State.finishAt (s : State) (dst : RegName) (ext : LoadExt) (r next : Nat) (m : Memory) (els : List (Word × Nat × Nat)) : State :=
  let constant := match dst with | .s 0 => true | .s 31 => true | _ => false
  let old := match dst with | .v d => s.th.vreg d | _ => 0
  if constant || decide (r < next) then s.setTh (s.th.setReg dst (ext.result old m (els.map (·.2))))
  else
    let (id, s) := s.fresh
    let l : Load := { id := id, dst := s.th.abs dst, ext := ext, got := m, waiting := 1, elems := els, acq := false, refused := false
                      dead := false, counted := false, isLoad := false, toQueue := false, ready := r }
    s.setTh { s.th with loads := s.th.loads ++ [l], pend := s.th.pend ++ [(s.th.abs dst, id)] }

/-- A scalar load of n bytes of the local store has its bytes (R34, R100, R214). -/
def State.finishLocal (s : State) (dst : RegName) (ext : LoadExt) (la n : Nat) (bs : List Byte) : State :=
  s.finishAt dst ext (s.co.bankReady la n) (s.co.cyc + 16) (memWrite 0 bs []) []

/-- The first delayed load of a slot whose banks have served it completes (R100). -/
def State.serveLocal (s : State) (n i : Nat) : Option State :=
  ((s.thread n i).loads.find? (fun l => decide (0 < l.ready ∧ l.ready ≤ (s.core n).cyc))).map (s.completeLoad n i)

/-- The bytes of a store that has passed its checks; in reconnaissance mode those in scratch (R91). -/
def State.putHere (s : State) (a : Nat) (bs : List Byte) : State :=
  if s.th.inRecon then
    (pieces bs.length a bs.length).foldl (fun s p =>
      if s.co.scratch p.1 then s.lsStore s.cur.1 p.1 ((bs.drop (p.1 - a)).take p.2) 0 s.self else s) s
  else s.lsStore s.cur.1 a bs 0 s.self

/-- A store at the own port (R85, R104, R214). -/
def State.localStore (s : State) (la : Word) (bs : List Byte) : Except Stop State :=
  if outOfLocal la bs.length then .error (.trap 11 la)
  else
    match (if s.th.inRecon then none else s.co.refusedAt la.toNat bs.length) with
    | some b => .error (.trap 12 (BitVec.ofNat 64 b))
    | none => (s.putHere la.toNat bs).commitAfter s [(la.toNat, bs.length)]

/-! ## Atomic operations (R215, R219) -/

/-- The new value and the flags of an atomic on an old value. -/
def Amo.apply (o : Amo) (m : Nat) : Nat × BitVec 6 :=
  let w := 8 * o.width
  match o.fn with
  | 0 => (o.b, 0)
  | 1 => ((m + o.b) % 2 ^ w, 0)
  | 2 => (Nat.land m o.b, 0)
  | 3 => (Nat.lor m o.b, 0)
  | 4 => (Nat.xor m o.b, 0)
  | 5 => (wrapN w (min (sgn w m) (sgn w o.b)), 0)
  | 6 => (wrapN w (max (sgn w m) (sgn w o.b)), 0)
  | 7 => (min m o.b, 0)
  | 8 => (max m o.b, 0)
  | 9 => (if m = o.cmp then o.b else m, 0)
  | 10 => (if o.width = 8 then fp64 else fp32).arith 0 0 0 m o.b
  | 12 => (o.b, 0)
  | _ => (m, 0)

/-- The atomic writes: `amo.ld` and an atomic in reconnaissance mode (number 13 of the model) do not (R91, R215). -/
def Amo.writes (o : Amo) : Bool := decide (o.fn ≠ 11 ∧ o.fn ≠ 13)

/-- The register value of an atomic's result (R215). -/
def Amo.ext (o : Amo) : LoadExt :=
  if o.fn = 5 ∨ o.fn = 6 ∨ o.fn = 9 then .signed (8 * o.width) else .unsigned (8 * o.width)

/-- An atomic at the bank of a core's local store; answers the old value and the flags (R216). -/
def State.bankAtomic (s : State) (n a : Nat) (o : Amo) (w : Source) : Nat × BitVec 6 × State :=
  let m := s.lsNum n a o.width
  let (v, f) := o.apply m
  (m, f, if o.writes then s.lsStore n a (leBytes o.width v) 1 w else s.logPort n a o.width 1 w)

end Sys2Proof.Machine
end

