-- ==== Sys2Proof/Machine/System.lean ====
section
/-!
DEFINITION. Counters, fences, L1 control, traps and special registers: major 26 (R185, R220 to R225, R389 to R391).
-/

namespace Sys2Proof.Machine

open Sys2Proof

/-! ## Special registers (R185) -/

/-- CID of a core (R26). -/
def State.cid (s : State) (n : Nat) : Word :=
  let k := clusterOf n
  BitVec.ofNat 64 ((s.core n).lcore % 0x1000 + k / 64 * 2 ^ 12 + k % 64 * 2 ^ 13 + (if n < 2048 then cposOf n else 0) * 2 ^ 19
    + (if s.site then 0 else s.encnt % 0x1000) * 2 ^ 32)

/-- RTC (R126). -/
def Ring.control (r : Ring) : Word :=
  BitVec.ofNat 64 (b2n r.en + 2 * b2n r.wrap + 4 * b2n r.ovf + 8 * b2n r.own + 16 * b2n r.lds + r.idx % 256 * 2 ^ 8
    + r.entries.length * 2 ^ 16)

/-- A write of RTC (R126); EN from 0 to 1 empties the ring and resets the ordinal. -/
def Ring.setControl (r : Ring) (x : Nat) : Ring :=
  let start := bit x 0 && !r.en
  { r with en := bit x 0, wrap := bit x 1, ovf := r.ovf && !bit x 2, own := bit x 3, lds := bit x 4, idx := bits x 8 8
           entries := if start then [] else r.entries, ord := if start then 0 else r.ord }

/-- RTD0 (R128). -/
def Ring.data0 (r : Ring) : Word :=
  match r.entries[r.idx]? with
  | none => 0
  | some e => BitVec.ofNat 64 (e.addr % 2 ^ 19 + e.size * 2 ^ 19 + e.kind * 2 ^ 22 + e.ord % 2 ^ 32 * 2 ^ 32)

/-- RTD1 (R128). -/
def Ring.data1 (r : Ring) : Word :=
  match r.entries[r.idx]? with
  | none => 0
  | some e => BitVec.ofNat 64 (e.src % 0x1000 + e.slot % 16 * 2 ^ 12 + e.gen % 0x10000 * 2 ^ 16 + e.cyc % 2 ^ 32 * 2 ^ 32)

/-- HVC (R284). -/
def Core.hvc (c : Core) : Word :=
  BitVec.ofNat 64 (b2n c.hive.clm + c.hive.b % 16 * 2 + b2n c.hive.sovf * 2 ^ 5 + c.hive.spn % 2 ^ 24 * 2 ^ 8
    + c.hive.spcap % 2 ^ 24 * 2 ^ 32)

/-- GEO2 as the register holds it (R40). -/
def Task.geo2Word (t : Task) : Word := t.geo2

/-- XCAUSE (R358). -/
def Thread.xcause (t : Thread) : Word :=
  BitVec.ofNat 64 (t.xcode.toNat + b2n t.ppriv * 2 ^ 8 + b2n t.pqmap * 2 ^ 9 + b2n t.act * 2 ^ 10 + t.wsr % 64 * 2 ^ 12)

/-- The registers marked FW in R185. -/
def sprFirmware : List Nat := [0x004, 0x080, 0x081, 0x082, 0x083]

/-- Read a special register (R185). -/
def State.readSpr (s : State) (n : Nat) : Word :=
  let c := s.co
  let t := s.th
  match n with
  | 0x000 => s.cid s.cur.1
  | 0x001 => 0x686
  | 0x002 => BitVec.ofNat 64 c.cyc
  | 0x003 => c.lsmap
  | 0x004 => c.lsp
  | 0x005 => c.epoch.zeroExtend 64
  | 0x010 => t.wid
  | 0x011 => t.task.geo0
  | 0x012 => t.task.geo1
  | 0x013 => t.task.geo2Word
  | 0x014 => t.rnd.zeroExtend 64
  | 0x015 => t.flg.zeroExtend 64
  | 0x016 => t.srs
  | 0x017 => t.dpat.zeroExtend 64
  | 0x018 => t.cntr
  | 0x019 => t.acc
  | 0x020 => s.flu (clusterOf s.cur.1)
  | 0x030 => c.ring.control
  | 0x031 => BitVec.ofNat 64 (c.ring.mtch % 2 ^ 19 + c.ring.mask % 2 ^ 19 * 2 ^ 19)
  | 0x032 => c.ring.data0
  | 0x033 => c.ring.data1
  | 0x040 => c.hvc
  | 0x080 => c.thbBase ++ (if c.thbEn then 1#8 else 0#8)
  | 0x081 => t.xpc
  | 0x082 => t.xcause
  | 0x083 => t.xval
  | _ => 0

/-- The fields that a value of LSP gives are valid (R101). -/
def lspValid (c : Core) (x : Nat) : Bool :=
  let wsn := bits x 0 7
  let flog := bits x 8 5
  let fcnt := bits x 13 6
  let hlog := bits x 19 5
  let c' : Core := { c with wsn := wsn, flog := flog, fcnt := fcnt, hlog := hlog }
  decide (16 ≤ wsn ∧ wsn ≤ 64) && (decide (fcnt = 0) || decide (9 ≤ flog ∧ flog ≤ 18))
    && (decide (hlog = 0) || decide (12 ≤ hlog ∧ hlog ≤ 18)) && decide (c'.scrb ≤ c'.hvb)

/-- The slot holds the other thread of the issuing thread's pair, which is the same task (R65). -/
def State.partner (s : State) (i : Nat) : Bool :=
  match s.th.pair with
  | 1 => decide (i = s.cur.2 + 8)
  | 2 => decide (i + 8 = s.cur.2)
  | _ => false

/-- A write of LSP by the issuing thread is accepted; the records of the deque are tasks that the core holds (R101). -/
def State.lspAccepts (s : State) (x : Nat) : Bool :=
  let c := s.co
  let k := clusterOf s.cur.1
  lspValid c x && decide (s.th.wsr < bits x 0 7) && s.th.inl.isEmpty
    && (List.range 16).all (fun i => decide (i = s.cur.2) || s.partner i || !(c.thread i).busyTask)
    && c.deque.isEmpty && c.runList.isEmpty && c.parked.isEmpty && !(s.cluster k).runq.any (fun e => decide (e.site = s.cur.1))
    && !s.scarab.txns.any (fun t => decide (t.core = s.cur.1) && (match t.stage with | .running => true | _ => false))
    && c.frames.isEmpty && !c.hive.clm && (s.cluster k).txq.isEmpty

/-- Write a special register; none where the value is refused (R223, R391). -/
def State.writeSpr (s : State) (n : Nat) (x : Word) : Option State :=
  let c := s.co
  let t := s.th
  let v := x.toNat
  match n with
  | 0x004 =>
    if s.lspAccepts v then
      some (s.setCo { c with wsn := bits v 0 7, flog := bits v 8 5, fcnt := bits v 13 6, hlog := bits v 19 5 })
    else none
  | 0x010 => some (s.setTh { t with wid := x })
  | 0x014 => if 6 ≤ v % 8 then none else some (s.setTh { t with rnd := x.extractLsb' 0 3 })
  | 0x015 => some (s.setTh { t with flg := flgWrite x })
  | 0x016 => some (s.setTh { t with srs := loadSrs x })
  | 0x017 => some (s.setTh { t with dpat := x.extractLsb' 0 51 })
  | 0x020 =>
    let k := clusterOf s.cur.1
    some (s.setCluster k { s.cluster k with stk := (s.cluster k).stk &&& ~~~(x.extractLsb' 8 6) })
  | 0x030 => some (s.setCo { c with ring := c.ring.setControl v })
  | 0x031 => some (s.setCo { c with ring := { c.ring with mtch := bits v 0 19, mask := bits v 19 19 } })
  | 0x080 => if canonical x then some (s.setCo { c with thbEn := x.getLsbD 0, thbBase := x.extractLsb' 8 56 }) else none
  | 0x081 => some (s.setTh { t with xpc := x })
  | 0x082 => some (s.setTh { t with xcode := x.extractLsb' 0 8, ppriv := x.getLsbD 8, pqmap := x.getLsbD 9 })
  | 0x083 => some (s.setTh { t with xval := x })
  | _ => some s

/-! ## Counters, fences and the L1 -/

/-- A bound of `wait`: 15 places none (R220). -/
def bound (n : BitVec 4) (x : Nat) : Bool := decide (n = 15) || decide (x ≤ n.toNat)

/-- An engine operation is not yet performed, or it was handed back and its remainder is not resubmitted: what is submitted in its place
then stands for it (R132, R419). -/
def Core.opOpen (c : Core) (id : Nat) : Bool :=
  c.ops.any (fun o => decide (o.id = id))
    || c.threads.any (fun x => x.2.due.any (fun d => decide (d.op = id)) ||
        (match x.2.hb with | some d => decide (d.op = id) && !d.resub | none => false))

/-- Operations of a thread in the queues of a mask, those that a hand-back keeps open included. -/
def Core.openOps (c : Core) (slot : Nat) (mask : Nat) : List Nat :=
  (c.ops.filter (fun o => decide (o.slot = slot) && bit mask o.queue)).map (·.id)
    ++ ((c.thread slot).due ++ (c.thread slot).hb.toList).filterMap (fun d =>
        match d.queue with | some q => if bit mask q then some d.op else none | none => none)

/-- A fence over the queues of a mask (R132). -/
def Core.fence (c : Core) (slot mask : Nat) : Core :=
  let old := (c.fences.map (fun f => (f.1, f.2.1, f.2.2.filter c.opOpen))).filter (fun f => !f.2.2.isEmpty)
  match c.openOps slot mask with
  | [] => { c with fences := old }
  | ids => { c with fences := old ++ [(slot, mask, ids)] }

/-- Translate the address of `l1wb.l` or `l1inv.l`: permissions are not checked (R389). -/
def State.lineOf (s : State) (va : Word) : Except Stop (Nat × Bool × State) :=
  match s.translate s.cur.1 s.cur.2 true s.th.walk va 4 with
  | .ok pa nc s' => .ok (pa / 64 * 64, nc, s')
  | .fault why s' => .error (.trapTlb s'.co.tlb 13 (xlatVal va 0 why))
  | .miss s' => .error (.stall s')

/-! ## Traps and TLB control -/

/-- A trap whose return address is the next word: `trap` and `bkpt` (R222, R224). -/
def trapNext (c : Code) (code : Nat) (imm : BitVec 12) (s : State) : Out :=
  issue { code := c, jumps := true } s fun s => .error (.soft code (imm.zeroExtend 64) (s.th.pc + 4))

/-- The privilege check of an instruction, which goes before its operands (R222, R361). -/
def State.privBar (s : State) : Option Nat := if s.th.priv then none else some 2

/-- Held operations of a thread may begin: its hand-back trap has returned (R419). -/
def Core.unhold (c : Core) (slot : Nat) : Core :=
  let due := (c.thread slot).due
  { c with ops := c.ops.map (fun o =>
      if o.slot = slot then { o with held := o.held && due.any (fun d => decide (d.queue = some o.queue)) } else o) }

/-- The instruction runs on a translation service core (R225). -/
def State.onTsc (s : State) : Bool := decide (2048 ≤ s.cur.1)

/-- A TLB instruction elsewhere is illegal at every privilege; there it needs firmware privilege (R225, R390). -/
def State.tlbBar (s : State) : Option Nat := if s.onTsc then s.privBar else some 1

/-- A number that no special register has is illegal; a firmware register needs firmware privilege (R185, R222). -/
def State.sprBar (s : State) (n : BitVec 12) : Option Nat :=
  if !sprListed n then some 1 else if sprFirmware.contains n.toNat then s.privBar else none

/-- Write an entry into the cluster TLB (R117). -/
def Cluster.fill (k : Cluster) (e : TlbEntry) : Cluster :=
  { k with tlb := tblSet e.set (fillTlb 8 (tblGet [] e.set k.tlb) e) k.tlb }

/-- Write an entry into a core's TLB (R117). -/
def State.fillCore (s : State) (n : Nat) (e : TlbEntry) : State :=
  s.setCore n { s.core n with tlb := fillTlb 64 (s.core n).tlb e }

/-- Drop the entries of a cluster's TLB and of its cores' TLBs that a test selects (R225). -/
def State.dropEntries (s : State) (k : Nat) (p : TlbEntry → Bool) : State :=
  let s := s.setCluster k { s.cluster k with tlb := (s.cluster k).tlb.map (fun x => (x.1, x.2.filter (fun e => !p e))) }
  (s.coresOf k ++ [2048 + k]).foldl (fun s n => s.setCore n { s.core n with tlb := (s.core n).tlb.filter (fun e => !p e) }) s

/-- Reserved bits of the two words of an entry (R117). -/
def entryReserved (w0 w1 : Word) : Bool :=
  decide (w0.extractLsb' 7 9 ≠ 0) || decide (w0.extractLsb' 56 8 ≠ 0) || decide (w1.extractLsb' 0 16 ≠ 0)
    || decide (w1.extractLsb' 48 16 ≠ 0)

/-- The core that `tlbw` names; an error where it is outside the cluster (R225). -/
def State.tlbwCore (s : State) (x : Word) : Option (Option Nat) :=
  if x.extractLsb' 0 12 = 0xFFF then some none
  else
    match s.siteOf (x.extractLsb' 0 12).toNat with
    | some n => if clusterOf n = clusterOf s.cur.1 then some (some n) else none
    | none => none

/-- R221: Stalls until the outstanding counters are within the given bounds. -/
def execWait (t : BitVec 4) (c : BitVec 4) (bs : BitVec 4) (l : BitVec 4) (s : State) : Out :=
  issue { code := (.long (0#9 ++ t ++ c ++ bs ++ l ++ 107#7)), others := [.spr 0x018] } s fun s =>
    let h := s.th
    if bound l h.cntL && bound bs h.cntS && bound c h.cntC && bound t h.cntT then .ok s else .error (.stall s)

/-- R132: Orders the thread's later submissions to the named queues after its earlier ones. -/
def execQfence (q : BitVec 5) (s : State) : Out :=
  issue { code := (.long (32768#20 ++ q ++ 107#7)) } s fun s => .ok (s.setCo (s.co.fence s.cur.2 q.toNat))

/-- R220: Writes back every dirty L1 line of the core. -/
def execL1wb (s : State) : Out :=
  issue { code := (.long 268435563#32), quiet := true, takes := true } s fun s =>
    let (s, all) := s.cleanAll s.cur.1 s.cur.2
    if all then .ok s else .error (.stall s)

/-- R220: Writes back the L1 line holding sA. -/
def execL1wbL (a : BitVec 5) (s : State) : Out :=
  issue { code := (.long (512#13 ++ a ++ 4203#14)), reads := [a.toNat], quiet := true, takes := true } s fun s0 => do
    let (x, s) := s0.readS a.toNat
    let (pa, nc, s) ← s.lineOf x
    match s.co.line pa with
    | none => pure s
    | some l =>
      if nc || decide (l.dirty = 0) then pure s
      else if 1023 ≤ s.th.cntS then throw (.stall s0)
      else pure (s.cleanLine s.cur.1 s.cur.2 l)

/-- R220: Invalidates the clean bytes of every L1 line. -/
def execL1inv (s : State) : Out :=
  issue { code := (.long 402653291#32), takes := true } s fun s =>
    .ok (s.setCo { s.co with l1 := s.co.l1.map Line.dropClean })

/-- R220: Invalidates the clean bytes of the line holding sA. -/
def execL1invL (a : BitVec 5) (s : State) : Out :=
  issue { code := (.long (768#13 ++ a ++ 4203#14)), reads := [a.toNat], takes := true } s fun s => do
    let (x, s) := s.readS a.toNat
    let (pa, nc, s) ← s.lineOf x
    match s.co.line pa with
    | none => pure s
    | some l => pure (if nc then s else s.setCo (s.co.setLine l.dropClean))

/-- R220: Bumps the core's L1 epoch. -/
def execEpoch (s : State) : Out :=
  issue { code := (.long 536871019#32), takes := true } s fun s => .ok (s.bumpEpoch s.cur.1)

/-- R222: Raises the software trap with an immediate. -/
def execTrap (n : BitVec 12) (s : State) : Out :=
  trapNext (.long (64#8 ++ n ++ 107#12)) 9 n s

/-- R362: Restores the saved globals, privilege and QMAP and returns to XPC. -/
def execSysret (s : State) : Out :=
  let k : Issue := { code := (.long 1207959659#32), jumps := true, bars := s.privBar, others := [.spr 0x081, .spr 0x082] }
  issue k s fun s => do
    let t := s.th
    if !t.act then throw k.operand
    else if t.xpc.getLsbD 0 then throw (.trap 3 t.xpc)
    else
      if let some b := firstBad s.co.lsBad t.region 112 then throw (.failRead (s.logPort s.cur.1 t.region 112 3 s.self) t.xpc (BitVec.ofNat 64 b) 3)
      let s := s.logPort s.cur.1 t.region 112 3 s.self
      let s := s.returnTrap
      pure ((s.setTh { s.th with hb := none }).setCo ((s.setTh { s.th with hb := none }).co.unhold s.cur.2))

/-- R222: Reads a special register into sD. -/
def execMfs (n : BitVec 12) (d : BitVec 5) (s : State) : Out :=
  let k : Issue := { code := (.long (80#8 ++ n ++ d ++ 107#7)), writes := [d.toNat], others := [.spr n.toNat], takes := true
                     bars := s.sprBar n }
  issue k s fun s => do
    if n = 0x019 ∧ ¬ s.th.accQ.isEmpty then throw (.stall s)
    else pure (s.writeS d.toNat (s.readSpr n.toNat))

/-- R222: Reads an extension register into sD. -/
def execMfsE (n : BitVec 3) (d : BitVec 5) (s : State) : Out :=
  issue { code := (.long (41472#17 ++ n ++ d ++ 107#7)), writes := [d.toNat], others := [.e n.toNat] } s fun s =>
    .ok (s.writeS d.toNat (s.th.ereg n.toNat))

/-- R223: Writes a special register field by field by access code; a write of FLU reaches the cluster, an effect that leaves the core
(R64, R163). -/
def execMts (n : BitVec 12) (a : BitVec 5) (s : State) : Out :=
  let k : Issue := { code := (.long (88#8 ++ n ++ a ++ 107#7)), reads := [a.toNat], bars := s.sprBar n, effect := decide (n = 0x020) }
  issue k s fun s =>
    let (x, s) := s.readS a.toNat
    match s.writeSpr n.toNat x with
    | some s => .ok (s.setTh { s.th with regBad := s.th.healed (.spr n.toNat) })
    | none => .error k.operand

/-- R223: Writes an extension register from sA. -/
def execMtsE (n : BitVec 3) (a : BitVec 5) (s : State) : Out :=
  issue { code := (.long (45568#17 ++ n ++ a ++ 107#7)), reads := [a.toNat], dests := [.e n.toNat] } s fun s =>
    let (x, s) := s.readS a.toNat
    .ok (s.setTh (s.th.setEreg n.toNat x))

/-- R224: Halts the thread for the debugger, or raises the breakpoint trap. -/
def execBkpt (n : BitVec 12) (s : State) : Out :=
  let i := s.co.lcore
  if bit (tblGet 0 (i / 64) s.dbgbp).toNat (i % 64) then
    issue { code := (.long (96#8 ++ n ++ 107#12)) } s fun s => .ok (s.setTh { s.th with run := .halted, bkpt := some n.toNat })
  else trapNext (.long (96#8 ++ n ++ 107#12)) 10 n s

/-- R222: Halts the thread until a debug resume. -/
def execHalt (s : State) : Out :=
  issue { code := (.long 1744830571#32), bars := s.privBar } s fun s => .ok (s.setTh { s.th with run := .halted, bkpt := none })

/-- R225: Writes a TLB entry from e0 and e1 into the cluster and a core TLB. -/
def execTlbw (a : BitVec 5) (s : State) : Out :=
  let k : Issue := { code := (.long (3584#13 ++ a ++ 107#14)), reads := [a.toNat], others := [.e 0, .e 1], bars := s.tlbBar }
  issue k s fun s =>
    let (x, s) := s.readS a.toNat
    let e : TlbEntry := { w0 := s.th.ereg 0, w1 := s.th.ereg 1 }
    match s.tlbwCore x with
    | none => .error k.operand
    | some core =>
      if x.extractLsb' 13 51 ≠ 0 ∨ entryReserved e.w0 e.w1 then .error k.operand
      else
        let c := clusterOf s.cur.1
        let s := if x.getLsbD 12 then s.setCluster c ((s.cluster c).fill e) else s
        .ok (match core with | none => s | some n => s.fillCore n e)

/-- R225: Invalidates the TLB entries covering a virtual address in the cluster. -/
def execTlbi (a : BitVec 5) (s : State) : Out :=
  issue { code := (.long (3840#13 ++ a ++ 107#14)), reads := [a.toNat], bars := s.tlbBar } s fun s =>
    let (x, s) := s.readS a.toNat
    .ok (s.dropEntries (clusterOf s.cur.1) (fun e => e.hits x))

/-- R225: Invalidates every TLB entry of the cluster. -/
def execTlbiAll (s : State) : Out :=
  issue { code := (.long 2013270123#32), bars := s.tlbBar } s fun s => .ok (s.dropEntries (clusterOf s.cur.1) (fun _ => true))

end Sys2Proof.Machine
end

