-- ==== Sys2Proof/Machine/Fetch.lean ====
section
/-!
DEFINITION. What a core's cycle does besides the instruction: fetching it (R113, R114, R169, R407, R414), the traps of words that
are no instruction or cannot be fetched (R171, R383), the slot after a trap (R359) and hand-back traps (R361, R415, R419).
-/

namespace Sys2Proof.Machine

open Sys2Proof

/-! ## Fetching -/

/-- The two bytes at a target, the structure that holds a poisoned one, if any, and the state with the arrival logged (R129); the storage
window's bytes are free values, and so are those of the control window, which no fetch reaches. -/
def State.targetHalf (s : State) (t : Target) (pa : Nat) : List Byte × Option Nat × State :=
  match t with
  | .dram =>
    let (bs, bad, s') := s.dramRead pa 2 3 (s.source s.cur.1 s.cur.2 false)
    (bs, if bad then some s.homeCode else none, s')
  | .window m =>
    (s.lsBytes m (pa % 0x80000) 2, if anyBad (s.core m).lsBad (pa % 0x80000) 2 then some 3 else none,
     s.logPort m (pa % 0x80000) 2 3 (s.source s.cur.1 s.cur.2 (decide (m = s.cur.1))))
  | .host => (memRead (s.hostAddr pa) 2 s.hostMem, none, s)
  | .peer _ => (s.dramPeek pa 2, if anyBad s.dramBad (s.dramKey pa) 2 then some s.homeCode else none, s)
  | .router => ([], none, s)
  | .control => ([], none, s)
  | .storage => ([Config.freeByte s.tick 0, Config.freeByte s.tick 1], none, s)

/-- Why the target of a fetch, or the fabric before it, refuses the fetch, if one does (R333, R353, R415, R433). -/
def State.fetchRefused (s : State) (t : Target) (pa : Nat) : Option Nat :=
  if t = .router then some 1
  else if !s.tableAllows (tableOf t) (masterOf s.th.priv) pa 2 3 then some 4
  else
    match t with
    | .host => if s.ulisil.up then none else some 5
    | .peer d => if s.reachable d then s.peerWhy 3 [(pa, 2)] else some 5
    | _ => none

/-- The structure on whose way the payload of this read of the issuing thread is poisoned, with the kind 17 record (R405, R429, R432, R439). -/
def State.linkPoison (s : State) (va : Word) (pa : Nat) : Option (Nat × State) :=
  match s.th.linkBad with
  | none => none
  | some code =>
    if s.crosses s.cur.1 code pa then some (code, s.reportThread s.cur.1 s.cur.2 17 code s.th.pc va 1) else none

/-- One halfword of an instruction word. A fetch waits for a link that retrains, and up to 1 ms for a path (R432, R440). -/
def State.fetchHalf (s : State) (va : Word) : Except Stop (BitVec 16 × State) :=
  match s.translate s.cur.1 s.cur.2 s.th.priv s.th.walk va 3 with
  | .fault why s' => .error (.trapTlb s'.co.tlb 13 (xlatVal va 3 why))
  | .miss s' => .error (.stall s')
  | .ok pa _ s' =>
    match s'.decodePa pa 2 3 with
    | .error why => .error (.trapTlb s'.co.tlb 14 (mapVal pa why 3 false))
    | .ok t =>
      if s'.pathHeld s.th.isLate pa then .error (.stall s')
      else
        match s'.fetchRefused t pa with
        | some why => .error (.trapTlb s'.co.tlb 14 (mapVal pa why 3 false))
        | none =>
          match s'.targetHalf t pa with
          | (_, some code, s') => .error (.failRead s' s.th.pc va (BitVec.ofNat 64 code))
          | (bs, none, s') =>
            match s'.linkPoison va pa with
            | some (code, s') => .error (.failRead s' s.th.pc va (BitVec.ofNat 64 code))
            | none => .ok (BitVec.ofNat 16 (leNat bs), s')

/-- The word at the PC of the issuing thread: one halfword, or two when its low bits are 11 (R169). -/
def State.fetch (s : State) : Except Stop (Code × State) := do
  let (h, s) ← s.fetchHalf s.th.pc
  if h.extractLsb' 0 2 = 3#2 then
    let (g, s) ← s.fetchHalf (s.th.pc + 2)
    pure (.long (g ++ h), s)
  else pure (.half h, s)

/-- A fetch that does not end in a word: the thread traps, waits for the walk or fails. -/
def State.fetchStop (s : State) (r : Stop) : State :=
  (s.setTh { s.th with run := .running, qblock := none }).stop r

/-! ## Hand-back traps (R361, R415, R419) -/

/-- The thread may take a trap that is due: it is not in its handler, and it is between instructions or in one that starts over. -/
def Thread.interruptible (t : Thread) : Bool :=
  !t.act && (decide (t.phase = 0) || decide (16 ≤ t.phase)) && (match t.run with | .running => true | .stalled => true | _ => false)

/-- The registers that wait for a load keep their values, and no longer wait. -/
def Thread.releaseLoad (t : Thread) (id : Nat) : Thread :=
  { t with pend := t.pend.filter (fun x => decide (x.2 ≠ id)), loads := t.loads.filter (fun l => decide (l.id ≠ id)) }

/-- In a pair the trailing thread's register is released with the leading one's. -/
def State.freeTrailing (s : State) (id : Nat) : State :=
  if s.th.pair = 1 then
    s.setThread s.cur.1 (s.cur.2 + 8) ((s.thread s.cur.1 (s.cur.2 + 8)).releaseLoad id)
  else s

/-- The oldest trap that is due is taken by the issuing thread instead of an instruction, by both threads of a pair (R361, R370). -/
def State.handbackTrap (s : State) : State :=
  match s.th.due with
  | [] => s
  | d :: rest =>
    let s0 := s.setTh { s.th with run := .running }
    let s1 :=
      if s.th.pair = 1 then (s0.setTh { s0.th with cmp := none }).syncTrailing.bothTrap d.code d.val s.th.pc none
      else s0.takeTrap d.code d.val s.th.pc
    match s1.th.run with
    | .trapped =>
      let t := { s1.th with due := rest, hb := some { d with mark := s1.nextId } }
      match d.release with
      | some id => (s1.setTh (t.releaseLoad id)).freeTrailing id
      | none => s1.setTh t
    | _ => s1

/-! ## The meanings of these steps -/

/-- The word of an illegal instruction as the trap shows it: a halfword in bits [15:0] (R360). -/
def illegalWord (w : BitVec 32) (half : Bool) : Word := (if half then w &&& 0xFFFF else w).zeroExtend 64

/-- R171: An unassigned word raises the illegal-instruction trap. -/
def execIllegalInstruction (w : BitVec 32) (half : Bool) (s : State) : Out :=
  .next ((s.setTh { s.th with run := .running, qblock := none }).trapOr 1 (illegalWord w half))

/-- R414: A fetch that cannot translate raises the translation fault, with the faulting halfword's address. -/
def execInstructionFetchFault (va : Word) (why : BitVec 3) (s : State) : Out :=
  .next (s.fetchStop (.trap 13 (xlatVal va 3 why.toNat)))

/-- R359: In the slot after a trap the park save area is written, and the handler may issue. -/
def execTrapEntry (site slot : Nat) (s : State) : Out :=
  match (s.thread site slot).run with
  | .trapped => .next (s.enterHandler site slot)
  | _ => .next s

/-- R361: A trap that is due is taken at the start of the first slot in which the thread would issue with ACT = 0. -/
def execHandbackTrap (site slot : Nat) (s : State) : Out :=
  let s' := { s with cur := (site, slot) }
  if s'.th.interruptible then .next s'.handbackTrap else .next s

/-! ## A core's cycle (R31 to R33) -/

/-- The unit of a core is powered and its clock runs (R32, R342, R448); after boot a core without a number is as one fused off (R355). -/
def State.clocked (s : State) (n : Nat) : Bool :=
  s.on && s.fatal.isNone && !s.cold.stopped && !s.cold.overCap && decide (s.cold.hotDie ≠ some (clusterOf n / 64)) && decide (8 + clusterOf n < s.powered)
    && (decide (2048 ≤ n) || s.enabled n)

/-- The slot that issues in a core's present cycle (R31). -/
def State.slotOf (s : State) (n : Nat) : Nat := (s.core n).cyc % 16

/-- The end of a core's cycle. -/
def State.endCycle (s : State) (n : Nat) : State := s.setCore n { s.core n with cyc := (s.core n).cyc + 1 }

/-- A thread is stalled on a queue register (R57). -/
def Thread.queueStalled (t : Thread) : Bool :=
  t.qblock.isSome && (match t.run with | .stalled => true | _ => false)

/-- A slot is stalled on a queue register, by itself or as the trailing thread that waits for what its leading one takes (R65). -/
def Core.slotStalled (c : Core) (i : Nat) : Bool :=
  (c.thread i).queueStalled || (decide ((c.thread i).pair = 2 ∧ (c.thread i).run = .stalled) && (c.thread (i - 8)).queueStalled)

/-- The watchdog's conditions hold in this cycle (R375). -/
def Core.watched (c : Core) : Bool :=
  c.threads.any (fun x => x.2.queueStalled) && c.threads.all (fun x => !x.2.busyTask || c.slotStalled x.1) && c.ops.isEmpty

/-- The core's watchdog expires: a kind 6 record, every blocked thread fails, and the queues are emptied and disabled (R375). -/
def State.watchdog (s : State) (n : Nat) : State :=
  let c := s.core n
  if c.wdog < 0x100000 then s
  else
    let stuck := c.threads.filter (fun x => x.2.queueStalled)
    let mask := (stuck.map (fun x => 2 ^ x.1)).sum
    let occ := ((List.range 4).map (fun q => (c.queue q).items.length * 2 ^ (8 * q))).sum
    let s := s.record (clusterOf n) { bareRec 6 0 (BitVec.ofNat 64 mask) (BitVec.ofNat 64 occ) with core := c.lcore, cyc := c.cyc }
    let s := stuck.foldl (fun s x =>
      let q := x.2.qblock.getD (0, false)
      match (s.thread n x.1).run with
      | .stalled => s.failThread n x.1 { cause := 5, pc := x.2.pc, val1 := BitVec.ofNat 64 (q.1 % 4 + 4 * b2n q.2), val2 := 0,
                                         pre := false, queued := false }
      | _ => s) s
    s.setCore n { s.core n with hwq := [], wdog := 0 }

/-- The watchdog counts the cycle (R375). -/
def State.watch (s : State) (n : Nat) : State :=
  let c := s.core n
  (s.setCore n { c with wdog := if c.watched then c.wdog + 1 else 0 }).watchdog n

/-- Something reaches a core from outside: its watchdog counter starts over (R375). -/
def State.touch (s : State) (n : Nat) : State :=
  if (s.core n).wdog = 0 then s else s.setCore n { s.core n with wdog := 0 }

/-- R375: The core watchdog fails the blocked threads after 2^20 cycles. -/
def execQueueStallWatchdog (site : Nat) (s : State) : Out := .next (s.watchdog site)

end Sys2Proof.Machine
end

