-- ==== Sys2Proof/Machine/Crypto.lean ====
section
/-!
DEFINITION. SHA-512 (FIPS 180-4) and Ed25519ph (RFC 8032), which R344 and R345 name and do not define (log entry 34).
-/

namespace Sys2Proof.Machine

open Sys2Proof

/-! ## SHA-512 -/

/-- The greatest r below 2^n, above what is in `acc`, whose k-th power is at most x. -/
def rootBits (k x : Nat) : Nat → Nat → Nat
  | 0, acc => acc
  | n + 1, acc => rootBits k x n (if (acc + 2 ^ n) ^ k ≤ x then acc + 2 ^ n else acc)

/-- 64 bits of the fraction of the k-th root of a number (FIPS 180-4, 4.2.3 and 5.3.5). -/
def rootFraction (k x : Nat) : BitVec 64 := BitVec.ofNat 64 (rootBits k (x * 2 ^ (64 * k)) 72 0)

/-- The first n primes. -/
def firstPrimes (n : Nat) : List Nat :=
  ((List.range' 2 500).filter (fun p => (List.range' 2 21).all (fun d => decide (p ≤ d ∨ p % d ≠ 0)))).take n

/-- The constants of the rounds, and the initial hash value. -/
def shaConstants : List (BitVec 64) := (firstPrimes 80).map (rootFraction 3)
def shaStart : List (BitVec 64) := (firstPrimes 8).map (rootFraction 2)

/-- The functions of SHA-512 (FIPS 180-4, 4.1.3). -/
def shaSum (a b c : Nat) (x : BitVec 64) : BitVec 64 := x.rotateRight a ^^^ x.rotateRight b ^^^ x.rotateRight c
def shaMix (a b c : Nat) (x : BitVec 64) : BitVec 64 := x.rotateRight a ^^^ x.rotateRight b ^^^ (x >>> c)

/-- The message schedule: words are added at the end, one for each step. -/
def shaSchedule : Nat → List (BitVec 64) → List (BitVec 64)
  | 0, w => w
  | n + 1, w =>
    let at_ (j : Nat) : BitVec 64 := w.getD (w.length - j) 0
    shaSchedule n (w ++ [shaMix 19 61 6 (at_ 2) + at_ 7 + shaMix 1 8 7 (at_ 15) + at_ 16])

/-- One round over the eight working variables. -/
def shaRound (v : List (BitVec 64)) (kw : BitVec 64 × BitVec 64) : List (BitVec 64) :=
  match v with
  | [a, b, c, d, e, f, g, h] =>
    let t1 := h + shaSum 14 18 41 e + ((e &&& f) ^^^ (~~~e &&& g)) + kw.1 + kw.2
    let t2 := shaSum 28 34 39 a + ((a &&& b) ^^^ (a &&& c) ^^^ (b &&& c))
    [t1 + t2, a, b, c, d + t1, e, f, g]
  | v => v

/-- One block of 16 words. -/
def shaBlock (h : List (BitVec 64)) (block : List (BitVec 64)) : List (BitVec 64) :=
  let r := (shaConstants.zip (shaSchedule 64 block)).foldl shaRound h
  (h.zip r).map (fun x => x.1 + x.2)

/-- A number from bytes, the first one highest. -/
def beNat (bs : List Byte) : Nat := bs.foldl (fun n b => n * 256 + b.toNat) 0

/-- A message with its padding: 1, zeros, and its length in bits as 128 bits. -/
def shaPad (m : List Byte) : List Byte :=
  m ++ [0x80] ++ List.replicate ((239 - m.length % 128) % 128) 0 ++ (leBytes 16 (8 * m.length)).reverse

/-- The blocks of a padded message, hashed in order. -/
def shaBlocks : Nat → List Byte → List (BitVec 64) → List (BitVec 64)
  | 0, _, h => h
  | n + 1, m, h =>
    let words := (List.range 16).map (fun j => BitVec.ofNat 64 (beNat ((m.drop (8 * j)).take 8)))
    shaBlocks n (m.drop 128) (shaBlock h words)

/-- The 64 bytes of a SHA-512 digest. -/
def sha512 (m : List Byte) : List Byte :=
  let p := shaPad m
  (shaBlocks (p.length / 128) p shaStart).flatMap (fun w => (leBytes 8 w.toNat).reverse)

/-! ## Ed25519 (RFC 8032, 5.1) -/

/-- The field prime and the order of the base point. -/
def edP : Nat := 2 ^ 255 - 19
def edL : Nat := 2 ^ 252 + 27742317777372353535851937790883648493

/-- x^e modulo m, by the n low bits of e. -/
def powMod (m x e : Nat) : Nat → Nat
  | 0 => 1 % m
  | n + 1 =>
    let r := powMod m (x * x % m) (e / 2) n
    if e % 2 = 1 then r * x % m else r

/-- The inverse in the field; 0 of 0. -/
def edInv (x : Nat) : Nat := powMod edP x (edP - 2) 255

/-- The curve's constant d. -/
def edD : Nat := (edP - 121665) * edInv 121666 % edP

/-- A point of the curve by its coordinates. -/
abbrev EdPoint := Nat × Nat

/-- The sum of two points. -/
def edAdd (a b : EdPoint) : EdPoint :=
  let k := edD * (a.1 * b.1 % edP) % edP * (a.2 * b.2 % edP) % edP
  ((a.1 * b.2 + b.1 * a.2) % edP * edInv ((1 + k) % edP) % edP, (a.2 * b.2 + a.1 * b.1) % edP * edInv ((edP + 1 - k) % edP) % edP)

/-- A multiple of a point, by the n low bits of the factor. -/
def edMul (k : Nat) (a : EdPoint) : Nat → EdPoint
  | 0 => (0, 1)
  | n + 1 =>
    let r := edMul (k / 2) (edAdd a a) n
    if k % 2 = 1 then edAdd r a else r

/-- A square root of u / v in the field, if there is one (RFC 8032, 5.1.3). -/
def edRoot (u v : Nat) : Option Nat :=
  let q := u * edInv v % edP
  let r := powMod edP q ((edP + 3) / 8) 255
  if r * r % edP = q then some r
  else
    let r := r * powMod edP 2 ((edP - 1) / 4) 255 % edP
    if r * r % edP = q then some r else none

/-- The point with coordinate y whose x has a given low bit. -/
def edPoint (y sign : Nat) : Option EdPoint :=
  if edP ≤ y then none
  else
    match edRoot ((y * y + edP - 1) % edP) ((edD * (y * y % edP) + 1) % edP) with
    | none => none
    | some x => if x = 0 ∧ sign = 1 then none else some (if x % 2 = sign then x else edP - x, y)

/-- The point of 32 bytes, and the bytes of a point. -/
def edDecode (bs : List Byte) : Option EdPoint :=
  if bs.length ≠ 32 then none else edPoint (leNat bs % 2 ^ 255) (leNat bs / 2 ^ 255)
def edEncode (a : EdPoint) : List Byte := leBytes 32 (a.2 + a.1 % 2 * 2 ^ 255)

/-- The base point. -/
def edBase : EdPoint := (edPoint (4 * edInv 5 % edP) 0).getD (0, 1)

/-- The prefix of Ed25519ph with an empty context (RFC 8032, 5.1 and 2). -/
def edPrefix : List Byte :=
  ("SigEd25519 no Ed25519 collisions".toList.map (fun c => BitVec.ofNat 8 c.toNat)) ++ [1, 0]

/-- The secret scalar and the prefix that a private key gives (RFC 8032, 5.1.5). -/
def edSecret (key : List Byte) : Nat × List Byte :=
  let h := sha512 key
  let a := leNat (h.take 32)
  (a % 2 ^ 254 / 8 * 8 + 2 ^ 254, h.drop 32)

/-- The public key of a private key. -/
def edPublic (key : List Byte) : List Byte := edEncode (edMul (edSecret key).1 edBase 256)

/-- The Ed25519ph signature of a message under a private key (RFC 8032, 5.1.6). -/
def edSign (key msg : List Byte) : List Byte :=
  let (a, pre) := edSecret key
  let ph := sha512 msg
  let r := leNat (sha512 (edPrefix ++ pre ++ ph)) % edL
  let rb := edEncode (edMul r edBase 256)
  let k := leNat (sha512 (edPrefix ++ rb ++ edPublic key ++ ph)) % edL
  rb ++ leBytes 32 ((r + k * a) % edL)

/-- A signature of a message verifies under a public key; the equation is the one with the cofactor (RFC 8032, 5.1.7; log entry 34). -/
def edVerify (pub sig msg : List Byte) : Bool :=
  match edDecode pub, edDecode (sig.take 32) with
  | some a, some r =>
    let s := leNat (sig.drop 32)
    let k := leNat (sha512 (edPrefix ++ sig.take 32 ++ pub ++ sha512 msg)) % edL
    decide (sig.length = 64 ∧ s < edL ∧ edMul (8 * s) edBase 256 = edAdd (edMul 8 r 4) (edMul (8 * k) a 256))
  | _, _ => false

end Sys2Proof.Machine
end

