-- ==== Sys2Proof/Machine/Launch.lean ====
section
/-!
DEFINITION. The launch port (R36 to R38, R316 to R318, R451): headers and shape records, their checks, starting a launch, its items,
its completion, and the report ring.
-/

namespace Sys2Proof.Machine

open Sys2Proof

/-! ## Molt states (R338) -/

/-- The state's code. -/
def Molt.code : Molt → Nat
  | .off => 0
  | .warmService => 1
  | .coolPrep => 2
  | .cooling => 3
  | .soak => 4
  | .coldReady => 5
  | .coldRun => 6
  | .excursion => 7
  | .warming => 8

/-- The Molt enters a state; its limit counts from now (R444). -/
def State.enterMolt (s : State) (m : Molt) : State :=
  { s with cold := { s.cold with molt := m, entered := s.cold.time, limited := false, soakFrom := none } }

/-- Some launch is live that is not suspended (R338, R341). -/
def State.working (s : State) : Bool := s.launches.any (fun x => !x.2.suspended)

/-! ## Access by the host -/

/-- The control window answers the companion at an offset (R432, R448): in the fatal state only the identity and temperature blocks. -/
def State.hostReaches (s : State) (off : Nat) : Bool :=
  s.on && s.ulisil.up && !s.ulisil.retraining
    && (s.fatal.isNone || decide (off < 0x10) || decide (0x1000 ≤ off ∧ off < 0x1300))

/-- A host access to the control window passes its table (R312, R333). -/
def State.hostMay (s : State) (off size acc : Nat) : Bool :=
  s.hostReaches off && s.tableAllows 2 4 (s.ctrlPa off) size acc

/-! ## Headers (R316) -/

/-- What the port answers to a block write. -/
inductive PortAnswer where
  /-- taken -/
  | done (s : State)
  /-- held back by flow control; the write stays with its sender -/
  | hold
  /-- refused, without effect -/
  | refuse
  deriving DecidableEq, Repr

/-- The header's SHP bit. -/
def Header.shp (h : Header) : Bool := h.hdr.getLsbD 427

/-- The newest header waits for its shape record (R316, R451). -/
def Port.shapeWaits (p : Port) : Bool := p.headers.any (fun h => h.shp && h.shape.isNone)

/-- A 64-byte write of a header (R316). -/
def State.putHeader (s : State) (hdr : BitVec 512) : PortAnswer :=
  if 16 ≤ s.port.headers.length ∨ s.port.shapeWaits = true then .hold
  else
    let h : Header := { lseq := s.port.lseq, hdr := hdr, shape := none, accepted := false }
    .done { s with port := { s.port with headers := s.port.headers ++ [h], lseq := (s.port.lseq + 1) % 2 ^ 32 } }

/-- A 32-byte write of a shape record (R316). -/
def State.putShape (s : State) (shape : BitVec 256) : PortAnswer :=
  if s.port.shapeWaits then
    .done { s with port := { s.port with headers := s.port.headers.map (fun h =>
      if h.shp && h.shape.isNone then { h with shape := some shape } else h) } }
  else .refuse

/-- A field of a header by bit range (R36). -/
def Header.field (h : Header) (lo len : Nat) : Nat := bits h.hdr.toNat lo len

/-- The sum of the six field widths. -/
def Header.widths (h : Header) : Nat := ((List.range 6).map (fun k => h.field (384 + 6 * k) 6)).sum

/-- Why the port refuses a header; the reason of site mode comes first (R37, R317). -/
def State.refusalOf (s : State) (h : Header) : Option Nat :=
  let early := match s.cold.molt with | .coolPrep => true | .cooling => true | .soak => true | .warming => true | _ => false
  if s.site then some 10
  else if !canonical (h.hdr.extractLsb' 0 64) then some 1
  else if 6 ≤ h.field 422 3 then some 2
  else if h.field 455 4 < h.field 448 4 ∨ h.field 459 3 < h.field 452 3 then some 3
  else if h.field 480 32 = 0 then some 4
  else if 64 < h.widths then some 5
  else if 2 ^ h.widths < h.field 480 32 then some 6
  else if s.cold.band = 2 ∧ h.field 426 1 = 0 then some 7
  else if early then some 8
  else if h.field 425 1 = 1 ∧ h.field 64 64 % 128 ≠ 0 then some 9
  else none

/-- A launch is live or accepted: the Molt waits for it (R338; log entry 35). -/
def State.awaited (s : State) : Bool := s.working || s.port.headers.any (fun h => h.accepted)

/-- A launch is accepted, or a suspended one resumed: COLD_READY becomes COLD_RUN, unless a ramp limit holds the state (R338, R339, R341). -/
def State.wakeMolt (s : State) : State :=
  match s.cold.molt with
  | .coldReady => if s.cold.ramping then s else s.enterMolt .coldRun
  | _ => s

/-- The oldest header that was not accepted is checked, once its shape record and the report ring are present (R316, R317, R338). -/
def State.checkHeader (s : State) : State :=
  match s.port.headers.find? (fun h => !h.accepted) with
  | none => s
  | some h =>
    if !s.port.lrset || (h.shp && h.shape.isNone) then s
    else
      match s.refusalOf h with
      | some r =>
        let s := { s with port := { s.port with headers := s.port.headers.filter (fun x => decide (x.lseq ≠ h.lseq)) } }
        s.report { kind := 2, lnch := 0, lseq := h.lseq, code := r, value := 0 }
      | none =>
        State.wakeMolt { s with port := { s.port with headers := s.port.headers.map (fun x =>
            if x.lseq = h.lseq then { x with accepted := true } else x) } }

/-! ## Live launches (R37, R38) -/

/-- The number of items of a launch. -/
def Launch.count (l : Launch) : Nat := l.field 480 32

/-- The clusters of a launch's group that hold an enabled core, row by row (R38). -/
def State.groupOf (s : State) (l : Launch) : List Nat := l.clusters.filter (fun k => !(s.coresOf k).isEmpty)

/-- GEO2 of a launch (R40). -/
def State.geo2Of (s : State) (l : Launch) : Word :=
  let g := ((s.groupOf l).map (fun k => (s.coresOf k).length)).sum
  BitVec.ofNat 64 (l.field 384 36 + l.field 420 2 * 2 ^ 36 + l.field 448 4 * 2 ^ 38 + l.field 452 3 * 2 ^ 42
    + l.field 455 4 * 2 ^ 45 + l.field 459 3 * 2 ^ 49 + g % 0x1000 * 2 ^ 52)

/-- The lowest launch index that is not live (log entry 16). -/
def State.freeIndex (s : State) : Option Nat := (List.range 16).find? (fun i => (s.launch i).isNone)

/-- The oldest accepted header becomes a live launch when fewer than 16 are live; it is reported with its index (R37, R318). The spec gives
no cycle in which its items reach their dispensers: every item has the age of the launch's start, which the model takes (R55; log entry
19). -/
def State.startLaunch (s : State) : State :=
  match s.port.headers.find? (fun h => h.accepted), s.freeIndex with
  | some h, some i =>
    let sh := (h.shape.getD 0)
    let l : Launch :=
      { lseq := h.lseq, age := s.nextId, hdr := h.hdr, geo0 := sh.extractLsb' 0 64 &&& 0x7FFFFFFFFFFFFFFF
        geo1 := sh.extractLsb' 64 64 &&& 0x1FFFFFFFFFFF, handed := [], numbered := 0, toStart := h.field 480 32, live := 0
        failed := 0, rot := 0, suspended := false }
    let s := { s with port := { s.port with headers := s.port.headers.filter (fun x => decide (x.lseq ≠ h.lseq)) }
                      nextId := s.nextId + 1, launches := tblSet i l s.launches }
    s.report { kind := 1, lnch := i, lseq := h.lseq, code := 0, value := 0 }
  | _, _ => s

/-- Change a live launch. -/
def State.modLaunch (s : State) (i : Nat) (f : Launch → Launch) : State :=
  match s.launch i with
  | none => s
  | some l => { s with launches := tblSet i (f l) s.launches }

/-- A launch of which every item's tree has quit completes: the failed items are reported, then the completion (R48, R318, R369). -/
def State.complete (s : State) (i : Nat) : State :=
  match s.launch i with
  | none => s
  | some l =>
    if l.toStart = 0 ∧ l.live = 0 then
      let s := { s with launches := tblDel i s.launches }
      let s := if l.failed = 0 then s
        else s.report { kind := 6, lnch := i, lseq := 0, code := 0, value := BitVec.ofNat 64 l.failed }
      s.report { kind := 3, lnch := i, lseq := 0, code := 0, value := 0 }
    else s

/-- A task or transaction of a launch begins. -/
def State.born (s : State) (i : Nat) : State := s.modLaunch i (fun l => { l with live := l.live + 1 })

/-- A task or transaction of a launch ends. -/
def State.ended (s : State) (i : Nat) : State := (s.modLaunch i (fun l => { l with live := l.live - 1 })).complete i

/-- Failed items of a launch (R369). -/
def State.failedItems (s : State) (i n : Nat) : State := s.modLaunch i (fun l => { l with failed := l.failed + n })

/-- The next item that a cluster's dispenser holds for a free-task launch (R38). -/
def State.nextItem (s : State) (l : Launch) (k : Nat) : Option Nat :=
  let g := s.groupOf l
  match g.findIdx? (fun x => decide (x = k)) with
  | none => none
  | some j =>
    let n := j + g.length * tblGet 0 k l.handed
    if n < l.count then some n else none

/-! ## The report ring (R318, R451) -/

/-- Records in the ring. -/
def Port.unread (p : Port) : Nat := (p.lrtail + 512 - p.lrhead % 512) % 512

/-- The oldest report waiting is written when the ring has room (R318). -/
def State.writeReport (s : State) : State :=
  match s.port.reports with
  | [] => s
  | r :: rest =>
    if !s.port.lrset || decide (256 ≤ s.port.unread) then s
    else
      let s := s.devWrite 1 (s.port.lrbase + 16 * (s.port.lrtail % 256)) r.bytes
      { s with port := { s.port with reports := rest, lrtail := (s.port.lrtail + 1) % 512 } }

/-- A write of LRHEAD that would leave more than 256 records unread is ignored (R318). -/
def State.setLrhead (s : State) (v : Word) : State :=
  let h := v.toNat % 512
  if 256 < (s.port.lrtail + 512 - h) % 512 then s else { s with port := { s.port with lrhead := h } }

/-- A write of LRBASE takes effect while no launch is live and the ring is empty (R451). -/
def State.setLrbase (s : State) (v : Word) : State :=
  if s.noLaunch && decide (s.port.lrhead = s.port.lrtail) then
    { s with port := { s.port with lrbase := bits v.toNat 12 36 * 2 ^ 12, lrset := true } }
  else s

/-- SHWIN changes while no launch is live (R321). -/
def State.setShwin (s : State) (v : Word) : State :=
  if s.noLaunch then { s with port := { s.port with shsize := bits v.toNat 0 8, shbase := bits v.toNat 30 18 * 2 ^ 30 } } else s

/-- HWBASE changes while no launch is live (R321). -/
def State.setHwbase (s : State) (v : Word) : State :=
  if s.noLaunch then { s with port := { s.port with hwbase := bits v.toNat 30 18 * 2 ^ 30 } } else s

/-- An answer to a host's block write: what is held back or refused leaves the machine as it is. -/
def PortAnswer.forHost (a : PortAnswer) (s : State) : Out :=
  match a with
  | .done s' => .next s'
  | .hold => .next s
  | .refuse => .next s

/-- R316: Host writes a 64-byte launch header at LPORT, held by flow control when the port is full. -/
def execLaunchHeaderWrite (hdr : BitVec 512) (s : State) : Out :=
  if s.hostMay 0x10000 64 1 then (s.putHeader hdr).forHost s else .next s

/-- R316: Host writes a 32-byte shape record for the newest waiting header, or it is refused. -/
def execShapeRecordWrite (shape : BitVec 256) (s : State) : Out :=
  if s.hostMay 0x10040 32 1 then (s.putShape shape).forHost s else .next s

/-- R317: The port checks the next header in arrival order once its shape record and the ring are present, and reports accept
  or refuse. -/
def execLaunchHeaderCheck (s : State) : Out :=
  .next (if s.on && s.fatal.isNone then s.checkHeader else s)

/-- R37: An accepted header becomes a live launch with an index when fewer than 16 are live. -/
def execLaunchStart (s : State) : Out :=
  .next (if s.on && s.fatal.isNone then s.startLaunch else s)

/-- R318: The device writes a report record into the ring when there is room and advances LRTAIL. -/
def execReportRecordWrite (s : State) : Out :=
  .next (if s.on && s.fatal.isNone then s.writeReport else s)

/-- R318: Host advances LRHEAD; a value exceeding the ring bound is ignored. -/
def execLrheadWrite (v : Word) (s : State) : Out :=
  .next (if s.hostMay 0x10090 8 1 then s.setLrhead v else s)

/-- R451: Host sets the report ring base, taking effect only with no live launch and an empty ring. -/
def execLrbaseWrite (v : Word) (s : State) : Out :=
  .next (if s.hostMay 0x10088 8 1 then s.setLrbase v else s)

/-- R321: Host sets the shared window, effective only while no launch is live. -/
def execShwinWrite (v : Word) (s : State) : Out :=
  .next (if s.hostMay 0x10200 8 1 then s.setShwin v else s)

/-- R321: Host sets the host-window base, effective only while no launch is live. -/
def execHwbaseWrite (v : Word) (s : State) : Out :=
  .next (if s.hostMay 0x10208 8 1 then s.setHwbase v else s)

end Sys2Proof.Machine
end

