-- ==== Sys2Proof/Machine/Firmware.lean ====
section
/-!
DEFINITION. Firmware requests (R118, R320, R343 to R345, R443, R445 to R447): the boot doorbell, invalidation, the quote, admin
commands, the identity key, the trip log and the governor's freeze. A request acts when it is taken and is answered by its report.
-/

namespace Sys2Proof.Machine

open Sys2Proof

/-- Queue a request with its result. -/
def State.request (s : State) (op tag status value : Nat) : State :=
  let r : FwReq := { op := op, tag := tag, status := status, value := BitVec.ofNat 64 value }
  { s with port := { s.port with fwreqs := s.port.fwreqs ++ [r] } }

/-- The request port takes none now: it is full, or the boot core, which serves it, has not powered up (R320, R342, R343). -/
def State.fwFull (s : State) : Bool := decide (8 ≤ s.port.fwreqs.length ∨ s.powered ≤ 8 + clusterOf (bootSite s.fused))

/-! ## Boot (R343, R344, R446) -/

/-- A byte range of the package's own DRAM. -/
def State.ownDram (s : State) (a n : Nat) : List Byte := memRead a n s.dram

/-- The payload length that the image's header gives (R344). -/
def State.imageLength (s : State) : Nat := leNat (s.ownDram 8 4)

/-- The first check that the image fails (R344, R446); 0 when it is accepted. -/
def State.imageResult (s : State) : Nat :=
  let key := leNat (s.ownDram 12 1)
  let len := s.imageLength
  if leNat (s.ownDram 0 4) ≠ 0x4F5A4C31 then 16
  else if leNat (s.ownDram 4 4) < s.minVersion then 17
  else if 3 < key ∨ sha512 (s.ownDram 80 32) ≠ tblGet [] key s.keyHash then 18
  else if s.revoked.contains key then 19
  else if leNat (s.ownDram 13 3) ≠ 0 ∨ leNat (s.ownDram 112 16) ≠ 0 then 20
  else if !edVerify (s.ownDram 80 32) (s.ownDram 16 64) (s.ownDram 0 16 ++ s.ownDram 128 len) then 21
  else if len = 0 ∨ 0x7735940000 < 128 + len + 64 then 22
  else 0

/-- The boot doorbell (R343, R446): an accepted image gives VERSION, the digest and PIDX; another leaves the part in WARM_SERVICE; after boot
it is an unknown request. -/
def State.bootDoorbell (s : State) (tag : Nat) : State :=
  if s.booted || !s.site then s.request 0 tag 1 0
  else
    let r := s.imageResult
    let len := s.imageLength
    let ok := if r = 0 then
        { s with booted := true, fwVersion := leNat (s.ownDram 4 4), fwDigest := sha512 (s.ownDram 0 (128 + len))
                 bootPidx := leNat (s.ownDram (128 + len) 1) }
      else if s.cold.molt = .warmService then s
      else s.enterMolt .warmService
    ok.request 0 tag r 0

/-! ## Invalidation (R118, R320) -/

/-- The arguments of an invalidation are within their bounds. -/
def invalidRange (va len : Word) : Bool :=
  !canonical va || decide (va.toNat % 0x10000 ≠ 0) || decide (len.toNat % 0x10000 ≠ 0)

/-- An entry's page meets a range of virtual addresses. -/
def TlbEntry.meets (e : TlbEntry) (va len : Word) : Bool :=
  let lo := (va.extractLsb' 0 56).toNat
  let size := if e.w0.getLsbD 1 then 2 ^ 25 else 2 ^ 16
  let base := (e.w0.extractLsb' 16 40).toNat * 2 ^ 16 / size * size
  decide (base < lo + len.toNat ∧ lo < base + size)

/-- Invalidate the matching entries in every cluster TLB and every core TLB of the package. -/
def State.invalidate (s : State) (va len : Word) : State :=
  let keep (e : TlbEntry) : Bool := !e.meets va len
  { s with clusters := s.clusters.map (fun x => (x.1, { x.2 with tlb := x.2.tlb.map (fun y => (y.1, y.2.filter keep)) }))
           cores := s.cores.map (fun x => (x.1, { x.2 with tlb := x.2.tlb.filter keep })) }

/-- OP 1: the mappings go at once; the answer waits for the accesses that used them. -/
def State.fwInvalidate (s : State) (tag : Nat) (va len : Word) : State :=
  if invalidRange va len then s.request 1 tag 2 0
  else if len = 0 then s.request 1 tag 0 0
  else (s.invalidate va len).request 1 tag 0 s.nextId

/-- The accesses that an invalidation waits for are acknowledged: those issued before it, the data transfers of storage commands submitted
before it, and the writes of drains submitted before it whose destination has been translated (R118). -/
def State.accessesDone (s : State) (id : Nat) : Bool :=
  s.flights.all (fun f => decide (id ≤ f.grp)) && s.storage.cmds.all (fun c => decide (id ≤ c.id) || c.done.isSome)
    && s.cores.all (fun x => x.2.ops.all (fun o => decide (id ≤ o.id ∨ o.stage ≠ .read)))

/-! ## Identity and attestation (R345) -/

/-- Bytes cut or padded with zeros to a length. -/
def fitBytes (n : Nat) (bs : List Byte) : List Byte := (bs ++ List.replicate n 0).take n

/-- DEVID (R314). -/
def devId : Nat := 0x4757 + 0x0770 * 2 ^ 16

/-- The 192 bytes of a quote over a nonce. -/
def State.quote (s : State) (nonce : List Byte) : List Byte :=
  let head := leBytes 8 devId ++ leBytes 8 s.devsn.toNat ++ leBytes 4 s.fwVersion ++ leBytes 1 s.cold.molt.code
    ++ leBytes 1 s.cold.band ++ leBytes 10 0 ++ fitBytes 64 s.fwDigest ++ fitBytes 32 nonce
  head ++ edSign Config.identitySecret head

/-- OP 2. -/
def State.fwQuote (s : State) (tag : Nat) (nonceAt resultAt : Word) : State :=
  if inDram nonceAt.toNat 32 && inDram resultAt.toNat 192 then
    let (nonce, s) := s.devRead 1 nonceAt.toNat 32
    (s.devWrite 1 resultAt.toNat (s.quote nonce)).request 2 tag 0 0
  else s.request 2 tag 2 0

/-- OP 4. -/
def State.fwIdentity (s : State) (tag : Nat) (resultAt : Word) : State :=
  if inDram resultAt.toNat 32 then (s.devWrite 1 resultAt.toNat (edPublic Config.identitySecret)).request 4 tag 0 0
  else s.request 4 tag 2 0

/-! ## Admin commands (R320, R447) -/

/-- Opcodes of NVMe of the commands that write or destroy media: Write Uncorrectable, Namespace Management, Format NVM and Sanitize (R447;
log entry 13). -/
def mediaOpcode (o : Nat) : Bool := [0x04, 0x0D, 0x80, 0x84].contains o

/-- OP 3: firmware submits the command and writes the controller's completion over its first 16 bytes. -/
def State.fwAdmin (s : State) (tag : Nat) (cmdAt ctl : Word) (completion : BitVec 128) : State :=
  if !inDram cmdAt.toNat 64 || decide (15 < ctl.toNat) then s.request 3 tag 2 0
  else
    let (cmd, s) := s.devRead 1 cmdAt.toNat 64
    if mediaOpcode (leNat (cmd.take 1)) && !s.storage.consent then s.request 3 tag 3 0
    else (s.devWrite 1 cmdAt.toNat (leBytes 16 completion.toNat)).request 3 tag 0 0

/-! ## Trip log and governor (R443, R445) -/

/-- The 32 bytes of the trip log. -/
def State.tripBytes (s : State) : List Byte :=
  match s.cold.trip with
  | none => leBytes 32 0
  | some (time, sensor, molt, reading) =>
    leBytes 8 time ++ leBytes 1 sensor ++ leBytes 1 molt ++ leBytes 1 1 ++ leBytes 1 0 ++ leBytes 2 reading ++ leBytes 18 0

/-- OP 5: the log is returned and cleared. -/
def State.fwTrip (s : State) (tag : Nat) (resultAt : Word) : State :=
  if inDram resultAt.toNat 32 then
    let s := s.devWrite 1 resultAt.toNat s.tripBytes
    State.request { s with cold := { s.cold with trip := none } } 5 tag 0 0
  else s.request 5 tag 2 0

/-- A governor's freeze is cleared. -/
def Core.unfreeze (c : Core) : Core := { c with gov := { c.gov with frozen := false } }

/-- OP 6: one logical core, or all of them. -/
def State.fwUnfreeze (s : State) (tag : Nat) (which : Word) : State :=
  if which = 0xFFFFFFFF then
    State.request { s with cores := s.cores.map (fun (x : Nat × Core) => (x.1, x.2.unfreeze)) } 6 tag 0 0
  else
    match s.siteOf which.toNat with
    | none => s.request 6 tag 2 0
    | some n => (s.setCore n (s.core n).unfreeze).request 6 tag 0 0

/-! ## Requests as they arrive, and their answers -/

/-- A request of 64 bytes at FWREQ (R320); the completion of an admin command comes from the controller. -/
def State.putRequest (s : State) (data : BitVec 512) (completion : BitVec 128) : PortAnswer :=
  let tag := (data.extractLsb' 8 8).toNat
  let w (k : Nat) : Word := data.extractLsb' (64 * k) 64
  if s.fwFull then .hold
  else
    match (data.extractLsb' 0 8).toNat with
    | 0 => .done (s.bootDoorbell tag)
    | 1 => .done (s.fwInvalidate tag (w 1) (w 2))
    | 2 => .done (s.fwQuote tag (w 1) (w 2))
    | 3 => .done (s.fwAdmin tag (w 1) (w 2) completion)
    | 4 => .done (s.fwIdentity tag (w 1))
    | 5 => .done (s.fwTrip tag (w 1))
    | 6 => .done (s.fwUnfreeze tag (w 1))
    | op => .done (s.request op tag 1 0)

/-- A request of the host: it needs room at the port and the control window's permission. -/
def State.hostRequest (s : State) (f : State → State) : Out :=
  .next (if s.hostMay 0x10100 64 1 && !s.fwFull then f s else s)

/-- The oldest request that can be answered is answered by a KIND 7 report (R320). -/
def State.answer (s : State) : State :=
  match s.port.fwreqs.find? (fun r => decide (r.value = 0) || s.accessesDone r.value.toNat) with
  | none => s
  | some r =>
    let s := { s with port := { s.port with fwreqs := s.port.fwreqs.erase r } }
    s.report { kind := 7, lnch := 0, lseq := 0, code := r.status + 256 * r.tag, value := 0 }

/-- R446: OP 0 makes the boot ROM verify the image and start boot. -/
def execFwreqBootDoorbell (tag : Byte) (s : State) : Out :=
  s.hostRequest (fun s => s.bootDoorbell tag.toNat)

/-- R118: OP 1 makes firmware invalidate the mappings of a range in every TLB. -/
def execFwreqInvalidate (tag : Byte) (va : Word) (len : Word) (s : State) : Out :=
  s.hostRequest (fun s => s.fwInvalidate tag.toNat va len)

/-- R345: OP 2 writes a signed attestation quote for a nonce. -/
def execFwreqAttestationQuote (tag : Byte) (nonceAt : Word) (resultAt : Word) (s : State) : Out :=
  s.hostRequest (fun s => s.fwQuote tag.toNat nonceAt resultAt)

/-- R320: OP 3 submits an NVMe admin command on a controller's admin queue. -/
def execFwreqAdminCommand (tag : Byte) (cmdAt : Word) (ctl : Word) (completion : BitVec 128) (s : State) : Out :=
  s.hostRequest (fun s => s.fwAdmin tag.toNat cmdAt ctl completion)

/-- R320: OP 4 writes the device identity public key. -/
def execFwreqIdentityKey (tag : Byte) (resultAt : Word) (s : State) : Out :=
  s.hostRequest (fun s => s.fwIdentity tag.toNat resultAt)

/-- R443: OP 5 returns and clears the thermal trip log. -/
def execFwreqTripLog (tag : Byte) (resultAt : Word) (s : State) : Out :=
  s.hostRequest (fun s => s.fwTrip tag.toNat resultAt)

/-- R445: OP 6 clears the governor freeze of one or all cores. -/
def execFwreqUnfreeze (tag : Byte) (which : Word) (s : State) : Out :=
  s.hostRequest (fun s => s.fwUnfreeze tag.toNat which)

/-- R320: A firmware request with an unknown OP ends with REASON 1. -/
def execFwreqUnknownOp (tag : Byte) (op : Byte) (s : State) : Out :=
  s.hostRequest (fun s => if op.toNat ≤ 6 then s else s.request op.toNat tag.toNat 1 0)

/-- R320: A firmware request ends and a KIND 7 record with its status is written. -/
def execFirmwareRequestDone (s : State) : Out :=
  .next (if s.on && s.fatal.isNone then s.answer else s)

end Sys2Proof.Machine
end

