-- ==== Sys2Proof/Machine/Control.lean ====
section
/-!
DEFINITION. Branches, counted loops, jumps, calls, returns and window control: majors 11, 12 and 13 (R206 to R209) and their
16-bit forms (R177).
-/

namespace Sys2Proof.Machine

open Sys2Proof

/-- The test of CND on a value (R206). -/
def cndHolds (cnd : Nat) (x : Word) : Bool :=
  match cnd with
  | 0 => decide (x = 0)
  | 1 => decide (x ≠ 0)
  | 2 => x.slt 0
  | 3 => !x.slt 0
  | 4 => !x.slt 0 && decide (x ≠ 0)
  | 5 => x.slt 0 || decide (x = 0)
  | 6 => x.getLsbD 0
  | _ => !x.getLsbD 0

/-- A conditional branch: to PC + 2 × offset when the test holds, else to the next word (R206). -/
def branch (c : Code) (cnd a : Nat) (off : Word) (s : State) : Out :=
  issue { code := c, reads := [a], jumps := true } s fun s =>
    let pc := s.th.pc
    let (x, s) := s.readS a
    .ok (s.jump (if cndHolds cnd x then pc + off <<< 1 else pc + BitVec.ofNat 64 c.bytes))

/-- A counted loop: the register is decremented first, taken or not; s0 keeps reading 0 (R206). -/
def loopBranch (c : Code) (cnd a : Nat) (off : Word) (s : State) : Out :=
  issue { code := c, reads := [a], writes := [a], jumps := true } s fun s =>
    let pc := s.th.pc
    let (x, s) := s.readS a
    let y := if a = 0 ∨ a = 31 then x else x - 1
    let s := s.writeS a y
    .ok (s.jump (if cndHolds cnd y then pc + off <<< 1 else pc + BitVec.ofNat 64 c.bytes))

/-- A relative jump (R207). -/
def jumpRel (c : Code) (off : Word) (s : State) : Out :=
  issue { code := c, jumps := true } s fun s => .ok (s.jump (s.th.pc + off <<< 1))

/-- Open a window for a call: overflow traps, and a fifth resident window waits for a spill (R180, R182, R207). -/
def State.callWindow (s : State) : Except Stop State :=
  if s.th.overflows 0 then .error (.trap 7 s.th.overflowVal)
  else if s.th.needSpill then .error (.stall s)
  else .ok s.openWindow

/-- A call: lk, a new window, the target (R207, R208). -/
def callTo (s : State) (target : Word) : Except Stop State := do
  let ret := s.th.pc + 4
  let s ← s.callWindow
  pure ((s.writeS 30 ret).jump target)

/-- The current window is window 0 or the first of an open inline child or pass (R209). -/
def Thread.atBottom (t : Thread) : Bool :=
  decide (t.depth = 0) || (match t.inl with | [] => false | x :: _ => decide (t.depth ≤ x.depth))

/-- The windows above k are closed; a load to one of their registers writes nothing any more (R179). -/
def Thread.closeTo (t : Thread) (k : Nat) : Thread :=
  let gone (r : RegName) : Bool := match r with | .w j => decide (12 * k + 16 ≤ j) | _ => false
  { t with depth := k, pend := t.pend.filter (fun x => !gone x.1)
           loads := t.loads.map (fun l => if gone l.dst then { l with dst := .s 0 } else l) }

/-- Close the current window; the caller's must be resident (R179, R180). -/
def State.closeWindow (s : State) : Except Stop State :=
  if s.th.needFill then .error (.stall s) else .ok (s.setTh (s.th.closeTo (s.th.depth - 1)))

/-- Jump to sA + imm; an odd target traps before any other effect (R170, R208). -/
def jumpReg (c : Code) (a : Nat) (off : Word) (s : State) : Out :=
  issue { code := c, reads := [a], jumps := true } s fun s =>
    let (x, s) := s.readS a
    let t := x + off
    if t.getLsbD 0 then .error (.trap 3 t) else .ok (s.jump t)

/-- Return: the target is lk, checked before the underflow and before the window closes (R208, R209). -/
def returnLk (c : Code) (s : State) : Out :=
  issue { code := c, reads := [30], jumps := true } s fun s =>
    let t := s.th.sreg s.cur.2 30
    if t.getLsbD 0 then .error (.trap 3 t)
    else if s.th.atBottom then .error (.trap 8 0)
    else do
      let s ← s.closeWindow
      pure (s.jump t)

/-- R206: Branches if sA is zero. -/
def execBZ (o : BitVec 15) (a : BitVec 5) (s : State) : Out :=
  branch (.long (o ++ a ++ 47#12)) 0 a.toNat (o.signExtend 64) s

/-- R206: Branches if sA is nonzero. -/
def execBNz (o : BitVec 15) (a : BitVec 5) (s : State) : Out :=
  branch (.long (o ++ a ++ 559#12)) 1 a.toNat (o.signExtend 64) s

/-- R206: Branches if sA is negative. -/
def execBLt (o : BitVec 15) (a : BitVec 5) (s : State) : Out :=
  branch (.long (o ++ a ++ 1071#12)) 2 a.toNat (o.signExtend 64) s

/-- R206: Branches if sA is non-negative. -/
def execBGe (o : BitVec 15) (a : BitVec 5) (s : State) : Out :=
  branch (.long (o ++ a ++ 1583#12)) 3 a.toNat (o.signExtend 64) s

/-- R206: Branches if sA is positive. -/
def execBGt (o : BitVec 15) (a : BitVec 5) (s : State) : Out :=
  branch (.long (o ++ a ++ 2095#12)) 4 a.toNat (o.signExtend 64) s

/-- R206: Branches if sA is not positive. -/
def execBLe (o : BitVec 15) (a : BitVec 5) (s : State) : Out :=
  branch (.long (o ++ a ++ 2607#12)) 5 a.toNat (o.signExtend 64) s

/-- R206: Branches if sA is odd. -/
def execBOdd (o : BitVec 15) (a : BitVec 5) (s : State) : Out :=
  branch (.long (o ++ a ++ 3119#12)) 6 a.toNat (o.signExtend 64) s

/-- R206: Branches if sA is even. -/
def execBEven (o : BitVec 15) (a : BitVec 5) (s : State) : Out :=
  branch (.long (o ++ a ++ 3631#12)) 7 a.toNat (o.signExtend 64) s

/-- R206: Decrements sA and branches if zero. -/
def execLpZ (o : BitVec 15) (a : BitVec 5) (s : State) : Out :=
  loopBranch (.long (o ++ a ++ 175#12)) 0 a.toNat (o.signExtend 64) s

/-- R206: Decrements sA and branches if nonzero. -/
def execLpNz (o : BitVec 15) (a : BitVec 5) (s : State) : Out :=
  loopBranch (.long (o ++ a ++ 687#12)) 1 a.toNat (o.signExtend 64) s

/-- R206: Decrements sA and branches if negative. -/
def execLpLt (o : BitVec 15) (a : BitVec 5) (s : State) : Out :=
  loopBranch (.long (o ++ a ++ 1199#12)) 2 a.toNat (o.signExtend 64) s

/-- R206: Decrements sA and branches if non-negative. -/
def execLpGe (o : BitVec 15) (a : BitVec 5) (s : State) : Out :=
  loopBranch (.long (o ++ a ++ 1711#12)) 3 a.toNat (o.signExtend 64) s

/-- R206: Decrements sA and branches if positive. -/
def execLpGt (o : BitVec 15) (a : BitVec 5) (s : State) : Out :=
  loopBranch (.long (o ++ a ++ 2223#12)) 4 a.toNat (o.signExtend 64) s

/-- R206: Decrements sA and branches if not positive. -/
def execLpLe (o : BitVec 15) (a : BitVec 5) (s : State) : Out :=
  loopBranch (.long (o ++ a ++ 2735#12)) 5 a.toNat (o.signExtend 64) s

/-- R206: Decrements sA and branches if odd. -/
def execLpOdd (o : BitVec 15) (a : BitVec 5) (s : State) : Out :=
  loopBranch (.long (o ++ a ++ 3247#12)) 6 a.toNat (o.signExtend 64) s

/-- R206: Decrements sA and branches if even. -/
def execLpEven (o : BitVec 15) (a : BitVec 5) (s : State) : Out :=
  loopBranch (.long (o ++ a ++ 3759#12)) 7 a.toNat (o.signExtend 64) s

/-- R207: Relative jump. -/
def execJmp (o : BitVec 24) (s : State) : Out :=
  jumpRel (.long (o ++ 51#8)) (o.signExtend 64) s

/-- R207: Relative call that sets lk and opens a window. -/
def execCall (o : BitVec 24) (s : State) : Out :=
  issue { code := (.long (o ++ 179#8)), writes := [30], jumps := true } s fun s => callTo s (s.th.pc + o.signExtend 64 <<< 1)

/-- R208: Indirect jump to sA plus an immediate. -/
def execJr (i : BitVec 12) (a : BitVec 5) (s : State) : Out :=
  jumpReg (.long (i ++ a ++ 55#15)) a.toNat (i.signExtend 64) s

/-- R208: Indirect jump that writes the return address to sD without a window change. -/
def execJal (i : BitVec 12) (a : BitVec 5) (d : BitVec 5) (s : State) : Out :=
  issue { code := (.long (i ++ a ++ 1#3 ++ d ++ 55#7)), reads := [a.toNat], writes := [d.toNat], jumps := true } s fun s =>
    let ret := s.th.pc + 4
    let (x, s) := s.readS a.toNat
    let t := x + i.signExtend 64
    if t.getLsbD 0 then .error (.trap 3 t) else .ok ((s.writeS d.toNat ret).jump t)

/-- R208: Indirect call that sets lk and opens a window. -/
def execCallr (i : BitVec 12) (a : BitVec 5) (s : State) : Out :=
  issue { code := (.long (i ++ a ++ 8247#15)), reads := [a.toNat], writes := [30], jumps := true } s fun s =>
    let (x, s) := s.readS a.toNat
    let t := x + i.signExtend 64
    if t.getLsbD 0 then .error (.trap 3 t) else callTo s t

/-- R208: Closes the current window and jumps to lk. -/
def execRet (s : State) : Out :=
  returnLk (.long 12343#32) s

/-- R208: Spills every resident window except the current one. -/
def execWflush (s : State) : Out :=
  issue { code := (.long 16439#32) } s fun s =>
    let t := s.th
    let ks := List.range' t.resLo (t.depth - t.resLo)
    if ks.any t.windowPends then .error (.stall s)
    else
      let s := ks.foldl (fun s k => s.spillWindow s.cur.1 s.cur.2 k) s
      .ok (s.setTh { s.th with resLo := max t.resLo t.depth })

/-- R177: Compact jr sA. -/
def execCJr (a : BitVec 4) (s : State) : Out :=
  jumpReg (.half (256#10 ++ a ++ 0#2)) a.toNat 0 s

/-- R177: Compact ret. -/
def execCRet (s : State) : Out :=
  returnLk (.half 17408#16) s

/-- R177: Compact relative jump. -/
def execCJmp (o : BitVec 12) (s : State) : Out :=
  jumpRel (.half (0#2 ++ o ++ 2#2)) (o.signExtend 64) s

/-- R177: Compact branch if sA is zero. -/
def execCBZ (a : BitVec 4) (o : BitVec 8) (s : State) : Out :=
  branch (.half (1#2 ++ a ++ o ++ 2#2)) 0 a.toNat (o.signExtend 64) s

/-- R177: Compact branch if sA is nonzero. -/
def execCBNz (a : BitVec 4) (o : BitVec 8) (s : State) : Out :=
  branch (.half (2#2 ++ a ++ o ++ 2#2)) 1 a.toNat (o.signExtend 64) s

end Sys2Proof.Machine
end

