-- ==== Sys2Proof/Machine/Tasking.lean ====
section
/-!
DEFINITION. Tasks: what a launch gives a task (R36 to R40), starting a task in a slot (R38, R50, R65, R293, R296), frames (R45, R49),
task records (R290), inline children and passes (R43, R181, R299), continuations (R47, R297) and the end of a task (R48, R295).
-/

namespace Sys2Proof.Machine

open Sys2Proof

/-! ## What a launch gives a task -/

/-- The job seed of a launch (R36). -/
def State.seed (s : State) (l : Nat) : Word := match s.launch l with | some x => x.hdr.extractLsb' 320 64 | none => 0

/-- A core lies in the core group of a launch. -/
def State.inGroup (s : State) (l n : Nat) : Bool :=
  match s.launch l with
  | some x => x.clusters.contains (clusterOf n)
  | none => false

/-- Launch, priority and geometry of a task (R35, R40). -/
def State.taskOf (s : State) (l : Nat) : Task :=
  match s.launch l with
  | some x => { lnch := l, prio := x.field 420 2, geo0 := x.geo0, geo1 := x.geo1, geo2 := s.geo2Of x }
  | none => { lnch := l }

/-! ## Starting a task -/

/-- What a task starts with. -/
structure Start where
  pc : Word
  /-- s1 and its successors -/
  args : List Word
  wid : Word
  rnd : BitVec 3
  task : Task
  deriving DecidableEq, Repr

/-- The thread is out of rotation in `wfw`. -/
def Thread.isWfw (t : Thread) : Bool := decide (t.run = .wfw)

/-- The registers that a thread in `wfw` keeps besides e0 to e7: s5 to s7 and s24 to s30 (R296). -/
def Thread.kept (t : Thread) : Tbl Word := t.glob.filter (fun x => decide (5 ≤ x.1 ∧ x.1 ≤ 7) || decide (24 ≤ x.1 ∧ x.1 ≤ 30))

/-- The registers that a thread in `wfw` keeps, by name (R296). -/
def keptName : RegName → Bool
  | .s n => decide (5 ≤ n ∧ n ≤ 7) || decide (24 ≤ n ∧ n ≤ 30)
  | .e _ => true
  | _ => false

/-- The thread of a slot that begins a task in a region: PC bit 0 is 0 (R170; log entry 17), every register zero but those the task
brings and those kept in `wfw`; the generation rises, and mailboxes stay with the slot (R35, R38, R293, R296). -/
def State.begun (s : State) (n i region : Nat) (x : Start) : Thread :=
  let t := s.thread n i
  { run := .running, pc := x.pc &&& ~~~1#64
    glob := (x.args.zipIdx 1).foldl (fun g a => tblSet a.2 a.1 g) (if t.isWfw then t.kept else [])
    ext := if t.isWfw then t.ext else [], wid := x.wid, rnd := x.rnd, regBad := if t.isWfw then t.regBad.filter keptName else []
    srs := startSrs (s.seed x.task.lnch) x.task.score x.wid, wsr := region, gen := t.gen + 1, task := x.task, mbHi := t.mbHi
    mbLo := t.mbLo }

/-- The region for a task in a slot: a thread in `wfw` has its own, another draws a free one (R46, R296). -/
def State.regionFor (s : State) (n i : Nat) : Option Nat :=
  if (s.thread n i).isWfw then some (s.thread n i).wsr else s.freeRegion n

/-- The slots of a kind that a task may begin on: free ones, those in `wfw`, or both (R50, R54). -/
inductive Takers where
  | free
  | wfw
  | both
  deriving DecidableEq, Repr

/-- A thread is of the kind. -/
def Takers.admits (k : Takers) (t : Thread) : Bool :=
  match k with
  | .free => t.isFree
  | .wfw => t.isWfw
  | .both => t.isFree || t.isWfw

/-- Slot i can begin a task, with its partner for a paired one (R46, R65). -/
def State.slotTakes (s : State) (n i : Nat) (k : Takers) (paired : Bool) : Bool :=
  let t := s.thread n i
  let u := s.thread n (i + 8)
  if paired then
    decide (i < 8) && k.admits t && (u.isFree || u.isWfw) && decide (b2n t.isFree + b2n u.isFree ≤ s.freeRegions n)
  else k.admits t && decide (b2n t.isFree ≤ s.freeRegions n)

/-- The lowest-numbered slot of a core that can begin a task. -/
def State.slotFor (s : State) (n : Nat) (k : Takers) (paired : Bool) : Option Nat :=
  (List.range 16).find? (fun i => s.slotTakes n i k paired)

/-- The trailing thread of a pair starts as its leading thread does (R65). -/
def State.startTrailing (s : State) (n i : Nat) : State :=
  match s.regionFor n (i + 8) with
  | none => s
  | some r =>
    let t := s.thread n i
    let u := s.thread n (i + 8)
    let s := s.setThread n i { t with pair := 1 }
    let s := s.setThread n (i + 8) { t with pair := 2, wsr := r, gen := u.gen + 1, mbHi := u.mbHi, mbLo := u.mbLo }
    s.copyState n (i + 8) t.region (r * 0x1000) 0x1000

/-- A task begins in a slot of a core. -/
def State.startTask (s : State) (n i : Nat) (x : Start) : State :=
  match s.regionFor n i with
  | none => s
  | some r =>
    let s := (s.setThread n i (s.begun n i r x)).touch n
    if s.pairedLaunch x.task.lnch then s.startTrailing n i else s

/-! ## Frames (R45, R49) -/

/-- COUNT of a frame. -/
def State.frameCount (s : State) (n a : Nat) : Nat := s.lsNum n a 4

/-- GEN of a frame. -/
def State.frameGen (s : State) (n a : Nat) : Nat := s.lsNum n (a + 4) 2

/-- STATE of a frame. -/
def State.frameState (s : State) (n a : Nat) : Nat := s.lsNum n (a + 6) 1

/-- A frame holds poison (R407). -/
def State.frameBad (s : State) (n a : Nat) : Bool := anyBad (s.core n).lsBad a 32

/-- A frame operation that writes COUNT. -/
def State.setCount (s : State) (n a v : Nat) (w : Source) : State := s.lsHard n a (leBytes 4 v) 6 w

/-- STATE changes in a port operation that is logged already. -/
def State.setFrameState (s : State) (n a v : Nat) : State := s.setCore n ((s.core n).lsPut (a + 6) (leBytes 1 v))

/-- The TREE counter of a transaction frame rises by one (R86). -/
def State.treeUp (s : State) (t : Option TxF) (w : Source) : State :=
  match t with
  | none => s
  | some f =>
    match s.siteOf f.core with
    | none => s
    | some n => s.lsHard n (f.base + 24) (leBytes 4 (s.lsNum n (f.base + 24) 4 + 1)) 6 w

/-- TREE falls again when a returned record undoes its count (R292). -/
def State.treeUndo (s : State) (t : Option TxF) (w : Source) : State :=
  match t with
  | none => s
  | some f =>
    match s.siteOf f.core with
    | none => s
    | some n => s.lsHard n (f.base + 24) (leBytes 4 (s.lsNum n (f.base + 24) 4 - 1)) 6 w

/-- Something goes on its way. -/
def State.post (s : State) (p : Packet) : State := { s with chan := s.chan ++ [p] }

/-- A packet has arrived. -/
def State.unpost (s : State) (k : Nat) : State := { s with chan := s.chan.eraseIdx k }

/-- A kind 3 record: a stale decrement at the frame of its home core (R368, R373). -/
def State.staleDecrement (s : State) (n a lnch gen : Nat) : State :=
  let c := s.core n
  let v2 := BitVec.ofNat 64 (s.frameGen n a + gen % 2 ^ 16 * 2 ^ 16)
  s.record (clusterOf n) { bareRec 3 0 (BitVec.ofNat 64 a) v2 with lnch := lnch, core := c.lcore, cyc := c.cyc }

/-- The continuation of a frame that reached 0 goes to the tail of the run list (R49). -/
def State.wakeFrame (s : State) (n a : Nat) : State :=
  let c := s.core n
  let (go, stay) := c.parked.partition (fun k => decide (k.frame = some a))
  (s.setFrameState n a 0).setCore n { (s.setFrameState n a 0).core n with parked := stay, runList := c.runList ++ go }

/-- COUNT falls by one, and the parked continuation of a frame that reaches 0 is appended (R49). -/
def State.countDown (s : State) (n a : Nat) (w : Source) : State :=
  let v := s.frameCount n a
  let s := s.setCount n a (v - 1) w
  if v = 1 ∧ s.frameState n a = 1 then s.wakeFrame n a else s

/-! ## Records (R290) -/

/-- The record of a child of the issuing thread. -/
def State.childRecord (s : State) (pc : Word) (args : List Word) (faddr : Nat) : Record :=
  let t := s.th
  { pc := pc, args := args, fref := { addr := faddr, core := s.co.lcore, gen := s.frameGen s.cur.1 faddr }, txn := t.task.txn
    lnch := t.task.lnch, wid := t.wid, score := t.task.score, rmode := t.rnd, txf := if t.task.txn then t.task.txf else none }

/-- The task of a record. -/
def State.recordTask (s : State) (r : Record) : Task :=
  { s.taskOf r.lnch with txn := r.txn, txf := r.txf, score := r.score, fref := some r.fref }

/-- What a record's task starts with (R293). -/
def State.recordStart (s : State) (r : Record) : Start :=
  { pc := r.pc, args := r.args, wid := r.wid, rnd := r.rmode, task := s.recordTask r }

/-- A record starts in a slot; on a core other than the one that made it, the epoch is bumped (R122). -/
def State.startRecord (s : State) (n i : Nat) (r : Record) : State :=
  let s := s.startTask n i (s.recordStart r)
  if r.fref.core = (s.core n).lcore then s else s.bumpEpoch n

/-- The deque is full (R42). -/
def Core.dequeFull (c : Core) : Bool := decide (64 ≤ c.deque.length)

/-- A record enters the bottom of a deque. -/
def State.pushRecord (s : State) (n : Nat) (r : Record) : State := s.setCore n { s.core n with deque := r :: (s.core n).deque }

/-! ## Inline children and passes (R43, R181, R299) -/

/-- RND.MODE and FLG as a save holds them (R181). -/
def Thread.modeWord (t : Thread) : Word := BitVec.ofNat 64 (t.rnd.toNat + t.flg.toNat * 2 ^ 16)

/-- The register whose poison the word of RND.MODE and FLG carries (R406). -/
def Thread.modeName (t : Thread) : RegName := if t.regBad.contains (.spr 0x015) then .spr 0x015 else .spr 0x014

/-- RND.MODE and FLG from a save. -/
def Thread.setMode (t : Thread) (x : Word) : Thread := { t with rnd := x.extractLsb' 0 3, flg := x.extractLsb' 16 14 }

/-- The words of an inline save. -/
def Thread.inlineSave (t : Thread) : List Word :=
  [1, 2, 3, 4].map (fun n => tblGet 0 n t.glob) ++ [t.wid, t.srs, t.modeWord, t.acc]

/-- The address of the innermost inline save. -/
def Thread.saveAt (t : Thread) : Nat := t.region + 0x1000 - 64 * t.inl.length

/-- Write s1 and its successors. -/
def Thread.setArgs (t : Thread) (ws : List Word) : Thread :=
  { t with glob := (ws.zipIdx 1).foldl (fun g a => tblSet a.2 a.1 g) t.glob
           regBad := t.regBad.filter (fun r => !((List.range' 1 ws.length).map RegName.s).contains r) }

/-- The save of an inline opening must wait: for a spill, for a load of s1 to s4, or for ACC. -/
def Thread.inlineWaits (t : Thread) : Bool :=
  t.needSpill || t.pend.any (fun x => [RegName.s 1, .s 2, .s 3, .s 4].contains x.1) || !t.accQ.isEmpty

/-- The special registers that the start of an inline child or a pass writes: WID, RND, FLG and SRS, and a popped child's GEO0 to GEO2
(R40, R43). -/
def InlKind.writes : InlKind → List RegName
  | .popped => [.spr 0x010, .spr 0x011, .spr 0x012, .spr 0x013, .spr 0x014, .spr 0x015, .spr 0x016]
  | .child => [.spr 0x010, .spr 0x015, .spr 0x016]
  | .pass _ => [.spr 0x010, .spr 0x015, .spr 0x016]

/-- Open an inline child or a pass: the inline save, a new window, the registers it starts with (R43, R299). Bit 0 of the PC is 0 (R170;
log entry 17). -/
def State.openInline (s : State) (kind : InlKind) (ret : Word) (dst : Nat) (x : Start) : Except Stop State :=
  let t := s.th
  if t.overflows 1 then .error (.trap 7 t.overflowVal)
  else if t.inlineWaits then .error (.stall s)
  else
    let s := s.saveRegs s.cur.1 s.cur.2 (t.region + 0x1000 - 64 * (t.inl.length + 1))
      [.s 1, .s 2, .s 3, .s 4, .spr 0x010, .spr 0x016, t.modeName, .spr 0x019] t.inlineSave
    let s := s.openWindow
    let t := s.th.setArgs x.args
    let open_ : Inl := { kind := kind, ret := ret, depth := t.depth, dst := dst, task := t.task }
    .ok (s.setTh { t with pc := x.pc &&& ~~~1#64, wid := x.wid, rnd := x.rnd, flg := 0, task := x.task, inl := open_ :: t.inl
                          srs := startSrs (s.seed x.task.lnch) x.task.score x.wid
                          regBad := t.regBad.filter (fun r => !kind.writes.contains r) })

/-- Ready to end the innermost inline child or pass: its deeper windows are closed, the interrupted window is resident, and the
inline save is sound (R180, R407). -/
def State.inlineReady (s : State) (x : Inl) : Except Stop State :=
  let s := s.setTh (s.th.closeTo x.depth)
  let a := s.th.saveAt
  if s.th.needFill then .error (.stall s)
  else
    match firstBad s.co.lsBad a 64 with
    | some b => .error (s.poisonRead a 64 3 b)
    | none => .ok s

/-- The interrupted thread goes on with its saved registers (R43). -/
def State.closeInline (s : State) (x : Inl) : State :=
  let t := s.th
  let ws := s.lsWords s.cur.1 t.saveAt 8
  let s := s.logPort s.cur.1 t.saveAt 64 3 s.self
  let t := ((t.closeTo (x.depth - 1)).setArgs (ws.take 4)).setMode (ws.getD 6 0)
  s.setTh { t with wid := ws.getD 4 0, srs := loadSrs (ws.getD 5 0), task := x.task, inl := t.inl.drop 1, pc := x.ret
                   regBad := t.regBad.filter (fun r => !(RegName.spr 0x014 :: x.kind.writes).contains r) }

/-- A reconnaissance pass ends: ACC goes to the destination, and the caller's ACC comes back (R299). -/
def State.closePass (s : State) (x : Inl) : State :=
  let t := s.th
  let acc := t.acc
  let old := s.lsWord s.cur.1 (t.saveAt + 56)
  let s := s.closeInline x
  let s := s.setTh { s.th with acc := old, regBad := s.th.regBad.filter (fun r => decide (r ≠ .spr 0x019)) }
  s.writeS x.dst acc

/-- The v, p and e registers and the queue mapping hold free values (R47; log entry 2). -/
def State.scramble (s : State) (n i : Nat) : State :=
  let t := s.thread n i
  let free (k base : Nat) : Tbl Word := (List.range k).map (fun j => (j, Config.freeWord s.tick (base + j)))
  (s.setThread n i { t with vec := (List.range 16).map (fun j => (j, Config.freeVec s.tick j)), prd := free 8 0, ext := free 8 8
                            regBad := t.regBad.filter (fun r => match r with | .v _ => false | .p _ => false | .e _ => false | _ => true)
                            qmap := bit (Config.freeChoice s.tick) 0 }).bump

/-! ## Continuations (R47, R297) -/

/-- Spill the windows that are resident. -/
def State.spillAll (s : State) (n i : Nat) : State :=
  let t := s.thread n i
  (List.range' t.resLo (t.depth + 1 - t.resLo)).foldl (fun s k => s.spillWindow n i k) s

/-- The park save and DPAT go to the region (R181). -/
def State.parkSave (s : State) (n i : Nat) : State :=
  let t := s.thread n i
  let w := s.source n i true
  let s := s.saveRegs n i t.region (savedGlobals.map .s ++ [.spr 0x010, t.modeName]) (t.globals ++ [t.wid, t.modeWord])
  let s := s.saveRegs n i (t.region + 0x110) [.spr 0x017] [BitVec.ofNat 64 t.dpat.toNat]
  s.lsHard n (t.region + 0x120) (List.replicate 32 0) 7 w

/-- A thread may be saved as a continuation: its lines are at their homes, and no load is under way (R47, R450). Answers whether it
may, and the state after the write-backs. -/
def State.parkReady (s : State) : Bool × State :=
  let (s, all) := s.cleanSlot s.cur.1 s.cur.2
  (all && s.settled s.cur.1 s.cur.2 && decide (s.th.cntL = 0) && s.th.pend.isEmpty, s)

/-- Release a slot, and its partner's. -/
def State.releaseTask (s : State) (n i : Nat) : State :=
  let two := decide ((s.thread n i).pair = 1)
  let s := s.releaseSlot n i
  if two then s.releaseSlot n (i + 8) else s

/-- What the issuing thread leaves behind as a continuation. -/
def State.contOf (s : State) (frame : Option Nat) : Cont := { region := s.th.wsr, frame := frame, thread := { s.th with cmp := none } }

/-- The address of a continuation's next instruction, with bit 0 cleared, and its SRS (R45, R170, R297; log entry 17). -/
def State.contPoint (s : State) (n : Nat) (k : Cont) : Word × Word :=
  match k.frame with
  | some a => (s.lsWord n (a + 8) &&& ~~~1#64, s.lsWord n (a + 24))
  | none => (s.lsWord n (k.region * 0x1000 + 0x100) &&& ~~~1#64, s.lsWord n (k.region * 0x1000 + 0x108))

/-- What a resumption reads is poisoned: the first address, if any (R407). -/
def State.contBad (s : State) (n : Nat) (k : Cont) : Option Nat :=
  let a := k.region * 0x1000
  let bad := (s.core n).lsBad
  (firstBad bad a 0x80).orElse fun _ => (firstBad bad (a + 0x100) 0x18).orElse fun _ =>
    (s.windowBad n a k.thread.depth).orElse fun _ =>
      match k.frame with
      | some f => firstBad bad f 32
      | none => none

/-- A continuation resumes in a slot: its park save and its top window come back, the generation rises, and the epoch is bumped
(R50, R65, R294, R297). Its counters start at 0: engine operations, messages and storage commands that it had outstanding when it parked
count for it no more (the model's choice, log entry 37). -/
def State.resumeIn (s : State) (n i : Nat) (k : Cont) : State :=
  let u := s.thread n i
  let a := k.region * 0x1000
  let (pc, srs) := s.contPoint n k
  let ws := s.lsWords n a 16
  let bad := s.contBad n k
  let t := (k.thread.setGlobals (ws.take 14)).setMode (ws.getD 15 0)
  let t := { t with run := .running, pc := pc, srs := loadSrs srs, wid := ws.getD 14 0, dpat := BitVec.ofNat 51 (s.lsNum n (a + 0x110) 8)
                    wsr := k.region, gen := u.gen + 1, mbHi := u.mbHi, mbLo := u.mbLo, win := [], regBad := [], resLo := k.thread.depth
                    cntL := 0, cntS := 0, cntC := 0, cntT := 0, phase := 0, held := [], reply := none }
  let w := { s.source n i true with gen := t.gen.toNat }
  let s := s.logPort n a 128 3 w
  let s := match k.frame with
    | none => s.logPort n (a + 0x100) 32 3 w
    | some f => (s.logPort n (a + 0x110) 8 3 w).logPort n f 32 3 w
  let s := s.setThread n i t
  let s := (s.fillWindow n i t.depth (List.range' 8 16)).scramble n i
  let s := ((if t.pair = 1 then s.startTrailing n i else s).bumpEpoch n).touch n
  match bad with
  | none => s
  | some x => s.failThread n i { cause := 3, pc := pc, val1 := BitVec.ofNat 64 x, val2 := 3, pre := false, queued := false }

/-! ## The end of a task (R48, R295) -/

/-- The counters of the issuing thread are 0, and its lines are at their homes (R48). Else it waits in phase `ph`. -/
def State.drained (s : State) (ph : Nat) : Except Stop State :=
  let s := s.setTh { s.th with phase := ph }
  if s.th.cntr ≠ 0 then .error (.stall s)
  else
    let (s, all) := s.cleanSlot s.cur.1 s.cur.2
    if all && decide (s.th.cntS = 0) && s.storesHome s.cur.1 s.cur.2 then .ok s else .error (.stall s)

/-- The tasks of a thread, the running one first, and which of them end with a decrement (R365). -/
def Thread.openTasks (t : Thread) : List (Task × Bool) :=
  (t.task :: t.inl.map (fun x => x.task)).zip (t.inl.map (fun x => decide (x.kind = .popped)) ++ [true])

/-- The decrements of a task's end, and its launch's count (R48, R84, R295). A dispatched root counts at its commit. -/
def State.leave (s : State) (w : Source) (t : Task) : State :=
  let tree := if t.txn then t.txf else none
  let s := match t.fref, tree with
    | some f, _ => s.post (.decrement f t.lnch tree w false)
    | none, some x => s.post (.tree x w)
    | none, none => s
  if t.body.isSome then s else s.ended t.lnch

/-- A thread goes out of rotation in `wfw`: its region and the registers of R296 stay. -/
def State.restSlot (s : State) (n i : Nat) : State :=
  if (s.thread n i).pair = 1 then (s.restOne n i).restOne n (i + 8) else s.restOne n i

end Sys2Proof.Machine
end

