-- ==== Sys2Proof/Machine/Transact.lean ====
section
/-!
DEFINITION. Transactions: tile spaces (R70 to R75), submission records and numbering (R76 to R78, R424), pods and seals (R79, R80, R422,
R423), lock queues and grants (R81, R82, R425), frames and dispatch (R77, R83, R84), commit (R86, R366, R426), and the dispensers (R54,
R55).
-/

namespace Sys2Proof.Machine

open Sys2Proof

/-! ## Declared tiles (R71, R72, R74) -/

/-- MODE, SPACE and TILE of an entry. -/
def entryMode (w : Word) : Nat := bits w.toNat 56 2

/-- SPACE of an entry. -/
def entrySpace (w : Word) : Nat := bits w.toNat 48 8

/-- TILE of an entry. -/
def entryTile (w : Word) : Nat := bits w.toNat 0 48

/-- The non-empty entries of a record, with their indices. -/
def SubRec.entries (r : SubRec) : List (Nat × Word) :=
  (r.set.zipIdx.filter (fun x => decide (entryMode x.1 ≠ 0))).map (fun x => (x.2, x.1))

/-- A tile-space descriptor; an invalid one has no tiles. -/
def State.space (s : State) (i : Nat) : Space :=
  tblGet { vbase := 0, pbase := 0, log2 := 8, explicit := false, count := 0, pmap := 0 } i s.scarab.spaces

/-- The physical address of a tile (R72). -/
def Space.tileAt (x : Space) (tile : Nat) : Nat := x.pbase + tile * 2 ^ x.log2

/-- The homes by number: those of the own package are 0 to 255 (log entry 14). -/
def State.homeNum (s : State) (pkg h : Nat) : Nat := if pkg = s.scarab.pidx then h else 256 * (pkg + 1) + h

/-- The home of a physical address. -/
def State.homeFor (s : State) (pa : Nat) : Nat := s.homeNum (pa / 2 ^ 40 % 256) (homeOf (pa % 2 ^ 40))

/-- The home that an entry of a placement array names (R72). -/
def State.placedAt (s : State) (bs : List Byte) : Nat := s.homeNum (bs.getD 1 0).toNat (bs.getD 0 0).toNat

/-- The lock home of a tile; an entry of the placement array is read at its home (R72). -/
def State.lockHome (s : State) (x : Space) (tile : Nat) : Nat × State :=
  if x.explicit then
    let (bs, s) := s.devRead 2 (x.pmap + 2 * tile) 2
    (s.placedAt bs, s)
  else (s.homeFor (x.tileAt tile), s)

/-- The lock homes of a record's entries, found in entry order (R72). -/
def State.lockHomes (s : State) (r : SubRec) : Tbl Nat × State :=
  r.entries.foldl (fun (acc : Tbl Nat × State) e =>
    let (h, s) := acc.2.lockHome (acc.2.space (entrySpace e.2)) (entryTile e.2)
    (tblSet e.1 h acc.1, s)) ([], s)

/-- The slots of a record's tiles: entry index, entry, offset from slot 0, size (R83). -/
def State.slotsOf (s : State) (r : SubRec) : List (Nat × Word × Nat × Nat) :=
  (r.entries.foldl (fun (acc : Nat × List (Nat × Word × Nat × Nat)) e =>
    let z := 2 ^ (s.space (entrySpace e.2)).log2
    (acc.1 + z, acc.2 ++ [(e.1, e.2, acc.1, z)])) (0, [])).2

/-- The frame size that a record's set needs (R75). -/
def State.frameNeed (s : State) (r : SubRec) : Nat := 256 + ((s.slotsOf r).map (fun x => x.2.2.2)).sum

/-! ## Records of the submission (R76) -/

/-- A submission record from its 128 bytes; a batch launch's WID is the array position. -/
def subOfBytes (bs : List Byte) (lnch pos : Nat) : SubRec :=
  let num (o n : Nat) : Nat := leNat ((bs.drop o).take n)
  let word (o : Nat) : Word := BitVec.ofNat 64 (num o 8)
  let f := num 40 6
  let c := num 46 2
  { pc := word 0, args := [word 8, word 16, word 24, word 32]
    frame := if bit f 47 then some { core := bits f 0 12, addr := bits f 12 19, gen := bits f 31 16 } else none
    clus := bits c 0 6 + 64 * bits c 6 1, hexp := bit c 7, chk := bit c 8, restart := bits c 9 7, check := word 48
    wid := BitVec.ofNat 64 pos, set := (List.range 8).map (fun j => word (64 + 8 * j)), lnch := lnch, src := none, item := some pos }

/-- Where the next record of a batch launch stands in its array (R76). -/
def Launch.nextSub (x : Launch) : Nat := (x.field 64 64) % 2 ^ 48 + 128 * x.numbered

/-- The next record of a batch launch (R76). -/
def State.batchRecord (s : State) (l : Nat) (x : Launch) : SubRec := subOfBytes (s.dramPeek x.nextSub 128) l x.numbered

/-- The batch launches with records that are not numbered. -/
def State.batches (s : State) : List (Nat × Launch) :=
  s.launches.filter (fun x => decide (x.2.field 425 1 = 1 ∧ 0 < x.2.toStart) && !x.2.suspended)

/-- The records that may reach the Scarab next: the oldest of each submitting core, and the next of each batch launch. -/
def State.nextSubs (s : State) : List SubRec :=
  let heads := s.scarab.subs.foldl (fun (acc : List SubRec) r =>
    if acc.any (fun a => decide (a.src.map (·.1) = r.src.map (·.1))) then acc else acc ++ [r]) []
  heads ++ s.batches.map (fun x => s.batchRecord x.1 x.2)

/-! ## Numbering (R77, R78, R424) -/

/-- The next sequence number (R78). -/
def Scarab.seqNum (c : Scarab) : Nat := c.batch % 2 ^ 40 * 2 ^ 24 + c.pidx % 256 * 2 ^ 16 + c.pos

/-- BATCH of a sequence number. -/
def seqBatch (q : Nat) : Nat := q / 2 ^ 24

/-- PKG of a sequence number. -/
def seqPkg (q : Nat) : Nat := bits q 16 8

/-- A cluster holds a core with a transaction region. -/
def State.hasFrames (s : State) (k : Nat) : Bool := (s.coresOf k).any (fun n => decide ((s.core n).fcnt ≠ 0))

/-- The dispatch cluster of a record: the hint, or the launch's rotation (R77). -/
def State.pickCluster (s : State) (r : SubRec) : Nat × State :=
  if r.hexp then (r.clus, s)
  else
    match s.launch r.lnch with
    | none => (0, s)
    | some l =>
      let g := l.clusters
      let at_ (j : Nat) : Nat := (l.rot + j) % g.length
      match (List.range g.length).find? (fun j => s.hasFrames (g.getD (at_ j) 0)) with
      | some j => (g.getD (at_ j) 0, s.modLaunch r.lnch (fun l => { l with rot := at_ j + 1 }))
      | none => (g.getD (at_ 0) 0, s.modLaunch r.lnch (fun l => { l with rot := at_ 0 + 1 }))

/-- The first entry that R75 refuses, with its cause: 1 invalid space, 2 tile, 3 duplicate (R424). -/
def State.badEntry (s : State) : List (Nat × Word) → List (Nat × Word) → Option (Nat × Nat × Nat)
  | _, [] => none
  | seen, e :: t =>
    let sp := tblFind (entrySpace e.2) s.scarab.spaces
    if sp.isNone then some (1, e.2.toNat, e.1)
    else if (s.space (entrySpace e.2)).count ≤ entryTile e.2 then some (2, e.2.toNat, e.1)
    else if seen.any (fun x => decide (x.2.toNat % 2 ^ 56 = e.2.toNat % 2 ^ 56)) then some (3, e.2.toNat, e.1)
    else s.badEntry (seen ++ [e]) t

/-- Why a record fails at numbering, if it does (R75, R424). An empty set, or reserved bits of an entry, which R75 refuses at the
submitting core alone, do not fail the record of a batch launch (log entry 24). -/
def State.numberFault (s : State) (r : SubRec) (k : Nat) : Option (Nat × Nat × Nat) :=
  match s.badEntry [] r.entries with
  | some x => some x
  | none =>
    if (s.coresOf k).any (fun n => decide ((s.core n).fcnt ≠ 0 ∧ s.frameNeed r ≤ 2 ^ (s.core n).flog)) then none else some (4, 0, 0)

/-- The S counter of a thread of a generation falls by one (R187). -/
def State.sDown (s : State) (n i gen : Nat) : State :=
  let t := s.thread n i
  if t.gen.toNat = gen then s.setThread n i { t with cntS := t.cntS - 1 } else s

/-- The ordinal of the next item on a channel (R422). -/
def State.takeOrd (s : State) (h : Nat) : Nat × State :=
  let o := tblGet 0 h s.scarab.ords
  (o, { s with scarab := { s.scarab with ords := tblSet h (o + 1) s.scarab.ords } })

/-- The lock home of an entry of a numbered transaction. -/
def Txn.home (x : Txn) (entry : Nat) : Nat := tblGet 0 entry x.homes

/-- A numbered transaction. -/
def State.txn (s : State) (seq : Nat) : Option Txn := s.scarab.txns.find? (fun x => decide (x.seq = seq))

/-! ## Flows (R440) -/

/-- The flow of a packet to a home of another package, or from one: the unit on this side and the home. The Scarab is unit 4096, the
dispenser of cluster k is 2048 + k, and a dispatch core that takes a grant is 8192 and its number (R440). -/
def State.packetFlow (s : State) (p : Packet) : Option (Nat × Nat) :=
  let f : Option (Nat × Nat) := match p with
    | .lockReq h _ _ => some (4096, h)
    | .seal h _ _ _ => some (4096, h)
    | .notice h seq => (s.txn seq).map (fun x => (2048 + x.cluster, h))
    | .grant seq e _ _ => (s.txn seq).map (fun x => (8192 + x.core, x.home e))
    | .segment seq _ pa _ _ => (s.txn seq).map (fun x => (x.core, s.homeFor pa))
    | .release seq e => (s.txn seq).map (fun x => (x.core, x.home e))
    | _ => none
  f.filter (fun x => decide (256 ≤ x.2))

/-- The link that a flow would take now. -/
def State.newLink (s : State) (f : Nat × Nat) : Option Nat := s.flowLink f.1 (f.2 / 256 - 1) (f.2 % 256)

/-- The link of a packet's flow: the one that it took, or else the one that it would take now. -/
def State.packetLink (s : State) (p : Packet) : Option Nat :=
  (s.packetFlow p).bind (fun f => match s.flows.find? (fun x => decide (x.1 = f)) with
    | some x => some x.2
    | none => s.newLink f)

/-- A packet to or from another package does not arrive now: its flow has no link, or one that is not up (R439, R440). -/
def State.cut (s : State) (p : Packet) : Bool :=
  (s.packetFlow p).isSome && (match s.packetLink p with | some l => decide ((s.link l).st ≠ 2) | none => true)

/-- A packet leaves; a flow that has no packet on its way takes its link anew, by the hash among the candidates of lowest COST (R440). -/
def State.postFar (s : State) (p : Packet) : State :=
  match s.packetFlow p with
  | none => s.post p
  | some f =>
    if s.chan.any (fun q => decide (s.packetFlow q = some f)) then s.post p
    else
      let kept := s.flows.filter (fun x => decide (x.1 ≠ f))
      State.post { s with flows := match s.newLink f with | some l => kept ++ [(f, l)] | none => kept } p

/-- The lock requests of a numbered transaction, in entry order (R77). -/
def State.sendRequests (s : State) (x : Txn) : State :=
  x.sub.entries.foldl (fun s e =>
    let (o, s) := s.takeOrd (x.home e.1)
    s.postFar (.lockReq (x.home e.1) o { seq := x.seq, entry := e.1, space := entrySpace e.2, tile := entryTile e.2, mode := entryMode e.2
                                         granted := false, sent := false })) s

/-- The cluster whose queue takes a transaction's records while it has no frame (R424). -/
def State.recordCluster (s : State) (r : SubRec) : Nat :=
  match r.src, s.launch r.lnch with
  | some (n, _), _ => clusterOf n
  | none, some l => l.clusters.headD 0
  | none, none => 0

/-- The records of a failed transaction: kind 20 where it has one, then kind 2; the transaction waits for the latter (R366, R424). -/
def State.failRecords (s : State) (x : Txn) (k : Nat) (base : Nat × Nat × Nat) : Txn × State :=
  let r (kind cause v1 v2 : Nat) : ErrRec :=
    { kind := kind, cause := cause, lnch := x.sub.lnch, fl := 1 + 2 * b2n (s.pairedLaunch x.sub.lnch), core := base.1, val1 := BitVec.ofNat 64 v1, val2 := BitVec.ofNat 64 v2
      wid := x.sub.wid, seq := x.seq, cyc := base.2.2 }
  let s := match x.why with
    | some (cause, v1, v2) => s.record k (r 20 cause v1 v2)
    | none => s
  let num := (s.cluster k).errTail + (s.cluster k).errQ.length
  ({ x with recNum := some num, cluster := k, stage := .ended }, s.record k (r 2 0 base.2.1 0))

/-- The open batch seals: seals go on every enrolled channel, and the next batch opens (R78). -/
def State.sealBatch (s : State) : State :=
  let b := s.scarab.batch
  let s := s.scarab.channels.foldl (fun s c =>
    let (o, s) := s.takeOrd c.1
    s.postFar (.seal c.1 o s.scarab.pidx b)) s
  { s with scarab := { s.scarab with batch := (b + 1) % 2 ^ 40, pos := 0 } }

/-- Number one record (R77, R424). -/
def State.number (s : State) (r : SubRec) : State :=
  let seq := s.scarab.seqNum
  let (k, s) := s.pickCluster r
  let s := { s with scarab := { s.scarab with pos := s.scarab.pos + 1 } }
  let s := match r.src with
    | some (n, i, gen) => s.sDown n i gen
    | none => s.modLaunch r.lnch (fun l => { l with numbered := l.numbered + 1, toStart := l.toStart - 1, live := l.live + 1 })
  let (age, s) := s.fresh
  let x : Txn := { seq := seq, sub := r, cluster := k, age := age }
  let s := match s.numberFault r k with
    | some why =>
      let (x, s) := s.failRecords { x with failed := true, why := some why } (s.recordCluster r) (0xFFF, 0, 0)
      { s with scarab := { s.scarab with txns := s.scarab.txns ++ [x] } }
    | none =>
      let (hs, s) := s.lockHomes r
      let x := { x with homes := hs }
      let s := s.setCluster k { s.cluster k with txq := (s.cluster k).txq ++ [seq] }
      State.sendRequests { s with scarab := { s.scarab with txns := s.scarab.txns ++ [x] } } x
  if 4096 ≤ s.scarab.pos then s.sealBatch else s

/-- A record names the space that is being loaded (R73). -/
def State.namesLoading (s : State) (r : SubRec) : Bool :=
  s.scarab.load && r.entries.any (fun e => decide (entrySpace e.2 = s.scarab.loading))

/-- A record that the Scarab took is still to be numbered. -/
def State.subWaits (s : State) (r : SubRec) : Bool :=
  match r.src with
  | some _ => s.scarab.subs.contains r
  | none => s.batches.any (fun x => decide (x.1 = r.lnch ∧ some x.2.numbered = r.item))

/-- A record that was picked as the next one; that of a batch launch is read from its array now (R76). -/
def State.fetchSub (s : State) (r : SubRec) : SubRec × State :=
  match r.src, s.launch r.lnch with
  | none, some x =>
    let (bs, s) := s.devRead 2 x.nextSub 128
    (subOfBytes bs r.lnch x.numbered, s)
  | _, _ => (r, s)

/-- A record at the head is numbered, or it waits, and all behind it, while a load of a space that it names is under way (R73). -/
def State.numberHead (s : State) (r : SubRec) : State :=
  if s.namesLoading r then { s with scarab := { s.scarab with head := some r } }
  else State.number { s with scarab := { s.scarab with head := none, subs := s.scarab.subs.erase r } } r

/-- The Scarab takes the next record in the order of arrival, which is free among its sources (R77; log entry 2). -/
def State.numberNext (s : State) : State :=
  match s.scarab.head with
  | some r => if s.subWaits r then s.numberHead r else { s with scarab := { s.scarab with head := none } }
  | none =>
    let l := s.nextSubs
    match l[Config.freeChoice s.tick % l.length]? with
    | none => s
    | some r =>
      let (r, s) := s.bump.fetchSub r
      s.numberHead r

/-! ## Numbered transactions -/

/-- Replace a transaction. -/
def State.setTxn (s : State) (x : Txn) : State :=
  { s with scarab := { s.scarab with txns := s.scarab.txns.map (fun y => if y.seq = x.seq then x else y) } }

/-- The address of frame f of a core (R102). -/
def Core.frameAt (c : Core) (f : Nat) : Nat := c.txb + f * 2 ^ c.flog

/-- The base of a transaction's frame. -/
def State.txBase (s : State) (x : Txn) : Nat := (s.core x.core).frameAt x.frame

/-- The submitting thread of a transaction, as the trace ring shows it; that of a batch launch has free fields (R128; log entry 27). -/
def State.txSource (s : State) (r : SubRec) : Source :=
  match r.src with
  | some (n, i, gen) => { own := false, core := (s.core n).lcore, slot := i, gen := gen, cyc := (s.core n).cyc }
  | none => s.outsider

/-- Change STATE of a transaction frame (R83); the rings show it with KIND 0 (log entry 27). -/
def State.setTxState (s : State) (n base v : Nat) (w : Source) : State := s.lsHard n (base + 28) (leBytes 1 v) 0 w

/-- The releases of a transaction's tiles go out, in entry order (R86). -/
def State.sendReleases (s : State) (x : Txn) : State :=
  let es := x.sub.entries.map (·.1)
  let s := s.setTxn { x with unreleased := es }
  es.foldl (fun s e => s.postFar (.release x.seq e)) s

/-! ## Frames (R77, R83) -/

/-- A list from the element after one of them, round once. -/
def rotateAfter (last : Option Nat) (l : List Nat) : List Nat :=
  match last with
  | none => l
  | some x => match l.findIdx? (fun y => decide (y = x)) with
    | none => l
    | some j => l.drop (j + 1) ++ l.take (j + 1)

/-- A free frame of a core: which one the dispenser gives the spec does not say, the model takes the lowest (log entry 20). -/
def Core.freeFrame (c : Core) : Option Nat := (List.range c.fcnt).find? (fun f => !c.frames.any (fun u => decide (u.index = f)))

/-- The header of a frame given to a transaction: SEQ, A2, A3, TREE, STATE and OFFS (R77, R83). -/
def State.headerBytes (s : State) (x : Txn) : List Byte :=
  let offs := (List.range 8).flatMap (fun e =>
    match (s.slotsOf x.sub).find? (fun y => decide (y.1 = e)) with
    | some y => leBytes 4 y.2.2.1
    | none => leBytes 4 0xFFFFFFFF)
  leBytes 8 x.seq ++ leBytes 8 (x.sub.args.getD 2 0).toNat ++ leBytes 8 (x.sub.args.getD 3 0).toNat ++ leBytes 8 0 ++ offs

/-- Give the next transaction of a cluster a frame, and send its notices (R77). A pre-empted core is passed over, which the spec does
not say (log entry 20). The rings show the header's write with KIND 0 (log entry 27). -/
def State.assignFrame (s : State) (k : Nat) : State :=
  let c := s.cluster k
  match c.txq with
  | [] => s
  | seq :: rest =>
    match s.txn seq with
    | none => s.setCluster k { c with txq := rest }
    | some x =>
      let fits (n : Nat) : Bool :=
        decide (s.frameNeed x.sub ≤ 2 ^ (s.core n).flog) && (s.core n).freeFrame.isSome && !(s.core n).pre
      match (rotateAfter c.lastFrameCore (s.coresOf k)).find? fits with
      | none => s
      | some n =>
        let f := (s.core n).freeFrame.getD 0
        let x := { x with core := n, frame := f, stage := .framed }
        let base := (s.core n).frameAt f
        let slots := ((s.slotsOf x.sub).filter (fun y => decide (2 ≤ entryMode y.2.1))).map (fun y => (base + 256 + y.2.2.1, y.2.2.2))
        let u : FrameUse := { index := f, seq := seq, slots := slots, dirty := [] }
        let s := s.setCluster k { c with txq := rest, lastFrameCore := some n }
        let s := s.lsHard n base (s.headerBytes x) 0 (s.txSource x.sub)
        let s := (s.setCore n { s.core n with frames := (s.core n).frames ++ [u] }).setTxn x
        (x.sub.entries.foldl (fun s e => s.postFar (.notice (x.home e.1) seq)) s).touch n

/-! ## Homes: seals, queues and grants (R79 to R82, R422, R423, R425) -/

/-- Batch a precedes batch b, modulo 2^40 (R78). -/
def batchBefore (a b : Nat) : Bool := decide ((b + 2 ^ 40 - a % 2 ^ 40) % 2 ^ 40 < 2 ^ 39 ∧ a % 2 ^ 40 ≠ b % 2 ^ 40)

/-- Sequence order (R80). -/
def seqBefore (a b : Nat) : Bool := batchBefore (seqBatch a) (seqBatch b) || (decide (seqBatch a = seqBatch b) && decide (a < b))

/-- The seals that a group waits for: package and batch (R80). -/
def Home.missing (h : Home) (seq : Nat) : List (Nat × Nat) :=
  h.enrolled.filterMap (fun e =>
    let b := seqBatch seq
    let need := if e.1 < seqPkg seq then b else (b + 2 ^ 40 - 1) % 2 ^ 40
    match tblFind e.1 h.seals with
    | some x => if batchBefore x need then some (e.1, need) else none
    | none => if batchBefore need e.2 then none else some (e.1, need))

/-- Insert a request in sequence order. -/
def insertReq (r : LockReq) : List LockReq → List LockReq
  | [] => [r]
  | x :: t => if seqBefore r.seq x.seq then r :: x :: t else x :: insertReq r t

/-- Two requests name one tile. -/
def LockReq.same (a b : LockReq) : Bool := decide (a.space = b.space ∧ a.tile = b.tile)

/-- Grant what R81 grants, in queue order: a W or RW request alone at the head, R requests together. -/
def grantAll : List LockReq → List LockReq → List LockReq
  | before, [] => before
  | before, r :: t =>
    let ahead := before.filter r.same
    let ok := ahead.isEmpty || (decide (r.mode = 1) && ahead.all (fun x => decide (x.mode = 1) && x.granted))
    grantAll (before ++ [{ r with granted := r.granted || ok }]) t

/-- A tile is broken (R425). -/
def Home.brokenTile (h : Home) (r : LockReq) : Bool := h.allBroken || h.broken.contains (r.space, r.tile)

/-- The bytes of a part of a push that lands at once: what one flit carries from a home of this package, or of another (R23, R130). -/
def landSize (h : Nat) : Nat := if h < 256 then 64 else 256

/-- The push of a tile of a size from a home: every part is still to be gathered and to land (R82, R130). -/
def pushOf (h size : Nat) : Push :=
  { gather := (List.range (size / 256)).map (256 * ·), land := (List.range (size / landSize h)).map (landSize h * ·)
    bytes := List.replicate size 0 }

/-- A home serves what it can: requests whose seals have come enter the queues, grants are made, and those whose frame notice has
come are sent (R80 to R82). A W grant and a failed grant carry no push (R82, R425). -/
def State.serveHome (s : State) (h : Nat) : State :=
  let x := s.home h
  let (ready, wait) := x.early.partition (fun r => decide (s.scarab.podm = 0) || (x.missing r.seq).isEmpty)
  let reqs := grantAll [] (x.reqs ++ ready.foldl (fun l r => insertReq r l) [])
  let go (r : LockReq) : Bool := r.granted && !r.sent && x.notices.contains r.seq
  let s := s.setHome h { x with early := wait, reqs := reqs.map (fun r => { r with sent := r.sent || go r }) }
  (reqs.filter go).foldl (fun s r =>
    let bad := x.brokenTile r
    s.postFar (.grant r.seq r.entry bad (if bad || decide (r.mode = 2) then {} else pushOf h (2 ^ (s.space r.space).log2)))) s

/-- The ordinal of an item for a home. -/
def Packet.ordinal (h : Nat) : Packet → Option Nat
  | .lockReq g o _ => if g = h then some o else none
  | .seal g o _ _ => if g = h then some o else none
  | _ => none

/-- An item with a lower ordinal of the channel has not arrived (R422). -/
def State.outOfOrder (s : State) (h o : Nat) : Bool :=
  s.chan.any (fun p => match p.ordinal h with | some x => decide (x < o) | none => false)

/-- A batch number lies outside the window of R78, seen from the last seal of its package. -/
def Home.outside (h : Home) (pkg batch : Nat) : Bool :=
  match tblFind pkg h.seals with
  | some x => batchBefore batch x
  | none => false

/-- A kind 21, 22 or 23 record of a home (R423). -/
def State.sealRecord (s : State) (kind h pkg batch : Nat) : State :=
  if 256 ≤ h then s
  else s.record (homeCluster h) (bareRec kind 0 (BitVec.ofNat 64 (h % 256 + pkg * 2 ^ 8)) (BitVec.ofNat 64 batch))

/-- A request is queued at a home, unless its batch lies outside the window (R81, R423). -/
def State.requestReaches (s : State) (h : Nat) (r : LockReq) : State :=
  let x := s.home h
  if x.outside (seqPkg r.seq) (seqBatch r.seq) then s.sealRecord 23 h (seqPkg r.seq) (seqBatch r.seq)
  else (s.setHome h { x with early := x.early ++ [r] }).serveHome h

/-- A lock request reaches its home (R81, R422). A granted request takes one of the 16,384 entries until it is released, which the
spec does not say (log entry 23). -/
def State.takeRequest (s : State) (k h o : Nat) (r : LockReq) : State :=
  let x := s.home h
  if s.cut (.lockReq h o r) || s.outOfOrder h o || decide (16384 ≤ x.reqs.length + x.early.length) then s
  else (s.unpost k).requestReaches h r

/-- A seal is noted at a home, unless its batch lies outside the window (R80, R423). -/
def State.sealReaches (s : State) (h pkg batch : Nat) : State :=
  let x := s.home h
  if x.outside pkg batch then s.sealRecord 23 h pkg batch
  else
    let s := s.setHome h
      { x with seals := tblSet pkg batch x.seals, overdue := x.overdue.filter (fun m => decide (m ≠ (pkg, batch))) }
    (if x.overdue.contains (pkg, batch) then s.sealRecord 22 h pkg batch else s).serveHome h

/-- A seal reaches a home (R80, R422). -/
def State.takeSeal (s : State) (k h o pkg batch : Nat) : State :=
  if s.cut (.seal h o pkg batch) || s.outOfOrder h o then s else (s.unpost k).sealReaches h pkg batch

/-- A wait for a seal has lasted 10 ms: one kind 21 record for it (R423). -/
def State.overdueSeal (s : State) (h : Nat) : State :=
  let x := s.home h
  match (x.early.flatMap (fun r => x.missing r.seq)).find? (fun m => !x.overdue.contains m) with
  | none => s
  | some m => (s.setHome h { x with overdue := x.overdue ++ [m] }).sealRecord 21 h m.1 m.2

/-- The release of a transaction's entry cannot reach its home now (R440). -/
def State.entryCut (s : State) (seq entry : Nat) : Bool := s.cut (.release seq entry)

/-- The physical address of a transaction's tile. -/
def State.tilePa (s : State) (x : Txn) (entry : Nat) : Nat :=
  let w := x.sub.set.getD entry 0
  (s.space (entrySpace w)).tileAt (entryTile w)

/-- One part of a tile is read at the home that owns it, with its poison; a part that the home's table refuses is not pushed (R82, R331,
R333; log entry 31). -/
def State.gatherPart (s : State) (pa : Nat) (p : Push) (o : Nat) : Push × State :=
  let p := { p with gather := p.gather.erase o }
  if s.devMay 2 (pa + o) 256 0 then
    let (bs, _, s') := s.dramRead (pa + o) 256 3 s.outsider
    let bad := (List.range 32).filter (fun g => s.dramBad.contains (s.dramKey (pa + o) / 8 + g))
    ({ p with bytes := p.bytes.take o ++ bs ++ p.bytes.drop (o + 256), bad := p.bad ++ bad.map (o / 8 + ·) }, s')
  else ({ p with land := p.land.filter (fun j => decide (j / 256 ≠ o / 256)) }, s)

/-- The slot of an entry in its transaction's frame: local address and size. -/
def State.slotAt (s : State) (x : Txn) (entry : Nat) : Option (Nat × Nat) :=
  ((s.slotsOf x.sub).find? (fun y => decide (y.1 = entry))).map (fun y => (s.txBase x + 256 + y.2.2.1, y.2.2.2))

/-- All grants of a transaction have landed. -/
def Txn.ready (x : Txn) : Bool := x.sub.entries.all (fun e => x.landed.contains e.1)

/-- A grant has landed; a transaction with a failed grant releases its tiles once all have (R84, R425). -/
def State.landGrant (s : State) (x : Txn) (entry : Nat) (failed : Bool) : State :=
  let word := (x.sub.set.getD entry 0).toNat
  let x := { x with landed := x.landed ++ [entry], failedGrant := x.failedGrant || failed
                    why := if failed && x.why.isNone then some (5, word, entry) else x.why }
  if x.ready && x.failedGrant then
    let x := { x with stage := .committing, noWrite := true, failed := true }
    (s.setTxState x.core (s.txBase x) 3 (s.coreSource x.core)).sendReleases x
  else s.setTxn x

/-- One part of a push lands in the slot, unless the window's table refuses it (R82, R130, R331, R333; log entry 31). -/
def State.landPart (s : State) (x : Txn) (entry : Nat) (p : Push) (o : Nat) : State :=
  match s.slotAt x entry with
  | none => s
  | some (a, _) =>
    let z := landSize (x.home entry)
    if !s.tableAllows 1 2 (s.windowPa x.core (a + o)) z 1 then s
    else
      let s := s.lsHard x.core (a + o) ((p.bytes.drop o).take z) 4 { s.outsider with core := x.home entry % 256, slot := 0 }
      let bad := (p.bad.filter (fun g => decide (8 * g / z = o / z))).map (fun g => a / 8 + g)
      (s.setCore x.core { s.core x.core with lsBad := addBad (s.core x.core).lsBad bad }).touch x.core

/-- The part of a push that may land next: in ascending order over the mesh, in any order over the fabric (R130; log entry 2). -/
def State.nextPart (s : State) (x : Txn) (entry : Nat) (p : Push) : Option Nat :=
  let here := fun o => !p.gather.contains (o / 256 * 256)
  if x.home entry < 256 then p.land.head?.filter here
  else
    let l := p.land.filter here
    l[Config.freeChoice s.tick % l.length]?

/-- A part of a push is gathered or lands; which of the two goes first is free (R130; log entry 2). -/
def State.movePush (s : State) (x : Txn) (entry : Nat) (p : Push) : Push × State :=
  let g := p.gather[Config.freeChoice s.tick % p.gather.length]?
  match s.nextPart x entry p, g with
  | some o, none => ({ p with land := p.land.erase o }, s.bump.landPart x entry p o)
  | some o, some a =>
    if Config.freeChoice s.tick % 2 = 0 then ({ p with land := p.land.erase o }, s.bump.landPart x entry p o)
    else s.bump.gatherPart (s.tilePa x entry) p a
  | none, some a => s.bump.gatherPart (s.tilePa x entry) p a
  | none, none => (p, s)

/-- A grant moves on: a part of its push is gathered or lands, and when all of it has landed, so does the grant. It waits while the core
is pre-empted, or the home cut off (R82, R440). -/
def State.moveGrant (s : State) (k seq entry : Nat) (failed : Bool) (p : Push) : State :=
  match s.txn seq with
  | none => s.unpost k
  | some x =>
    if (s.core x.core).pre || s.cut (.grant seq entry failed p) then s
    else if p.gather.isEmpty && p.land.isEmpty then ((s.unpost k).landGrant x entry failed).touch x.core
    else
      let (p, s) := s.movePush x entry p
      { s with chan := s.chan.set k (.grant seq entry failed p) }

/-! ## Pushes that meet a failing flit (R405, R439) -/

/-- The cluster of the dispatch core of a transaction. -/
def State.txnCluster (s : State) (seq : Nat) : Nat := match s.txn seq with | some x => clusterOf x.core | none => 0

/-- The part of a grant's push that is on its way, with its physical address. -/
def State.pushPart (s : State) (seq entry : Nat) (p : Push) : Option (Nat × Nat) :=
  match s.txn seq with
  | none => none
  | some x => (s.nextPart x entry p).map (fun o => (o, s.tilePa x entry + o))

/-! ## Dispensers (R54, R55, R84) -/

/-- The dispenser may place work on a core (R54, R66). -/
def State.placeable (s : State) (n : Nat) : Bool :=
  let c := s.core n
  s.clocked n && !c.pre && c.runList.isEmpty && c.deque.isEmpty

/-- An item at a dispenser: a launch's next item, or a transaction; where it would go, and its priority and age. -/
structure DispItem where
  prio : Nat
  age : Nat
  /-- launch and item number -/
  item : Option (Nat × Nat)
  seq : Nat
  core : Nat
  slot : Nat
  deriving DecidableEq, Repr

/-- A free-task item of a launch that some thread of the cluster may take: the core by rotation, its lowest slot (R55). -/
def State.launchItem (s : State) (k l : Nat) (x : Launch) : Option DispItem :=
  if x.field 425 1 = 1 ∨ x.toStart = 0 ∨ x.suspended = true then none
  else
    match s.nextItem x k with
    | none => none
    | some m =>
      let pair := s.pairedLaunch l
      (rotateAfter (s.cluster k).lastItemCore (s.coresOf k)).findSome? (fun n =>
        if !s.placeable n then none
        else (s.slotFor n .both pair).map (fun i =>
          { prio := x.field 420 2, age := x.age, item := some (l, m), seq := 0, core := n, slot := i }))

/-- A granted transaction that a thread of its dispatch core may take (R55, R84). -/
def State.txnItem (s : State) (k : Nat) (x : Txn) : Option DispItem :=
  if x.cluster ≠ k ∨ x.stage ≠ .framed ∨ x.ready = false ∨ x.failedGrant = true ∨ s.placeable x.core = false then none
  else (s.slotFor x.core .wfw (s.pairedLaunch x.sub.lnch)).map (fun i =>
    { prio := (s.taskOf x.sub.lnch).prio, age := x.age, item := none, seq := x.seq, core := x.core, slot := i })

/-- Of two items the one that goes first: higher priority, then older, then launch items (R55). -/
def DispItem.first (a b : DispItem) : DispItem :=
  if b.prio < a.prio then a
  else if a.prio < b.prio then b
  else if a.age < b.age then a
  else if b.age < a.age then b
  else if a.item.isSome then a else b

/-- The item that the dispenser of a cluster gives next (R55). -/
def State.bestItem (s : State) (k : Nat) : Option DispItem :=
  let items := s.launches.filterMap (fun x => s.launchItem k x.1 x.2) ++ s.scarab.txns.filterMap (s.txnItem k)
  items.foldl (fun acc x => match acc with | none => some x | some y => some (y.first x)) none

/-- The cluster's dispenser holds an item that the core may take: any free-task item of the cluster, and no granted transaction (R51, R297;
log entry 40). -/
def State.dispenserHas (s : State) (n : Nat) : Bool :=
  let k := clusterOf n
  s.launches.any (fun x => decide (x.2.field 425 1 = 0) && !x.2.suspended && (s.nextItem x.2 k).isSome)

/-- A free-task item begins: ARG0 to ARG3, WID = n, RND of the launch (R38, R156). -/
def State.placeItem (s : State) (k : Nat) (d : DispItem) (l m : Nat) : State :=
  match s.launch l with
  | none => s
  | some x =>
    let low := (s.core ((s.coresOf k).headD 0)).lcore
    let args := (List.range 4).map (fun j => BitVec.ofNat 64 (x.field (64 + 64 * j) 64))
    let st : Start := { pc := BitVec.ofNat 64 (x.field 0 64), args := args, wid := BitVec.ofNat 64 m, rnd := BitVec.ofNat 3 (x.field 422 3)
                        task := { s.taskOf l with score := low, item := some m } }
    let s := s.startTask d.core d.slot st
    let s := s.setCluster k { s.cluster k with lastItemCore := some d.core }
    s.modLaunch l (fun x => { x with handed := tblSet k (tblGet 0 k x.handed + 1) x.handed, toStart := x.toStart - 1
                                     live := x.live + 1 })

/-- A granted transaction is dispatched: its registers, TREE = 1, STATE = 1, and an epoch bump; a poisoned header fails the thread
(R84, R407). -/
def State.dispatchTxn (s : State) (d : DispItem) (x : Txn) : State :=
  let n := d.core
  let base := s.txBase x
  let c := s.core n
  let rnd := match s.launch x.sub.lnch with | some l => BitVec.ofNat 3 (l.field 422 3) | none => 0
  let task := { s.taskOf x.sub.lnch with txn := true, txf := some { base := base, core := c.lcore }, score := c.lcore, body := some x.seq }
  let st : Start := { pc := x.sub.pc, wid := x.sub.wid, rnd := rnd, task := task
                      args := [BitVec.ofNat 64 (x.seq % 2 ^ 32), BitVec.ofNat 64 (base + 256), x.sub.args.getD 0 0, x.sub.args.getD 1 0] }
  let s := s.lsHard n (base + 24) (leBytes 4 1 ++ leBytes 1 1) 0 (s.txSource x.sub)
  let s := ((s.startTask n d.slot st).setTxn { x with stage := .running }).bumpEpoch n
  match firstBad c.lsBad base 64 with
  | some b => s.failThread n d.slot { cause := 3, pc := x.sub.pc, val1 := BitVec.ofNat 64 b, val2 := 3, pre := false, queued := false }
  | none => s

/-! ## Commit (R86, R366, R426) -/

/-- The dirty segments of a transaction in slot and address order: entry, local address, physical address (R86). -/
def State.dirtySegs (s : State) (x : Txn) (u : FrameUse) : List (Nat × Nat × Nat) :=
  (s.slotsOf x.sub).flatMap (fun y =>
    let a := s.txBase x + 256 + y.2.2.1
    let pa := (s.space (entrySpace y.2.1)).tileAt (entryTile y.2.1)
    ((List.range (y.2.2.2 / 64)).filter (fun j => u.dirty.contains (a + 64 * j))).map (fun j => (y.1, a + 64 * j, pa + 64 * j)))

/-- The first poisoned granule of the dirty segments (R426). -/
def State.dirtyBad (s : State) (n : Nat) (segs : List (Nat × Nat × Nat)) : Option Nat :=
  segs.findSome? (fun g => ((granules g.2.1 64).find? (s.core n).lsBad.contains).map (fun j => 8 * j))

/-- TREE has reached 0: the transaction commits, or makes a no-write commit. The grants of one that made a checked restart are released
already (R86, R92, R366, R426). -/
def State.commitTxn (s : State) (n : Nat) (u : FrameUse) : State :=
  match s.txn u.seq with
  | none => s
  | some x =>
    let base := s.txBase x
    let w := s.coreSource n
    let failed := bit (memGet (base + 29) (s.core n).ls).toNat 0
    if x.noWrite then s.setTxn { x with stage := .committing, failed := failed }
    else
      let segs := s.dirtySegs x u
      let s := segs.foldl (fun s g => s.logPort n g.2.1 64 3 w) s
      let bad := s.dirtyBad n segs
      if failed || bad.isSome then
        let x := { x with stage := .committing, noWrite := true, failed := true
                          why := if failed then none else bad.map (fun a => (6, 0, a)) }
        (s.setTxState n base 3 w).sendReleases x
      else
        let x := { x with stage := .committing }
        let s := s.setTxState n base 2 w
        (segs.foldl (fun s g => s.postFar (.segment x.seq g.1 g.2.2 (s.lsBytes n g.2.1 64) false)) s).sendReleases x

/-- A TREE decrement reaches a transaction frame (R86). -/
def State.treeDown (s : State) (n base : Nat) (w : Source) : State :=
  let v := s.lsNum n (base + 24) 4
  let s := s.lsHard n (base + 24) (leBytes 4 (v - 1)) 6 w
  if v = 1 then
    match (s.core n).frames.find? (fun u => decide ((s.core n).frameAt u.index = base)) with
    | some u => s.commitTxn n u
    | none => s
  else s

/-- A segment of a tile is still on its way to its home. -/
def State.segmentLeft (s : State) (seq entry : Nat) : Bool :=
  s.chan.any (fun p => match p with | .segment q e _ _ _ => decide (q = seq ∧ e = entry) | _ => false)

/-- A segment reaches the home that owns its bytes, those of one transaction for one home in order; what the home's table refuses writes
nothing (R86, R130, R331, R333; log entry 31). -/
def State.segmentArrives (s : State) (k seq entry pa : Nat) (data : List Byte) (bad : Bool) : State :=
  let h := s.homeFor pa
  let behind := (s.chan.take k).any (fun p => match p with | .segment q _ a _ _ => decide (q = seq ∧ s.homeFor a = h) | _ => false)
  if behind || s.cut (.segment seq entry pa data bad) then s
  else if s.devMay 2 pa 64 1 then (s.unpost k).dramWrite pa (data.map some) (if bad then List.range 8 else []) 0 s.outsider
  else s.unpost k

/-- The request for a tile is still on its way to its lock home. -/
def State.requestLeft (s : State) (seq entry : Nat) : Bool :=
  s.chan.any (fun p => match p with | .lockReq _ _ r => decide (r.seq = seq ∧ r.entry = entry) | _ => false)

/-- A lock home releases a tile, and serves its queue (R86). -/
def State.releaseTile (s : State) (seq entry : Nat) : State :=
  let hs := (s.homes.filter (fun x => (x.2.reqs ++ x.2.early).any (fun r => decide (r.seq = seq ∧ r.entry = entry)))).map (·.1)
  let s := hs.foldl (fun s h =>
    let x := s.home h
    let reqs := x.reqs.filter (fun r => !decide (r.seq = seq ∧ r.entry = entry))
    let notices := if reqs.any (fun r => decide (r.seq = seq)) then x.notices else x.notices.filter (fun q => decide (q ≠ seq))
    (s.setHome h { x with reqs := reqs, notices := notices, early := x.early.filter (fun r => !decide (r.seq = seq ∧ r.entry = entry)) }).serveHome h) s
  match s.txn seq with
  | none => s
  | some x => s.setTxn { x with unreleased := x.unreleased.filter (fun e => decide (e ≠ entry)) }

/-- TXF of a transaction as a record shows it (R290, R368). -/
def State.txfNum (s : State) (x : Txn) : Nat := s.txBase x + (s.core x.core).lcore * 2 ^ 19

/-- A transaction ends: its FRAME decrement goes out, and its launch counts it (R86, R92, R366). -/
def State.endTxn (s : State) (x : Txn) : State :=
  let s := { s with scarab := { s.scarab with txns := s.scarab.txns.filter (fun y => decide (y.seq ≠ x.seq)) } }
  let s := match x.sub.frame with
    | some f => if x.restarted then s else s.post (.decrement f x.sub.lnch none (s.txSource x.sub) false)
    | none => s
  (if x.failed then s.failedItems x.sub.lnch 1 else s).ended x.sub.lnch

/-- Every tile is released: the frame comes free, and the transaction ends, a failed one once its record is written (R86, R366). -/
def State.freeTxn (s : State) (x : Txn) : State :=
  match x.stage with
  | .committing =>
    if !x.unreleased.isEmpty then s
    else
      let c := s.core x.core
      let tf := s.txfNum x
      let s := s.setCore x.core { c with frames := c.frames.filter (fun u => decide (u.seq ≠ x.seq)) }
      if x.failed then
        let (x, s) := s.failRecords x (clusterOf x.core) (c.lcore, tf, c.cyc)
        s.setTxn x
      else s.endTxn x
  | .ended =>
    match x.recNum with
    | some r => if r < (s.cluster x.cluster).errTail then s.endTxn x else s
    | none => s
  | _ => s

/-! ## Tile spaces (R70, R71, R73, R79) -/

/-- The 32 bytes of a descriptor pass the checks (R73). -/
def descriptorOk (num : Nat → Nat → Nat) : Bool :=
  let n := num 14 1
  decide (8 ≤ n ∧ n ≤ 16) && bit (num 15 1) 1 && decide (num 15 1 / 4 = 0) && decide (num 0 8 % 2 ^ n = 0)
    && decide (num 8 6 % 2 ^ n = 0) && decide (1 ≤ num 16 6) && decide (num 22 2 = 0) && decide (num 30 2 = 0)

/-- The homes that a space can place on; its placement array is read for them (R73, R79). -/
def State.spaceHomes (s : State) (x : Space) : List Nat × State :=
  let (l, s) := (List.range x.count).foldl (fun (acc : List Nat × State) i =>
    let (h, s) := acc.2.lockHome x i
    (if acc.1.contains h then acc.1 else acc.1 ++ [h], s)) ([], s)
  (l, s)

/-- Enrol with a home: its first batch is the open one (R79). -/
def State.enrol (s : State) (h : Nat) : State :=
  if s.scarab.channels.any (fun c => decide (c.1 = h)) then s
  else
    let b := s.scarab.batch
    let s := { s with scarab := { s.scarab with channels := s.scarab.channels ++ [(h, b)] } }
    s.setHome h { s.home h with enrolled := (s.home h).enrolled ++ [(s.scarab.pidx, b)] }

/-- The load of a descriptor ends (R73, R425). -/
def State.loadSpace (s : State) : State :=
  let i := s.scarab.loading
  let at_ := s.scarab.base + 32 * i
  let (bs, s) := s.devRead 2 at_ 32
  let num (o n : Nat) : Nat := leNat ((bs.drop o).take n)
  let fin (s : State) (ok : Bool) : State := { s with scarab := { s.scarab with load := false, err := !ok } }
  if descriptorOk num then
    let x : Space := { vbase := BitVec.ofNat 64 (num 0 8), pbase := num 8 6, log2 := num 14 1, explicit := bit (num 15 1) 0
                       count := num 16 6, pmap := num 24 6 }
    let s := { s with scarab := { s.scarab with spaces := tblSet i x s.scarab.spaces } }
    let (hs, s) := s.spaceHomes x
    let s := hs.foldl State.enrol s
    let s := { s with homes := s.homes.map (fun (h : Nat × Home) => (h.1, { h.2 with broken := h.2.broken.filter (fun b => decide (b.1 ≠ i)) })) }
    fin s true
  else fin { s with scarab := { s.scarab with spaces := tblDel i s.scarab.spaces } } false

/-- A numbered transaction that names a space has not committed (R73). -/
def State.spaceBusy (s : State) (i : Nat) : Bool :=
  s.scarab.txns.any (fun x => decide (x.stage ≠ .ended) && x.sub.entries.any (fun e => decide (entrySpace e.2 = i)))

/-- The package's units work: it is powered and not in the fatal state. -/
def State.alive (s : State) : Bool := s.on && s.fatal.isNone

/-- R73: Once every transaction naming the space has committed, the Scarab reads and checks the descriptor and enrols. -/
def execTsDescriptorLoad (s : State) : Out :=
  .next (if s.alive then if s.scarab.load && !s.spaceBusy s.scarab.loading then s.loadSpace else s else s)

/-- R77: The dispenser gives the next transaction a frame on a core and sends frame notices. -/
def execFrameAssignment (cluster : Nat) (s : State) : Out :=
  .next (if s.alive then s.assignFrame cluster else s)

/-- R81: A lock request reaches its lock home and is queued in sequence order. -/
def execLockRequestArrival (k : Nat) (s : State) : Out :=
  match s.chan[k]? with
  | some (.lockReq h o r) => if s.alive then .next (s.takeRequest k h o r) else .next s
  | _ => .next s

/-- R80: A seal reaches a home and may let the next request group be served. -/
def execSealArrival (k : Nat) (s : State) : Out :=
  match s.chan[k]? with
  | some (.seal h o pkg batch) => if s.alive then .next (s.takeSeal k h o pkg batch) else .next s
  | _ => .next s

/-- R423: A seal wait of 10 ms writes a kind 21 record. -/
def execSealOverdue (h : Nat) (s : State) : Out :=
  .next (if s.alive then s.overdueSeal h else s)

/-- R82: A frame notice reaches a lock home, releasing held grants and pushes. -/
def execFrameNoticeArrival (k : Nat) (s : State) : Out :=
  match s.chan[k]? with
  | some (.notice h seq) => if s.alive && !s.cut (.notice h seq) then .next (((s.unpost k).setHome h { s.home h with notices := (s.home h).notices ++
    [seq] }).serveHome h) else .next s
  | _ => .next s

/-- R82: A grant message lands at the dispatch core after its push. -/
def execGrantLanding (k : Nat) (s : State) : Out :=
  match s.chan[k]? with
  | some (.grant seq entry failed push) => if s.alive then .next (s.moveGrant k seq entry failed push) else .next s
  | _ => .next s

/-- R55: A cluster dispenser gives the best eligible item to a thread that can take dispenser work. -/
def execDispenserPlace (cluster : Nat) (s : State) : Out :=
  match s.bestItem cluster with
  | some d =>
    match d.item with
    | some (l, m) => .next (if s.alive then s.placeItem cluster d l m else s)
    | none => .next s
  | none => .next s

/-- R84: After its last grant, the transaction is placed on a wfw thread of its dispatch core. -/
def execTransactionDispatch (cluster : Nat) (s : State) : Out :=
  match s.bestItem cluster with
  | some d =>
    match d.item, s.txn d.seq with
    | none, some x => .next (if s.alive then s.dispatchTxn d x else s)
    | _, _ => .next s
  | none => .next s

/-- R86: An owning home applies a commit segment and acknowledges to the lock home. -/
def execCommitSegmentArrival (k : Nat) (s : State) : Out :=
  match s.chan[k]? with
  | some (.segment seq entry pa data bad) => if s.alive then .next (s.segmentArrives k seq entry pa data bad) else .next s
  | _ => .next s

/-- R86: A lock home releases a tile once all its write-back acknowledgements arrive. -/
def execTileRelease (k : Nat) (s : State) : Out :=
  match s.chan[k]? with
  | some (.release seq entry) => if s.alive then .next (if s.segmentLeft seq entry || s.requestLeft seq entry || s.entryCut seq entry
    then s else (s.unpost k).releaseTile seq entry) else .next s
  | _ => .next s

/-- R86: When every tile is released the frame frees and the FRAME decrement goes out. -/
def execTransactionFrameFree (k : Nat) (s : State) : Out :=
  match s.scarab.txns[k]? with
  | some x => .next (if s.alive then s.freeTxn x else s)
  | none => .next s

end Sys2Proof.Machine
end

