-- ==== Sys2Proof/Machine/Preempt.lean ====
section
/-!
DEFINITION. Pre-emption and resumption of a core group (R66, R67, R319, R341, R376, R377). A pre-empted core keeps its state in
place; the save area receives bytes whose layout is private to the device (log entry 12).
-/

namespace Sys2Proof.Machine

open Sys2Proof

/-- The clusters that a value of PRGRP names (R319). -/
def rectClusters (g : Nat) : List Nat := groupClusters (bits g 0 4) (bits g 4 3) (bits g 7 4) (bits g 11 3)

/-- The rectangle of a launch's core group, in the layout of PRGRP. -/
def Launch.rect (l : Launch) : Nat := bits l.hdr.toNat 448 14

/-- The sites of a rectangle's enabled cores. -/
def State.rectCores (s : State) (g : Nat) : List Nat := s.coresIn (rectClusters g)

/-- Core n's part of a save area (R319). -/
def State.saveAt (s : State) (area n : Nat) : Nat := area + (s.core n).lcore * 0x240000

/-- The bytes of a save: their layout is private to the device (R319; log entry 2). -/
def State.saveBytes (s : State) : List Byte := (List.range 0x240000).map (Config.freeByte s.tick)

/-- The tables let every piece of a core's save, or restore, pass as master 1 (R331, R333). -/
def State.saveMay (s : State) (area n acc : Nat) : Bool :=
  inDram (s.saveAt area n) 0x240000 && (!s.enf || s.devMay 1 (s.saveAt area n) 0x240000 acc)

/-- The save area of a core takes the writes of its save, and none of them meets an uncorrectable error (R377). -/
def State.saveTakes (s : State) (area n : Nat) : Bool := !(s.core n).saveBad && s.saveMay area n 1

/-- The granules of a core's save that carry the poison of its memories (R406): those of the local store, the weight store and the
accumulators. -/
def State.saveMarks (s : State) (area n : Nat) : List Nat :=
  let c := s.core n
  let keys := c.lsBad ++ c.wsBad.map (· + 0x10000) ++ c.accBad.map (· + 0x60000)
  keys.map (fun g => s.dramKey (s.saveAt area n) / 8 + Config.savePlace n g % 0x48000)

/-- The save of a core can be read back without an uncorrectable error; poison that it carries is none (R377). -/
def State.saveReads (s : State) (area n : Nat) : Bool :=
  s.saveMay area n 0 && !anyBad (s.dramBad.filter (fun g => !(s.saveMarks area n).contains g)) (s.dramKey (s.saveAt area n)) 0x240000

/-- A member of a transaction's tree failed: bit 0 of byte 29 of its frame header is set, on another core through its window, which
starts that core's watchdog counter over (R366, R375). -/
def State.failTree (s : State) (w : Source) (t : Option TxF) : State :=
  match t with
  | none => s
  | some f =>
    match s.siteOf f.core with
    | none => s
    | some n =>
      let s := s.lsHard n (f.base + 29) [memGet (f.base + 29) (s.core n).ls ||| 1] 0 w
      if w.core = f.core then s else s.touch n

/-- The tasks of a failing thread or continuation mark their transactions, or count as one failed item of their launch (R365, R366). -/
def State.failItems (s : State) (w : Source) (t : Thread) : State :=
  let s := t.openTasks.foldl (fun s x => if x.1.txn then s.failTree w x.1.txf else s) s
  if t.task.txn then s else s.failedItems t.task.lnch 1

/-- The decrements of a failing thread or continuation: its popped inline children, innermost first, then its task (R364, R365). -/
def State.leaveAll (s : State) (w : Source) (t : Thread) : State :=
  t.openTasks.foldl (fun s x => if x.2 then s.leave w x.1 else s) s

/-- The kind 1 record of a continuation, which has no slot (R367, R377, R407). -/
def State.contRec (s : State) (n : Nat) (k : Cont) (cause : Nat) (pc v1 v2 : Word) (pre : Bool) : ErrRec :=
  let t := k.thread
  { kind := 1, cause := cause, lnch := t.task.lnch, fl := t.recFlags + 8 * b2n pre
    core := (s.core n).lcore, pc := pc, val1 := v1, val2 := v2, wid := s.lsWord n (k.region * 0x1000 + 0x70), seq := s.seqOf t.task
    cyc := (s.core n).cyc }

/-- A continuation fails: its record is queued, and its tasks end as a failing thread's do (R364 to R366). -/
def State.contFails (s : State) (n : Nat) (k : Cont) (r : ErrRec) : State :=
  let w := s.coreSource n
  ((s.record (clusterOf n) r).failItems w k.thread).leaveAll w k.thread

/-- A record of the deque fails with the save or restore of its core: a kind 1 record with its entry, and the end of a failing task
(R377; log entry 28). -/
def State.withdraw (s : State) (n : Nat) (r : Record) : State :=
  let t : Thread := { task := s.recordTask r, wid := r.wid }
  let e : ErrRec := { kind := 1, cause := 6, lnch := r.lnch, fl := b2n r.txn + 2 * b2n (s.pairedLaunch r.lnch) + 8, core := (s.core n).lcore
                      pc := r.pc, wid := r.wid, seq := s.seqOf t.task, cyc := (s.core n).cyc }
  let w := s.coreSource n
  ((s.record (clusterOf n) e).failItems w t).leaveAll w t

/-- The save or restore of a core failed: its threads fail with CAUSE 6. It is not saved, so that their operations drain (R364, R377). -/
def State.saveFailed (s : State) (n : Nat) : State :=
  let s := (s.core n).threads.foldl (fun s x =>
    if !x.2.busyTask then s
    else
      match (s.thread n x.1).run with
      | .failing _ => s
      | _ => s.failThread n x.1 { cause := 6, pc := (s.thread n x.1).pc, val1 := 0, val2 := 0, pre := true, queued := false }) s
  s.setCore n { s.core n with saved := false, saveBad := false, lost := true }

/-- Its threads have failed: its records and continuations are reported, and nothing is left to restore (R377). -/
def State.reportLost (s : State) (n : Nat) : State :=
  let c := s.core n
  let s := c.deque.foldl (fun s r => s.withdraw n r) s
  let s := c.runList.foldl (fun s k => s.contFails n k (s.contRec n k 6 (s.contPoint n k).1 0 0 true)) s
  s.setCore n { s.core n with deque := [], runList := [], saved := true, lost := false }

/-- The resident windows of a thread stand in its region too (R181). -/
def State.saveWindows (s : State) (n i : Nat) : State :=
  let t := s.thread n i
  match t.run with
  | .failing _ => s
  | _ => if t.busyTask then s.spillAll n i else s

/-- The threads of a core stop at their next instruction boundary; a trap entry in progress completes first, and their resident
windows are written to their regions (R66, R181, R376). -/
def State.stopCore (s : State) (n : Nat) : State :=
  let s := (s.core n).threads.foldl (fun s x => match x.2.run with | .trapped => s.enterHandler n x.1 | _ => s) s
  let s := if (s.core n).pre then s else (s.core n).threads.foldl (fun s x => s.saveWindows n x.1) s
  s.setCore n { s.core n with pre := true }

/-- Begin the pre-emption of a rectangle into a save area. -/
def State.preempt (s : State) (g area : Nat) : State :=
  let s := (s.rectCores g).foldl State.stopCore s
  { s with port := { s.port with pres := s.port.pres ++ [(g % 2 ^ 14, area)] } }

/-- A core may report pre-empted: the operations and the Hive instruction already begun are performed and no thread is failing (R66, R281,
R376). -/
def State.quiet (s : State) (n : Nat) : Bool :=
  (s.core n).ops.all (fun o => match o.stage with | .queued => o.got.isEmpty | _ => false) && !s.hiveBusy n
    && (s.core n).threads.all (fun x => match x.2.run with | .failing _ => false | _ => true)

/-- The live launches whose core group meets a rectangle, ascending. -/
def State.meets (s : State) (g : Nat) : List Nat :=
  (s.launches.filter (fun x => (rectClusters x.2.rect).any (rectClusters g).contains)).map (·.1)

/-- One record for each live launch that meets a rectangle, or one with LNCH = 0xFF (R319). -/
def State.reportGroup (s : State) (kind g : Nat) : State :=
  match s.meets g with
  | [] => s.report { kind := kind, lnch := 0xFF, lseq := 0, code := 0, value := 0 }
  | is => is.foldl (fun s i => s.report { kind := kind, lnch := i, lseq := 0, code := 0, value := 0 }) s

/-- Save a quiet core that is not saved: its local store is read, and its part of the area is written with the poison of its memories, or the
save fails (R66, R128, R377, R406). -/
def State.saveCore (s : State) (area n : Nat) : State :=
  if (s.core n).saved then s
  else if (s.core n).lost then s.reportLost n
  else if s.saveTakes area n then
    let s := (s.logPort n 0 0x80000 3 (s.coreSource n)).devWrite 1 (s.saveAt area n) s.saveBytes
    let s := { s with dramBad := addBad s.dramBad (s.saveMarks area n) }
    (s.setCore n { s.core n with saved := true }).bump
  else s.saveFailed n

/-- The launches that a thermal pre-emption of a rectangle saves: their KIND 4 records are its own (R341, R444). -/
def State.suspendedIn (s : State) (g : Nat) : Bool := s.launches.any (fun x => x.2.suspended && decide (x.2.rect = g))

/-- The records that end the pre-emption of a rectangle: one for each live launch that meets it, or, of a thermal pre-emption, for each
launch that it saves (R319, R341). -/
def State.reportSaved (s : State) (g : Nat) : State :=
  if s.suspendedIn g then
    (s.launches.filter (fun x => x.2.suspended && decide (x.2.rect = g))).foldl (fun s x =>
      s.report { kind := 4, lnch := x.1, lseq := 0, code := 0, value := 0 }) s
  else s.reportGroup 4 g

/-- The oldest pre-emption under way goes on once every core of its group can report, and ends when all are saved (R66, R319, R377). -/
def State.endPreempt (s : State) : State :=
  match s.port.pres with
  | [] => s
  | (g, area) :: rest =>
    if (s.rectCores g).all s.quiet then
      let s := (s.rectCores g).foldl (fun s n => s.saveCore area n) s
      if (s.rectCores g).all (fun n => (s.core n).saved) then
        State.reportSaved { s with port := { s.port with pres := rest, saves := s.port.saves ++ [(g, area)] } } g
      else s
    else s

/-- Another pre-emption holds a core. -/
def State.heldBy (s : State) (n : Nat) : Bool :=
  (s.port.saves ++ s.port.pres).any (fun x => (s.rectCores x.1).contains n)

/-- A saved core is restored, its local store written back, unless its save cannot be read: then it fails as with a save (R67, R128, R377). -/
def State.restoreCore (s : State) (area n : Nat) : State :=
  if !(s.core n).saved then s
  else if s.saveReads area n then s.logPort n 0 0x80000 7 (s.coreSource n)
  else s.saveFailed n

/-- A restored core goes on, unless another pre-emption holds it (R67). -/
def State.releaseCore (s : State) (n : Nat) : State :=
  if s.heldBy n then s else s.setCore n { s.core n with pre := false, saved := false }

/-- Every core of a resumption has been restored, or failed (R67, R319). -/
def State.finishResume (s : State) (g area : Nat) (rest : List (Nat × Nat)) : State :=
  let s := { s with port := { s.port with ress := rest, saves := s.port.saves.erase (g, area) } }
  ((s.rectCores g).foldl State.releaseCore s).reportGroup 5 g

/-- A resume of a rectangle from a save area: it must name a group that is pre-empted, and a suspended launch resumes in COLD_READY,
COLD_RUN and EXCURSION only (R319, R341). -/
def State.resume (s : State) (g area : Nat) : State :=
  let g := g % 2 ^ 14
  let cold := match s.cold.molt with | .coldReady => true | .coldRun => true | .excursion => true | _ => false
  if !s.port.saves.contains (g, area) || s.port.ress.contains (g, area) then s
  else if s.suspendedIn g && !cold then s
  else
    let wake := s.suspendedIn g
    let s := { s with launches := s.launches.map (fun x => (x.1, if x.2.rect = g then { x.2 with suspended := false } else x.2))
                      port := { s.port with ress := s.port.ress ++ [(g, area)] } }
    if wake then s.wakeMolt else s

/-- The oldest resumption under way goes on: its cores are restored, and it ends once the threads of those whose restore failed have failed
(R67, R319, R377). -/
def State.endResume (s : State) : State :=
  match s.port.ress with
  | [] => s
  | (g, area) :: rest =>
    let ns := s.rectCores g
    if ns.any (fun n => (s.core n).lost) then
      if ns.all (fun n => !(s.core n).lost || s.quiet n) then ns.foldl (fun s n => if (s.core n).lost then s.reportLost n else s) s |>.finishResume g area rest
      else s
    else
      let s := ns.foldl (fun s n => s.restoreCore area n) s
      if ns.any (fun n => (s.core n).lost) then s else s.finishResume g area rest

/-- A write of PRGRP: CMD = 1 pre-empts, CMD = 2 resumes (R319). -/
def State.setPrgrp (s : State) (v : Word) : State :=
  let s := { s with port := { s.port with prgrp := v.toNat % 2 ^ 16 } }
  match bits v.toNat 14 2 with
  | 1 => s.preempt v.toNat s.port.prsave
  | 2 => s.resume v.toNat s.port.prsave
  | _ => s

/-- R66: PRGRP with CMD = 1 pre-empts a core group, saving every core's state. -/
def execPreemptRequest (v : Word) (s : State) : Out :=
  .next (if s.hostMay 0x10188 8 1 && decide (bits v.toNat 14 2 = 1) then s.setPrgrp v else s)

/-- R319: When every core of the group reports pre-empted, KIND 4 records are written. -/
def execPreemptComplete (s : State) : Out :=
  .next (if s.on && s.fatal.isNone then s.endPreempt else s)

/-- R67: PRGRP with CMD = 2 restores a pre-empted group and replays its engine records. -/
def execResumeRequest (v : Word) (s : State) : Out :=
  .next (if s.hostMay 0x10188 8 1 && decide (bits v.toNat 14 2 = 2) then s.setPrgrp v else s)

/-- R319: When the group has resumed, KIND 5 records are written. -/
def execResumeComplete (s : State) : Out :=
  .next (if s.on && s.fatal.isNone then s.endResume else s)

end Sys2Proof.Machine
end

