-- ==== Sys2Proof/Machine/Window.lean ====
section
/-!
DEFINITION. The control window (R6, R8, R70, R312 to R315, R321, R322, R325, R327, R328, R332 to R334, R337, R338, R451): what a read of
a register gives and what a write of it does, whoever makes the access.
-/

namespace Sys2Proof.Machine

open Sys2Proof

/-! ## Reads -/

/-- TBAND (R337). -/
def Cold.tband (c : Cold) : Nat :=
  c.band % 4 + c.req % 4 * 2 ^ 2 + c.tmax % 2 ^ 13 * 2 ^ 4 + c.smax % 64 * 2 ^ 17 + c.molt.code * 2 ^ 23 + b2n c.under * 2 ^ 27
    + b2n c.rampv * 2 ^ 28

/-- TLAST (R337). -/
def Cold.tlast (c : Cold) : Nat := c.lastTime % 2 ^ 48 + c.lastFrom % 4 * 2 ^ 48 + c.lastTo % 4 * 2 ^ 50

/-- TSENS n; a failed sensor reads 0x1FFF (R337, R442). -/
def Cold.tsens (c : Cold) (n : Nat) : Nat := if c.failed.contains n then 0x1FFF else c.temps.getD n 0 % 2 ^ 13

/-- LPSTAT (R451). -/
def State.lpstat (s : State) : Nat :=
  s.port.headers.length % 32 + b2n s.port.shapeWaits * 2 ^ 5 + b2n s.site * 2 ^ 6
    + ((s.launches.filter (fun x => decide (x.1 < 16))).map (fun x => 2 ^ x.1)).sum * 2 ^ 8 + s.port.lseq % 2 ^ 32 * 2 ^ 32

/-- FLSTAT (R328). -/
def Link.flstat (l : Link) : Nat :=
  l.st % 4 + l.lanes % 16 * 2 ^ 2 + l.width % 8 * 2 ^ 6 + l.peer % 256 * 2 ^ 9 + l.plink % 32 * 2 ^ 17


/-- HRTD0 of a home's ring (R313). -/
def Ring.homeData0 (r : Ring) : Nat :=
  match r.entries[r.idx]? with
  | none => 0
  | some e => e.addr % 2 ^ 48 + e.size % 8 * 2 ^ 48 + e.kind % 8 * 2 ^ 51

/-- HRTD2 of a home's ring (R313). -/
def Ring.homeData2 (r : Ring) : Nat :=
  match r.entries[r.idx]? with
  | none => 0
  | some e => e.ord % 2 ^ 32

/-- A register of home h's ring (R312, R313). -/
def State.homeReg (s : State) (h k : Nat) : Nat :=
  let r := (s.home h).ring
  match k with
  | 0 => r.control.toNat
  | 1 => r.mtch % 2 ^ 48
  | 2 => r.mask % 2 ^ 48
  | 3 => r.homeData0
  | 4 => r.data1.toNat
  | _ => r.homeData2

/-- A register of the control window by its offset (R312). -/
def State.ctrlValue (s : State) (o : Nat) : Nat :=
  match o with
  | 0x0 => devId
  | 0x8 => s.devsn.toNat
  | 0x1000 => s.cold.tband
  | 0x1008 => s.cold.tlast
  | 0x1018 => s.cold.msave
  | 0x10080 => s.lpstat
  | 0x10088 => s.port.lrbase
  | 0x10090 => s.port.lrhead
  | 0x10098 => s.port.lrtail
  | 0x10180 => s.port.prsave
  | 0x10188 => s.port.prgrp
  | 0x10200 => s.port.shsize + s.port.shbase
  | 0x10208 => s.port.hwbase
  | 0x20000 => s.scarab.base
  | 0x20008 => s.scarab.index % 256 + b2n s.scarab.load * 2 ^ 8 + b2n s.scarab.err * 2 ^ 9
  | 0x20010 => s.scarab.pidx % 256 + s.scarab.podm % 256 * 2 ^ 8
  | 0x3F000 => b2n s.enf + b2n s.hl * 2
  | 0x40000 => s.storage.stqbase
  | 0x40008 => b2n s.storage.consent
  | 0x60000 => s.pcap
  | o =>
    if 0x1100 ≤ o ∧ o < 0x1300 then s.cold.tsens ((o - 0x1100) / 8)
    else if 0x30000 ≤ o ∧ o < 0x37000 then
      ((tblGet [] (64 * ((o - 0x30000) / 0x1000) + o % 0x1000 / 32) s.tables).getD (o % 32 / 8) 0).toNat
    else if 0x40100 ≤ o ∧ o < 0x40300 then tblGet 0 ((o - 0x40100) / 8) s.storage.qps
    else if 0x50000 ≤ o ∧ o < 0x50100 then (tblGet 0 ((o - 0x50000) / 8) s.dbgbp).toNat
    else if 0x60100 ≤ o ∧ o < 0x60180 then tblGet 800000 ((o - 0x60100) / 8) s.sorl
    else if 0x10000000 ≤ o ∧ o < 0x10100000 then s.homeReg ((o - 0x10000000) / 0x1000) (o % 0x1000 / 8)
    else if 0x20000000 ≤ o ∧ o < 0x20012000 then
      let l := s.link ((o - 0x20000000) / 0x1000)
      if o % 0x1000 = 0 then l.flstat else l.cost
    else if 0x20100000 ≤ o ∧ o < 0x20100800 then tblGet 0 ((o - 0x20100000) / 8) s.froute
    else 0

/-- A read of a register; reading TBAND clears RAMPV (R337). -/
def State.ctrlRead (s : State) (o : Nat) : Word × State :=
  (BitVec.ofNat 64 (s.ctrlValue o), if o = 0x1000 then { s with cold := { s.cold with rampv := false } } else s)

/-! ## Writes -/

/-- `MCMD` = COOL (R338). -/
def State.coolCommand (s : State) : State := match s.cold.molt with | .warmService => s.enterMolt .coolPrep | _ => s

/-- `MCMD` = WARM; in COLD_RUN it is held until COLD_READY, and a SOAK that cannot train ignores it (R338, R444). -/
def State.warmCommand (s : State) : State :=
  match s.cold.molt with
  | .cooling => s.enterMolt .warming
  | .soak => if s.cold.trainFails.any (fun x => decide (3 ≤ x.2)) then s else s.enterMolt .warming
  | .coldReady => s.enterMolt .warming
  | .excursion => s.enterMolt .warming
  | .coldRun => { s with cold := { s.cold with warmHeld := true } }
  | _ => s

/-- A write of `MCMD`; while a ramp or gradient limit holds the state the command waits (R338, R339; log entry 35). -/
def State.moltCommand (s : State) (cmd : Nat) : State :=
  if cmd = 0 ∨ cmd = 3 then s
  else if s.cold.ramping then { s with cold := { s.cold with cmdHeld := cmd } }
  else if cmd = 1 then s.coolCommand else s.warmCommand

/-- Commands of a pair are outstanding. -/
def Storage.outstanding (p : Storage) (q : Nat) : Bool := p.cmds.any (fun c => decide (c.qp = q) && c.done.isNone)

/-- A write of a queue-pair entry: contexts that were set before follow it only when no command of the pair is outstanding. Opening a pair
that firmware has recreated ends the loss of its controller (R325, R437). -/
def State.setPair (s : State) (q v : Nat) : State :=
  let p := s.storage
  let p := if p.outstanding q then { p with qps := tblSet q v p.qps }
    else { p with qps := tblSet q v p.qps, changes := tblSet q (tblGet 0 q p.changes + 1) p.changes, settled := tblSet q v p.settled }
  let p := if bit v 0 && p.recreated.contains q then
      { p with lost := p.lost.filter (fun x => decide (x ≠ q)), recreated := p.recreated.filter (fun x => decide (x ≠ q)) } else p
  { s with storage := p }

/-- A write of TSCTL: INDEX, and LOAD starts a load (R70, R73). -/
def State.setTsctl (s : State) (v : Word) : State :=
  let i := v.toNat % 256
  let go := v.getLsbD 8 && !s.scarab.load
  { s with scarab := { s.scarab with index := i, load := s.scarab.load || go, loading := if go then i else s.scarab.loading } }

/-- After HL only the host writes the access tables, ATCTL and PCAP (R333). -/
def State.locked (s : State) (master : Nat) : Bool := s.hl && decide (master ≠ 4)

/-- The bits that a word of an access-table entry keeps (R332). -/
def entryMask (part : Nat) : Word :=
  match part with
  | 0 => 0xFFFFFFFFFFFF
  | 1 => 0xFFFFFFFFFFFF
  | 2 => 0x87FFFF
  | _ => 0

/-- A write of one word of an access-table entry (R332, R333). -/
def State.setEntry (s : State) (master t e part : Nat) (v : Word) : State :=
  if s.locked master then s
  else
    let old := tblGet (List.replicate 4 0) (64 * t + e) s.tables
    { s with tables := tblSet (64 * t + e) (old.set part (v &&& entryMask part)) s.tables }

/-- A write of ATCTL: both bits are set by writing 1 (R333). -/
def State.setAtctl (s : State) (master : Nat) (v : Word) : State :=
  if s.locked master then s else { s with enf := s.enf || v.getLsbD 0, hl := s.hl || v.getLsbD 1 }

/-- A write of SWGATE: the host's only; clearing wins (R327). -/
def State.setSwgate (s : State) (master : Nat) (v : Word) : State :=
  if master ≠ 4 then s
  else
    let c := if v.getLsbD 1 then false else s.storage.consent || v.getLsbD 0
    { s with storage := { s.storage with consent := c } }

/-- A write of PCAP; a value above the limit is stored as the limit (R333, R334). -/
def State.setPcap (s : State) (master : Nat) (v : Word) : State :=
  if s.locked master then s else { s with pcap := min (v.toNat % 0x1000) 2600 }

/-- A write of SORL p (R334). -/
def State.setSorl (s : State) (p : Nat) (v : Word) : State := { s with sorl := tblSet p (min (v.toNat % 2 ^ 20) 800000) s.sorl }

/-- A halted thread goes on, or begins to fail if a failure hit it meanwhile (R322, R378). -/
def Thread.resumed (t : Thread) : Thread :=
  match t.fail with
  | none => { t with run := .running, bkpt := none }
  | some f => { t.failWith f with bkpt := none }

/-- A write of DBGRES resumes a halted thread (R322). -/
def State.debugResume (s : State) (v : Word) : State :=
  match s.siteOf (v.toNat % 0x1000) with
  | none => s
  | some n =>
    let i := bits v.toNat 12 4
    match (s.thread n i).run with
    | .halted => s.setThread n i (s.thread n i).resumed
    | _ => s

/-- A write of HRTC, HRTF0 or HRTF1 of home h; the data registers are read-only (R313). -/
def State.setHomeReg (s : State) (h k : Nat) (v : Word) : State :=
  let x := s.home h
  match k with
  | 0 => s.setHome h { x with ring := x.ring.setControl v.toNat }
  | 1 => s.setHome h { x with ring := { x.ring with mtch := v.toNat % 2 ^ 48 } }
  | 2 => s.setHome h { x with ring := { x.ring with mask := v.toNat % 2 ^ 48 } }
  | _ => s

/-- A write of a register of the control window; a write to a read-only register has no effect (R6, R8, R312). -/
def State.ctrlWrite (s : State) (master o : Nat) (v : Word) : State :=
  match o with
  | 0x1010 => s.moltCommand (v.toNat % 4)
  | 0x1018 => { s with cold := { s.cold with msave := bits v.toNat 16 32 * 2 ^ 16 } }
  | 0x10088 => s.setLrbase v
  | 0x10090 => s.setLrhead v
  | 0x10180 => { s with port := { s.port with prsave := bits v.toNat 16 32 * 2 ^ 16 } }
  | 0x10188 => s.setPrgrp v
  | 0x10200 => s.setShwin v
  | 0x10208 => s.setHwbase v
  | 0x20000 => { s with scarab := { s.scarab with base := bits v.toNat 13 35 * 2 ^ 13 } }
  | 0x20008 => s.setTsctl v
  | 0x20010 => { s with scarab := { s.scarab with pidx := bits v.toNat 0 8, podm := bits v.toNat 8 8 } }
  | 0x3F000 => s.setAtctl master v
  | 0x40000 => { s with storage := { s.storage with stqbase := bits v.toNat 21 27 * 2 ^ 21 } }
  | 0x40008 => s.setSwgate master v
  | 0x50200 => s.debugResume v
  | 0x60000 => s.setPcap master v
  | o =>
    if 0x30000 ≤ o ∧ o < 0x37000 then s.setEntry master ((o - 0x30000) / 0x1000) (o % 0x1000 / 32) (o % 32 / 8) v
    else if 0x40100 ≤ o ∧ o < 0x40300 then
      s.setPair ((o - 0x40100) / 8) (v.toNat % 2 ^ 41)
    else if 0x50000 ≤ o ∧ o < 0x50100 then { s with dbgbp := tblSet ((o - 0x50000) / 8) v s.dbgbp }
    else if 0x60100 ≤ o ∧ o < 0x60180 then s.setSorl ((o - 0x60100) / 8) v
    else if 0x10000000 ≤ o ∧ o < 0x10100000 then s.setHomeReg ((o - 0x10000000) / 0x1000) (o % 0x1000 / 8) v
    else if 0x20100000 ≤ o ∧ o < 0x20100800 then { s with froute := tblSet ((o - 0x20100000) / 8) (v.toNat % 2 ^ 18) s.froute }
    else s

/-- A write of any size at an offset of the window, by a master (R312): one of the block writes, or 8 bytes at a register. -/
def State.ctrlStore (s : State) (master o : Nat) (data : List Byte) (completion : BitVec 128) : PortAnswer :=
  if o = 0x10000 ∧ data.length = 64 then s.putHeader (BitVec.ofNat 512 (leNat data))
  else if o = 0x10040 ∧ data.length = 32 then s.putShape (BitVec.ofNat 256 (leNat data))
  else if o = 0x10100 ∧ data.length = 64 then s.putRequest (BitVec.ofNat 512 (leNat data)) completion
  else .done (s.ctrlWrite master o (BitVec.ofNat 64 (leNat data)))

/-- An access of a master that needs no link, or of the companion, reaches the window and passes its table; there are the masters 0 to 7
(R331). -/
def State.masterMay (s : State) (master off size acc : Nat) : Bool :=
  decide (master < 8) && (if master = 4 ∨ master = 7 then s.hostReaches off else s.on && s.fatal.isNone) && s.tableAllows 2 master (s.ctrlPa off) size acc

/-- A register write as an event of a master. -/
def State.regEvent (s : State) (master off : Nat) (v : Word) : Out :=
  .next (if s.masterMay master off 8 1 then s.ctrlWrite master off v else s)

/-- R73: Writing LOAD starts the load of the descriptor named by INDEX. -/
def execTsctlLoad (index : Byte) (s : State) : Out :=
  s.regEvent 4 0x20008 (BitVec.ofNat 64 (index.toNat + 0x100))

/-- R332: A write to an access-table entry, reaching every home's copy for DRAM. -/
def execAccessTableWrite (master : BitVec 4) (t : BitVec 3) (e : BitVec 6) (part : BitVec 2) (v : Word) (s : State) : Out :=
  s.regEvent master.toNat (0x30000 + t.toNat * 0x1000 + e.toNat * 32 + part.toNat * 8) v

/-- R333: Sets ENF so that targets enforce their access tables. -/
def execAtctlEnfSet (master : BitVec 4) (s : State) : Out :=
  s.regEvent master.toNat 0x3F000 1

/-- R333: Sets HL so that only the host may write the tables, ATCTL and PCAP. -/
def execAtctlHlSet (master : BitVec 4) (s : State) : Out :=
  s.regEvent master.toNat 0x3F000 2

/-- R327: Host sets CONSENT, opening the storage write gate. -/
def execSwgateConsent (master : BitVec 4) (s : State) : Out :=
  s.regEvent master.toNat 0x40008 1

/-- R327: Host clears CONSENT, closing the storage write gate. -/
def execSwgateClear (master : BitVec 4) (s : State) : Out :=
  s.regEvent master.toNat 0x40008 2

/-- R338: The COOL command moves the Molt from WARM_SERVICE toward cooling. -/
def execMcmdCool (s : State) : Out :=
  s.regEvent 4 0x1010 1

/-- R338: The WARM command moves the Molt to WARMING where allowed. -/
def execMcmdWarm (s : State) : Out :=
  s.regEvent 4 0x1010 2

/-- R322: Resumes a halted thread named by core and slot. -/
def execDbgresResume (v : Word) (s : State) : Out :=
  s.regEvent 7 0x50200 v

/-- R334: A write to PCAP or SORL is clamped to the hardware limit and takes effect at once. -/
def execHwLimitWrite (master : BitVec 4) (off : BitVec 32) (v : Word) (s : State) : Out :=
  if off = 0x60000 ∨ (0x60100 ≤ off.toNat ∧ off.toNat < 0x60180 ∧ off.toNat % 8 = 0) then s.regEvent master.toNat off.toNat v
  else .next s

/-- R313: Writes a home's race trace ring control, emptying the ring when EN rises. -/
def execHrtcWrite (h : Byte) (v : Word) (s : State) : Out :=
  s.regEvent 4 (0x10000000 + h.toNat * 0x1000) v

/-- R312: Any other control-window register write, checked for size, alignment and access table. -/
def execControlRegisterWrite (master : BitVec 4) (off : BitVec 32) (size : Nat) (v : Word) (s : State) : Out :=
  if size = 8 ∧ off.toNat % 8 = 0 ∧ ctrlListed off.toNat = true ∧ portRange off.toNat = false then
    s.regEvent master.toNat off.toNat v
  else .next s

end Sys2Proof.Machine
end

