-- ==== Sys2Proof/Machine/Target.lean ====
section
/-!
DEFINITION. What a target outside a core does with an access that reaches it: what it refuses (R95, R104, R329, R333, R353, R415, R432),
the bytes it gives and the bytes it takes (R96, R99, R110, R126, R312, R406).
-/

namespace Sys2Proof.Machine

open Sys2Proof

/-! ## Refusals -/


/-- Why the target refuses an access that its map admits, if it does (R415). A peer decodes by the same map; the access tables of
another package are its own (log entry 14). -/
def State.targetRefuses (s : State) (master pa size acc : Nat) (t : Target) : Option Nat :=
  if t = .router then some 1
  else if !s.tableAllows (tableOf t) master pa size acc then some 4
  else
    match t with
    | .window m => if acc ≠ 0 ∧ acc ≠ 3 ∧ (s.core m).inClaim (pa % 0x80000) size = true then some 6 else none
    | .host => if s.ulisil.up then none else some 5
    | .peer d =>
      if !s.reachable d then some 5
      else
        match s.decodeIn (pa % 2 ^ 40) size acc with
        | .error why => some why
        | .ok _ => none
    | _ => none

/-- Why a piece that core n sends is refused, at the core or at the target; the own window is served at the own port (R96, R417). -/
def State.pieceRefused (s : State) (n master pa size acc : Nat) : Option Nat :=
  match s.decodePa pa size acc with
  | .error why => some why
  | .ok t =>
    if t = .window n then (if acc ≠ 0 ∧ (s.core n).inClaim (pa % 0x80000) size = true then some 6 else none)
    else s.targetRefuses master pa size acc t

/-! ## Bytes -/

/-- Bytes with the poison of the granules that they lie in; `a` is the address that counts granules. -/
def marked (bad : List Nat) (a : Nat) (bs : List Byte) : List (Byte × Bool) :=
  if bad.isEmpty then bs.map (fun b => (b, false)) else (bs.zipIdx a).map (fun x => (x.1, bad.contains (x.2 / 8)))

/-- The offset of a physical address in the control window. -/
def ctrlOff (pa : Nat) : Nat := pa % 2 ^ 40 - 0xA000000000

/-- A read of one piece at a target: its bytes, each with its poison. Bytes of the storage window are free values (log entry 2). -/
def State.portRead (s : State) (t : Target) (pa n kind : Nat) (w : Source) : List (Byte × Bool) × State :=
  match t with
  | .dram => let (bs, _, s') := s.dramRead pa n kind w; (marked s.dramBad (s.dramKey pa) bs, s')
  | .window m =>
    let a := pa % 0x80000
    (marked (s.core m).lsBad a (s.lsSeen m a n), ((s.logPort m a n kind w).touch m).bump)
  | .control => let (v, s') := s.ctrlRead (ctrlOff pa); ((leBytes n v.toNat).map (fun b => (b, false)), s')
  | .storage => ((List.range n).map (fun j => (Config.freeByte s.tick j, false)), s.bump)
  | .host => ((memRead (s.hostAddr pa) n s.hostMem).map (fun b => (b, false)), s)
  | .peer _ => (marked s.dramBad (s.dramKey pa) (s.dramPeek pa n), s)
  | .router => ([], s)

/-- A write of one piece at a target, with the poison of its bytes; a command that firmware hands to a controller is answered with a
free completion (log entry 2). -/
def State.portWrite (s : State) (t : Target) (master pa : Nat) (bs : List (Option Byte)) (bad : List Nat) (kind : Nat) (w : Source) :
    PortAnswer :=
  match t with
  | .dram => .done (s.dramWrite pa bs bad kind w)
  | .window m =>
    let a := pa % 0x80000
    let s := (s.lsStore m a (bs.map (fun b => b.getD 0)) kind w).touch m
    .done (if bad.isEmpty then s else s.setCore m { s.core m with lsBad := addBad (s.core m).lsBad (bad.map (fun g => a / 8 + g)) })
  | .control =>
    s.bump.ctrlStore master (ctrlOff pa) (bs.map (fun b => b.getD 0)) ((Config.freeVec s.tick 0).extractLsb' 0 128)
  | .storage => .done s
  | .host => .done { s with hostMem := memWriteMasked (s.hostAddr pa) bs s.hostMem }
  | .peer _ =>
    let k := s.dramKey pa
    .done { s with dram := memWriteMasked k bs s.dram, dramBad := addBad (clearMasked s.dramBad k bs) (bad.map (fun g => k / 8 + g)) }
  | .router => .refuse

/-- The port that orders a thread's accesses: a home, a window, the host; others order nothing (R123). -/
def portKey (pa : Nat) : Option Nat :=
  match regionOf (pa % 2 ^ 40) with
  | some 0 => some (pa / 2 ^ 40 * 256 + homeOf (pa % 2 ^ 40))
  | some r => if r ≤ 4096 then some (2 ^ 20 + pa / 2 ^ 19) else if r = 5002 then some (2 ^ 50) else none
  | none => none

/-- The granules, counted from that of the first byte, that bytes with poison leave poisoned. -/
def badGranules (a : Nat) (bs : List (Byte × Bool)) : List Nat :=
  if bs.any (fun b => b.2) then
    (((bs.zipIdx a).filter (fun x => x.1.2)).map (fun x => x.2 / 8 - a / 8)).eraseDups
  else []

end Sys2Proof.Machine
end

