-- ==== Sys2Proof/Machine/Engine.lean ====
section
/-!
DEFINITION. The engine queues (R131, R132, R158, R162, R250 to R252, R369, R408, R416, R419, R420): submitting an operation, which
operations may begin and be performed, faulted operations, and the end of an operation.
-/

namespace Sys2Proof.Machine

open Sys2Proof

/-! ## Submission -/

/-- An operation of the issuing thread, without its operands. -/
def State.mkOp (s : State) (k : Issue) (queue : Nat) : EngOp :=
  let t := s.th
  { id := 0, queue := queue, slot := s.cur.2, gen := t.gen.toNat, pc := t.pc, word := k.code.bits, lnch := t.task.lnch
    fl := t.recFlags, wid := t.wid, seq := s.seqOf t.task, priv := t.priv, ra := 0, rb := 0, rd := 0, x0 := 0, x1 := 0, desc := 0, list := []
    rm := t.rnd.toNat, sr := 0, waits := [], held := false, stage := .queued, items := [], bads := [], walk := none }

/-- Register eX and its successors (R268, R270). -/
def Thread.eregAt (t : Thread) (x j : Nat) : Word := t.ereg ((x + j) % 8)

/-- The effective rounding mode of an operation's RM field (R151, R158). -/
def Thread.modeOf (t : Thread) (rm : Nat) : Nat := if rm = 7 then t.rnd.toNat else rm

/-- The counter of a queue is C for `cq`, S for `nq` and T for the others (R131). -/
def Thread.opCount (t : Thread) (queue : Nat) : Nat := if queue = 1 then t.cntC else if queue = 4 then t.cntS else t.cntT

/-- Change a queue's counter. -/
def Thread.setOpCount (t : Thread) (queue n : Nat) : Thread :=
  if queue = 1 then { t with cntC := n } else if queue = 4 then { t with cntS := n } else { t with cntT := n }

/-- The hand-back whose handler submits: ACT = 1, CODE 14 or 15 (R419). -/
def Thread.resubmits (t : Thread) : Option Due := if t.act ∧ (t.xcode = 14 ∨ t.xcode = 15) then t.hb else none

/-- What the fences of a slot make an operation wait for (R132). -/
def Core.waitsFor (c : Core) (slot queue from_ : Nat) : List Nat :=
  (c.fences.filter (fun f => decide (f.1 = slot) && bit f.2.1 queue)).flatMap (fun f =>
    f.2.2.filter (fun id => decide (from_ ≤ id) && c.opOpen id))

/-- Enter an operation ahead of the held operations of its thread in its queue (R419). -/
def enterAhead (o : EngOp) : List EngOp → List EngOp
  | [] => [o]
  | x :: t => if x.slot = o.slot ∧ x.queue = o.queue ∧ x.held then o :: x :: t else x :: enterAhead o t

/-- Everything ordered after an operation is ordered after another one too (R419). -/
def Core.takePlace (c : Core) (old new : Nat) : Core :=
  { c with fences := c.fences.map (fun f => (f.1, f.2.1, if f.2.2.contains old then f.2.2 ++ [new] else f.2.2))
           ops := c.ops.map (fun x => if x.waits.contains old then { x with waits := x.waits ++ [new] } else x) }

/-- Special registers that a submission reads pass their parity (R405, R407). -/
def State.sprsGood (s : State) (rs : List Nat) : Except Stop Unit :=
  match s.poisonedIn (rs.map RegName.spr) with
  | some r => .error r
  | none => .ok ()

/-- A submission with a dynamic rounding mode reads RND (R151, R407). -/
def State.rndGood (s : State) (rm : Nat) : Except Stop Unit := s.sprsGood (if rm = 7 then [0x014] else [])

/-- Submit an operation: it enters its queue, its counter rises, and it takes its step of SRS; a full queue or counter stalls the
slot. `s0` is the state at issue, `steps` says that the form and mode take a step (R158, R187, R250), and a `cpyc` that a handler
submits takes the private state of the hand-back instead (R419). -/
def State.submit (s0 s : State) (o : EngOp) (steps conv : Bool) : Except Stop State :=
  let c := s.co
  let t := s.th
  if 32 ≤ (c.ops.filter (fun x => decide (x.queue = o.queue))).length ∨ 1023 ≤ t.opCount o.queue then .error (.stall s0)
  else
    let (id, s) := s.fresh
    let re := t.resubmits
    let own := match re with | some d => conv && decide (d.op ≠ 0) | none => false
    if let some r := s0.poisonedIn (if steps && !own then [.spr 0x016] else []) then .error r
    else
    let t := if steps && !own then { t with srs := xorshift t.srs } else t
    let o := { o with id := id, sr := if !steps then 0 else if own then loadSrs ((re.map (fun (d : Due) => d.sr)).getD 0) else loadSrs t.srs }
    let t := t.setOpCount o.queue (t.opCount o.queue + 1)
    match re with
    | none =>
      let held := t.due.any (fun d => decide (d.queue = some o.queue))
      let o := { o with waits := c.waitsFor o.slot o.queue 0, held := held }
      let c := { c with ops := c.ops ++ [o] }
      .ok (s.setCo (c.setThread s.cur.2 t))
    | some d =>
      let o := { o with waits := c.waitsFor o.slot o.queue d.mark }
      let c := if d.op = 0 then c else c.takePlace d.op id
      let c := { c with ops := enterAhead o c.ops }
      .ok (s.setCo (c.setThread s.cur.2 { t with hb := some { d with resub := d.resub || decide (d.queue = some o.queue) } }))

/-! ## Order of performing (R131, R132, R419) -/

/-- The operation is held: behind a hand-back of its thread, or by a fence. -/
def Core.opBlocked (c : Core) (o : EngOp) : Bool :=
  let t := c.thread o.slot
  let open_ := match t.hb with
    | some d => d.resub && decide (d.queue = some o.queue) && !t.due.any (fun x => decide (x.queue = some o.queue))
    | none => false
  (o.held && !open_) || o.waits.any c.opOpen

/-- The operations of a queue, in its order. -/
def Core.queueOps (c : Core) (queue : Nat) : List EngOp := c.ops.filter (fun o => decide (o.queue = queue))

/-- Operation k of a queue. -/
def Core.opAt (c : Core) (queue k : Nat) : Option EngOp := (c.queueOps queue)[k]?

/-- No operation that comes before this one in the order of performing is left in its queue. -/
def Core.opFirst (c : Core) (o : EngOp) : Bool :=
  ((c.queueOps o.queue).takeWhile (fun x => decide (x.id ≠ o.id))).all (fun x => c.opBlocked x && decide (x.slot ≠ o.slot))

/-- An operation may begin: it is queued and nothing holds it; on a core that is being pre-empted only one that has taken values already,
or whose thread is failing (R66, R131, R132, R376, R419). -/
def Core.mayBegin (c : Core) (o : EngOp) : Bool :=
  decide (o.stage = .queued) && !c.opBlocked o
    && (!c.pre || !o.got.isEmpty || (match (c.thread o.slot).run with | .failing _ => true | _ => false))

/-- Replace an operation. -/
def Core.setOp (c : Core) (o : EngOp) : Core := { c with ops := c.ops.map (fun x => if x.id = o.id then o else x) }

/-- An operation changes its stage. -/
def State.opStage (s : State) (n : Nat) (o : EngOp) (g : OpStage) : State := s.setCore n ((s.core n).setOp { o with stage := g })

/-! ## Records of operations -/

/-- A record that names an operation's submitter (R367, R368). -/
def State.opRec (s : State) (n : Nat) (o : EngOp) (kind cause : Nat) (v1 v2 : Word) : ErrRec :=
  { kind := kind, cause := cause, lnch := o.lnch, fl := o.fl, core := (s.core n).lcore, slot := o.slot, gen := o.gen, pc := o.pc
    val1 := v1, val2 := v2, wid := o.wid, seq := o.seq, cyc := (s.core n).cyc }

/-- The number that the next record of a cluster will have (R369). -/
def State.nextRecord (s : State) (k : Nat) : Nat := (s.cluster k).errTail + (s.cluster k).errQ.length

/-- The engine-operand fault (R251): a kind 5 record, and the operation is performed as a no-op once it is written (R369). -/
def State.opFault (s : State) (n : Nat) (o : EngOp) : State :=
  let k := clusterOf n
  let v1 := BitVec.ofNat 64 ((o.word.extractLsb' 27 5).toNat + (o.word.extractLsb' 2 5).toNat * 2 ^ 8)
  let num := s.nextRecord k
  let s := s.record k (s.opRec n o 5 o.queue v1 o.x0)
  s.setCore n ((s.core n).setOp { o with stage := .record, list := [num] })

/-- The record that a faulted operation waits for is written. -/
def State.faultWritten (s : State) (n : Nat) (o : EngOp) : Bool :=
  o.list.all (fun num => decide (num < (s.cluster (clusterOf n)).errTail))

/-- An engine read poison: one kind 18 record for the operation (R408). -/
def State.poisonRecord (s : State) (n : Nat) (o : EngOp) (p : Option (Nat × Nat)) : State :=
  match p with
  | none => s
  | some (inp, out) => s.record (clusterOf n) (s.opRec n o 18 o.queue (BitVec.ofNat 64 inp) (BitVec.ofNat 64 out))

/-! ## The end of an operation -/

/-- The submitting thread still holds the operation's generation. -/
def State.opLive (s : State) (n : Nat) (o : EngOp) : Bool := decide ((s.thread n o.slot).gen.toNat = o.gen)

/-- The operation counts as performed: it leaves its queue, its counter falls, and its flags reach FLG and the cluster (R131, R162).
Those of a thread that has parked reach the slot that it left, until that takes a task (log entry 37). -/
def State.opDone (s : State) (n : Nat) (o : EngOp) (f : BitVec 6) : State :=
  let c := s.core n
  let s := s.setCore n { c with ops := c.ops.filter (fun x => decide (x.id ≠ o.id)) }
  if s.opLive n o then
    let t := s.thread n o.slot
    (s.setThread n o.slot (t.setOpCount o.queue (t.opCount o.queue - 1))).raise n o.slot f
  else s.stick (clusterOf n) f

/-! ## What an operation does before its turn (R130, R131; log entry 32) -/

/-- A source piece that was read already. -/
def EngOp.early (o : EngOp) (off delta : Nat) : Option (List (Byte × Bool)) :=
  (o.got.find? (fun p => decide (p.1 = off ∧ p.2.1 = delta))).map (fun p => p.2.2)

/-- A core as an operation finds its local store: what it has read already stands as it was read. -/
def EngOp.view (o : EngOp) (c : Core) : Core :=
  o.got.foldl (fun c p =>
    { c with ls := memWrite p.2.1 (p.2.2.map (·.1)) c.ls
             lsBad := addBad (c.lsBad.filter (fun g => !(granules p.2.1 p.2.2.length).contains g))
               ((badGranules p.2.1 p.2.2).map (fun g => p.2.1 / 8 + g)) }) c

/-- The operation may take values: it has begun, or may begin now (R131, R132, R419). -/
def Core.mayRead (c : Core) (o : EngOp) : Bool :=
  match o.stage with
  | .queued => c.mayBegin o
  | .begun => true
  | _ => false

/-- The master of an operation's accesses (R331). -/
def EngOp.master (o : EngOp) : Nat := masterOf o.priv

/-! ## Hand-back (R416 to R420) -/

/-- The record's operands of a remainder (R416, R418). -/
structure Remainder where
  kind : Nat
  ha : Word
  hb : Word
  hd : Word
  hx0 : Word
  hx1 : Word
  done : Nat
  deriving DecidableEq, Repr

/-- The address of a thread's hand-back record (R416). -/
def State.handbackAt (s : State) (n slot : Nat) : Nat :=
  s.scarab.pidx * 2 ^ 40 + 0x7735640000 + 0x400 * (s.core n).lcore + 64 * slot

/-- The 64 bytes of a record (R416). -/
def recordBytes (word : BitVec 32) (queue : Nat) (pc : Word) (r : Remainder) : List Byte :=
  leBytes 4 word.toNat ++ leBytes 1 r.kind ++ leBytes 1 queue ++ leBytes 2 0 ++ leBytes 8 pc.toNat ++ leBytes 8 r.ha.toNat
    ++ leBytes 8 r.hb.toNat ++ leBytes 8 r.hd.toNat ++ leBytes 8 r.hx0.toNat ++ leBytes 8 r.hx1.toNat ++ leBytes 4 r.done
    ++ leBytes 4 0

/-- A trap becomes due in a thread, and in its partner with the same values (R419, R420). -/
def State.makeDue (s : State) (n slot : Nat) (d : Due) : State :=
  let push (s : State) (i : Nat) : State := s.setThread n i { s.thread n i with due := (s.thread n i).due ++ [d] }
  match (s.thread n slot).pair with
  | 1 => push (push s slot) (slot + 8)
  | _ => push s slot

/-- A hand-back of the thread is due or being serviced; another waits (R420). -/
def Thread.handingBack (t : Thread) : Bool := t.hb.isSome || !t.due.isEmpty

/-- Hand an operation back: its flags, its counter, the record, and then the trap (R419); later operations of the thread in the
queue are held. A failing thread's remainder is discarded (R420). -/
def State.handBack (s : State) (n : Nat) (o : EngOp) (f : BitVec 6) (r : Remainder) (code : Nat) (val : Word) : State :=
  let s := s.opDone n o f
  let failing := match (s.thread n o.slot).run with | .failing _ => true | _ => false
  if failing || !s.opLive n o then s
  else
    let s := s.devWrite 1 (s.handbackAt n o.slot) (recordBytes o.word o.queue o.pc r)
    let c := s.core n
    let s := s.setCore n { c with ops := c.ops.map (fun x => if x.slot = o.slot ∧ x.queue = o.queue then { x with held := true } else x) }
    s.makeDue n o.slot { code := code, val := val, op := o.id, queue := some o.queue, resub := false, sr := r.hx1, release := none }

end Sys2Proof.Machine
end

