-- ==== Sys2Proof/Machine/FpScalar.lean ====
section
/-!
DEFINITION. Scalar floating point: majors 8, 9 and 10 (R204, R205), with the rounding field (R151), the stochastic step (R157)
and the flag trap (R161).
-/

namespace Sys2Proof.Machine

open Sys2Proof

/-- The effective mode of a rounding field: 7 names RND.MODE (R151). -/
def Thread.mode (t : Thread) (rm : BitVec 3) : Nat := if rm = 7 then t.rnd.toNat else rm.toNat

/-- SRS after an instruction in a mode that rounds n values: SR takes ceil(n / 4) steps (R157). -/
def srsAfter : Nat → Word → Word
  | 0, x => x
  | n + 1, x => srsAfter n (xorshift x)

/-- Steps that n rounded values take in a mode (R157). -/
def srSteps (mode n : Nat) : Nat := if mode = 5 then (n + 3) / 4 else 0

/-- The random number of rounded value i: bits of step i div 4, the first step before the first value (R157). -/
def srBits (x : Word) (i : Nat) : Nat := bits (srsAfter (i / 4 + 1) x).toNat (16 * (i % 4)) 16

/-- The special registers that a rounded word reads: RND where its mode is dynamic, and SRS where it draws random bits (R151, R157, R407). -/
def roundRegs (dynamic : Bool) (mode : Nat) : List RegName :=
  (if dynamic then [.spr 0x014] else []) ++ (if mode = 5 then [.spr 0x016] else [])

/-- End of an instruction that may raise flags: an enabled one traps, SRS advances in every case (R157, R161). What it raises it raises in
FLG, whose enables it reads (R407). -/
def State.flagged (s : State) (fl : BitVec 6) (srs : Word) (write : State → State) : Except Stop State :=
  if let some r := (if fl = 0 then none else s.poisonedIn [.spr 0x015]) then .error r
  else if s.th.trapsOn fl then .error (.arith fl srs)
  else .ok (write ((s.setTh { s.th with srs := srs }).raise s.cur.1 s.cur.2 fl))

/-- A float word with up to three sources and one rounding (R204, R205). -/
def fpRound (c : Code) (rm : BitVec 3) (srcs : List Nat) (d : Nat) (f : Nat → Nat → List Nat → FRes) (s : State) : Out :=
  issue { code := c, reads := srcs, writes := [d], others := roundRegs (decide (rm = 7)) (s.th.mode rm) } s fun s =>
    let mode := s.th.mode rm
    let (xs, s) := srcs.foldl (fun (acc : List Nat × State) r => let (x, s) := acc.2.readS r; (acc.1 ++ [x.toNat], s)) ([], s)
    let (v, fl) := f mode (srBits s.th.srs 0) xs
    s.flagged fl (srsAfter (srSteps mode 1) s.th.srs) (fun s => s.writeS d (BitVec.ofNat 64 v))

/-- A float word without rounding (R204). -/
def fpPlain (c : Code) (srcs : List Nat) (d : Nat) (f : List Nat → FRes) (s : State) : Out :=
  issue { code := c, reads := srcs, writes := [d] } s fun s =>
    let (xs, s) := srcs.foldl (fun (acc : List Nat × State) r => let (x, s) := acc.2.readS r; (acc.1 ++ [x.toNat], s)) ([], s)
    let (v, fl) := f xs
    s.flagged fl s.th.srs (fun s => s.writeS d (BitVec.ofNat 64 v))

/-- The low bits of a register that a format reads (R204). -/
def Fmt.low (f : Fmt) (xs : List Nat) (i : Nat) : Nat := xs.getD i 0 % 2 ^ f.size

/-- Arithmetic on two registers (R204). -/
def Fmt.op2 (f : Fmt) (op : Nat) (mode r : Nat) (xs : List Nat) : FRes := f.arith op mode r (f.low xs 0) (f.low xs 1)

/-- A fused form on three registers (R205). -/
def Fmt.op3 (f : Fmt) (negP negC : Bool) (mode r : Nat) (xs : List Nat) : FRes :=
  f.fused negP negC mode r (f.low xs 0) (f.low xs 1) (f.low xs 2)

/-- A comparison as a number with its flag. -/
def cmpRes (x : Bool × BitVec 6) : FRes := (b2n x.1, x.2)

/-- Width of an integer type code of `ftoi` and `itof` (R204). -/
def tyWidth (t : BitVec 3) : Nat :=
  match t.toNat % 4 with
  | 0 => 64
  | 1 => 32
  | 2 => 16
  | _ => 8

/-- Signedness of an integer type code: 0 to 3 are signed (R204). -/
def tySigned (t : BitVec 3) : Bool := decide (t.toNat < 4)

/-- Float to integer, extended to 64 bits as the type is signed (R204). -/
def Fmt.toReg (f : Fmt) (t : BitVec 3) (mode r : Nat) (xs : List Nat) : FRes :=
  let (v, fl) := f.toInt mode r (tyWidth t) (tySigned t) (f.low xs 0)
  (if tySigned t then (extS (tyWidth t) v).toNat else v, fl)

/-- Integer to float (R204). -/
def Fmt.ofReg (f : Fmt) (t : BitVec 3) (mode r : Nat) (xs : List Nat) : FRes :=
  let x := xs.getD 0 0
  f.ofInt mode r (if tySigned t then sgn (tyWidth t) x else ((x % 2 ^ tyWidth t : Nat) : Int))

/-- R204: Scalar floating-point addition. -/
def execFadd (r : BitVec 3) (b : BitVec 5) (a : BitVec 5) (f : BitVec 2) (d : BitVec 5) (s : State) : Out :=
  fpRound (.long (0#5 ++ r ++ b ++ a ++ f ++ d ++ 35#7)) r [a.toNat, b.toNat] d.toNat ((ftFmt f).op2 0) s

/-- R204: Scalar floating-point subtraction. -/
def execFsub (r : BitVec 3) (b : BitVec 5) (a : BitVec 5) (f : BitVec 2) (d : BitVec 5) (s : State) : Out :=
  fpRound (.long (1#5 ++ r ++ b ++ a ++ f ++ d ++ 35#7)) r [a.toNat, b.toNat] d.toNat ((ftFmt f).op2 1) s

/-- R204: Scalar floating-point multiplication. -/
def execFmul (r : BitVec 3) (b : BitVec 5) (a : BitVec 5) (f : BitVec 2) (d : BitVec 5) (s : State) : Out :=
  fpRound (.long (2#5 ++ r ++ b ++ a ++ f ++ d ++ 35#7)) r [a.toNat, b.toNat] d.toNat ((ftFmt f).op2 2) s

/-- R204: Scalar floating-point division. -/
def execFdiv (r : BitVec 3) (b : BitVec 5) (a : BitVec 5) (f : BitVec 2) (d : BitVec 5) (s : State) : Out :=
  fpRound (.long (3#5 ++ r ++ b ++ a ++ f ++ d ++ 35#7)) r [a.toNat, b.toNat] d.toNat ((ftFmt f).op2 3) s

/-- R204: Scalar floating-point square root. -/
def execFsqrt (r : BitVec 3) (a : BitVec 5) (f : BitVec 2) (d : BitVec 5) (s : State) : Out :=
  fpRound (.long (4#5 ++ r ++ 0#5 ++ a ++ f ++ d ++ 35#7)) r [a.toNat] d.toNat (fun mode q xs => (ftFmt f).sqrtV mode q ((ftFmt
    f).read ((ftFmt f).low xs 0))) s

/-- R204: Floating-point minimum without rounding. -/
def execFmin (b : BitVec 5) (a : BitVec 5) (f : BitVec 2) (d : BitVec 5) (s : State) : Out :=
  fpPlain (.long (40#8 ++ b ++ a ++ f ++ d ++ 35#7)) [a.toNat, b.toNat] d.toNat (fun xs => (ftFmt f).minmax false ((ftFmt
    f).low xs 0) ((ftFmt f).low xs 1)) s

/-- R204: Floating-point maximum without rounding. -/
def execFmax (b : BitVec 5) (a : BitVec 5) (f : BitVec 2) (d : BitVec 5) (s : State) : Out :=
  fpPlain (.long (48#8 ++ b ++ a ++ f ++ d ++ 35#7)) [a.toNat, b.toNat] d.toNat (fun xs => (ftFmt f).minmax true ((ftFmt f).low
    xs 0) ((ftFmt f).low xs 1)) s

/-- R204: Magnitude of a with the sign of b. -/
def execFsgnj (b : BitVec 5) (a : BitVec 5) (f : BitVec 2) (d : BitVec 5) (s : State) : Out :=
  fpPlain (.long (56#8 ++ b ++ a ++ f ++ d ++ 35#7)) [a.toNat, b.toNat] d.toNat (fun xs => ((ftFmt f).withSign ((ftFmt f).sign
    (xs.getD 1 0)) ((ftFmt f).low xs 0), 0)) s

/-- R204: Magnitude of a with the inverted sign of b. -/
def execFsgnjn (b : BitVec 5) (a : BitVec 5) (f : BitVec 2) (d : BitVec 5) (s : State) : Out :=
  fpPlain (.long (64#8 ++ b ++ a ++ f ++ d ++ 35#7)) [a.toNat, b.toNat] d.toNat (fun xs => ((ftFmt f).withSign (!(ftFmt f).sign
    (xs.getD 1 0)) ((ftFmt f).low xs 0), 0)) s

/-- R204: Magnitude of a with the XOR of both signs. -/
def execFsgnjx (b : BitVec 5) (a : BitVec 5) (f : BitVec 2) (d : BitVec 5) (s : State) : Out :=
  fpPlain (.long (72#8 ++ b ++ a ++ f ++ d ++ 35#7)) [a.toNat, b.toNat] d.toNat (fun xs => ((ftFmt f).withSign (xor ((ftFmt
    f).sign (xs.getD 0 0)) ((ftFmt f).sign (xs.getD 1 0))) ((ftFmt f).low xs 0), 0)) s

/-- R204: Floating-point equality compare. -/
def execFeq (b : BitVec 5) (a : BitVec 5) (f : BitVec 2) (d : BitVec 5) (s : State) : Out :=
  fpPlain (.long (80#8 ++ b ++ a ++ f ++ d ++ 35#7)) [a.toNat, b.toNat] d.toNat (fun xs => cmpRes ((ftFmt f).feq ((ftFmt f).low
    xs 0) ((ftFmt f).low xs 1))) s

/-- R204: Floating-point less-than compare. -/
def execFlt (b : BitVec 5) (a : BitVec 5) (f : BitVec 2) (d : BitVec 5) (s : State) : Out :=
  fpPlain (.long (88#8 ++ b ++ a ++ f ++ d ++ 35#7)) [a.toNat, b.toNat] d.toNat (fun xs => cmpRes ((ftFmt f).flt ((ftFmt f).low
    xs 0) ((ftFmt f).low xs 1))) s

/-- R204: Floating-point less-or-equal compare. -/
def execFle (b : BitVec 5) (a : BitVec 5) (f : BitVec 2) (d : BitVec 5) (s : State) : Out :=
  fpPlain (.long (96#8 ++ b ++ a ++ f ++ d ++ 35#7)) [a.toNat, b.toNat] d.toNat (fun xs => cmpRes ((ftFmt f).fle ((ftFmt f).low
    xs 0) ((ftFmt f).low xs 1))) s

/-- R204: Classifies a floating-point value into a one-hot mask. -/
def execFclass (a : BitVec 5) (f : BitVec 2) (d : BitVec 5) (s : State) : Out :=
  fpPlain (.long (3328#13 ++ a ++ f ++ d ++ 35#7)) [a.toNat] d.toNat (fun xs => ((ftFmt f).classOf ((ftFmt f).low xs 0), 0)) s

/-- R204: Converts float to an integer type with saturation. -/
def execFtoi (r : BitVec 3) (t : BitVec 3) (a : BitVec 5) (f : BitVec 2) (d : BitVec 5) (s : State) : Out :=
  fpRound (.long (14#5 ++ r ++ 0#2 ++ t ++ a ++ f ++ d ++ 35#7)) r [a.toNat] d.toNat ((ftFmt f).toReg t) s

/-- R204: Converts an integer type to float. -/
def execItof (r : BitVec 3) (t : BitVec 3) (a : BitVec 5) (f : BitVec 2) (d : BitVec 5) (s : State) : Out :=
  fpRound (.long (15#5 ++ r ++ 0#2 ++ t ++ a ++ f ++ d ++ 35#7)) r [a.toNat] d.toNat ((ftFmt f).ofReg t) s

/-- R204: Converts between floating-point formats. -/
def execFcvt (r : BitVec 3) (g : BitVec 2) (a : BitVec 5) (f : BitVec 2) (d : BitVec 5) (s : State) : Out :=
  fpRound (.long (16#5 ++ r ++ 0#3 ++ g ++ a ++ f ++ d ++ 35#7)) r [a.toNat] d.toNat (fun mode q xs => (ftFmt f).convert (ftFmt
    g) mode q ((ftFmt f).low xs 0)) s

/-- R205: Fused a × b + c with one rounding. -/
def execFmadd (c : BitVec 5) (r : BitVec 3) (b : BitVec 5) (a : BitVec 5) (f : BitVec 1) (d : BitVec 5) (s : State) : Out :=
  fpRound (.long (c ++ r ++ b ++ a ++ f ++ 0#1 ++ d ++ 39#7)) r [a.toNat, b.toNat, c.toNat] d.toNat ((ftFmt1 f).op3 false
    false) s

/-- R205: Fused a × b − c. -/
def execFmsub (c : BitVec 5) (r : BitVec 3) (b : BitVec 5) (a : BitVec 5) (f : BitVec 1) (d : BitVec 5) (s : State) : Out :=
  fpRound (.long (c ++ r ++ b ++ a ++ f ++ 1#1 ++ d ++ 39#7)) r [a.toNat, b.toNat, c.toNat] d.toNat ((ftFmt1 f).op3 false true)
    s

/-- R205: Fused −(a × b) + c. -/
def execFnmsub (c : BitVec 5) (r : BitVec 3) (b : BitVec 5) (a : BitVec 5) (f : BitVec 1) (d : BitVec 5) (s : State) : Out :=
  fpRound (.long (c ++ r ++ b ++ a ++ f ++ 0#1 ++ d ++ 43#7)) r [a.toNat, b.toNat, c.toNat] d.toNat ((ftFmt1 f).op3 true false)
    s

/-- R205: Fused −(a × b) − c. -/
def execFnmadd (c : BitVec 5) (r : BitVec 3) (b : BitVec 5) (a : BitVec 5) (f : BitVec 1) (d : BitVec 5) (s : State) : Out :=
  fpRound (.long (c ++ r ++ b ++ a ++ f ++ 1#1 ++ d ++ 43#7)) r [a.toNat, b.toNat, c.toNat] d.toNat ((ftFmt1 f).op3 true true) s

end Sys2Proof.Machine
end

