-- ==== Sys2Proof/Machine/Vector.lean ====
section
/-!
DEFINITION. Vector instructions: majors 16, 17 and 18 (R226 to R245).
-/

namespace Sys2Proof.Machine

open Sys2Proof

/-- What an element-wise word with operand B of format VA names (R173, R226). -/
def vaIssue (c : Code) (p : BitVec 3) (a : BitVec 4) (bs : BitVec 1) (b : BitVec 5) (others dests : List RegName) : Issue :=
  { code := c, reads := if bs = 1 then [b.toNat] else []
    others := [.p p.toNat, .v a.toNat] ++ (if bs = 1 then [] else [.v b.toNat]) ++ others, dests := dests }

/-- The results of active elements, the old ones elsewhere, with the OR of the active elements' flags (R227, R228). -/
def laneResults (p : Word) (w : Nat) (old : List Nat) (f : Nat → Nat → FRes) : List Nat × BitVec 6 :=
  let rs := old.zipIdx.map (fun x => if active p w x.2 then f x.2 x.1 else (x.1, 0))
  (rs.map (·.1), rs.foldl (fun acc r => acc ||| r.2) 0)

/-- An element-wise operation on A and the elements that a second operand gives; f takes the mode, the random bits and the elements of
A, B and D (R230, R239). -/
def vecLaneOf (k : Issue) (operand : State → List Nat × State) (p : BitVec 3) (w : Nat) (a : BitVec 4) (d : BitVec 4) (rounds : Bool)
    (f : Nat → Nat → Nat → Nat → Nat → FRes) (s : State) : Out :=
  issue { k with others := k.others ++ if rounds then roundRegs true s.th.rnd.toNat else [] } s fun s =>
    let xs := elems (s.th.vreg a.toNat) w
    let (ys, s) := operand s
    let t := s.th
    let mode := t.rnd.toNat
    let (rs, fl) := laneResults (t.preg p.toNat) w (elems (t.vreg d.toNat) w)
      (fun i old => f mode (srBits t.srs i) (xs.getD i 0) (ys.getD i 0) old)
    s.flagged fl (srsAfter (if rounds then srSteps mode (64 / w) else 0) t.srs)
      (fun s => s.setTh (s.th.setVreg d.toNat (mkVec w rs)))

/-- An element-wise operation on A and B. -/
def vecLane (c : Code) (p : BitVec 3) (w : Nat) (a : BitVec 4) (bs : BitVec 1) (b : BitVec 5) (d : BitVec 4) (rounds : Bool)
    (f : Nat → Nat → Nat → Nat → Nat → FRes) (s : State) : Out :=
  vecLaneOf (vaIssue c p a bs b [] [.v d.toNat]) (fun s => s.operandB bs b w) p w a d rounds f s

/-- An element-wise operation on A alone, whose B field names no register (R230, R234, R239). -/
def vecOne (c : Code) (p : BitVec 3) (w : Nat) (a : BitVec 4) (d : BitVec 4) (rounds : Bool) (f : Nat → Nat → Nat → FRes) (s : State) :
    Out :=
  vecLaneOf { code := c, others := [.p p.toNat, .v a.toNat], dests := [.v d.toNat] } (fun s => ([], s)) p w a d rounds
    (fun mode r x _ _ => f mode r x) s

/-- Width in bytes of an integer element type 0 to 3 (R173). -/
def intW (e : BitVec 2) : Nat := 2 ^ e.toNat

/-- An integer element-wise operation (R230); f takes the width in bits and the elements. -/
def vecInt (c : Code) (p : BitVec 3) (e : BitVec 2) (a : BitVec 4) (bs : BitVec 1) (b : BitVec 5) (d : BitVec 4)
    (f : Nat → Nat → Nat → Int) (s : State) : Out :=
  vecLane c p (intW e) a bs b d false (fun _ _ x y _ => (wrapN (8 * intW e) (f (8 * intW e) x y), 0)) s

/-- The format of a floating-point type code 4 to 7 by its low two bits (R173). -/
def fltFmt (e : BitVec 2) : Fmt := etFmt (4 + e.toNat)

/-- Its width in bytes. -/
def fltW (e : BitVec 2) : Nat := (fltFmt e).size / 8

/-- A floating-point element-wise operation (R239). -/
def vecFlt (c : Code) (p : BitVec 3) (e : BitVec 2) (a : BitVec 4) (bs : BitVec 1) (b : BitVec 5) (d : BitVec 4) (rounds : Bool)
    (f : Fmt → Nat → Nat → Nat → Nat → FRes) (s : State) : Out :=
  vecLane c p (fltW e) a bs b d rounds (fun mode r x y _ => f (fltFmt e) mode r x y) s

/-- A comparison that writes a predicate; inactive elements clear their bits (R231, R239). -/
def vecCmp (c : Code) (p : BitVec 3) (w : Nat) (a : BitVec 4) (bs : BitVec 1) (b : BitVec 5) (d : BitVec 3)
    (f : Nat → Nat → Bool × BitVec 6) (s : State) : Out :=
  issue (vaIssue c p a bs b [] [.p d.toNat]) s fun s =>
    let xs := elems (s.th.vreg a.toNat) w
    let (ys, s) := s.operandB bs b w
    let pr := s.th.preg p.toNat
    let rs := (xs.zip ys).zipIdx.map (fun x => if active pr w x.2 then f x.1.1 x.1.2 else (false, 0))
    let fl := rs.foldl (fun acc r => acc ||| r.2) 0
    s.flagged fl s.th.srs (fun s => s.setTh (s.th.setPreg d.toNat (predOf w (rs.map (·.1)))))

/-- Trit k of a byte as a signed value; none for an invalid byte (R149, R234). -/
def trit (x k : Nat) : Option Int :=
  if 242 < x then none
  else some (match x / 3 ^ k % 3 with | 0 => 0 | 1 => 1 | _ => -1)

/-- The five products of one ternary byte against five signed bytes (R235). -/
def tritDot (x : Nat) (acts : List Nat) : Int × BitVec 6 :=
  if 242 < x then (0, fIC)
  else (((List.range 5).map (fun k => (trit x k).getD 0 * sgn 8 (acts.getD k 0))).sum, 0)

/-- Sum of four products of signed bytes (R233). -/
def dot4 (x y : Nat) : Int := ((List.range 4).map (fun k => sgn 8 (bits x (8 * k) 8) * sgn 8 (bits y (8 * k) 8))).sum

/-! ## Scans and reductions (R236 to R238) -/

/-- Identity of a minimum or maximum: op 1 min, 2 max (R236, R237). -/
def identityOf (e : BitVec 3) (op : Nat) (unsigned : Bool) : Nat :=
  let w := 8 * etBytes e
  if op = 0 then 0
  else if isFloatEt e then (etFmt e.toNat).infCode (decide (op = 2))
  else if unsigned then (if op = 1 then 2 ^ w - 1 else 0)
  else if op = 1 then 2 ^ (w - 1) - 1 else 2 ^ (w - 1)

/-- Combine two elements of type e (R236). -/
def combineOf (e : BitVec 3) (op : Nat) (unsigned : Bool) (mode r x y : Nat) : FRes :=
  let w := 8 * etBytes e
  if isFloatEt e then
    let f := etFmt e.toNat
    if op = 0 then f.arith 0 mode r x y else f.minmax (decide (op = 2)) x y
  else if op = 0 then ((x + y) % 2 ^ w, 0)
  else
    let lt := if unsigned then decide (x < y) else decide (sgn w x < sgn w y)
    (if op = 1 then (if lt then x else y) else (if lt then y else x), 0)

/-- A scan over the active elements (index, old element of D, element of A), ascending (R236). -/
def scanFrom (excl : Bool) (comb : Nat → Nat → Nat → FRes) : Bool → Nat → List (Nat × Nat × Bool) → List Nat × BitVec 6
  | _, _, [] => ([], 0)
  | first, v, (old, x, act) :: t =>
    if !act then
      let (rs, fl) := scanFrom excl comb first v t
      (old :: rs, fl)
    else
      let (v', f) := if first then (x, 0) else comb t.length v x
      let (rs, fl) := scanFrom excl comb false v' t
      ((if excl then v else v') :: rs, f ||| fl)

/-- One level of the pairwise tree; t counts the additions (R238). -/
def treeLevel (add : Nat → Nat → Nat → FRes) : Nat → List Nat → List Nat × BitVec 6 × Nat
  | t, x :: y :: r =>
    let (v, f) := add t x y
    let (vs, g, t') := treeLevel add (t + 1) r
    (v :: vs, f ||| g, t')
  | t, r => (r, 0, t)

/-- The pairwise tree (R238). -/
def treeSum (add : Nat → Nat → Nat → FRes) : Nat → Nat → List Nat → FRes
  | 0, _, xs => (xs.headD 0, 0)
  | k + 1, t, xs =>
    let (ys, f, t') := treeLevel add t xs
    let (v, g) := treeSum add k t' ys
    (v, f ||| g)

/-- Minimum or maximum of the active elements of a floating-point register; without a number the canonical NaN (R238; DEDUCED,
log entry 11). -/
def fltReduce (f : Fmt) (isMax : Bool) (xs : List Nat) : FRes :=
  if xs.any (fun x => decide (f.read x = .nan true)) then (f.nanCode, fNV)
  else
    match xs.filter (fun x => !anyNan [f.read x]) with
    | [] => (f.nanCode, 0)
    | x :: t => (t.foldl (fun a y => (f.minmax isMax a y).1) x, 0)

/-- An integer reduction: 0 sum, 1 min, 2 max, 3 minu, 4 maxu, 5 and, 6 or, 7 xor (R237). -/
def intReduce (w k : Nat) (xs : List Nat) : Nat :=
  match k with
  | 0 => xs.sum % 2 ^ w
  | 1 => xs.foldl (fun a y => if sgn w y < sgn w a then y else a) (2 ^ (w - 1) - 1)
  | 2 => xs.foldl (fun a y => if sgn w a < sgn w y then y else a) (2 ^ (w - 1))
  | 3 => xs.foldl min (2 ^ w - 1)
  | 4 => xs.foldl max 0
  | 5 => xs.foldl Nat.land (2 ^ w - 1)
  | 6 => xs.foldl Nat.lor 0
  | _ => xs.foldl Nat.xor 0

/-! ## Conversions (R240) -/

/-- Convert one element from type st to type dt (R153, R240). -/
def convertElem (st dt : BitVec 3) (signed : Bool) (mode r x : Nat) : FRes :=
  let ws := 8 * etBytes st
  let wd := 8 * etBytes dt
  match isFloatEt st, isFloatEt dt with
  | true, true => (etFmt st.toNat).convert (etFmt dt.toNat) mode r x
  | true, false => (etFmt st.toNat).toInt mode r wd signed x
  | false, true => (etFmt dt.toNat).ofInt mode r (if signed then sgn ws x else ((x % 2 ^ ws : Nat) : Int))
  | false, false => (wrapN wd (satInt wd signed (if signed then sgn ws x else ((x % 2 ^ ws : Nat) : Int))), 0)

/-- A conversion of chunk h (R240). -/
def vecCvt (c : Code) (p : BitVec 3) (st dt : BitVec 3) (h : Nat) (signed : Bool) (a d : BitVec 4) (s : State) : Out :=
  issue { code := c, dests := [.v d.toNat], keeps := decide (etBytes dt < etBytes st)
          others := [.p p.toNat, .v a.toNat] ++ if isFloatEt st || isFloatEt dt then roundRegs true s.th.rnd.toNat else [] } s fun s =>
    let ws := etBytes st
    let wd := etBytes dt
    let m := min (64 / ws) (64 / wd)
    let widen := decide (64 / wd < 64 / ws)
    let t := s.th
    let mode := t.rnd.toNat
    let xs := elems (t.vreg a.toNat) ws
    let lo := if widen then 0 else h * m
    let (rs, fl) := laneResults (t.preg p.toNat) wd (elems (t.vreg d.toNat) wd) (fun i old =>
      if lo ≤ i ∧ i < lo + m then
        convertElem st dt signed mode (srBits t.srs (i - lo)) (xs.getD (if widen then h * m + (i - lo) else i - lo) 0)
      else (old, 0))
    let steps := if isFloatEt st || isFloatEt dt then srSteps mode m else 0
    s.flagged fl (srsAfter steps t.srs) (fun s => s.setTh (s.th.setVreg d.toNat (mkVec wd rs)))

/-! ## Permutes and predicates (R241 to R243) -/

/-- A permutation; f gives element i from the elements of A and B (R241). -/
def vecPerm (c : Code) (p : BitVec 3) (e : BitVec 3) (a : BitVec 4) (bs : BitVec 1) (b : BitVec 5) (d : BitVec 4)
    (f : Nat → List Nat → List Nat → Nat → Nat) (s : State) : Out :=
  issue (vaIssue c p a bs b [] [.v d.toNat]) s fun s =>
    let w := etBytes e
    let xs := elems (s.th.vreg a.toNat) w
    let (ys, s) := s.operandB bs b w
    let (rs, _) := laneResults (s.th.preg p.toNat) w (elems (s.th.vreg d.toNat) w) (fun i _ => (f (64 / w) xs ys i, 0))
    .ok (s.setTh (s.th.setVreg d.toNat (mkVec w rs)))

/-- A predicate operation (R243). -/
def predOp (c : Code) (a b d : BitVec 3) (f : Word → Word → Word) (s : State) : Out :=
  issue { code := c, others := [.p a.toNat, .p b.toNat], dests := [.p d.toNat] } s fun s =>
    .ok (s.setTh (s.th.setPreg d.toNat (f (s.th.preg a.toNat) (s.th.preg b.toNat))))

/-- A fused multiply-add (R245). -/
def vecFused (c : Code) (rm p : BitVec 3) (f : BitVec 1) (a b cc d : BitVec 4) (negP negC : Bool) (s : State) : Out :=
  issue { code := c, others := [.p p.toNat, .v a.toNat, .v b.toNat, .v cc.toNat] ++ roundRegs (decide (rm = 7)) (s.th.mode rm)
          dests := [.v d.toNat] } s fun s =>
    let fm := ftFmt1 f
    let w := fm.size / 8
    let t := s.th
    let mode := t.mode rm
    let xs := elems (t.vreg a.toNat) w
    let ys := elems (t.vreg b.toNat) w
    let zs := elems (t.vreg cc.toNat) w
    let (rs, fl) := laneResults (t.preg p.toNat) w (elems (t.vreg d.toNat) w)
      (fun i _ => fm.fused negP negC mode (srBits t.srs i) (xs.getD i 0) (ys.getD i 0) (zs.getD i 0))
    s.flagged fl (srsAfter (srSteps mode (64 / w)) t.srs) (fun s => s.setTh (s.th.setVreg d.toNat (mkVec w rs)))

/-- R230: Element-wise integer addition. -/
def execVadd (p : BitVec 3) (e : BitVec 2) (bs : BitVec 1) (b : BitVec 5) (a : BitVec 4) (d : BitVec 4) (s : State) : Out :=
  vecInt (.long (0#5 ++ p ++ 0#1 ++ e ++ bs ++ b ++ a ++ d ++ 67#7)) p e a bs b d (fun _ x y => (x : Int) + y) s

/-- R230: Element-wise integer subtraction. -/
def execVsub (p : BitVec 3) (e : BitVec 2) (bs : BitVec 1) (b : BitVec 5) (a : BitVec 4) (d : BitVec 4) (s : State) : Out :=
  vecInt (.long (1#5 ++ p ++ 0#1 ++ e ++ bs ++ b ++ a ++ d ++ 67#7)) p e a bs b d (fun _ x y => (x : Int) - y) s

/-- R230: Element-wise integer multiplication. -/
def execVmul (p : BitVec 3) (e : BitVec 2) (bs : BitVec 1) (b : BitVec 5) (a : BitVec 4) (d : BitVec 4) (s : State) : Out :=
  vecInt (.long (2#5 ++ p ++ 0#1 ++ e ++ bs ++ b ++ a ++ d ++ 67#7)) p e a bs b d (fun _ x y => (x : Int) * y) s

/-- R230: High half of the signed element product. -/
def execVmulh (p : BitVec 3) (e : BitVec 2) (bs : BitVec 1) (b : BitVec 5) (a : BitVec 4) (d : BitVec 4) (s : State) : Out :=
  vecInt (.long (3#5 ++ p ++ 0#1 ++ e ++ bs ++ b ++ a ++ d ++ 67#7)) p e a bs b d (fun w x y => sgn w x * sgn w y / ((2 ^ w :
    Nat) : Int)) s

/-- R230: High half of the unsigned element product. -/
def execVmulhu (p : BitVec 3) (e : BitVec 2) (bs : BitVec 1) (b : BitVec 5) (a : BitVec 4) (d : BitVec 4) (s : State) : Out :=
  vecInt (.long (4#5 ++ p ++ 0#1 ++ e ++ bs ++ b ++ a ++ d ++ 67#7)) p e a bs b d (fun w x y => ((x * y / 2 ^ w : Nat) : Int)) s

/-- R230: Signed saturating element addition. -/
def execVadds (p : BitVec 3) (e : BitVec 2) (bs : BitVec 1) (b : BitVec 5) (a : BitVec 4) (d : BitVec 4) (s : State) : Out :=
  vecInt (.long (5#5 ++ p ++ 0#1 ++ e ++ bs ++ b ++ a ++ d ++ 67#7)) p e a bs b d (fun w x y => satInt w true (sgn w x + sgn w
    y)) s

/-- R230: Unsigned saturating element addition. -/
def execVaddsu (p : BitVec 3) (e : BitVec 2) (bs : BitVec 1) (b : BitVec 5) (a : BitVec 4) (d : BitVec 4) (s : State) : Out :=
  vecInt (.long (6#5 ++ p ++ 0#1 ++ e ++ bs ++ b ++ a ++ d ++ 67#7)) p e a bs b d (fun w x y => satInt w false ((x : Int) + y))
    s

/-- R230: Signed saturating element subtraction. -/
def execVsubs (p : BitVec 3) (e : BitVec 2) (bs : BitVec 1) (b : BitVec 5) (a : BitVec 4) (d : BitVec 4) (s : State) : Out :=
  vecInt (.long (7#5 ++ p ++ 0#1 ++ e ++ bs ++ b ++ a ++ d ++ 67#7)) p e a bs b d (fun w x y => satInt w true (sgn w x - sgn w
    y)) s

/-- R230: Unsigned saturating element subtraction. -/
def execVsubsu (p : BitVec 3) (e : BitVec 2) (bs : BitVec 1) (b : BitVec 5) (a : BitVec 4) (d : BitVec 4) (s : State) : Out :=
  vecInt (.long (8#5 ++ p ++ 0#1 ++ e ++ bs ++ b ++ a ++ d ++ 67#7)) p e a bs b d (fun w x y => satInt w false ((x : Int) - y))
    s

/-- R230: Signed element minimum. -/
def execVmin (p : BitVec 3) (e : BitVec 2) (bs : BitVec 1) (b : BitVec 5) (a : BitVec 4) (d : BitVec 4) (s : State) : Out :=
  vecInt (.long (9#5 ++ p ++ 0#1 ++ e ++ bs ++ b ++ a ++ d ++ 67#7)) p e a bs b d (fun w x y => min (sgn w x) (sgn w y)) s

/-- R230: Signed element maximum. -/
def execVmax (p : BitVec 3) (e : BitVec 2) (bs : BitVec 1) (b : BitVec 5) (a : BitVec 4) (d : BitVec 4) (s : State) : Out :=
  vecInt (.long (10#5 ++ p ++ 0#1 ++ e ++ bs ++ b ++ a ++ d ++ 67#7)) p e a bs b d (fun w x y => max (sgn w x) (sgn w y)) s

/-- R230: Unsigned element minimum. -/
def execVminu (p : BitVec 3) (e : BitVec 2) (bs : BitVec 1) (b : BitVec 5) (a : BitVec 4) (d : BitVec 4) (s : State) : Out :=
  vecInt (.long (11#5 ++ p ++ 0#1 ++ e ++ bs ++ b ++ a ++ d ++ 67#7)) p e a bs b d (fun _ x y => ((min x y : Nat) : Int)) s

/-- R230: Unsigned element maximum. -/
def execVmaxu (p : BitVec 3) (e : BitVec 2) (bs : BitVec 1) (b : BitVec 5) (a : BitVec 4) (d : BitVec 4) (s : State) : Out :=
  vecInt (.long (12#5 ++ p ++ 0#1 ++ e ++ bs ++ b ++ a ++ d ++ 67#7)) p e a bs b d (fun _ x y => ((max x y : Nat) : Int)) s

/-- R230: Element-wise AND. -/
def execVand (p : BitVec 3) (e : BitVec 2) (bs : BitVec 1) (b : BitVec 5) (a : BitVec 4) (d : BitVec 4) (s : State) : Out :=
  vecInt (.long (13#5 ++ p ++ 0#1 ++ e ++ bs ++ b ++ a ++ d ++ 67#7)) p e a bs b d (fun _ x y => ((Nat.land x y : Nat) : Int)) s

/-- R230: Element-wise OR. -/
def execVor (p : BitVec 3) (e : BitVec 2) (bs : BitVec 1) (b : BitVec 5) (a : BitVec 4) (d : BitVec 4) (s : State) : Out :=
  vecInt (.long (14#5 ++ p ++ 0#1 ++ e ++ bs ++ b ++ a ++ d ++ 67#7)) p e a bs b d (fun _ x y => ((Nat.lor x y : Nat) : Int)) s

/-- R230: Element-wise XOR. -/
def execVxor (p : BitVec 3) (e : BitVec 2) (bs : BitVec 1) (b : BitVec 5) (a : BitVec 4) (d : BitVec 4) (s : State) : Out :=
  vecInt (.long (15#5 ++ p ++ 0#1 ++ e ++ bs ++ b ++ a ++ d ++ 67#7)) p e a bs b d (fun _ x y => ((Nat.xor x y : Nat) : Int)) s

/-- R230: Element-wise left shift. -/
def execVshl (p : BitVec 3) (e : BitVec 2) (bs : BitVec 1) (b : BitVec 5) (a : BitVec 4) (d : BitVec 4) (s : State) : Out :=
  vecInt (.long (16#5 ++ p ++ 0#1 ++ e ++ bs ++ b ++ a ++ d ++ 67#7)) p e a bs b d (fun w x y => ((x * 2 ^ (y % w) : Nat) :
    Int)) s

/-- R230: Element-wise logical right shift. -/
def execVshr (p : BitVec 3) (e : BitVec 2) (bs : BitVec 1) (b : BitVec 5) (a : BitVec 4) (d : BitVec 4) (s : State) : Out :=
  vecInt (.long (17#5 ++ p ++ 0#1 ++ e ++ bs ++ b ++ a ++ d ++ 67#7)) p e a bs b d (fun w x y => ((x / 2 ^ (y % w) : Nat) :
    Int)) s

/-- R230: Element-wise arithmetic right shift. -/
def execVsar (p : BitVec 3) (e : BitVec 2) (bs : BitVec 1) (b : BitVec 5) (a : BitVec 4) (d : BitVec 4) (s : State) : Out :=
  vecInt (.long (18#5 ++ p ++ 0#1 ++ e ++ bs ++ b ++ a ++ d ++ 67#7)) p e a bs b d (fun w x y => sgn w x / ((2 ^ (y % w) : Nat)
    : Int)) s

/-- R230: Element-wise signed absolute value. -/
def execVabs (p : BitVec 3) (e : BitVec 2) (a : BitVec 4) (d : BitVec 4) (s : State) : Out :=
  vecOne (.long (19#5 ++ p ++ 0#1 ++ e ++ 0#6 ++ a ++ d ++ 67#7)) p (intW e) a d false
    (fun _ _ x => (wrapN (8 * intW e) ((sgn (8 * intW e) x).natAbs : Int), 0)) s

/-- R231: Element equality compare into a predicate. -/
def execVcmpeq (p : BitVec 3) (e : BitVec 2) (bs : BitVec 1) (b : BitVec 5) (a : BitVec 4) (d : BitVec 3) (s : State) : Out :=
  vecCmp (.long (20#5 ++ p ++ 0#1 ++ e ++ bs ++ b ++ a ++ 0#1 ++ d ++ 67#7)) p (intW e) a bs b d (fun x y => (decide (x = y),
    0)) s

/-- R231: Signed less-than compare into a predicate. -/
def execVcmplt (p : BitVec 3) (e : BitVec 2) (bs : BitVec 1) (b : BitVec 5) (a : BitVec 4) (d : BitVec 3) (s : State) : Out :=
  vecCmp (.long (21#5 ++ p ++ 0#1 ++ e ++ bs ++ b ++ a ++ 0#1 ++ d ++ 67#7)) p (intW e) a bs b d (fun x y => (decide (sgn (8 *
    intW e) x < sgn (8 * intW e) y), 0)) s

/-- R231: Unsigned less-than compare into a predicate. -/
def execVcmpltu (p : BitVec 3) (e : BitVec 2) (bs : BitVec 1) (b : BitVec 5) (a : BitVec 4) (d : BitVec 3) (s : State) : Out :=
  vecCmp (.long (22#5 ++ p ++ 0#1 ++ e ++ bs ++ b ++ a ++ 0#1 ++ d ++ 67#7)) p (intW e) a bs b d (fun x y => (decide (x < y),
    0)) s

/-- R231: Signed less-or-equal compare into a predicate. -/
def execVcmple (p : BitVec 3) (e : BitVec 2) (bs : BitVec 1) (b : BitVec 5) (a : BitVec 4) (d : BitVec 3) (s : State) : Out :=
  vecCmp (.long (23#5 ++ p ++ 0#1 ++ e ++ bs ++ b ++ a ++ 0#1 ++ d ++ 67#7)) p (intW e) a bs b d (fun x y => (decide (sgn (8 *
    intW e) x ≤ sgn (8 * intW e) y), 0)) s

/-- R231: Unsigned less-or-equal compare into a predicate. -/
def execVcmpleu (p : BitVec 3) (e : BitVec 2) (bs : BitVec 1) (b : BitVec 5) (a : BitVec 4) (d : BitVec 3) (s : State) : Out :=
  vecCmp (.long (24#5 ++ p ++ 0#1 ++ e ++ bs ++ b ++ a ++ 0#1 ++ d ++ 67#7)) p (intW e) a bs b d (fun x y => (decide (x ≤ y),
    0)) s

/-- R234: Decodes trit plane k of ternary bytes into signed INT8 elements. -/
def execVtunp (p : BitVec 3) (k : BitVec 3) (a : BitVec 4) (d : BitVec 4) (s : State) : Out :=
  vecOne (.long (25#5 ++ p ++ 0#6 ++ k ++ a ++ d ++ 67#7)) p 1 a d false (fun _ _ x =>
    match trit x k.toNat with | some t => (wrapN 8 t, 0) | none => (0, fIC)) s

/-- R235: Ternary-weight dot product of 20 weights per lane accumulated into INT32. -/
def execVtdot (p : BitVec 3) (b : BitVec 4) (a : BitVec 4) (d : BitVec 4) (s : State) : Out :=
  issue { code := (.long (26#5 ++ p ++ 8#5 ++ b ++ a ++ d ++ 67#7)), others := [.p p.toNat, .v a.toNat, .v b.toNat, .v d.toNat]
          dests := [.v d.toNat] } s fun s =>
    let t := s.th
    let xs := elems (t.vreg a.toNat) 1
    let ys := elems (t.vreg b.toNat) 1
    let (rs, fl) := laneResults (t.preg p.toNat) 4 (elems (t.vreg d.toNat) 4) (fun j old =>
      let parts := (List.range 4).map (fun q => tritDot (xs.getD (4 * j + q) 0) ((ys.drop (5 * q)).take 5))
      (wrapN 32 ((old : Int) + (parts.map (·.1)).sum), parts.foldl (fun acc r => acc ||| r.2) 0))
    s.flagged fl t.srs (fun s => s.setTh (s.th.setVreg d.toNat (mkVec 4 rs)))

/-- R236: Inclusive or exclusive prefix sum, min or max over active elements. -/
def execVscan (p : BitVec 3) (e : BitVec 3) (x : BitVec 1) (u : BitVec 1) (o : BitVec 2) (a : BitVec 4) (d : BitVec 4) (s :
  State) : Out :=
  issue { code := (.long (27#5 ++ p ++ e ++ 0#2 ++ x ++ u ++ o ++ a ++ d ++ 67#7)), dests := [.v d.toNat]
          others := [.p p.toNat, .v a.toNat] ++ if isFloatEt e && decide (o = 0) then roundRegs true s.th.rnd.toNat else [] } s fun s =>
    let w := etBytes e
    let n := 64 / w
    let t := s.th
    let mode := t.rnd.toNat
    let pr := t.preg p.toNat
    let rows := ((elems (t.vreg d.toNat) w).zip (elems (t.vreg a.toNat) w)).zipIdx.map
      (fun x => (x.1.1, x.1.2, active pr w x.2))
    let (rs, fl) := scanFrom (decide (x = 1))
      (fun left v y => combineOf e o.toNat (decide (u = 1)) mode (srBits t.srs (n - 1 - left)) v y)
      true (identityOf e o.toNat (decide (u = 1))) rows
    let steps := if isFloatEt e && decide (o = 0) then srSteps mode n else 0
    s.flagged fl (srsAfter steps t.srs) (fun s => s.setTh (s.th.setVreg d.toNat (mkVec w rs)))

/-- R237: Reduces the active elements into a scalar. -/
def execVred (p : BitVec 3) (e : BitVec 3) (k : BitVec 3) (a : BitVec 4) (d : BitVec 4) (s : State) : Out :=
  issue { code := (.long (28#5 ++ p ++ e ++ 0#3 ++ k ++ a ++ d ++ 67#7)), writes := [d.toNat]
          others := [.p p.toNat, .v a.toNat] ++ if isFloatEt e && decide (k = 0) then roundRegs true s.th.rnd.toNat else [] } s fun s =>
    let w := etBytes e
    let n := 64 / w
    let t := s.th
    let mode := t.rnd.toNat
    let f := etFmt e.toNat
    let rows := (elems (t.vreg a.toNat) w).zipIdx.map (fun x => (x.1, active (t.preg p.toNat) w x.2))
    let xs := (rows.filter (·.2)).map (·.1)
    if isFloatEt e then
      let (v, fl) := if k = 0 then
          treeSum (fun i x y => f.arith 0 mode (srBits t.srs i) x y) (Nat.log2 n) 0
            (rows.map (fun x => if x.2 then x.1 else f.code true 0))
        else fltReduce f (decide (k = 2)) xs
      s.flagged fl (srsAfter (if k = 0 then srSteps mode (n - 1) else 0) t.srs) (fun s => s.writeS d.toNat (BitVec.ofNat 64 v))
    else
      let v := intReduce (8 * w) k.toNat xs
      .ok (s.writeS d.toNat (if k.toNat ≤ 2 then extS (8 * w) v else extZ (8 * w) v))

/-- R233: Four-way signed byte dot product accumulated into 32-bit elements. -/
def execVdot4 (p : BitVec 3) (bs : BitVec 1) (b : BitVec 5) (a : BitVec 4) (d : BitVec 4) (s : State) : Out :=
  vecLaneOf (vaIssue (.long (29#5 ++ p ++ 2#3 ++ bs ++ b ++ a ++ d ++ 67#7)) p a bs b [.v d.toNat] [.v d.toNat])
    (fun s => s.operandB bs b 4) p 4 a d false (fun _ _ x y old => (wrapN 32 ((old : Int) + dot4 x y), 0)) s

/-- R232: Selects elements of A or B by the predicate. -/
def execVsel (p : BitVec 3) (e : BitVec 3) (bs : BitVec 1) (b : BitVec 5) (a : BitVec 4) (d : BitVec 4) (s : State) : Out :=
  issue { vaIssue (.long (30#5 ++ p ++ e ++ bs ++ b ++ a ++ d ++ 67#7)) p a bs b [] [.v d.toNat] with overwrites := true } s fun s =>
    let w := etBytes e
    let (ys, s) := s.operandB bs b w
    .ok (s.setTh (s.th.setVreg d.toNat (mkVec w (mergeElems (s.th.preg p.toNat) w ys (elems (s.th.vreg a.toNat) w)))))

/-- R232: Moves or broadcasts into active elements. -/
def execVmv (p : BitVec 3) (e : BitVec 3) (bs : BitVec 1) (b : BitVec 5) (d : BitVec 4) (s : State) : Out :=
  issue { code := (.long (31#5 ++ p ++ e ++ bs ++ b ++ 0#4 ++ d ++ 67#7)), reads := if bs = 1 then [b.toNat] else []
          others := .p p.toNat :: (if bs = 1 then [] else [.v b.toNat]), dests := [.v d.toNat] } s fun s =>
    let w := etBytes e
    let (ys, s) := s.operandB bs b w
    .ok (s.setTh (s.th.setVreg d.toNat (mkVec w (mergeElems (s.th.preg p.toNat) w (elems (s.th.vreg d.toNat) w) ys))))

/-- R239: Element-wise floating-point addition. -/
def execVfadd (p : BitVec 3) (e : BitVec 2) (bs : BitVec 1) (b : BitVec 5) (a : BitVec 4) (d : BitVec 4) (s : State) : Out :=
  vecFlt (.long (0#5 ++ p ++ 1#1 ++ e ++ bs ++ b ++ a ++ d ++ 71#7)) p e a bs b d true (fun f mode r x y => f.arith 0 mode r x
    y) s

/-- R239: Element-wise floating-point subtraction. -/
def execVfsub (p : BitVec 3) (e : BitVec 2) (bs : BitVec 1) (b : BitVec 5) (a : BitVec 4) (d : BitVec 4) (s : State) : Out :=
  vecFlt (.long (1#5 ++ p ++ 1#1 ++ e ++ bs ++ b ++ a ++ d ++ 71#7)) p e a bs b d true (fun f mode r x y => f.arith 1 mode r x
    y) s

/-- R239: Element-wise floating-point multiplication. -/
def execVfmul (p : BitVec 3) (e : BitVec 2) (bs : BitVec 1) (b : BitVec 5) (a : BitVec 4) (d : BitVec 4) (s : State) : Out :=
  vecFlt (.long (2#5 ++ p ++ 1#1 ++ e ++ bs ++ b ++ a ++ d ++ 71#7)) p e a bs b d true (fun f mode r x y => f.arith 2 mode r x
    y) s

/-- R239: Element-wise floating-point division. -/
def execVfdiv (p : BitVec 3) (e : BitVec 2) (bs : BitVec 1) (b : BitVec 5) (a : BitVec 4) (d : BitVec 4) (s : State) : Out :=
  vecFlt (.long (3#5 ++ p ++ 1#1 ++ e ++ bs ++ b ++ a ++ d ++ 71#7)) p e a bs b d true (fun f mode r x y => f.arith 3 mode r x
    y) s

/-- R239: Element-wise floating-point square root. -/
def execVfsqrt (p : BitVec 3) (e : BitVec 2) (a : BitVec 4) (d : BitVec 4) (s : State) : Out :=
  vecOne (.long (4#5 ++ p ++ 1#1 ++ e ++ 0#6 ++ a ++ d ++ 71#7)) p (fltW e) a d true
    (fun mode r x => (fltFmt e).sqrtV mode r ((fltFmt e).read x)) s

/-- R239: Element-wise floating-point minimum. -/
def execVfmin (p : BitVec 3) (e : BitVec 2) (bs : BitVec 1) (b : BitVec 5) (a : BitVec 4) (d : BitVec 4) (s : State) : Out :=
  vecFlt (.long (5#5 ++ p ++ 1#1 ++ e ++ bs ++ b ++ a ++ d ++ 71#7)) p e a bs b d false (fun f _ _ x y => f.minmax false x y) s

/-- R239: Element-wise floating-point maximum. -/
def execVfmax (p : BitVec 3) (e : BitVec 2) (bs : BitVec 1) (b : BitVec 5) (a : BitVec 4) (d : BitVec 4) (s : State) : Out :=
  vecFlt (.long (6#5 ++ p ++ 1#1 ++ e ++ bs ++ b ++ a ++ d ++ 71#7)) p e a bs b d false (fun f _ _ x y => f.minmax true x y) s

/-- R239: Element-wise sign injection. -/
def execVfsgnj (p : BitVec 3) (e : BitVec 2) (bs : BitVec 1) (b : BitVec 5) (a : BitVec 4) (d : BitVec 4) (s : State) : Out :=
  vecFlt (.long (7#5 ++ p ++ 1#1 ++ e ++ bs ++ b ++ a ++ d ++ 71#7)) p e a bs b d false (fun f _ _ x y => (f.withSign (f.sign
    y) x, 0)) s

/-- R239: Element-wise negated sign injection. -/
def execVfsgnjn (p : BitVec 3) (e : BitVec 2) (bs : BitVec 1) (b : BitVec 5) (a : BitVec 4) (d : BitVec 4) (s : State) : Out :=
  vecFlt (.long (8#5 ++ p ++ 1#1 ++ e ++ bs ++ b ++ a ++ d ++ 71#7)) p e a bs b d false (fun f _ _ x y => (f.withSign (!f.sign
    y) x, 0)) s

/-- R239: Element-wise XOR sign injection. -/
def execVfsgnjx (p : BitVec 3) (e : BitVec 2) (bs : BitVec 1) (b : BitVec 5) (a : BitVec 4) (d : BitVec 4) (s : State) : Out :=
  vecFlt (.long (9#5 ++ p ++ 1#1 ++ e ++ bs ++ b ++ a ++ d ++ 71#7)) p e a bs b d false (fun f _ _ x y => (f.withSign (xor
    (f.sign x) (f.sign y)) x, 0)) s

/-- R239: Floating-point equality compare into a predicate. -/
def execVfcmpeq (p : BitVec 3) (e : BitVec 2) (bs : BitVec 1) (b : BitVec 5) (a : BitVec 4) (d : BitVec 3) (s : State) : Out :=
  vecCmp (.long (10#5 ++ p ++ 1#1 ++ e ++ bs ++ b ++ a ++ 0#1 ++ d ++ 71#7)) p (fltW e) a bs b d (fltFmt e).feq s

/-- R239: Floating-point less-than compare into a predicate. -/
def execVfcmplt (p : BitVec 3) (e : BitVec 2) (bs : BitVec 1) (b : BitVec 5) (a : BitVec 4) (d : BitVec 3) (s : State) : Out :=
  vecCmp (.long (11#5 ++ p ++ 1#1 ++ e ++ bs ++ b ++ a ++ 0#1 ++ d ++ 71#7)) p (fltW e) a bs b d (fltFmt e).flt s

/-- R239: Floating-point less-or-equal compare into a predicate. -/
def execVfcmple (p : BitVec 3) (e : BitVec 2) (bs : BitVec 1) (b : BitVec 5) (a : BitVec 4) (d : BitVec 3) (s : State) : Out :=
  vecCmp (.long (12#5 ++ p ++ 1#1 ++ e ++ bs ++ b ++ a ++ 0#1 ++ d ++ 71#7)) p (fltW e) a bs b d (fltFmt e).fle s

/-- R240: Converts one chunk between element types, integers signed. -/
def execVcvt (p : BitVec 3) (bs : BitVec 3) (c : BitVec 1) (h : BitVec 2) (t : BitVec 3) (a : BitVec 4) (d : BitVec 4) (s :
  State) : Out :=
  vecCvt (.long (13#5 ++ p ++ bs ++ c ++ h ++ t ++ a ++ d ++ 71#7)) p bs t (4 * c.toNat + h.toNat) true a d s

/-- R240: Converts one chunk between element types, integers unsigned. -/
def execVcvtu (p : BitVec 3) (bs : BitVec 3) (c : BitVec 1) (h : BitVec 2) (t : BitVec 3) (a : BitVec 4) (d : BitVec 4) (s :
  State) : Out :=
  vecCvt (.long (14#5 ++ p ++ bs ++ c ++ h ++ t ++ a ++ d ++ 71#7)) p bs t (4 * c.toNat + h.toNat) false a d s

/-- R241: Permutes elements of A by index. -/
def execVperm (p : BitVec 3) (e : BitVec 3) (bs : BitVec 1) (b : BitVec 5) (a : BitVec 4) (d : BitVec 4) (s : State) : Out :=
  vecPerm (.long (16#5 ++ p ++ e ++ bs ++ b ++ a ++ d ++ 71#7)) p e a bs b d (fun n xs ys i => if ys.getD i 0 < n then xs.getD
    (ys.getD i 0) 0 else 0) s

/-- R241: Slides elements of A by a scalar offset. -/
def execVslide (p : BitVec 3) (e : BitVec 3) (b : BitVec 5) (a : BitVec 4) (d : BitVec 4) (s : State) : Out :=
  issue (vaIssue (.long (17#5 ++ p ++ e ++ 1#1 ++ b ++ a ++ d ++ 71#7)) p a 1 b [] [.v d.toNat]) s fun s =>
    let w := etBytes e
    let xs := elems (s.th.vreg a.toNat) w
    let (k, s) := s.readS b.toNat
    let (rs, _) := laneResults (s.th.preg p.toNat) w (elems (s.th.vreg d.toNat) w) (fun i _ =>
      let j := (i : Int) + k.toInt
      (if 0 ≤ j then xs.getD j.toNat 0 else 0, 0))
    .ok (s.setTh (s.th.setVreg d.toNat (mkVec w rs)))

/-- R241: Interleaves the low halves of A and B. -/
def execVzipLo (p : BitVec 3) (e : BitVec 3) (b : BitVec 4) (a : BitVec 4) (d : BitVec 4) (s : State) : Out :=
  vecPerm (.long (18#5 ++ p ++ e ++ 0#2 ++ b ++ a ++ d ++ 71#7)) p e a 0 (0#1 ++ b) d (fun _ xs ys i => (if i % 2 = 0 then xs
    else ys).getD (i / 2) 0) s

/-- R241: Interleaves the high halves of A and B. -/
def execVzipHi (p : BitVec 3) (e : BitVec 3) (b : BitVec 4) (a : BitVec 4) (d : BitVec 4) (s : State) : Out :=
  vecPerm (.long (19#5 ++ p ++ e ++ 0#2 ++ b ++ a ++ d ++ 71#7)) p e a 0 (0#1 ++ b) d (fun n xs ys i => (if i % 2 = 0 then xs
    else ys).getD (n / 2 + i / 2) 0) s

/-- R241: Takes the even elements of A then B. -/
def execVunzipEv (p : BitVec 3) (e : BitVec 3) (b : BitVec 4) (a : BitVec 4) (d : BitVec 4) (s : State) : Out :=
  vecPerm (.long (20#5 ++ p ++ e ++ 0#2 ++ b ++ a ++ d ++ 71#7)) p e a 0 (0#1 ++ b) d (fun _ xs ys i => (xs ++ ys).getD (2 * i)
    0) s

/-- R241: Takes the odd elements of A then B. -/
def execVunzipOd (p : BitVec 3) (e : BitVec 3) (b : BitVec 4) (a : BitVec 4) (d : BitVec 4) (s : State) : Out :=
  vecPerm (.long (21#5 ++ p ++ e ++ 0#2 ++ b ++ a ++ d ++ 71#7)) p e a 0 (0#1 ++ b) d (fun _ xs ys i => (xs ++ ys).getD (2 * i
    + 1) 0) s

/-- R242: Packs selected elements of A to the bottom of D. -/
def execVcompress (p : BitVec 3) (e : BitVec 3) (a : BitVec 4) (d : BitVec 4) (s : State) : Out :=
  issue { code := (.long (22#5 ++ p ++ e ++ 0#6 ++ a ++ d ++ 71#7)), others := [.p p.toNat, .v a.toNat], dests := [.v d.toNat]
          overwrites := true } s fun s =>
    let w := etBytes e
    let xs := ((elems (s.th.vreg a.toNat) w).zipIdx.filter (fun x => active (s.th.preg p.toNat) w x.2)).map (·.1)
    .ok (s.setTh (s.th.setVreg d.toNat (mkVec w xs)))

/-- R242: Extracts one element into a scalar. -/
def execVext (e : BitVec 3) (b : BitVec 5) (a : BitVec 4) (d : BitVec 4) (s : State) : Out :=
  issue { code := (.long (184#8 ++ e ++ 1#1 ++ b ++ a ++ d ++ 71#7)), reads := [b.toNat], writes := [d.toNat], others := [.v
    a.toNat] } s fun s =>
    let w := etBytes e
    let (k, s) := s.readS b.toNat
    let x := elem (s.th.vreg a.toNat) w (k.toNat % (64 / w))
    .ok (s.writeS d.toNat (if isFloatEt e then extZ (8 * w) x else extS (8 * w) x))

/-- R243: Predicate AND. -/
def execPand (b : BitVec 3) (a : BitVec 3) (d : BitVec 3) (s : State) : Out :=
  predOp (.long (12288#14 ++ b ++ 0#1 ++ a ++ 0#1 ++ d ++ 71#7)) a b d (fun x y => x &&& y) s

/-- R243: Predicate OR. -/
def execPor (b : BitVec 3) (a : BitVec 3) (d : BitVec 3) (s : State) : Out :=
  predOp (.long (12296#14 ++ b ++ 0#1 ++ a ++ 0#1 ++ d ++ 71#7)) a b d (fun x y => x ||| y) s

/-- R243: Predicate XOR. -/
def execPxor (b : BitVec 3) (a : BitVec 3) (d : BitVec 3) (s : State) : Out :=
  predOp (.long (12304#14 ++ b ++ 0#1 ++ a ++ 0#1 ++ d ++ 71#7)) a b d (fun x y => x ^^^ y) s

/-- R243: Predicate AND-NOT. -/
def execPandn (b : BitVec 3) (a : BitVec 3) (d : BitVec 3) (s : State) : Out :=
  predOp (.long (12312#14 ++ b ++ 0#1 ++ a ++ 0#1 ++ d ++ 71#7)) a b d (fun x y => x &&& ~~~y) s

/-- R243: Predicate NOT. -/
def execPnot (a : BitVec 3) (d : BitVec 3) (s : State) : Out :=
  predOp (.long (197120#18 ++ a ++ 0#1 ++ d ++ 71#7)) a 0 d (fun x _ => ~~~x) s

/-- R243: Counts set predicate elements into a scalar. -/
def execPpop (e : BitVec 3) (a : BitVec 3) (d : BitVec 4) (s : State) : Out :=
  issue { code := (.long (200#8 ++ e ++ 0#7 ++ a ++ d ++ 71#7)), writes := [d.toNat], others := [.p a.toNat] } s fun s =>
    let w := etBytes e
    .ok (s.writeS d.toNat (BitVec.ofNat 64 (((List.range (64 / w)).filter (active (s.th.preg a.toNat) w)).length)))

/-- R243: Moves a scalar into a predicate. -/
def execPmvToPred (b : BitVec 5) (d : BitVec 3) (s : State) : Out :=
  issue { code := (.long (3329#12 ++ b ++ 0#5 ++ d ++ 71#7)), reads := [b.toNat], dests := [.p d.toNat] } s fun s =>
    let (x, s) := s.readS b.toNat
    .ok (s.setTh (s.th.setPreg d.toNat x))

/-- R243: Moves a predicate into a scalar. -/
def execPmvFromPred (a : BitVec 3) (d : BitVec 4) (s : State) : Out :=
  issue { code := (.long (221184#18 ++ a ++ d ++ 71#7)), writes := [d.toNat], others := [.p a.toNat] } s fun s =>
    .ok (s.writeS d.toNat (s.th.preg a.toNat))

/-- R243: Sets the predicate elements below a scalar count. -/
def execPwhile (e : BitVec 3) (b : BitVec 5) (d : BitVec 3) (s : State) : Out :=
  issue { code := (.long (224#8 ++ e ++ 1#1 ++ b ++ 0#5 ++ d ++ 71#7)), reads := [b.toNat], dests := [.p d.toNat] } s fun s =>
    let w := etBytes e
    let (x, s) := s.readS b.toNat
    .ok (s.setTh (s.th.setPreg d.toNat (predOf w ((List.range (64 / w)).map (fun (i : Nat) => decide ((i : Int) < x.toInt))))))

/-- R245: Vector fused a × b + c. -/
def execVfmadd (r : BitVec 3) (p : BitVec 3) (c : BitVec 4) (b : BitVec 4) (f : BitVec 1) (a : BitVec 4) (d : BitVec 4) (s :
  State) : Out :=
  vecFused (.long (r ++ p ++ c ++ b ++ 0#2 ++ f ++ a ++ d ++ 75#7)) r p f a b c d false false s

/-- R245: Vector fused a × b − c. -/
def execVfmsub (r : BitVec 3) (p : BitVec 3) (c : BitVec 4) (b : BitVec 4) (f : BitVec 1) (a : BitVec 4) (d : BitVec 4) (s :
  State) : Out :=
  vecFused (.long (r ++ p ++ c ++ b ++ 1#2 ++ f ++ a ++ d ++ 75#7)) r p f a b c d false true s

/-- R245: Vector fused −(a × b) + c. -/
def execVfnmsub (r : BitVec 3) (p : BitVec 3) (c : BitVec 4) (b : BitVec 4) (f : BitVec 1) (a : BitVec 4) (d : BitVec 4) (s :
  State) : Out :=
  vecFused (.long (r ++ p ++ c ++ b ++ 2#2 ++ f ++ a ++ d ++ 75#7)) r p f a b c d true false s

/-- R245: Vector fused −(a × b) − c. -/
def execVfnmadd (r : BitVec 3) (p : BitVec 3) (c : BitVec 4) (b : BitVec 4) (f : BitVec 1) (a : BitVec 4) (d : BitVec 4) (s :
  State) : Out :=
  vecFused (.long (r ++ p ++ c ++ b ++ 3#2 ++ f ++ a ++ d ++ 75#7)) r p f a b c d true true s

end Sys2Proof.Machine
end

