-- ==== Sys2Proof/Machine/Matrix.lean ====
section
/-!
DEFINITION. The matrix array: major 20 (R147, R148, R164 to R168, R253 to R264, R394, R395, R408 to R410). A submission checks its operands;
the operation begins and is performed in `mq` order.
-/

namespace Sys2Proof.Machine

open Sys2Proof

/-! ## Format codes (R253) -/

/-- The floating-point format of a code. -/
def codeFmt (c : Nat) : Option Fmt :=
  match c with
  | 0 => some fp64
  | 1 => some fp32
  | 2 => some fp16
  | 3 => some bf16
  | 4 => some e4m3
  | 5 => some e5m2
  | 6 => some e4m3
  | 7 => some e5m2
  | 8 => some e3m2
  | 9 => some e2m3
  | 10 => some e2m1
  | _ => none

/-- Bits of an element of a format code; ternary elements are packed by bytes and have none. -/
def codeBits (c : Nat) : Nat :=
  match codeFmt c with
  | some f => f.size
  | none => if c = 11 then 8 else if c = 12 then 4 else if c = 14 then 32 else 0

/-- MX formats: 32 elements share a scale (R147). -/
def codeMx (c : Nat) : Bool := decide (6 ≤ c ∧ c ≤ 10)

/-- The shape of a weight tile (R255). -/
structure Tile where
  /-- rows, logical columns, slice step and bytes of a column -/
  kt : Nat
  n : Nat
  step : Nat
  cb : Nat
  deriving DecidableEq, Repr

/-- The tile of a weight format. -/
def tileOf (c : Nat) : Tile :=
  match c with
  | 0 => { kt := 8, n := 4, step := 8, cb := 64 }
  | 1 => { kt := 16, n := 16, step := 2, cb := 64 }
  | 2 => { kt := 32, n := 32, step := 1, cb := 64 }
  | 3 => { kt := 32, n := 32, step := 1, cb := 64 }
  | 8 => { kt := 128, n := 32, step := 1, cb := 96 }
  | 9 => { kt := 128, n := 32, step := 1, cb := 96 }
  | 10 => { kt := 128, n := 32, step := 1, cb := 64 }
  | 12 => { kt := 128, n := 32, step := 1, cb := 64 }
  | 13 => { kt := 128, n := 32, step := 1, cb := 26 }
  | _ => { kt := 64, n := 32, step := 1, cb := 64 }

/-! ## Descriptors (R257) -/

/-- Fields of a weight format descriptor. -/
def dWfmt (d : Word) : Nat := bits d.toNat 0 4
def dWu (d : Word) : Bool := d.getLsbD 4
def dGrp (d : Word) : Nat := bits d.toNat 5 2
def dGpos (d : Word) : Nat := bits d.toNat 7 1
def dPar (d : Word) : Nat := bits d.toNat 10 19

/-- Group length (R148, R257). -/
def groupLen (grp : Nat) : Nat := 16 * 2 ^ grp

/-- Groups of a column in one tile: NG of R258. -/
def groupCount (d : Word) : Nat := max 1 ((tileOf (dWfmt d)).kt / groupLen (dGrp d))

/-- The descriptor obeys R257. -/
def descOk (d : Word) : Bool :=
  let f := dWfmt d
  let g := dGrp d
  decide (f ≤ 13)
    && (if g ≠ 0 then dWu d else if decide (f = 11) || decide (f = 12) then true else !dWu d)
    && (decide (g = 0) || decide (f = 11 ∨ f = 12))
    && (decide (dGpos d = 0) || decide (f = 11 ∧ g = 3))
    && (if codeMx f then decide (dPar d % 16 = 0) else if g ≠ 0 then decide (dPar d % 4 = 0) else decide (dPar d = 0))
    && decide (bits d.toNat 8 2 = 0) && decide (d.toNat / 2 ^ 29 = 0)

/-- Accumulator type of a pair of R164 as its TAG, or none where the pair is not defined. -/
def pairTag (d : Word) (afmt : Nat) : Option Nat :=
  let f := dWfmt d
  if dGrp d ≠ 0 then
    if f = 11 then (if afmt = 11 then some 1 else none) else if afmt = 11 ∨ afmt = 12 then some 1 else none
  else if f = 0 then (if afmt = 0 then some 3 else none)
  else if f = 1 then (if afmt = 1 then some 1 else none)
  else if f = 2 ∨ f = 3 then (if afmt = 2 ∨ afmt = 3 then some 1 else none)
  else if 4 ≤ f ∧ f ≤ 7 then (if 4 ≤ afmt ∧ afmt ≤ 7 then some 1 else none)
  else if 8 ≤ f ∧ f ≤ 10 then (if 6 ≤ afmt ∧ afmt ≤ 10 then some 1 else none)
  else if f = 11 then (if afmt = 11 then some 2 else none)
  else if f = 12 ∨ f = 13 then (if afmt = 11 ∨ afmt = 12 then some 2 else none)
  else none

/-- Products per logical row (R164). -/
def rowProducts (f : Nat) : Nat := if f ≤ 3 then 1 else if f ≤ 7 then 2 else 4

/-! ## Exact products and sums (R165) -/

/-- The exact product of two values. -/
def FVal.times (a b : FVal) : FVal × BitVec 6 :=
  if anyNan [a, b] then (.nan false, flagIf (decide (a = .nan true) || decide (b = .nan true)) fNV)
  else
    match a, b with
    | .fin x n e, .fin y k g => (.fin (xor x y) (n * k) (e + g), 0)
    | .inf _, .fin _ 0 _ => (.nan false, fNV)
    | .fin _ 0 _, .inf _ => (.nan false, fNV)
    | .inf x, .inf y => (.inf (xor x y), 0)
    | .inf x, .fin y _ _ => (.inf (xor x y), 0)
    | .fin x _ _, .inf y => (.inf (xor x y), 0)
    | _, _ => (.nan false, 0)

/-- The exact sum of two values; a zero from terms of opposite signs is +0 (R146). -/
def FVal.plus (a b : FVal) : FVal × BitVec 6 :=
  if anyNan [a, b] then (.nan false, 0)
  else
    match a, b with
    | .inf x, .inf y => if x = y then (.inf x, 0) else (.nan false, fNV)
    | .inf x, _ => (.inf x, 0)
    | _, .inf y => (.inf y, 0)
    | .fin x n e, .fin y k g =>
      let q := min e g
      let v := atExp x n e q + atExp y k g q
      (.fin (if v = 0 then x && y else decide (v < 0)) v.natAbs q, 0)
    | _, _ => (.nan false, 0)

/-- The exact sum of products, and the flags they raise. Whether a NaN among them keeps infinities of both signs from raising NV the spec does
not say; here that depends on their order, as the sum is formed from the last product to the first (log entry 44). -/
def sumProducts : List (FVal × BitVec 6) → FVal × BitVec 6
  | [] => (.fin false 0 0, 0)
  | [p] => p
  | p :: t =>
    let r := sumProducts t
    let x := p.1.plus r.1
    (x.1, p.2 ||| r.2 ||| x.2)

/-- One column of one row: the logical rows from 0 up, each rounded once to the row format; a row without products adds nothing. -/
def rowChain (f : Fmt) (p rows kp : Nat) (prod : Nat → FVal × BitVec 6) : FRes :=
  (List.range rows).foldl (fun acc r =>
    let ks := (List.range' (r * p) p).filter (fun k => decide (k < kp))
    if ks.isEmpty then acc
    else
      let q := sumProducts (ks.map prod)
      let v := f.addV 0 0 (f.read acc.1) q.1
      (v.1, acc.2 ||| q.2 ||| v.2)) (0, 0)

/-! ## MX elements and scale blocks (R147, R256) -/

/-- An element under its 9-bit scale. -/
def mxValue (f : Fmt) (code scale : Nat) : FVal × BitVec 6 :=
  if scale / 2 = 255 then (.nan false, 0)
  else
    match f.read code with
    | .nan sg => (.nan sg, 0)
    | .inf x => if scale = 0 then (.nan false, fNV) else (.inf x, 0)
    | .fin x n e =>
      if scale = 0 then (.fin x 0 0, 0) else (.fin x (n * (2 + scale % 2)) (e + ((scale / 2 : Nat) : Int) - 128), 0)

/-- The Hamming positions of the 576 data bits: 1 to 586 without the powers of two. -/
def dataPositions : List Nat := (List.range' 1 586).filter (fun p => decide (p ≠ 2 ^ Nat.log2 p))

/-- Check bits 0 to 9 of a data field, as the XOR of the positions of its set bits. -/
def hamming (d : Nat) : Nat := (dataPositions.zipIdx.filter (fun x => bit d x.2)).foldl (fun a x => Nat.xor a x.1) 0

/-- Parity of the low w bits of a number. -/
def parity (w v : Nat) : Bool := (List.range w).foldl (fun a i => xor a (bit v i)) false

/-- Check and correct a block's data field; answers it and whether a bit was corrected, or none when it is uncorrectable. -/
def secded (d chk : Nat) : Option (Nat × Bool) :=
  let syn := Nat.xor (hamming d) (chk % 1024)
  let odd := xor (parity 576 d) (parity 11 chk)
  if !odd then (if syn = 0 then some (d, false) else none)
  else if syn = 0 ∨ syn = 2 ^ Nat.log2 syn then some (d, true)
  else
    match dataPositions.findIdx? (fun p => decide (p = syn)) with
    | none => none
    | some i => some (Nat.xor d (2 ^ i), true)

/-- What reading a scale block gives. -/
structure ScaleBlock where
  /-- the 64 scales as one field; all NaN where the block is untrusted -/
  field : Nat
  corrected : Bool
  lost : Bool
  poison : Option Nat
  deriving DecidableEq, Repr

/-- The first poisoned granule of a local range. -/
def Core.badAt (c : Core) (a n : Nat) : Option Nat := firstBad c.lsBad a n

/-- Read the scale block at a local address (R256, R410). -/
def Core.scaleBlock (c : Core) (a : Nat) : ScaleBlock :=
  match c.badAt a 74 with
  | some g => { field := 2 ^ 576 - 1, corrected := false, lost := false, poison := some g }
  | none =>
    match secded (memNum a 72 c.ls) (memNum (a + 72) 2 c.ls % 2 ^ 11) with
    | some (d, fixed) => { field := d, corrected := fixed, lost := false, poison := none }
    | none => { field := 2 ^ 576 - 1, corrected := false, lost := true, poison := none }

/-- Blocks that hold scales 0 to cnt - 1. -/
def blockCount (cnt : Nat) : Nat := (cnt + 63) / 64

/-- Read the blocks of a scale array. -/
def Core.scaleBlocks (c : Core) (base cnt : Nat) : List ScaleBlock :=
  (List.range (blockCount cnt)).map (fun i => c.scaleBlock (base + 80 * i))

/-- Scale n of the blocks read. -/
def scaleOf (bs : List ScaleBlock) (n : Nat) : Nat :=
  match bs[n / 64]? with
  | none => 0
  | some b => bits b.field (9 * (n % 64)) 9

/-- The records of the blocks read: one kind 19 for each uncorrectable one, and the corrected ones counted (R410, R411). -/
def State.blockRecords (s : State) (n : Nat) (o : EngOp) (cause base : Nat) (bs : List ScaleBlock) : State :=
  let k := clusterOf n
  let s := bs.zipIdx.foldl (fun s x => if x.1.lost then
    s.record k (s.opRec n o 19 cause (BitVec.ofNat 64 (base + 80 * x.2)) (BitVec.ofNat 64 x.2)) else s) s
  match ((bs.zipIdx.filter (fun x => x.1.corrected)).map (fun x => base + 80 * x.2)).reverse with
  | [] => s
  | a :: t => s.countCorrected 8 n (t.length + 1) (BitVec.ofNat 64 a)

/-! ## Banks (R168, R184, R394) -/

/-- Place of a bank word. -/
def accKey (bank row col : Nat) : Nat := (bank * 128 + row) * 32 + col

/-- A bank word. -/
def Core.acc (c : Core) (bank row col : Nat) : Nat := (tblGet 0 (accKey bank row col) c.banks).toNat

/-- A bank word is poisoned (R409). -/
def Core.accPoison (c : Core) (bank row col : Nat) : Bool := c.accBad.contains (accKey bank row col)

/-- The first poisoned word of some rows of a bank, by its number (R408; log entry 33). -/
def Core.accBadAt (c : Core) (bank row0 m cols : Nat) : Option Nat :=
  ((List.range m).flatMap (fun i => (List.range cols).map (fun j => accKey bank (row0 + i) j))).find? c.accBad.contains

/-- Write a bank word, with its poison. -/
def Core.setAcc (c : Core) (bank row col v : Nat) (bad : Bool) : Core :=
  let k := accKey bank row col
  { c with banks := tblSet k (BitVec.ofNat 32 v) c.banks, accBad := if bad then addBad c.accBad [k] else c.accBad.filter (fun x => decide (x ≠ k)) }

/-- TAG of a bank row. -/
def Core.tag (c : Core) (bank row : Nat) : Nat := tblGet 0 (bank * 128 + row) c.tags

/-- Set the TAG of a row. -/
def Core.setTag (c : Core) (bank row t : Nat) : Core := { c with tags := tblSet (bank * 128 + row) t c.tags }

/-- A target row holds what a type requires (R394). -/
def Core.holdsType (c : Core) (bank row t : Nat) : Bool := decide (c.tag bank row = 0 ∨ c.tag bank row = t)

/-! ## Fields of an operation -/

/-- FN of an EN word (R172). -/
def EngOp.fn (o : EngOp) : Nat := (o.word.extractLsb' 27 5).toNat

/-- The bank in the D field, and the one in the A field (R264). -/
def EngOp.bankD (o : EngOp) : Nat := (o.word.extractLsb' 7 2).toNat
def EngOp.bankA (o : EngOp) : Nat := (o.word.extractLsb' 14 2).toNat

/-- Rows of the extension of `macc`: M and ROW0 (R260). -/
def extRows (x : Word) : Nat × Nat := (bits x.toNat 5 7 + 1, bits x.toNat 32 7)

/-- Rows of the extension of `mst`, `mld`, `mscl` and `mbias`: M and ROW0 (R262, R263). -/
def bankRows (x : Word) : Nat × Nat := (bits x.toNat 9 7 + 1, bits x.toNat 16 7)

/-- The matrix engines of a core are held off: Band W or before it, or its arrays are not released (R335, R341, R342). -/
def State.arraysOff (s : State) (n : Nat) : Bool := s.cold.holdOff || decide (s.cold.band = 2) || decide (s.arrays ≤ clusterOf n)

/-! ## Checks when an operation begins (R251, R395) -/

/-- A local range passes the local store. -/
def pastLocal (a n : Nat) : Bool := decide (0x80000 < a + n)

/-- The parameter words or scale blocks that an `mwld` reads pass the local store. -/
def mwldRange (d : Word) : Bool :=
  let t := tileOf (dWfmt d)
  if codeMx (dWfmt d) then pastLocal (dPar d) (80 * blockCount (t.n * t.kt / 32))
  else if dGrp d ≠ 0 ∧ dGpos d = 0 then pastLocal (dPar d) (4 * (t.n * groupCount d))
  else false

/-- Bytes of an activation row. -/
def actBytes (d : Word) (afmt : Nat) : Nat := (tileOf (dWfmt d)).kt * codeBits afmt / 8

/-- A `macc` fails a check made when it begins (R260). -/
def Core.maccFault (c : Core) (o : EngOp) : Bool :=
  let d := c.arr.latched
  let afmt := bits o.x0.toNat 0 4
  let (m, row0) := extRows o.x0
  let kt := (tileOf (dWfmt d)).kt
  match pairTag d afmt with
  | none => true
  | some t =>
    (List.range m).any (fun i => pastLocal (o.ra.toNat + i * o.rb.toNat) (actBytes d afmt))
      || (codeMx afmt && pastLocal (bits o.x0.toNat 13 19) (80 * blockCount (m * kt / 32)))
      || (List.range' row0 m).any (fun r => !c.holdsType o.bankD r t)

/-- The operation fails a check made when it begins. -/
def State.matrixFault (s : State) (n : Nat) (o : EngOp) : Bool :=
  let c := s.core n
  let (m, row0) := bankRows o.x0
  s.arraysOff n ||
    (match o.fn with
     | 2 => mwldRange o.desc
     | 3 => c.maccFault o
     | 7 => (List.range' row0 m).any (fun r => !c.holdsType o.bankD r 1)
     | 8 => (List.range' row0 m).any (fun r => !c.holdsType o.bankD r 1)
     | _ => false)

/-! ## Reading and writing the local store -/

/-- An operation's submitter, as a port's ring shows it (R128). -/
def State.opSource (s : State) (n : Nat) (o : EngOp) : Source :=
  { own := false, core := (s.core n).lcore, slot := o.slot, gen := o.gen, cyc := (s.core n).cyc }

/-- An engine write at its own core's port: bytes, dirty bits, the ring, and the granules that carry poison (R85, R128, R406). -/
def State.engWrite (s : State) (n : Nat) (o : EngOp) (a : Nat) (bs : List Byte) (bad : List Nat) : State :=
  let s := s.lsStore n a bs 2 (s.opSource n o)
  if bad.isEmpty then s else s.setCore n { s.core n with lsBad := addBad (s.core n).lsBad bad }

/-- An engine read at its own core's port, for the ring; what it read earlier arrived then (R129, R131). -/
def State.engRead (s : State) (n : Nat) (o : EngOp) (a size : Nat) : State :=
  if size = 0 then s
  else if o.got.isEmpty then s.logPort n a size 3 (s.opSource n o)
  else (pieces size a size).foldl (fun s p => if (o.early 0 p.1).isSome then s else s.logPort n p.1 p.2 3 (s.opSource n o)) s

/-- The earlier of two poisoned inputs. -/
def firstPoison (a b : Option (Nat × Nat)) : Option (Nat × Nat) := a.orElse (fun _ => b)

/-! ## Weights (R255, R258) -/

/-- The code of weight k of a column. -/
def weightCode (f col k : Nat) : Nat :=
  if f = 13 then
    match trit (bits col (8 * (k / 5)) 8) (k % 5) with
    | some t => wrapN 2 t
    | none => 0
  else bits col (codeBits f * k) (codeBits f)

/-- Latch the descriptor of the last `mwfmt` that entered before it, and the weight tile; answers the flags. -/
def State.performMwld (s : State) (n : Nat) (o : EngOp) : State × BitVec 6 :=
  let c := s.core n
  let v := o.view c
  let d := o.desc
  let f := dWfmt d
  let t := tileOf f
  let at_ (j : Nat) : Nat := j * t.step * 0xC000 + o.ra.toNat
  let cols := (List.range t.n).map (fun j => memNum (at_ j) t.cb c.ws)
  let bad := (List.range t.n).filter (fun j => anyBad c.wsBad (at_ j) t.cb)
  let ic := decide (f = 13) && cols.any (fun v => (List.range 26).any (fun j => decide (242 < bits v (8 * j) 8)))
  let ws := (List.range t.kt).flatMap (fun k => (cols.zipIdx).map (fun x => (k * 32 + x.2, weightCode f x.1 k)))
  let blocks := if codeMx f then v.scaleBlocks (dPar d) (t.n * t.kt / 32) else []
  let fresh := decide (dGrp d ≠ 0) && decide (dGpos d = 0)
  let words := if fresh then (List.range (t.n * groupCount d)).map (fun i =>
      (i, if anyBad v.lsBad (dPar d + 4 * i) 4 then 0x7E00 else memNum (dPar d + 4 * i) 4 v.ls)) else []
  let arr : Arr := { c.arr with latched := d, weights := ws, scales := (List.range (t.n * t.kt / 32)).map (fun i => (i, scaleOf blocks i))
                                badCol := bad }
  let arr := if fresh then { arr with params := words } else arr
  let arr := if dGpos d = 0 then { arr with carryC := [], carryA := [], carryBad := [] } else arr
  let parBad := if fresh then v.badAt (dPar d) (4 * (t.n * groupCount d)) else (blocks.findSome? (fun b => b.poison))
  let s := s.setCore n { c with arr := arr }
  let s := if codeMx f then s.engRead n o (dPar d) (80 * blocks.length) else if fresh then s.engRead n o (dPar d) (4 * words.length) else s
  let s := s.blockRecords n o 0 (dPar d) blocks
  let s := s.poisonRecord n o (match bad with
    | j :: _ => some (((granules (at_ j) t.cb).find? c.wsBad.contains).getD 0 * 8, 0)
    | [] => parBad.map (fun a => (a, 0)))
  (s, flagIf ic fIC)

/-! ## Multiply-accumulate (R165 to R167, R260) -/

/-- Latched weight (k, j) as a number (R141, R149). -/
def Core.weightInt (c : Core) (k j : Nat) : Int :=
  let d := c.arr.latched
  let v := tblGet 0 (k * 32 + j) c.arr.weights
  if dWfmt d = 13 then sgn 2 v else if dWu d then (v : Int) else sgn (codeBits (dWfmt d)) v

/-- Latched weight (k, j) as a value. -/
def Core.weightVal (c : Core) (k j : Nat) : FVal × BitVec 6 :=
  let f := dWfmt c.arr.latched
  let v := tblGet 0 (k * 32 + j) c.arr.weights
  match codeFmt f with
  | none => (.nan false, 0)
  | some fm => if codeMx f then mxValue fm v (tblGet 0 (j * ((tileOf f).kt / 32) + k / 32) c.arr.scales) else (fm.read v, 0)

/-- What a streamed row holds: its codes as one number, its scales, and whether a byte that takes part is poisoned. -/
structure ActRow where
  codes : Nat
  scales : List Nat
  bad : Bool
  deriving DecidableEq, Repr

/-- Activation k of a row as a value. -/
def ActRow.val (r : ActRow) (afmt k : Nat) : FVal × BitVec 6 :=
  match codeFmt afmt with
  | none => (.nan false, 0)
  | some f =>
    let v := bits r.codes (f.size * k) f.size
    if codeMx afmt then mxValue f v (r.scales.getD (k / 32) 0) else (f.read v, 0)

/-- Activation k of a row as a number. -/
def ActRow.num (r : ActRow) (afmt : Nat) (au : Bool) (k : Nat) : Int :=
  let w := codeBits afmt
  let v := bits r.codes (w * k) w
  if au then (v : Int) else sgn w v

/-- A product of the floating-point pairs, with the flags that forming it raises. -/
def Core.product (c : Core) (r : ActRow) (afmt k j : Nat) : FVal × BitVec 6 :=
  let a := r.val afmt k
  let w := c.weightVal k j
  let p := a.1.times w.1
  (p.1, a.2 ||| w.2 ||| p.2)

/-- A floating-point pair: column j of one row is added into its bank row (R165). -/
def Core.floatAcc (c : Core) (r : ActRow) (afmt kp bank row j : Nat) : Core × BitVec 6 :=
  let f := dWfmt c.arr.latched
  let wide := decide (f = 0)
  let fm := if wide then fp64 else fp32
  let old := if wide then c.acc bank row (2 * j) + 2 ^ 32 * c.acc bank row (2 * j + 1) else c.acc bank row j
  let lost := r.bad || c.arr.badCol.contains j || c.accPoison bank row (if wide then 2 * j else j)
    || (wide && c.accPoison bank row (2 * j + 1))
  let p := rowProducts f
  let q := rowChain fm p ((tileOf f).kt / p) kp (fun k => c.product r afmt k j)
  let v := fm.addV 0 0 (fm.read old) (fm.read q.1)
  let x := if lost then fm.nanCode else v.1
  let fl := if lost then 0 else q.2 ||| v.2
  (if wide then (c.setAcc bank row (2 * j) (x % 2 ^ 32) false).setAcc bank row (2 * j + 1) (x / 2 ^ 32) false
   else c.setAcc bank row j x false, fl)

/-- An integer pair: exact sum, wrapped addition (R166). -/
def Core.intAcc (c : Core) (r : ActRow) (afmt : Nat) (au : Bool) (kp bank row j : Nat) : Core :=
  let x := ((List.range kp).map (fun k => r.num afmt au k * c.weightInt k j)).sum
  let bad := r.bad || c.arr.badCol.contains j || c.accPoison bank row j
  c.setAcc bank row j (wrapN 32 (sgn 32 (c.acc bank row j) + x)) bad

/-- Add the term of a complete group: c times the group's scale (R148, R167). -/
def Core.groupTerm (c : Core) (r : ActRow) (bank row j g : Nat) (raw sum : Int) : Core × BitVec 6 :=
  let d := c.arr.latched
  let par := tblGet 0 (j * groupCount d + g) c.arr.params
  let z := if dWfmt d = 12 then bits par 16 4 else bits par 16 8
  let v := raw - (z : Int) * sum
  let t := fp32.mulV 0 0 (fp16.read (par % 2 ^ 16)) (.fin (decide (v < 0)) v.natAbs 0)
  let lost := r.bad || c.arr.badCol.contains j || c.accPoison bank row j || c.arr.carryBad.contains (accKey bank row j)
  let x := fp32.addV 0 0 (fp32.read (c.acc bank row j)) (fp32.read t.1)
  (c.setAcc bank row j (if lost then fp32.nanCode else x.1) false, if lost then 0 else t.2 ||| x.2)

/-- Asymmetric groups: the groups of the tile in ascending k; one that does not end in it stays in the carry, and one that ends takes
the carry with it (R167, R261). Poison goes into the carry, and a poisoned column gives the NaN at once (R408, R409). -/
def Core.groupAcc (c : Core) (r : ActRow) (afmt : Nat) (au : Bool) (kp bank row j : Nat) : Core × BitVec 6 :=
  let d := c.arr.latched
  let kt := (tileOf (dWfmt d)).kt
  let len := groupLen (dGrp d)
  let span := min len kt
  let key := accKey bank row j
  (List.range (kt / span)).foldl (fun acc g =>
    let ks := (List.range' (g * span) span).filter (fun k => decide (k < kp))
    if ks.isEmpty then acc
    else
      let c := acc.1
      let raw := (ks.map (fun k => r.num afmt au k * c.weightInt k j)).sum + tblGet 0 key c.arr.carryC
      let sum := (ks.map (fun k => r.num afmt au k)).sum + tblGet 0 key c.arr.carryA
      if len ≤ dGpos d * kt + kt then
        let x := c.groupTerm r bank row j g raw sum
        let c := x.1
        ({ c with arr := { c.arr with carryC := tblDel key c.arr.carryC, carryA := tblDel key c.arr.carryA
                                      carryBad := c.arr.carryBad.filter (fun k => decide (k ≠ key)) } }, acc.2 ||| x.2)
      else
        let lost := c.arr.badCol.contains j
        let c := if lost then c.setAcc bank row j fp32.nanCode false else c
        ({ c with arr := { c.arr with carryC := tblSet key raw c.arr.carryC, carryA := tblSet key sum c.arr.carryA
                                      carryBad := if lost || r.bad then addBad c.arr.carryBad [key] else c.arr.carryBad } },
         acc.2)) (c, 0)

/-- One column of one streamed row. -/
def Core.maccColumn (c : Core) (r : ActRow) (afmt : Nat) (au : Bool) (kp bank row j : Nat) : Core × BitVec 6 :=
  let d := c.arr.latched
  if dGrp d ≠ 0 then c.groupAcc r afmt au kp bank row j
  else if dWfmt d ≤ 10 then c.floatAcc r afmt kp bank row j
  else (c.intAcc r afmt au kp bank row j, 0)

/-- How many words of a row's bank a `macc` reads, from the first on: those of the active columns, and none while no group of the tile ends
(R165 to R167, R259). -/
def accReads (d : Word) (np : Nat) : Nat :=
  if dGrp d ≠ 0 ∧ dGpos d * (tileOf (dWfmt d)).kt + (tileOf (dWfmt d)).kt < groupLen (dGrp d) then 0
  else if dWfmt d = 0 then 2 * np else np

/-- The first poisoned input of a `macc` and the bank word that it reaches first: an activation or a scale reaches its row's first column,
an accumulator word itself (R408; log entry 33). -/
def Core.maccPoison (c v : Core) (o : EngOp) (m row0 used asc perRow words : Nat) (blocks : List ScaleBlock) : Option (Nat × Nat) :=
  let acts := (List.range m).findSome? (fun i => (v.badAt (o.ra.toNat + i * o.rb.toNat) used).map (fun a => (a, accKey o.bankD (row0 + i) 0)))
  let scales := (blocks.findSome? (fun b => b.poison)).map (fun a => (a, accKey o.bankD (row0 + (a - asc) / 80 * 64 / perRow) 0))
  let accs := (c.accBadAt o.bankD row0 m words).map (fun k => (k, if dWfmt c.arr.latched = 0 then k / 2 * 2 else k))
  firstPoison (firstPoison acts scales) accs

/-- Perform a `macc` (R260). -/
def State.performMacc (s : State) (n : Nat) (o : EngOp) : State × BitVec 6 :=
  let c := s.core n
  let v := o.view c
  let d := c.arr.latched
  let t := tileOf (dWfmt d)
  let afmt := bits o.x0.toNat 0 4
  let au := o.x0.getLsbD 4
  let asc := bits o.x0.toNat 13 19
  let (m, row0) := extRows o.x0
  let kp := min c.arr.kact t.kt
  let np := min c.arr.nact t.n
  let len := actBytes d afmt
  let blocks := if codeMx afmt then v.scaleBlocks asc (m * t.kt / 32) else []
  let used := (kp * codeBits afmt + 7) / 8
  let row (i : Nat) : ActRow :=
    let a := o.ra.toNat + i * o.rb.toNat
    { codes := memNum a len v.ls, scales := (List.range (t.kt / 32)).map (fun g => scaleOf blocks (i * (t.kt / 32) + g))
      bad := anyBad v.lsBad a used }
  let tag := (pairTag d afmt).getD 0
  let r := (List.range m).foldl (fun acc i =>
    let x := (List.range np).foldl (fun (y : Core × BitVec 6) j =>
      let z := y.1.maccColumn (row i) afmt au kp o.bankD (row0 + i) j
      (z.1, y.2 ||| z.2)) (acc.1, acc.2)
    (x.1.setTag o.bankD (row0 + i) tag, x.2)) (c, (0 : BitVec 6))
  let bad := c.maccPoison v o m row0 used asc (t.kt / 32) (accReads d np) blocks
  let s := s.setCore n r.1
  let s := (List.range m).foldl (fun s i => s.engRead n o (o.ra.toNat + i * o.rb.toNat) len) s
  let s := if codeMx afmt then s.engRead n o asc (80 * blocks.length) else s
  let s := s.blockRecords n o 1 asc blocks
  (s.poisonRecord n o bad, r.2)

/-! ## The other operations (R262, R263) -/

/-- `mzero`: every word of a bank becomes 0, its rows untyped and clean. -/
def Core.zeroBank (c : Core) (b : Nat) : Core :=
  { c with banks := c.banks.filter (fun x => decide (x.1 / 4096 ≠ b)), tags := c.tags.filter (fun x => decide (x.1 / 128 ≠ b))
           accBad := c.accBad.filter (fun k => decide (k / 4096 ≠ b)) }

/-- `mmv`: words, tags and poison of one bank to another. -/
def Core.moveBank (c : Core) (src dst : Nat) : Core :=
  if src = dst then c
  else
    let z := c.zeroBank dst
    let words := c.banks.filter (fun x => decide (x.1 / 4096 = src))
    let ts := c.tags.filter (fun x => decide (x.1 / 128 = src))
    { z with banks := words.foldl (fun t x => tblSet (x.1 % 4096 + dst * 4096) x.2 t) z.banks
             tags := ts.foldl (fun t x => tblSet (x.1 % 128 + dst * 128) x.2 t) z.tags
             accBad := z.accBad ++ (c.accBad.filter (fun k => decide (k / 4096 = src))).map (fun k => k % 4096 + dst * 4096) }

/-- Perform an `mmv`; poison that it carries is reported (R408). -/
def State.performMmv (s : State) (n : Nat) (o : EngOp) : State :=
  let c := s.core n
  (s.setCore n (c.moveBank o.bankA o.bankD)).poisonRecord n o
    ((c.accBadAt o.bankA 0 128 32).map (fun k => (k, k % 4096 + o.bankD * 4096)))

/-- `mld`: raw words from the local store; a poisoned granule poisons its words. -/
def State.performMld (s : State) (n : Nat) (o : EngOp) : State :=
  let (m, row0) := bankRows o.x0
  let v := o.view (s.core n)
  let s := (List.range m).foldl (fun s i =>
    let a := o.ra.toNat + i * o.rb.toNat
    let c' := (List.range 32).foldl (fun (x : Core) w =>
      x.setAcc o.bankD (row0 + i) w (memNum (a + 4 * w) 4 v.ls) (anyBad v.lsBad (a + 4 * w) 4)) (s.core n)
    (s.setCore n (c'.setTag o.bankD (row0 + i) 0)).engRead n o a 128) s
  s.poisonRecord n o ((List.range m).findSome? (fun i =>
    let a := o.ra.toNat + i * o.rb.toNat
    (v.badAt a 128).map (fun g => (g, accKey o.bankD (row0 + i) ((g - a) / 4)))))

/-- `mscl` and `mbias`: each column is multiplied by, or increased by, its FP32 word at sA. -/
def State.performScale (s : State) (n : Nat) (o : EngOp) (add : Bool) : State × BitVec 6 :=
  let c := s.core n
  let v := o.view c
  let a := o.ra.toNat
  let (m, row0) := bankRows o.x0
  let r := (List.range m).foldl (fun acc i =>
    let x := (List.range 32).foldl (fun (y : Core × BitVec 6) j =>
      let old := fp32.read (y.1.acc o.bankD (row0 + i) j)
      let w := fp32.read (memNum (a + 4 * j) 4 v.ls)
      let x := if add then fp32.addV 0 0 old w else fp32.mulV 0 0 old w
      let lost := y.1.accPoison o.bankD (row0 + i) j || anyBad v.lsBad (a + 4 * j) 4
      (y.1.setAcc o.bankD (row0 + i) j (if lost then fp32.nanCode else x.1) false, if lost then y.2 else y.2 ||| x.2)) acc
    (x.1.setTag o.bankD (row0 + i) 1, x.2)) (c, (0 : BitVec 6))
  let s := (s.setCore n r.1).engRead n o a 128
  (s.poisonRecord n o (firstPoison ((v.badAt a 128).map (fun g => (g, accKey o.bankD row0 ((g - a) / 4))))
    ((c.accBadAt o.bankD row0 m 32).map (fun k => (k, k)))), r.2)

/-- Bytes of an element of a format code that `mst` or `cpyc` writes. -/
def codeBytes (c : Nat) : Nat := codeBits c / 8

/-- One element that `mst` stores: the bank's reading ITYP converted to OFMT (R263). -/
def mstElem (ityp ofmt mode r v : Nat) : FRes :=
  if ityp = 1 then
    (if ofmt = 14 then (v % 2 ^ 32, 0) else (wrapN 8 (satInt 8 true (sgn 32 v)), 0))
  else
    let src := if ityp = 2 then fp64 else fp32
    match codeFmt ofmt with
    | some f => src.convert f mode r v
    | none => (0, 0)

/-- Perform an `mst` (R263, R409). -/
def State.performMst (s : State) (n : Nat) (o : EngOp) : State × BitVec 6 :=
  let c := s.core n
  let x := o.x0.toNat
  let ityp := bits x 0 2
  let ofmt := bits x 2 4
  let m := bits x 9 7 + 1
  let row0 := bits x 16 7
  let nc := bits x 23 5 + 1
  let w := codeBytes ofmt
  let elem (i j : Nat) : Nat × BitVec 6 × Bool :=
    let wide := decide (ityp = 2)
    let v := if wide then c.acc o.bankA (row0 + i) (2 * j) + 2 ^ 32 * c.acc o.bankA (row0 + i) (2 * j + 1)
      else c.acc o.bankA (row0 + i) j
    let bad := c.accPoison o.bankA (row0 + i) (if wide then 2 * j else j) || (wide && c.accPoison o.bankA (row0 + i) (2 * j + 1))
    let r := mstElem ityp ofmt o.rm (srBits o.sr (i * nc + j)) v
    if bad then (match codeFmt ofmt with | some f => (f.nanCode, 0, false) | none => (r.1, 0, true)) else (r.1, r.2, false)
  let r := (List.range m).foldl (fun acc i =>
    let es := (List.range nc).map (elem i)
    let a := o.rd.toNat + i * o.rb.toNat
    let bad := (es.zipIdx.filter (fun e => e.1.2.2)).flatMap (fun e => granules (a + w * e.2) w)
    let s := acc.1.engWrite n o a (es.flatMap (fun e => leBytes w e.1)) bad
    (s, es.foldl (fun f e => f ||| e.2.1) acc.2)) (s, (0 : BitVec 6))
  let words := if ityp = 2 then 2 * nc else nc
  let first := (c.accBadAt o.bankA row0 m words).map (fun k =>
    (k, o.rd.toNat + (k / 32 % 128 - row0) * o.rb.toNat + w * (if ityp = 2 then k % 32 / 2 else k % 32)))
  (r.1.poisonRecord n o first, r.2)

/-- The descriptor that will be latched when an operation's turn comes (R258). -/
def Core.latchedFor (c : Core) (o : EngOp) : Word :=
  match (((c.queueOps 0).takeWhile (fun x => decide (x.id ≠ o.id))).filter (fun x => decide (x.fn = 2))).getLast? with
  | some x => x.desc
  | none => c.arr.latched

/-- The local ranges that a matrix operation reads. -/
def Core.matrixReads (c : Core) (o : EngOp) : List (Nat × Nat) :=
  let rows (m len : Nat) : List (Nat × Nat) := (List.range m).map (fun i => (o.ra.toNat + i * o.rb.toNat, len))
  match o.fn with
  | 2 =>
    let d := o.desc
    let t := tileOf (dWfmt d)
    if codeMx (dWfmt d) then [(dPar d, 80 * blockCount (t.n * t.kt / 32))]
    else if dGrp d ≠ 0 ∧ dGpos d = 0 then [(dPar d, 4 * (t.n * groupCount d))] else []
  | 3 =>
    let d := c.latchedFor o
    let afmt := bits o.x0.toNat 0 4
    let m := (extRows o.x0).1
    rows m (actBytes d afmt)
      ++ (if codeMx afmt then [(bits o.x0.toNat 13 19, 80 * blockCount (m * (tileOf (dWfmt d)).kt / 32))] else [])
  | 6 => rows (bankRows o.x0).1 128
  | 7 => [(o.ra.toNat, 128)]
  | 8 => [(o.ra.toNat, 128)]
  | _ => []

/-- Perform a matrix operation that passed its checks. -/
def State.performMatrix (s : State) (n : Nat) (o : EngOp) : State × BitVec 6 :=
  let c := s.core n
  match o.fn with
  | 0 => (s.setCore n { c with arr := { c.arr with kact := o.ra.toNat, nact := o.rb.toNat } }, 0)
  | 1 => (s.setCore n { c with arr := { c.arr with staged := o.x0 } }, 0)
  | 2 => s.performMwld n o
  | 3 => s.performMacc n o
  | 4 => (s.setCore n (c.zeroBank o.bankD), 0)
  | 5 => s.performMst n o
  | 6 => (s.performMld n o, 0)
  | 7 => s.performScale n o false
  | 8 => s.performScale n o true
  | 9 => (s.performMmv n o, 0)
  | _ => (s, 0)

/-! ## Submission checks (R395) -/

/-- The first row of a strided local range that passes the local store. -/
def rowPast (a stride len m : Nat) : Option Nat := ((List.range m).map (fun i => a + i * stride)).find? (fun r => pastLocal r len)

/-- Rows of an extension word, as M and ROW0, pass the bank. -/
def rowsPass (r : Nat × Nat) : Bool := decide (128 < r.1 + r.2)

/-- Only MROW and ROW0 of an extension word in the layout of R263 are nonzero (R262). -/
def onlyRows (x : Word) : Bool := decide (bits x.toNat 0 9 = 0) && decide (x.toNat / 2 ^ 23 = 0)

/-- A local range fault at an address (R381). -/
def rangeAt (a : Nat) : Stop := .trap 11 (BitVec.ofNat 64 a)

/-- A protection fault at an address (R381). -/
def protectAt (a : Nat) : Stop := .trap 12 (BitVec.ofNat 64 a)

/-- The first byte that the claimed range refuses in the rows of a strided range. -/
def Core.rowRefused (c : Core) (a stride len m : Nat) : Option Nat :=
  ((List.range m).map (fun i => a + i * stride)).findSome? (fun r => c.refusedAt r len)

/-- The extension word of a `macc` breaks a rule of R260. -/
def maccBad (x : Word) (a b : Word) : Bool :=
  let f := bits x.toNat 0 4
  decide (13 ≤ f) || rowsPass (extRows x) || decide (a.toNat % 16 ≠ 0) || decide (b.toNat % 16 ≠ 0)
    || (if codeMx f then decide (bits x.toNat 13 19 % 16 ≠ 0) else decide (bits x.toNat 13 19 ≠ 0))
    || decide (bits x.toNat 12 1 ≠ 0) || decide (x.toNat / 2 ^ 39 ≠ 0)

/-- OFMT belongs to ITYP (R263). -/
def mstPair (ityp ofmt : Nat) : Bool :=
  match ityp with
  | 0 => decide (1 ≤ ofmt ∧ ofmt ≤ 5)
  | 1 => decide (ofmt = 14 ∨ ofmt = 11)
  | 2 => decide (ofmt = 0 ∨ ofmt = 1)
  | _ => false

/-- The operands of an `mst` break a rule of R263. -/
def mstBad (x d b : Word) : Bool :=
  let v := x.toNat
  !mstPair (bits v 0 2) (bits v 2 4) || decide (bits v 0 2 = 3) || decide (bits v 6 3 = 6) || decide (127 < bits v 9 7 + bits v 16 7)
    || decide (bits v 0 2 = 2 ∧ 15 < bits v 23 5) || decide (d.toNat % 16 ≠ 0) || decide (b.toNat % 16 ≠ 0) || decide (v / 2 ^ 28 ≠ 0)

/-- Issue an engine submission: suppressed in reconnaissance, compared in a pair (R64, R91). -/
def engine (c : Code) (reads exts : List Nat) (body : Issue → State → Except Stop State) (s : State) : Out :=
  let k : Issue := { code := c, reads := reads, others := exts.map RegName.e, quiet := true, effect := true }
  issue k s (body k)

/-- R259: Queues the setting of the active extents KACT and NACT. -/
def execMgeo (b : BitVec 5) (a : BitVec 5) (s : State) : Out :=
  engine (.long (0#8 ++ b ++ a ++ 83#14)) [a.toNat, b.toNat] [] (fun k s0 => do
    let (x, s) := s0.readS a.toNat
    let (y, s) := s.readS b.toNat
    if x.toNat < 1 ∨ 128 < x.toNat ∨ y.toNat < 1 ∨ 32 < y.toNat then throw k.operand
    else s0.submit s { s0.mkOp k 0 with ra := x, rb := y } false false) s

/-- R257: Queues a staged weight format descriptor. -/
def execMwfmt (x : BitVec 3) (s : State) : Out :=
  engine (.long (1#5 ++ x ++ 83#24)) [] [x.toNat] (fun k s0 => do
    let d := s0.th.ereg x.toNat
    if !descOk d then throw k.operand
    else
      let s ← s0.submit s0 { s0.mkOp k 0 with x0 := d } false false
      pure (s.setCo { s.co with lastFmt := d })) s

/-- R258: Queues a weight-tile reload that latches the staged descriptor. -/
def execMwld (a : BitVec 5) (s : State) : Out :=
  engine (.long (512#13 ++ a ++ 83#14)) [a.toNat] [] (fun k s0 => do
    let (x, s) := s0.readS a.toNat
    let d := s0.co.lastFmt
    if 2 ^ 16 ≤ x.toNat ∨ x.toNat % 64 ≠ 0 ∨ 0xC000 < x.toNat + (tileOf (dWfmt d)).cb then throw k.operand
    else s0.submit s { s0.mkOp k 0 with ra := x, desc := d } false false) s

/-- R260: Queues a multiply-accumulate streaming activation rows into a bank. -/
def execMacc (x : BitVec 3) (b : BitVec 5) (a : BitVec 5) (d : BitVec 2) (s : State) : Out :=
  engine (.long (3#5 ++ x ++ b ++ a ++ 0#5 ++ d ++ 83#7)) [a.toNat, b.toNat] [x.toNat] (fun k s0 => do
    let (p, s) := s0.readS a.toNat
    let (q, s) := s.readS b.toNat
    let e := s0.th.ereg x.toNat
    if maccBad e p q then throw k.operand
    else s0.submit s { s0.mkOp k 0 with ra := p, rb := q, x0 := e } false false) s

/-- R262: Queues the zeroing of a bank. -/
def execMzero (d : BitVec 2) (s : State) : Out :=
  engine (.long (1048576#23 ++ d ++ 83#7)) [] [] (fun k s0 => s0.submit s0 (s0.mkOp k 0) false false) s

/-- R263: Queues a converting store of bank rows to the local store. -/
def execMst (x : BitVec 3) (b : BitVec 5) (a : BitVec 2) (d : BitVec 5) (s : State) : Out :=
  engine (.long (5#5 ++ x ++ b ++ 0#3 ++ a ++ 0#2 ++ d ++ 83#7)) [d.toNat, b.toNat] [x.toNat] (fun k s0 => do
    let (p, s) := s0.readS d.toNat
    let (q, s) := s.readS b.toNat
    let e := s0.th.ereg x.toNat
    let m := bits e.toNat 9 7 + 1
    let len := (bits e.toNat 23 5 + 1) * codeBytes (bits e.toNat 2 4)
    if mstBad e p q then throw k.operand
    else
      match rowPast p.toNat q.toNat len m, s0.co.rowRefused p.toNat q.toNat len m with
      | some r, _ => throw (rangeAt r)
      | none, some r => throw (protectAt r)
      | none, none =>
        s0.rndGood (bits e.toNat 6 3)
        let mode := s0.th.modeOf (bits e.toNat 6 3)
        s0.submit s { s0.mkOp k 0 with rd := p, rb := q, x0 := e, rm := mode } (decide (mode = 5)) false) s

/-- R262: Queues a raw load of bank rows from the local store. -/
def execMld (x : BitVec 3) (b : BitVec 5) (a : BitVec 5) (d : BitVec 2) (s : State) : Out :=
  engine (.long (6#5 ++ x ++ b ++ a ++ 0#5 ++ d ++ 83#7)) [a.toNat, b.toNat] [x.toNat] (fun k s0 => do
    let (p, s) := s0.readS a.toNat
    let (q, s) := s.readS b.toNat
    let e := s0.th.ereg x.toNat
    if !onlyRows e || rowsPass (bankRows e) || decide (p.toNat % 16 ≠ 0) || decide (q.toNat % 16 ≠ 0) then throw k.operand
    else
      match rowPast p.toNat q.toNat 128 (bankRows e).1 with
      | some r => throw (rangeAt r)
      | none => s0.submit s { s0.mkOp k 0 with ra := p, rb := q, x0 := e } false false) s

/-- R262: Queues per-column scaling of bank rows. -/
def execMscl (x : BitVec 3) (a : BitVec 5) (d : BitVec 2) (s : State) : Out :=
  engine (.long (7#5 ++ x ++ 0#5 ++ a ++ 0#5 ++ d ++ 83#7)) [a.toNat] [x.toNat] (fun k s0 => do
    let (p, s) := s0.readS a.toNat
    let e := s0.th.ereg x.toNat
    if !onlyRows e || rowsPass (bankRows e) || decide (p.toNat % 16 ≠ 0) then throw k.operand
    else if pastLocal p.toNat 128 then throw (rangeAt p.toNat)
    else s0.submit s { s0.mkOp k 0 with ra := p, x0 := e } false false) s

/-- R262: Queues per-column bias addition to bank rows. -/
def execMbias (x : BitVec 3) (a : BitVec 5) (d : BitVec 2) (s : State) : Out :=
  engine (.long (8#5 ++ x ++ 0#5 ++ a ++ 0#5 ++ d ++ 83#7)) [a.toNat] [x.toNat] (fun k s0 => do
    let (p, s) := s0.readS a.toNat
    let e := s0.th.ereg x.toNat
    if !onlyRows e || rowsPass (bankRows e) || decide (p.toNat % 16 ≠ 0) then throw k.operand
    else if pastLocal p.toNat 128 then throw (rangeAt p.toNat)
    else s0.submit s { s0.mkOp k 0 with ra := p, x0 := e } false false) s

/-- R262: Queues a bank-to-bank copy. -/
def execMmv (a : BitVec 2) (d : BitVec 2) (s : State) : Out :=
  engine (.long (18432#16 ++ a ++ 0#5 ++ d ++ 83#7)) [] [] (fun k s0 => s0.submit s0 (s0.mkOp k 0) false false) s

end Sys2Proof.Machine
end

