-- ==== Sys2Proof/Machine/Copy.lean ====
section
/-!
DEFINITION. The copy engine: major 21 (R111, R112, R130, R133, R158, R265 to R269, R396, R408, R416 to R421). A submission checks its operands;
an operation is performed in `cq` order, or stops at a page or a piece that is refused and is handed back.
-/

namespace Sys2Proof.Machine

open Sys2Proof

/-! ## What an operation moves -/

/-- One side of a transfer: the own local store, device memory, a physical window address, or the weight store (R112, R266, R267). -/
inductive Side where
  | here (a : Nat)
  | device (va : Word)
  | window (pa : Nat)
  | weight (w : Nat)
  deriving DecidableEq, Repr

/-- An address of a side, as records show it. -/
def Side.addr (x : Side) (j : Nat) : Nat :=
  match x with
  | .here a => a + j
  | .device va => (va + BitVec.ofNat 64 j).toNat
  | .window pa => pa + j
  | .weight w => w + j

/-- A part of a transfer: its operation offset, and the two sides with their lengths and the bytes of a unit on each. -/
structure Part where
  off : Nat
  src : Option Side
  slen : Nat
  sunit : Nat
  dst : Side
  dlen : Nat
  dunit : Nat
  deriving DecidableEq, Repr

/-- FN 4's mode bit, and the space bits of M (R266). -/
def EngOp.m0 (o : EngOp) : Bool := o.word.getLsbD 12
def EngOp.m1 (o : EngOp) : Bool := o.word.getLsbD 13

/-- A side from a register and its space bit. -/
def sideOf (here : Bool) (a : Word) : Side := if here then .here a.toNat else .device a

/-- A plain part. -/
def plainPart (off : Nat) (src : Option Side) (dst : Side) (n : Nat) : Part :=
  { off := off, src := src, slen := if src.isSome then n else 0, sunit := 1, dst := dst, dlen := n, dunit := 1 }

/-- Fields of the extension of `cpy2d`. -/
def rowLen (x : Word) : Nat := bits x.toNat 0 24
def srcStride (x : Word) : Nat := bits x.toNat 24 20
def dstStride (x : Word) : Nat := bits x.toNat 44 20

/-- Fields of DPAT (R111). -/
def patBlk (d : Word) : Nat := bits d.toNat 0 11
def patStr (d : Word) : Nat := bits d.toNat 11 13
def patNcm (d : Word) : Nat := bits d.toNat 24 8
def patList (d : Word) : Nat := bits d.toNat 32 19

/-- The blocks of a deal: number, size, place in the list, local address (R112). -/
def dealBlocks (pat : Word) (d len : Nat) : List (Nat × Nat × Nat × Nat) :=
  let blk := 64 * patBlk pat
  let round := patNcm pat + 1
  (List.range ((len + blk - 1) / blk)).map (fun j => (j, min blk (len - blk * j), j % round, d + j / round * 64 * patStr pat))

/-- Bytes of an element of `cpyc` formats SF and DF. -/
def cpycSizes (x : Word) : Nat × Nat := (codeBits (bits x.toNat 0 4) / 8, codeBits (bits x.toNat 4 4) / 8)

/-- The parts of an operation that moves known bytes, in ascending operation offset. -/
def State.parts (s : State) (o : EngOp) : List Part :=
  let len := o.rb.toNat
  match o.fn with
  | 0 => [plainPart 0 (some (sideOf o.m0 o.ra)) (sideOf o.m1 o.rd) len]
  | 1 => (List.range len).map (fun r => plainPart (r * rowLen o.x0)
      (some (sideOf o.m0 (o.ra + BitVec.ofNat 64 (r * srcStride o.x0)))) (sideOf o.m1 (o.rd + BitVec.ofNat 64 (r * dstStride o.x0)))
      (rowLen o.x0))
  | 2 => (dealBlocks o.desc o.rd.toNat len).map (fun b => plainPart (64 * patBlk o.desc * b.1)
      (some (.device (o.ra + BitVec.ofNat 64 (64 * patBlk o.desc * b.1))))
      (.window (s.scarab.pidx * 2 ^ 40 + 0x8000000000 + o.list.getD b.2.2.1 0 * 0x80000 + b.2.2.2)) b.2.1)
  | 3 => (List.range (bits o.x0.toNat 0 5 + 1)).map (fun j =>
      let cb := bits o.x0.toNat 10 7
      plainPart (j * cb) (some (.here (o.ra.toNat + j * cb))) (.weight (j * bits o.x0.toNat 5 5 * 0xC000 + o.rd.toNat)) cb)
  | 5 =>
    let z := cpycSizes o.x0
    [{ off := 0, src := some (sideOf (o.x0.getLsbD 11) o.ra), slen := len * z.1, sunit := z.1
       dst := sideOf (o.x0.getLsbD 12) o.rd, dlen := len * z.2, dunit := z.2 }]
  | 6 => [plainPart 0 none (sideOf o.m1 o.rd) len]
  | _ => []

/-- Two ranges share a byte. -/
def rangesMeet (a n b k : Nat) : Bool := decide (0 < n ∧ 0 < k ∧ a < b + k ∧ b < a + n)

/-! ## Translating and checking (R252, R417) -/

/-- A stretch of a part's side within one page, with its physical address once it is known. -/
structure Stretch where
  part : Nat
  wr : Bool
  delta : Nat
  unit : Nat
  va : Option Word
  pa : Nat
  size : Nat
  /-- it lies in another package -/
  far : Bool := false
  deriving DecidableEq, Repr

/-- A stretch at its physical address, seen from package d. -/
def Stretch.placed (g : Stretch) (d pa : Nat) : Stretch := { g with pa := pa, far := decide (pa / 2 ^ 40 % 256 ≠ d) }

/-- The operation offset of a byte of a stretch. -/
def Stretch.offAt (g : Stretch) (j : Nat) : Nat := g.part + (g.delta + j) / g.unit

/-- The places where an access crosses into a new page. -/
def pageSplit : Nat → Word → Nat → Nat → List (Nat × Nat)
  | 0, _, _, _ => []
  | fuel + 1, va, delta, n =>
    if n = 0 then []
    else
      let k := min n (0x10000 - (va.extractLsb' 0 16).toNat)
      (delta, k) :: pageSplit fuel (va + BitVec.ofNat 64 k) (delta + k) (n - k)

/-- The stretches of one side. -/
def stretches (part : Nat) (wr : Bool) (unit : Nat) (x : Side) (n : Nat) : List Stretch :=
  match x with
  | .here _ => []
  | .weight _ => []
  | .window pa => if n = 0 then [] else [{ part := part, wr := wr, delta := 0, unit := unit, va := none, pa := pa, size := n }]
  | .device va => (pageSplit (n / 0x10000 + 2) va 0 n).map (fun p =>
      { part := part, wr := wr, delta := p.1, unit := unit, va := some (va + BitVec.ofNat 64 p.1), pa := 0, size := p.2 })

/-- Put a stretch into a list by operation offset, after its equals. -/
def putStretch (g : Stretch) : List Stretch → List Stretch
  | [] => [g]
  | x :: t => if x.offAt 0 ≤ g.offAt 0 then x :: putStretch g t else g :: x :: t

/-- The stretches of a list of parts in ascending operation offset, a source before a destination. -/
def allStretches (ps : List Part) : List Stretch :=
  (ps.flatMap (fun p =>
    (match p.src with | some x => stretches p.off false p.sunit x p.slen | none => []) ++ stretches p.off true p.dunit p.dst p.dlen)).foldl
    (fun l g => putStretch g l) []

/-- Where an operation stops: the offset, the record's KIND, and the trap's code and value (R417). -/
structure Halt where
  at_ : Nat
  kind : Nat
  code : Nat
  val : Word
  deriving DecidableEq, Repr

/-- The first refused piece of a stretch. -/
def State.stretchRefused (s : State) (n master : Nat) (g : Stretch) : Option Halt :=
  (pieces g.size g.pa g.size).findSome? (fun p =>
    match s.pieceRefused n master p.1 p.2 (b2n g.wr) with
    | none => none
    | some why => some { at_ := g.offAt (p.1 - g.pa), kind := 2, code := 14, val := mapVal p.1 why (b2n g.wr) true })

/-- The earlier of two stops. -/
def Halt.first (a : Option Halt) (b : Option Halt) : Option Halt :=
  match a, b with
  | some x, some y => if y.at_ < x.at_ then some y else some x
  | some x, none => some x
  | none, y => y

/-- Translate and check stretches in ascending offset, until one fails; a page that a walk must find, or a path that is not up, makes the
operation wait (R116, R432, R440).
Answers the first stop and the stretches with their physical addresses. -/
def State.scan (s : State) (n : Nat) (o : EngOp) : List Stretch → Option Halt → Except State (Option Halt × List Stretch × State)
  | [], h => .ok (h, [], s)
  | g :: t, h =>
    if (match h with | some x => decide (x.at_ ≤ g.offAt 0) | none => false) then .ok (h, [], s)
    else
      match g.va with
      | none =>
        if s.pathHeld o.late g.pa then .error s
        else match s.scan n o t (Halt.first h (s.stretchRefused n o.master g)) with
        | .ok (h, gs, s) => .ok (h, g :: gs, s)
        | .error s => .error s
      | some va =>
        match s.translate n (16 + o.queue) o.priv o.walk va (b2n g.wr) with
        | .miss s => .error s
        | .fault why s => .ok (some { at_ := g.offAt 0, kind := 1, code := 15, val := xlatVal va (b2n g.wr) why }, [], s)
        | .ok pa _ s =>
          let g := g.placed s.scarab.pidx pa
          if s.pathHeld o.late pa then .error s
          else match s.scan n o t (Halt.first h (s.stretchRefused n o.master g)) with
          | .ok (h, gs, s) => .ok (h, g :: gs, s)
          | .error s => .error s

/-! ## Moving bytes -/

/-- A piece of one side of a part: its place in the part, its address at the port, its size (R130). -/
structure Piece where
  delta : Nat
  at_ : Nat
  size : Nat
  deriving DecidableEq, Repr

/-- The aligned pieces of n bytes at a that cross the fabric, none longer than its flit payload of 256 bytes, ascending (R23, R130). -/
def fabricPieces : Nat → Nat → Nat → List (Nat × Nat)
  | 0, _, _ => []
  | fuel + 1, a, n =>
    if n = 0 then []
    else
      let z := ([256, 128, 64, 32, 16, 8, 4, 2].find? (fun z => decide (a % z = 0 ∧ z ≤ n))).getD 1
      (a, z) :: fabricPieces fuel (a + z) (n - z)

/-- The pieces of the first n bytes of a side, in ascending order (R130). -/
def Side.pieces (x : Side) (gs : List Stretch) (n : Nat) : List Piece :=
  let own (a : Nat) : List Piece := (Machine.pieces n a n).map (fun p => { delta := p.1 - a, at_ := p.1, size := p.2 })
  match x with
  | .here a => own a
  | .weight w => own w
  | _ => (gs.filter (fun g => decide (g.delta < n))).flatMap (fun g =>
      let z := min g.size (n - g.delta)
      (if g.far then fabricPieces z g.pa z else Machine.pieces z g.pa z).map (fun p => { delta := g.delta + (p.1 - g.pa), at_ := p.1, size := p.2 }))

/-- Read a piece at its port, with its poison. -/
def State.readPiece (s : State) (n : Nat) (o : EngOp) (x : Side) (p : Piece) : List (Byte × Bool) × State :=
  match x with
  | .here _ => (marked (s.core n).lsBad p.at_ (s.lsSeen n p.at_ p.size), (s.logPort n p.at_ p.size 3 (s.opSource n o)).bump)
  | .weight _ => ([], s)
  | _ =>
    match s.decodePa p.at_ p.size 0 with
    | .error _ => ([], s)
    | .ok t => s.portRead t p.at_ p.size 3 (s.opSource n o)

/-- Write a piece at its port; none when the port holds it back. -/
def State.writePiece (s : State) (n : Nat) (o : EngOp) (x : Side) (p : Piece) (bs : List (Byte × Bool)) : Option State :=
  match x with
  | .here _ => some (s.engWrite n o p.at_ (bs.map (·.1)) ((badGranules p.at_ bs).map (fun g => p.at_ / 8 + g)))
  | .weight _ =>
    let c := s.core n
    some (s.setCore n { c with ws := memWrite p.at_ (bs.map (·.1)) c.ws
                               wsBad := addBad (clearBad c.wsBad p.at_ bs.length) ((badGranules p.at_ bs).map (fun g => p.at_ / 8 + g)) })
  | _ =>
    match s.decodePa p.at_ p.size 1 with
    | .error _ => some s
    | .ok t =>
      match s.portWrite t o.master p.at_ (bs.map (fun b => some b.1)) (badGranules p.at_ bs) 2 (s.opSource n o) with
      | .done s => some s
      | _ => none

/-- The first n bytes of a side, with their poison; pieces read earlier stand as they were read (R131). -/
def State.readSide (s : State) (n : Nat) (o : EngOp) (off : Nat) (x : Side) (gs : List Stretch) (len : Nat) :
    List (Byte × Bool) × State :=
  (x.pieces gs len).foldl (fun acc p =>
    match o.early off p.delta with
    | some bs => (acc.1 ++ bs.take p.size, acc.2)
    | none => let (bs, s) := acc.2.readPiece n o x p; (acc.1 ++ bs, s)) ([], s)

/-- Write bytes with their poison to a side, except what was written earlier; none when a port holds a piece back. -/
def State.writeSide (s : State) (n : Nat) (o : EngOp) (off : Nat) (x : Side) (gs : List Stretch) (bs : List (Byte × Bool)) :
    Option State :=
  (x.pieces gs bs.length).foldl (fun acc p =>
    match acc with
    | none => none
    | some s => if o.wrote.contains (off, p.delta) then some s else s.writePiece n o x p ((bs.drop p.delta).take p.size)) (some s)

/-- One element that `cpyc` converts (R153, R269); poisoned input gives the NaN, or the bytes with poison (R408). -/
def cpycElem (sf df mode r v : Nat) (bad : Bool) : Nat × BitVec 6 × Bool :=
  let w := codeBits df
  let x : FRes := match codeFmt sf, codeFmt df with
    | some a, some b => a.convert b mode r v
    | some a, none => a.toInt mode r w true v
    | none, some b => b.ofInt mode r (sgn (codeBits sf) v)
    | none, none => (wrapN w (satInt w true (sgn (codeBits sf) v)), 0)
  if bad then (match codeFmt df with | some b => (b.nanCode, 0, false) | none => (x.1, 0, true)) else (x.1, x.2, false)

/-- The destination bytes of a part, with their poison, the flags, and the first unit that poison reached. -/
def partBytes (o : EngOp) (p : Part) (len : Nat) (src : List (Byte × Bool)) : List (Byte × Bool) × BitVec 6 × Option Nat :=
  match o.fn with
  | 5 =>
    let sf := bits o.x0.toNat 0 4
    let df := bits o.x0.toNat 4 4
    let es := (List.range (len / p.dunit)).map (fun i =>
      let e := (src.drop (i * p.sunit)).take p.sunit
      let bad := e.any (fun b => b.2)
      (cpycElem sf df o.rm (srBits o.sr i) (leNat (e.map (·.1))) bad, bad))
    (es.flatMap (fun e => (leBytes p.dunit e.1.1).map (fun b => (b, e.1.2.2))), es.foldl (fun f e => f ||| e.1.2.1) 0,
      es.findIdx? (fun e => e.2))
  | 6 => ((List.range len).map (fun i => (o.ra.extractLsb' (8 * (i % 8)) 8, false)), 0, none)
  | _ => (src, 0, src.findIdx? (fun b => b.2))

/-- Move the first `take` units of a part. -/
def State.movePart (s : State) (n : Nat) (o : EngOp) (gs : List Stretch) (p : Part) (take : Nat) :
    Option (State × BitVec 6 × Option (Nat × Nat)) :=
  let mine := gs.filter (fun g => decide (g.part = p.off))
  let slen := min p.slen (take * p.sunit)
  let dlen := min p.dlen (take * p.dunit)
  let (src, s) := match p.src with
    | some x => s.readSide n o p.off x (mine.filter (fun g => !g.wr)) slen
    | none => ([], s)
  let (bs, f, bad) := partBytes o p dlen src
  match s.writeSide n o p.off p.dst (mine.filter (fun g => g.wr)) bs with
  | none => none
  | some s => some (s, f, bad.map (fun i => ((match p.src with | some x => x.addr (i * p.sunit) | none => 0), p.dst.addr (i * p.dunit))))

/-- Move the parts of an operation below an operation offset. -/
def State.moveParts (s : State) (n : Nat) (o : EngOp) (gs : List Stretch) (stop : Option Nat) :
    List Part → Option (State × BitVec 6 × Option (Nat × Nat))
  | [] => some (s, 0, none)
  | p :: t =>
    match (match stop with
           | some e => if p.off < e then s.movePart n o gs p (e - p.off) else some (s, 0, none)
           | none => s.movePart n o gs p (max p.slen p.dlen)) with
    | none => none
    | some (s, f, bad) =>
      match s.moveParts n o gs stop t with
      | none => none
      | some (s, g, bad2) => some (s, f ||| g, firstPoison bad bad2)

/-! ## Remainders (R418) -/

/-- The offset up to which a stopped operation is performed, and its remainder. -/
def EngOp.remainder (o : EngOp) (h : Halt) : Nat × Remainder :=
  let p := h.at_
  let whole : Remainder := { kind := h.kind, ha := o.ra, hb := o.rb, hd := o.rd, hx0 := o.x0, hx1 := o.x1, done := 0 }
  let plus (x : Word) (k : Nat) : Word := x + BitVec.ofNat 64 k
  match o.fn with
  | 0 => (p, { whole with hd := plus o.rd p, ha := plus o.ra p, hb := BitVec.ofNat 64 (o.rb.toNat - p), done := p })
  | 1 =>
    let r := p / rowLen o.x0
    (r * rowLen o.x0, { whole with hd := plus o.rd (r * dstStride o.x0), ha := plus o.ra (r * srcStride o.x0)
                                   hb := BitVec.ofNat 64 (o.rb.toNat - r), done := r })
  | 2 =>
    let blk := 64 * patBlk o.desc
    let round := patNcm o.desc + 1
    let j := p / blk / round * round
    (j * blk, { whole with ha := plus o.ra (blk * j), hd := plus o.rd (j / round * 64 * patStr o.desc)
                           hb := BitVec.ofNat 64 (o.rb.toNat - blk * j), hx0 := o.desc, done := j })
  | 5 =>
    let e := p / 4 * 4
    let z := cpycSizes o.x0
    (e, { whole with hd := plus o.rd (e * z.2), ha := plus o.ra (e * z.1), hb := BitVec.ofNat 64 (o.rb.toNat - e)
                     hx0 := BitVec.ofNat 64 (setBits o.x0.toNat 8 3 o.rm), hx1 := srsAfter (e / 4) o.sr, done := e })
  | 6 => (p, { whole with hd := plus o.rd p, ha := o.ra.rotateRight (8 * (p % 8)), hb := BitVec.ofNat 64 (o.rb.toNat - p), done := p })
  | _ => (0, whole)

/-! ## Decompression (R268, R421) -/

/-- How decoding ended. -/
structure Inflated where
  /-- output bytes, last one first -/
  out : List Byte
  /-- bytes of output -/
  len : Nat
  status : Nat
  /-- the input given ran out before the input's end -/
  short : Bool
  deriving DecidableEq, Repr

/-- What reading a length extension gives: the sum and the rest, or the status at which it ended; 5 stands for input that was not given. -/
def readExt (whole : Bool) : Nat → List (Byte × Bool) → Except Nat (Nat × List (Byte × Bool))
  | _, [] => .error (if whole then 1 else 5)
  | l, (b, bad) :: t => if bad then .error 4 else if b = 255 then readExt whole (l + 255) t else .ok (l + b.toNat, t)

/-- Copy literals to the output. -/
def putLiterals (cap : Nat) (whole : Bool) : Nat → List (Byte × Bool) → Inflated → Inflated × List (Byte × Bool)
  | 0, t, r => (r, t)
  | _ + 1, [], r => ({ r with status := if whole then 1 else 0, short := !whole }, [])
  | k + 1, (b, bad) :: t, r =>
    if bad then ({ r with status := 4 }, t)
    else if cap ≤ r.len then ({ r with status := 2 }, t)
    else putLiterals cap whole k t { r with out := b :: r.out, len := r.len + 1 }

/-- Copy a match to the output, byte by byte. -/
def putMatch (cap off : Nat) : Nat → Inflated → Inflated
  | 0, r => r
  | k + 1, r =>
    if cap ≤ r.len then { r with status := 2 }
    else putMatch cap off k { r with out := r.out.getD (off - 1) 0 :: r.out, len := r.len + 1 }

/-- End with a status, or as short of input. -/
def Inflated.stop (r : Inflated) (st : Nat) : Inflated := if st = 5 then { r with short := true } else { r with status := st }

/-- Decode an LZ4 block, sequence by sequence; `whole` says that the list is the whole input. -/
def lz4 (cap : Nat) (whole : Bool) : Nat → List (Byte × Bool) → Inflated → Inflated
  | 0, _, r => r
  | _ + 1, [], r => if whole then r else { r with short := true }
  | fuel + 1, (tok, bad) :: t, r =>
    if bad then { r with status := 4 }
    else
      match (if tok.toNat / 16 = 15 then readExt whole 15 t else .ok (tok.toNat / 16, t)) with
      | .error st => r.stop st
      | .ok (l, t) =>
        match putLiterals cap whole l t r with
        | (r, t) =>
          if r.status ≠ 0 ∨ r.short = true then r
          else
            match t with
            | [] => if whole then r else { r with short := true }
            | [(_, b)] => r.stop (if b then 4 else if whole then 1 else 5)
            | (x, b) :: (y, c) :: t =>
              if b || c then { r with status := 4 }
              else
                let off := x.toNat + 256 * y.toNat
                match (if tok.toNat % 16 = 15 then readExt whole 15 t else .ok (tok.toNat % 16, t)) with
                | .error st => r.stop st
                | .ok (m, t) =>
                  if off = 0 ∨ r.len < off then { r with status := 1 }
                  else
                    let r := putMatch cap off (m + 4) r
                    if r.status ≠ 0 then r else lz4 cap whole fuel t r

/-- Stored data, copied unchanged. -/
def stored (cap : Nat) (whole : Bool) (bs : List (Byte × Bool)) : Inflated :=
  let (r, _) := putLiterals cap whole bs.length bs { out := [], len := 0, status := 0, short := false }
  if r.status = 0 && !whole then { r with short := true } else r

/-- One bit of the reflected CRC-32C. -/
def crcBit (c : BitVec 32) : BitVec 32 := if c.getLsbD 0 then (c >>> 1) ^^^ 0x82F63B78#32 else c >>> 1

/-- CRC-32C of a byte string (R268). -/
def crc32c (bs : List Byte) : BitVec 32 :=
  ~~~(bs.foldl (fun c b => (List.range 8).foldl (fun c _ => crcBit c) (c ^^^ b.zeroExtend 32)) (0xFFFFFFFF#32))

/-- The extension fields of `cpyz` (R268). -/
def zCap (x : Word) : Nat := bits x.toNat 0 32
def zStat (x : Word) : Nat := bits x.toNat 32 19

/-- The status record's 16 bytes (R268). -/
def EngOp.statusRecord (o : EngOp) (out : List Byte) (status : Nat) : List Byte :=
  let crc := crc32c out
  let st := if status = 0 ∧ o.x0.getLsbD 51 = true ∧ crc ≠ o.x1.extractLsb' 0 32 then 3 else status
  leBytes 4 out.length ++ leBytes 4 crc.toNat ++ leBytes 1 st ++ leBytes 7 0

/-! ## Performing -/

/-- How an attempt to perform an operation ends. -/
inductive Perform where
  /-- it waits: for a walk it asked for, or for a port -/
  | wait (s : State)
  /-- performed, with its flags -/
  | done (s : State) (f : BitVec 6)
  /-- stopped: what was performed, its flags, and the remainder (R417) -/
  | back (s : State) (f : BitVec 6) (r : Remainder) (code : Nat) (val : Word)
  deriving DecidableEq, Repr

/-- What decoding the input of a `cpyz` gives; `whole` says that all of it is there. -/
def EngOp.inflate (o : EngOp) (whole : Bool) (bs : List (Byte × Bool)) : Inflated :=
  let r := if o.m0 then stored (zCap o.x0) whole bs
    else lz4 (zCap o.x0) whole (bs.length + 1) bs { out := [], len := 0, status := 0, short := false }
  if o.rb.toNat = 0 then { r with status := 0, short := false } else r

/-- Perform `cpyz`: decode the source, write the output, then the status record. -/
def State.performCpyz (s : State) (n : Nat) (o : EngOp) : Perform :=
  let len := o.rb.toNat
  let src := sideOf (o.x0.getLsbD 53) o.ra
  let dst := sideOf (o.x0.getLsbD 52) o.rd
  match s.scan n o (stretches 0 false 1 src len) none with
  | .error s => .wait s
  | .ok (h, gs, s1) =>
    let have_ := match h with | some x => x.at_ | none => len
    let whole := decide (have_ = len)
    let (bs, s2) := s1.readSide n o 0 src gs have_
    let r := o.inflate whole bs
    match (if r.short then h else none) with
    | some x => .back s1 0 (o.remainder x).2 x.code x.val
    | none =>
      let out := r.out.reverse
      match s2.scan n o (stretches 0 true 1 dst out.length) none with
      | .error s => .wait s
      | .ok (some x, _, s) => .back s 0 (o.remainder x).2 x.code x.val
      | .ok (none, gs, s3) =>
        match s3.writeSide n o 0 dst gs (out.map (fun b => (b, false))) with
        | none => .wait s
        | some s4 => .done (s4.engWrite n o (zStat o.x0) (o.statusRecord out r.status) []) 0

/-- Perform an operation of `cq`, or stop it. -/
def State.performCopy (s : State) (n : Nat) (o : EngOp) : Perform :=
  if o.fn = 4 then s.performCpyz n o
  else
    let ps := s.parts o
    match s.scan n o (allStretches ps) none with
    | .error s => .wait s
    | .ok (h, gs, s1) =>
      match h with
      | none =>
        match s1.moveParts n o gs none ps with
        | none => .wait s
        | some (s, f, bad) => .done (s.poisonRecord n o bad) f
      | some x =>
        let (stop, r) := o.remainder x
        match s1.moveParts n o gs (some stop) ps with
        | none => .wait s
        | some (s, f, bad) => .back (s.poisonRecord n o bad) f r x.code x.val

/-! ## Before its turn (R130, R131; log entry 32) -/

/-- What a copy would move now: where it stops, the stretches, the parts, and the state after translating. The output of a `cpyz` is known
once all its input was read. -/
def State.earlyParts (s : State) (n : Nat) (o : EngOp) : Except State (Option Halt × List Stretch × List Part × State) :=
  if o.fn = 4 then
    let len := o.rb.toNat
    let src := sideOf (o.x0.getLsbD 53) o.ra
    let dst := sideOf (o.x0.getLsbD 52) o.rd
    match s.scan n o (stretches 0 false 1 src len) none with
    | .error s => .error s
    | .ok (h, gs, s1) =>
      if h.isSome || (src.pieces gs len).any (fun p => (o.early 0 p.delta).isNone) then
        .ok (h, gs, [{ plainPart 0 (some src) dst len with dlen := 0 }], s1)
      else
        let out := (o.inflate true (s1.readSide n o 0 src gs len).1).out
        match s1.scan n o (stretches 0 true 1 dst out.length) none with
        | .error s => .error s
        | .ok (h, gs2, s2) => .ok (h, gs ++ gs2, [{ plainPart 0 (some src) dst len with dlen := out.length }], s2)
  else
    let ps := s.parts o
    match s.scan n o (allStretches ps) none with
    | .error s => .error s
    | .ok (h, gs, s1) => .ok (h, gs, ps, s1)

/-- The pieces of one side of all parts that lie before a stop, each with its part, in the stated order. -/
def allPieces (wr : Bool) (gs : List Stretch) (h : Option Halt) (ps : List Part) : List (Part × Piece) :=
  ps.flatMap (fun p =>
    let mine := gs.filter (fun g => decide (g.part = p.off) && (g.wr == wr))
    let own := if wr then p.dst.pieces mine p.dlen else match p.src with | some x => x.pieces mine p.slen | none => []
    (own.filter (fun q => match h with
      | some x => decide (p.off + q.delta / (if wr then p.dunit else p.sunit) < x.at_)
      | none => true)).map (fun q => (p, q)))

/-- Two pieces of a side are of one source, or one target, of the mesh of package d: they arrive in ascending order (R130). -/
def meshOrdered (d : Nat) (x y : Side) (p q : Piece) : Bool :=
  match x, y with
  | .here _, _ => false
  | .weight _, _ => false
  | _, .here _ => false
  | _, .weight _ => false
  | _, _ => decide (p.at_ / 2 ^ 40 % 256 = d) && (portKey p.at_).isSome && decide (portKey p.at_ = portKey q.at_)

/-- A piece of a side whose payload is poisoned on its way, as a structure's code reports; code 0 stands for none (R405, R432, R439). -/
def State.pieceLost (s : State) (n code : Nat) (x : Side) (q : Piece) : Bool :=
  match x with
  | .here _ => false
  | .weight _ => false
  | _ => s.crosses n code q.at_

/-- The bytes of a piece as they arrive, and the kind 17 record of a poisoned payload, which names the submitter (R405, R429). -/
def State.arrived (s : State) (n : Nat) (o : EngOp) (code at_ : Nat) (bs : List (Byte × Bool)) : List (Byte × Bool) × State :=
  if code = 0 then (bs, s)
  else (bs.map (fun b => (b.1, true)), s.record (clusterOf n) (s.opRec n o 17 code (BitVec.ofNat 64 (at_ % 2 ^ 48)) 2))

/-- Read a source piece before the operation's turn: the pieces of its source below it have been read (R130, R131). -/
def State.copyRead (s : State) (n : Nat) (o : EngOp) (off delta code : Nat) : State :=
  match s.earlyParts n o with
  | .error s' => s'
  | .ok (h, gs, ps, s1) =>
    let all := allPieces false gs h ps
    match all.find? (fun x => decide (x.1.off = off ∧ x.2.delta = delta)) with
    | some (p, q) =>
      match p.src with
      | none => s
      | some x =>
        let before (y : Part × Piece) : Bool := (y.1.src.any (fun z => meshOrdered s.scarab.pidx x z q y.2)) && decide (y.2.at_ < q.at_)
        if (o.early off delta).isSome || (decide (code ≠ 0) && !s1.pieceLost n code x q) || all.any (fun y => before y && (o.early y.1.off y.2.delta).isNone) then s
        else
          let (bs, s2) := s1.readPiece n o x q
          let (bs, s2) := s2.arrived n o code q.at_ bs
          s2.setCore n ((s2.core n).setOp { o with got := o.got ++ [(off, delta, bs)] })
    | none => s

/-- The source bytes of a part that were read; others stand as 0. -/
def EngOp.readSoFar (o : EngOp) (gs : List Stretch) (p : Part) : List (Byte × Bool) :=
  match p.src with
  | none => []
  | some x => (x.pieces (gs.filter (fun g => decide (g.part = p.off) && !g.wr)) p.slen).flatMap (fun q =>
      ((o.early p.off q.delta).getD (List.replicate q.size (0, false))).take q.size)

/-- All the source bytes that a destination piece takes were read. -/
def EngOp.hasSource (o : EngOp) (gs : List Stretch) (p : Part) (q : Piece) : Bool :=
  match p.src with
  | none => true
  | some x =>
    let lo := if o.fn = 4 then 0 else q.delta / p.dunit * p.sunit
    let hi := if o.fn = 4 then p.slen else ((q.delta + q.size - 1) / p.dunit + 1) * p.sunit
    (x.pieces (gs.filter (fun g => decide (g.part = p.off) && !g.wr)) p.slen).all (fun y =>
      decide (hi ≤ y.delta ∨ y.delta + y.size ≤ lo) || (o.early p.off y.delta).isSome)

/-- Write a destination piece whose source was read, while the operation is the first of its queue: what goes to its target below it, and
what goes to its bytes before it, has been written (R130, R131, R265). -/
def State.copyWrite (s : State) (n : Nat) (o : EngOp) (off delta code : Nat) : State :=
  match s.earlyParts n o with
  | .error s' => s'
  | .ok (h, gs, ps, s1) =>
    let all := allPieces true gs h ps
    let mine (x : Part × Piece) : Bool := decide (x.1.off = off ∧ x.2.delta = delta)
    match all.find? mine with
    | some (p, q) =>
      let open_ (y : Part × Piece) : Bool := !o.wrote.contains (y.1.off, y.2.delta)
      let under (y : Part × Piece) : Bool := meshOrdered s.scarab.pidx p.dst y.1.dst q y.2 && decide (y.2.at_ < q.at_)
      let meets (y : Part × Piece) : Bool := rangesMeet y.2.at_ y.2.size q.at_ q.size
      if o.wrote.contains (off, delta) || (decide (code ≠ 0) && !s1.pieceLost n code p.dst q) || !o.hasSource gs p q || all.any (fun y => under y && open_ y)
          || (all.takeWhile (fun y => !mine y)).any (fun y => meets y && open_ y) then s
      else
        let bs := if o.fn = 4 then (o.inflate true (o.readSoFar gs p)).out.reverse.map (fun b => (b, false))
          else (partBytes o p p.dlen (o.readSoFar gs p)).1
        let (bs, s1) := s1.arrived n o code q.at_ ((bs.drop delta).take q.size)
        match s1.writePiece n o p.dst q bs with
        | none => s
        | some s2 => s2.setCore n ((s2.core n).setOp { o with wrote := o.wrote ++ [(off, delta)] })
    | none => s

/-! ## Submission checks (R265 to R269, R396) -/

/-- A length register with a bit above 31. -/
def longLen (x : Word) : Bool := decide (2 ^ 32 ≤ x.toNat)

/-- Two sides lie in one address space and their ranges meet. -/
def sidesMeet (x : Side) (n : Nat) (y : Side) (k : Nat) : Bool :=
  match x, y with
  | .here a, .here b => rangesMeet a n b k
  | .device a, .device b => rangesMeet a.toNat n b.toNat k
  | _, _ => false

/-- What is wrong with the local side of a range: it passes the local store, or reaches the claimed range as a destination. -/
def State.sideStop (s : State) (x : Side) (n : Nat) (dst : Bool) : Option Stop :=
  match x with
  | .here a =>
    if n = 0 then none
    else if pastLocal a n then some (rangeAt a)
    else if dst then (s.co.refusedAt a n).map protectAt
    else none
  | _ => none

/-- Go on unless a stop was found. -/
def guardStop (x : Option Stop) : Except Stop Unit := match x with | some e => .error e | none => .ok ()

/-- The checks of local sides over all rows. -/
def State.rowsStop (s : State) (ps : List Part) : Option Stop :=
  (ps.findSome? (fun p => match p.src with | some x => s.sideStop x p.slen false | none => none)).orElse fun _ =>
    ps.findSome? (fun p => s.sideStop p.dst p.dlen true)

/-- Entries of the core list of a deal that lie in the local store (R111). -/
def State.dealList (s : State) (pat : Word) : List Nat :=
  ((List.range (patNcm pat + 1)).filter (fun j => !pastLocal (patList pat + 2 * j) 2)).map (fun j =>
    s.lsNum s.cur.1 (patList pat + 2 * j) 2)

/-- A `cpyw` breaks a rule of R267. -/
def cpywBad (x d : Word) : Bool :=
  let v := x.toNat
  decide (v / 2 ^ 17 ≠ 0) || decide (bits v 5 5 = 0) || decide (bits v 10 7 = 0) || decide (96 < bits v 10 7)
    || decide (31 < bits v 0 5 * bits v 5 5) || decide (d.toNat % 64 ≠ 0) || decide (0xC000 < d.toNat + bits v 10 7)

/-- A format that `cpyc` takes (R253). -/
def cpycFormat (c : Nat) : Bool := decide (c ≤ 5 ∨ c = 11 ∨ c = 14)

/-- A `cpyc` breaks a rule of R269. -/
def cpycBad (x b : Word) : Bool :=
  let v := x.toNat
  decide (v / 2 ^ 13 ≠ 0) || longLen b || decide (2 ^ 28 < b.toNat) || !cpycFormat (bits v 0 4) || !cpycFormat (bits v 4 4)
    || decide (bits v 8 3 = 6)

/-- R266: Queues a byte copy between device memory and local store. -/
def execCpy (b : BitVec 5) (a : BitVec 5) (m : BitVec 2) (d : BitVec 5) (s : State) : Out :=
  engine (.long (0#8 ++ b ++ a ++ m ++ d ++ 87#7)) [d.toNat, a.toNat, b.toNat] [] (fun k s0 => do
    let (r, s) := s0.readS d.toNat
    let (p, s) := s.readS a.toNat
    let (q, s) := s.readS b.toNat
    let src := sideOf (m.getLsbD 0) p
    let dst := sideOf (m.getLsbD 1) r
    if longLen q || sidesMeet src q.toNat dst q.toNat then throw k.operand
    guardStop (s0.rowsStop [plainPart 0 (some src) dst q.toNat])
    s0.submit s { s0.mkOp k 1 with ra := p, rb := q, rd := r } false false) s

/-- R266: Queues a two-dimensional strided copy. -/
def execCpy2d (x : BitVec 3) (b : BitVec 5) (a : BitVec 5) (m : BitVec 2) (d : BitVec 5) (s : State) : Out :=
  engine (.long (1#5 ++ x ++ b ++ a ++ m ++ d ++ 87#7)) [d.toNat, a.toNat, b.toNat] [x.toNat] (fun k s0 => do
    let (r, s) := s0.readS d.toNat
    let (p, s) := s.readS a.toNat
    let (q, s) := s.readS b.toNat
    let e := s0.th.ereg x.toNat
    if longLen q || decide (2 ^ 20 < q.toNat) || decide (rowLen e = 0) then throw k.operand
    let o := { s0.mkOp k 1 with ra := p, rb := q, rd := r, x0 := e }
    let ps := s0.parts o
    if ps.any (fun u => ps.any (fun v => match u.src with | some y => sidesMeet y u.slen v.dst v.dlen | none => false))
      then throw k.operand
    guardStop (s0.rowsStop ps)
    s0.submit s o false false) s

/-- R112: Queues a block-cyclic deal to the local stores of listed cores. -/
def execDeal (b : BitVec 5) (a : BitVec 5) (d : BitVec 5) (s : State) : Out :=
  engine (.long (16#8 ++ b ++ a ++ 0#2 ++ d ++ 87#7)) [d.toNat, a.toNat, b.toNat] [] (fun k s0 => do
    let (r, s) := s0.readS d.toNat
    let (p, s) := s.readS a.toNat
    let (q, s) := s.readS b.toNat
    s0.sprsGood [0x017]
    let pat : Word := s0.th.dpat.zeroExtend 64
    if longLen q || decide (patBlk pat = 0) || decide (1024 < patBlk pat) || decide (patList pat % 2 ≠ 0)
      then throw k.operand
    let list := s0.dealList pat
    let blocks := dealBlocks pat r.toNat q.toNat
    if list.any (fun c => decide (0x1000 ≤ c ∨ s0.encnt ≤ c)) || blocks.any (fun x => pastLocal x.2.2.2 x.2.1)
      then throw k.operand
    if pastLocal (patList pat) (2 * (patNcm pat + 1)) then throw (rangeAt (patList pat))
    guardStop (blocks.findSome? (fun x =>
      if list.getD x.2.2.1 0 = s0.co.lcore then (s0.co.refusedAt x.2.2.2 x.2.1).map protectAt else none))
    let s := s.logPort s.cur.1 (patList pat) (2 * (patNcm pat + 1)) 3 s.self
    s0.submit s { s0.mkOp k 1 with ra := p, rb := q, rd := r, desc := pat, list := list } false false) s

/-- R267: Queues a weight-store column fill. -/
def execCpyw (x : BitVec 3) (a : BitVec 5) (d : BitVec 5) (s : State) : Out :=
  engine (.long (3#5 ++ x ++ 0#5 ++ a ++ 0#2 ++ d ++ 87#7)) [d.toNat, a.toNat] [x.toNat] (fun k s0 => do
    let (r, s) := s0.readS d.toNat
    let (p, s) := s.readS a.toNat
    let e := s0.th.ereg x.toNat
    if cpywBad e r then throw k.operand
    guardStop (s0.sideStop (.here p.toNat) ((bits e.toNat 0 5 + 1) * bits e.toNat 10 7) false)
    s0.submit s { s0.mkOp k 1 with ra := p, rd := r, x0 := e } false false) s

/-- R268: Queues an LZ4 decompress or stored copy with CRC check and status record. -/
def execCpyz (x : BitVec 3) (b : BitVec 5) (a : BitVec 5) (m : BitVec 1) (d : BitVec 5) (s : State) : Out :=
  engine (.long (4#5 ++ x ++ b ++ a ++ 0#1 ++ m ++ d ++ 87#7)) [d.toNat, a.toNat, b.toNat] [x.toNat, (x.toNat + 1) % 8] (fun k
    s0 => do
    let (r, s) := s0.readS d.toNat
    let (p, s) := s.readS a.toNat
    let (q, s) := s.readS b.toNat
    let e := s0.th.ereg x.toNat
    let f := s0.th.eregAt x.toNat 1
    if longLen q || decide (zStat e % 16 ≠ 0) || decide (e.toNat / 2 ^ 54 ≠ 0) || decide (2 ^ 32 ≤ f.toNat)
      then throw k.operand
    guardStop (s0.sideStop (sideOf (e.getLsbD 53) p) q.toNat false)
    guardStop (s0.sideStop (sideOf (e.getLsbD 52) r) (zCap e) true)
    guardStop (s0.sideStop (.here (zStat e)) 16 true)
    s0.submit s { s0.mkOp k 1 with ra := p, rb := q, rd := r, x0 := e, x1 := f } false false) s

/-- R269: Queues a converting copy of elements. -/
def execCpyc (x : BitVec 3) (b : BitVec 5) (a : BitVec 5) (d : BitVec 5) (s : State) : Out :=
  engine (.long (5#5 ++ x ++ b ++ a ++ 0#2 ++ d ++ 87#7)) [d.toNat, a.toNat, b.toNat] [x.toNat] (fun k s0 => do
    let (r, s) := s0.readS d.toNat
    let (p, s) := s.readS a.toNat
    let (q, s) := s.readS b.toNat
    let e := s0.th.ereg x.toNat
    if cpycBad e q then throw k.operand
    s0.rndGood (bits e.toNat 8 3)
    let mode := s0.th.modeOf (bits e.toNat 8 3)
    let o := { s0.mkOp k 1 with ra := p, rb := q, rd := r, x0 := e, x1 := s0.th.eregAt x.toNat 1, rm := mode }
    let ps := s0.parts o
    if ps.any (fun u => match u.src with | some y => sidesMeet y u.slen u.dst u.dlen | none => false)
      then throw k.operand
    guardStop (s0.rowsStop ps)
    s0.submit s o (decide (mode = 5)) true) s

/-- R266: Queues a fill of destination bytes with a repeated 8-byte pattern. -/
def execCpyset (b : BitVec 5) (a : BitVec 5) (m : BitVec 1) (d : BitVec 5) (s : State) : Out :=
  engine (.long (48#8 ++ b ++ a ++ m ++ 0#1 ++ d ++ 87#7)) [d.toNat, a.toNat, b.toNat] [] (fun k s0 => do
    let (r, s) := s0.readS d.toNat
    let (p, s) := s.readS a.toNat
    let (q, s) := s.readS b.toNat
    if longLen q then throw k.operand
    guardStop (s0.sideStop (sideOf (m.getLsbD 0) r) q.toNat true)
    s0.submit s { s0.mkOp k 1 with ra := p, rb := q, rd := r } false false) s

end Sys2Proof.Machine
end

