-- ==== Sys2Proof/Machine/Device.lean ====
section
/-!
DEFINITION. Device-memory loads, stores and atomics at issue (R90, R97, R211, R217, R218, R247), shared by the scalar, atomic and
vector forms.
-/

namespace Sys2Proof.Machine

open Sys2Proof

/-- One access of an instruction: virtual address, place in the value, bytes. -/
abbrev Acc := Word × Nat × Nat

/-- The instruction that waited goes on. -/
def Thread.endPhase (t : Thread) : Thread := { t with phase := 0, reply := none, held := [] }

/-- The issuing thread's instruction no longer waits. -/
def State.endPhase (s : State) : State := s.setTh s.th.endPhase

/-- A segment lies in the issuing core's own window (R96). -/
def State.ownWindow (s : State) (g : Seg) : Bool := decide (g.tgt = .window s.cur.1)

/-- The first byte of an access that the own claimed range refuses (R96, R104). -/
def State.ownRefused (s : State) (gs : List Seg) : Option Nat :=
  gs.findSome? (fun g => if s.ownWindow g then s.co.refusedAt (g.pa % 0x80000) g.size else none)

/-- Check accesses in order, each one whole before the next: translation, map, and for a write the own claimed range (R382). -/
def State.checkAll (s : State) (acc : Nat) : List Acc → Except Stop (List (Acc × List Seg) × State)
  | [] => .ok ([], s)
  | a :: t => do
    let (gs, s) ← s.segments a.1 a.2.2 acc
    match (if acc = 0 then none else s.ownRefused gs) with
    | some b => throw (.trapTlb s.co.tlb 12 (BitVec.ofNat 64 b))
    | none =>
      let (r, s) ← s.checkAll acc t
      pure ((a, gs) :: r, s)

/-! ## Loads -/

/-- One line's part of a load through the L1: a hit gives its bytes, a miss asks for the line (R107, R211). The request carries the
bytes that were dirty at issue, which the fetched line does not replace, and the ranges of its element (R393). -/
def State.loadLine (s : State) (l : Load) (word : BitVec 32) (parts : List (Nat × Nat)) (nc : Bool) (va : Word) (base off n place : Nat) :
    Except Stop (Load × State) :=
  let c := s.co
  if c.hit base off n then
    match c.line base with
    | none => .ok (l, s)
    | some x =>
      match ((List.range' off n).find? (fun j => x.bad.getLsbD (j / 8))) with
      | some j => .error (.failRead s s.th.pc (va + BitVec.ofNat 64 (j - off)) 2)
      | none => .ok (l.take place (x.bytes off n), s)
  else
    let dirty := match c.line base with
      | none => List.replicate n none
      | some x => (x.dirtyBytes.drop off).take n
    .ok ({ l with waiting := l.waiting + 1 },
         s.send { s.mkFlight .fill l.id place va base 64 dirty false nc word with parts := parts })

/-- The parts of a load that go through the L1. -/
def State.loadLines (s : State) (l : Load) (word : BitVec 32) (parts : List (Nat × Nat)) (g : Seg) (at0 : Nat) :
    List (Nat × Nat × Nat × Nat) → Except Stop (Load × State)
  | [] => .ok (l, s)
  | (base, off, n, place) :: t => do
    let (l, s) ← s.loadLine l word parts g.nc (g.va + BitVec.ofNat 64 (place - at0)) base off n place
    s.loadLines l word parts g at0 t

/-- One segment of a load: its own port, the L1, or pieces to another port, which know the ranges of their element. -/
def State.loadSeg (s : State) (l : Load) (word : BitVec 32) (parts : List (Nat × Nat)) (g : Seg) (place : Nat) :
    Except Stop (Load × State) :=
  if s.ownWindow g then
    let a := g.pa % 0x80000
    match firstBad s.co.lsBad a g.size with
    | some b => .error (s.poisonRead a g.size 3 b)
    | none => .ok (l.take place (s.lsSeen s.cur.1 a g.size), (s.logPort s.cur.1 a g.size 3 s.self).bump)
  else if g.cached && g.far.isNone then s.loadLines l word parts g place (lineParts 3 g.pa g.size place)
  else
    let nc := g.nc || decide (g.tgt ≠ .dram)
    let ps := pieces g.size g.pa g.size
    .ok ({ l with waiting := l.waiting + ps.length },
         ps.foldl (fun s p => s.send { s.mkFlight .load l.id (place + (p.1 - g.pa)) (g.va + BitVec.ofNat 64 (p.1 - g.pa)) p.1 p.2 []
           false nc word with far := g.far, parts := parts }) s)

/-- The physical ranges of an element. -/
def partsOf (gs : List Seg) : List (Nat × Nat) := gs.map (fun g => (g.pa, g.size))

/-- The segments of one access. -/
def State.loadSegs (s : State) (l : Load) (word : BitVec 32) (parts : List (Nat × Nat)) (place : Nat) :
    List Seg → Except Stop (Load × State)
  | [] => .ok (l, s)
  | g :: t => do
    let (l, s) ← s.loadSeg l word parts g place
    s.loadSegs l word parts (place + g.size) t

/-- All accesses of a load. -/
def State.loadAccs (s : State) (l : Load) (word : BitVec 32) : List (Acc × List Seg) → Except Stop (Load × State)
  | [] => .ok (l, s)
  | (a, gs) :: t => do
    let (l, s) ← s.loadSegs l word (partsOf gs) a.2.1 gs
    s.loadAccs l word t

/-- A load of device memory: the accesses are made, ACC takes every element of a vector load in order, and a scalar value that comes
from no local store (log entry 29); the value is written at once when all its bytes are at hand; else its destination is pending and L
counts it (R34, R90, R211, R247). -/
def State.deviceLoad (s : State) (word : BitVec 32) (accs els : List Acc) (dst : RegName) (ext : LoadExt) (toQueue : Bool) :
    Except Stop State := do
  let (cs, s) ← s.checkAll 0 accs
  let (id, s1) := s.fresh
  let l : Load := { id := id, dst := s.th.abs dst, ext := ext, got := [], waiting := 0, elems := els, acq := false, refused := false
                    dead := false, counted := false, isLoad := true, toQueue := toQueue }
  let (l, s1) ← s1.loadAccs l word cs
  let counts (e : Acc) : Bool := decide (ext = .vector) ||
    (match cs.find? (fun (c : Acc × List Seg) => decide (c.1.2.1 ≤ e.2.1 ∧ e.2.1 < c.1.2.1 + c.1.2.2)) with
     | some (_, g :: _) => (match g.tgt with | .window _ => false | _ => true)
     | _ => true)
  let t := { s1.th with accQ := s1.th.accQ ++ (els.filter counts).map (fun e => (e.1, none, id, e.2.1)) }
  let s1 := s1.setTh t
  if l.waiting = 0 then pure (s1.completeLoad s.cur.1 s.cur.2 l)
  else if 1023 ≤ t.cntL then throw (.stall s)
  else
    let waits := match dst with | .s 0 => false | .s 31 => false | _ => !toQueue
    pure (s1.setTh { t with loads := t.loads ++ [{ l with counted := true }], cntL := t.cntL + 1
                            pend := if waits then t.pend ++ [(t.abs dst, id)] else t.pend })

/-- A queue register as destination: the slot waits for the value, then enqueues it (R212). -/
def State.queueLoad (s : State) (d : Nat) : Except Stop State :=
  match s.th.reply with
  | some _ => .ok (s.writeS d (s.th.held.headD 0)).endPhase
  | none =>
    if s.th.loads.any (fun l => l.toQueue) then .error (.stall (s.setTh { s.th with phase := 1 }))
    else .ok s.endPhase

/-! ## Stores -/

/-- Store the parts of one segment through the L1. -/
def State.storeLines (s : State) (bs : List Byte) : List (Nat × Nat × Nat × Nat) → Option State
  | [] => some s
  | (base, off, n, place) :: t =>
    match s.storeLine s.cur.1 s.cur.2 base off ((bs.drop place).take n) with
    | none => none
    | some s => s.storeLines bs t

/-- One segment of a store; none when a write-back must wait for S. The pieces to another port carry the place of their element and its
physical ranges, since an element is refused whole (R393). -/
def State.storeSeg (s : State) (word : BitVec 32) (id place : Nat) (parts : List (Nat × Nat)) (g : Seg) (bs : List Byte) :
    Except Stop (Option State) :=
  if s.ownWindow g then .ok (some (s.putHere (g.pa % 0x80000) bs))
  else if g.cached && g.far.isNone then .ok (s.storeLines bs (lineParts 3 g.pa g.size 0))
  else
    let nc := g.nc || decide (g.tgt ≠ .dram)
    .ok (some ((pieces g.size g.pa g.size).foldl (fun s p =>
      s.send { s.mkFlight .store id place (g.va + BitVec.ofNat 64 (p.1 - g.pa)) p.1 p.2 (((bs.drop (p.1 - g.pa)).take p.2).map some)
        true nc word with far := g.far, parts := parts }) s))

/-- The segments of a store in ascending order. -/
def State.storeSegs (s : State) (word : BitVec 32) (id place : Nat) (parts : List (Nat × Nat)) (bs : List Byte) :
    List Seg → Except Stop (Option State)
  | [] => .ok (some s)
  | g :: t => do
    match (← s.storeSeg word id place parts g (bs.take g.size)) with
    | none => pure none
    | some s => s.storeSegs word id place parts (bs.drop g.size) t

/-- All accesses of a store, elements in ascending order (R249). -/
def State.storeAccs (s : State) (word : BitVec 32) (id : Nat) (v : List Byte) : List (Acc × List Seg) → Except Stop (Option State)
  | [] => .ok (some s)
  | (a, gs) :: t => do
    match (← s.storeSegs word id a.2.1 (partsOf gs) ((v.drop a.2.1).take a.2.2) gs) with
    | none => pure none
    | some s => s.storeAccs word id v t

/-- A store to device memory (R211, R247): through the L1, at the own port, or sent and counted in S until its last piece is
acknowledged. A discarded one of a reconnaissance pass translates nothing and raises no fault, and one through the own window is discarded
too, into scratch as well: the spec leaves both open, and the model chooses so (R91; log entry 22). -/
def State.deviceStore (s : State) (word : BitVec 32) (accs : List Acc) (v : List Byte) : Except Stop State := do
  if s.th.inRecon then pure s
  else
    let (cs, s) ← s.checkAll 1 accs
    let sends := cs.any (fun c => c.2.any (fun g => !s.ownWindow g && !g.cached))
    if sends && decide (1023 ≤ s.th.cntS) then throw (.stall s)
    else
      let (id, s1) := s.fresh
      let s1 := if sends then s1.setTh { s1.th with cntS := s1.th.cntS + 1 } else s1
      let here := cs.flatMap (fun c => (c.2.filter s.ownWindow).map (fun g => (g.pa % 0x80000, g.size)))
      match (← s1.storeAccs word id v cs) with
      | none => throw (.stall s)
      | some s1 => s1.commitAfter s here

/-- A prefetch: an address of NC = 0 DRAM that translates, after a walk where both TLBs miss, sends a request; one that faults, or that has
another target, does nothing (R115, R213). -/
def State.prefetch (s : State) (word : BitVec 32) (va : Word) (l1 : Bool) : Except Stop State :=
  match s.translate s.cur.1 s.cur.2 s.th.priv s.th.walk va 0 with
  | .miss s' => .error (.stall s')
  | .fault _ _ => .ok (if s.th.walk.isNone then s else s.setTh { s.th with walk := none })
  | .ok _ true _ => .ok s
  | .ok pa false s' =>
    match s'.decodePa pa 1 0 with
    | .ok t =>
      .ok (if Seg.cached { va := va, pa := pa, size := 1, nc := false, tgt := t } ∧ ¬ (l1 ∧ s'.co.hit (pa / 64 * 64) 0 64) then
          s'.send (s'.mkFlight (.prefetch l1) 0 0 va (pa / 64 * 64) 64 [] false false word)
        else s')
    | .error _ => .ok s

/-! ## Atomics (R134, R135, R215 to R219) -/

/-- The target line of a device atomic leaves the L1: its dirty bytes are written back and its clean bytes cleared, and a copy of it
that is on its way does not enter (R134). None when the write-back must wait for S. -/
def State.dropLine (s : State) (base : Nat) : Option State :=
  let s := s.staleFetches s.cur.1 (fun pa => decide (pa = base))
  match s.co.line base with
  | none => some s
  | some l =>
    if l.dirty = 0 then some (s.setCo (s.co.setLine { l with valid := 0 }))
    else if 1023 ≤ s.th.cntS then none
    else
      let s := s.sendWriteback s.cur.1 s.cur.2 l
      some (s.setCo (s.co.setLine { l with dirty := 0, writers := 0, valid := 0 }))

/-- The register value of an atomic's old value m. -/
def Amo.result (o : Amo) (m : Nat) : Word :=
  if o.fn = 5 ∨ o.fn = 6 ∨ o.fn = 9 then extS (8 * o.width) m else extZ (8 * o.width) m

/-- The atomic as it acts: in reconnaissance mode it reads and writes nothing (R91). -/
def State.amoActs (s : State) (o : Amo) : Amo := if s.th.inRecon then { o with fn := 13 } else o

/-- An atomic at the own bank (R216, R217, R219): the old value goes to the register, and the flags to FLG. -/
def State.amoHere (s : State) (a d : Nat) (o : Amo) (acq : Bool) : Except Stop State :=
  match (if d = 0 then none else firstBad s.co.lsBad a o.width) with
  | some b => .error (s.poisonRead a o.width 1 b)
  | none =>
    let (m, f, s) := s.bankAtomic s.cur.1 a (s.amoActs o) s.self
    let s := s.raise s.cur.1 s.cur.2 f
    let s := if o.fn = 12 then s else s.writeS d (o.result m)
    .ok (if acq then s.bumpEpoch s.cur.1 else s).endPhase

/-- Send an atomic to its port: with a destination it counts in L and leaves it pending, without one it counts in S. -/
def State.amoSend (s : State) (word : BitVec 32) (va : Word) (pa d : Nat) (nc acq : Bool) (o : Amo) (dram : Bool) :
    Except Stop State :=
  let toQueue := (s.th.queueOf d).isSome
  match (if dram && !s.th.inRecon then s.dropLine (pa / 64 * 64) else some s) with
  | none => .error (.stall s)
  | some s1 =>
    let (id, s1) := s1.fresh
    let f := { s1.mkFlight (.atomic (s.amoActs o)) id 0 va pa o.width [] (decide (d = 0)) nc word with acq := acq }
    let t := s1.th
    if d = 0 then
      if 1023 ≤ t.cntS then .error (.stall s)
      else
        let s1 := (s1.send f).setTh { t with cntS := t.cntS + 1, phase := if acq then 2 else 0, reply := none
                                             held := if acq then [BitVec.ofNat 64 id] else [] }
        if acq then .error (.stall s1) else .ok s1
    else if 1023 ≤ t.cntL then .error (.stall s)
    else
      let l : Load := { id := id, dst := t.abs (.s d), ext := o.ext, got := [], waiting := 1, elems := [], acq := acq, refused := false
                        dead := false, counted := true, isLoad := false, toQueue := toQueue }
      let wait := acq || toQueue
      let s1 := (s1.send f).setTh { t with cntL := t.cntL + 1, loads := t.loads ++ [l], phase := if wait then 2 else 0
                                           reply := none, held := if wait then [BitVec.ofNat 64 id] else []
                                           pend := if d = 31 || toQueue then t.pend else t.pend ++ [(t.abs (.s d), id)] }
      if wait then .error (.stall s1) else .ok s1

/-- The wait of an acquire, or of a queue register that takes the value (R212, R218). -/
def State.amoWait (s : State) (d : Nat) : Except Stop State :=
  match s.th.reply with
  | some _ => .ok (s.writeS d (s.th.held.headD 0)).endPhase
  | none =>
    let id := (s.th.held.headD 0).toNat
    if s.th.loads.any (fun l => decide (l.id = id)) || s.flights.any (fun f => decide (f.grp = id ∧ f.site = s.cur.1)) then
      .error (.stall s)
    else .ok s.endPhase

/-- Where an atomic acts: a local address, or a physical address with its page's NC, in DRAM of this package or another or not. -/
inductive AmoAt where
  | bank (a : Nat)
  | port (pa : Nat) (nc dram : Bool)
  deriving DecidableEq, Repr

/-- The checks of an atomic's address, in the order of R388. -/
def State.amoTarget (s : State) (va : Word) (width : Nat) (ls : Bool) : Except Stop (AmoAt × State) :=
  if va.toNat % width ≠ 0 then .error (.trap 4 va)
  else if ls then
    if outOfLocal va width then .error (.trap 11 va)
    else
      match s.co.refusedAt va.toNat width with
      | some b => .error (.trap 12 (BitVec.ofNat 64 b))
      | none => .ok (.bank va.toNat, s)
  else do
    let (cs, s) ← s.checkAll 2 [(va, 0, width)]
    match cs with
    | (_, g :: _) :: _ =>
      if s.ownWindow g then pure (.bank (g.pa % 0x80000), s)
      else pure (.port g.pa (g.nc || decide (g.tgt ≠ .dram)) (decide (regionOf (g.pa % 2 ^ 40) = some 0)), s)
    | _ => throw (.stall s)

/-- The atomic leaves: at the bank, or for its port. -/
def State.amoGo (s : State) (word : BitVec 32) (va : Word) (at_ : AmoAt) (d : Nat) (acq : Bool) (o : Amo) : Except Stop State :=
  match at_ with
  | .bank a => s.amoHere a d o acq
  | .port pa nc dram => s.amoSend word va pa d nc acq o dram

/-- The release part of an instruction: the slot's lines are written back, and it waits until S is 0 and what others wrote back for the
slot is acknowledged (R135, R139, R218). Answers the state to go on from. While it waits in phase `ph` it has not taken its operands: each
slot checks and translates them again, so that no translation outlives an invalidation (R118). -/
def State.release (s : State) (ph : Nat) : Except Stop State :=
  let (s, all) := s.cleanSlot s.cur.1 s.cur.2
  if all && decide (s.th.cntS = 0) && s.storesHome s.cur.1 s.cur.2 then .ok s
  else .error (.stall (s.setTh { s.th with phase := ph }))

end Sys2Proof.Machine
end

