-- ==== Sys2Proof/Machine/Storage.lean ====
section
/-!
DEFINITION. Storage: `nvcfg`, `nvsub`, `nvpoll` (FN 16 to 18 of major 22) and the storage queue engine with its events (R139, R140, R308 to
R311, R323 to R327, R403, R434 to R437).
-/

namespace Sys2Proof.Machine

open Sys2Proof

/-! ## Contexts and pairs (R308, R325) -/

/-- Fields of a storage context. -/
def ctxQp (c : BitVec 39) : Nat := (c.extractLsb' 0 6).toNat
def ctxHi (c : BitVec 39) : Bool := c.getLsbD 6
def ctxNsid (c : BitVec 39) : Nat := (c.extractLsb' 7 32).toNat

/-- The entry of a queue pair (R325). -/
def Storage.pair (p : Storage) (q : Nat) : Nat := tblGet 0 q p.qps

/-- An entry opens its pair for a launch and has a namespace attached. -/
def entryOpens (e lnch nsid : Nat) : Bool := bit e 0 && decide (bits e 1 4 = lnch) && decide (bits e 9 32 = nsid)

/-- A pair is open for a launch and has a namespace attached. -/
def Storage.opens (p : Storage) (q lnch nsid : Nat) : Bool := entryOpens (p.pair q) lnch nsid

/-- The outstanding commands of a pair. -/
def Storage.pending (p : Storage) (q : Nat) : List Cmd := p.cmds.filter (fun c => decide (c.qp = q))

/-- The controller that the thread's context selects: that of its `nvcfg`, unless the pair's entry was changed since while no command of
the pair was outstanding; then the last such change decides (R325). -/
def State.context (s : State) : Option Nat :=
  let q := ctxQp s.th.stctx
  let e := tblGet 0 q s.storage.settled
  let later := if entryOpens e s.th.task.lnch (ctxNsid s.th.stctx) then some (bits e 5 4) else none
  match s.th.stctl with
  | none => later
  | some (ctl, v) => if v = tblGet 0 q s.storage.changes then some ctl else later

/-! ## `nvsub` (R309, R403) -/

/-- Bytes of a block of a namespace (R323). -/
def blockBytes (ctl nsid : Nat) : Nat := if Config.bigBlocks ctl nsid then 4096 else 512

/-- Fields of the extension word. -/
def nvOpc (x : Word) : Nat := bits x.toNat 0 8
def nvNlb (x : Word) : Nat := bits x.toNat 32 16

/-- The command moves data. -/
def nvData (opc : Nat) : Bool := decide (opc = 1 ∨ opc = 2)

/-- An opcode, a reserved bit or the buffer address breaks a rule. -/
def nvBad (x a : Word) : Bool :=
  !([0, 1, 2, 8].contains (nvOpc x)) || decide (bits x.toNat 10 22 ≠ 0) || decide (bits x.toNat 48 16 ≠ 0)
    || decide (a.toNat % 4096 ≠ 0) || (!nvData (nvOpc x) && decide (a ≠ 0))

/-- Translate the pages of a buffer in ascending order. -/
def State.nvPages (s : State) (acc : Nat) : List Word → Except Stop (List Nat × State)
  | [] => .ok ([], s)
  | va :: t => do
    let (pa, _, s) ← s.xlatTh va acc
    let (r, s) ← s.nvPages acc t
    pure (pa :: r, s)

/-- The bytes of a buffer that lie in its page i. -/
def pageLen (size i : Nat) : Nat := min 4096 (size - 4096 * i)

/-- The target of a transfer of n bytes of drive data, unless the map, the storage port's table or the target refuses it (R324, R333). -/
def State.driveTarget (s : State) (acc pa n : Nat) : Option Target :=
  match s.decodePa pa n acc with
  | .error _ => none
  | .ok t => if s.tableAllows 3 3 pa n acc && (s.targetRefuses 3 pa n acc t).isNone then some t else none

/-- The tables let the data of a command pass: the storage port's and the target's (R324, R333). -/
def State.nvAllowed (s : State) (acc size : Nat) (pages : List Nat) : Bool :=
  pages.zipIdx.all (fun p => (s.driveTarget acc p.1 (pageLen size p.2)).isSome)

/-- The next free command identifier of a pair. -/
def Storage.freeTag (p : Storage) (q : Nat) : Option Nat :=
  let used := (p.pending q).map (·.tag)
  let next := tblGet 0 q p.tags
  ((List.range 1024).map (fun j => (next + j) % 1024)).find? (fun t => !used.contains t)

/-- Why a command is completed at once: the write gate, a table, a lost controller (R309, R333, R437). -/
def State.nvRefused (s : State) (q ctl opc size : Nat) (pages : List Nat) : Option Nat :=
  if s.storage.lost.contains q || s.storage.lostCtl.contains ctl then some 3
  else if (opc = 1 ∨ opc = 8) ∧ s.storage.consent = false then some 1
  else if !s.nvAllowed (if opc = 2 then 1 else 0) size pages then some 2
  else none

/-- The end of `nvsub`: with S = 0 after the release, a tag is drawn and the operation enters `nq`. Its buffer is at `a`, in pages; e is
eX and f is e(X+1). -/
def State.nvEnter (s : State) (k : Issue) (d ctl : Nat) (a e f : Word) (pages : List Nat) : Except Stop State :=
  let t := s.th
  let q := ctxQp t.stctx
  let nsid := ctxNsid t.stctx
  let opc := nvOpc e
  let size := if nvData opc then (nvNlb e + 1) * blockBytes ctl nsid else 0
  match s.storage.freeTag q with
  | none => .error (.stall (s.setTh { t with phase := 11 }))
  | some tag =>
    let cmd : Cmd :=
      { qp := q, tag := tag, site := s.cur.1, slot := s.cur.2, gen := t.gen.toNat, hi := ctxHi t.stctx, opc := opc, nsid := nsid
        slba := f, nlb := nvNlb e, va := a, size := size, pages := pages, pc := t.pc, sent := false, done := none
        lnch := t.task.lnch, wid := t.wid, late := false, id := s.nextId, ctl := ctl, fl := t.recFlags, seq := s.seqOf t.task }
    let s := { s with nextId := s.nextId + 1 }
    let put (s : State) (c : Cmd) : State :=
      { s with storage := { s.storage with cmds := s.storage.cmds ++ [c], tags := tblSet q ((tag + 1) % 1024) s.storage.tags } }
    match s.nvRefused q ctl opc size pages with
    | some eng => .ok ((put s { cmd with done := some (0, eng, 0) }).writeS d (BitVec.ofNat 64 tag)).endPhase
    | none => do
      let o := { s.mkOp k 4 with
        ra := BitVec.ofNat 64 q, rb := BitVec.ofNat 64 tag, rd := BitVec.ofNat 64 ctl, x0 := e, x1 := BitVec.ofNat 64 cmd.id }
      let s1 ← s.submit (s.setTh { t with phase := 11 }) o false false
      pure ((put s1 cmd).writeS d (BitVec.ofNat 64 tag)).endPhase

/-- The checks of `nvsub` in order, its pages, its release (R139) and its entry. -/
def State.nvStart (s : State) (k : Issue) (x a d : Nat) : Except Stop State := do
  let (p, s) := s.readS a
  let e := s.th.ereg x
  if nvBad e p then throw k.operand
  match s.context with
  | none => throw k.operand
  | some ctl =>
    let all := (nvNlb e + 1) * blockBytes ctl (ctxNsid s.th.stctx)
    if 2 ^ 21 < all then throw k.operand
    let n := if nvData (nvOpc e) then all else 0
    let (pages, s) ← s.nvPages (if nvOpc e = 2 then 1 else 0)
      ((List.range ((n + 4095) / 4096)).map (fun i => p + BitVec.ofNat 64 (4096 * i)))
    (← s.release 11).nvEnter k d ctl p e (s.th.eregAt x 1) pages

/-! ## The storage queue engine (R324, R326) -/

/-- Address of an area of the queues. -/
def State.stq (s : State) (off : Nat) : Nat := s.scarab.pidx * 2 ^ 40 + s.storage.stqbase + off

/-- The PRP list page of a command. -/
def State.prpAt (s : State) (q tag : Nat) : Nat := s.stq (0x1000000 + 0x400000 * q + 0x1000 * tag)

/-- The submission entry of a command in the layout of the NVMe Base Specification (log entry 15). -/
def State.submissionEntry (s : State) (c : Cmd) (x : Word) (ctl : Nat) : List Byte :=
  let prp1 := c.pages.getD 0 0
  let prp2 := if c.pages.length ≤ 1 then 0 else if c.pages.length = 2 then c.pages.getD 1 0 else s.prpAt c.qp c.tag
  let prot := Config.protectedNs ctl c.nsid && decide (c.opc ≠ 0)
  let dw12 := (if c.opc = 0 then 0 else c.nlb) + b2n prot * 2 ^ 29 + b2n (prot && x.getLsbD 9) * (2 ^ 28 + 2 ^ 26)
    + b2n (x.getLsbD 8 && nvData c.opc) * 2 ^ 30
  leBytes 4 (c.opc + c.tag * 2 ^ 16) ++ leBytes 4 c.nsid ++ leBytes 16 0 ++ leBytes 8 prp1 ++ leBytes 8 prp2
    ++ leBytes 8 (if c.opc = 0 then 0 else c.slba.toNat) ++ leBytes 4 dw12 ++ leBytes 4 0 ++ leBytes 4 (c.slba.toNat % 2 ^ 32)
    ++ leBytes 4 0

/-- Replace a command. -/
def State.setCmd (s : State) (c : Cmd) : State :=
  { s with storage := { s.storage with cmds := s.storage.cmds.map (fun x => if x.qp = c.qp ∧ x.tag = c.tag then c else x) } }

/-- Perform an operation of `nq`: the submission entry, the PRP list and the doorbell; a command that was completed because its controller
is lost is not sent (R437). -/
def State.performNq (s : State) (o : EngOp) : State :=
  match s.storage.cmds.find? (fun c => decide (c.qp = o.ra.toNat ∧ c.tag = o.rb.toNat ∧ c.id = o.x1.toNat)) with
  | none => s
  | some c =>
    if c.done.isSome then s
    else
      let tail := tblGet 0 c.qp s.storage.tails
      let s := if c.pages.length ≤ 2 then s
        else s.devWrite 3 (s.prpAt c.qp c.tag) ((c.pages.drop 1).flatMap (leBytes 8))
      let s := s.devWrite 3 (s.stq (0x10000 * c.qp + 64 * tail)) (s.submissionEntry c o.x0 o.rd.toNat)
      let s := { s with storage := { s.storage with tails := tblSet c.qp ((tail + 1) % 1024) s.storage.tails } }
      s.setCmd { c with sent := true }

/-- A record of the storage port (R430). -/
def State.storageRec (s : State) (kind cause : Nat) (v1 v2 : Word) : State := s.edgeRec true kind cause v1 v2

/-- The pieces of a command's buffer: offset, physical address, length. -/
def Cmd.pieces (c : Cmd) : List (Nat × Nat × Nat) :=
  c.pages.zipIdx.flatMap (fun p => (Machine.pieces 4096 p.1 (pageLen c.size p.2)).map (fun z => (4096 * p.2 + (z.1 - p.1), z.1, z.2)))

/-- The kind 17 record of a poisoned TLP that a drive wrote: the first granule that it poisons; what found it the spec does not say, VAL2 is
free (R435; log entries 2, 26). -/
def State.tlpRecord (s : State) (first : Option Nat) : State :=
  match first with
  | none => s
  | some g => s.storageRec 17 13 (BitVec.ofNat 64 (8 * g)) (Config.freeWord s.tick 0)

/-- One piece of a Read's data arrives, in one TLP: a poisoned one poisons the granules that it covers (R435). -/
def State.driveWrite (s : State) (byteAt : Nat → Byte) (bad : List Nat) (z : Nat × Nat × Nat) : State :=
  match s.driveTarget 1 z.2.1 z.2.2 with
  | none => s
  | some t =>
    let gs := (granules z.2.1 z.2.2).filter (fun g => bad.contains ((z.1 + (8 * g - z.2.1)) / 8))
    match s.portWrite t 3 z.2.1 ((List.range' z.1 z.2.2).map (fun j => some (byteAt j))) (gs.map (fun g => g - z.2.1 / 8)) 0 s.outsider with
    | .done s => s.tlpRecord gs.head?
    | _ => s

/-- A Read's data arrives in the buffer: every piece after status 0, any subset of them after another (R434). -/
def State.driveWrites (s : State) (c : Cmd) (status : Nat) (data : List Byte) (bad : List Nat) : State :=
  let byteAt (j : Nat) : Byte := match data[j]? with | some b => b | none => Config.freeByte s.tick j
  (c.pieces.foldl (fun (t : State) z =>
    if status ≠ 0 ∧ Config.freeChoice (s.tick + z.1) % 2 = 0 then t else t.driveWrite byteAt bad z) s).bump

/-- A Write's data leaves the buffer; a poisoned source granule is reported for the issuing thread (R367, R435). A piece that the tables
refuse now is not read (R333; log entry 31). -/
def State.driveReads (s : State) (c : Cmd) : State :=
  let (s1, first) := c.pieces.foldl (fun (acc : State × Option Nat) z =>
    match acc.1.driveTarget 0 z.2.1 z.2.2 with
    | none => acc
    | some t =>
      let (bs, s1) := acc.1.portRead t z.2.1 z.2.2 3 acc.1.outsider
      (s1, acc.2.orElse (fun _ => (bs.findIdx? (fun b => b.2)).map (fun j => z.1 + j)))) (s, none)
  match first with
  | none => s1
  | some j => s1.record 64
      { kind := 18, cause := 4, lnch := c.lnch, fl := c.fl, core := (s1.core c.site).lcore, slot := c.slot, gen := c.gen, pc := c.pc
        wid := c.wid, seq := c.seq, cyc := (s1.core c.site).cyc, val1 := c.va + BitVec.ofNat 64 j, val2 := 0 }

/-- The 16 bytes of a completion entry; what the controller chooses in them is free (log entries 2, 15). -/
def State.completionEntry (s : State) (c : Cmd) (status : Nat) (dw0 : BitVec 32) : List Byte :=
  leBytes 4 dw0.toNat ++ leBytes 4 0 ++ leBytes 4 (Config.freeChoice s.tick) ++ leBytes 2 c.tag
    ++ leBytes 2 (Config.freeChoice s.tick % 2 + status * 2)

/-- The controller writes a completion entry, in one TLP; the first number of a granule after the buffer's in the list of poisoned ones says
that it is poisoned (R435; log entry 26). -/
def State.putCompletion (s : State) (c : Cmd) (status : Nat) (dw0 : BitVec 32) (bad : List Nat) : State :=
  let at_ := s.stq (0x400000 + 0x4000 * c.qp + 16 * tblGet 0 c.qp s.storage.heads)
  let s := s.devWrite 3 at_ (s.completionEntry c status dw0)
  if bad.contains ((c.size + 7) / 8) && s.devMay 3 at_ 16 1 then
    State.tlpRecord { s with dramBad := addBad s.dramBad (granules (s.dramKey at_) 16) } (some (at_ % 2 ^ 48 / 8))
  else s

/-- Payload word 0 of a completion (R310). -/
def Cmd.word0 (c : Cmd) (status eng : Nat) : Word :=
  BitVec.ofNat 64 (c.tag % 2 ^ 16 + status % 2 ^ 15 * 2 ^ 16 + eng % 256 * 2 ^ 32 + c.qp % 64 * 2 ^ 40)

/-- The thread that issued a command still runs the task that did. -/
def State.cmdLive (s : State) (c : Cmd) : Bool :=
  let t := s.thread c.site c.slot
  decide (t.gen.toNat = c.gen) && t.busyTask && (match t.run with | .failing _ => false | _ => true)

/-- A mailbox has room (R58). -/
def Thread.hasRoom (t : Thread) (hi : Bool) : Bool := if hi then decide (t.mbHi.length < 4) else decide (t.mbLo.length < 12)

/-- An entry enters a mailbox. -/
def Thread.pushEntry (t : Thread) (hi : Bool) (e : Entry) : Thread :=
  if hi then { t with mbHi := t.mbHi ++ [e] } else { t with mbLo := t.mbLo ++ [e] }

/-- A command leaves the engine: its tag is free. -/
def State.dropCmd (s : State) (c : Cmd) : State :=
  { s with storage := { s.storage with cmds := s.storage.cmds.filter (fun x => !decide (x.qp = c.qp ∧ x.tag = c.tag)) } }

/-- Deliver a completion: to the mailbox, as a record when the thread is gone, or later (R310, R436). The fields that would name a
sender are free (log entry 2). -/
def State.deliverCmd (s : State) (c : Cmd) (r : Nat × Nat × Nat) : State :=
  let w := c.word0 r.1 r.2.1
  if (s.core c.site).pre then s
  else if !s.cmdLive c then (s.dropCmd c).storageRec 35 0 w c.slba
  else
    let t := s.thread c.site c.slot
    if !t.hasRoom c.hi then s
    else
      let e : Entry := { core := Config.freeChoice s.tick % 0x1000, slot := Config.freeChoice (s.tick + 1) % 16
                         gen := Config.freeChoice (s.tick + 2) % 0x10000, kind := 3, reason := 0
                         payload := [w, BitVec.ofNat 64 r.2.2, c.slba, 0], lnch := c.lnch }
      (((s.dropCmd c).setThread c.site c.slot (t.pushEntry c.hi e)).touch c.site).bump

/-- The storage completion that `nvpoll` looks for. -/
def pollMatch (q tag : Nat) (e : Entry) : Bool :=
  decide (e.kind = 3 ∧ (e.payload.getD 0 0).toNat % 2 ^ 16 = tag ∧ bits (e.payload.getD 0 0).toNat 40 6 = q)

/-- The first entry that a test selects, and the rest. -/
def takeEntry (p : Entry → Bool) : List Entry → Option (Entry × List Entry)
  | [] => none
  | e :: t => if p e then some (e, t) else (takeEntry p t).map (fun r => (r.1, e :: r.2))

/-- The storage port works. -/
def State.storageUp (s : State) : Bool := s.on && s.fatal.isNone

/-- R308: Writes the thread's storage context and returns the old one. -/
def execNvcfg (a : BitVec 5) (d : BitVec 5) (s : State) : Out :=
  let k : Issue := { code := (.long (4608#13 ++ a ++ 0#2 ++ d ++ 91#7)), reads := [a.toNat], writes := [d.toNat] }
  issue k s fun s => do
    let (x, s) := s.readS a.toNat
    let c : BitVec 39 := x.extractLsb' 0 39
    if x.toNat / 2 ^ 39 ≠ 0 then throw k.operand
    if !s.storage.opens (ctxQp c) s.th.task.lnch (ctxNsid c) then throw k.operand
    let old := s.th.stctx
    let s := s.setTh { s.th with stctx := c, stctl := some (bits (s.storage.pair (ctxQp c)) 5 4, tblGet 0 (ctxQp c) s.storage.changes) }
    pure (s.writeS d.toNat (old.zeroExtend 64))

/-- R309: Releases, translates the buffer and queues an NVMe command, returning its tag. Suppressed in a reconnaissance pass it leaves sD
and checks nothing, which the spec leaves open (R91; log entry 22). -/
def execNvsub (x : BitVec 3) (a : BitVec 5) (d : BitVec 5) (s : State) : Out :=
  let k : Issue := { code := (.long (16#5 ++ x ++ 0#5 ++ a ++ 0#2 ++ d ++ 91#7)), reads := [a.toNat], writes := [d.toNat]
                     others := [.e x.toNat, .e ((x.toNat + 1) % 8)], quiet := true, effect := true }
  issue k s fun s =>
    s.nvStart k x.toNat a.toNat d.toNat

/-- R311: Takes a matching storage completion from the mailboxes if present. -/
def execNvpoll (a : BitVec 5) (d : BitVec 5) (s : State) : Out :=
  let k : Issue := { code := (.long (4352#13 ++ a ++ 0#2 ++ d ++ 91#7)), reads := [a.toNat], writes := [d.toNat], takes := true
    }
  issue k s fun s => do
    let (x, s) := s.readS a.toNat
    if 2 ^ 16 ≤ x.toNat then throw k.operand
    let sel := pollMatch (ctxQp s.th.stctx) x.toNat
    match takeEntry sel s.th.mbHi, takeEntry sel s.th.mbLo with
    | some (e, rest), _ =>
      pure (((s.setTh { s.th with mbHi := rest }).bumpEpoch s.cur.1).writeS d.toNat (e.payload.getD 0 0))
    | none, some (e, rest) =>
      pure (((s.setTh { s.th with mbLo := rest }).bumpEpoch s.cur.1).writeS d.toNat (e.payload.getD 0 0))
    | none, none => pure (s.writeS d.toNat (BitVec.allOnes 64))

/-- R324: A controller signals a completion that the engine consumes from its queue. -/
def execNvmeCompletion (qp : Nat) (tag : Nat) (status : BitVec 15) (dw0 : BitVec 32) (data : List Byte) (bad : List Nat) (s :
  State) : Out :=
  match s.storage.cmds.find? (fun c => decide (c.qp = qp ∧ c.tag = tag) && c.sent && c.done.isNone) with
  | none => .next s
  | some c =>
    if !s.storageUp then .next s
    else
      let s := if c.opc = 2 then s.driveWrites c status.toNat data bad else if c.opc = 1 then s.driveReads c else s
      let head := tblGet 0 c.qp s.storage.heads
      let s := s.putCompletion c status.toNat dw0 bad
      let s := { s with storage := { s.storage with heads := tblSet c.qp ((head + 1) % 1024) s.storage.heads
                                                    aborts := s.storage.aborts.filter (fun a => decide (a.2 ≠ (c.qp, c.tag))) } }
      .next (s.setCmd { c with done := some (status.toNat, 0, dw0.toNat) }).bump

/-- R310: A storage completion enters the issuing thread's mailbox once it has room. -/
def execStorageCompletionDelivery (k : Nat) (s : State) : Out :=
  match s.storage.cmds[k]? with
  | none => .next s
  | some c =>
    match c.done with
    | none => .next s
    | some r => .next (if s.storageUp then s.deliverCmd c r else s)

/-- R437: A command outstanding for 30 s is recorded and aborted. -/
def execNvmeCommandTimeout (k : Nat) (s : State) : Out :=
  match s.storage.cmds[k]? with
  | none => .next s
  | some c =>
    if c.sent && c.done.isNone && !c.late && s.storageUp then
      let s := s.setCmd { c with late := true }
      let s := { s with storage := { s.storage with aborts := s.storage.aborts ++ [(c.ctl, c.qp, c.tag)] } }
      .next (s.storageRec 36 0 (BitVec.ofNat 64 (c.tag % 2 ^ 16 + c.qp % 64 * 2 ^ 16)) c.slba)
    else .next s

/-- The commands that a lost controller leaves outstanding, queued ones included (R437). -/
def Storage.orphans (p : Storage) (ctl : Nat) : List Cmd := p.cmds.filter (fun c => decide (c.ctl = ctl) && c.done.isNone)

/-- The queue pairs of a controller: those whose entry names it, and those of its outstanding commands. -/
def Storage.pairsOf (p : Storage) (ctl : Nat) : List Nat :=
  ((List.range 64).filter (fun q => bit (p.pair q) 0 && decide (bits (p.pair q) 5 4 = ctl))) ++ (p.orphans ctl).map (·.qp)

/-- A controller is lost: its commands complete with ENG = 3, and a Read that was sent may have left data in its buffer (R434, R437). -/
def State.loseController (s : State) (ctl cause : Nat) : State :=
  let gone := s.storage.orphans ctl
  let qs := s.storage.pairsOf ctl
  let s := gone.foldl (fun (s : State) (c : Cmd) => if c.opc = 2 ∧ c.sent then s.driveWrites c 1 [] [] else s) s
  let s := { s with storage := { s.storage with
    lostCtl := s.storage.lostCtl ++ [ctl], lost := (s.storage.lost ++ qs).eraseDups
    recreated := s.storage.recreated.filter (fun q => !qs.contains q)
    aborts := s.storage.aborts.filter (fun a => decide (a.1 ≠ ctl))
    cmds := s.storage.cmds.map (fun (c : Cmd) => if c.ctl = ctl ∧ c.done = none then { c with done := some (0, 3, 0) } else c) } }
  s.storageRec 37 cause (BitVec.ofNat 64 ctl) (BitVec.ofNat 64 gone.length)

/-- R437: A controller fatal status or removal completes its commands with ENG = 3. -/
def execNvmeControllerLost (ctl : Nat) (hierarchy : Bool) (s : State) : Out :=
  if !s.storageUp || s.storage.lostCtl.contains (ctl % 16) then .next s
  else .next (s.loseController (ctl % 16) (if hierarchy then 2 else 1))

/-- Firmware has recreated a queue pair on a controller that is back (R437; log entry 26). -/
def State.controllerBack (s : State) (ctl q : Nat) : State :=
  { s with storage := { s.storage with lostCtl := s.storage.lostCtl.filter (fun c => decide (c ≠ ctl))
                                       recreated := if s.storage.lost.contains q && !s.storage.recreated.contains q then
                                         s.storage.recreated ++ [q] else s.storage.recreated } }

end Sys2Proof.Machine
end

