-- ==== Sys2Proof/Machine/Tasks.lean ====
section
/-!
DEFINITION. Tasks: major 24 (R42 to R44, R47, R48, R88 to R92, R288 to R300, R400), and how work comes to slots: decrements (R49, R373),
the run list and the deque (R50), steals (R51, R67) and `spawn.at` records (R292).
-/

namespace Sys2Proof.Machine

open Sys2Proof

/-- The registers of a group (R288). -/
def groupRegs (d k : Nat) : List RegName := if d = 0 then [] else (List.range' d k).map RegName.s

/-- The issuing thread goes on with the next word; what it waited for is over. -/
def State.goOn (s : State) : State := (s.endPhase).advance 4

/-- The issuing thread waits in a phase with the values it holds. -/
def State.waitIn (s : State) (ph : Nat) (held : List Word) : Except Stop State :=
  .error (.stall (s.setTh { s.th with phase := ph, held := held }))

/-! ## Spawning (R289 to R293) -/

/-- A frame address is aligned and inside the local store (R289, R294). -/
def frameFits (a : Nat) : Bool := decide (a % 32 = 0 ∧ a + 32 ≤ 0x80000)

/-- The frame of a spawn is open or parked, and its count has room (R289). -/
def State.frameTakes (s : State) (a : Nat) : Bool :=
  decide (s.frameState s.cur.1 a < 2) && decide (s.frameCount s.cur.1 a ≠ 2 ^ 32 - 1)

/-- An entry address is even and sign-extended (R289). -/
def entryOk (pc : Word) : Bool := !pc.getLsbD 0 && canonical pc

/-- The core that `spawn.at` names takes a child of the issuing task (R289). -/
def State.coreTakes (s : State) (core : Nat) : Bool :=
  decide (core < s.encnt) && (match s.siteOf core with | some n => s.inGroup s.th.task.lnch n | none => false)

/-- The checks of `spawn` and `spawn.at`, in the order of R400. A frame in the claimed Hive range is no refusal of that table, and the
operation writes it as any other; so do `txsub`, `await` and the decrements (log entry 38). -/
def State.spawnCheck (s : State) (k : Issue) (pc w : Word) (at_ : Bool) : Except Stop Unit :=
  let fa := bits w.toNat 0 19
  let core := bits w.toNat 32 12
  if bits w.toNat 19 13 ≠ 0 ∨ bits w.toNat 44 20 ≠ 0 ∨ (at_ = false ∧ core ≠ 0) then .error k.operand
  else if !frameFits fa then .error k.operand
  else if !entryOk pc then .error (.trap 3 pc)
  else if !s.frameTakes fa then .error k.operand
  else if at_ && !s.coreTakes core then .error k.operand
  else .ok ()

/-- A dispatched root has spawned (R300). -/
def State.markSpawn (s : State) : State := s.setTh { s.th with task := { s.th.task with spawned := true } }

/-- The child of a record runs inline on the issuing thread (R43). -/
def State.spawnInline (s : State) (r : Record) : Except Stop State :=
  let s := s.markSpawn
  let task := { s.th.task with body := none, item := none, fref := some r.fref }
  s.openInline .child (s.th.pc + 4) 0 { pc := r.pc, args := r.args, wid := r.wid, rnd := s.th.rnd, task := task }

/-- COUNT, and TREE inside a transaction, rise for a child (R291). -/
def State.countChild (s : State) (fa : Nat) : State :=
  let t := s.th.task
  let s := s.setCount s.cur.1 fa (s.frameCount s.cur.1 fa + 1) s.self
  ((if t.txn then s.treeUp t.txf s.self else s).markSpawn).born t.lnch

/-- `spawn` with its operands (R291). -/
def State.spawnHere (s : State) (pc w : Word) (args : List Word) : Except Stop State :=
  let fa := bits w.toNat 0 19
  let r := s.childRecord pc args fa
  if s.co.dequeFull || s.th.inRecon then s.spawnInline r
  else .ok (((s.countChild fa).pushRecord s.cur.1 r).advance 4)

/-- `spawn.at` after its checks: write-back, counts, the record, and the answer, one after the other (R292). It holds its entry
and its frame word, and takes its queue operands `rs` when it completes: one that traps or fails on the way leaves the queues as they
were (R359, R364, R381). -/
def State.spawnThere (s : State) (rs : List Nat) (pc w : Word) (args : List Word) : Except Stop State :=
  let fa := bits w.toNat 0 19
  let r := s.childRecord pc args fa
  match s.th.phase with
  | 3 =>
    let (s, all) := s.cleanSlot s.cur.1 s.cur.2
    if all then (s.countChild fa).waitIn 4 [pc, w] else s.waitIn 3 [pc, w]
  | 4 =>
    if s.settled s.cur.1 s.cur.2 && decide (s.th.cntS < 1023) then
      let s := s.post (.spawnAt s.cur.1 s.cur.2 ((s.siteOf (bits w.toNat 32 12)).getD s.cur.1) r)
      (s.setTh { s.th with cntS := s.th.cntS + 1, reply := none }).waitIn 5 [pc, w]
    else .error (.stall s)
  | _ =>
    match s.th.reply with
    | none => .error (.stall s)
    | some 0 => do
      let s ← s.spawnInline r
      pure (s.endPhase.takeReads rs)
    | some _ => .ok (s.takeReads rs).goOn

/-! ## Ending inline work (R43, R47, R299) -/

/-- All four counters of the thread are 0; else it waits (R43). -/
def State.idle (s : State) (ph : Nat) : Except Stop State :=
  if s.th.cntr = 0 then .ok s else s.waitIn ph []

/-- The record of a checked restart goes to the Scarab (R92). Its set is what the pass left in e0 to e7, whatever that is: the spec names
no refusal of an empty one or of one with reserved bits (log entry 24). -/
def State.resubmit (s : State) (x : Txn) (set : List Word) (check : Word) : State :=
  let r := { x.sub with set := set, check := check, restart := min (x.sub.restart + 1) 127
                        src := some (s.cur.1, s.cur.2, s.th.gen.toNat) }
  let s := State.setTxn { s with scarab := { s.scarab with subs := s.scarab.subs ++ [r] } } { x with restarted := true }
  (s.setTh { s.th with cntS := s.th.cntS + 1 }).born r.lnch

/-- A pass ends: it waits for its loads, and a checked restart submits its record and quits (R92, R299). -/
def State.endPass (s : State) (x : Inl) (restart : Bool) : Except Stop State :=
  if s.th.cntL ≠ 0 ∨ s.th.accQ.isEmpty = false then s.waitIn 24 []
  else if restart = true ∧ 1023 ≤ s.th.cntS then s.waitIn 24 []
  else do
    let s ← s.inlineReady x
    let set := (List.range 8).map s.th.ereg
    let acc := s.th.acc
    let s := (s.closePass x).endPhase
    if restart then
      match x.task.body.bind s.txn with
      | some t => (s.resubmit t set acc).waitIn 8 []
      | none => s.waitIn 8 []
    else pure s

/-- The innermost inline child or pass of the thread ends (R295). -/
def State.endInline (s : State) (x : Inl) : Except Stop State :=
  match x.kind with
  | .child => do
    let s ← s.idle 16
    let s ← s.inlineReady x
    pure (s.closeInline x).endPhase
  | .popped => do
    let s ← s.drained 16
    let s ← s.inlineReady x
    let s := (s.leave s.self s.th.task).closeInline x
    pure ((s.endPhase).scramble s.cur.1 s.cur.2)
  | .pass restart => s.endPass x restart

/-- The thread's task ends: counters, write-backs, decrements, and the slot is released (R48, R295). -/
def State.quitTask (s : State) (ph : Nat) : Except Stop State := do
  let s ← s.drained ph
  pure ((s.leave s.self s.th.task).releaseTask s.cur.1 s.cur.2)

/-! ## Awaiting and yielding (R47, R294, R297) -/

/-- The thread parks at a frame; a count that has reached 0 meanwhile appends it to the run list at once (R47, R49). -/
def State.park (s : State) (a : Nat) : State :=
  let n := s.cur.1
  let s := (s.spillAll n s.cur.2).parkSave n s.cur.2
  let t := s.th
  let bs := leBytes 1 1 ++ leBytes 1 (t.task.lnch % 16) ++ leBytes 8 (t.pc + 4).toNat ++ leBytes 8 t.region ++ leBytes 8 t.srs.toNat
  let s := s.setCo (s.co.lsPut (a + 6) bs)
  let s := s.logPort n a 32 6 s.self
  let s := s.setCo { s.co with parked := s.co.parked ++ [s.contOf (some a)] }
  let s := s.releaseTask n s.cur.2
  if s.frameCount n a = 0 then s.wakeFrame n a else s

/-- The parking of an `await`: it waits for the thread's lines and loads first (R47, R450), and takes its operand as it completes. -/
def State.parkAt (s : State) (a : Nat) (x : Word) : Except Stop State :=
  let (ok, s) := s.parkReady
  if ok then .ok ((s.readS a).2.endPhase.park x.toNat) else s.waitIn 20 [x]

/-- The bottom record of the own deque runs inline before the `await` executes again (R47); one that a `spawn.at` of another core left
there bumps the epoch as a stolen one does (R122). It runs as the thread runs, paired or not, whatever its launch's PAIR (log entry 39). -/
def State.popInline (s : State) (r : Record) : Except Stop State := do
  let rest := s.co.deque.drop 1
  let s ← s.openInline .popped s.th.pc 0 (s.recordStart r)
  let s := if r.fref.core = s.co.lcore then s else s.bumpEpoch s.cur.1
  pure (s.setCo { s.co with deque := rest }).endPhase

/-- The pool keeps a free region after the issuing thread parks (R47). -/
def State.mayPark (s : State) : Bool := decide (1 ≤ s.freeRegions s.cur.1 + b2n (decide (s.th.pair = 1)))

/-- `await` reads COUNT and goes on, parks, runs popped work inline, or stalls (R47). -/
def State.awaitCount (s : State) (a : Nat) (x : Word) : Except Stop State :=
  let s := s.logPort s.cur.1 x.toNat 4 6 s.self
  let c := s.frameCount s.cur.1 x.toNat
  if c = 0 then .ok ((s.readS a).2.bumpEpoch s.cur.1).goOn
  else if s.mayPark then s.parkAt a x
  else
    match s.co.deque with
    | r :: _ => s.popInline r
    | [] => s.waitIn 18 [x, BitVec.ofNat 64 c]

/-- The checks of `await` in the order of R400; a poisoned frame is consumed (R294, R407). -/
def State.awaitFrame (s : State) (k : Issue) (a : Nat) (x : Word) : Except Stop State :=
  if !frameFits x.toNat then .error k.operand
  else
    match firstBad s.co.lsBad x.toNat 32 with
    | some b => .error (s.poisonRead x.toNat 4 6 b)
    | none =>
      if s.frameState s.cur.1 x.toNat ≠ 0 ∨ s.th.monHeld.isSome = true then .error k.operand
      else s.awaitCount a x

/-- What a stalled `await` waits for has happened: a region, a record, or a decrement of its frame (R47). -/
def State.awaitStirs (s : State) (n i : Nat) : Bool :=
  let t := s.thread n i
  decide (1 ≤ s.freeRegions n + b2n (decide (t.pair = 1))) || !(s.core n).deque.isEmpty
    || decide (s.frameCount n (t.held.headD 0).toNat ≠ (t.held.getD 1 0).toNat)

/-- Work waits that the core may take (R297). -/
def State.workWaits (s : State) (n : Nat) : Bool :=
  let c := s.core n
  !c.runList.isEmpty || !c.deque.isEmpty || s.dispenserHas n
    || s.scarab.txns.any (fun x => decide (x.core = n ∧ x.stage = .framed) && x.ready && !x.failedGrant)

/-- `yield` parks the thread (R297). -/
def State.yieldPark (s : State) : State :=
  let n := s.cur.1
  let s := (s.spillAll n s.cur.2).parkSave n s.cur.2
  let t := s.th
  let s := s.lsHard n (t.region + 0x100) (leBytes 8 (t.pc + 4).toNat ++ leBytes 8 t.srs.toNat) 7 s.self
  let s := s.lsHard n (t.region + 0x118) (leBytes 8 (t.task.lnch % 16)) 7 s.self
  let s := s.setCo { s.co with runList := s.co.runList ++ [s.contOf none] }
  s.releaseTask n s.cur.2

/-! ## Transactions (R298 to R300) -/

/-- The set in e0 to e7 is refused (R75). -/
def Thread.setRefused (t : Thread) : Bool :=
  let es := (List.range 8).map t.ereg
  es.all (fun e => decide (entryMode e = 0)) || es.any (fun e => decide (bits e.toNat 58 6 ≠ 0))

/-- The checks of `txsub` in the order of R400. -/
def State.txsubCheck (s : State) (k : Issue) (pc w : Word) : Except Stop Unit :=
  let fp := bit w.toNat 19
  let fa := bits w.toNat 0 19
  if bits w.toNat 29 35 ≠ 0 then .error k.operand
  else if s.th.setRefused then .error k.operand
  else if fp && s.th.task.txn then .error k.operand
  else if fp && (!frameFits fa || !s.frameTakes fa) then .error k.operand
  else if !entryOk pc then .error (.trap 3 pc)
  else if bit w.toNat 27 && !(match s.launch s.th.task.lnch with
      | some l => l.clusters.contains (bits w.toNat 20 6 + 64 * bits w.toNat 26 1) | none => false) then .error k.operand
  else .ok ()

/-- The record of a `txsub` with its operands (R298). -/
def State.subRecord (s : State) (pc w : Word) (group : List Word) : SubRec :=
  let fa := bits w.toNat 0 19
  { pc := pc, args := group.take 4
    frame := if bit w.toNat 19 then some { addr := fa, core := s.co.lcore, gen := s.frameGen s.cur.1 fa } else none
    clus := bits w.toNat 20 6 + 64 * bits w.toNat 26 1, hexp := bit w.toNat 27, chk := bit w.toNat 28, restart := 0
    check := group.getD 4 0, wid := s.th.wid, set := (List.range 8).map s.th.ereg, lnch := s.th.task.lnch
    src := some (s.cur.1, s.cur.2, s.th.gen.toNat), item := none }

/-- `txsub` after its count: the lines go home, then the record goes to the Scarab, and the queue operands `rs` are taken (R298, R364). -/
def State.txsubSend (s : State) (rs : List Nat) (pc w : Word) (group : List Word) : Except Stop State :=
  let (s, all) := s.cleanSlot s.cur.1 s.cur.2
  if all && s.settled s.cur.1 s.cur.2 && decide (s.th.cntS < 1023) then
    let r := s.subRecord pc w group
    let s := { s with scarab := { s.scarab with subs := s.scarab.subs ++ [r] } }
    .ok (((s.setTh { s.th with cntS := s.th.cntS + 1 }).born r.lnch).takeReads rs).goOn
  else s.waitIn 7 [pc, w]

/-- Open a reconnaissance pass (R91, R299). -/
def State.openPass (s : State) (restart : Bool) (ret pc wid : Word) (dst : Nat) (args : List Word) : Except Stop State := do
  let st : Start := { pc := pc, args := [0, 0, args.getD 0 0, args.getD 1 0], wid := wid, rnd := s.th.rnd, task := s.th.task }
  let s ← s.openInline (.pass restart) ret dst st
  let e : Tbl Word := [(6, args.getD 2 0), (7, args.getD 3 0)]
  let heals : RegName → Bool | .e _ => true | .spr n => decide (n = 0x019) | _ => false
  pure (s.setTh { s.th with ext := e, acc := 0, regBad := s.th.regBad.filter (fun r => !heals r) })

/-- A checked restart: the number becomes a no-op, its grants are released, and the body runs as a pass; it counts as restarted once its
new record is submitted (R92, R366). -/
def State.restart (s : State) (x : Txn) : Except Stop State := do
  let s ← s.openPass true s.th.pc x.sub.pc x.sub.wid 0 x.sub.args
  let x := { x with noWrite := true }
  pure ((s.setTxState x.core (s.txBase x) 3 s.self).sendReleases x)

/-- `txchk` in a dispatched root (R92, R300). -/
def State.checkRoot (s : State) (k : Issue) : Except Stop State :=
  let t := s.th
  match t.task.txn, t.task.body with
  | true, some seq =>
    if t.task.spawned then .error k.operand
    else if t.task.checked then .ok (s.advance 4)
    else if !t.accQ.isEmpty then .error (.stall s)
    else
      match s.txn seq with
      | none => .ok (s.advance 4)
      | some x =>
        if x.sub.chk = true ∧ t.acc ≠ x.sub.check then s.restart x
        else .ok ((s.setTh { t with task := { t.task with checked := true } }).advance 4)
  | _, _ => .error k.operand

/-! ## Decrements (R49, R373, R407) -/

/-- A decrement met a poisoned frame: its parked continuation fails, or a kind 3 record is written (R407). -/
def State.frameFails (s : State) (n a lnch gen : Nat) : State :=
  match (s.core n).parked.find? (fun k => decide (k.frame = some a)) with
  | none => s.staleDecrement n a lnch gen
  | some k =>
    let c := s.core n
    let at_ := (firstBad c.lsBad a 32).getD a
    let r := s.contRec n k 3 (s.contPoint n k).1 (BitVec.ofNat 64 at_) 3 false
    (s.setCore n { c with parked := c.parked.erase k }).contFails n k r

/-- A join decrement reaches its frame; one that changes nothing is an arrival at the port as well (R48, R49, R129, R373). -/
def State.joinDown (s : State) (n : Nat) (f : FRef) (lnch : Nat) (w : Source) : State :=
  if s.frameBad n f.addr then (s.logPort n f.addr 4 6 w).frameFails n f.addr lnch f.gen
  else if s.frameGen n f.addr ≠ f.gen ∨ s.frameCount n f.addr = 0 then (s.logPort n f.addr 4 6 w).staleDecrement n f.addr lnch f.gen
  else s.countDown n f.addr w

/-- The sender of a decrement still runs, in the same generation: its site and slot. -/
def State.senderOf (s : State) (w : Source) : Option (Nat × Nat) :=
  (w.site.filter (fun m => (s.thread m w.slot).busyTask && decide ((s.thread m w.slot).gen.toNat = w.gen))).map (·, w.slot)

/-- A decrement that waits for a pre-empted core counts in the S of its sender until it is applied (R67). -/
def State.holdDecrement (s : State) (k : Nat) (f : FRef) (lnch : Nat) (next : Option TxF) (w : Source) : State :=
  match s.senderOf w with
  | none => s
  | some (m, i) =>
    let t := s.thread m i
    if 1023 ≤ t.cntS then s
    else { s.setThread m i { t with cntS := t.cntS + 1 } with chan := s.chan.set k (.decrement f lnch next w true) }

/-- A decrement is applied at its core, and the TREE decrement that follows it goes out; it waits while the core is pre-empted
(R67, R295). -/
def State.decrementArrives (s : State) (k : Nat) (f : FRef) (lnch : Nat) (next : Option TxF) (w : Source) (held : Bool) : State :=
  match s.siteOf f.core with
  | none => s.unpost k
  | some n =>
    if (s.core n).pre then (if held then s else s.holdDecrement k f lnch next w)
    else
      let s := ((s.unpost k).touch n).joinDown n f lnch w
      let s := if held then (match w.site with | some m => s.sDown m w.slot w.gen | none => s) else s
      match next with
      | some t => s.post (.tree t w)
      | none => s

/-- A TREE decrement is applied at the dispatch core. -/
def State.treeArrives (s : State) (k : Nat) (t : TxF) (w : Source) : State :=
  match s.siteOf t.core with
  | none => s.unpost k
  | some n => if (s.core n).pre then s else ((s.unpost k).touch n).treeDown n t.base w

/-! ## Work for free slots (R50, R51, R65) -/

/-- A core may take work in its slots. -/
def State.takesWork (s : State) (n : Nat) : Bool := s.clocked n && !(s.core n).pre && decide (n < 2048)

/-- The slot can resume a continuation (R50, R65). -/
def State.canResume (s : State) (n i : Nat) (k : Cont) : Bool :=
  let u := s.thread n (i + 8)
  (s.thread n i).isFree && decide (i < 16) &&
    (decide (k.thread.pair ≠ 1) || (decide (i < 8) && (u.isWfw || (u.isFree && decide (1 ≤ s.freeRegions n)))))

/-- The mesh neighbour of a site in a direction: 0 north, 1 east, 2 south, 3 west (R14, R51). Which way of y is north the spec does not
say; the model takes y - 1 (log entry 18). -/
def neighbour (n d : Nat) : Option Nat :=
  let x := n % 32
  let y := n % 1024 / 32
  match d with
  | 0 => if y = 0 then none else some (n - 32)
  | 1 => if x = 31 then none else some (n + 1)
  | 2 => if y = 31 then none else some (n + 32)
  | _ => if x = 0 then none else some (n - 1)

/-- A direction has a neighbour to steal from: an enabled core of the die (R51). -/
def State.stealFrom (s : State) (n d : Nat) : Option Nat := (neighbour n d).filter s.enabled

/-- The next direction with a neighbour, after the one tried last (R51). -/
def State.nextDir (s : State) (n : Nat) : Option Nat :=
  ((List.range 4).map (fun j => ((s.core n).stealDir + 1 + j) % 4)).find? (fun d => (s.stealFrom n d).isSome)

/-- A core begins a steal when it has nothing else to do (R51). -/
def State.stealTry (s : State) (n : Nat) : State :=
  let c := s.core n
  if s.takesWork n && c.runList.isEmpty && c.deque.isEmpty && !c.stealing && !s.dispenserHas n && (s.slotFor n .free false).isSome then
    match s.nextDir n with
    | none => s
    | some d =>
      match s.stealFrom n d with
      | none => s
      | some v => (s.setCore n { c with stealDir := d, stealing := true }).post (.steal n v)
  else s

/-- The index of the oldest record of a deque whose launch's group holds the thief: the top is the last one (R51). -/
def State.stealIndex (s : State) (thief victim : Nat) : Option Nat :=
  let l := (s.core victim).deque
  ((List.range l.length).reverse).find? (fun j => match l[j]? with | some r => s.inGroup r.lnch thief | none => false)

/-- The dirty lines of a victim go home; they count for no thread (R51, R109). -/
def State.cleanVictim (s : State) (n : Nat) : State :=
  let dirty := (s.core n).l1.filter (fun (l : Line) => decide (l.dirty ≠ 0))
  let s := dirty.foldl (fun s l => s.sendUncounted n l) s
  s.setCore n { s.core n with l1 := (s.core n).l1.map (fun (l : Line) => { l with dirty := 0, writers := 0 }) }

/-- A steal request reaches its victim; it waits while the victim is pre-empted (R51, R67). -/
def State.stealServe (s : State) (k thief victim : Nat) : State :=
  if (s.core victim).pre then s
  else
    let s := (s.unpost k).touch victim
    match s.stealIndex thief victim with
    | none => s.post (.stolen thief victim none)
    | some j =>
      let r := (s.core victim).deque[j]?
      let s := s.setCore victim { s.core victim with deque := (s.core victim).deque.eraseIdx j }
      (s.cleanVictim victim).post (.stolen thief victim r)

/-- Every write-back of a core has been acknowledged, and so has every store and reduction of its threads (R121). -/
def State.coreHome (s : State) (n : Nat) : Bool :=
  !s.flights.any (fun f => decide (f.site = n) && (f.inS || (match f.kind with | .writeback => true | _ => false)))

/-- The answer reaches the thief: a record starts once the sources that go first have nothing, a slot can take it and what the victim
wrote is at its homes (R50, R51, R121). -/
def State.stealAnswer (s : State) (k thief victim : Nat) (r : Option Record) : State :=
  match r with
  | none => ((s.unpost k).setCore thief { s.core thief with stealing := false }).touch thief
  | some r =>
    match s.slotFor thief .free (s.pairedLaunch r.lnch) with
    | none => s
    | some i =>
      if !s.takesWork thief || !s.coreHome victim || !(s.core thief).runList.isEmpty || !(s.core thief).deque.isEmpty
          || s.dispenserHas thief then s
      else (((s.unpost k).setCore thief { s.core thief with stealing := false }).startRecord thief i r)

/-- A `spawn.at` record reaches its target: a free slot, the deque, or back (R44, R292). -/
def State.spawnArrives (s : State) (k site slot target : Nat) (r : Record) : State :=
  if !s.takesWork target then s
  else
    let s := (s.unpost k).touch target
    match s.slotFor target .free (s.pairedLaunch r.lnch) with
    | some i => (s.startRecord target i r).post (.spawnAtReply site slot true r)
    | none =>
      if (s.core target).dequeFull then s.post (.spawnAtReply site slot false r)
      else (s.pushRecord target r).post (.spawnAtReply site slot true r)

/-- The thread is in the failure sequence (R364). -/
def Thread.failing (t : Thread) : Bool := match t.run with | .failing _ => true | _ => false

/-- The outcome of a `spawn.at` reaches its issuer; a returned record undoes the counts (R292). It waits while the issuer's core is
pre-empted, but a thread that fails there drains (R376). -/
def State.spawnReturns (s : State) (k site slot : Nat) (placed : Bool) (r : Record) : State :=
  if (s.core site).pre && !(s.thread site slot).failing then s
  else
    let s := (s.unpost k).touch site
    let t := s.thread site slot
    let s := s.setThread site slot { t with cntS := t.cntS - 1, reply := some (b2n placed) }
    if placed then s
    else
      let w := s.source site slot true
      let s := s.countDown site r.fref.addr w
      (if r.txn then s.treeUndo r.txf w else s).ended r.lnch

/-- R291: Increments the frame COUNT and pushes a child task record, or runs it inline. -/
def execSpawn (b : BitVec 5) (a : BitVec 5) (d : BitVec 5) (s : State) : Out :=
  let k : Issue := { code := (.long (0#8 ++ b ++ a ++ 0#2 ++ d ++ 99#7))
                     reads := [a.toNat, b.toNat], others := groupRegs d.toNat 4 ++ [.spr 0x010, .spr 0x014]
                     effect := true, jumps := true }
  issue k s fun s => do
    let (pc, s) := s.readS a.toNat
    let (w, s) := s.readS b.toNat
    s.spawnCheck k pc w false
    s.spawnHere pc w (s.readGroup d.toNat 4)

/-- R292: Writes back, counts and sends a child record to a named logical core. -/
def execSpawnAt (b : BitVec 5) (a : BitVec 5) (d : BitVec 5) (s : State) : Out :=
  let k : Issue := { code := (.long (8#8 ++ b ++ a ++ 0#2 ++ d ++ 99#7))
                     reads := [a.toNat, b.toNat], others := groupRegs d.toNat 4 ++ [.spr 0x010, .spr 0x014]
                     effect := true, jumps := true }
  issue k s fun s => do
    let args := s.readGroup d.toNat 4
    if s.th.phase ≠ 0 then s.spawnThere k.reads (s.th.held.headD 0) (s.th.held.getD 1 0) args
    else
      let ops := s.operandWords k.reads
      let pc := ops.headD 0
      let w := ops.getD 1 0
      s.spawnCheck k pc w true
      if s.th.inRecon then
        let s ← s.spawnInline (s.childRecord pc args (bits w.toNat 0 19))
        pure (s.takeReads k.reads)
      else (s.setTh { s.th with phase := 3 }).spawnThere k.reads pc w args

/-- R47: Checks a frame COUNT and continues, parks, runs popped work inline or stalls. -/
def execAwait (a : BitVec 5) (s : State) : Out :=
  let k : Issue := { code := (.long (512#13 ++ a ++ 99#14))
                     reads := [a.toNat]
                     effect := true, jumps := true }
  issue k s fun s =>
    let x := s.th.held.headD 0
    match s.th.phase with
    | 18 => .error (.stall s)
    | 19 => s.awaitFrame k a.toNat x
    | 20 => s.parkAt a.toNat x
    | _ => s.awaitFrame k a.toNat (s.peekS a.toNat)

/-- R295: Ends the task, inline child or pass, waiting for counters and write-backs before the join decrement. -/
def execQuit (s : State) : Out :=
  let k : Issue := { code := (.long 402653283#32)
                     effect := true, jumps := true }
  issue k s fun s =>
    match s.th.inl with
    | x :: _ => s.endInline x
    | [] => if s.th.monHeld.isSome then .error k.operand else s.quitTask 16

/-- R296: Quits keeping the region and some registers, and leaves rotation for dispenser work. -/
def execWfw (s : State) : Out :=
  let k : Issue := { code := (.long 536871011#32)
                     effect := true, jumps := true }
  issue k s fun s => do
    if !s.th.inl.isEmpty || s.th.monHeld.isSome then throw k.operand
    else
      let s ← s.drained 17
      pure ((s.leave s.self s.th.task).restSlot s.cur.1 s.cur.2)

/-- R297: Parks the thread at the run-list tail when other work is eligible. -/
def execYield (s : State) : Out :=
  let k : Issue := { code := (.long 671088739#32)
                     effect := true, jumps := true }
  issue k s fun s =>
    if s.th.inl.isEmpty && s.th.monHeld.isNone && s.workWaits s.cur.1 && s.mayPark then
      let (ok, s) := s.parkReady
      if ok then .ok s.yieldPark else .error (.stall s)
    else .ok (s.advance 4)

/-- R298: Builds a transaction submission record and sends it to the Scarab. -/
def execTxsub (b : BitVec 5) (a : BitVec 5) (d : BitVec 5) (s : State) : Out :=
  let k : Issue := { code := (.long (48#8 ++ b ++ a ++ 0#2 ++ d ++ 99#7))
                     reads := [a.toNat, b.toNat], others := groupRegs d.toNat 5 ++ (List.range 8).map RegName.e ++ [.spr 0x010]
                     effect := true, jumps := true, quiet := true }
  issue k s fun s => do
    let group := s.readGroup d.toNat 5
    if s.th.phase ≠ 0 then s.txsubSend k.reads (s.th.held.headD 0) (s.th.held.getD 1 0) group
    else
      let ops := s.operandWords k.reads
      let pc := ops.headD 0
      let w := ops.getD 1 0
      s.txsubCheck k pc w
      let fa := bits w.toNat 0 19
      let s := if bit w.toNat 19 then s.setCount s.cur.1 fa (s.frameCount s.cur.1 fa + 1) s.self else s
      s.txsubSend k.reads pc w group

/-- R299: Runs a body inline in reconnaissance mode and returns its check word and set. -/
def execTxrecon (b : BitVec 5) (a : BitVec 5) (d : BitVec 5) (s : State) : Out :=
  let k : Issue := { code := (.long (56#8 ++ b ++ a ++ 0#2 ++ d ++ 99#7))
                     reads := [a.toNat], writes := [d.toNat], others := groupRegs b.toNat 4
                     effect := true, jumps := true }
  issue k s fun s => do
    let args := s.readGroup b.toNat 4
    let (pc, s) := s.readS a.toNat
    if !entryOk pc then throw (.trap 3 pc)
    else if s.th.overflows 1 then throw (.trap 7 s.th.overflowVal)
    else if s.th.inRecon then pure ((s.writeS d.toNat 0).advance 4)
    else s.openPass false (s.th.pc + 4) pc s.th.wid d.toNat args

/-- R300: Compares ACC with the record's CHECK and may start a checked restart. In an inline child within a pass it traps, as in every
member but the root (R300; log entry 21). -/
def execTxchk (s : State) : Out :=
  let k : Issue := { code := (.long 1073741923#32)
                     effect := true, jumps := true }
  issue k s fun s =>
    if s.th.phase = 8 then s.quitTask 8
    else
      match s.th.inl with
      | x :: _ => (match x.kind with
        | .pass restart => s.endPass x restart
        | _ => .error k.operand)
      | [] => s.checkRoot k

/-- R50: A free slot takes the run-list head and resumes the continuation. -/
def execRunListResume (site : Nat) (slot : Nat) (s : State) : Out :=
  match (s.core site).runList with
  | [] => .next s
  | k :: rest =>
    .next (if s.takesWork site && s.canResume site slot k then
      (s.setCore site { s.core site with runList := rest }).resumeIn site slot k else s)

/-- R50: A free slot takes the bottom deque record as a new task. A run-list head that no free slot can take holds back the sources after
it (log entry 40). -/
def execDequePop (site : Nat) (slot : Nat) (s : State) : Out :=
  match (s.core site).deque with
  | [] => .next s
  | r :: rest =>
    .next (if s.takesWork site && (s.core site).runList.isEmpty && decide (slot < 16)
        && s.slotTakes site slot .free (s.pairedLaunch r.lnch) then
      (s.setCore site { s.core site with deque := rest }).startRecord site slot r else s)

/-- R51: An idle core sends a steal request to its next mesh neighbour. -/
def execStealAttempt (site : Nat) (s : State) : Out :=
  .next (s.stealTry site)

/-- R51: The victim answers with its oldest eligible record after writing back its L1, or empty. -/
def execStealRequestServe (k : Nat) (s : State) : Out :=
  match s.chan[k]? with
  | some (.steal thief victim) => .next (if s.alive then s.stealServe k thief victim else s)
  | _ => .next s

/-- R51: The thief receives the record and starts the stolen task, or the attempt fails. -/
def execStealReply (k : Nat) (s : State) : Out :=
  match s.chan[k]? with
  | some (.stolen thief victim r) => .next (if s.alive then s.stealAnswer k thief victim r else s)
  | _ => .next s

/-- R49: A decrement reaches a frame, possibly appending its continuation to the run list. -/
def execJoinDecrement (k : Nat) (s : State) : Out :=
  match s.chan[k]? with
  | some (.decrement f lnch next w held) => .next (if s.alive then s.decrementArrives k f lnch next w held else s)
  | some (.tree t w) => .next (if s.alive then s.treeArrives k t w else s)
  | _ => .next s

/-- R47: A stalled await executes again when a region frees, a record arrives or a decrement reaches the frame. -/
def execAwaitRetry (site : Nat) (slot : Nat) (s : State) : Out :=
  let t := s.thread site slot
  .next (if t.phase = 18 ∧ t.run = .stalled ∧ s.awaitStirs site slot = true then s.setThread site slot { t with phase := 19 }
    else s)

/-- R292: A spawn.at record arrives and takes a free slot or the deque. -/
def execSpawnAtArrival (k : Nat) (s : State) : Out :=
  match s.chan[k]? with
  | some (.spawnAt site slot target r) => .next (if s.alive then s.spawnArrives k site slot target r else s)
  | _ => .next s

/-- R292: A returned spawn.at record undoes the counts and runs the child inline. -/
def execSpawnAtReturn (k : Nat) (s : State) : Out :=
  match s.chan[k]? with
  | some (.spawnAtReply site slot placed r) => .next (if s.alive then s.spawnReturns k site slot placed r else s)
  | _ => .next s

end Sys2Proof.Machine
end

