-- ==== Sys2Proof/Machine/Sync.lean ====
section
/-!
DEFINITION. Messages, monitors, barriers and queue registers: major 25 (R56 to R62, R301 to R307, R401, R402), the arrival of messages,
bounces and barrier arrivals (R58, R59, R62, R372), and evicted contexts (R61, R374).
-/

namespace Sys2Proof.Machine

open Sys2Proof

/-! ## Messages (R58, R59, R301, R372) -/

/-- `send` at a priority (R301): the message goes out and counts in S. -/
def sendMsg (c : Code) (hi : Bool) (a d : Nat) (s : State) : Out :=
  let k : Issue := { code := c, reads := [a], others := if d = 0 then [] else (List.range' d 4).map RegName.s
                     quiet := true, effect := true }
  issue k s fun s0 => do
    let payload := s0.readGroup d 4
    let (x, s) := s0.readS a
    let w := x.toNat
    if bits w 32 32 ≠ 0 then throw k.operand
    else if 1023 ≤ s.th.cntS then throw (.stall s0)
    else
      let src := (s.cur.1, s.cur.2, s.th.gen.toNat)
      let s := s.setTh { s.th with cntS := s.th.cntS + 1 }
      pure { s with chan := s.chan ++ [.message src (bits w 0 12, bits w 12 4, bits w 16 16) hi payload s.th.task.lnch false] }

/-- An earlier message of the same thread to the same target at the same priority is on its way (R301). -/
def State.messageBehind (s : State) (k : Nat) (src dst : Nat × Nat × Nat) (hi : Bool) : Bool :=
  (s.chan.take k).any (fun p => match p with | .message a b h _ _ _ => decide (a = src ∧ b = dst ∧ h = hi) | _ => false)

/-- The reason for which a message bounces, if it does (R59, R301). The window's access table decides by the sender's master and the
address that the implementation gives a mailbox (R333; log entry 2). -/
def State.bounceReason (s : State) (src dst : Nat × Nat × Nat) (hi : Bool) : Option Nat :=
  match s.siteOf dst.1 with
  | none => some 3
  | some n =>
    let t := s.thread n dst.2.1
    let gone := match t.run with | .failing _ => true | _ => !t.busyTask
    if !s.tableAllows 1 (masterOf (s.thread src.1 src.2.1).priv) (Config.mailboxAt n dst.2.1) 32 1 then some 5
    else if (s.core n).pre && (s.core n).saved then some 4
    else if gone || decide (t.gen.toNat ≠ dst.2.2) then some 1
    else if !t.hasRoom hi then some 2
    else none

/-- A message arrives: it is delivered, or bounces (R58, R59); one to a trailing slot is delivered to that slot's own mailboxes (log entry
43). -/
def State.messageArrives (s : State) (k : Nat) (src dst : Nat × Nat × Nat) (hi : Bool) (payload : List Word) (lnch : Nat) (bad : Bool) : State :=
  if s.messageBehind k src dst hi then s
  else
    let s' := { s.bump with chan := s.chan.eraseIdx k }
    let u := s.thread src.1 src.2.1
    let s' := match s.siteOf dst.1 with | some n => s'.touch n | none => s'
    match s.bounceReason src dst hi, s.siteOf dst.1 with
    | none, some n =>
      let e : Entry := { core := (s.core src.1).lcore, slot := src.2.1, gen := src.2.2, kind := 1, reason := 0, payload := payload
                         lnch := lnch, fl := u.recFlags, seq := s.seqOf u.task, wid := u.wid, bad := bad }
      ((s'.setThread n dst.2.1 ((s'.thread n dst.2.1).pushEntry hi e))).sDown src.1 src.2.1 src.2.2
    | r, _ =>
      let e : Entry := { core := dst.1, slot := dst.2.1, gen := dst.2.2, kind := 2, reason := r.getD 3, payload := payload, lnch := lnch
                         fl := u.recFlags, seq := s.seqOf u.task, wid := u.wid, bad := bad }
      { s' with chan := s'.chan ++ [.bounce src hi e u.wid true] }

/-- A kind 4 record: an undeliverable bounce, for the thread that sent the message (R368, R372). -/
def State.bounceRecord (s : State) (dest : Nat × Nat × Nat) (e : Entry) (wid : Word) : State :=
  let c := s.core dest.1
  let r : ErrRec := { kind := 4, cause := e.reason, lnch := e.lnch, fl := e.fl, seq := e.seq, core := c.lcore, slot := dest.2.1, gen := dest.2.2
                      val1 := BitVec.ofNat 64 (e.core % 0x1000 + e.slot * 2 ^ 12 + e.gen * 2 ^ 16), val2 := e.payload.getD 0 0
                      wid := wid, cyc := c.cyc }
  s.record (clusterOf dest.1) r

/-- A bounce cannot be delivered: the task is gone, or waits in `quit` or `wfw` (R372). -/
def Thread.refusesBounce (t : Thread) (gen : Nat) : Bool :=
  decide (t.gen.toNat ≠ gen) || !t.busyTask || (match t.run with | .failing _ => true | _ => false)
    || [8, 16, 17].contains t.phase

/-- A bounce returns to its sender: to the mailbox, as a record once it can be written, or later (R59, R369, R372). -/
def State.bounceArrives (s : State) (k : Nat) (dest : Nat × Nat × Nat) (hi : Bool) (e : Entry) (wid : Word) (counted : Bool) : State :=
  let t := s.thread dest.1 dest.2.1
  let s' := ({ s with chan := s.chan.eraseIdx k }).touch dest.1
  let fin (s : State) : State := if counted then s.sDown dest.1 dest.2.1 dest.2.2 else s
  if t.refusesBounce dest.2.2 then
    if s.recordsFlow (clusterOf dest.1) then fin ((s'.bounceRecord dest e wid).writeRecord (clusterOf dest.1)) else s
  else if (s.core dest.1).pre || !t.hasRoom hi then s
  else fin (s'.setThread dest.1 dest.2.1 ((s'.thread dest.1 dest.2.1).pushEntry hi e))

/-- The header of an entry (R302). -/
def Entry.header (e : Entry) (hi : Bool) : Word :=
  BitVec.ofNat 64 (e.core % 0x1000 + e.slot % 16 * 2 ^ 12 + e.gen % 0x10000 * 2 ^ 16 + e.kind % 8 * 2 ^ 32 + b2n hi * 2 ^ 35
    + e.reason % 16 * 2 ^ 36)

/-- The entry that `recv` takes (R302). -/
def Thread.nextMail (t : Thread) : Option Entry := (t.mbHi ++ t.mbLo).head?

/-- The registers that take a poisoned payload are poisoned, which the spec does not say (R405; log entry 26). -/
def Thread.takeBad (t : Thread) (d : Nat) : Thread :=
  let rs := (List.range' d 4).filter (fun n => decide (0 < n ∧ n < 31) && (t.queueOf n).isNone)
  { t with regBad := t.regBad ++ rs.map (fun n => t.abs (.s n)) }

/-- Take the entry that `recv` takes: its five words, and whether it is a storage completion (R302). -/
def Thread.takeMail (t : Thread) : List Word × Bool × Thread :=
  match t.mbHi, t.mbLo with
  | e :: r, _ => (e.payload ++ [e.header true], decide (e.kind = 3), { t with mbHi := r })
  | [], e :: r => (e.payload ++ [e.header false], decide (e.kind = 3), { t with mbLo := r })
  | [], [] => (List.replicate 5 0, false, t)

/-- `waitm` and `waitm.hi` (R303). -/
def waitMail (c : Code) (hi : Bool) (s : State) : Out :=
  issue { code := c, takes := true } s fun s =>
    if s.th.mbHi.isEmpty && (hi || s.th.mbLo.isEmpty) then .error (.stall s) else .ok s

/-! ## Monitors (R61, R304, R374, R401) -/

/-- The entry of a key. -/
def Cluster.mon (c : Cluster) (key : Word) : Option Mon := c.mons.find? (fun m => decide (m.key = key))

/-- A thread gets a monitor. -/
def State.giveMon (s : State) (who : Nat × Nat) (key : Word) : State :=
  s.setThread who.1 who.2 { s.thread who.1 who.2 with monHeld := some key, monWait := none }

/-- The holder leaves a monitor: the oldest waiter holds it, or the entry is free (R61). -/
def State.leaveMon (s : State) (n i : Nat) (key : Word) : State :=
  let k := clusterOf n
  let c := s.cluster k
  let s := s.setThread n i { s.thread n i with monHeld := none }
  match c.mon key with
  | none => s
  | some m =>
    match m.waiters with
    | [] => s.setCluster k { c with mons := c.mons.filter (fun x => decide (x.key ≠ key)) }
    | w :: r =>
      (s.setCluster k { c with mons := c.mons.map (fun x => if x.key = key then { x with holder := w, waiters := r } else x) }).giveMon w key

/-- The waiting thread's context goes to the run queue of its cluster (R61). -/
def State.evict (s : State) : State :=
  let k := clusterOf s.cur.1
  let e : Evicted := { site := s.cur.1, thread := { s.th with cmp := none } }
  (s.setCluster k { s.cluster k with runq := (s.cluster k).runq ++ [e] }).releaseTask s.cur.1 s.cur.2

/-- Enter a monitor: hold it, wait for it, or meet a full table; the operand is taken as the instruction completes (R61, R374). -/
def State.enterMon (s : State) (a : Nat) (key : Word) : Except Stop State :=
  let k := clusterOf s.cur.1
  let c := s.cluster k
  match c.mon key with
  | some m =>
    let s := s.setCluster k { c with mons := c.mons.map (fun x => if x.key = m.key then { x with waiters := x.waiters ++ [s.cur] } else x) }
    .error (.stall (s.setTh { s.th with monWait := some key, phase := 9, held := [key] }))
  | none =>
    if c.mons.length < 64 then
      let s := s.setCluster k { c with mons := c.mons ++ [{ key := key, holder := s.cur, waiters := [] }] }
      .ok (((s.readS a).2.giveMon s.cur key).endPhase).goOn
    else if c.runq.length < Config.runQueueRoom k then
      let (ok, s) := s.parkReady
      let s := s.setTh { s.th with phase := 22, held := [key] }
      if ok then .ok s.evict else .error (.stall s)
    else .error (.stall (s.setTh { s.th with phase := 22, held := [key] }))

/-- The slot of a core that a reloaded context takes: the lowest idle one, with an idle partner for a pair; one in `wfw` is not
idle (R61, R65; log entries 16, 42). -/
def State.idleSlot (s : State) (n : Nat) (paired : Bool) : Option Nat :=
  (List.range 16).find? (fun i => (s.thread n i).isFree &&
    (!paired || (decide (i < 8) && ((s.thread n (i + 8)).isWfw || ((s.thread n (i + 8)).isFree && decide (1 ≤ s.freeRegions n))))))

/-- The oldest evicted context of a cluster returns when an entry is free: its thread issues its `menter` again (R61).
Its slot gets a new generation and its S, C and T are 0, which the spec does not say (log entry 42). -/
def State.reload (s : State) (k : Nat) : State :=
  let c := s.cluster k
  match c.runq with
  | [] => s
  | e :: rest =>
    if 64 ≤ c.mons.length ∨ s.takesWork e.site = false then s
    else
      match s.idleSlot e.site (decide (e.thread.pair = 1)) with
      | none => s
      | some i =>
        let u := s.thread e.site i
        let t := { e.thread with run := .stalled, gen := u.gen + 1, mbHi := u.mbHi, mbLo := u.mbLo, cntS := 0, cntC := 0, cntT := 0 }
        let s := (s.setCluster k { c with runq := rest }).setThread e.site i t
        (if t.pair = 1 then s.startTrailing e.site i else s).touch e.site

/-! ## Barriers (R62, R305) -/

/-- An arrival reaches its unit: the generation it saw goes back (R62). -/
def State.barrierArrives (s : State) (k cl u site slot load : Nat) : State :=
  let c := s.cluster cl
  let b := tblGet {} u c.bars
  let n := b.arrived + 1
  let b' : Bar := if n = b.expected then { b with arrived := 0, gen := (b.gen + 1) % 256 } else { b with arrived := n }
  let s := { s with chan := s.chan.eraseIdx k }
  ((s.setCluster cl { c with bars := tblSet u b' c.bars }).touch site).deliver site slot load 0 [BitVec.ofNat 8 b.gen]

/-- `bar.arrive` sends its arrival; the destination waits for the answer and counts in L (R305). -/
def State.barSend (s : State) (u d : Nat) : Except Stop State :=
  if 1023 ≤ s.th.cntL then .error (.stall s)
  else
    let toQueue := (s.th.queueOf d).isSome
    let (id, s) := s.fresh
    let t := s.th
    let l : Load := { id := id, dst := t.abs (.s d), ext := .unsigned 8, got := [], waiting := 1, elems := [], acq := false
                      refused := false, dead := false, counted := true, isLoad := false, toQueue := toQueue }
    let s := s.post (.arrive (clusterOf s.cur.1) u s.cur.1 s.cur.2 id)
    let plain := decide (d = 0) || decide (d = 31) || toQueue
    let s := s.setTh { t with cntL := t.cntL + 1, loads := t.loads ++ [l]
                              pend := if plain then t.pend else t.pend ++ [(t.abs (.s d), id)] }
    if toQueue then s.waitIn 2 [BitVec.ofNat 64 id] else .ok s

/-! ## Queue configuration (R306) -/

/-- The configuration of queue q in a word. -/
def queueConf (x : Word) (q : Nat) : HwQ :=
  { en := x.getLsbD (32 + q), writer := bits x.toNat (8 * q) 4, reader := bits x.toNat (8 * q + 4) 4, items := [] }

/-- `qcfg` refuses a word (R306). -/
def State.qcfgRefused (s : State) (x : Word) : Bool :=
  decide (bits x.toNat 36 28 ≠ 0) || (List.range 4).any (fun q => (queueConf x q).en && decide ((queueConf x q).writer = (queueConf x q).reader))
    || s.co.threads.any (fun t => t.2.qmap) || (List.range 4).any (fun q => !(s.co.queue q).items.isEmpty)

/-- R301: Sends a 32-byte message at low priority. -/
def execSendLo (a : BitVec 5) (d : BitVec 5) (s : State) : Out :=
  sendMsg (.long (0#13 ++ a ++ 0#2 ++ d ++ 103#7)) false a.toNat d.toNat s

/-- R301: Sends a 32-byte message at high priority. -/
def execSendHi (a : BitVec 5) (d : BitVec 5) (s : State) : Out :=
  sendMsg (.long (0#13 ++ a ++ 1#2 ++ d ++ 103#7)) true a.toNat d.toNat s

/-- R302: Takes one mailbox entry into five registers. -/
def execRecv (d : BitVec 5) (s : State) : Out :=
  let k : Issue := { code := (.long (32768#20 ++ d ++ 103#7))
                     writes := List.range' d.toNat 5, takes := true }
  issue k s fun s =>
    let (ws, stored, t) := s.th.takeMail
    let bad := s.th.nextMail.any (·.bad)
    let s := (s.setTh t).writeGroup d.toNat ws
    let s := if bad then s.setTh (s.th.takeBad d.toNat) else s
    .ok (if stored then s.bumpEpoch s.cur.1 else s)

/-- R303: Stalls until either mailbox holds an entry. -/
def execWaitm (s : State) : Out :=
  waitMail (.long 268435559#32) false s

/-- R303: Stalls until the high mailbox holds an entry. -/
def execWaitmHi (s : State) : Out :=
  waitMail (.long 268439655#32) true s

/-- R304: Enters a cluster monitor, waiting or being evicted as needed. -/
def execMenter (a : BitVec 5) (s : State) : Out :=
  let k : Issue := { code := (.long (768#13 ++ a ++ 103#14))
                     reads := [a.toNat], effect := true, jumps := true }
  issue k s fun s =>
    let held := s.th.held.headD 0
    match s.th.phase with
    | 9 => if s.th.monHeld = some held then .ok (s.readS a.toNat).2.goOn else .error (.stall s)
    | 22 => s.enterMon a.toNat held
    | _ => if s.th.monHeld.isSome then .error k.operand else s.enterMon a.toNat (s.peekS a.toNat)

/-- R304: Passes the monitor to the oldest waiter or frees the entry. -/
def execMexit (a : BitVec 5) (s : State) : Out :=
  let k : Issue := { code := (.long (1024#13 ++ a ++ 103#14))
                     reads := [a.toNat], effect := true }
  issue k s fun s =>
    let (x, s) := s.readS a.toNat
    if s.th.monHeld = some x then .ok (s.leaveMon s.cur.1 s.cur.2 x) else .error k.operand

/-- R305: Sets EXPECTED of a barrier unit and clears ARRIVED. -/
def execBarCfg (n : BitVec 4) (a : BitVec 5) (s : State) : Out :=
  let k : Issue := { code := (.long (80#9 ++ n ++ a ++ 103#14))
                     reads := [a.toNat], effect := true }
  issue k s fun s =>
    let (x, s) := s.readS a.toNat
    let c := s.cluster (clusterOf s.cur.1)
    let b := tblGet {} n.toNat c.bars
    if x.toNat = 0 ∨ 4095 < x.toNat ∨ b.arrived ≠ 0 then .error k.operand
    else
      let b' : Bar := { b with expected := x.toNat, arrived := 0 }
      .ok (s.setCluster (clusterOf s.cur.1) { c with bars := tblSet n.toNat b' c.bars })

/-- R305: Sends an arrival to a barrier unit and awaits the seen generation. -/
def execBarArrive (n : BitVec 4) (d : BitVec 5) (s : State) : Out :=
  let k : Issue := { code := (.long (96#9 ++ n ++ 0#7 ++ d ++ 103#7))
                     writes := [d.toNat], effect := true, takes := true }
  issue k s fun s =>
    if s.th.phase ≠ 0 then s.amoWait d.toNat
    else if (tblGet {} n.toNat (s.cluster (clusterOf s.cur.1)).bars).expected = 0 then .error k.operand
    else s.barSend n.toNat d.toNat

/-- R305: Stalls until the barrier generation differs from sA. -/
def execBarWait (n : BitVec 4) (a : BitVec 5) (s : State) : Out :=
  let k : Issue := { code := (.long (112#9 ++ n ++ a ++ 103#14))
                     reads := [a.toNat] }
  issue k s fun s =>
    let x := if s.th.phase = 23 then s.th.held.headD 0 else s.peekS a.toNat
    if (tblGet {} n.toNat (s.cluster (clusterOf s.cur.1)).bars).gen = x.toNat % 256 then s.waitIn 23 [x]
    else .ok (s.readS a.toNat).2.endPhase

/-- R306: Configures the core's queue registers. -/
def execQcfg (a : BitVec 5) (s : State) : Out :=
  let k : Issue := { code := (.long (2048#13 ++ a ++ 103#14))
                     reads := [a.toNat], effect := true }
  issue k s fun s =>
    let (x, s) := s.readS a.toNat
    if s.qcfgRefused x then .error k.operand
    else .ok (s.setCo { s.co with hwq := (List.range 4).map (fun q => (q, queueConf x q)) })

/-- R307: Unmaps q0–q3 from s24–s27. -/
def execQmapOff (s : State) : Out :=
  let k : Issue := { code := (.long 1207959655#32) }
  issue k s fun s => .ok (s.setTh { s.th with qmap := false })

/-- R307: Maps q0–q3 onto s24–s27. -/
def execQmapOn (s : State) : Out :=
  let k : Issue := { code := (.long 1207963751#32) }
  issue k s fun s => .ok (s.setTh { s.th with qmap := true })

/-- R58: A message arrives at the target and is delivered or bounced. -/
def execMessageDelivery (k : Nat) (s : State) : Out :=
  match s.chan[k]? with
  | some (.message src dst hi payload lnch bad) => .next (if s.alive then s.messageArrives k src dst hi payload lnch bad else s)
  | _ => .next s

/-- R59: A bounce record arrives at the sender's mailbox or waits in its network interface. -/
def execBounceReturn (k : Nat) (s : State) : Out :=
  match s.chan[k]? with
  | some (.bounce dest hi e wid counted) => .next (if s.alive then s.bounceArrives k dest hi e wid counted else s)
  | _ => .next s

/-- R61: When a monitor entry frees, the oldest evicted context is reloaded onto an idle slot. -/
def execEvictedContextReload (cluster : Nat) (s : State) : Out :=
  .next (if s.alive then s.reload cluster else s)

/-- R62: An arrival reaches the barrier unit, increments ARRIVED and may advance GEN. -/
def execBarrierArrival (k : Nat) (s : State) : Out :=
  match s.chan[k]? with
  | some (.arrive cl u site slot load) => .next (if s.alive then s.barrierArrives k cl u site slot load else s)
  | _ => .next s

end Sys2Proof.Machine
end

