-- ==== Sys2Proof/Machine/Failure.lean ====
section
/-!
DEFINITION. The failure sequence of a thread (R363 to R366), the comparator of a pair (R64, R370), and the error queues (R369).
-/

namespace Sys2Proof.Machine

open Sys2Proof

/-! ## Step 1: the slot stops (R364, R401) -/

/-- A thread no longer waits for its monitor. -/
def State.leaveWait (s : State) (n i : Nat) : State :=
  let k := clusterOf n
  let c := s.cluster k
  (s.setCluster k { c with mons := c.mons.map (fun m => { m with waiters := m.waiters.filter (fun w => decide (w ≠ (n, i))) }) }).setThread
    n i { s.thread n i with monWait := none }

/-- An entry of a failing thread's mailbox: a message goes back, a bounce and a completion leave a record (R364). -/
def State.discardEntry (s : State) (n i : Nat) (hi : Bool) (e : Entry) : State :=
  let t := s.thread n i
  if e.kind = 1 then
    match s.siteOf e.core with
    | none => s
    | some m =>
      let back : Entry := { e with core := (s.core n).lcore, slot := i, gen := t.gen.toNat, kind := 2, reason := 1 }
      s.post (.bounce (m, e.slot, e.gen) hi back e.wid false)
  else if e.kind = 2 then s.bounceRecord (n, i, t.gen.toNat) e t.wid
  else s.storageRec 35 0 (e.payload.getD 0 0) (e.payload.getD 2 0)

/-- The failing instruction has no effect: a `spawn.at` whose record has not left takes its counts back, and so does a `txsub` of its
frame's count (R291, R298, R364). -/
def State.undoWait (s : State) (n i : Nat) : State :=
  let t := s.thread n i
  let w := s.source n i true
  let c := (t.held.getD 1 0).toNat
  match t.phase with
  | 4 => ((s.countDown n (bits c 0 19) w).treeUndo (if t.task.txn then t.task.txf else none) w).ended t.task.lnch
  | 7 => if bit c 19 then s.countDown n (bits c 0 19) w else s
  | _ => s

/-- Step 1: the instruction that waits, monitor, mailboxes, hand-backs and the operations that they held (R364, R420). -/
def State.failStop (s : State) (n i : Nat) : State :=
  let s := if (s.thread n i).pair = 2 then s else s.undoWait n i
  let s := match (s.thread n i).monHeld with | some key => s.leaveMon n i key | none => s
  let s := if (s.thread n i).monWait.isSome then s.leaveWait n i else s
  let t := s.thread n i
  let s := t.mbHi.foldl (fun s e => s.discardEntry n i true e) s
  let s := t.mbLo.foldl (fun s e => s.discardEntry n i false e) s
  let c := s.core n
  let s := s.setCore n { c with ops := c.ops.map (fun (o : EngOp) => if o.slot = i then { o with held := false } else o) }
  s.setThread n i { s.thread n i with run := .failing 2, mbHi := [], mbLo := [], due := [], hb := none
                                      phase := 0, reply := none, held := [] }

/-! ## Steps 4 to 8 -/

/-- Step 4: every register and special register of the thread is 0, SRS is 1 and QMAP is clear (R364). -/
def Thread.scrub (t : Thread) : Thread :=
  { t with run := .failing 5, glob := [], win := [], vec := [], prd := [], ext := [], wid := 0, rnd := 0, flg := 0, dpat := 0, xpc := 0
           xval := 0, xcode := 0, ppriv := false, pqmap := false, act := false, srs := 1, qmap := false, regBad := [] }

/-- Step 5: the region is zero, one block a cycle (R364). -/
def State.zeroRegion (s : State) (n i : Nat) : State :=
  let r := (s.thread n i).region
  let w := s.source n i true
  (List.range 64).foldl (fun s j => s.lsHard n (r + 64 * j) (List.replicate 64 0) 7 w) s

/-- The kind 1 record of a failing thread (R363, R367). -/
def State.failRecord (s : State) (n i : Nat) (f : FailInfo) : ErrRec :=
  { s.threadRec n i 1 f.cause f.pc f.val1 f.val2 f.pre with wid := f.wid, cyc := f.cyc }

/-- Step 6: the record is queued; its transactions are marked, or its launch counts a failed item (R364, R366, R369). -/
def State.failReport (s : State) (n i : Nat) (f : FailInfo) : State :=
  let k := clusterOf n
  let num := s.nextRecord k
  let t := s.thread n i
  let s := s.record k (s.failRecord n i f)
  let s := s.setThread n i { t with fail := some { f with queued := true, num := num } }
  s.failItems (s.source n i true) t

/-- Step 7: the decrements of the popped inline children, innermost first, and of the task (R364, R365). -/
def State.failLeave (s : State) (n i : Nat) : State :=
  let t := s.thread n i
  let s := s.leaveAll (s.source n i true) t
  s.setThread n i { s.thread n i with run := .failing 8 }

/-- One step of a failing thread. The trailing thread of a pair makes steps 1 to 5 and is released with its partner (R364, R370). -/
def State.failStep (s : State) (n i : Nat) : State :=
  let t := s.thread n i
  let trail := decide (t.pair = 2)
  match t.run, t.fail with
  | .failing k, some f =>
    match k with
    | 1 => s.failStop n i
    | 2 => if t.cntr = 0 then s.setThread n i { t with run := .failing 3 } else s
    | 3 =>
      let (s', all) := s.cleanSlot n i
      if all && decide ((s'.thread n i).cntS = 0) && s'.storesHome n i then s'.setThread n i { s'.thread n i with run := .failing 4 } else s'
    | 4 => s.setThread n i t.scrub
    | 5 => (s.zeroRegion n i).setThread n i { (s.zeroRegion n i).thread n i with run := .failing 6 }
    | 6 =>
      if trail then s.setThread n i { t with run := .failing 8 }
      else if !f.queued then s.failReport n i f
      else if f.num < (s.cluster (clusterOf n)).errTail then s.setThread n i { t with run := .failing 7 }
      else s
    | 7 => s.failLeave n i
    | _ =>
      if trail then s
      else if t.pair = 1 ∧ (s.thread n (i + 8)).run ≠ .failing 8 then s
      else s.releaseTask n i
  | _, _ => s

/-! ## Pairs (R64, R370) -/

/-- The first address of an effect at which another effect's list of addresses differs (R370). -/
def firstDiffer : List Word → List Word → Option Word
  | [], _ => none
  | a :: _, [] => some a
  | a :: as, b :: bs => if a = b then firstDiffer as bs else some a

/-- What a record shows of an effect that differs: its first 8 bytes, or the address when the addresses differ, or a trap's CODE (R370). -/
def PairEffect.shown (e f : PairEffect) : Word :=
  if e.trap.isNone ∧ f.trap.isNone then (firstDiffer e.addrs f.addrs).getD e.head else e.head

/-- The comparator: equal effects take place, a mismatch fails the pair (R64, R370). -/
def State.comparePair (s : State) (n i : Nat) : State :=
  let t := s.thread n i
  let u := s.thread n (i + 8)
  if t.pair ≠ 1 ∨ u.pair ≠ 2 then s
  else
    match t.cmp, u.cmp with
    | some e, some f =>
      if e.go then s
      else if e.trap = f.trap ∧ e.key = f.key then
        let s := s.setThread n i { t with cmp := some { e with go := true } }
        s.setThread n (i + 8) { u with cmp := some { f with go := f.trap.isSome } }
      else
        s.failThread n i { cause := 4, pc := t.pc, val1 := e.shown f, val2 := f.shown e, pre := false, queued := false }
    | _, _ => s

/-- R364: A failing thread drains, writes back, scrubs, records and releases its slot. -/
def execThreadFailure (site : Nat) (slot : Nat) (s : State) : Out :=
  .next (if s.clocked site then s.failStep site slot else s)

/-- R64: Effects of a redundant pair are compared and take place once when equal. -/
def execPairCompare (site : Nat) (slot : Nat) (s : State) : Out :=
  .next (if s.clocked site then s.comparePair site slot else s)

/-- R369: A cluster writes an error record to its queue and advances TAIL. -/
def execErrorRecordWrite (cluster : Nat) (s : State) : Out :=
  .next (if s.alive then s.writeRecord cluster else s)

/-- R369: A full error queue re-reads HEAD every 1 µs. -/
def execErrorQueueHeadPoll (cluster : Nat) (s : State) : Out :=
  .next (if s.alive then s.pollHead cluster else s)

end Sys2Proof.Machine
end

