-- ==== Sys2Proof/Machine/Traffic.lean ====
section
/-!
DEFINITION. Accesses on their way: what a home, a window port or the host does with one that arrives, and what its answer does at the
core (R99, R107, R109, R123, R134, R136, R187, R211, R216, R217, R407, R415); walks (R115 to R119, R447); banks (R100, R180); scrub,
refresh and corrected errors (R335, R411, R412).
-/

namespace Sys2Proof.Machine

open Sys2Proof

/-! ## Arriving (R123, R331, R415) -/

/-- Replace an access on its way. -/
def State.setFlight (s : State) (k : Nat) (f : Flight) : State := { s with flights := s.flights.set k f }

/-- An access is no longer on its way. -/
def State.dropFlight (s : State) (k : Nat) : State := { s with flights := s.flights.eraseIdx k }

/-- Two accesses of a core that reach their port in the order in which they were sent: to one line, or of one thread to one port
outside the L1 (R123). -/
def Flight.ordered (f g : Flight) : Bool :=
  decide (f.site = g.site) && (decide (f.pa / 64 = g.pa / 64)
    || (decide (f.slot = g.slot) && f.nc && g.nc && (portKey f.pa).isSome && decide (portKey f.pa = portKey g.pa)))

/-- An access of the kind that R414 and R415 number: 0 read, 1 write, 2 atomic. -/
def Flight.acc (f : Flight) : Nat :=
  match f.kind with
  | .store => 1
  | .writeback => 1
  | .atomic _ => 2
  | _ => 0

/-- The access goes to a home, of the own package or a peer (R99). -/
def Flight.toHome (f : Flight) : Bool := decide (regionOf (f.pa % 2 ^ 40) = some 0)

/-- The access is an L1 write-back. -/
def Flight.isWriteback (f : Flight) : Bool := match f.kind with | .writeback => true | _ => false

/-- The access is an atomic. -/
def Flight.isAtomic (f : Flight) : Bool := match f.kind with | .atomic _ => true | _ => false

/-- The package that serves an access. -/
def Flight.package (f : Flight) : Nat := f.pa / 2 ^ 40 % 256

/-- The access leaves the package. -/
def State.leaves (s : State) (f : Flight) : Bool := decide (f.package ≠ s.scarab.pidx)

/-- The package of the access has no link that is up; the access waits for one (R440). -/
def State.noPath (s : State) (f : Flight) : Bool := s.leaves f && f.via.isNone && !s.reachable f.package

/-- The link that carries the access does not send at present (R439). -/
def State.linkHolds (s : State) (f : Flight) : Bool :=
  match f.via with
  | some l => decide ((s.link l).st ≠ 2)
  | none => false

/-- Two accesses are of one flow: of one core to one home of another package (R440). -/
def Flight.sameFlow (f g : Flight) : Bool :=
  decide (f.site = g.site ∧ f.package = g.package ∧ homeOf (f.pa % 2 ^ 40) = homeOf (g.pa % 2 ^ 40))

/-- An access leaves toward another package on the link of its flow: not while the flow has an access on another link, and not beyond the
link's send window (R329, R438, R440). -/
def State.depart (s : State) (k : Nat) (f : Flight) : State :=
  match s.flowLink f.site f.package (homeOf (f.pa % 2 ^ 40)) with
  | none => s
  | some l =>
    if s.flights.any (fun g => g.sameFlow f && g.via.any (fun x => decide (x ≠ l)))
        || decide ((s.link l).window ≤ (s.flights.filter (fun g => decide (g.via = some l))).length) then s
    else { s with flights := s.flights.set k { f with via := some l } }

/-- The access arrives now: it has not arrived yet, its link is not being retrained, and nothing that is ordered before it is left
(R123, R432, R439). -/
def State.arrives (s : State) (k : Nat) (f : Flight) : Bool :=
  s.on && s.fatal.isNone && (match f.stage with | .request => true | _ => false) && !s.noPath f && !s.linkHolds f
    && !(s.ulisil.retraining && decide (regionOf (f.pa % 2 ^ 40) = some 5002))
    && !(s.flights.take k).any (fun g => (match g.stage with | .request => true | _ => false) && g.ordered f)

/-- The pieces of the element of an access: of a store, which a target refuses whole (R393), all; of any other, its own. -/
def Flight.elementPieces (f : Flight) : List (Nat × Nat) :=
  match f.kind with
  | .store => if f.parts.isEmpty then [(f.pa, f.size)] else f.parts.flatMap (fun p => pieces p.2 p.1 p.2)
  | _ => [(f.pa, f.size)]

/-- Why the map or the target of a piece refuses it, if it does (R95, R333, R415). -/
def State.flightRefused (s : State) (f : Flight) (p : Nat × Nat) : Option Nat :=
  match s.decodePa p.1 p.2 f.acc with
  | .error why => some why
  | .ok t => s.targetRefuses (masterOf f.priv) p.1 p.2 f.acc t

/-- Its target under the map and the tables, or why it is refused; the package that serves a whole access judges it after the fabric has
let it pass (R95, R333, R393, R415). -/
def State.admitted (s : State) (f : Flight) : Except Nat Target :=
  let why := if f.admitted then none else f.elementPieces.findSome? (s.flightRefused f)
  match why, f.far, s.decodePa f.pa f.size f.acc with
  | some 4, _, _ => .error 4
  | some 5, _, _ => .error 5
  | _, some w, _ => .error w
  | some w, none, _ => .error w
  | none, none, .error w => .error w
  | none, none, .ok t => .ok t

/-- The target has admitted the element of a store: its other pieces are not refused either (R393). -/
def State.admitElement (s : State) (f : Flight) : State :=
  match f.kind with
  | .store =>
    { s with flights := s.flights.map (fun g =>
        if g.grp = f.grp ∧ g.site = f.site ∧ g.place = f.place then { g with admitted := true } else g) }
  | _ => s

/-- Who the ring of the port shows (R128). -/
def State.flightSource (s : State) (f : Flight) : Source :=
  if f.slot < 16 then { s.source f.site f.slot false with gen := f.gen } else s.outsider

/-- A refusal: a prefetch is dropped, anything else turns back (R213, R415). -/
def State.refuseFlight (s : State) (k : Nat) (f : Flight) (why : Nat) : State :=
  match f.kind with
  | .prefetch _ => s.dropFlight k
  | _ => s.setFlight k { f with stage := .refusal why }

/-- The granules of a line that hold a poisoned byte. -/
def granuleMask (bs : List (Byte × Bool)) : BitVec 8 :=
  BitVec.ofNat 8 (((List.range 8).map (fun g => if ((bs.drop (8 * g)).take 8).any (fun b => b.2) then 2 ^ g else 0)).sum)

/-- Granules of a mask. -/
def maskGranules (m : BitVec 8) : List Nat := (List.range 8).filter (fun g => m.getLsbD g)

/-- The first byte of a fetched line that the load takes poisoned; it does not take a byte that its own core had stored (R407). -/
def Flight.fillBad (f : Flight) (bs : List (Byte × Bool)) : Option Nat :=
  (f.data.zip (bs.drop (f.va.toNat % 64))).findIdx? (fun x => x.1.isNone && x.2.2)

/-- The first poisoned byte of bytes read. -/
def badPlace (bs : List (Byte × Bool)) : Option Nat := bs.findIdx? (fun b => b.2)

/-- A read at its port; a fetched line stands before the bytes of the own core. A prefetch into the home cache ends here. -/
def State.serveRead (s : State) (k : Nat) (f : Flight) (t : Target) : State :=
  let (bs, s') := s.portRead t f.pa f.size 3 (s.flightSource f)
  match f.kind with
  | .fill => s'.setFlight k { f with stage := .reply (f.fillBad bs), data := bs.map (fun b => some b.1) ++ f.data, bad := granuleMask bs }
  | .prefetch true => s'.setFlight k { f with stage := .reply none, data := bs.map (fun b => some b.1), bad := granuleMask bs }
  | .prefetch false => s'.dropFlight k
  | _ => s'.setFlight k { f with stage := .reply (badPlace bs), data := bs.map (fun b => some b.1) }

/-- A write at its port (R109, R124). -/
def State.serveWrite (s : State) (k : Nat) (f : Flight) (t : Target) : State :=
  match s.portWrite t (masterOf f.priv) f.pa f.data (maskGranules f.bad) 0 (s.flightSource f) with
  | .done s' => s'.setFlight k { f with stage := .reply none }
  | .hold => s
  | .refuse => s.refuseFlight k f 3

/-- An atomic at its port: one indivisible operation (R216). With a destination it takes no effect on a poisoned value (R407). -/
def State.serveAtomic (s : State) (k : Nat) (f : Flight) (t : Target) (o : Amo) : State :=
  let w := s.flightSource f
  let back (s : State) (bad : Option Nat) (m : Nat) : State :=
    s.setFlight k { f with stage := .reply bad, data := (leBytes o.width m).map some }
  let first (bads : List Nat) (a : Nat) : Option Nat := if f.inS then none else (firstBad bads a o.width).map (fun b => b - a)
  match t with
  | .window n =>
    let a := f.pa % 0x80000
    match first (s.core n).lsBad a with
    | some b => back ((s.logPort n a o.width 1 w).touch n) (some b) 0
    | none =>
      let (m, _, s') := s.bankAtomic n a o w
      back (s'.touch n) none m
  | _ =>
    let m := s.dramNum f.pa o.width
    let bad := first s.dramBad (s.dramKey f.pa)
    if bad.isSome || !o.writes then back (s.portRead t f.pa o.width 1 w).2 bad m
    else
      match s.portWrite t (masterOf f.priv) f.pa ((leBytes o.width (o.apply m).1).map some) (maskGranules f.bad) 1 w with
      | .done s' => back s' none m
      | _ => s

/-- An access arrives at its port; one to another package leaves its own first. -/
def State.serveFlight (s : State) (k : Nat) (f : Flight) : State :=
  if !s.arrives k f then s
  else if s.leaves f && f.via.isNone then s.depart k f
  else
    match s.admitted f with
    | .error why => s.refuseFlight k f why
    | .ok t =>
      match f.kind with
      | .atomic o => (s.serveAtomic k f t o).bump
      | .store => ((s.admitElement f).serveWrite k { f with admitted := true } t).bump
      | .writeback => (s.serveWrite k f t).bump
      | _ => (s.serveRead k f t).bump

/-! ## Answers (R107, R187, R211, R217, R407) -/

/-- The thread that sent an access still holds its generation; nobody waits for a victim's write-back. -/
def State.flightLive (s : State) (f : Flight) : Bool :=
  decide (f.slot < 16) && decide ((s.thread f.site f.slot).gen.toNat = f.gen)

/-- The thread is in the failure sequence. -/
def Thread.isFailing (t : Thread) : Bool := match t.run with | .failing _ => true | _ => false

/-- An answer with poison fails its thread at the instruction that made the access; the record shows the first poisoned byte, and the
Ulisil link's code for the host window (R407, R431, R432). -/
def State.consume (s : State) (f : Flight) (bad : Option Nat) : State :=
  match bad with
  | none => s
  | some j =>
    if (s.thread f.site f.slot).isFailing then s
    else
      let host := decide (regionOf (f.pa % 2 ^ 40) = some 5002)
      let code := if f.toHome then s.homeCode else if host then 11 else 3
      let at_ : Word := if f.toHome || host then f.va + BitVec.ofNat 64 j else BitVec.ofNat 64 (f.pa % 0x80000 + j)
      s.failThread f.site f.slot { cause := 3, pc := f.pc, val1 := at_, val2 := BitVec.ofNat 64 code, pre := false, queued := false }

/-- The bytes that a fetched line gives its load: those that were dirty at issue, and else the fetched ones. -/
def Flight.fillBytes (f : Flight) : List Byte :=
  ((f.data.drop 64).zip (f.data.drop (f.va.toNat % 64))).map (fun x => (x.1.orElse fun _ => x.2).getD 0)

/-- The bytes of a fetched line: what the core has written back meanwhile stands over what was fetched (R107, R123). -/
def Flight.lineBytes (f : Flight) : List Byte :=
  (List.range 64).map (fun j => match f.newer.getD j none with | some b => b.1 | none => ((f.data.getD j none).getD 0))

/-- Its poisoned granules: a byte written back poisoned keeps its granule poisoned, and 8 clean ones clear it (R406). -/
def Flight.lineBad (f : Flight) : BitVec 8 :=
  BitVec.ofNat 8 (((List.range 8).map (fun g =>
    let o := (List.range 8).map (fun j => f.newer.getD (8 * g + j) none)
    if o.any (fun x => x.any (·.2)) then 2 ^ g
    else if f.bad.getLsbD g && !o.all (fun x => x.isSome) then 2 ^ g else 0)).sum)

/-- The slot that counts a write-back which the entry of a line causes: none for a prefetched line (R213). -/
def Flight.causes (f : Flight) : Nat := match f.kind with | .prefetch _ => 16 | _ => f.slot

/-- Install a fetched line; none when its place must wait for a write-back (R106, R107). A line that an epoch bump or an atomic has
overtaken does not enter (R108, R125, R134); a prefetched one that enters has the current EPOCH, since any bump makes it stale (R213). -/
def State.install (s : State) (f : Flight) : Option State :=
  let d : BitVec 512 := BitVec.ofNat 512 (leNat f.lineBytes)
  let c := s.core f.site
  if f.stale then some s
  else
    match c.line f.pa with
    | some l => some (s.setCore f.site (c.setLine (l.fill f.epoch d f.lineBad)))
    | none =>
      match s.makeRoom f.site f.causes f.pa with
      | none => none
      | some s =>
        let c := s.core f.site
        some (s.setCore f.site { c with l1 := c.l1 ++ [(emptyLine f.pa f.epoch).fill f.epoch d f.lineBad] })

/-- A fetched line arrives at the L1 (R107, R125). -/
def State.lineFill (s : State) (k : Nat) (f : Flight) (bad : Option Nat) : State :=
  if !s.flightLive f then s.dropFlight k
  else
    match s.install f with
    | none => s
    | some s1 =>
      let s1 := (s1.dropFlight k).touch f.site
      match f.kind with
      | .fill => (s1.consume f bad).deliver f.site f.slot f.grp f.place f.fillBytes
      | _ => s1

/-- Bytes of an uncached load arrive (R211). -/
def State.loadAnswer (s : State) (k : Nat) (f : Flight) (bad : Option Nat) : State :=
  let s1 := (s.dropFlight k).touch f.site
  if !s.flightLive f then s1
  else (s1.consume f bad).deliver f.site f.slot f.grp f.place (f.data.map (fun b => b.getD 0))

/-- The old value that an answer carries. -/
def Flight.old (f : Flight) : Nat := leNat (f.data.map (fun b => b.getD 0))

/-- The flags that an atomic raised reach its thread (R219). -/
def State.amoFlags (s : State) (f : Flight) : State :=
  match f.kind with
  | .atomic o => s.raise f.site f.slot (o.apply f.old).2
  | _ => s

/-- The result of an atomic arrives (R217, R219). -/
def State.atomicAnswer (s : State) (k : Nat) (f : Flight) (bad : Option Nat) : State :=
  let s1 := (s.dropFlight k).touch f.site
  if !s.flightLive f then s1
  else
    let s1 := if bad.isSome then s1.consume f bad else s1.amoFlags f
    s1.deliver f.site f.slot f.grp f.place (f.data.map (fun b => b.getD 0))

/-- S falls once no piece of a store is left (R187, R247). -/
def State.settle (s : State) (f : Flight) : State :=
  if !s.flightLive f || s.flights.any (fun g => decide (g.grp = f.grp ∧ g.site = f.site)) then s
  else s.sDown f.site f.slot f.gen

/-- An acknowledgement arrives (R187, R217, R219). -/
def State.acknowledged (s : State) (k : Nat) (f : Flight) : State :=
  let s1 := ((s.dropFlight k).touch f.site).settle f
  if !s.flightLive f then s1
  else
    match f.kind with
    | .atomic _ => if f.acq then (s1.amoFlags f).bumpEpoch f.site else s1.amoFlags f
    | _ => s1

/-! ## Refusals (R415, R416, R420) -/

/-- The refused accesses of an instruction end; what a load has read goes with them, what a store has written stays (R393). -/
def State.dropGroup (s : State) (f : Flight) : State :=
  { s with flights := s.flights.filter (fun g => !(decide (g.grp = f.grp ∧ g.site = f.site)
      && (!f.inS || (match g.stage with | .reply _ => false | _ => true)))) }

/-- The first physical byte refused; an element is refused from its first byte on (R393, R415). -/
def Flight.refusedAt (f : Flight) : Nat :=
  match f.kind with
  | .writeback => f.pa + (f.data.findIdx? (fun b => b.isSome)).getD 0
  | _ => (f.parts.head?.map (·.1)).getD f.pa

/-- A refused load or atomic writes no register: its value is forgotten, ACC goes on without it, and a trailing thread that waits for
the value takes the register as it is (R90, R415). -/
def State.forgetLoad (s : State) (f : Flight) : State :=
  let t := s.thread f.site f.slot
  if !t.loads.any (fun l => decide (l.id = f.grp)) then s
  else
    let t := { t with loads := t.loads.filter (fun l => decide (l.id ≠ f.grp)), cntL := t.cntL - 1
                      accQ := t.accQ.filter (fun x => decide (x.2.2.1 ≠ f.grp)) }
    let s := s.setThread f.site f.slot t.drain
    if t.pair ≠ 1 then s
    else
      let v : Option Vec := (t.pend.find? (fun x => decide (x.2 = f.grp))).map (fun x => t.regValue f.slot x.1)
      let u := s.thread f.site (f.slot + 8)
      s.setThread f.site (f.slot + 8) { u with lvq := u.lvq.map (fun x => if x.1 = f.grp ∧ x.2 = none then (0, some (v.getD 0)) else x) }

/-- The hand-back record of a refused instruction; of a write-back, and beyond what R416 gives, its fields are free values. -/
def State.refusalRecord (s : State) (f : Flight) : List Byte :=
  let free (j : Nat) : Word := Config.freeWord s.tick j
  let word := match f.kind with | .writeback => (free 6).extractLsb' 0 32 | _ => f.word
  let pc := match f.kind with | .writeback => free 7 | _ => f.pc
  recordBytes word 0 pc { kind := 3, ha := BitVec.ofNat 64 f.refusedAt, hb := free 1, hd := free 2, hx0 := free 3, hx1 := free 4
                          done := (free 5).toNat % 2 ^ 32 }

/-- Of the refused accesses of an instruction the one with the lowest place, and its WHY (R393). -/
def State.lowestRefused (s : State) (f : Flight) (why : Nat) : Flight × Nat :=
  s.flights.foldl (fun (acc : Flight × Nat) g =>
    match g.stage with
    | .refusal w => if g.grp = f.grp ∧ g.site = f.site ∧ g.place < acc.1.place then (g, w) else acc
    | _ => acc) (f, why)

/-- An access of the same instruction has not reached its port. -/
def State.groupOpen (s : State) (f : Flight) : Bool :=
  s.flights.any (fun g => decide (g.grp = f.grp ∧ g.site = f.site) && (match g.stage with | .request => true | _ => false))

/-- A refusal returns: the instruction is completed as refused, its record is written and its trap becomes due; it waits for the
instruction's other accesses to reach their ports, and for a hand-back of the thread that is in service (R393, R415, R420). -/
def State.refusalAnswer (s : State) (k : Nat) (f : Flight) (why : Nat) : State :=
  let t := s.thread f.site f.slot
  if !s.flightLive f then s.dropFlight k
  else if t.isFailing then
    let s := s.dropFlight k
    if f.inS then s.settle f else s.deliver f.site f.slot f.grp f.place []
  else if t.handingBack || s.groupOpen f then s
  else
    let (f, why) := s.lowestRefused f why
    let s := (((s.dropGroup f).forgetLoad f).touch f.site)
    let s := if f.inS then s.settle f else s
    let s := (s.devWrite 1 (s.handbackAt f.site f.slot) (s.refusalRecord f)).bump
    s.makeDue f.site f.slot { code := 14, val := mapVal f.refusedAt why f.acc true, op := 0, queue := none, resub := false, sr := 0
                              release := if f.inS then none else some f.grp }

/-! ## Walks (R115 to R119, R447) -/

/-- How a walk ends: an entry, a WHY, or no answer, because a table word is poisoned. -/
inductive WalkEnd where
  | entry (e : TlbEntry)
  | fault (why : Nat)
  | lost
  deriving DecidableEq, Repr

/-- The index bits of a level of the reference layout: the lowest and how many (R119). -/
def levelBits (level : Nat) : Nat × Nat := if level = 3 then (45, 11) else if level = 2 then (35, 10) else if level = 1 then (25, 10) else (16, 9)

/-- The TLB entry of a leaf (R117). -/
def leafEntry (level : Nat) (va : Word) (x : Nat) : TlbEntry :=
  { w0 := BitVec.ofNat 64 (1 + (if level = 1 then 2 else 0) + x / 4 % 32 * 4 + va.toNat / 2 ^ 16 % 2 ^ 40 * 2 ^ 16)
    w1 := BitVec.ofNat 64 (x / 2 ^ 16 % 2 ^ 32 * 2 ^ 16) }

/-- The walk from the table of a level down, with the arrivals that its reads make at the homes. Bits [6:2] are 0 in a pointer; whether one
that is set faults the spec does not say, and the model takes it as a reserved bit (R119; log entry 25). -/
def State.walkFrom (s : State) (va : Word) : Nat → Nat → WalkEnd × State
  | level, table =>
    let (lo, len) := levelBits level
    let at_ := table + 8 * bits va.toNat lo len
    if !inDram at_ 8 || !s.tableAllows 0 1 at_ 8 0 then (.fault 4, s)
    else
      let (bs, bad, s) := s.dramRead at_ 8 3 s.outsider
      let x := leNat bs
      let addr := x / 2 ^ 12 % 2 ^ 36 * 2 ^ 12
      if bad then (.lost, s)
      else if !bit x 0 then (.fault 1, s)
      else if x / 2 ^ 7 % 32 ≠ 0 ∨ x / 2 ^ 48 ≠ 0 then (.fault 4, s)
      else if bit x 1 then
        if 2 ≤ level ∨ addr % (if level = 1 then 2 ^ 25 else 2 ^ 16) ≠ 0 then (.fault 4, s) else (.entry (leafEntry level va x), s)
      else
        match level with
        | 0 => (.fault 4, s)
        | l + 1 =>
          if x / 4 % 32 ≠ 0 ∨ addr % (8 * 2 ^ (levelBits l).2) ≠ 0 then (.fault 4, s) else s.walkFrom va l addr

/-- A requester of a walk that ended without an entry gets its page and fault: a thread, or the operation of an engine queue. -/
def State.walkFault (s : State) (page why : Nat) (r : Nat × Nat) : State :=
  let c := s.core r.1
  if r.2 < 16 then s.setThread r.1 r.2 { s.thread r.1 r.2 with walk := some (page, why) }
  else
    let tell (o : EngOp) : EngOp := if o.queue = r.2 - 16 then { o with walk := some (page, why) } else o
    s.setCore r.1 { c with ops := c.ops.map tell }

/-- A walk ends with a fault for all its requesters. -/
def State.walkFails (s : State) (w : Walk) (why : Nat) : State := w.who.foldl (fun s r => (s.walkFault w.page why r).touch r.1) s

/-- The virtual address of a page that a walk looks for. -/
def pageVa (page : Nat) : Word := ((BitVec.ofNat 40 page).signExtend 48 ++ 0#16)

/-- One of the walks under way in a cluster that will be answered, and its place: which of the contexts ends first is open (R116; log
entry 2). -/
def State.pickWalk (s : State) (k : Nat) (p : Walk → Bool) : Option (Walk × Nat) :=
  let ws := (((s.cluster k).walks.take walkContexts).zipIdx).filter (fun x => p x.1)
  ws[Config.freeChoice s.tick % ws.length]?

/-- A walk under way in a cluster ends, or meets a poisoned table word and stays without an answer in its context (R116, R119, R447). -/
def State.serveWalk (s : State) (k : Nat) : State :=
  match s.pickWalk k (fun w => !w.lost) with
  | none => s
  | some (w, j) =>
    let (e, s1) := s.walkFrom (pageVa w.page) 3 ((s.cluster k).ptroot.toNat % 2 ^ 48)
    let c := s1.cluster k
    let left (ws : List Walk) : State := (s1.setCluster k { c with walks := ws }).bump
    match e with
    | .lost => left (c.walks.set j { w with lost := true })
    | .fault why => (left (c.walks.eraseIdx j)).walkFails w why
    | .entry e =>
      let s1 := left (c.walks.eraseIdx j)
      let c := s1.cluster k
      let s1 := s1.setCluster k { c with tlb := tblSet e.set (fillTlb 8 (tblGet [] e.set c.tlb) e) c.tlb }
      w.who.foldl (fun s r => (s.setCore r.1 { s.core r.1 with tlb := fillTlb 64 (s.core r.1).tlb e }).touch r.1) s1

/-- A walk under way in a cluster has not been answered within 10 ms (R447). -/
def State.walkTimeout (s : State) (k : Nat) : State :=
  match s.pickWalk k (fun _ => true) with
  | none => s
  | some (w, j) =>
    let c := s.cluster k
    let s := (s.setCluster k { c with walks := c.walks.eraseIdx j }).bump
    (s.walkFails w 5).record k (bareRec 44 0 (BitVec.ofNat 64 k) (pageVa w.page))

/-! ## Homes and counts (R335, R411, R412) -/

/-- The codewords of a DRAM line that a scrub finds uncorrectable; which of the two is free (log entry 2). -/
def State.scrubbed (s : State) (line : Nat) : List Nat :=
  let a := 64 * line
  let c := Config.freeChoice s.tick % 3
  (if c = 1 then [] else [a]) ++ (if c = 0 then [] else [a + 32])

/-- The patrol scrub of a line (R412): an uncorrectable codeword is poisoned and reported. -/
def State.patrol (s : State) (line : Nat) (bad : Bool) : State :=
  if !bad || !inDram (64 * line) 64 || decide (2 ^ 40 ≤ 64 * line) then s
  else
    let mark (s : State) (a : Nat) : State :=
      let s := { s with dramBad := addBad s.dramBad (granules a 32) }
      s.record (homeCluster (homeOf a)) (bareRec 17 5 (BitVec.ofNat 64 (s.scarab.pidx * 2 ^ 40 + a)) 3)
    ((s.scrubbed line).foldl mark s).bump

/-- The instance may report: it has corrected an error since its last record, and that record is a second of package time old (R411). -/
def Corrected.due (c : Corrected) (now : Nat) : Bool :=
  decide (0 < c.count) && (match c.wrote with | none => true | some t => decide (t + 1000000 ≤ now))

/-- The instance of a structure in a cluster whose last corrected error stands at a location reports its count (R411). -/
def State.correctedReport (s : State) (k code : Nat) (at_ : Word) : State :=
  let this (c : Corrected) : Bool := decide (c.cluster = k ∧ c.code = code ∧ c.last = at_) && c.due s.cold.time
  match s.corrected.findIdx? this with
  | none => s
  | some j =>
    match s.corrected[j]? with
    | none => s
    | some c =>
      let s := { s with corrected := s.corrected.set j { c with count := 0, wrote := some s.cold.time } }
      s.record k (bareRec 16 code at_ (BitVec.ofNat 64 c.count))

/-- R99: A read or write arrives at a home and is served through the home cache. -/
def execHomeAccess (k : Nat) (s : State) : Out :=
  match s.flights[k]? with
  | some f => .next (if f.toHome && !f.isWriteback && !f.isAtomic then s.serveFlight k f else s)
  | none => .next s

/-- R109: A masked L1 write-back arrives at its home and is applied. -/
def execWritebackArrival (k : Nat) (s : State) : Out :=
  match s.flights[k]? with
  | some f => .next (if f.isWriteback then s.serveFlight k f else s)
  | none => .next s

/-- R216: An atomic executes indivisibly in the home's arithmetic unit. -/
def execHomeAtomic (k : Nat) (s : State) : Out :=
  match s.flights[k]? with
  | some f => .next (if f.toHome && f.isAtomic then s.serveFlight k f else s)
  | none => .next s

/-- R96: A local-store window access from another core is served at the target port. -/
def execWindowAccessArrival (k : Nat) (s : State) : Out :=
  match s.flights[k]? with
  | some f => .next (if !f.toHome then s.serveFlight k f else s)
  | none => .next s

/-- R107: A fetched line arrives at the L1 and fills its non-dirty bytes. -/
def execLineFill (k : Nat) (s : State) : Out :=
  match s.flights[k]? with
  | some f => match f.kind, f.stage with
    | .fill, .reply bad => .next (if s.alive then s.lineFill k f bad else s)
    | .prefetch _, .reply bad => .next (if s.alive then s.lineFill k f bad else s)
    | _, _ => .next s
  | none => .next s

/-- R211: An uncached load value arrives and the destination leaves pending. -/
def execLoadResponse (k : Nat) (s : State) : Out :=
  match s.flights[k]? with
  | some f => match f.kind, f.stage with
    | .load, .reply bad => .next (if s.alive then s.loadAnswer k f bad else s)
    | _, _ => .next s
  | none => .next s

/-- R217: An atomic result returns, writing the destination and bumping the epoch for acquire. -/
def execAtomicResult (k : Nat) (s : State) : Out :=
  match s.flights[k]? with
  | some f => match f.kind, f.stage with
    | .atomic _, .reply bad => .next (if s.alive then if f.inS then s else s.atomicAnswer k f bad else s)
    | _, _ => .next s
  | none => .next s

/-- R187: An acknowledgement returns and the thread's counter falls. -/
def execAcknowledgementArrival (k : Nat) (s : State) : Out :=
  match s.flights[k]? with
  | some f => match f.stage with
    | .reply _ => .next (if s.alive && f.inS then s.acknowledged k f else s)
    | _ => .next s
  | none => .next s

/-- R415: A refusal decided at the target returns, writing a hand-back record and making a deferred map fault due. -/
def execAccessRefusalResponse (k : Nat) (s : State) : Out :=
  match s.flights[k]? with
  | some f => match f.stage with
    | .refusal why => .next (if s.alive then s.refusalAnswer k f why else s)
    | _ => .next s
  | none => .next s

/-- R116: A cluster TLB miss becomes a walk request at the translation service core. -/
def execWalkRequest (cluster : Nat) (s : State) : Out :=
  .next (if s.clocked (2048 + cluster) then s.serveWalk cluster else s)

/-- R447: An unanswered walk after 10 ms returns a translation fault and a kind 44 record. -/
def execWalkTimeout (cluster : Nat) (s : State) : Out :=
  .next (if s.alive then s.walkTimeout cluster else s)

/-- R100: A local-store bank serves a waiting request (a delayed rank-2 block, a spill or fill, a later vector block) and a
  pending destination or stalled thread is released. -/
def execLocalStoreBankService (site : Nat) (slot : Nat) (s : State) : Out :=
  .next (if s.clocked site && !(s.core site).pre then
      match s.serveLocal site slot with
      | some t => t
      | none => if (s.thread site slot).run = .stalled then s.serveWindow site slot else s
    else s)

/-- R412: The patrol scrub reads, corrects and rewrites a DRAM line. -/
def execPatrolScrub (line : Nat) (bad : Bool) (s : State) : Out :=
  .next (if s.alive then s.patrol line bad else s)

/-- R335: A home refreshes its DRAM; no byte, register or record changes. -/
def execDramRefresh (_ : Nat) (s : State) : Out :=
  .next s

/-- R411: Once per second a structure instance reports its corrected errors. -/
def execCorrectedErrorReport (cluster : Nat) (code : Byte) (at_ : Word) (s : State) : Out :=
  .next (if s.alive then s.correctedReport cluster code.toNat at_ else s)

end Sys2Proof.Machine
end

