-- ==== Sys2Proof/Machine/Climate.lean ====
section
/-!
DEFINITION. Temperature and what follows from it: sensors (R336, R337, R442), the Molt (R338, R339, R443, R444), band changes at batch seals
(R78, R340, R341), powering up (R342), the governors (R445), the power cap (R334), and power-on, loss and reset (R7, R338, R448).
-/

namespace Sys2Proof.Machine

open Sys2Proof

/-! ## Band changes (R340, R341) -/

/-- A launch runs work that a rise to Band W stops: it is no diagnostic, and not suspended already. -/
def Launch.heated (l : Launch) : Bool := decide (l.field 426 1 = 0) && !l.suspended

/-- The whole group of a launch is being pre-empted or is pre-empted already, under this rectangle or others (R444). -/
def State.groupHeld (s : State) (g : Nat) : Bool :=
  (rectClusters g).all (fun k => (s.port.pres ++ s.port.saves).any (fun x => (rectClusters x.1).contains k))

/-- Pre-empt the groups of live launches into the thermal save area; their launches are suspended (R341). -/
def State.heatSave (s : State) : State :=
  let hot := s.launches.filter (fun x => x.2.heated && !s.groupHeld x.2.rect)
  let s := { s with launches := s.launches.map (fun (x : Nat × Launch) =>
    (x.1, if hot.any (fun y => decide (y.1 = x.1)) then { x.2 with suspended := true } else x.2)) }
  ((hot.map (fun x => x.2.rect)).eraseDups).foldl (fun s g => s.preempt g s.cold.msave) s

/-- The threads of a launch fail with CAUSE 7 (R363). -/
def State.heatThreads (s : State) (i : Nat) : State :=
  s.cores.foldl (fun s c => c.2.threads.foldl (fun s x =>
    let t := s.thread c.1 x.1
    if t.busyTask && decide (t.task.lnch = i) && !t.isFailing then
      s.failThread c.1 x.1 { cause := 7, pc := t.pc, val1 := 0, val2 := 0, pre := false, queued := false }
    else s) s) s

/-- A submission record that is discarded: it no longer counts in S, and its join goes on (R369). -/
def State.discardSub (s : State) (r : SubRec) : State :=
  let s := { s with scarab := { s.scarab with subs := s.scarab.subs.erase r } }
  let s := match r.src with | some (n, i, gen) => s.sDown n i gen | none => s
  let s := match r.frame with
    | some f => s.post (.decrement f r.lnch none (s.txSource r) false)
    | none => s
  s.ended r.lnch

/-- A numbered transaction that is discarded before its dispatch: its locks are released without write-back (R369). -/
def State.discardTxn (s : State) (x : Txn) : State :=
  let s := s.setCluster x.cluster { s.cluster x.cluster with txq := (s.cluster x.cluster).txq.filter (fun q => decide (q ≠ x.seq)) }
  let x := { x with stage := .committing, noWrite := true }
  (s.setTxn x).sendReleases x

/-- A transaction has not been dispatched. -/
def Txn.undispatched (x : Txn) : Bool := match x.stage with | .waiting => true | .framed => true | _ => false

/-- A launch is failed item by item: its threads fail, and one kind 7 record counts what had not started (R341, R369). -/
def State.heatFail (s : State) (i : Nat) : State :=
  let s := s.heatThreads i
  let subs := s.scarab.subs.filter (fun r => decide (r.lnch = i))
  let txns := s.scarab.txns.filter (fun x => decide (x.sub.lnch = i) && x.undispatched)
  let left := match s.launch i with | some l => l.toStart | none => 0
  let n := left + subs.length + txns.length
  let s := s.record 0 { bareRec 7 0 (BitVec.ofNat 64 n) 0 with lnch := i }
  let s := (s.modLaunch i (fun l => { l with toStart := 0 })).failedItems i n
  let s := txns.foldl State.discardTxn s
  (subs.foldl State.discardSub s).complete i

/-- The arrays are held off, and the launches saved or failed (R341). -/
def State.heat (s : State) : State :=
  let s := { s with arrays := 0, cold := { s.cold with holdOff := true } }
  if s.cold.msave ≠ 0 then s.heatSave
  else ((s.launches.filter (fun x => x.2.heated)).map (·.1)).foldl State.heatFail s

/-- The clocks stop for a change to a band (R340). -/
def State.stopClocks (s : State) (band : Nat) : State := { s with cold := { s.cold with stopped := true, nextBand := band } }

/-- A batch seals: a band that the sensors call for is taken up. A rise to W first saves or fails the work, and the clocks stop at the
first seal at which no pre-emption is under way (R340, R341). -/
def State.bandAtSeal (s : State) : State :=
  let c := s.cold
  if c.stopped || decide (c.req = c.band) then s
  else if c.req < c.band then s.stopClocks (c.band - 1)
  else if c.band = 0 then s.stopClocks 1
  else
    let s := if c.holdOff then s else s.heat
    if s.port.pres.isEmpty then s.stopClocks 2 else s

/-- The batch period ends (R78). -/
def State.sealTick (s : State) : State := if s.cold.stopped then s else s.sealBatch.bandAtSeal

/-- The clocks restart in the new band (R337, R340, R341, R445). -/
def State.restartClocks (s : State) : State :=
  let c := s.cold
  if !c.stopped then s
  else
    let c := { c with stopped := false, band := c.nextBand, lastTime := c.time, lastFrom := c.band, lastTo := c.nextBand
                      holdOff := false }
    let calm (x : Core) : Core := { x with gov := { x.gov with quiet := 0 } }
    let s := { s with cold := c, cores := s.cores.map (fun (x : Nat × Core) => (x.1, calm x.2)) }
    let s := s.report { kind := 8, lnch := 0, lseq := 0, code := 0, value := BitVec.ofNat 64 c.tlast }
    if c.band = 2 ∧ c.molt = .excursion ∧ c.ramping = false then s.enterMolt .warming else s

/-! ## Sensors (R336, R339, R442, R443) -/

/-- The die of a sensor: west, east, or a stack (R336). -/
def sensorDie (i : Nat) : Nat := if i < 24 then 0 else if i < 48 then 1 else 2 + (i - 48) / 2

/-- The sensors in service. -/
def Cold.inService (c : Cold) : List Nat := (List.range 64).filter (fun i => !c.failed.contains i)

/-- A sample's readings, one for each sensor. -/
def Cold.sample (c : Cold) (readings : List Nat) : List Nat := (List.range 64).map (fun i => readings.getD i (c.temps.getD i 0))

/-- How long a sensor has stayed unchanged, with the readings from which it did (R442). -/
def Cold.still (c : Cold) (now : List Nat) (i : Nat) : Nat × List Nat :=
  let x := c.stuck.getD i (0, [])
  if !x.2.isEmpty && decide (now.getD i 0 = c.temps.getD i 0) then (x.1 + 1, x.2) else (0, now)

/-- The distance of two readings. -/
def apart (a b : Nat) : Nat := (a - b) + (b - a)

/-- Why a sensor in service fails at a sample: 1 range, 2 stuck (R442). -/
def Cold.sensorFails (c : Cold) (now : List Nat) (i : Nat) : Option Nat :=
  let r := now.getD i 0
  let x := c.still now i
  if r < 320 ∨ 6400 < r then some 1
  else if 999 ≤ x.1 ∧ c.inService.any (fun j => decide (j ≠ i ∧ sensorDie j = sensorDie i ∧ 32 ≤ apart (now.getD j 0) (x.2.getD j 0)))
    then some 2
  else none

/-- The hottest sensor in service, the first of equals. -/
def Cold.hottest (c : Cold) : Option Nat :=
  c.inService.foldl (fun best i => match best with
    | none => some i
    | some j => if c.temps.getD j 0 < c.temps.getD i 0 then some i else some j) none

/-- The lowest reading in service. -/
def Cold.coolest (c : Cold) : Nat := (c.inService.map (fun i => c.temps.getD i 0)).foldl min 0x1FFF

/-- Too few sensors are left (R442). -/
def Cold.blind (c : Cold) : Bool :=
  (List.range 2).any (fun d => decide ((c.inService.filter (fun i => decide (sensorDie i = d))).length < 12))
    || (List.range 8).any (fun k => !c.inService.any (fun i => decide (sensorDie i = 2 + k)))

/-- A sensor's change in the last minute exceeds 5 K (R339). -/
def Cold.ramps (c : Cold) : Option Nat :=
  match c.molt with
  | .cooling => c.inService.find? (fun i => decide (80 < apart (c.temps.getD i 0) (c.minute.getD i 0)))
  | .warming => c.inService.find? (fun i => decide (80 < apart (c.temps.getD i 0) (c.minute.getD i 0)))
  | _ => none

/-- A full minute has been measured (R339). -/
def Cold.minuteOver (c : Cold) : Bool := decide (c.minuteAt + 60000000 ≤ c.time)

/-- A limit of R339 that is exceeded, with its sensor: the spread of this sample, or the change over the last full minute, which stays
exceeded until a full minute meets the limit (log entry 35). -/
def Cold.exceeded (c : Cold) : Option Nat :=
  if 128 < c.tmax - c.coolest then some c.smax
  else if c.minuteOver then c.ramps
  else
    match c.molt with
    | .cooling => c.rampOver
    | .warming => c.rampOver
    | _ => none

/-- The new readings, the sensors that fail by them, and what they make of TMAX, the counts and the timers (R336, R442). -/
def Cold.take (c : Cold) (now : List Nat) : Cold :=
  let new := c.inService.filter (fun i => (c.sensorFails now i).isSome)
  let c := { c with time := c.time + 4, powerTime := c.powerTime + 4, stuck := (List.range 64).map (c.still now), failed := c.failed ++ new, temps := now }
  let c := match c.hottest with
    | some i => { c with tmax := c.temps.getD i 0, smax := i }
    | none => c
  let cool := decide (c.tmax ≤ 1424)
  let even := cool && decide (c.tmax - c.coolest ≤ 32) && decide (c.molt = .soak)
  { c with under := c.inService.any (fun i => decide (c.temps.getD i 0 < 1152))
           over92 := if 1472 < c.tmax then c.over92 + 1 else 0
           over140 := if 2240 < c.tmax then c.over140 + 1 else 0
           under137 := if c.tmax ≤ 2192 then c.under137 + 1 else 0
           fallFrom := if cool then some (c.fallFrom.getD c.time) else none
           soakFrom := if even then some (c.soakFrom.getD c.time) else none }

/-- The band that the sensors call for (R336, R442). -/
def Cold.called (c : Cold) : Nat :=
  if c.blind then 2
  else if c.band = 0 then (if 2 ≤ c.over92 then 1 else c.req)
  else if c.band = 1 then (if 2 ≤ c.over140 then 2 else c.req)
  else if 2 ≤ c.under137 then 1
  else c.req

/-- A limit of R339 is met or exceeded: RAMPV, and one kind 41 record for each time it begins to be exceeded (R339, R444). -/
def State.rampCheck (s : State) : State :=
  let c := s.cold
  let x := c.exceeded
  let again := c.minuteOver
  let c' := { c with ramping := x.isSome, rampv := c.rampv || x.isSome, minute := if again then c.temps else c.minute
                     minuteAt := if again then c.time else c.minuteAt, rampOver := if again then c.ramps else c.rampOver }
  let s := { s with cold := c' }
  match x with
  | some i => if c.ramping then s else s.edgeRec false 41 0 0xFF (BitVec.ofNat 64 i)
  | none => s

/-- In COLD_RUN and EXCURSION the clocks of the hotter die may be stopped to keep the ramp limits; when is free (R339; log entry 2). -/
def State.rampStop (s : State) : State :=
  let c := s.cold
  let die (d : Nat) : Nat := ((c.inService.filter (fun i => decide (sensorDie i = d))).map (fun i => c.temps.getD i 0)).foldl max 0
  let hot := if die 0 < die 1 then 1 else 0
  let stop := match c.molt with | .coldRun => bit (Config.freeChoice s.tick) 0 | .excursion => bit (Config.freeChoice s.tick) 0 | _ => false
  { s with cold := { c with hotDie := if stop then some hot else none } }.bump

/-- The hottest sensor that was in service, with its reading in a sample: one that fails by being out of range counts (R442, R443). -/
def Cold.tripBy (c : Cold) (now : List Nat) : Option (Nat × Nat) :=
  let top := (c.inService.map (fun i => now.getD i 0)).foldl max 0
  if 5280 < top then (c.inService.find? (fun i => decide (now.getD i 0 = top))).map (fun i => (i, top)) else none

/-- A reading above 330 K: the trip log is written and the power goes (R443). -/
def State.trip (s : State) (sensor reading : Nat) : State :=
  let c := s.cold
  { s with on := false, cold := { c with molt := .off, trip := some (c.powerTime, sensor, c.molt.code, reading) } }

/-- A sample of the sensors (R336). -/
def State.sampleSensors (s : State) (readings : List Nat) : State :=
  let old := s.cold
  let now := old.sample readings
  let c := old.take now
  let s := { s with cold := c }
  match old.tripBy now with
  | some (i, r) => s.trip i r
  | none =>
    let s := (old.inService.filterMap (fun i => (old.sensorFails now i).map (fun why => (i, why)))).foldl (fun s x =>
      s.edgeRec false 40 x.2 (BitVec.ofNat 64 x.1) (BitVec.ofNat 64 (now.getD x.1 0))) s
    let s := { s with cold := { s.cold with req := c.called } }
    let s := if c.called = 1 ∧ c.band = 0 ∧ c.ramping = false then
        (match c.molt with | .coldReady => s.enterMolt .excursion | .coldRun => s.enterMolt .excursion | _ => s)
      else s
    s.rampCheck.rampStop

/-- TMAX has stayed at or below 89 K for 10 s in Band E (R336). -/
def State.fallTimer (s : State) : State :=
  let c := s.cold
  match c.fallFrom with
  | some t => if c.band = 1 ∧ c.req = 1 ∧ t + 10000000 ≤ c.time then { s with cold := { c with req := 0 } } else s
  | none => s

/-! ## The Molt (R338, R444) -/

/-- COLD_READY is reached; a held WARM command acts at once (R338). -/
def State.coldReady (s : State) : State :=
  if s.cold.warmHeld then State.enterMolt { s with cold := { s.cold with warmHeld := false } } .warming else s.enterMolt .coldReady

/-- The Molt leaves its state if the condition that it waits for holds; a limit that is exceeded holds it, and a command given meanwhile
comes first (R338, R339). -/
def State.moltStep (s : State) : State :=
  let c := s.cold
  if c.ramping then s
  else if c.cmdHeld ≠ 0 then State.moltCommand { s with cold := { c with cmdHeld := 0 } } c.cmdHeld
  else
    match c.molt with
    | .coolPrep => if s.working then s else s.enterMolt .cooling
    | .cooling => if c.tmax ≤ 1424 then s.enterMolt .soak else s
    | .coldReady => if c.req ≠ 0 then s.enterMolt .excursion else if s.awaited then s.enterMolt .coldRun else s
    | .coldRun => if c.req ≠ 0 then s.enterMolt .excursion else if s.awaited then s else s.coldReady
    | .excursion =>
      if c.band = 2 then s.enterMolt .warming else if c.band ≠ 0 ∨ c.req ≠ 0 then s
      else if s.awaited then s.enterMolt .coldRun else s.coldReady
    | .warming => if 4480 ≤ c.coolest then s.enterMolt .warmService else s
    | _ => s

/-- A stack cannot be trained (R444). -/
def Cold.trainDead (c : Cold) : Bool := c.trainFails.any (fun x => decide (3 ≤ x.2))

/-- The soak has lasted 120 s: the DRAM is trained, or the training of a stack fails (R338, R444). -/
def State.soakEnds (s : State) (failedStack : Option Nat) : State :=
  let c := s.cold
  match c.molt, c.soakFrom with
  | .soak, some t =>
    if c.trainDead ∨ c.ramping = true ∨ c.band ≠ 0 ∨ c.time < t + 120000000 then s
    else
      match failedStack with
      | none => s.coldReady
      | some k =>
        if 8 ≤ k then s
        else
          let n := tblGet 0 k c.trainFails + 1
          let s := { s with cold := { c with trainFails := tblSet k n c.trainFails } }
          if n = 3 then s.edgeRec false 41 0 (BitVec.ofNat 64 c.molt.code) (BitVec.ofNat 64 (0x100 + k)) else s
  | _, _ => s

/-- The limit of a state, in seconds (R444). -/
def Molt.limit : Molt → Option Nat
  | .cooling => some 7200
  | .soak => some 1800
  | .warming => some 10800
  | _ => none

/-- A state has passed its limit: one kind 41 record; a SOAK whose training failed has its own (R444). -/
def State.moltLimit (s : State) : State :=
  let c := s.cold
  match c.molt.limit with
  | none => s
  | some l =>
    let sec := (c.time - c.entered) / 1000000
    if c.limited ∨ sec < l ∨ (c.molt = .soak ∧ c.trainDead = true) then s
    else State.edgeRec { s with cold := { c with limited := true } } false 41 0 (BitVec.ofNat 64 c.molt.code) (BitVec.ofNat 64 sec)

/-! ## Powering up (R342, R343) -/

/-- The matrix engines may be released: the band is not W, and no rise to it has begun (R335, R341). -/
def State.mayRelease (s : State) : Bool := !s.cold.holdOff && decide (s.cold.band ≠ 2)

/-- The next unit powers up: eight stacks, then the clusters; after them the arrays are released in cluster order (R342). -/
def State.powerUnit (s : State) : State :=
  if s.powered < 136 then { s with powered := s.powered + 1 }
  else if s.arrays < 128 ∧ s.mayRelease then { s with arrays := s.arrays + 1 }
  else s

/-- The temperature unit at power-on or reset, from a first sample (R336 to R338). -/
def bootCold (readings failed : List Nat) (trainFails : Tbl Nat) (trip : Option (Nat × Nat × Nat × Nat)) (powerTime : Nat) : Cold :=
  let c : Cold := { failed := failed, trainFails := trainFails, trip := trip, powerTime := powerTime }
  let c := { c with temps := c.sample readings, minute := c.sample readings }
  let c := match c.hottest with
    | some i => { c with tmax := c.temps.getD i 0, smax := i }
    | none => c
  let band := if 2240 < c.tmax then 2 else if 1472 < c.tmax then 1 else 0
  { c with molt := if 2240 < c.tmax then .warmService else if 1424 < c.tmax then .cooling else .soak
           band := band, req := band }

/-- The reset state, with what a reset does not reach: the companion's memory, the fuses, the device number and the trip log (R343, R344,
R443), and the model's own counters. -/
def State.resetWith (s : State) (c : Cold) : State :=
  { State.reset with
    turns := s.turns, tick := s.tick, nextId := s.nextId, hostMem := s.hostMem, fused := s.fused, devsn := s.devsn, keyHash := s.keyHash
    revoked := s.revoked, minVersion := s.minVersion, cold := c }

/-! ## Governors (R445) -/

/-- A record of a core's governor. -/
def State.govRec (s : State) (n kind v : Nat) : State :=
  let c := s.core n
  s.record (clusterOf n) { bareRec kind 0 (BitVec.ofNat 64 c.lcore) (BitVec.ofNat 64 v) with core := c.lcore, cyc := c.cyc }

/-- A second of a governor ends, in which the array made j corrections besides those counted already; k in all. The field prev is 1 after
a second at step 0 with 8 or more, and 2 once the freeze was reported (R411, R445). -/
def State.govTick (s : State) (n j : Nat) : State :=
  let s := if j = 0 then s else s.countCorrected 6 n j (Config.freeWord s.tick n)
  let k := (s.core n).gov.count
  let g : Gov := { (s.core n).gov with count := 0 }
  let put (s : State) (g : Gov) : State := s.setCore n { s.core n with gov := g }
  if 8 ≤ k then
    if 0 < g.step then put (s.govRec n 42 (g.step - 1)) { step := g.step - 1, frozen := true, quiet := 0, prev := 0, count := 0 }
    else if g.frozen && decide (g.prev = 1) then put (s.govRec n 43 k) { g with quiet := 0, prev := 2 }
    else put s { g with quiet := 0, prev := if g.prev = 2 then 2 else 1 }
  else
    let quiet := if k = 0 then g.quiet + 1 else 0
    let up := !g.frozen && decide (60 ≤ quiet) && decide (g.step < 6)
    put s { g with quiet := quiet, prev := if g.prev = 2 then 2 else 0, step := if up then g.step + 1 else g.step }

/-- R77: The Scarab numbers a submission record, picks its cluster and sends lock requests. -/
def execScarabNumbering (s : State) : Out :=
  if s.alive then
    let t := s.numberNext
    .next (if t.scarab.batch = s.scarab.batch then t else t.bandAtSeal)
  else .next s

/-- R78: The 1 µs batch period ends; the batch seals and seals go on every enrolled channel. -/
def execBatchSeal (s : State) : Out :=
  .next (if s.alive then s.sealTick else s)

/-- R340: After 200 ns the clocks restart at the new frequency and homes switch timings. -/
def execClockRestart (s : State) : Out :=
  .next (if s.alive then s.restartClocks else s)

/-- R336: Every 4 µs the sensors are sampled, TMAX formed and band requests decided. -/
def execSensorSample (readings : List Nat) (s : State) : Out :=
  .next (if s.on then s.sampleSensors readings else s)

/-- R336: TMAX staying at or below 89 K for 10 s calls for band C. -/
def execBandFallTimer (s : State) : Out :=
  .next (if s.on then s.fallTimer else s)

/-- R338: The Molt changes state when its waited-for condition holds. -/
def execMoltTransition (s : State) : Out :=
  .next (if s.on then s.moltStep else s)

/-- R338: After 120 s of stable soak, DRAM is trained and the Molt enters COLD_READY. -/
def execSoakComplete (failedStack : Option Nat) (s : State) : Out :=
  .next (if s.on then s.soakEnds failedStack else s)

/-- R444: A Molt state passing its time limit holds and writes a kind 41 record. -/
def execMoltLimitExpiry (s : State) : Out :=
  .next (if s.on then s.moltLimit else s)

/-- R338: Power-on resets the device and moves the Molt from OFF by TMAX. -/
def execPowerOn (readings : List Nat) (s : State) : Out :=
  .next (if s.on then s else s.resetWith (bootCold readings [] [] s.cold.trip 0))

/-- R338: Loss of power moves the Molt to OFF. -/
def execPowerLoss (s : State) : Out :=
  .next { s with on := false, cold := { s.cold with molt := .off } }

/-- R448: A reset input to a powered package, as needed to leave the fatal state or to recover a pod, returns the package to
  its reset state. -/
def execPackageReset (readings : List Nat) (s : State) : Out :=
  .next (if s.on then s.resetWith (bootCold readings s.cold.failed s.cold.trainFails s.cold.trip s.cold.powerTime) else s)

/-- R342: The next home or cluster powers up on the 2 µs staging interval. -/
def execUnitPowerUp (s : State) : Out :=
  .next (if s.alive then s.powerUnit else s)

/-- R445: Each second the voltage governor steps, freezes or reports predictive failure. -/
def execGovernorTick (site : Nat) (n : Nat) (s : State) : Out :=
  .next (if s.alive && decide (site < 2048) then s.govTick site n else s)

/-- R334: When package power exceeds PCAP, hardware stops each core's clock for whole barrel periods, and it restarts them when
  power falls below the cap. -/
def execPackagePowerCap (above : Bool) (s : State) : Out :=
  .next (if s.on then { s with cold := { s.cold with overCap := above } } else s)

end Sys2Proof.Machine
end

