-- ==== Sys2Proof/Machine/Edges.lean ====
section
/-!
DEFINITION. The package's edges: the Ulisil link and the companion (R137, R321, R331, R432, R433), flits that fail (R405, R439, R448), the
scale-up fabric (R328, R329, R438 to R440) and scale-out (R330, R441).
-/

namespace Sys2Proof.Machine

open Sys2Proof

/-! ## The Ulisil link (R432, R433, R449) -/

/-- A flit has failed that many replays in a row; 16 start a retrain. -/
def State.flitFails (s : State) (replays : Nat) : State :=
  let u := s.ulisil
  if u.up && !u.retraining && decide (16 ≤ replays) then { s with ulisil := { u with retraining := true, replays := replays } } else s

/-- A host-window access that is under way when the link goes down completes as refused, whether it had arrived or not (R433). -/
def State.hostLost (s : State) (f : Flight) : Flight :=
  if s.leaves f = false ∧ regionOf (f.pa % 2 ^ 40) = some 5002 then { f with stage := .refusal 5 } else f

/-- A retrain ends, so many good flits after the one before it: three in a run take the link down. -/
def State.retrainEnds (s : State) (good : Nat) : State :=
  let u := s.ulisil
  if !u.retraining then s
  else
    let run := if good < 1000 then u.retrains + 1 else 1
    if 3 ≤ run then
      State.edgeRec { s with ulisil := { u with up := false, retraining := false, retrains := 0 }
                             flights := s.flights.map s.hostLost } false 33 0 (BitVec.ofNat 64 s.cold.time) 0
    else
      State.edgeRec { s with ulisil := { u with retraining := false, retrains := run } } false 32 0 (BitVec.ofNat 64 u.replays)
        (BitVec.ofNat 64 run)

/-- A down link tries to come up. -/
def State.linkTries (s : State) (works : Bool) : State :=
  if s.ulisil.up || !works then s
  else State.edgeRec { s with ulisil := { up := true } } false 34 0 (BitVec.ofNat 64 s.cold.time) 0

/-! ## Accesses from outside (R137, R330, R331, R333) -/

/-- The units that serve an access from outside have powered up: the homes of its bytes, by their stacks, or the core of a window (R17,
R342). -/
def State.started (s : State) (pa size : Nat) (t : Target) : Bool :=
  match t with
  | .dram => decide (8 ≤ s.powered) || (pieces size pa size).all (fun p => decide (homeOf (p.1 % 2 ^ 40) / 32 < s.powered))
  | .window n => decide (8 + clusterOf n < s.powered)
  | _ => true

/-- Where an access of an outside master is served: its target, once that has powered up, unless the map or a table refuses it. The companion
reaches its own memory, which the host window names, by itself. -/
def State.outsideTarget (s : State) (master pa size acc : Nat) : Option Target :=
  match s.decodePa pa size acc with
  | .error _ => none
  | .ok t =>
    if t = .host ∧ master = 4 then some t
    else if (s.targetRefuses master pa size acc t).isSome || !s.started pa size t then none
    else some t

/-- A write of an outside master, piece by piece, with data that may be marked poisoned; pieces that are refused write nothing. -/
def State.outsideWrite (s : State) (master pa : Nat) (data : List Byte) (bad : Bool) : State :=
  match s.outsideTarget master pa data.length 1 with
  | none => s
  | some .control => (match s.portWrite .control master pa (data.map some) [] 0 s.outsider with | .done s' => s' | _ => s)
  | some t =>
    ((pieces data.length pa data.length).foldl (fun s p =>
      let marks := if bad then List.range ((p.2 + 7) / 8) else []
      match s.portWrite t master p.1 (((data.drop (p.1 - pa)).take p.2).map some) marks 0 s.outsider with
      | .done s' => s'
      | _ => s) s).bump

/-- A read of an outside master: rings see it, and TBAND clears RAMPV; the bytes go to the reader. -/
def State.outsideRead (s : State) (master pa size : Nat) : State :=
  match s.outsideTarget master pa size 0 with
  | none => s
  | some .control => (s.portRead .control pa size 3 s.outsider).2
  | some t => ((pieces size pa size).foldl (fun s p => (s.portRead t p.1 p.2 3 s.outsider).2) s).bump

/-- The companion's access may reach the package, or its own memory; in the fatal state, the blocks of the control window that still answer
(R448). -/
def State.companionMay (s : State) (pa : Nat) : Bool :=
  s.hostUp || decide (regionOf (pa % 2 ^ 40) = some 5002) || (decide (regionOf (pa % 2 ^ 40) = some 5000) && s.hostReaches (ctrlOff pa))

/-- An inbound RDMA operation: its own table and that of the DRAM let it pass, and its data is not marked bad (R330, R441). -/
def State.rdma (s : State) (write bad : Bool) (pa : Nat) (data : List Byte) : State :=
  let acc := b2n write
  if bad && write then s
  else if !inDram pa data.length || decide (pa / 2 ^ 40 % 256 ≠ s.scarab.pidx) || !s.tableAllows 6 6 pa data.length acc then s
  else if write then s.outsideWrite 6 pa data false
  else s.outsideRead 6 pa data.length

/-! ## Flits (R405, R439, R448) -/

/-- The payload of an access is poisoned on its way. -/
def Flight.poison (f : Flight) : Flight :=
  match f.kind, f.stage with
  | .fill, .reply _ => { f with stage := .reply ((f.data.drop 64).findIdx? (fun b => b.isNone)), bad := BitVec.allOnes 8 }
  | .prefetch _, .reply _ => { f with bad := BitVec.allOnes 8 }
  | .load, .reply _ => { f with stage := .reply (some 0) }
  | .atomic _, .reply _ => if f.inS then f else { f with stage := .reply (some 0) }
  | .store, .request => { f with bad := BitVec.allOnes 8 }
  | .writeback, .request => { f with bad := BitVec.allOnes 8 }
  | .atomic _, .request => { f with bad := 1 }
  | _, _ => f

/-- Who finds the poison that an access brings: a fill, a write-back, or else a thread (R429). -/
def Flight.foundBy (f : Flight) : Nat := match f.kind with | .fill => 4 | .prefetch _ => 4 | .writeback => 5 | _ => 1

/-- The queue of a kind 17 record of a payload that names no thread: that of cluster 0 of a link's die, or of the unit's own cluster (R429,
R430, R431). -/
def payloadAt (code l k : Nat) : Nat := if code = 11 then 0 else if code = 12 then (if l < 9 then 0 else 64) else k

/-- The kind 17 record of an access whose payload was poisoned: it names the thread that made it (R429). -/
def State.payloadRec (s : State) (code : Nat) (f : Flight) : State :=
  let v1 := BitVec.ofNat 64 (f.pa % 2 ^ 48)
  let v2 := BitVec.ofNat 64 f.foundBy
  if f.slot < 16 then s.record (clusterOf f.site) (s.threadRec f.site f.slot 17 code f.pc v1 v2 false)
  else s.record (payloadAt code ((f.via).getD 0) (clusterOf f.site)) (bareRec 17 code v1 v2)

/-- The payload of a flit is delivered poisoned, as a structure's code reports: that of an access, of a push, of a committed segment or of a
message; `l` is the link of the fabric that carried it. -/
def State.poisonPayload (s : State) (code l k : Nat) : State :=
  match s.flights[k]? with
  | some f => if f.poison = f then s else (s.setFlight k f.poison).payloadRec code f
  | none =>
    let j := k - s.flights.length
    match s.chan[j]? with
    | some (.grant seq e failed p) =>
      match s.pushPart seq e p with
      | none => s
      | some (o, pa) =>
        let p := { p with bad := p.bad ++ (List.range 8).map (o / 8 + ·) }
        let s := { s with chan := s.chan.set j (.grant seq e failed p) }
        s.record (payloadAt code l (s.txnCluster seq)) (bareRec 17 code (BitVec.ofNat 64 pa) 6)
    | some (.segment seq e pa bs false) =>
      State.record { s with chan := s.chan.set j (.segment seq e pa bs true) } (payloadAt code l (s.txnCluster seq))
        (bareRec 17 code (BitVec.ofNat 64 (pa % 2 ^ 48)) 5)
    | some (.message src dst hi ws lnch false) =>
      State.reportThread { s with chan := s.chan.set j (.message src dst hi ws lnch true) } src.1 src.2.1 17 code (s.thread src.1 src.2.1).pc 0 1
    | _ => s

/-- The package enters the fatal state, which it leaves only by a reset (R448). -/
def State.enterFatal (s : State) (cause unit : Nat) : State := { s with fatal := some (cause, unit % 0x10000, s.cold.time) }

/-- The payload of the FATAL message that the link sends the companion (R448). -/
def State.fatalMessage (s : State) : List Byte :=
  match s.fatal with
  | none => []
  | some (cause, unit, time) => leBytes 2 cause ++ leBytes 2 unit ++ leBytes 4 0 ++ leBytes 8 time

/-- A mesh or seam flit fails: it is retried up to 8 times; then a payload is poisoned, and a header is fatal. Which link it was is
free (R405, R448; log entry 2). -/
def State.meshFails (s : State) (k retries : Nat) (header : Bool) : State :=
  if retries < 8 then s
  else if header then (s.enterFatal 1 (Config.freeChoice s.tick % 0x10000)).bump
  else s.poisonPayload 9 0 k

/-! ## The fabric (R328, R438 to R440) -/

/-- The width at which lanes work together (R438). -/
def laneWidth (lanes : Nat) : Nat := if lanes % 16 = 15 then 4 else if lanes % 4 = 3 ∨ lanes / 4 % 4 = 3 then 2 else 0

/-- The cost of a width (R328). -/
def widthCost (w : Nat) : Nat := if w = 4 then 1 else if w = 2 then 2 else 255

/-- A link changes width: a kind 38 record shows FLSTAT before and after (R438). -/
def State.setWidth (s : State) (l : Nat) (x : Link) : State :=
  let old := s.link l
  State.edgeRec { s with links := tblSet l x s.links } (decide (9 ≤ l)) 38 0 (BitVec.ofNat 64 old.flstat) (BitVec.ofNat 64 x.flstat)

/-- A link that has been trained with its working lanes. -/
def Link.trained (x : Link) : Link :=
  let w := laneWidth x.lanes
  { x with st := if w = 0 then 0 else 2, width := w, cost := widthCost w, window := 128 * w }

/-- What had left on a link that went down is sent on another one (R439). -/
def State.resend (s : State) (l : Nat) : State :=
  if (s.link l).st ≠ 0 then s
  else { s with flights := s.flights.map (fun (f : Flight) => if f.via = some l then { f with via := none } else f)
                flows := s.flows.filter (fun x => decide (x.2 ≠ l)) }

/-- A link that retrains (R438). -/
def Link.retrain (x : Link) (lanes : Nat) : Link := { x with st := 1, lanes := lanes, cost := 255 }

/-- A lane of a link that is up, or that retrains, fails (R438). -/
def State.laneFails (s : State) (l lane : Nat) : State :=
  let x := s.link l
  if l < 18 ∧ x.st ≠ 0 ∧ lane < 4 ∧ bit x.lanes lane then { s with links := tblSet l (x.retrain (x.lanes - 2 ^ lane)) s.links } else s

/-- A retrain ends (R438). -/
def State.fabricTrained (s : State) (l : Nat) : State :=
  let x := s.link l
  if l < 18 ∧ x.st = 1 then (s.setWidth l x.trained).resend l else s

/-- The failed lanes of a width-2 link are tested (R438). -/
def State.laneTest (s : State) (l good : Nat) : State :=
  let x := s.link l
  if l < 18 ∧ x.st = 2 ∧ x.width = 2 ∧ Nat.lor x.lanes good % 16 = 15 then { s with links := tblSet l (x.retrain 15) s.links } else s

/-- A flit of the fabric fails its replays: the payload that the link carries is poisoned, a header takes the link down (R439). The
payloads are those of the accesses on their way over the link, and of the pushes and segments of its flows. -/
def State.fabricFails (s : State) (l k : Nat) (header : Bool) : State :=
  let x := s.link l
  if ¬ (l < 18 ∧ x.st = 2) then s
  else if header then (s.setWidth l { x with st := 0, width := 0, cost := 255, window := 0 }).resend l
  else
    match s.flights[k]? with
    | some f => if f.via = some l then s.poisonPayload 12 l k else s
    | none =>
      if ((s.chan[k - s.flights.length]?).bind s.packetLink) = some l then s.poisonPayload 12 l k else s

/-- An access to a package without a path has waited 1 ms: it fails, unless it is ordered traffic (R440). -/
def State.flowTimeout (s : State) (k : Nat) (f : Flight) : State :=
  match f.stage with
  | .request => if s.noPath f && !f.isWriteback then s.refuseFlight k f 5 else s
  | _ => s

/-- A link that is down comes up toward a package (R439). -/
def State.fabricUp (s : State) (l lanes peer plink : Nat) : State :=
  let x := s.link l
  if l < 18 ∧ x.st = 0 ∧ laneWidth lanes ≠ 0 then s.setWidth l { x with lanes := lanes, peer := peer, plink := plink }.trained else s

/-- A scale-out event's record goes to the die of its port (R22, R441). -/
def State.scaleout (s : State) (port qp syndrome : Nat) (isQp : Bool) (new : Word) : State :=
  s.edgeRec (decide (8 ≤ port)) 39 (if isQp then 2 else 1) (BitVec.ofNat 64 (port + qp * 2 ^ 8 + syndrome * 2 ^ 32)) new

/-- R432: A failed Ulisil flit is replayed and may start a retrain. -/
def execUlisilFlitCrcError (replays : Nat) (s : State) : Out :=
  .next (if s.on then s.flitFails replays else s)

/-- R432: A Ulisil retrain ends, held flits are sent and a record is written, or the link goes down. -/
def execUlisilRetrainEnd (goodFlits : Nat) (s : State) : Out :=
  .next (if s.on then s.retrainEnds goodFlits else s)

/-- R432: Every 100 ms a down Ulisil link tries to come up. -/
def execUlisilUpAttempt (works : Bool) (s : State) : Out :=
  .next (if s.on then s.linkTries works else s)

/-- R137: A companion write obtains its line from the home and is applied. -/
def execCompanionWrite (at_ : Word) (data : List Byte) (s : State) : Out :=
  .next (if s.companionMay at_.toNat && !data.isEmpty then s.outsideWrite 4 at_.toNat data false else s)

/-- R137: A companion read of the shared window is served coherently by the home. -/
def execCompanionRead (at_ : Word) (size : Nat) (s : State) : Out :=
  .next (if s.companionMay at_.toNat && decide (0 < size) then s.outsideRead 4 at_.toNat size else s)

/-- R405: A failing mesh or seam flit is retried, delivered poisoned, or stops the link. -/
def execMeshFlitError (k : Nat) (retries : Nat) (header : Bool) (s : State) : Out :=
  .next (if s.alive then s.meshFails k retries header else s)

/-- R438: A scale-up lane fails and its link starts retraining. -/
def execFabricLaneFailure (link : Nat) (lane : Nat) (s : State) : Out :=
  .next (if s.alive then s.laneFails link lane else s)

/-- R438: A fabric retrain ends at a new width with updated cost and window. -/
def execFabricRetrainEnd (link : Nat) (s : State) : Out :=
  .next (if s.alive then s.fabricTrained link else s)

/-- R438: Every second the failed lanes of a width-2 link are tested. -/
def execFabricLaneTest (link : Nat) (good : BitVec 4) (s : State) : Out :=
  .next (if s.alive then s.laneTest link good.toNat else s)

/-- R439: A fabric flit failing its replays is poisoned or takes the link down. -/
def execFabricFlitError (link : Nat) (k : Nat) (header : Bool) (s : State) : Out :=
  .next (if s.alive then s.fabricFails link k header else s)

/-- R440: After 1 ms without a path, non-ordered accesses fail with WHY = 5. -/
def execFabricFlowTimeout (k : Nat) (s : State) : Out :=
  match s.flights[k]? with
  | some f => .next (if s.alive then s.flowTimeout k f else s)
  | none => .next s

/-- R439: A scale-up link that is down trains and comes up, and its held flits are sent in order. -/
def execFabricLinkUp (link : Nat) (lanes : BitVec 4) (peer : Byte) (plink : BitVec 5) (s : State) : Out :=
  .next (if s.alive then s.fabricUp link lanes.toNat peer.toNat plink.toNat else s)

/-- R441: A scale-out port or queue pair changes state and a kind 39 record is written. -/
def execScaleoutEvent (port : BitVec 4) (isQp : Bool) (qp : BitVec 24) (syndrome : BitVec 32) (newState : Word) (s : State) :
  Out :=
  .next (if s.alive then s.scaleout port.toNat qp.toNat syndrome.toNat isQp newState else s)

/-- R330: An inbound RDMA operation reaches device memory at the homes or is refused. -/
def execRdmaInbound (write : Bool) (bad : Bool) (at_ : Word) (data : List Byte) (s : State) : Out :=
  .next (if s.alive then (if data.isEmpty then s else s.rdma write bad at_.toNat data) else s)

end Sys2Proof.Machine
end

