-- ==== Sys2Proof/Machine/Hive.lean ====
section
/-!
DEFINITION. The Hive: major 23 (R276 to R286, R398, R399, R407, R428), a keyed table in the local store with a spill log in device memory, and
its drains. A key instruction searches and updates the table when it issues; what it writes to the log goes to the homes, what it read
there comes back, and until then it holds the Hive.
-/

namespace Sys2Proof.Machine

open Sys2Proof

/-! ## The table (R276) -/

/-- Number of buckets. -/
def Core.buckets (c : Core) : Nat := 2 ^ c.hive.b

/-- Local address of slot s of bucket i, and of a bucket's tag byte. -/
def Core.slotAt (c : Core) (i s : Nat) : Nat := c.hvb + 64 * i + 16 * s
def Core.tagAt (c : Core) (i : Nat) : Nat := c.hvb + 64 * c.buckets + i

/-- The tag byte of a bucket: V in [3:0], TS in [7:4]. -/
def Core.tagOf (c : Core) (i : Nat) : Nat := (memGet (c.tagAt i) c.ls).toNat

/-- The first bucket of a key's window (R278). -/
def hiveHome (b key : Nat) : Nat :=
  let h := key * 0x9E3779B97F4A7C15 % 2 ^ 64
  Nat.xor h (h / 2 ^ 29) / 2 ^ (64 - b)

/-- The slots of a key's window in the order of the search. -/
def Core.window (c : Core) (key : Nat) : List (Nat × Nat) :=
  (List.range 8).flatMap (fun t => (List.range 4).map (fun s => ((hiveHome c.hive.b key + t) % c.buckets, s)))

/-- A Hive write of the issuing thread. -/
def State.hiveStore (s : State) (a : Nat) (bs : List Byte) : State := s.lsStore s.cur.1 a bs 5 s.self

/-- A poisoned local granule that the instruction has read fails the thread (R407). -/
def State.hiveClean (s : State) (a n : Nat) : Except Stop Unit :=
  match s.co.badAt a n with
  | some g => .error (.failRead s s.th.pc (BitVec.ofNat 64 g) 3)
  | none => .ok ()

/-! ## The spill log (R277) -/

/-- Virtual address of record n. -/
def Core.recordAt (c : Core) (n : Nat) : Word := c.hive.log + BitVec.ofNat 64 (32 * n)

/-- Translate a log access, which needs RD and WR, and check its target (R277, R415). -/
def State.logXlat (s : State) (va : Word) (size acc : Nat) : Except Stop (Nat × Target × State) :=
  match s.translate s.cur.1 s.cur.2 s.th.priv s.th.walk va 2 with
  | .miss s => .error (.stall s)
  | .fault why s => .error (.trapTlb s.co.tlb 13 (xlatVal va acc why))
  | .ok pa _ s =>
    if s.pathHeld s.th.isLate pa then .error (.stall s)
    else match s.pieceRefused s.cur.1 (masterOf s.th.priv) pa size acc, s.decodePa pa size acc with
    | none, .ok t => .ok (pa, t, s)
    | some why, _ => .error (.trapTlb s.co.tlb 14 (mapVal pa why acc false))
    | none, .error why => .error (.trapTlb s.co.tlb 14 (mapVal pa why acc false))

/-- A record of the log: key, value, STATE. -/
structure LogRec where
  key : Nat
  val : Nat
  state : Nat
  deriving DecidableEq, Repr

/-- The fields of a record's bytes. -/
def LogRec.of (bs : List Byte) : LogRec :=
  { key := leNat (bs.take 8), val := leNat ((bs.drop 8).take 8), state := leNat ((bs.drop 16).take 1) }

/-- The four loads by which a record read in a reconnaissance pass updates ACC (R285). -/
def Thread.accRecord (t : Thread) (va : Word) (bs : List Byte) : Thread :=
  let ws := (List.range 4).map (fun j =>
    (va + BitVec.ofNat 64 (8 * j), some (BitVec.ofNat 64 (leNat ((bs.drop (8 * j)).take 8)) : Word), 0, 0))
  ({ t with accQ := t.accQ ++ ws }).drain

/-- The bytes of record n with what the instruction itself has written to it. -/
def Core.overLog (c : Core) (n : Nat) (bs : List Byte) : List Byte :=
  (c.logOps.filter (fun w => decide (w.rec_ = n))).foldl (fun bs w =>
    bs.take w.off ++ w.bytes ++ bs.drop (w.off + w.bytes.length)) bs

/-- Read record n. -/
def State.logRead (s : State) (n : Nat) : Except Stop (LogRec × State) := do
  let va := s.co.recordAt n
  let (pa, t, s) ← s.logXlat va 32 0
  let (bs, s) := s.portRead t pa 32 3 (s.source s.cur.1 s.cur.2 false)
  match bs.findIdx? (fun b => b.2), s.linkPoison va pa with
  | some j, _ => throw (.failRead s s.th.pc (va + BitVec.ofNat 64 j) 5)
  | none, some (code, s) => throw (.failRead s s.th.pc va (BitVec.ofNat 64 code))
  | none, none =>
    let data := s.co.overLog n (bs.map (·.1))
    let s := if s.th.inRecon then s.setTh (s.th.accRecord va data) else s
    pure (LogRec.of data, s)

/-- Write bytes of record n: they leave for their home, and S counts them until they are acknowledged (R277). -/
def State.logWrite (s : State) (word : BitVec 32) (n off : Nat) (bs : List Byte) : Except Stop State := do
  let va := s.co.recordAt n + BitVec.ofNat 64 off
  let (pa, _, s) ← s.logXlat va bs.length 1
  if 1023 ≤ s.th.cntS then throw (.stall s)
  else
    let (id, s) := s.fresh
    let s := s.send (s.mkFlight .store id 0 va pa bs.length (bs.map some) true true word)
    let s := s.setTh { s.th with cntS := s.th.cntS + 1 }
    pure (s.setCo { s.co with logOps := s.co.logOps ++ [{ grp := id, rec_ := n, off := off, bytes := bs }] })

/-- The results of a Hive instruction that has read the log: each destination is pending until the answer comes, and one answer counts in L
(R277). A register that is no storage, or that is a queue, takes its value at once. -/
def State.hivePend (s : State) (word : BitVec 32) (counted : Bool) : List (RegName × Vec) → State
  | [] => s
  | (r, v) :: t =>
    let waits := match r with | .s n => decide (n ≠ 0 ∧ n ≠ 31) && (s.th.queueOf n).isNone | _ => true
    let s := match r with | .s n => if waits then s else s.writeS n (v.extractLsb' 0 64) | _ => s
    let (id, s) := s.fresh
    let wide := match r with | .v _ => true | _ => false
    let bs := leBytes (if wide then 64 else 8) v.toNat
    let l : Load := { id := id, dst := s.th.abs (if waits then r else .s 0), ext := if wide then .vector else .unsigned 64, got := []
                      waiting := 1, elems := if wide then [(0, 0, 64)] else [], acq := false, refused := false, dead := false
                      counted := counted, isLoad := false, toQueue := false }
    let f := { s.mkFlight .load id 0 s.co.hive.log (s.scarab.pidx * 2 ^ 40) bs.length (bs.map some) false true word with
               stage := .reply none }
    let th := s.th
    let s := (s.send f).setTh { th with loads := th.loads ++ [l], cntL := if counted then th.cntL + 1 else th.cntL
                                        pend := if waits then th.pend ++ [(th.abs r, id)] else th.pend }
    (s.setCo { s.co with logOps := s.co.logOps ++ [{ grp := id }] }).hivePend word false t

/-- The results of a Hive instruction reach their registers: at once, or after its search of the log has ended (R277). -/
def State.hiveResults (s : State) (word : BitVec 32) (read : Bool) (rs : List (RegName × Vec)) : Except Stop State :=
  if !read then .ok (rs.foldl (fun s x =>
    match x.1 with | .s n => s.writeS n (x.2.extractLsb' 0 64) | r => s.setTh (s.th.setReg r x.2)) s)
  else if 1023 ≤ s.th.cntL then .error (.stall s)
  else .ok (s.hivePend word true rs)

/-! ## The search (R278) -/

/-- Where a key is, and whether the search has read the log. -/
inductive Found where
  | bucket (i s : Nat)
  | record (n val : Nat)
  | absent (free : Option (Nat × Nat))
  deriving DecidableEq, Repr

/-- The part of the search in the log; answers also whether it has read a record. -/
def State.searchLog (s : State) (key : Nat) (free : Option (Nat × Nat)) (read : Bool) : List Nat → Except Stop (Found × Bool × State)
  | [] => .ok (.absent free, read, s)
  | n :: t => do
    let (r, s) ← s.logRead n
    if r.state = 1 ∧ r.key = key then pure (.record n r.val, true, s) else s.searchLog key free true t

/-- The part of the search in the buckets; a bucket's tag byte and then the bucket are read. -/
def State.searchWindow (s : State) (key : Nat) : List (Nat × Nat) → Option (Nat × Nat) → Except Stop (Found × Bool × State)
  | [], free => s.searchLog key free false (List.range s.co.hive.spn)
  | (i, j) :: t, free => do
    let c := s.co
    let s := if j = 0 then s.logPort s.cur.1 (c.tagAt i) 1 3 s.self else s
    let _ ← s.hiveClean (c.tagAt i) 1
    let s := if j = 0 then s.logPort s.cur.1 (c.slotAt i 0) 64 3 s.self else s
    let tag := c.tagOf i
    if bit tag j then
      let _ ← s.hiveClean (c.slotAt i j) 8
      if memNum (c.slotAt i j) 8 c.ls = key then pure (.bucket i j, false, s) else s.searchWindow key t free
    else
      let free := free.orElse (fun _ => some (i, j))
      if !bit tag (j + 4) then pure (.absent free, false, s) else s.searchWindow key t free

/-- Look a key up. -/
def State.hiveFind (s : State) (key : Nat) : Except Stop (Found × Bool × State) := s.searchWindow key (s.co.window key) none

/-! ## Changes (R278, R279) -/

/-- The value of a found key. -/
def State.hiveValue (s : State) (f : Found) : Except Stop Nat :=
  match f with
  | .bucket i j => do
    let _ ← s.hiveClean (s.co.slotAt i j + 8) 8
    pure (memNum (s.co.slotAt i j + 8) 8 s.co.ls)
  | .record _ v => .ok v
  | .absent _ => .ok 0

/-- Write the value of a found key. -/
def State.hiveUpdate (s : State) (word : BitVec 32) (f : Found) (v : Nat) : Except Stop State :=
  match f with
  | .bucket i j => .ok (s.hiveStore (s.co.slotAt i j + 8) (leBytes 8 v))
  | .record n _ => s.logWrite word n 8 (leBytes 8 v)
  | .absent _ => .ok s

/-- Place an absent key; answers whether it was appended. `val` is the value of the spill trap. -/
def State.hivePlace (s : State) (word : BitVec 32) (free : Option (Nat × Nat)) (key v : Nat) (val : Word) : Except Stop (Bool × State) :=
  match free with
  | some (i, j) => do
    let c := s.co
    let s := s.hiveStore (c.slotAt i j) (leBytes 8 key ++ leBytes 8 v)
    let tag := Nat.lor (Nat.land (c.tagOf i) (255 - 2 ^ (j + 4))) (2 ^ j)
    pure (false, s.hiveStore (c.tagAt i) (leBytes 1 tag))
  | none => do
    let h := s.co.hive
    if h.spn = h.spcap then throw (.spill val)
    let s ← s.logWrite word h.spn 0 (leBytes 8 key ++ leBytes 8 v ++ leBytes 1 1 ++ leBytes 15 0)
    pure (true, s.setCo { s.co with hive := { s.co.hive with spn := h.spn + 1 } })

/-- Delete a found key. -/
def State.hiveDelete (s : State) (word : BitVec 32) (f : Found) : Except Stop State :=
  match f with
  | .bucket i j =>
    let tag := Nat.lor (Nat.land (s.co.tagOf i) (255 - 2 ^ j)) (2 ^ (j + 4))
    .ok (s.hiveStore (s.co.tagAt i) (leBytes 1 tag))
  | .record n _ => s.logWrite word n 16 [2]
  | .absent _ => .ok s

/-! ## Key instructions (R279, R280) -/

/-- What a key instruction does. -/
inductive KeyOp where
  | ins
  | prb
  | del
  | add
  | least
  | most
  | fadd
  deriving DecidableEq, Repr

/-- The new value of an accumulation: found value v or none, and delta x. -/
def KeyOp.accumulate (o : KeyOp) (v : Option Nat) (x : Nat) : FRes :=
  match o, v with
  | .add, some v => ((v + x) % 2 ^ 64, 0)
  | .least, some v => (wrapN 64 (min (sgn 64 v) (sgn 64 x)), 0)
  | .most, some v => (wrapN 64 (max (sgn 64 v) (sgn 64 x)), 0)
  | .fadd, some v => fp64.arith 0 0 0 v x
  | .fadd, none => if fp64.read x = .nan true then (fp64.nanCode, fNV) else (x, 0)
  | _, _ => (x, 0)

/-- What one lane leaves: its result, whether the key was found, its flags, and whether it read the log. -/
structure LaneRes where
  val : Nat := 0
  found : Bool := false
  flags : BitVec 6 := 0
  /-- its search has read the log -/
  read : Bool := false
  deriving DecidableEq, Repr

/-- One lane (R279). -/
def State.keyLane (s : State) (word : BitVec 32) (o : KeyOp) (key x : Nat) (spillVal : Word) : Except Stop (LaneRes × State) := do
  let (f, read, s) ← s.hiveFind key
  match o, f with
  | .ins, .absent free =>
    let (app, s) ← s.hivePlace word free key x spillVal
    pure ({ val := if app then 2 else 0, read := read }, s)
  | .ins, _ => pure ({ val := 1, found := true, read := read }, s)
  | .prb, .absent _ => pure ({ read := read }, s)
  | .prb, f =>
    let v ← s.hiveValue f
    pure ({ val := v, found := true, read := read }, s)
  | .del, .absent _ => pure ({ read := read }, s)
  | .del, f =>
    let s ← s.hiveDelete word f
    pure ({ val := 1, found := true, read := read }, s)
  | o, .absent free =>
    let r := o.accumulate none x
    let (_, s) ← s.hivePlace word free key r.1 spillVal
    pure ({ val := r.1, flags := r.2, read := read }, s)
  | o, f =>
    let v ← s.hiveValue f
    let r := o.accumulate (some v) x
    let s ← s.hiveUpdate word f r.1
    pure ({ val := r.1, found := true, flags := r.2, read := read }, s)

/-- XVAL of the spill trap (R428). -/
def spillVal (spn lane : Nat) (vector : Bool) : Word := BitVec.ofNat 64 (spn % 2 ^ 24 + lane % 32 * 2 ^ 24 + b2n vector * 2 ^ 29)

/-- The active lanes in ascending order (R280): lane, key, value. -/
def State.keyLanes (s : State) (word : BitVec 32) (o : KeyOp) (spn : Nat) (vector : Bool) :
    List (Nat × Nat × Nat) → Except Stop (List (Nat × LaneRes) × State)
  | [] => .ok ([], s)
  | (i, k, x) :: t => do
    let (r, s) ← s.keyLane word o k x (spillVal spn i vector)
    let (rs, s) ← s.keyLanes word o spn vector t
    pure ((i, r) :: rs, s)

/-- Another thread's Hive instruction holds the Hive while it waits for the walk of a page of the log (R281, R399). -/
def State.hiveWalked (s : State) : Bool :=
  match s.co.hiveWalk with
  | none => false
  | some (j, pc) =>
    let t := s.thread s.cur.1 j
    decide (j ≠ s.cur.2 ∧ t.pc = pc) && (match t.run with | .stalled => true | _ => false)

/-- A Hive instruction waits for an earlier one that has touched the log, and for the read phase of an earlier drain, or of one that was
handed back (R281, R419). -/
def State.hiveHeld (s : State) : Bool :=
  s.hiveBusy s.cur.1 || s.hiveWalked
    || s.co.ops.any (fun o => decide (o.queue = 3) && (match o.stage with | .queued => true | .begun => true | _ => false))
    || s.co.threads.any (fun x => x.2.due.any (fun d => decide (d.queue = some 3)) ||
        (decide (x.1 ≠ s.cur.2) && (match x.2.hb with | some d => decide (d.queue = some 3) && !d.resub | none => false)))

/-- A stalled or trapping instruction leaves no lane's effect; a walk that it asked for stands, and it holds the Hive (R281, R399). -/
def undo {α : Type} (s0 : State) (r : Except Stop α) : Except Stop α :=
  match r with
  | .error (.stall s) =>
    let k := clusterOf s0.cur.1
    let s0 := s0.setCluster k { s0.cluster k with walks := (s.cluster k).walks }
    .error (.stall (s0.setCo { s0.co with hiveWalk := some (s0.cur.2, s0.th.pc) }))
  | r => r

/-- A Hive instruction begins: the answers of the one before have come. -/
def State.hiveStart (s : State) : State := s.setCo { s.co with logOps := [], hiveWalk := none }

/-- Run a key instruction over its lanes: what every form shares. In a reconnaissance pass only `kprb` acts (R285). `results` gives the
values of the destinations. -/
def State.keyRun (s : State) (k : Issue) (o : KeyOp) (vector : Bool) (lanes : List (Nat × Nat × Nat))
    (results : List (Nat × LaneRes) → List (RegName × Vec)) : Except Stop State := do
  if !s.co.hive.clm then throw k.operand
  if s.hiveHeld then throw (.stall s)
  if s.th.inRecon ∧ o ≠ .prb then s.hiveResults k.code.bits false (results (lanes.map (fun l => (l.1, {}))))
  else
    let (rs, s1) ← undo s (s.hiveStart.keyLanes k.code.bits o s.co.hive.spn vector lanes)
    let f := rs.foldl (fun f r => f ||| r.2.flags) 0
    if let some r := (if f = 0 then none else s.poisonedIn [.spr 0x015]) then throw r
    if s.th.trapsOn f then throw (.arith f s.th.srs)
    else undo s ((s1.raise s.cur.1 s.cur.2 f).hiveResults k.code.bits (rs.any (fun r => r.2.read)) (results rs))

/-- A scalar form: key sA, value sB if it has one, result sD, and the found flag's register. -/
def keyScalar (c : Code) (o : KeyOp) (a : Nat) (b : Option Nat) (d : Nat) (f : Option Nat) (s : State) : Out :=
  let k : Issue := { code := c, reads := a :: b.toList, writes := d :: f.toList, effect := decide (o ≠ .prb), takes := true }
  issue k s fun s => do
    let (key, s1) := s.readS a
    let (x, s1) := match b with | some b => s1.readS b | none => (0, s1)
    s1.keyRun k o false [(0, key.toNat, x.toNat)] (fun rs =>
      let r := match rs with | (_, r) :: _ => r | [] => {}
      (.s d, BitVec.ofNat 512 r.val) :: f.toList.map (fun f => (.s f, if r.found then 1 else 0)))

/-- A vector form of w-byte lanes: keys vA, values vB, results vD under pX, and the found predicate. -/
def keyVector (c : Code) (o : KeyOp) (w x a : Nat) (b : Option Nat) (d : Nat) (f : Option Nat) (s : State) : Out :=
  let k : Issue := { code := c, others := .v a :: .p x :: b.toList.map RegName.v, dests := .v d :: f.toList.map RegName.p
                     effect := decide (o ≠ .prb), takes := true }
  issue k s fun s =>
    let t := s.th
    let va := t.vreg a
    let vb : Vec := match b with | some b => t.vreg b | none => 0
    let lanes := ((List.range (64 / w)).filter (active (t.preg x) w)).map (fun i =>
      (i, elem va w i, (extS (8 * w) (elem vb w i)).toNat))
    s.keyRun k o true lanes (fun rs =>
      let res (i : Nat) : Option LaneRes := (rs.find? (fun r => decide (r.1 = i))).map (·.2)
      let vd := mkVec w ((elems (t.vreg d) w).zipIdx.map (fun e => match res e.2 with | some r => r.val | none => e.1))
      let found := predOf w ((List.range (64 / w)).map (fun i => match res i with | some r => r.found | none => false))
      (.v d, vd) :: f.toList.map (fun f => (.p f, found.zeroExtend 512)))

/-! ## `kstat` (R283) -/

/-- Read the tag bytes of the whole table (R129, R407). -/
def State.hiveTags (s : State) : Except Stop (List Nat × State) := do
  let s := s.logPort s.cur.1 (s.co.tagAt 0) s.co.buckets 3 s.self
  let _ ← s.hiveClean (s.co.tagAt 0) s.co.buckets
  pure ((List.range s.co.buckets).map s.co.tagOf, s)

/-- Set bits among four at a place in each number. -/
def countBits (lo : Nat) (xs : List Nat) : Nat := (xs.map (fun x => ((List.range 4).filter (fun j => bit x (lo + j))).length)).sum

/-- Live records among those given. -/
def State.liveRecords (s : State) : List Nat → Except Stop (Nat × State)
  | [] => .ok (0, s)
  | n :: t => do
    let (r, s) ← s.logRead n
    let (k, s) ← s.liveRecords t
    pure ((if r.state = 1 then k + 1 else k), s)

/-- The value that `kstat` reads. -/
def State.hiveStat (s : State) (sel : Nat) : Except Stop (Word × State) :=
  let h := s.co.hive
  if sel = 6 then .ok (s.co.hvc, s)
  else if !h.clm then .ok (0, s)
  else
    match sel with
    | 0 => do let (ts, s) ← s.hiveTags; pure (BitVec.ofNat 64 (countBits 0 ts), s)
    | 1 => do let (ts, s) ← s.hiveTags; pure (BitVec.ofNat 64 (countBits 4 ts), s)
    | 2 => .ok (BitVec.ofNat 64 h.spn, s)
    | 3 => do let (n, s) ← undo s (s.liveRecords (List.range h.spn)); pure (BitVec.ofNat 64 n, s)
    | 4 => .ok (BitVec.ofNat 64 h.spcap, s)
    | _ => .ok (h.log, s)

/-! ## Drains (R281, R282, R418) -/

/-- Fields of a drain's word. -/
def EngOp.drainSorted (o : EngOp) : Bool := decide (o.fn = 10)
def EngOp.drainClears (o : EngOp) : Bool := o.word.getLsbD 24
def EngOp.drainSigned (o : EngOp) : Bool := o.word.getLsbD 25

/-- The destination of a drain: a local address with M = 1. -/
def EngOp.drainDst (o : EngOp) : Side := sideOf (o.word.getLsbD 12) o.ra

/-- A live entry with the addresses of its poisoned words. -/
structure LiveEntry where
  key : Word
  val : Word
  keyBad : Option Nat
  valBad : Option Nat
  /-- the poisoned tag byte or STATE that says it is live -/
  liveBad : Option Nat := none
  deriving DecidableEq, Repr

/-- The live entries of the buckets, in (bucket, slot) order. -/
def Core.liveBuckets (c : Core) : List LiveEntry :=
  (List.range c.buckets).flatMap (fun i => ((List.range 4).filter (fun j => bit (c.tagOf i) j)).map (fun j =>
    let a := c.slotAt i j
    { key := BitVec.ofNat 64 (memNum a 8 c.ls), val := BitVec.ofNat 64 (memNum (a + 8) 8 c.ls)
      keyBad := c.badAt a 8, valBad := c.badAt (a + 8) 8, liveBad := c.badAt (c.tagAt i) 1 }))

/-- The live records of the log in append order, read for a drain: a stop, a wait, or the entries. -/
def State.drainLog (s : State) (n : Nat) (o : EngOp) : List Nat → Except (State × Option Halt) (List LiveEntry × State)
  | [] => .ok ([], s)
  | j :: t =>
    let va := (s.core n).recordAt j
    match s.translate n (16 + o.queue) o.priv o.walk va 2 with
    | .miss s => .error (s, none)
    | .fault why s => .error (s, some { at_ := 0, kind := 1, code := 15, val := xlatVal va 0 why })
    | .ok pa _ s =>
      if s.pathHeld o.late pa then .error (s, none)
      else match s.pieceRefused n o.master pa 32 0, s.decodePa pa 32 0 with
      | some why, _ => .error (s, some { at_ := 0, kind := 2, code := 14, val := mapVal pa why 0 true })
      | none, .error why => .error (s, some { at_ := 0, kind := 2, code := 14, val := mapVal pa why 0 true })
      | none, .ok tg =>
        let (bs, s) := s.portRead tg pa 32 3 (s.opSource n o)
        let r := LogRec.of (bs.map (·.1))
        let bad (lo n : Nat) : Option Nat := ((bs.drop lo).take n).findIdx? (fun b => b.2) |>.map (fun i => (va + BitVec.ofNat 64 (lo + i)).toNat)
        match s.drainLog n o t with
        | .error e => .error e
        | .ok (es, s) =>
          if r.state = 1 then
            .ok ({ key := BitVec.ofNat 64 r.key, val := BitVec.ofNat 64 r.val, keyBad := bad 0 8, valBad := bad 8 8
                   liveBad := bad 16 1 } :: es, s)
          else .ok (es, s)

/-- Put an entry into a sorted list after its equals. -/
def putByKey (signed : Bool) (e : LiveEntry) : List LiveEntry → List LiveEntry
  | [] => [e]
  | x :: t =>
    if (if signed then decide (e.key.toInt < x.key.toInt) else decide (e.key.toNat < x.key.toNat)) then e :: x :: t
    else x :: putByKey signed e t

/-- The read phase of a drain: its destination is translated, the log is read, and `.clr` empties the table when every entry fits.
Answers a wait, a stop, or the state with the entries in the operation. -/
def State.drainRead (s : State) (n : Nat) (o : EngOp) : Except (State × Option Halt) State :=
  let cap := o.rb.toNat
  match s.scan n o (stretches 0 true 1 o.drainDst (16 + 16 * cap)) none with
  | .error s => .error (s, none)
  | .ok (some h, _, s) => .error (s, some h)
  | .ok (none, gs, s) =>
    match s.drainLog n o (List.range (s.core n).hive.spn) with
    | .error e => .error e
    | .ok (recs, s) =>
      let c := s.core n
      let es := c.liveBuckets ++ recs
      let es := if o.drainSorted then es.foldl (fun l e => putByKey o.drainSigned e l) [] else es
      let put := es.take cap
      let counts := (es.findSome? (fun e => e.liveBad)).orElse (fun _ => c.badAt (c.tagAt 0) c.buckets)
      let bads := (counts.toList.flatMap (fun a => [(0, a), (1, a)])) ++ put.zipIdx.flatMap (fun x =>
        ((x.1.liveBad.orElse (fun _ => x.1.keyBad)).map (fun a => (2 * x.2 + 2, a))).toList
          ++ ((x.1.liveBad.orElse (fun _ => x.1.valBad)).map (fun a => (2 * x.2 + 3, a))).toList)
      let o := { o with items := put.map (fun e => (e.key, e.val)), bads := bads, x0 := BitVec.ofNat 64 es.length
                        list := gs.map (fun g => g.pa), stage := .read }
      let s := ((s.logPort n (c.tagAt 0) c.buckets 3 (s.opSource n o)).logPort n (c.slotAt 0 0) (64 * c.buckets) 3 (s.opSource n o))
      let s := s.setCore n ((s.core n).setOp o)
      if o.drainClears && decide (es.length ≤ cap) then
        let s := s.lsStore n (c.tagAt 0) (List.replicate c.buckets 0) 5 { s.opSource n o with own := true }
        .ok (s.setCore n { s.core n with hive := { (s.core n).hive with spn := 0, sovf := false } })
      else .ok s

/-- Perform a drain that has read its entries: the header and the pairs; none when a port holds a piece back. -/
def State.performDrain (s : State) (n : Nat) (o : EngOp) : Option State :=
  let words := [BitVec.ofNat 64 o.items.length, o.x0] ++ o.items.flatMap (fun e => [e.1, e.2])
  let bytes := words.zipIdx.flatMap (fun w => (leBytes 8 w.1.toNat).map (fun b => (b, o.bads.any (fun x => decide (x.1 = w.2)))))
  let gs := (stretches 0 true 1 o.drainDst (16 + 16 * o.rb.toNat)).zip o.list |>.map (fun x => x.1.placed s.scarab.pidx x.2)
  match s.writeSide n o 0 o.drainDst gs bytes with
  | none => none
  | some s => some (s.poisonRecord n o (o.bads.head?.map (fun x => (x.2, o.drainDst.addr (8 * x.1)))))

/-- Issue a drain, which waits for the read phase of an earlier one as every Hive instruction does (R281, R282, R398). -/
def drain (c : Code) (m : Bool) (a b : Nat) (s : State) : Out :=
  engine c [a, b] [] (fun k s0 => do
    let (p, s) := s0.readS a
    let (q, s) := s.readS b
    if !s0.co.hive.clm || decide (p.toNat % 16 ≠ 0) || decide (2 ^ 24 < q.toNat) then throw k.operand
    guardStop (s0.sideStop (sideOf m p) (16 + 16 * q.toNat) true)
    if s0.hiveHeld then throw (.stall s0)
    s0.submit s { s0.mkOp k 3 with ra := p, rb := q } false false) s

/-- R276: Claims a Hive table and clears its tag bytes. -/
def execKclaim (b : BitVec 5) (a : BitVec 5) (n : BitVec 5) (s : State) : Out :=
  let k : Issue := { code := (.long (0#8 ++ b ++ a ++ 0#2 ++ n ++ 95#7)), reads := [a.toNat, b.toNat], quiet := true, effect :=
    true }
  issue k s fun s => do
    let (x, s1) := s.readS a.toNat
    let (y, s1) := s1.readS b.toNat
    let c := s.co
    let e := n.toNat
    if c.hive.clm || decide (c.hlog = 0) || decide (e < 3) || decide (11 < e) || decide (2 ^ c.hlog < 65 * 2 ^ e)
        || decide (x.toNat % 32 ≠ 0) || !canonical x || decide (2 ^ 24 ≤ y.toNat)
      then throw k.operand
    if s.hiveHeld then throw (.stall s)
    let s1 := s1.hiveStart.hiveStore (c.hvb + 64 * 2 ^ e) (List.replicate (2 ^ e) 0)
    let s1 := s1.setCo { s1.co with hive := { clm := true, b := e, sovf := false, spn := 0, spcap := y.toNat, log := x } }
    let s1 := s1.setCo (s1.co.bankSweep ((c.hvb + 64 * 2 ^ e) / 64) ((2 ^ e + 63) / 64))
    pure (s1.setTh { s1.th with busy := 2 ^ e / 64 / 16 })

/-- R276: Waits for kq drains and unclaims the Hive table. -/
def execKrel (s : State) : Out :=
  let k : Issue := { code := (.long 134217823#32), quiet := true, effect := true }
  issue k s fun s => do
    if !s.co.hive.clm then throw k.operand
    if s.hiveHeld || s.co.ops.any (fun o => decide (o.queue = 3)) then throw (.stall s)
    pure (s.setCo { s.co with hive := { s.co.hive with clm := false } })

/-- R279: Inserts a key if absent. -/
def execKins (b : BitVec 5) (a : BitVec 5) (d : BitVec 5) (s : State) : Out :=
  keyScalar (.long (16#8 ++ b ++ a ++ 0#2 ++ d ++ 95#7)) .ins a.toNat (some b.toNat) d.toNat none s

/-- R280: Inserts 8 keys lane by lane. -/
def execKinsV64 (x : BitVec 3) (b : BitVec 4) (a : BitVec 4) (d : BitVec 4) (s : State) : Out :=
  keyVector (.long (2#5 ++ x ++ 0#1 ++ b ++ 0#1 ++ a ++ 2#3 ++ d ++ 95#7)) .ins 8 x.toNat a.toNat (some b.toNat) d.toNat none s

/-- R280: Inserts 16 keys lane by lane. -/
def execKinsV32 (x : BitVec 3) (b : BitVec 4) (a : BitVec 4) (d : BitVec 4) (s : State) : Out :=
  keyVector (.long (2#5 ++ x ++ 0#1 ++ b ++ 0#1 ++ a ++ 4#3 ++ d ++ 95#7)) .ins 4 x.toNat a.toNat (some b.toNat) d.toNat none s

/-- R279: Adds a delta to a key's value, placing it if absent. -/
def execKaccAdd (b : BitVec 5) (a : BitVec 5) (d : BitVec 5) (s : State) : Out :=
  keyScalar (.long (40#8 ++ b ++ a ++ 0#2 ++ d ++ 95#7)) .add a.toNat (some b.toNat) d.toNat none s

/-- R280: Accumulates 8 key deltas lane by lane. -/
def execKaccAddV64 (x : BitVec 3) (b : BitVec 4) (a : BitVec 4) (d : BitVec 4) (s : State) : Out :=
  keyVector (.long (5#5 ++ x ++ 0#1 ++ b ++ 0#1 ++ a ++ 2#3 ++ d ++ 95#7)) .add 8 x.toNat a.toNat (some b.toNat) d.toNat none s

/-- R280: Accumulates 16 key deltas lane by lane. -/
def execKaccAddV32 (x : BitVec 3) (b : BitVec 4) (a : BitVec 4) (d : BitVec 4) (s : State) : Out :=
  keyVector (.long (5#5 ++ x ++ 0#1 ++ b ++ 0#1 ++ a ++ 4#3 ++ d ++ 95#7)) .add 4 x.toNat a.toNat (some b.toNat) d.toNat none s

/-- R279: Keeps the signed minimum for a key. -/
def execKaccMin (b : BitVec 5) (a : BitVec 5) (d : BitVec 5) (s : State) : Out :=
  keyScalar (.long (48#8 ++ b ++ a ++ 0#2 ++ d ++ 95#7)) .least a.toNat (some b.toNat) d.toNat none s

/-- R280: Vector signed minimum over 8 keys. -/
def execKaccMinV64 (x : BitVec 3) (b : BitVec 4) (a : BitVec 4) (d : BitVec 4) (s : State) : Out :=
  keyVector (.long (6#5 ++ x ++ 0#1 ++ b ++ 0#1 ++ a ++ 2#3 ++ d ++ 95#7)) .least 8 x.toNat a.toNat (some b.toNat) d.toNat none
    s

/-- R280: Vector signed minimum over 16 keys. -/
def execKaccMinV32 (x : BitVec 3) (b : BitVec 4) (a : BitVec 4) (d : BitVec 4) (s : State) : Out :=
  keyVector (.long (6#5 ++ x ++ 0#1 ++ b ++ 0#1 ++ a ++ 4#3 ++ d ++ 95#7)) .least 4 x.toNat a.toNat (some b.toNat) d.toNat none
    s

/-- R279: Keeps the signed maximum for a key. -/
def execKaccMax (b : BitVec 5) (a : BitVec 5) (d : BitVec 5) (s : State) : Out :=
  keyScalar (.long (56#8 ++ b ++ a ++ 0#2 ++ d ++ 95#7)) .most a.toNat (some b.toNat) d.toNat none s

/-- R280: Vector signed maximum over 8 keys. -/
def execKaccMaxV64 (x : BitVec 3) (b : BitVec 4) (a : BitVec 4) (d : BitVec 4) (s : State) : Out :=
  keyVector (.long (7#5 ++ x ++ 0#1 ++ b ++ 0#1 ++ a ++ 2#3 ++ d ++ 95#7)) .most 8 x.toNat a.toNat (some b.toNat) d.toNat none s

/-- R280: Vector signed maximum over 16 keys. -/
def execKaccMaxV32 (x : BitVec 3) (b : BitVec 4) (a : BitVec 4) (d : BitVec 4) (s : State) : Out :=
  keyVector (.long (7#5 ++ x ++ 0#1 ++ b ++ 0#1 ++ a ++ 4#3 ++ d ++ 95#7)) .most 4 x.toNat a.toNat (some b.toNat) d.toNat none s

/-- R279: Adds an FP64 delta to a key's value rounded RNE. -/
def execKaccFadd (b : BitVec 5) (a : BitVec 5) (d : BitVec 5) (s : State) : Out :=
  keyScalar (.long (64#8 ++ b ++ a ++ 0#2 ++ d ++ 95#7)) .fadd a.toNat (some b.toNat) d.toNat none s

/-- R280: Vector FP64 accumulation over 8 keys. -/
def execKaccFaddV64 (x : BitVec 3) (b : BitVec 4) (a : BitVec 4) (d : BitVec 4) (s : State) : Out :=
  keyVector (.long (8#5 ++ x ++ 0#1 ++ b ++ 0#1 ++ a ++ 2#3 ++ d ++ 95#7)) .fadd 8 x.toNat a.toNat (some b.toNat) d.toNat none s

/-- R279: Probes a key for its value and found flag. -/
def execKprb (f : BitVec 5) (a : BitVec 5) (d : BitVec 5) (s : State) : Out :=
  keyScalar (.long (24#8 ++ f ++ a ++ 0#2 ++ d ++ 95#7)) .prb a.toNat none d.toNat (some f.toNat) s

/-- R280: Probes 8 keys, writing values and a found predicate. -/
def execKprbV64 (x : BitVec 3) (f : BitVec 3) (a : BitVec 4) (d : BitVec 4) (s : State) : Out :=
  keyVector (.long (3#5 ++ x ++ 0#2 ++ f ++ 0#1 ++ a ++ 2#3 ++ d ++ 95#7)) .prb 8 x.toNat a.toNat none d.toNat (some f.toNat) s

/-- R280: Probes 16 keys, writing values and a found predicate. -/
def execKprbV32 (x : BitVec 3) (f : BitVec 3) (a : BitVec 4) (d : BitVec 4) (s : State) : Out :=
  keyVector (.long (3#5 ++ x ++ 0#2 ++ f ++ 0#1 ++ a ++ 4#3 ++ d ++ 95#7)) .prb 4 x.toNat a.toNat none d.toNat (some f.toNat) s

/-- R279: Deletes a key. -/
def execKdel (a : BitVec 5) (d : BitVec 5) (s : State) : Out :=
  keyScalar (.long (1024#13 ++ a ++ 0#2 ++ d ++ 95#7)) .del a.toNat none d.toNat none s

/-- R280: Deletes 8 keys lane by lane. -/
def execKdelV64 (x : BitVec 3) (a : BitVec 4) (d : BitVec 4) (s : State) : Out :=
  keyVector (.long (4#5 ++ x ++ 0#6 ++ a ++ 2#3 ++ d ++ 95#7)) .del 8 x.toNat a.toNat none d.toNat none s

/-- R280: Deletes 16 keys lane by lane. -/
def execKdelV32 (x : BitVec 3) (a : BitVec 4) (d : BitVec 4) (s : State) : Out :=
  keyVector (.long (4#5 ++ x ++ 0#6 ++ a ++ 4#3 ++ d ++ 95#7)) .del 4 x.toNat a.toNat none d.toNat none s

/-- R282: Queues a drain of all live Hive entries in table order. -/
def execKdrain (c : BitVec 1) (b : BitVec 5) (a : BitVec 5) (m : BitVec 1) (s : State) : Out :=
  drain (.long (36#7 ++ c ++ b ++ a ++ 0#1 ++ m ++ 95#12)) (decide (m = 1)) a.toNat b.toNat s

/-- R282: Queues a drain of all live Hive entries sorted by key. -/
def execKdrains (bs : BitVec 1) (c : BitVec 1) (b : BitVec 5) (a : BitVec 5) (m : BitVec 1) (s : State) : Out :=
  drain (.long (20#6 ++ bs ++ c ++ b ++ a ++ 0#1 ++ m ++ 95#12)) (decide (m = 1)) a.toNat b.toNat s

/-- R283: Reads a Hive count or status into sD. -/
def execKstat (bs : BitVec 5) (d : BitVec 5) (s : State) : Out :=
  let k : Issue := { code := (.long (88#8 ++ bs ++ 0#7 ++ d ++ 95#7)), writes := [d.toNat], takes := true }
  issue k s fun s => do
    if s.hiveHeld then throw (.stall s)
    let (v, s1) ← s.hiveStart.hiveStat bs.toNat
    undo s (s1.hiveResults k.code.bits (decide (bs.toNat = 3) && s.co.hive.clm && decide (0 < s.co.hive.spn)) [(.s d.toNat, v.zeroExtend 512)])

end Sys2Proof.Machine
end

