-- ==== Sys2Proof/Machine/SparseUnit.lean ====
section
/-!
DEFINITION. The sparse unit: FN 0 to 5 of major 22 (R158, R162, R270 to R275, R397, R408). A submission checks descriptors and the
result record; the operation reads its streams, writes its output and then the record.
-/

namespace Sys2Proof.Machine

open Sys2Proof

/-! ## Streams (R270) -/

/-- Fields of a stream descriptor. -/
def sIadr (d : Word) : Nat := bits d.toNat 0 19
def sVadr (d : Word) : Nat := bits d.toNat 19 19
def sCnt (d : Word) : Nat := bits d.toNat 38 20

/-- An element of an input stream, with the addresses of poisoned fields. -/
structure SElem where
  idx : Nat
  val : Nat
  idxBad : Option Nat
  valBad : Option Nat
  deriving DecidableEq, Repr

/-- An output entry: a poisoned value's granules stay poisoned, and `src` is the poisoned input it depends on. -/
structure Emit where
  idx : Nat
  val : Nat
  bad : Bool
  src : Option Nat
  deriving DecidableEq, Repr

/-- The word of w bytes at an address, and the address when it is poisoned. -/
def Core.field (c : Core) (a w : Nat) : Nat × Option Nat := (memNum a w c.ls, c.badAt a w)

/-- The elements of an input stream of w-byte elements; a dense one has indices 0, 1, … -/
def Core.stream (c : Core) (d : Word) (w : Nat) (dense : Bool) : List SElem :=
  (List.range (sCnt d)).map (fun i =>
    let k := if dense then (i, none) else c.field (sIadr d + w * i) w
    let v := c.field (sVadr d + w * i) w
    { idx := k.1, val := v.1, idxBad := k.2, valBad := v.2 })

/-- What an operation has produced so far. -/
structure Sparse where
  /-- entries, last one first -/
  out : List Emit := []
  /-- entries produced -/
  need : Nat := 0
  status : Nat := 0
  /-- roundings made -/
  draws : Nat := 0
  flags : BitVec 6 := 0
  /-- a poisoned index that stopped it, or a poisoned value that reached no entry but bears on them -/
  halt : Option Nat := none
  deriving DecidableEq, Repr

/-- A status; the first to arise is kept. -/
def Sparse.set (r : Sparse) (st : Nat) : Sparse := if r.status = 0 then { r with status := st } else r

/-- Emit an entry; past the capacity it is only counted. -/
def Sparse.emit (r : Sparse) (cap : Nat) (e : Emit) : Sparse :=
  if r.need < cap then { r with out := e :: r.out, need := r.need + 1 } else { r.set 2 with need := r.need + 1, halt := r.halt.orElse (fun _ => e.src) }

/-- A value is an exact zero (R271). -/
def exactZero (int : Bool) (v : Nat) : Bool := if int then decide (v % 2 ^ 32 = 0) else decide (v % 2 ^ 31 = 0)

/-- A value carried to the output: a poisoned FP32 value becomes the NaN, a poisoned INT32 value keeps its bytes and poison (R408). -/
def carried (int : Bool) (idx v : Nat) (bad : Option Nat) : Emit :=
  match bad with
  | none => { idx := idx, val := v, bad := false, src := none }
  | some a => { idx := idx, val := if int then v else fp32.nanCode, bad := int, src := some a }

/-! ## Union and intersection (R271) -/

/-- An op of `merge` or `isect` on values of both streams. -/
def bothOp (isect int : Bool) (m mode r a b : Nat) : FRes :=
  if int then
    let x := sgn 32 a
    let y := sgn 32 b
    match isect, m with
    | false, 0 => (wrapN 32 (x + y), 0)
    | false, 1 => (wrapN 32 (max x y), 0)
    | false, 2 => (wrapN 32 (min x y), 0)
    | false, _ => (wrapN 32 (x - y), 0)
    | true, 0 => (wrapN 32 (x * y), 0)
    | true, 1 => (wrapN 32 (min x y), 0)
    | true, 2 => (wrapN 32 (max x y), 0)
    | true, _ => (a, 0)
  else
    match isect, m with
    | false, 0 => fp32.arith 0 mode r a b
    | false, 1 => fp32.minmax true a b
    | false, 2 => fp32.minmax false a b
    | false, _ => fp32.arith 1 mode r a b
    | true, 0 => fp32.arith 2 mode r a b
    | true, 1 => fp32.minmax false a b
    | true, 2 => fp32.minmax true a b
    | true, _ => (a, 0)

/-- The op rounds (R158). -/
def bothRounds (isect int : Bool) (m : Nat) : Bool := !int && (decide (m = 0) || (!isect && decide (m = 3)))

/-- A value of stream B alone. -/
def onlyB (int : Bool) (m v : Nat) : Nat := if m = 3 then (if int then wrapN 32 (-(sgn 32 v)) else Nat.xor v (2 ^ 31)) else v

/-- An entry is emitted unless it is an exact zero and Z = 0; the poison of one that is not is reported all the same (R408). -/
def Sparse.keep (r : Sparse) (int z : Bool) (cap : Nat) (e : Emit) : Sparse :=
  if !z && exactZero int e.val then { r with halt := r.halt.orElse (fun _ => e.src) } else r.emit cap e

/-- An element is not above the one before it in its stream. -/
def notAbove (prev : Option Nat) (x : SElem) : Bool := match prev with | some p => decide (x.idx ≤ p) | none => false

/-- The combination of an element of each stream; that of `isect.first` does not depend on B's value (R271, R408). -/
def Sparse.both (r : Sparse) (isect int z : Bool) (m mode : Nat) (sr : Word) (cap : Nat) (x y : SElem) : Sparse :=
  let lost := if isect && decide (3 ≤ m) then x.valBad else firstAddr x.valBad y.valBad
  let v := bothOp isect int m mode (srBits sr r.draws) x.val y.val
  let r := if bothRounds isect int m then { r with draws := r.draws + 1 } else r
  match lost with
  | some _ => r.keep int z cap (carried int x.idx v.1 lost)
  | none => ({ r with flags := r.flags ||| v.2 }).keep int z cap (carried int x.idx v.1 none)
where
  /-- The earlier of two addresses. -/
  firstAddr (a b : Option Nat) : Option Nat := a.orElse (fun _ => b)

/-- The loop of R271, with the indices consumed last. -/
def unite (isect int z : Bool) (m mode : Nat) (sr : Word) (cap : Nat) :
    Nat → List SElem → List SElem → Option Nat → Option Nat → Sparse → Sparse
  | 0, _, _, _, _, r => r
  | fuel + 1, xs, ys, pa, pb, r =>
    match (xs.head?.bind (fun x => x.idxBad)).orElse (fun _ => ys.head?.bind (fun y => y.idxBad)) with
    | some a => { r.set 1 with halt := some a }
    | none =>
      match xs, ys with
      | [], [] => r
      | x :: xt, [] =>
        if notAbove pa x then r.set 1
        else unite isect int z m mode sr cap fuel xt [] (some x.idx) pb
          (if isect then r else r.keep int z cap (carried int x.idx x.val x.valBad))
      | [], y :: yt =>
        if notAbove pb y then r.set 1
        else unite isect int z m mode sr cap fuel [] yt pa (some y.idx)
          (if isect then r else r.keep int z cap (carried int y.idx (onlyB int m y.val) y.valBad))
      | x :: xt, y :: yt =>
        if x.idx < y.idx then
          if notAbove pa x then r.set 1
          else unite isect int z m mode sr cap fuel xt (y :: yt) (some x.idx) pb
            (if isect then r else r.keep int z cap (carried int x.idx x.val x.valBad))
        else if y.idx < x.idx then
          if notAbove pb y then r.set 1
          else unite isect int z m mode sr cap fuel (x :: xt) yt pa (some y.idx)
            (if isect then r else r.keep int z cap (carried int y.idx (onlyB int m y.val) y.valBad))
        else if notAbove pa x || notAbove pb y then r.set 1
        else unite isect int z m mode sr cap fuel xt yt (some x.idx) (some y.idx) (r.both isect int z m mode sr cap x y)

/-! ## The other kinds (R272 to R274) -/

/-- `condense`: nonzero values of a dense array, with their indices. -/
def condense (int : Bool) (base cap : Nat) (xs : List SElem) : Sparse :=
  xs.foldl (fun r x =>
    let e := carried int ((base + x.idx) % 2 ^ 32) x.val x.valBad
    if exactZero int e.val then { r with halt := r.halt.orElse (fun _ => e.src) } else r.emit cap e) {}

/-- `expand`: the entries to place, in input order; an index past the array is skipped. -/
def expand (int : Bool) (cnt : Nat) : List SElem → Sparse → Sparse
  | [], r => r
  | x :: t, r =>
    match x.idxBad with
    | some a => { r.set 1 with halt := some a }
    | none =>
      if cnt ≤ x.idx then expand int cnt t (r.set 3)
      else expand int cnt t { r with out := carried int x.idx x.val x.valBad :: r.out, need := r.need + 1 }

/-- Candidate x ranks before y: by value, then by the lower index (R273). -/
def ranksBefore (int least : Bool) (x y : Emit) : Bool :=
  let below (a b : Nat) : Bool :=
    if int then decide (sgn 32 a < sgn 32 b) else (fp32.read a).lt false (fp32.read b)
  let better := if least then below x.val y.val else below y.val x.val
  let worse := if least then below y.val x.val else below x.val y.val
  better || (!worse && decide (x.idx < y.idx))

/-- Put an entry into a ranked list after its equals. -/
def putRanked (before : Emit → Emit → Bool) (e : Emit) : List Emit → List Emit
  | [] => [e]
  | x :: t => if before e x then e :: x :: t else x :: putRanked before e t

/-- A stable sort. -/
def rankSort (before : Emit → Emit → Bool) (es : List Emit) : List Emit := es.foldl (fun l e => putRanked before e l) []

/-- The entries of a stream up to its first poisoned index, and that index's address. -/
def SElem.plain (int : Bool) (xs : List SElem) : List Emit × Option Nat :=
  (xs.map (fun x => carried int x.idx x.val x.valBad), xs.findSome? (fun x => x.idxBad))

/-- `topk`: the best k candidates in rank order, then padding. -/
def topk (int least : Bool) (k cap : Nat) (xs : List SElem) : Sparse × Nat :=
  let (es, halt) := SElem.plain int xs
  match halt with
  | some a => ({ status := 1, halt := some a }, 0)
  | none =>
    let cand := es.filter (fun e => int || !anyNan [fp32.read e.val])
    let best := (rankSort (ranksBefore int least) cand).take k
    let pad := if int then (if least then 0x7FFFFFFF else 0x80000000) else if least then 0x7F800000 else 0xFF800000
    let fill := List.replicate (min k cap - best.length) { idx := 0xFFFFFFFF, val := pad, bad := false, src := none }
    ({ out := ((best ++ fill).take cap).reverse, need := k, status := if cap < k then 2 else 0
       halt := es.findSome? (fun e => e.src) }, best.length)

/-- `ksort`: the pairs by key; values keep their bytes and their poison. -/
def ksort (signed desc : Bool) (w cap : Nat) (xs : List SElem) : Sparse :=
  match xs.findSome? (fun x => x.idxBad) with
  | some a => { status := 1, halt := some a }
  | none =>
    let key (e : Emit) : Int := if signed then sgn (8 * w) e.idx else e.idx
    let before (x y : Emit) : Bool := if desc then decide (key y < key x) else decide (key x < key y)
    let es := rankSort before (xs.map (fun x => { idx := x.idx, val := x.val, bad := x.valBad.isSome, src := x.valBad }))
    { out := (es.take cap).reverse, need := es.length, status := if cap < es.length then 2 else 0 }

/-! ## Performing -/

/-- Fields of an operation's word (R275). -/
def EngOp.sparseM (o : EngOp) : Nat := (o.word.extractLsb' 12 2).toNat
def EngOp.sparseB0 (o : EngOp) : Bool := o.word.getLsbD 19
def EngOp.sparseB1 (o : EngOp) : Bool := o.word.getLsbD 20

/-- Element width of an operation (R270). -/
def EngOp.sparseWidth (o : EngOp) : Nat := if o.fn = 5 ∧ o.sparseM % 2 = 1 then 8 else 4

/-- The output descriptor of an operation. -/
def EngOp.outDesc (o : EngOp) : Word := if o.fn ≤ 1 then o.desc else o.x1

/-- What an operation produces, and the COUNT of its record. -/
def Core.sparse (c : Core) (o : EngOp) : Sparse × Nat :=
  let int := o.sparseB0
  let cap := sCnt o.outDesc
  let w := o.sparseWidth
  match o.fn with
  | 2 => let r := condense int o.ra.toNat cap (c.stream o.x0 w true); (r, r.out.length)
  | 3 => let r := expand int cap (c.stream o.x0 w false) {}; (r, r.out.length)
  | 4 => topk int (decide (o.sparseM = 1)) o.ra.toNat cap (c.stream o.x0 w false)
  | 5 => let r := ksort o.sparseB0 o.sparseB1 w cap (c.stream o.x0 w false); (r, r.need)
  | fn =>
    let a := c.stream o.x0 w false
    let b := c.stream o.x1 w false
    let r := unite (decide (fn = 1)) int o.sparseB1 o.sparseM o.rm o.sr cap (a.length + b.length + 1) a b none none {}
    (r, r.out.length)

/-- The local ranges that an operation reads. -/
def EngOp.sparseReads (o : EngOp) : List (Nat × Nat) :=
  let one (d : Word) (dense : Bool) : List (Nat × Nat) :=
    (if dense then [] else [(sIadr d, sCnt d * o.sparseWidth)]) ++ [(sVadr d, sCnt d * o.sparseWidth)]
  one o.x0 (decide (o.fn = 2)) ++ (if o.fn ≤ 1 then one o.x1 false else [])

/-- Perform an operation of `xq`: the output, then the record. -/
def State.performSparse (s : State) (n : Nat) (o : EngOp) : State × BitVec 6 :=
  let (r, count) := (o.view (s.core n)).sparse o
  let w := o.sparseWidth
  let d := o.outDesc
  let es := r.out.reverse
  let s := o.sparseReads.foldl (fun s r => s.engRead n o r.1 r.2) s
  let place (x : Emit × Nat) : Nat := sVadr d + w * (if o.fn = 3 then x.1.idx else x.2)
  let badAt (x : Emit × Nat) : List Nat := if x.1.bad then granules (place x) w else []
  let s :=
    if o.fn = 3 then
      let s := s.engWrite n o (sVadr d) (List.replicate (sCnt d * w) 0) []
      es.zipIdx.foldl (fun s x => s.engWrite n o (place x) (leBytes w x.1.val) (badAt x)) s
    else
      let s := s.engWrite n o (sIadr d) (es.flatMap (fun e => leBytes w e.idx)) []
      s.engWrite n o (sVadr d) (es.flatMap (fun e => leBytes w e.val)) (es.zipIdx.flatMap badAt)
  let s := s.engWrite n o o.rd.toNat (leBytes 4 count ++ leBytes 4 r.need ++ leBytes 1 r.status ++ leBytes 7 0) []
  let first := es.zipIdx.findSome? (fun x => x.1.src.map (fun a => (a, place x)))
  (s.poisonRecord n o (first.orElse (fun _ => r.halt.map (fun a => (a, o.rd.toNat)))), r.flags)

/-! ## Submission checks (R275, R397) -/

/-- A local range passes the local store or, as an output, touches the claimed range. -/
def State.rangeBad (s : State) (a n : Nat) (out : Bool) : Bool := pastLocal a n || (out && s.co.inClaim a n)

/-- A descriptor breaks a rule of R270, R272 or R397. -/
def State.descBad (s : State) (d : Word) (w : Nat) (dense out : Bool) : Bool :=
  decide (d.toNat / 2 ^ 58 ≠ 0) || decide (sIadr d % w ≠ 0) || decide (sVadr d % w ≠ 0)
    || (if dense then decide (sIadr d ≠ 0) else s.rangeBad (sIadr d) (sCnt d * w) out) || s.rangeBad (sVadr d) (sCnt d * w) out

/-- The result record's address breaks a rule. -/
def State.recordBad (s : State) (r : Word) : Bool := decide (r.toNat % 16 ≠ 0) || s.rangeBad r.toNat 16 true

/-- Issue `merge` or `isect`. -/
def sparseTwo (c : Code) (x d : Nat) (isect int : Bool) (m : Nat) (s : State) : Out :=
  engine c [d] [x, (x + 1) % 8, (x + 2) % 8] (fun k s0 => do
    let (r, s) := s0.readS d
    let e0 := s0.th.ereg x
    let e1 := s0.th.eregAt x 1
    let e2 := s0.th.eregAt x 2
    if s0.descBad e0 4 false false || s0.descBad e1 4 false false || s0.descBad e2 4 false true || s0.recordBad r then throw k.operand
    s0.sprsGood (if bothRounds isect int m then [0x014] else [])
    let mode := s0.th.rnd.toNat
    s0.submit s { s0.mkOp k 2 with rd := r, x0 := e0, x1 := e1, desc := e2, rm := mode }
      (bothRounds isect int m && decide (mode = 5)) false) s

/-- Issue a form with an input and an output descriptor, and perhaps an operand sA below a bound. -/
def sparseOne (c : Code) (x d : Nat) (a : Option Nat) (bound : Nat) (w : Nat) (denseIn denseOut : Bool) (s : State) : Out :=
  engine c (d :: a.toList) [x, (x + 1) % 8] (fun k s0 => do
    let (r, s) := s0.readS d
    let (p, s) := match a with | some a => s.readS a | none => (0, s)
    let e0 := s0.th.ereg x
    let e1 := s0.th.eregAt x 1
    if s0.descBad e0 w denseIn false || s0.descBad e1 w denseOut true || s0.recordBad r || decide (bound ≤ p.toNat) then throw k.operand
    s0.submit s { s0.mkOp k 2 with ra := p, rd := r, x0 := e0, x1 := e1, rm := s0.th.rnd.toNat } false false) s

/-- R271: Queues a sparse union adding common values. -/
def execMergeAdd (x : BitVec 3) (z : BitVec 1) (i : BitVec 1) (d : BitVec 5) (s : State) : Out :=
  sparseTwo (.long (0#5 ++ x ++ 0#3 ++ z ++ i ++ 0#7 ++ d ++ 91#7)) x.toNat d.toNat false (decide (i = 1)) 0 s

/-- R271: Queues a sparse union taking the larger common value. -/
def execMergeMax (x : BitVec 3) (z : BitVec 1) (i : BitVec 1) (d : BitVec 5) (s : State) : Out :=
  sparseTwo (.long (0#5 ++ x ++ 0#3 ++ z ++ i ++ 1#7 ++ d ++ 91#7)) x.toNat d.toNat false (decide (i = 1)) 1 s

/-- R271: Queues a sparse union taking the smaller common value. -/
def execMergeMin (x : BitVec 3) (z : BitVec 1) (i : BitVec 1) (d : BitVec 5) (s : State) : Out :=
  sparseTwo (.long (0#5 ++ x ++ 0#3 ++ z ++ i ++ 2#7 ++ d ++ 91#7)) x.toNat d.toNat false (decide (i = 1)) 2 s

/-- R271: Queues a sparse union subtracting B from A. -/
def execMergeSub (x : BitVec 3) (z : BitVec 1) (i : BitVec 1) (d : BitVec 5) (s : State) : Out :=
  sparseTwo (.long (0#5 ++ x ++ 0#3 ++ z ++ i ++ 3#7 ++ d ++ 91#7)) x.toNat d.toNat false (decide (i = 1)) 3 s

/-- R271: Queues a sparse intersection multiplying values. -/
def execIsectMul (x : BitVec 3) (z : BitVec 1) (i : BitVec 1) (d : BitVec 5) (s : State) : Out :=
  sparseTwo (.long (1#5 ++ x ++ 0#3 ++ z ++ i ++ 0#7 ++ d ++ 91#7)) x.toNat d.toNat true (decide (i = 1)) 0 s

/-- R271: Queues a sparse intersection taking the smaller value. -/
def execIsectMin (x : BitVec 3) (z : BitVec 1) (i : BitVec 1) (d : BitVec 5) (s : State) : Out :=
  sparseTwo (.long (1#5 ++ x ++ 0#3 ++ z ++ i ++ 1#7 ++ d ++ 91#7)) x.toNat d.toNat true (decide (i = 1)) 1 s

/-- R271: Queues a sparse intersection taking the larger value. -/
def execIsectMax (x : BitVec 3) (z : BitVec 1) (i : BitVec 1) (d : BitVec 5) (s : State) : Out :=
  sparseTwo (.long (1#5 ++ x ++ 0#3 ++ z ++ i ++ 2#7 ++ d ++ 91#7)) x.toNat d.toNat true (decide (i = 1)) 2 s

/-- R271: Queues a sparse intersection keeping A's value. -/
def execIsectFirst (x : BitVec 3) (z : BitVec 1) (i : BitVec 1) (d : BitVec 5) (s : State) : Out :=
  sparseTwo (.long (1#5 ++ x ++ 0#3 ++ z ++ i ++ 3#7 ++ d ++ 91#7)) x.toNat d.toNat true (decide (i = 1)) 3 s

/-- R272: Queues conversion of a dense array into a sparse stream. -/
def execCondense (x : BitVec 3) (i : BitVec 1) (a : BitVec 5) (d : BitVec 5) (s : State) : Out :=
  sparseOne (.long (2#5 ++ x ++ 0#4 ++ i ++ a ++ 0#2 ++ d ++ 91#7)) x.toNat d.toNat (some a.toNat) (2 ^ 64) 4 true false s

/-- R272: Queues expansion of a sparse stream into a dense array. -/
def execExpand (x : BitVec 3) (i : BitVec 1) (d : BitVec 5) (s : State) : Out :=
  sparseOne (.long (3#5 ++ x ++ 0#4 ++ i ++ 0#7 ++ d ++ 91#7)) x.toNat d.toNat none (2 ^ 64) 4 false true s

/-- R273: Queues selection of the k largest entries. -/
def execTopkMax (x : BitVec 3) (i : BitVec 1) (a : BitVec 5) (d : BitVec 5) (s : State) : Out :=
  sparseOne (.long (4#5 ++ x ++ 0#4 ++ i ++ a ++ 0#2 ++ d ++ 91#7)) x.toNat d.toNat (some a.toNat) (2 ^ 32) 4 false false s

/-- R273: Queues selection of the k smallest entries. -/
def execTopkMin (x : BitVec 3) (i : BitVec 1) (a : BitVec 5) (d : BitVec 5) (s : State) : Out :=
  sparseOne (.long (4#5 ++ x ++ 0#4 ++ i ++ a ++ 1#2 ++ d ++ 91#7)) x.toNat d.toNat (some a.toNat) (2 ^ 32) 4 false false s

/-- R274: Queues a stable sort of 32-bit key-value pairs. -/
def execKsortK32 (x : BitVec 3) (t : BitVec 1) (bs : BitVec 1) (d : BitVec 5) (s : State) : Out :=
  sparseOne (.long (5#5 ++ x ++ 0#3 ++ t ++ bs ++ 0#7 ++ d ++ 91#7)) x.toNat d.toNat none (2 ^ 64) 4 false false s

/-- R274: Queues a stable sort of 64-bit key-value pairs. -/
def execKsortK64 (x : BitVec 3) (t : BitVec 1) (bs : BitVec 1) (d : BitVec 5) (s : State) : Out :=
  sparseOne (.long (5#5 ++ x ++ 0#3 ++ t ++ bs ++ 1#7 ++ d ++ 91#7)) x.toNat d.toNat none (2 ^ 64) 8 false false s

end Sys2Proof.Machine
end

