-- ==== Sys2Proof/Machine/EngineEvents.lean ====
section
/-!
DEFINITION. What the engines do by themselves: beginning an operation, the read phase of a drain, performing an operation, and handing
one back (R131, R132, R250, R251, R281, R282, R369, R417 to R420).
-/

namespace Sys2Proof.Machine

open Sys2Proof

/-- The engines of a core work: it has a clock, and a pre-emption has not saved it (R32, R66). -/
def State.enginesRun (s : State) (n : Nat) : Bool := s.clocked n && !((s.core n).pre && (s.core n).saved)

/-- An operation begins. What a matrix operation checks depends on the operations before it, so it begins when they are performed; one
that fails its check is performed as a no-op with its record (R251). -/
def State.beginOp (s : State) (n : Nat) (o : EngOp) : State :=
  if !(s.core n).mayBegin o then s
  else if o.queue = 0 then
    if !(s.core n).opFirst o then s
    else if s.matrixFault n o then s.opFault n o
    else s.opStage n o .begun
  else s.opStage n o .begun

/-- The drain whose read phase comes next: every earlier one has read its entries (R281). -/
def Core.nextDrain (c : Core) : Option EngOp :=
  match (c.queueOps 3).filter (fun o => !c.opBlocked o && decide (o.stage ≠ .read)) with
  | o :: _ => if o.stage = .begun then some o else none
  | [] => none

/-- The read phase of the next drain, once every earlier Hive instruction has completed; a stop is left to the hand-back (R281). -/
def State.readDrain (s : State) (n : Nat) : State :=
  match (if s.hiveBusy n then none else (s.core n).nextDrain) with
  | none => s
  | some o =>
    match s.drainRead n o with
    | .ok s' => s'
    | .error (s', none) => s'
    | .error (_, some _) => s

/-- What performing an operation gives (R131). -/
def State.performOp (s : State) (n : Nat) (o : EngOp) : Perform :=
  match o.queue, o.stage with
  | _, .record => if s.faultWritten n o then .done s 0 else .wait s
  | 0, .begun => let (s, f) := s.performMatrix n o; .done s f
  | 1, .begun => s.performCopy n o
  | 2, .begun => let (s, f) := s.performSparse n o; .done s f
  | 3, .read => (match s.performDrain n o with | some s => .done s 0 | none => .wait s)
  | 4, .begun => .done (s.performNq o) 0
  | _, _ => .wait s

/-- The records that performing an operation of core n has queued fit into its cluster's queue; else the operation waits, unperformed, as its
record does (R369). -/
def State.recordsFit (s s' : State) (n : Nat) : Bool :=
  let c := s.cluster (clusterOf n)
  let d := s'.cluster (clusterOf n)
  decide (d.errQ.length = c.errQ.length ∨ d.errTail + d.errQ.length ≤ d.errHead + 64)

/-- An operation is performed when its turn in the order of performing has come; one that stops waits for its hand-back. -/
def State.finishOp (s : State) (n : Nat) (o : EngOp) : State :=
  if !(s.core n).opFirst o || (s.core n).opBlocked o then s
  else
    match s.performOp n o with
    | .done s' f => if s.recordsFit s' n then (s'.opDone n o f).touch n else s
    | .wait s => s
    | .back _ _ _ _ _ => s

/-- A matrix or sparse operation reads a piece of the local store before its turn (R131; log entry 32). -/
def State.localRead (s : State) (n : Nat) (o : EngOp) (a : Nat) : State :=
  let ranges := if o.queue = 0 then (s.core n).matrixReads o else o.sparseReads
  match (ranges.flatMap (fun r => pieces r.2 r.1 r.2)).find? (fun p => decide (p.1 = a)) with
  | none => s
  | some p =>
    if (o.early 0 a).isSome then s
    else
      let bs := marked (s.core n).lsBad a (memRead a p.2 (s.core n).ls)
      let s := s.logPort n a p.2 3 (s.opSource n o)
      s.setCore n ((s.core n).setOp { o with got := o.got ++ [(0, a, bs)] })

/-- Operation k of a queue reads a source piece as soon as it may; its payload may arrive poisoned (R131, R405; log entry 32). -/
def State.earlyRead (s : State) (n q k off delta code : Nat) : State :=
  match (s.core n).opAt q k with
  | none => s
  | some o =>
    if !s.enginesRun n || !(s.core n).mayRead o then s
    else if q = 1 then s.copyRead n o off delta code
    else if (q = 0 ∨ q = 2) ∧ code = 0 then s.localRead n o delta
    else s

/-- Operation k of `cq` writes a destination piece before the rest of it, once it is the first of its queue (R130; log entry 32). -/
def State.earlyWrite (s : State) (n k off delta code : Nat) : State :=
  match (s.core n).opAt 1 k with
  | none => s
  | some o =>
    if !s.enginesRun n || decide (o.stage ≠ .begun) || !(s.core n).opFirst o || (s.core n).opBlocked o then s
    else s.copyWrite n o off delta code

/-- Operation k of a queue has waited 1 ms for a path to another package (R440). -/
def State.opLate (s : State) (n q k : Nat) : State :=
  match (s.core n).opAt q k with
  | some o => s.setCore n ((s.core n).setOp { o with late := true })
  | none => s

/-- The remainder of a drain: the whole of it (R418). -/
def EngOp.whole (o : EngOp) (kind : Nat) : Remainder :=
  { kind := kind, ha := o.ra, hb := o.rb, hd := o.rd, hx0 := o.x0, hx1 := o.x1, done := 0 }

/-- A hand-back waits while another of the thread is due or in service; a failing thread's is not delivered (R420). -/
def State.backWaits (s : State) (n : Nat) (o : EngOp) : Bool :=
  let t := s.thread n o.slot
  s.opLive n o && t.handingBack && (match t.run with | .failing _ => false | _ => true)

/-- An operation that stopped is handed back (R417 to R419). -/
def State.stopOp (s : State) (n : Nat) (o : EngOp) : State :=
  if s.backWaits n o then s
  else if o.queue = 1 then
    if !(s.core n).opFirst o || (s.core n).opBlocked o then s
    else
      match s.performOp n o with
      | .back s' f r code val => if s.recordsFit s' n then (s'.handBack n o f r code val).touch n else s
      | _ => s
  else if o.queue = 3 ∧ (s.core n).nextDrain = some o ∧ s.hiveBusy n = false then
    match s.drainRead n o with
    | .error (s, some h) => (s.handBack n o 0 (o.whole h.kind) h.code h.val).touch n
    | _ => s
  else s

/-- R251: A queued engine operation begins and its begin-time checks are made. -/
def execEngineOpBegin (site : Nat) (q : Nat) (k : Nat) (s : State) : Out :=
  match (s.core site).opAt q k with
  | some o => .next (if s.enginesRun site then s.beginOp site o else s)
  | none => .next s

/-- R282: A Hive drain collects live entries once earlier Hive instructions complete. -/
def execDrainReadPhase (site : Nat) (s : State) : Out :=
  .next (if s.enginesRun site then s.readDrain site else s)

/-- R131: An engine operation is performed, its counter falls and its flags are ORed. -/
def execEngineOpPerformed (site : Nat) (q : Nat) (k : Nat) (s : State) : Out :=
  match (s.core site).opAt q k with
  | some o => .next (if s.enginesRun site then s.finishOp site o else s)
  | none => .next s

/-- R419: An engine stops on a fault, writes the hand-back record and makes the trap due. -/
def execEngineHandback (site : Nat) (q : Nat) (k : Nat) (s : State) : Out :=
  match (s.core site).opAt q k with
  | some o => .next (if s.enginesRun site then s.stopOp site o else s)
  | none => .next s

end Sys2Proof.Machine
end

