-- ==== Sys2Proof/Machine/Ids.lean ====
section
/-!
DEFINITION. Group geometry, work identifier and operand extensions: major 14 (R39 to R41, R202, R203).
-/

namespace Sys2Proof.Machine

open Sys2Proof

/-- Width of work-identifier field k under GEO2 (R39, R40). -/
def fieldWidth (geo2 : Word) (k : Nat) : Nat := if k ≤ 5 then bits geo2.toNat (6 * k) 6 else 0

/-- Lowest bit of field k (R39). -/
def fieldLow (geo2 : Word) (k : Nat) : Nat := ((List.range k).map (fieldWidth geo2)).sum

/-- Field k of a work identifier; a field of width 0 reads 0 (R39). -/
def widField (geo2 wid : Word) (k : Nat) : Nat := bits wid.toNat (fieldLow geo2 k) (fieldWidth geo2 k)

/-- Extent, tile extent and field index of dimension m (R40). -/
def Task.dim (t : Task) (m : Nat) : Nat × Nat × Nat :=
  (bits t.geo0.toNat (21 * m) 21, bits t.geo1.toNat (12 * m) 12, bits t.geo1.toNat (36 + 3 * m) 3)

/-- Tile coordinate of dimension m (R41). -/
def Thread.coord (t : Thread) (m : Nat) : Nat := widField t.task.geo2 t.wid (t.task.dim m).2.2

/-- Start of the tile in dimension m; 0 for a tile extent of 0 (R41). -/
def Thread.tileStart (t : Thread) (m : Nat) : Nat := t.coord m * (t.task.dim m).2.1

/-- Length of the tile in dimension m (R41). -/
def Thread.tileLen (t : Thread) (m : Nat) : Nat :=
  let (x, e, _) := t.task.dim m
  if x ≤ t.tileStart m then 0 else min e (x - t.tileStart m)

/-- The tile passes the extent, or has extent 0 (R41). -/
def Thread.tileEdge (t : Thread) (m : Nat) : Bool :=
  let (x, e, _) := t.task.dim m
  decide (e = 0) || decide (x < t.tileStart m + e)

/-- A word that writes a number made from the task's registers, which it reads (R202). -/
def geoWord (c : Code) (d : Nat) (rs : List Nat) (f : Thread → Nat) (s : State) : Out :=
  issue { code := c, writes := [d], others := rs.map RegName.spr } s fun s => .ok (s.writeS d (BitVec.ofNat 64 (f s.th)))

/-- The running transaction frame whose slot 0 lies at a local address (R203). -/
def State.frameAt (s : State) (x : Word) : Bool :=
  let c := s.co
  decide (0 < c.fcnt) && decide (c.txb + 256 ≤ x.toNat) && decide (x.toNat < c.scrb) &&
    decide ((x.toNat - 256 - c.txb) % 2 ^ c.flog = 0)

/-- The address of tile slot j from its OFFS entry (R203). -/
def slotAddress (x : Word) (o : Nat) : Word := if o = 0xFFFFFFFF then BitVec.allOnes 64 else x + BitVec.ofNat 64 o

/-- R202: Writes the tile start of a dimension from the geometry and WID. -/
def execGeoStart (m : BitVec 2) (d : BitVec 5) (s : State) : Out :=
  geoWord (.long (0#10 ++ m ++ 0#8 ++ d ++ 59#7)) d.toNat [0x010, 0x012, 0x013] (fun t => t.tileStart m.toNat) s

/-- R202: Writes the tile length of a dimension. -/
def execGeoLen (m : BitVec 2) (d : BitVec 5) (s : State) : Out :=
  geoWord (.long (1#10 ++ m ++ 0#8 ++ d ++ 59#7)) d.toNat [0x010, 0x011, 0x012, 0x013] (fun t => t.tileLen m.toNat) s

/-- R202: Writes the 3-bit edge mask. -/
def execGeoEdge (d : BitVec 5) (s : State) : Out :=
  geoWord (.long (2048#20 ++ d ++ 59#7)) d.toNat [0x010, 0x011, 0x012, 0x013] (fun t => b2n (t.tileEdge 0) + 2 * b2n (t.tileEdge 1) + 4 * b2n (t.tileEdge
    2)) s

/-- R202: Writes the tile coordinate of a dimension. -/
def execGeoCrd (m : BitVec 2) (d : BitVec 5) (s : State) : Out :=
  geoWord (.long (3#10 ++ m ++ 0#8 ++ d ++ 59#7)) d.toNat [0x010, 0x012, 0x013] (fun t => t.coord m.toNat) s

/-- R202: Extracts field k of WID. -/
def execWidField (k : BitVec 3) (d : BitVec 5) (s : State) : Out :=
  geoWord (.long (0#9 ++ k ++ 1#8 ++ d ++ 59#7)) d.toNat [0x010, 0x013] (fun t => widField t.task.geo2 t.wid k.toNat) s

/-- R202: Extracts field k of sA using the launch widths. -/
def execWidReg (k : BitVec 3) (a : BitVec 5) (d : BitVec 5) (s : State) : Out :=
  issue { code := (.long (2#9 ++ k ++ a ++ 1#3 ++ d ++ 59#7)), reads := [a.toNat], writes := [d.toNat], others := [.spr 0x013] } s fun s =>
    let (x, s) := s.readS a.toNat
    .ok (s.writeS d.toNat (BitVec.ofNat 64 (widField s.th.task.geo2 x k.toNat)))

/-- R202: Loads an extension register from the local store. -/
def execXld (i : BitVec 12) (a : BitVec 5) (n : BitVec 3) (s : State) : Out :=
  issue { code := (.long (i ++ a ++ 8#5 ++ n ++ 59#7)), reads := [a.toNat], dests := [.e n.toNat], takes := true } s fun s => do
    let (x, s) := s.readS a.toNat
    let la := x + i.signExtend 64
    if la.toNat % 8 ≠ 0 then throw (.trap 4 la)
    else
      let (bs, s) ← s.localLoad la 8
      pure (s.finishLocal (.e n.toNat) (.unsigned 64) la.toNat 8 bs)

/-- R202: Sets an extension register to sA plus an immediate. -/
def execXli (i : BitVec 12) (a : BitVec 5) (n : BitVec 3) (s : State) : Out :=
  issue { code := (.long (i ++ a ++ 12#5 ++ n ++ 59#7)), reads := [a.toNat], dests := [.e n.toNat] } s fun s =>
    let (x, s) := s.readS a.toNat
    .ok (s.setTh (s.th.setEreg n.toNat (x + i.signExtend 64)))

/-- R202: Copies an extension register to sD. -/
def execXmv (n : BitVec 3) (d : BitVec 5) (s : State) : Out :=
  issue { code := (.long (0#9 ++ n ++ 4#8 ++ d ++ 59#7)), writes := [d.toNat], others := [.e n.toNat] } s fun s =>
    .ok (s.writeS d.toNat (s.th.ereg n.toNat))

/-- R203: Computes the local address of tile slot j of the running transaction frame. -/
def execTsa (j : BitVec 3) (a : BitVec 5) (d : BitVec 5) (s : State) : Out :=
  let k : Issue := { code := (.long (0#9 ++ j ++ a ++ 5#3 ++ d ++ 59#7)), reads := [a.toNat], writes := [d.toNat], takes :=
    true }
  issue k s fun s =>
    let (x, s) := s.readS a.toNat
    if !s.frameAt x then .error k.operand
    else
      let f := x.toNat - 256
      let at_ := f + 32 + 4 * j.toNat
      match firstBad s.co.lsBad (f + 28) 1, firstBad s.co.lsBad at_ 4 with
      | some b, _ => .error (.fail 3 (BitVec.ofNat 64 b) 3)
      | none, bad =>
        if s.lsNum s.cur.1 (f + 28) 1 ≠ 1 then .error k.operand
        else if let some b := bad then .error (s.poisonRead at_ 4 3 b)
        else .ok ((s.logPort s.cur.1 at_ 4 3 s.self).writeS d.toNat (slotAddress x (s.lsNum s.cur.1 at_ 4)))

end Sys2Proof.Machine
end

