-- ==== Sys2Proof/Machine/Integer.lean ====
section
/-!
DEFINITION. Integer instructions: major 0 (R199), immediates and constants (R200, R201), hints (R175) and the 16-bit words that
expand to them (R177).
-/

namespace Sys2Proof.Machine

open Sys2Proof

/-- Operand width of an RG integer word, in bits (R199). -/
def widthOf (w : BitVec 2) : Nat :=
  match w.toNat with
  | 0 => 64
  | 1 => 32
  | 2 => 16
  | _ => 8

/-- log2 of a width. -/
def log2w (w : Nat) : Nat := Nat.log2 w

/-- The shift count of R199: sB[log2(w) - 1 : 0]. -/
def shiftOf (w y : Nat) : Nat := y % 2 ^ log2w w

/-- Unsigned clamp (R142). -/
def satU (w : Nat) (x : Int) : Nat := (max 0 (min (((2 ^ w : Nat) : Int) - 1) x)).toNat

/-- Signed clamp (R142). -/
def satS (w : Nat) (x : Int) : Int := max (-((2 ^ (w - 1) : Nat) : Int)) (min (((2 ^ (w - 1) : Nat) : Int) - 1) x)

/-- EXTS of an exact integer cut to w bits (R199). -/
def outS (w : Nat) (x : Int) : Word := extS w (wrapN w x)

/-- a + b. -/
def iAdd (w x y : Nat) : Word := outS w (sgn w x + sgn w y)
/-- a − b. -/
def iSub (w x y : Nat) : Word := outS w (sgn w x - sgn w y)
/-- a AND b. -/
def iAnd (w x y : Nat) : Word := extS w (Nat.land x y)
/-- a OR b. -/
def iOr (w x y : Nat) : Word := extS w (Nat.lor x y)
/-- a XOR b. -/
def iXor (w x y : Nat) : Word := extS w (Nat.xor x y)
/-- a AND NOT b. -/
def iAndn (w x y : Nat) : Word := extS w (Nat.land (x % 2 ^ w) (2 ^ w - 1 - y % 2 ^ w))
/-- a shifted left. -/
def iShl (w x y : Nat) : Word := extS w (x * 2 ^ shiftOf w y)
/-- a shifted right, zeros in. -/
def iShr (w x y : Nat) : Word := extZ w (x % 2 ^ w / 2 ^ shiftOf w y)
/-- a shifted right, sign in. -/
def iSar (w x y : Nat) : Word := outS w (sgn w x / ((2 ^ shiftOf w y : Nat) : Int))
/-- a rotated right within w bits. -/
def iRor (w x y : Nat) : Word :=
  extS w (x % 2 ^ w / 2 ^ shiftOf w y + x % 2 ^ w * 2 ^ (w - shiftOf w y))
/-- a × b. -/
def iMul (w x y : Nat) : Word := outS w (sgn w x * sgn w y)
/-- High half of the signed product. -/
def iMulh (w x y : Nat) : Word := outS w (sgn w x * sgn w y / ((2 ^ w : Nat) : Int))
/-- High half of the unsigned product. -/
def iMulhu (w x y : Nat) : Word := extZ w (x % 2 ^ w * (y % 2 ^ w) / 2 ^ w)
/-- Signed quotient truncated toward zero; b = 0 gives −1, and the overflowing case its dividend. -/
def divS (w x y : Nat) : Int := if y % 2 ^ w = 0 then -1 else Int.tdiv (sgn w x) (sgn w y)
/-- Signed division. -/
def iDiv (w x y : Nat) : Word := outS w (divS w x y)
/-- Unsigned division; b = 0 gives 2^w − 1. -/
def iDivu (w x y : Nat) : Word := extZ w (if y % 2 ^ w = 0 then 2 ^ w - 1 else x % 2 ^ w / (y % 2 ^ w))
/-- Signed remainder; b = 0 gives a. -/
def iRem (w x y : Nat) : Word := outS w (if y % 2 ^ w = 0 then sgn w x else sgn w x - sgn w y * divS w x y)
/-- Unsigned remainder; b = 0 gives a. -/
def iRemu (w x y : Nat) : Word := extZ w (if y % 2 ^ w = 0 then x else x % 2 ^ w % (y % 2 ^ w))
/-- Signed less than. -/
def iSlt (w x y : Nat) : Word := extZ w (b2n (decide (sgn w x < sgn w y)))
/-- Unsigned less than. -/
def iSltu (w x y : Nat) : Word := extZ w (b2n (decide (x % 2 ^ w < y % 2 ^ w)))
/-- Signed minimum. -/
def iMin (w x y : Nat) : Word := outS w (min (sgn w x) (sgn w y))
/-- Signed maximum. -/
def iMax (w x y : Nat) : Word := outS w (max (sgn w x) (sgn w y))
/-- Unsigned minimum. -/
def iMinu (w x y : Nat) : Word := extZ w (min (x % 2 ^ w) (y % 2 ^ w))
/-- Unsigned maximum. -/
def iMaxu (w x y : Nat) : Word := extZ w (max (x % 2 ^ w) (y % 2 ^ w))
/-- Signed saturating sum. -/
def iAdds (w x y : Nat) : Word := outS w (satS w (sgn w x + sgn w y))
/-- Unsigned saturating sum. -/
def iAddsu (w x y : Nat) : Word := extZ w (satU w ((x % 2 ^ w + y % 2 ^ w : Nat) : Int))
/-- Signed saturating difference. -/
def iSubs (w x y : Nat) : Word := outS w (satS w (sgn w x - sgn w y))
/-- Unsigned saturating difference. -/
def iSubsu (w x y : Nat) : Word := extZ w (satU w (((x % 2 ^ w : Nat) : Int) - ((y % 2 ^ w : Nat) : Int)))
/-- Leading zeros within w bits. -/
def iClz (w x : Nat) : Word := extZ w (w - (if x % 2 ^ w = 0 then 0 else Nat.log2 (x % 2 ^ w) + 1))
/-- Trailing zeros within w bits; w for 0. -/
def iCtz (w x : Nat) : Word := extZ w (((List.range w).find? (fun i => bit x i)).getD w)
/-- One bits within w bits. -/
def iPopc (w x : Nat) : Word := extZ w ((List.range w).filter (fun i => bit x i)).length

/-- An RG word with two sources (R199). -/
def rg2 (c : Code) (p a b d : Nat) (f : Nat → Nat → Word) (s : State) : Out :=
  issue { code := c, reads := [a, b], writes := [d], pred := some p } s fun s =>
    let (x, s) := s.readS a
    let (y, s) := s.readS b
    .ok (s.writeS d (f x.toNat y.toNat))

/-- An RG word with one source (R199). -/
def rg1 (c : Code) (p a d : Nat) (f : Nat → Word) (s : State) : Out :=
  issue { code := c, reads := [a], writes := [d], pred := some p } s fun s =>
    let (x, s) := s.readS a
    .ok (s.writeS d (f x.toNat))

/-- A word that computes a register from one register and an immediate (R200, R201). -/
def im1 (c : Code) (a d : Nat) (f : Word → Word) (s : State) : Out :=
  issue { code := c, reads := [a], writes := [d] } s fun s =>
    let (x, s) := s.readS a
    .ok (s.writeS d (f x))

/-- A word that writes a register from nothing but the thread's state (R201, R202). -/
def im0 (c : Code) (d : Nat) (f : State → Word) (s : State) : Out :=
  issue { code := c, writes := [d] } s fun s => .ok (s.writeS d (f s))

/-- A hint: the slot is taken and the PC goes on (R175). -/
def noop (c : Code) (s : State) : Out := issue { code := c } s fun s => .ok s

/-- EXTS of a 12-bit immediate. -/
def imm (i : BitVec 12) : Word := i.signExtend 64

/-- (imm20 × 2^12)[31:0], sign-extended (R201). -/
def upper (i : BitVec 20) : Word := (i ++ 0#12).signExtend 64

/-- R199: Adds sA and sB at width w and writes the sign-extended result to sD under the predicate. -/
def execAdd (p : BitVec 3) (b : BitVec 5) (a : BitVec 5) (w : BitVec 2) (d : BitVec 5) (s : State) : Out :=
  rg2 (.long (0#5 ++ p ++ b ++ a ++ w ++ d ++ 3#7)) p.toNat a.toNat b.toNat d.toNat (iAdd (widthOf w)) s

/-- R199: Subtracts sB from sA at width w into sD. -/
def execSub (p : BitVec 3) (b : BitVec 5) (a : BitVec 5) (w : BitVec 2) (d : BitVec 5) (s : State) : Out :=
  rg2 (.long (1#5 ++ p ++ b ++ a ++ w ++ d ++ 3#7)) p.toNat a.toNat b.toNat d.toNat (iSub (widthOf w)) s

/-- R199: Bitwise AND of sA and sB into sD. -/
def execAnd (p : BitVec 3) (b : BitVec 5) (a : BitVec 5) (w : BitVec 2) (d : BitVec 5) (s : State) : Out :=
  rg2 (.long (2#5 ++ p ++ b ++ a ++ w ++ d ++ 3#7)) p.toNat a.toNat b.toNat d.toNat (iAnd (widthOf w)) s

/-- R199: Bitwise OR of sA and sB into sD. -/
def execOr (p : BitVec 3) (b : BitVec 5) (a : BitVec 5) (w : BitVec 2) (d : BitVec 5) (s : State) : Out :=
  rg2 (.long (3#5 ++ p ++ b ++ a ++ w ++ d ++ 3#7)) p.toNat a.toNat b.toNat d.toNat (iOr (widthOf w)) s

/-- R199: Bitwise XOR of sA and sB into sD. -/
def execXor (p : BitVec 3) (b : BitVec 5) (a : BitVec 5) (w : BitVec 2) (d : BitVec 5) (s : State) : Out :=
  rg2 (.long (4#5 ++ p ++ b ++ a ++ w ++ d ++ 3#7)) p.toNat a.toNat b.toNat d.toNat (iXor (widthOf w)) s

/-- R199: sA AND NOT sB into sD. -/
def execAndn (p : BitVec 3) (b : BitVec 5) (a : BitVec 5) (w : BitVec 2) (d : BitVec 5) (s : State) : Out :=
  rg2 (.long (5#5 ++ p ++ b ++ a ++ w ++ d ++ 3#7)) p.toNat a.toNat b.toNat d.toNat (iAndn (widthOf w)) s

/-- R199: Shifts sA left by the low bits of sB. -/
def execShl (p : BitVec 3) (b : BitVec 5) (a : BitVec 5) (w : BitVec 2) (d : BitVec 5) (s : State) : Out :=
  rg2 (.long (6#5 ++ p ++ b ++ a ++ w ++ d ++ 3#7)) p.toNat a.toNat b.toNat d.toNat (iShl (widthOf w)) s

/-- R199: Logical right shift of sA by sB. -/
def execShr (p : BitVec 3) (b : BitVec 5) (a : BitVec 5) (w : BitVec 2) (d : BitVec 5) (s : State) : Out :=
  rg2 (.long (7#5 ++ p ++ b ++ a ++ w ++ d ++ 3#7)) p.toNat a.toNat b.toNat d.toNat (iShr (widthOf w)) s

/-- R199: Arithmetic right shift of sA by sB. -/
def execSar (p : BitVec 3) (b : BitVec 5) (a : BitVec 5) (w : BitVec 2) (d : BitVec 5) (s : State) : Out :=
  rg2 (.long (8#5 ++ p ++ b ++ a ++ w ++ d ++ 3#7)) p.toNat a.toNat b.toNat d.toNat (iSar (widthOf w)) s

/-- R199: Rotates sA right by sB within w bits. -/
def execRor (p : BitVec 3) (b : BitVec 5) (a : BitVec 5) (w : BitVec 2) (d : BitVec 5) (s : State) : Out :=
  rg2 (.long (9#5 ++ p ++ b ++ a ++ w ++ d ++ 3#7)) p.toNat a.toNat b.toNat d.toNat (iRor (widthOf w)) s

/-- R199: Low product of sA and sB. -/
def execMul (p : BitVec 3) (b : BitVec 5) (a : BitVec 5) (w : BitVec 2) (d : BitVec 5) (s : State) : Out :=
  rg2 (.long (10#5 ++ p ++ b ++ a ++ w ++ d ++ 3#7)) p.toNat a.toNat b.toNat d.toNat (iMul (widthOf w)) s

/-- R199: High half of the signed product. -/
def execMulh (p : BitVec 3) (b : BitVec 5) (a : BitVec 5) (w : BitVec 2) (d : BitVec 5) (s : State) : Out :=
  rg2 (.long (11#5 ++ p ++ b ++ a ++ w ++ d ++ 3#7)) p.toNat a.toNat b.toNat d.toNat (iMulh (widthOf w)) s

/-- R199: High half of the unsigned product. -/
def execMulhu (p : BitVec 3) (b : BitVec 5) (a : BitVec 5) (w : BitVec 2) (d : BitVec 5) (s : State) : Out :=
  rg2 (.long (12#5 ++ p ++ b ++ a ++ w ++ d ++ 3#7)) p.toNat a.toNat b.toNat d.toNat (iMulhu (widthOf w)) s

/-- R199: Signed division truncated toward zero, with defined results for zero and overflow. -/
def execDiv (p : BitVec 3) (b : BitVec 5) (a : BitVec 5) (w : BitVec 2) (d : BitVec 5) (s : State) : Out :=
  rg2 (.long (13#5 ++ p ++ b ++ a ++ w ++ d ++ 3#7)) p.toNat a.toNat b.toNat d.toNat (iDiv (widthOf w)) s

/-- R199: Unsigned division. -/
def execDivu (p : BitVec 3) (b : BitVec 5) (a : BitVec 5) (w : BitVec 2) (d : BitVec 5) (s : State) : Out :=
  rg2 (.long (14#5 ++ p ++ b ++ a ++ w ++ d ++ 3#7)) p.toNat a.toNat b.toNat d.toNat (iDivu (widthOf w)) s

/-- R199: Signed remainder. -/
def execRem (p : BitVec 3) (b : BitVec 5) (a : BitVec 5) (w : BitVec 2) (d : BitVec 5) (s : State) : Out :=
  rg2 (.long (15#5 ++ p ++ b ++ a ++ w ++ d ++ 3#7)) p.toNat a.toNat b.toNat d.toNat (iRem (widthOf w)) s

/-- R199: Unsigned remainder. -/
def execRemu (p : BitVec 3) (b : BitVec 5) (a : BitVec 5) (w : BitVec 2) (d : BitVec 5) (s : State) : Out :=
  rg2 (.long (16#5 ++ p ++ b ++ a ++ w ++ d ++ 3#7)) p.toNat a.toNat b.toNat d.toNat (iRemu (widthOf w)) s

/-- R199: Sets sD to 1 if sA is below sB, signed. -/
def execSlt (p : BitVec 3) (b : BitVec 5) (a : BitVec 5) (w : BitVec 2) (d : BitVec 5) (s : State) : Out :=
  rg2 (.long (17#5 ++ p ++ b ++ a ++ w ++ d ++ 3#7)) p.toNat a.toNat b.toNat d.toNat (iSlt (widthOf w)) s

/-- R199: Sets sD to 1 if sA is below sB, unsigned. -/
def execSltu (p : BitVec 3) (b : BitVec 5) (a : BitVec 5) (w : BitVec 2) (d : BitVec 5) (s : State) : Out :=
  rg2 (.long (18#5 ++ p ++ b ++ a ++ w ++ d ++ 3#7)) p.toNat a.toNat b.toNat d.toNat (iSltu (widthOf w)) s

/-- R199: Signed minimum. -/
def execMin (p : BitVec 3) (b : BitVec 5) (a : BitVec 5) (w : BitVec 2) (d : BitVec 5) (s : State) : Out :=
  rg2 (.long (19#5 ++ p ++ b ++ a ++ w ++ d ++ 3#7)) p.toNat a.toNat b.toNat d.toNat (iMin (widthOf w)) s

/-- R199: Signed maximum. -/
def execMax (p : BitVec 3) (b : BitVec 5) (a : BitVec 5) (w : BitVec 2) (d : BitVec 5) (s : State) : Out :=
  rg2 (.long (20#5 ++ p ++ b ++ a ++ w ++ d ++ 3#7)) p.toNat a.toNat b.toNat d.toNat (iMax (widthOf w)) s

/-- R199: Unsigned minimum. -/
def execMinu (p : BitVec 3) (b : BitVec 5) (a : BitVec 5) (w : BitVec 2) (d : BitVec 5) (s : State) : Out :=
  rg2 (.long (21#5 ++ p ++ b ++ a ++ w ++ d ++ 3#7)) p.toNat a.toNat b.toNat d.toNat (iMinu (widthOf w)) s

/-- R199: Unsigned maximum. -/
def execMaxu (p : BitVec 3) (b : BitVec 5) (a : BitVec 5) (w : BitVec 2) (d : BitVec 5) (s : State) : Out :=
  rg2 (.long (22#5 ++ p ++ b ++ a ++ w ++ d ++ 3#7)) p.toNat a.toNat b.toNat d.toNat (iMaxu (widthOf w)) s

/-- R199: Signed saturating addition. -/
def execAdds (p : BitVec 3) (b : BitVec 5) (a : BitVec 5) (w : BitVec 2) (d : BitVec 5) (s : State) : Out :=
  rg2 (.long (23#5 ++ p ++ b ++ a ++ w ++ d ++ 3#7)) p.toNat a.toNat b.toNat d.toNat (iAdds (widthOf w)) s

/-- R199: Unsigned saturating addition. -/
def execAddsu (p : BitVec 3) (b : BitVec 5) (a : BitVec 5) (w : BitVec 2) (d : BitVec 5) (s : State) : Out :=
  rg2 (.long (24#5 ++ p ++ b ++ a ++ w ++ d ++ 3#7)) p.toNat a.toNat b.toNat d.toNat (iAddsu (widthOf w)) s

/-- R199: Signed saturating subtraction. -/
def execSubs (p : BitVec 3) (b : BitVec 5) (a : BitVec 5) (w : BitVec 2) (d : BitVec 5) (s : State) : Out :=
  rg2 (.long (25#5 ++ p ++ b ++ a ++ w ++ d ++ 3#7)) p.toNat a.toNat b.toNat d.toNat (iSubs (widthOf w)) s

/-- R199: Unsigned saturating subtraction. -/
def execSubsu (p : BitVec 3) (b : BitVec 5) (a : BitVec 5) (w : BitVec 2) (d : BitVec 5) (s : State) : Out :=
  rg2 (.long (26#5 ++ p ++ b ++ a ++ w ++ d ++ 3#7)) p.toNat a.toNat b.toNat d.toNat (iSubsu (widthOf w)) s

/-- R199: Counts leading zeros of sA within w bits. -/
def execClz (p : BitVec 3) (a : BitVec 5) (w : BitVec 2) (d : BitVec 5) (s : State) : Out :=
  rg1 (.long (27#5 ++ p ++ 0#5 ++ a ++ w ++ d ++ 3#7)) p.toNat a.toNat d.toNat (iClz (widthOf w)) s

/-- R199: Counts trailing zeros of sA. -/
def execCtz (p : BitVec 3) (a : BitVec 5) (w : BitVec 2) (d : BitVec 5) (s : State) : Out :=
  rg1 (.long (28#5 ++ p ++ 0#5 ++ a ++ w ++ d ++ 3#7)) p.toNat a.toNat d.toNat (iCtz (widthOf w)) s

/-- R199: Counts one bits of sA. -/
def execPopc (p : BitVec 3) (a : BitVec 5) (w : BitVec 2) (d : BitVec 5) (s : State) : Out :=
  rg1 (.long (29#5 ++ p ++ 0#5 ++ a ++ w ++ d ++ 3#7)) p.toNat a.toNat d.toNat (iPopc (widthOf w)) s

/-- R199: Sign-extends sA from width w. -/
def execSext (p : BitVec 3) (a : BitVec 5) (w : BitVec 2) (d : BitVec 5) (s : State) : Out :=
  rg1 (.long (30#5 ++ p ++ 0#5 ++ a ++ w ++ d ++ 3#7)) p.toNat a.toNat d.toNat (extS (widthOf w)) s

/-- R199: Zero-extends sA from width w. -/
def execZext (p : BitVec 3) (a : BitVec 5) (w : BitVec 2) (d : BitVec 5) (s : State) : Out :=
  rg1 (.long (31#5 ++ p ++ 0#5 ++ a ++ w ++ d ++ 3#7)) p.toNat a.toNat d.toNat (extZ (widthOf w)) s

/-- R200: Adds a sign-extended immediate to sA. -/
def execAddi (i : BitVec 12) (a : BitVec 5) (d : BitVec 5) (s : State) : Out :=
  im1 (.long (i ++ a ++ 0#3 ++ d ++ 7#7)) a.toNat d.toNat (fun x => x + imm i) s

/-- R200: ANDs sA with a sign-extended immediate. -/
def execAndi (i : BitVec 12) (a : BitVec 5) (d : BitVec 5) (s : State) : Out :=
  im1 (.long (i ++ a ++ 1#3 ++ d ++ 7#7)) a.toNat d.toNat (fun x => x &&& imm i) s

/-- R200: ORs sA with a sign-extended immediate. -/
def execOri (i : BitVec 12) (a : BitVec 5) (d : BitVec 5) (s : State) : Out :=
  im1 (.long (i ++ a ++ 2#3 ++ d ++ 7#7)) a.toNat d.toNat (fun x => x ||| imm i) s

/-- R200: XORs sA with a sign-extended immediate. -/
def execXori (i : BitVec 12) (a : BitVec 5) (d : BitVec 5) (s : State) : Out :=
  im1 (.long (i ++ a ++ 3#3 ++ d ++ 7#7)) a.toNat d.toNat (fun x => x ^^^ imm i) s

/-- R200: Signed compare of sA with an immediate. -/
def execSlti (i : BitVec 12) (a : BitVec 5) (d : BitVec 5) (s : State) : Out :=
  im1 (.long (i ++ a ++ 4#3 ++ d ++ 7#7)) a.toNat d.toNat (fun x => if x.slt (imm i) then 1 else 0) s

/-- R200: Unsigned compare of sA with an immediate. -/
def execSltiu (i : BitVec 12) (a : BitVec 5) (d : BitVec 5) (s : State) : Out :=
  im1 (.long (i ++ a ++ 5#3 ++ d ++ 7#7)) a.toNat d.toNat (fun x => if x.ult (imm i) then 1 else 0) s

/-- R200: Shifts sA left by an immediate count at 64 bits. -/
def execShli (n : BitVec 6) (a : BitVec 5) (d : BitVec 5) (s : State) : Out :=
  im1 (.long (0#6 ++ n ++ a ++ 6#3 ++ d ++ 7#7)) a.toNat d.toNat (fun x => iShl 64 x.toNat n.toNat) s

/-- R200: Logical right shift by an immediate count. -/
def execShri (n : BitVec 6) (a : BitVec 5) (d : BitVec 5) (s : State) : Out :=
  im1 (.long (16#6 ++ n ++ a ++ 6#3 ++ d ++ 7#7)) a.toNat d.toNat (fun x => iShr 64 x.toNat n.toNat) s

/-- R200: Arithmetic right shift by an immediate count. -/
def execSari (n : BitVec 6) (a : BitVec 5) (d : BitVec 5) (s : State) : Out :=
  im1 (.long (32#6 ++ n ++ a ++ 6#3 ++ d ++ 7#7)) a.toNat d.toNat (fun x => iSar 64 x.toNat n.toNat) s

/-- R200: Rotates right by an immediate count. -/
def execRori (n : BitVec 6) (a : BitVec 5) (d : BitVec 5) (s : State) : Out :=
  im1 (.long (48#6 ++ n ++ a ++ 6#3 ++ d ++ 7#7)) a.toNat d.toNat (fun x => iRor 64 x.toNat n.toNat) s

/-- R200: Multiplies sA by a sign-extended immediate. -/
def execMuli (i : BitVec 12) (a : BitVec 5) (d : BitVec 5) (s : State) : Out :=
  im1 (.long (i ++ a ++ 7#3 ++ d ++ 7#7)) a.toNat d.toNat (fun x => x * imm i) s

/-- R201: Loads a 20-bit upper immediate, sign-extended from bit 31. -/
def execLdhi (i : BitVec 20) (d : BitVec 5) (s : State) : Out :=
  im0 (.long (i ++ d ++ 11#7)) d.toNat (fun _ => upper i) s

/-- R201: Adds a 20-bit upper immediate to the PC. -/
def execAddpc (i : BitVec 20) (d : BitVec 5) (s : State) : Out :=
  im0 (.long (i ++ d ++ 15#7)) d.toNat (fun s => s.th.pc + upper i) s

/-- R175: Executes as a no-op whatever its hint value. -/
def execHint (h : BitVec 25) (s : State) : Out :=
  noop (.long (h ++ 63#7)) s

/-- R175: The all-zero hint word, a no-op. -/
def execNop (s : State) : Out :=
  noop (.long 63#32) s

/-- R177: Compact hint, a no-op. -/
def execCHint (d : BitVec 4) (a : BitVec 4) (s : State) : Out :=
  noop (.half (63#6 ++ d ++ a ++ 0#2)) s

/-- R177: Compact add sD, sD, sA. -/
def execCAdd (d : BitVec 4) (a : BitVec 4) (s : State) : Out :=
  rg2 (.half (2#6 ++ d ++ a ++ 0#2)) 0 d.toNat a.toNat d.toNat (iAdd 64) s

/-- R177: Compact sub sD, sD, sA. -/
def execCSub (d : BitVec 4) (a : BitVec 4) (s : State) : Out :=
  rg2 (.half (3#6 ++ d ++ a ++ 0#2)) 0 d.toNat a.toNat d.toNat (iSub 64) s

/-- R177: Compact and sD, sD, sA. -/
def execCAnd (d : BitVec 4) (a : BitVec 4) (s : State) : Out :=
  rg2 (.half (4#6 ++ d ++ a ++ 0#2)) 0 d.toNat a.toNat d.toNat (iAnd 64) s

/-- R177: Compact or sD, sD, sA. -/
def execCOr (d : BitVec 4) (a : BitVec 4) (s : State) : Out :=
  rg2 (.half (5#6 ++ d ++ a ++ 0#2)) 0 d.toNat a.toNat d.toNat (iOr 64) s

/-- R177: Compact xor sD, sD, sA. -/
def execCXor (d : BitVec 4) (a : BitVec 4) (s : State) : Out :=
  rg2 (.half (6#6 ++ d ++ a ++ 0#2)) 0 d.toNat a.toNat d.toNat (iXor 64) s

/-- R177: Compact shl sD, sD, sA. -/
def execCShl (d : BitVec 4) (a : BitVec 4) (s : State) : Out :=
  rg2 (.half (7#6 ++ d ++ a ++ 0#2)) 0 d.toNat a.toNat d.toNat (iShl 64) s

/-- R177: Compact shr sD, sD, sA. -/
def execCShr (d : BitVec 4) (a : BitVec 4) (s : State) : Out :=
  rg2 (.half (8#6 ++ d ++ a ++ 0#2)) 0 d.toNat a.toNat d.toNat (iShr 64) s

/-- R177: Compact sar sD, sD, sA. -/
def execCSar (d : BitVec 4) (a : BitVec 4) (s : State) : Out :=
  rg2 (.half (9#6 ++ d ++ a ++ 0#2)) 0 d.toNat a.toNat d.toNat (iSar 64) s

/-- R177: Compact mul sD, sD, sA. -/
def execCMul (d : BitVec 4) (a : BitVec 4) (s : State) : Out :=
  rg2 (.half (10#6 ++ d ++ a ++ 0#2)) 0 d.toNat a.toNat d.toNat (iMul 64) s

/-- R177: Compact or sD, sA, s0. -/
def execCMove (d : BitVec 4) (a : BitVec 4) (s : State) : Out :=
  rg2 (.half (1#6 ++ d ++ a ++ 0#2)) 0 a.toNat 0 d.toNat (iOr 64) s

/-- R177: Compact addi sD, s0, imm. -/
def execCAddiS0 (d : BitVec 4) (i : BitVec 6) (s : State) : Out :=
  im1 (.half (0#4 ++ d ++ i ++ 1#2)) 0 d.toNat (fun x => x + i.signExtend 64) s

/-- R177: Compact addi sD, sD, imm. -/
def execCAddi (d : BitVec 4) (i : BitVec 6) (s : State) : Out :=
  im1 (.half (1#4 ++ d ++ i ++ 1#2)) d.toNat d.toNat (fun x => x + i.signExtend 64) s

/-- R177: Compact shli sD, sD, imm. -/
def execCShli (d : BitVec 4) (i : BitVec 6) (s : State) : Out :=
  im1 (.half (2#4 ++ d ++ i ++ 1#2)) d.toNat d.toNat (fun x => iShl 64 x.toNat i.toNat) s

/-- R177: Compact shri sD, sD, imm. -/
def execCShri (d : BitVec 4) (i : BitVec 6) (s : State) : Out :=
  im1 (.half (3#4 ++ d ++ i ++ 1#2)) d.toNat d.toNat (fun x => iShr 64 x.toNat i.toNat) s

/-- R177: Compact sari sD, sD, imm. -/
def execCSari (d : BitVec 4) (i : BitVec 6) (s : State) : Out :=
  im1 (.half (4#4 ++ d ++ i ++ 1#2)) d.toNat d.toNat (fun x => iSar 64 x.toNat i.toNat) s

/-- R177: Compact andi sD, sD, imm. -/
def execCAndi (d : BitVec 4) (i : BitVec 6) (s : State) : Out :=
  im1 (.half (5#4 ++ d ++ i ++ 1#2)) d.toNat d.toNat (fun x => x &&& i.signExtend 64) s

end Sys2Proof.Machine
end

