-- ==== Sys2Proof/Machine/LoadStore.lean ====
section
/-!
DEFINITION. Device-memory loads, stores and prefetch (majors 4 and 5, R210 to R213), local-store access (major 6, R214), atomics
(major 7, R215 to R219) and their 16-bit forms (R177).
-/

namespace Sys2Proof.Machine

open Sys2Proof

/-- A scalar load of device memory (R210 to R212). -/
def loadDevice (c : Code) (a : Nat) (off : Word) (d n : Nat) (ext : LoadExt) (s : State) : Out :=
  issue { code := c, reads := [a], writes := [d], takes := true } s fun s => do
    let toQueue := (s.th.queueOf d).isSome
    if s.th.phase ≠ 0 then s.queueLoad d
    else
      let (x, s) := s.readS a
      let s ← s.deviceLoad c.bits [(x + off, 0, n)] [(x + off, 0, n)] (.s d) ext toQueue
      if toQueue then s.queueLoad d else pure s

/-- What a scalar store names, with its address and the bytes that it stores (R370). -/
def storeIssue (c : Code) (a : Nat) (off : Word) (d n : Nat) (s : State) : Issue :=
  let xs := s.operandWords [d, a]
  { code := c, reads := [d, a], effect := true, shows := some ([xs.getD 1 0 + off], leBytes n (xs.getD 0 0).toNat) }

/-- A scalar store to device memory (R210 to R212). -/
def storeDevice (c : Code) (a : Nat) (off : Word) (d n : Nat) (s : State) : Out :=
  issue (storeIssue c a off d n s) s fun s =>
    let (v, s) := s.readS d
    let (x, s) := s.readS a
    s.deviceStore c.bits [(x + off, 0, n)] (leBytes n v.toNat)

/-- A scalar load of the local store: the value is available to the next instruction unless the banks delay it; a queue register is never
pending (R34, R214). -/
def loadLocal (c : Code) (a : Nat) (off : Word) (d n : Nat) (s : State) : Out :=
  issue { code := c, reads := [a], writes := [d], takes := true } s fun s => do
    let (x, s) := s.readS a
    let (bs, s) ← s.localLoad (x + off) n
    pure (match s.th.queueOf d with
      | some _ => s.writeS d (extS (8 * n) (leNat bs))
      | none => s.finishLocal (.s d) (.signed (8 * n)) (x + off).toNat n bs)

/-- A scalar store to the local store (R214). -/
def storeLocal (c : Code) (a : Nat) (off : Word) (d n : Nat) (s : State) : Out :=
  issue (storeIssue c a off d n s) s fun s =>
    let (v, s) := s.readS d
    let (x, s) := s.readS a
    s.localStore (x + off) (leBytes n v.toNat)

/-- An atomic (R215 to R219, R388). -/
def atomic (c : Code) (fn : Nat) (r q l : BitVec 1) (b a : Nat) (w : BitVec 1) (d : Nat) (s : State) : Out :=
  let width := if w = 0 then 8 else 4
  let reads := if fn = 9 then [d, a, b] else [a, b]
  let xs := s.operandWords reads
  issue { code := c, reads := reads, writes := if d = 0 then [] else [d], effect := true, takes := true
          shows := some ([xs.getD (reads.length - 2) 0], (xs.eraseIdx (reads.length - 2)).reverse.flatMap (fun x => leBytes width x.toNat)) } s
    fun s => do
    let acq := decide (q = 1)
    let ls := decide (l = 1)
    if s.th.phase = 2 then s.amoWait d
    else
      let (y, s) := if fn = 9 then s.readS d else (0, s)
      let (va, s) := s.readS a
      let (x, s) := s.readS b
      let o : Amo := { fn := fn, width := width, b := x.toNat % 2 ^ (8 * width), cmp := y.toNat % 2 ^ (8 * width) }
      let (tgt, s) ← s.amoTarget va width ls
      let s ← if r = 1 ∧ ¬ s.th.inRecon then s.release 10 else pure s
      s.amoGo c.bits va tgt d acq o

/-- Byte offset of a 16-bit stack form (R177). -/
def spOffset (i : BitVec 6) : Word := BitVec.ofNat 64 (8 * i.toNat)

/-- R210: Loads a sign-extended byte from device memory. -/
def execLdB (i : BitVec 12) (a : BitVec 5) (d : BitVec 5) (s : State) : Out :=
  loadDevice (.long (i ++ a ++ 0#3 ++ d ++ 19#7)) a.toNat (i.signExtend 64) d.toNat 1 (.signed 8) s

/-- R210: Loads a sign-extended halfword from device memory. -/
def execLdH (i : BitVec 12) (a : BitVec 5) (d : BitVec 5) (s : State) : Out :=
  loadDevice (.long (i ++ a ++ 1#3 ++ d ++ 19#7)) a.toNat (i.signExtend 64) d.toNat 2 (.signed 16) s

/-- R210: Loads a sign-extended word from device memory. -/
def execLdW (i : BitVec 12) (a : BitVec 5) (d : BitVec 5) (s : State) : Out :=
  loadDevice (.long (i ++ a ++ 2#3 ++ d ++ 19#7)) a.toNat (i.signExtend 64) d.toNat 4 (.signed 32) s

/-- R210: Loads a doubleword from device memory through the L1. -/
def execLdD (i : BitVec 12) (a : BitVec 5) (d : BitVec 5) (s : State) : Out :=
  loadDevice (.long (i ++ a ++ 3#3 ++ d ++ 19#7)) a.toNat (i.signExtend 64) d.toNat 8 (.signed 64) s

/-- R210: Loads a zero-extended byte from device memory. -/
def execLdBu (i : BitVec 12) (a : BitVec 5) (d : BitVec 5) (s : State) : Out :=
  loadDevice (.long (i ++ a ++ 4#3 ++ d ++ 19#7)) a.toNat (i.signExtend 64) d.toNat 1 (.unsigned 8) s

/-- R210: Loads a zero-extended halfword from device memory. -/
def execLdHu (i : BitVec 12) (a : BitVec 5) (d : BitVec 5) (s : State) : Out :=
  loadDevice (.long (i ++ a ++ 5#3 ++ d ++ 19#7)) a.toNat (i.signExtend 64) d.toNat 2 (.unsigned 16) s

/-- R210: Loads a zero-extended word from device memory. -/
def execLdWu (i : BitVec 12) (a : BitVec 5) (d : BitVec 5) (s : State) : Out :=
  loadDevice (.long (i ++ a ++ 6#3 ++ d ++ 19#7)) a.toNat (i.signExtend 64) d.toNat 4 (.unsigned 32) s

/-- R213: Prefetches a line into the L1 or the home cache, never faulting; the trailing thread of a pair accesses no memory (R63). -/
def execPf (i : BitVec 12) (a : BitVec 5) (k : BitVec 1) (s : State) : Out :=
  let c : Code := (.long (i ++ a ++ 112#7 ++ k ++ 19#7))
  issue { code := c, reads := [a.toNat] } s fun s =>
    let (x, s) := s.readS a.toNat
    if s.th.pair = 2 then .ok s else s.prefetch c.bits (x + i.signExtend 64) (decide (k = 0))

/-- R210: Stores a byte to device memory. -/
def execStB (i : BitVec 12) (a : BitVec 5) (d : BitVec 5) (s : State) : Out :=
  storeDevice (.long (i ++ a ++ 0#3 ++ d ++ 23#7)) a.toNat (i.signExtend 64) d.toNat 1 s

/-- R210: Stores a halfword to device memory. -/
def execStH (i : BitVec 12) (a : BitVec 5) (d : BitVec 5) (s : State) : Out :=
  storeDevice (.long (i ++ a ++ 1#3 ++ d ++ 23#7)) a.toNat (i.signExtend 64) d.toNat 2 s

/-- R210: Stores a word to device memory. -/
def execStW (i : BitVec 12) (a : BitVec 5) (d : BitVec 5) (s : State) : Out :=
  storeDevice (.long (i ++ a ++ 2#3 ++ d ++ 23#7)) a.toNat (i.signExtend 64) d.toNat 4 s

/-- R210: Stores a doubleword to device memory, into the L1 for cached pages. -/
def execStD (i : BitVec 12) (a : BitVec 5) (d : BitVec 5) (s : State) : Out :=
  storeDevice (.long (i ++ a ++ 3#3 ++ d ++ 23#7)) a.toNat (i.signExtend 64) d.toNat 8 s

/-- R211: Allocates a whole L1 line as zero, valid and dirty. -/
def execStZ (i : BitVec 12) (a : BitVec 5) (s : State) : Out :=
  let c : Code := (.long (i ++ a ++ 16407#15))
  issue { code := c, reads := [a.toNat], effect := true
          shows := some ([((s.operandWords [a.toNat]).getD 0 0 + i.signExtend 64) &&& ~~~63], List.replicate 64 0) } s fun s =>
    let (x, s) := s.readS a.toNat
    s.deviceStore c.bits [((x + i.signExtend 64) &&& ~~~63, 0, 64)] (List.replicate 64 0)

/-- R214: Loads a sign-extended byte from the local store. -/
def execLdBLs (i : BitVec 12) (a : BitVec 5) (d : BitVec 5) (s : State) : Out :=
  loadLocal (.long (i ++ a ++ 0#3 ++ d ++ 27#7)) a.toNat (i.signExtend 64) d.toNat 1 s

/-- R214: Loads a sign-extended halfword from the local store. -/
def execLdHLs (i : BitVec 12) (a : BitVec 5) (d : BitVec 5) (s : State) : Out :=
  loadLocal (.long (i ++ a ++ 1#3 ++ d ++ 27#7)) a.toNat (i.signExtend 64) d.toNat 2 s

/-- R214: Loads a sign-extended word from the local store. -/
def execLdWLs (i : BitVec 12) (a : BitVec 5) (d : BitVec 5) (s : State) : Out :=
  loadLocal (.long (i ++ a ++ 2#3 ++ d ++ 27#7)) a.toNat (i.signExtend 64) d.toNat 4 s

/-- R214: Loads a doubleword from the local store. -/
def execLdDLs (i : BitVec 12) (a : BitVec 5) (d : BitVec 5) (s : State) : Out :=
  loadLocal (.long (i ++ a ++ 3#3 ++ d ++ 27#7)) a.toNat (i.signExtend 64) d.toNat 8 s

/-- R214: Stores a byte to the local store. -/
def execStBLs (i : BitVec 12) (a : BitVec 5) (d : BitVec 5) (s : State) : Out :=
  storeLocal (.long (i ++ a ++ 4#3 ++ d ++ 27#7)) a.toNat (i.signExtend 64) d.toNat 1 s

/-- R214: Stores a halfword to the local store. -/
def execStHLs (i : BitVec 12) (a : BitVec 5) (d : BitVec 5) (s : State) : Out :=
  storeLocal (.long (i ++ a ++ 5#3 ++ d ++ 27#7)) a.toNat (i.signExtend 64) d.toNat 2 s

/-- R214: Stores a word to the local store. -/
def execStWLs (i : BitVec 12) (a : BitVec 5) (d : BitVec 5) (s : State) : Out :=
  storeLocal (.long (i ++ a ++ 6#3 ++ d ++ 27#7)) a.toNat (i.signExtend 64) d.toNat 4 s

/-- R214: Stores a doubleword to the local store, setting tile-slot dirty bits. -/
def execStDLs (i : BitVec 12) (a : BitVec 5) (d : BitVec 5) (s : State) : Out :=
  storeLocal (.long (i ++ a ++ 7#3 ++ d ++ 27#7)) a.toNat (i.signExtend 64) d.toNat 8 s

/-- R215: Atomically swaps sB into memory and returns the old value. -/
def execAmoSwap (r : BitVec 1) (q : BitVec 1) (l : BitVec 1) (b : BitVec 5) (a : BitVec 5) (w : BitVec 1) (d : BitVec 5) (s :
  State) : Out :=
  atomic (.long (0#5 ++ r ++ q ++ l ++ b ++ a ++ 0#1 ++ w ++ d ++ 31#7)) 0 r q l b.toNat a.toNat w d.toNat s

/-- R215: Atomically adds sB, returning the old value; a reduction when D = 0. -/
def execAmoAdd (r : BitVec 1) (q : BitVec 1) (l : BitVec 1) (b : BitVec 5) (a : BitVec 5) (w : BitVec 1) (d : BitVec 5) (s :
  State) : Out :=
  atomic (.long (1#5 ++ r ++ q ++ l ++ b ++ a ++ 0#1 ++ w ++ d ++ 31#7)) 1 r q l b.toNat a.toNat w d.toNat s

/-- R215: Atomic AND. -/
def execAmoAnd (r : BitVec 1) (q : BitVec 1) (l : BitVec 1) (b : BitVec 5) (a : BitVec 5) (w : BitVec 1) (d : BitVec 5) (s :
  State) : Out :=
  atomic (.long (2#5 ++ r ++ q ++ l ++ b ++ a ++ 0#1 ++ w ++ d ++ 31#7)) 2 r q l b.toNat a.toNat w d.toNat s

/-- R215: Atomic OR. -/
def execAmoOr (r : BitVec 1) (q : BitVec 1) (l : BitVec 1) (b : BitVec 5) (a : BitVec 5) (w : BitVec 1) (d : BitVec 5) (s :
  State) : Out :=
  atomic (.long (3#5 ++ r ++ q ++ l ++ b ++ a ++ 0#1 ++ w ++ d ++ 31#7)) 3 r q l b.toNat a.toNat w d.toNat s

/-- R215: Atomic XOR. -/
def execAmoXor (r : BitVec 1) (q : BitVec 1) (l : BitVec 1) (b : BitVec 5) (a : BitVec 5) (w : BitVec 1) (d : BitVec 5) (s :
  State) : Out :=
  atomic (.long (4#5 ++ r ++ q ++ l ++ b ++ a ++ 0#1 ++ w ++ d ++ 31#7)) 4 r q l b.toNat a.toNat w d.toNat s

/-- R215: Atomic signed minimum. -/
def execAmoMin (r : BitVec 1) (q : BitVec 1) (l : BitVec 1) (b : BitVec 5) (a : BitVec 5) (w : BitVec 1) (d : BitVec 5) (s :
  State) : Out :=
  atomic (.long (5#5 ++ r ++ q ++ l ++ b ++ a ++ 0#1 ++ w ++ d ++ 31#7)) 5 r q l b.toNat a.toNat w d.toNat s

/-- R215: Atomic signed maximum. -/
def execAmoMax (r : BitVec 1) (q : BitVec 1) (l : BitVec 1) (b : BitVec 5) (a : BitVec 5) (w : BitVec 1) (d : BitVec 5) (s :
  State) : Out :=
  atomic (.long (6#5 ++ r ++ q ++ l ++ b ++ a ++ 0#1 ++ w ++ d ++ 31#7)) 6 r q l b.toNat a.toNat w d.toNat s

/-- R215: Atomic unsigned minimum. -/
def execAmoMinu (r : BitVec 1) (q : BitVec 1) (l : BitVec 1) (b : BitVec 5) (a : BitVec 5) (w : BitVec 1) (d : BitVec 5) (s :
  State) : Out :=
  atomic (.long (7#5 ++ r ++ q ++ l ++ b ++ a ++ 0#1 ++ w ++ d ++ 31#7)) 7 r q l b.toNat a.toNat w d.toNat s

/-- R215: Atomic unsigned maximum. -/
def execAmoMaxu (r : BitVec 1) (q : BitVec 1) (l : BitVec 1) (b : BitVec 5) (a : BitVec 5) (w : BitVec 1) (d : BitVec 5) (s :
  State) : Out :=
  atomic (.long (8#5 ++ r ++ q ++ l ++ b ++ a ++ 0#1 ++ w ++ d ++ 31#7)) 8 r q l b.toNat a.toNat w d.toNat s

/-- R215: Atomic compare-and-swap against sD. -/
def execAmoCas (r : BitVec 1) (q : BitVec 1) (l : BitVec 1) (b : BitVec 5) (a : BitVec 5) (w : BitVec 1) (d : BitVec 5) (s :
  State) : Out :=
  atomic (.long (9#5 ++ r ++ q ++ l ++ b ++ a ++ 0#1 ++ w ++ d ++ 31#7)) 9 r q l b.toNat a.toNat w d.toNat s

/-- R219: Atomic floating-point add rounded RNE, flags ORed without trap. -/
def execAmoFadd (r : BitVec 1) (q : BitVec 1) (l : BitVec 1) (b : BitVec 5) (a : BitVec 5) (w : BitVec 1) (d : BitVec 5) (s :
  State) : Out :=
  atomic (.long (10#5 ++ r ++ q ++ l ++ b ++ a ++ 0#1 ++ w ++ d ++ 31#7)) 10 r q l b.toNat a.toNat w d.toNat s

/-- R215: Atomic load returning the value. -/
def execAmoLd (r : BitVec 1) (q : BitVec 1) (l : BitVec 1) (a : BitVec 5) (w : BitVec 1) (d : BitVec 5) (s : State) : Out :=
  atomic (.long (11#5 ++ r ++ q ++ l ++ 0#5 ++ a ++ 0#1 ++ w ++ d ++ 31#7)) 11 r q l 0 a.toNat w d.toNat s

/-- R215: Atomic store returning nothing. -/
def execAmoSt (r : BitVec 1) (q : BitVec 1) (l : BitVec 1) (b : BitVec 5) (a : BitVec 5) (w : BitVec 1) (s : State) : Out :=
  atomic (.long (12#5 ++ r ++ q ++ l ++ b ++ a ++ 0#1 ++ w ++ 31#12)) 12 r q l b.toNat a.toNat w 0 s

/-- R177: Compact ld.d sD, [sA]. -/
def execCLdD (d : BitVec 4) (a : BitVec 4) (s : State) : Out :=
  loadDevice (.half (11#6 ++ d ++ a ++ 0#2)) a.toNat 0 d.toNat 8 (.signed 64) s

/-- R177: Compact st.d sD, [sA]. -/
def execCStD (d : BitVec 4) (a : BitVec 4) (s : State) : Out :=
  storeDevice (.half (12#6 ++ d ++ a ++ 0#2)) a.toNat 0 d.toNat 8 s

/-- R177: Compact ld.d sD, ls[sA]. -/
def execCLdDLs (d : BitVec 4) (a : BitVec 4) (s : State) : Out :=
  loadLocal (.half (13#6 ++ d ++ a ++ 0#2)) a.toNat 0 d.toNat 8 s

/-- R177: Compact st.d sD, ls[sA]. -/
def execCStDLs (d : BitVec 4) (a : BitVec 4) (s : State) : Out :=
  storeLocal (.half (14#6 ++ d ++ a ++ 0#2)) a.toNat 0 d.toNat 8 s

/-- R177: Compact ld.d sD, [sp+8×imm]. -/
def execCLdDSp (d : BitVec 4) (i : BitVec 6) (s : State) : Out :=
  loadDevice (.half (6#4 ++ d ++ i ++ 1#2)) 29 (spOffset i) d.toNat 8 (.signed 64) s

/-- R177: Compact st.d sD, [sp+8×imm]. -/
def execCStDSp (d : BitVec 4) (i : BitVec 6) (s : State) : Out :=
  storeDevice (.half (7#4 ++ d ++ i ++ 1#2)) 29 (spOffset i) d.toNat 8 s

end Sys2Proof.Machine
end

