-- ==== Sys2Proof/Machine/VecMem.lean ====
section
/-!
DEFINITION. Vector loads and stores: major 19 (R246 to R249, R393).
-/

namespace Sys2Proof.Machine

open Sys2Proof

/-- The active elements of a form: address, place in the register, bytes (R246). -/
def vmElems (p : Word) (w : Nat) (addr : Nat → Word) : List Acc :=
  ((List.range (64 / w)).filter (active p w)).map (fun i => (addr i, i * w, w))

/-- The accesses made for the elements: a contiguous form with every element active at an address aligned to 64 is one access of
64 bytes (R247). -/
def vmAccs (contig : Bool) (w : Nat) (els : List Acc) : List Acc :=
  match els with
  | [] => []
  | e :: _ => if contig ∧ els.length * w = 64 ∧ e.1.toNat % 64 = 0 then [(e.1, 0, 64)] else els

/-- Address of element i: contiguous, strided, or indexed by a vector (R246). -/
def vmAddr (base : Word) (stride : Word) (i : Nat) : Word := base + stride * BitVec.ofNat 64 i

/-- Address of an indexed element (R246). -/
def vmIndex (base : Word) (w : Nat) (v : Vec) (i : Nat) : Word := base + extS (8 * w) (elem v w i) * BitVec.ofNat 64 w

/-- The bytes of a vector register. -/
def vecBytes (v : Vec) : List Byte := (List.range 64).map (fun j => v.extractLsb' (8 * j) 8)

/-- The blocks that a local access touches (R248). -/
def accBlocks (els : List Acc) : List Nat := (els.flatMap (fun e => blocksOf e.1.toNat e.2.2)).eraseDups

/-- Slots that a local access of c cycles still occupies (R248): c is the greatest number of blocks in one bank. -/
def busySlots (els : List Acc) : Nat :=
  (((List.range 8).map (fun k => ((accBlocks els).filter (fun x => decide (x % 8 = k))).length)).foldl max 0) / 16

/-- The cycle in which the banks serve the last of the blocks of a vector access, once they have taken them all (R100, R248). -/
def Core.bankLast (c : Core) (blocks : List Nat) : Nat :=
  blocks.foldl (fun m b => max m (tblGet 0 (b % 8) c.bankFree - 1)) c.cyc

/-- A local access occupies its banks, and the thread's next slots (R100, R248). -/
def State.occupy (s : State) (els : List Acc) : State :=
  State.setCo (s.setTh { s.th with busy := busySlots els }) ((s.setTh { s.th with busy := busySlots els }).co.bankUse (accBlocks els))

/-- The operands of a vector memory form. -/
structure VmForm where
  code : Code
  p : BitVec 3
  w : Nat
  a : Nat
  /-- strided forms: the register with the stride -/
  b : Option Nat
  /-- indexed forms: the vector register with the indices -/
  x : Option Nat
  d : Nat
  deriving DecidableEq, Repr

/-- What a form names. -/
def VmForm.named (f : VmForm) (store : Bool) : Issue :=
  { code := f.code, reads := f.a :: f.b.toList
    others := .p f.p.toNat :: (f.x.toList.map RegName.v ++ if store then [.v f.d] else [])
    dests := if store then [] else [.v f.d], effect := store, takes := !store }

/-- The active elements of a form from its base and its stride. -/
def VmForm.elemsFrom (f : VmForm) (t : Thread) (base stride : Word) : List Acc :=
  vmElems (t.preg f.p.toNat) f.w (match f.b, f.x with
    | none, some v => vmIndex base f.w (t.vreg v)
    | none, none => vmAddr base (BitVec.ofNat 64 f.w)
    | some _, _ => vmAddr base stride)

/-- The active elements of a form, with the state after its scalar operands are read. -/
def VmForm.elems (f : VmForm) (s : State) : List Acc × State :=
  let (base, s) := s.readS f.a
  let (stride, s) := match f.b with | some r => s.readS r | none => (0, s)
  (f.elemsFrom s.th base stride, s)

/-- The form is contiguous. -/
def VmForm.contig (f : VmForm) : Bool := f.b.isNone && f.x.isNone

/-- What a store names, with the addresses and the data that the comparator of a pair compares (R370). -/
def VmForm.stores (f : VmForm) (s : State) : Issue :=
  let xs := s.operandWords (f.a :: f.b.toList)
  let els := f.elemsFrom s.th (xs.getD 0 0) (xs.getD 1 0)
  let v := vecBytes (s.th.vreg f.d)
  { f.named true with shows := some (els.map (·.1), els.flatMap (fun e => (v.drop e.2.1).take e.2.2)) }

/-- A vector load of device memory (R247). -/
def VmForm.load (f : VmForm) (s : State) : Out :=
  issue (f.named false) s fun s =>
    let (els, s) := f.elems s
    s.deviceLoad f.code.bits (vmAccs f.contig f.w els) els (.v f.d) .vector false

/-- A vector store to device memory (R247, R249). -/
def VmForm.store (f : VmForm) (s : State) : Out :=
  issue (f.stores s) s fun s =>
    let (els, s) := f.elems s
    s.deviceStore f.code.bits (vmAccs f.contig f.w els) (vecBytes (s.th.vreg f.d))

/-- The checks of a local form, element by element: range, and for a store the claimed range (R248, R393). -/
def State.vmCheck (s : State) (store : Bool) (els : List Acc) : Option Stop :=
  els.findSome? (fun e =>
    if outOfLocal e.1 e.2.2 then some (.trap 11 e.1)
    else if store && !s.th.inRecon then (s.co.refusedAt e.1.toNat e.2.2).map (fun b => .trap 12 (BitVec.ofNat 64 b))
    else none)

/-- Read local elements in order. -/
def State.vmRead (s : State) : List Acc → Memory → Except Stop (Memory × State)
  | [], m => .ok (m, s)
  | e :: t, m => do
    let (bs, s) ← s.localLoad e.1 e.2.2
    s.vmRead t (memWrite e.2.1 bs m)

/-- Write local elements in order (R249). -/
def State.vmWrite (s : State) (v : List Byte) (es : List Acc) : State :=
  es.foldl (fun s e => s.putHere e.1.toNat ((v.drop e.2.1).take e.2.2)) s

/-- A vector load of the local store; its destination is pending where blocks that the banks hold already delay it beyond the thread's next
slot (R34, R100, R248). -/
def VmForm.loadLocal (f : VmForm) (s : State) : Out :=
  issue (f.named false) s fun s =>
    let (els, s) := f.elems s
    match s.vmCheck false els with
    | some r => .error r
    | none => do
      let (m, s) ← s.vmRead (vmAccs f.contig f.w els) []
      let s := s.occupy els
      pure (s.finishAt (.v f.d) .vector (s.co.bankLast (accBlocks els)) (s.co.cyc + 16 * (1 + busySlots els)) m els)

/-- A vector store to the local store (R248). -/
def VmForm.storeLocal (f : VmForm) (s : State) : Out :=
  issue (f.stores s) s fun s =>
    let (els, s) := f.elems s
    match s.vmCheck true els with
    | some r => .error r
    | none => do
      let t := s.vmWrite (vecBytes (s.th.vreg f.d)) (vmAccs f.contig f.w els)
      (t.occupy els).commitAfter s (els.map (fun e => (e.1.toNat, e.2.2)))

/-- R246: Contiguous vector load from device memory. -/
def execVld (p : BitVec 3) (a : BitVec 5) (e : BitVec 3) (d : BitVec 4) (s : State) : Out :=
  VmForm.load (.mk (.long (0#5 ++ p ++ 0#5 ++ a ++ e ++ d ++ 79#7)) p (etBytes e) a.toNat none none d.toNat) s

/-- R246: Contiguous vector store to device memory. -/
def execVst (p : BitVec 3) (a : BitVec 5) (e : BitVec 3) (d : BitVec 4) (s : State) : Out :=
  VmForm.store (.mk (.long (1#5 ++ p ++ 0#5 ++ a ++ e ++ d ++ 79#7)) p (etBytes e) a.toNat none none d.toNat) s

/-- R246: Strided vector load from device memory. -/
def execVlds (p : BitVec 3) (b : BitVec 5) (a : BitVec 5) (e : BitVec 3) (d : BitVec 4) (s : State) : Out :=
  VmForm.load (.mk (.long (2#5 ++ p ++ b ++ a ++ e ++ d ++ 79#7)) p (etBytes e) a.toNat (some b.toNat) none d.toNat) s

/-- R246: Strided vector store to device memory. -/
def execVsts (p : BitVec 3) (b : BitVec 5) (a : BitVec 5) (e : BitVec 3) (d : BitVec 4) (s : State) : Out :=
  VmForm.store (.mk (.long (3#5 ++ p ++ b ++ a ++ e ++ d ++ 79#7)) p (etBytes e) a.toNat (some b.toNat) none d.toNat) s

/-- R246: Gather load from device memory. -/
def execVldg (p : BitVec 3) (b : BitVec 4) (a : BitVec 5) (e : BitVec 3) (d : BitVec 4) (s : State) : Out :=
  VmForm.load (.mk (.long (4#5 ++ p ++ 0#1 ++ b ++ a ++ e ++ d ++ 79#7)) p (etBytes e) a.toNat none (some b.toNat) d.toNat) s

/-- R246: Scatter store to device memory. -/
def execVstg (p : BitVec 3) (b : BitVec 4) (a : BitVec 5) (e : BitVec 3) (d : BitVec 4) (s : State) : Out :=
  VmForm.store (.mk (.long (5#5 ++ p ++ 0#1 ++ b ++ a ++ e ++ d ++ 79#7)) p (etBytes e) a.toNat none (some b.toNat) d.toNat) s

/-- R248: Contiguous vector load from the local store. -/
def execVldLs (p : BitVec 3) (a : BitVec 5) (e : BitVec 3) (d : BitVec 4) (s : State) : Out :=
  VmForm.loadLocal (.mk (.long (6#5 ++ p ++ 0#5 ++ a ++ e ++ d ++ 79#7)) p (etBytes e) a.toNat none none d.toNat) s

/-- R248: Contiguous vector store to the local store. -/
def execVstLs (p : BitVec 3) (a : BitVec 5) (e : BitVec 3) (d : BitVec 4) (s : State) : Out :=
  VmForm.storeLocal (.mk (.long (7#5 ++ p ++ 0#5 ++ a ++ e ++ d ++ 79#7)) p (etBytes e) a.toNat none none d.toNat) s

/-- R248: Strided vector load from the local store. -/
def execVldsLs (p : BitVec 3) (b : BitVec 5) (a : BitVec 5) (e : BitVec 3) (d : BitVec 4) (s : State) : Out :=
  VmForm.loadLocal (.mk (.long (10#5 ++ p ++ b ++ a ++ e ++ d ++ 79#7)) p (etBytes e) a.toNat (some b.toNat) none d.toNat) s

/-- R248: Strided vector store to the local store. -/
def execVstsLs (p : BitVec 3) (b : BitVec 5) (a : BitVec 5) (e : BitVec 3) (d : BitVec 4) (s : State) : Out :=
  VmForm.storeLocal (.mk (.long (11#5 ++ p ++ b ++ a ++ e ++ d ++ 79#7)) p (etBytes e) a.toNat (some b.toNat) none d.toNat) s

/-- R248: Gather load from the local store. -/
def execVldgLs (p : BitVec 3) (b : BitVec 4) (a : BitVec 5) (e : BitVec 3) (d : BitVec 4) (s : State) : Out :=
  VmForm.loadLocal (.mk (.long (8#5 ++ p ++ 0#1 ++ b ++ a ++ e ++ d ++ 79#7)) p (etBytes e) a.toNat none (some b.toNat)
    d.toNat) s

/-- R248: Scatter store to the local store. -/
def execVstgLs (p : BitVec 3) (b : BitVec 4) (a : BitVec 5) (e : BitVec 3) (d : BitVec 4) (s : State) : Out :=
  VmForm.storeLocal (.mk (.long (9#5 ++ p ++ 0#1 ++ b ++ a ++ e ++ d ++ 79#7)) p (etBytes e) a.toNat none (some b.toNat)
    d.toNat) s

end Sys2Proof.Machine
end

