-- ==== Sys2Proof/Machine/Dispatch.lean ====
section
/-!
DEFINITION. The meaning of every row of the opcode table: one direct call for each constructor.
-/

namespace Sys2Proof.Machine

open Sys2Proof

/-- What a row does to the state. -/
def exec (i : Instr) (s : State) : Host.Outcome State Fault Refusal :=
  match i with
  | .add p b a w d => Sys2Proof.Machine.execAdd p b a w d s
  | .sub p b a w d => Sys2Proof.Machine.execSub p b a w d s
  | .and p b a w d => Sys2Proof.Machine.execAnd p b a w d s
  | .or p b a w d => Sys2Proof.Machine.execOr p b a w d s
  | .xor p b a w d => Sys2Proof.Machine.execXor p b a w d s
  | .andn p b a w d => Sys2Proof.Machine.execAndn p b a w d s
  | .shl p b a w d => Sys2Proof.Machine.execShl p b a w d s
  | .shr p b a w d => Sys2Proof.Machine.execShr p b a w d s
  | .sar p b a w d => Sys2Proof.Machine.execSar p b a w d s
  | .ror p b a w d => Sys2Proof.Machine.execRor p b a w d s
  | .mul p b a w d => Sys2Proof.Machine.execMul p b a w d s
  | .mulh p b a w d => Sys2Proof.Machine.execMulh p b a w d s
  | .mulhu p b a w d => Sys2Proof.Machine.execMulhu p b a w d s
  | .div p b a w d => Sys2Proof.Machine.execDiv p b a w d s
  | .divu p b a w d => Sys2Proof.Machine.execDivu p b a w d s
  | .rem p b a w d => Sys2Proof.Machine.execRem p b a w d s
  | .remu p b a w d => Sys2Proof.Machine.execRemu p b a w d s
  | .slt p b a w d => Sys2Proof.Machine.execSlt p b a w d s
  | .sltu p b a w d => Sys2Proof.Machine.execSltu p b a w d s
  | .min p b a w d => Sys2Proof.Machine.execMin p b a w d s
  | .max p b a w d => Sys2Proof.Machine.execMax p b a w d s
  | .minu p b a w d => Sys2Proof.Machine.execMinu p b a w d s
  | .maxu p b a w d => Sys2Proof.Machine.execMaxu p b a w d s
  | .adds p b a w d => Sys2Proof.Machine.execAdds p b a w d s
  | .addsu p b a w d => Sys2Proof.Machine.execAddsu p b a w d s
  | .subs p b a w d => Sys2Proof.Machine.execSubs p b a w d s
  | .subsu p b a w d => Sys2Proof.Machine.execSubsu p b a w d s
  | .clz p a w d => Sys2Proof.Machine.execClz p a w d s
  | .ctz p a w d => Sys2Proof.Machine.execCtz p a w d s
  | .popc p a w d => Sys2Proof.Machine.execPopc p a w d s
  | .sext p a w d => Sys2Proof.Machine.execSext p a w d s
  | .zext p a w d => Sys2Proof.Machine.execZext p a w d s
  | .addi imm a d => Sys2Proof.Machine.execAddi imm a d s
  | .andi imm a d => Sys2Proof.Machine.execAndi imm a d s
  | .ori imm a d => Sys2Proof.Machine.execOri imm a d s
  | .xori imm a d => Sys2Proof.Machine.execXori imm a d s
  | .slti imm a d => Sys2Proof.Machine.execSlti imm a d s
  | .sltiu imm a d => Sys2Proof.Machine.execSltiu imm a d s
  | .shli n a d => Sys2Proof.Machine.execShli n a d s
  | .shri n a d => Sys2Proof.Machine.execShri n a d s
  | .sari n a d => Sys2Proof.Machine.execSari n a d s
  | .rori n a d => Sys2Proof.Machine.execRori n a d s
  | .muli imm a d => Sys2Proof.Machine.execMuli imm a d s
  | .ldhi imm d => Sys2Proof.Machine.execLdhi imm d s
  | .addpc imm d => Sys2Proof.Machine.execAddpc imm d s
  | .ldB imm a d => Sys2Proof.Machine.execLdB imm a d s
  | .ldH imm a d => Sys2Proof.Machine.execLdH imm a d s
  | .ldW imm a d => Sys2Proof.Machine.execLdW imm a d s
  | .ldD imm a d => Sys2Proof.Machine.execLdD imm a d s
  | .ldBu imm a d => Sys2Proof.Machine.execLdBu imm a d s
  | .ldHu imm a d => Sys2Proof.Machine.execLdHu imm a d s
  | .ldWu imm a d => Sys2Proof.Machine.execLdWu imm a d s
  | .pf imm a k => Sys2Proof.Machine.execPf imm a k s
  | .stB imm a d => Sys2Proof.Machine.execStB imm a d s
  | .stH imm a d => Sys2Proof.Machine.execStH imm a d s
  | .stW imm a d => Sys2Proof.Machine.execStW imm a d s
  | .stD imm a d => Sys2Proof.Machine.execStD imm a d s
  | .stZ imm a => Sys2Proof.Machine.execStZ imm a s
  | .ldBLs imm a d => Sys2Proof.Machine.execLdBLs imm a d s
  | .ldHLs imm a d => Sys2Proof.Machine.execLdHLs imm a d s
  | .ldWLs imm a d => Sys2Proof.Machine.execLdWLs imm a d s
  | .ldDLs imm a d => Sys2Proof.Machine.execLdDLs imm a d s
  | .stBLs imm a d => Sys2Proof.Machine.execStBLs imm a d s
  | .stHLs imm a d => Sys2Proof.Machine.execStHLs imm a d s
  | .stWLs imm a d => Sys2Proof.Machine.execStWLs imm a d s
  | .stDLs imm a d => Sys2Proof.Machine.execStDLs imm a d s
  | .amoSwap r q l b a w d => Sys2Proof.Machine.execAmoSwap r q l b a w d s
  | .amoAdd r q l b a w d => Sys2Proof.Machine.execAmoAdd r q l b a w d s
  | .amoAnd r q l b a w d => Sys2Proof.Machine.execAmoAnd r q l b a w d s
  | .amoOr r q l b a w d => Sys2Proof.Machine.execAmoOr r q l b a w d s
  | .amoXor r q l b a w d => Sys2Proof.Machine.execAmoXor r q l b a w d s
  | .amoMin r q l b a w d => Sys2Proof.Machine.execAmoMin r q l b a w d s
  | .amoMax r q l b a w d => Sys2Proof.Machine.execAmoMax r q l b a w d s
  | .amoMinu r q l b a w d => Sys2Proof.Machine.execAmoMinu r q l b a w d s
  | .amoMaxu r q l b a w d => Sys2Proof.Machine.execAmoMaxu r q l b a w d s
  | .amoCas r q l b a w d => Sys2Proof.Machine.execAmoCas r q l b a w d s
  | .amoFadd r q l b a w d => Sys2Proof.Machine.execAmoFadd r q l b a w d s
  | .amoLd r q l a w d => Sys2Proof.Machine.execAmoLd r q l a w d s
  | .amoSt r q l b a w => Sys2Proof.Machine.execAmoSt r q l b a w s
  | .fadd r b a f d => Sys2Proof.Machine.execFadd r b a f d s
  | .fsub r b a f d => Sys2Proof.Machine.execFsub r b a f d s
  | .fmul r b a f d => Sys2Proof.Machine.execFmul r b a f d s
  | .fdiv r b a f d => Sys2Proof.Machine.execFdiv r b a f d s
  | .fsqrt r a f d => Sys2Proof.Machine.execFsqrt r a f d s
  | .fmin b a f d => Sys2Proof.Machine.execFmin b a f d s
  | .fmax b a f d => Sys2Proof.Machine.execFmax b a f d s
  | .fsgnj b a f d => Sys2Proof.Machine.execFsgnj b a f d s
  | .fsgnjn b a f d => Sys2Proof.Machine.execFsgnjn b a f d s
  | .fsgnjx b a f d => Sys2Proof.Machine.execFsgnjx b a f d s
  | .feq b a f d => Sys2Proof.Machine.execFeq b a f d s
  | .flt b a f d => Sys2Proof.Machine.execFlt b a f d s
  | .fle b a f d => Sys2Proof.Machine.execFle b a f d s
  | .fclass a f d => Sys2Proof.Machine.execFclass a f d s
  | .ftoi r t a f d => Sys2Proof.Machine.execFtoi r t a f d s
  | .itof r t a f d => Sys2Proof.Machine.execItof r t a f d s
  | .fcvt r g a f d => Sys2Proof.Machine.execFcvt r g a f d s
  | .fmadd c r b a f d => Sys2Proof.Machine.execFmadd c r b a f d s
  | .fmsub c r b a f d => Sys2Proof.Machine.execFmsub c r b a f d s
  | .fnmsub c r b a f d => Sys2Proof.Machine.execFnmsub c r b a f d s
  | .fnmadd c r b a f d => Sys2Proof.Machine.execFnmadd c r b a f d s
  | .bZ o a => Sys2Proof.Machine.execBZ o a s
  | .bNz o a => Sys2Proof.Machine.execBNz o a s
  | .bLt o a => Sys2Proof.Machine.execBLt o a s
  | .bGe o a => Sys2Proof.Machine.execBGe o a s
  | .bGt o a => Sys2Proof.Machine.execBGt o a s
  | .bLe o a => Sys2Proof.Machine.execBLe o a s
  | .bOdd o a => Sys2Proof.Machine.execBOdd o a s
  | .bEven o a => Sys2Proof.Machine.execBEven o a s
  | .lpZ o a => Sys2Proof.Machine.execLpZ o a s
  | .lpNz o a => Sys2Proof.Machine.execLpNz o a s
  | .lpLt o a => Sys2Proof.Machine.execLpLt o a s
  | .lpGe o a => Sys2Proof.Machine.execLpGe o a s
  | .lpGt o a => Sys2Proof.Machine.execLpGt o a s
  | .lpLe o a => Sys2Proof.Machine.execLpLe o a s
  | .lpOdd o a => Sys2Proof.Machine.execLpOdd o a s
  | .lpEven o a => Sys2Proof.Machine.execLpEven o a s
  | .jmp o => Sys2Proof.Machine.execJmp o s
  | .call o => Sys2Proof.Machine.execCall o s
  | .jr imm a => Sys2Proof.Machine.execJr imm a s
  | .jal imm a d => Sys2Proof.Machine.execJal imm a d s
  | .callr imm a => Sys2Proof.Machine.execCallr imm a s
  | .ret => Sys2Proof.Machine.execRet s
  | .wflush => Sys2Proof.Machine.execWflush s
  | .geoStart m d => Sys2Proof.Machine.execGeoStart m d s
  | .geoLen m d => Sys2Proof.Machine.execGeoLen m d s
  | .geoEdge d => Sys2Proof.Machine.execGeoEdge d s
  | .geoCrd m d => Sys2Proof.Machine.execGeoCrd m d s
  | .widField k d => Sys2Proof.Machine.execWidField k d s
  | .widReg k a d => Sys2Proof.Machine.execWidReg k a d s
  | .xld imm a n => Sys2Proof.Machine.execXld imm a n s
  | .xli imm a n => Sys2Proof.Machine.execXli imm a n s
  | .xmv n d => Sys2Proof.Machine.execXmv n d s
  | .tsa j a d => Sys2Proof.Machine.execTsa j a d s
  | .hint h => Sys2Proof.Machine.execHint h s
  | .nop => Sys2Proof.Machine.execNop s
  | .cMove d a => Sys2Proof.Machine.execCMove d a s
  | .cAdd d a => Sys2Proof.Machine.execCAdd d a s
  | .cSub d a => Sys2Proof.Machine.execCSub d a s
  | .cAnd d a => Sys2Proof.Machine.execCAnd d a s
  | .cOr d a => Sys2Proof.Machine.execCOr d a s
  | .cXor d a => Sys2Proof.Machine.execCXor d a s
  | .cShl d a => Sys2Proof.Machine.execCShl d a s
  | .cShr d a => Sys2Proof.Machine.execCShr d a s
  | .cSar d a => Sys2Proof.Machine.execCSar d a s
  | .cMul d a => Sys2Proof.Machine.execCMul d a s
  | .cLdD d a => Sys2Proof.Machine.execCLdD d a s
  | .cStD d a => Sys2Proof.Machine.execCStD d a s
  | .cLdDLs d a => Sys2Proof.Machine.execCLdDLs d a s
  | .cStDLs d a => Sys2Proof.Machine.execCStDLs d a s
  | .cJr a => Sys2Proof.Machine.execCJr a s
  | .cRet => Sys2Proof.Machine.execCRet s
  | .cHint d a => Sys2Proof.Machine.execCHint d a s
  | .cAddiS0 d imm => Sys2Proof.Machine.execCAddiS0 d imm s
  | .cAddi d imm => Sys2Proof.Machine.execCAddi d imm s
  | .cShli d imm => Sys2Proof.Machine.execCShli d imm s
  | .cShri d imm => Sys2Proof.Machine.execCShri d imm s
  | .cSari d imm => Sys2Proof.Machine.execCSari d imm s
  | .cAndi d imm => Sys2Proof.Machine.execCAndi d imm s
  | .cLdDSp d imm => Sys2Proof.Machine.execCLdDSp d imm s
  | .cStDSp d imm => Sys2Proof.Machine.execCStDSp d imm s
  | .cJmp o => Sys2Proof.Machine.execCJmp o s
  | .cBZ a o => Sys2Proof.Machine.execCBZ a o s
  | .cBNz a o => Sys2Proof.Machine.execCBNz a o s
  | .vadd p e bs b a d => Sys2Proof.Machine.execVadd p e bs b a d s
  | .vsub p e bs b a d => Sys2Proof.Machine.execVsub p e bs b a d s
  | .vmul p e bs b a d => Sys2Proof.Machine.execVmul p e bs b a d s
  | .vmulh p e bs b a d => Sys2Proof.Machine.execVmulh p e bs b a d s
  | .vmulhu p e bs b a d => Sys2Proof.Machine.execVmulhu p e bs b a d s
  | .vadds p e bs b a d => Sys2Proof.Machine.execVadds p e bs b a d s
  | .vaddsu p e bs b a d => Sys2Proof.Machine.execVaddsu p e bs b a d s
  | .vsubs p e bs b a d => Sys2Proof.Machine.execVsubs p e bs b a d s
  | .vsubsu p e bs b a d => Sys2Proof.Machine.execVsubsu p e bs b a d s
  | .vmin p e bs b a d => Sys2Proof.Machine.execVmin p e bs b a d s
  | .vmax p e bs b a d => Sys2Proof.Machine.execVmax p e bs b a d s
  | .vminu p e bs b a d => Sys2Proof.Machine.execVminu p e bs b a d s
  | .vmaxu p e bs b a d => Sys2Proof.Machine.execVmaxu p e bs b a d s
  | .vand p e bs b a d => Sys2Proof.Machine.execVand p e bs b a d s
  | .vor p e bs b a d => Sys2Proof.Machine.execVor p e bs b a d s
  | .vxor p e bs b a d => Sys2Proof.Machine.execVxor p e bs b a d s
  | .vshl p e bs b a d => Sys2Proof.Machine.execVshl p e bs b a d s
  | .vshr p e bs b a d => Sys2Proof.Machine.execVshr p e bs b a d s
  | .vsar p e bs b a d => Sys2Proof.Machine.execVsar p e bs b a d s
  | .vabs p e a d => Sys2Proof.Machine.execVabs p e a d s
  | .vcmpeq p e bs b a d => Sys2Proof.Machine.execVcmpeq p e bs b a d s
  | .vcmplt p e bs b a d => Sys2Proof.Machine.execVcmplt p e bs b a d s
  | .vcmpltu p e bs b a d => Sys2Proof.Machine.execVcmpltu p e bs b a d s
  | .vcmple p e bs b a d => Sys2Proof.Machine.execVcmple p e bs b a d s
  | .vcmpleu p e bs b a d => Sys2Proof.Machine.execVcmpleu p e bs b a d s
  | .vtunp p k a d => Sys2Proof.Machine.execVtunp p k a d s
  | .vtdot p b a d => Sys2Proof.Machine.execVtdot p b a d s
  | .vscan p e x u o a d => Sys2Proof.Machine.execVscan p e x u o a d s
  | .vred p e k a d => Sys2Proof.Machine.execVred p e k a d s
  | .vdot4 p bs b a d => Sys2Proof.Machine.execVdot4 p bs b a d s
  | .vsel p e bs b a d => Sys2Proof.Machine.execVsel p e bs b a d s
  | .vmv p e bs b d => Sys2Proof.Machine.execVmv p e bs b d s
  | .vfadd p e bs b a d => Sys2Proof.Machine.execVfadd p e bs b a d s
  | .vfsub p e bs b a d => Sys2Proof.Machine.execVfsub p e bs b a d s
  | .vfmul p e bs b a d => Sys2Proof.Machine.execVfmul p e bs b a d s
  | .vfdiv p e bs b a d => Sys2Proof.Machine.execVfdiv p e bs b a d s
  | .vfsqrt p e a d => Sys2Proof.Machine.execVfsqrt p e a d s
  | .vfmin p e bs b a d => Sys2Proof.Machine.execVfmin p e bs b a d s
  | .vfmax p e bs b a d => Sys2Proof.Machine.execVfmax p e bs b a d s
  | .vfsgnj p e bs b a d => Sys2Proof.Machine.execVfsgnj p e bs b a d s
  | .vfsgnjn p e bs b a d => Sys2Proof.Machine.execVfsgnjn p e bs b a d s
  | .vfsgnjx p e bs b a d => Sys2Proof.Machine.execVfsgnjx p e bs b a d s
  | .vfcmpeq p e bs b a d => Sys2Proof.Machine.execVfcmpeq p e bs b a d s
  | .vfcmplt p e bs b a d => Sys2Proof.Machine.execVfcmplt p e bs b a d s
  | .vfcmple p e bs b a d => Sys2Proof.Machine.execVfcmple p e bs b a d s
  | .vcvt p bs c h t a d => Sys2Proof.Machine.execVcvt p bs c h t a d s
  | .vcvtu p bs c h t a d => Sys2Proof.Machine.execVcvtu p bs c h t a d s
  | .vperm p e bs b a d => Sys2Proof.Machine.execVperm p e bs b a d s
  | .vslide p e b a d => Sys2Proof.Machine.execVslide p e b a d s
  | .vzipLo p e b a d => Sys2Proof.Machine.execVzipLo p e b a d s
  | .vzipHi p e b a d => Sys2Proof.Machine.execVzipHi p e b a d s
  | .vunzipEv p e b a d => Sys2Proof.Machine.execVunzipEv p e b a d s
  | .vunzipOd p e b a d => Sys2Proof.Machine.execVunzipOd p e b a d s
  | .vcompress p e a d => Sys2Proof.Machine.execVcompress p e a d s
  | .vext e b a d => Sys2Proof.Machine.execVext e b a d s
  | .pand b a d => Sys2Proof.Machine.execPand b a d s
  | .por b a d => Sys2Proof.Machine.execPor b a d s
  | .pxor b a d => Sys2Proof.Machine.execPxor b a d s
  | .pandn b a d => Sys2Proof.Machine.execPandn b a d s
  | .pnot a d => Sys2Proof.Machine.execPnot a d s
  | .ppop e a d => Sys2Proof.Machine.execPpop e a d s
  | .pmvToPred b d => Sys2Proof.Machine.execPmvToPred b d s
  | .pmvFromPred a d => Sys2Proof.Machine.execPmvFromPred a d s
  | .pwhile e b d => Sys2Proof.Machine.execPwhile e b d s
  | .vfmadd r p c b f a d => Sys2Proof.Machine.execVfmadd r p c b f a d s
  | .vfmsub r p c b f a d => Sys2Proof.Machine.execVfmsub r p c b f a d s
  | .vfnmsub r p c b f a d => Sys2Proof.Machine.execVfnmsub r p c b f a d s
  | .vfnmadd r p c b f a d => Sys2Proof.Machine.execVfnmadd r p c b f a d s
  | .vld p a e d => Sys2Proof.Machine.execVld p a e d s
  | .vst p a e d => Sys2Proof.Machine.execVst p a e d s
  | .vlds p b a e d => Sys2Proof.Machine.execVlds p b a e d s
  | .vsts p b a e d => Sys2Proof.Machine.execVsts p b a e d s
  | .vldg p b a e d => Sys2Proof.Machine.execVldg p b a e d s
  | .vstg p b a e d => Sys2Proof.Machine.execVstg p b a e d s
  | .vldLs p a e d => Sys2Proof.Machine.execVldLs p a e d s
  | .vstLs p a e d => Sys2Proof.Machine.execVstLs p a e d s
  | .vldgLs p b a e d => Sys2Proof.Machine.execVldgLs p b a e d s
  | .vstgLs p b a e d => Sys2Proof.Machine.execVstgLs p b a e d s
  | .vldsLs p b a e d => Sys2Proof.Machine.execVldsLs p b a e d s
  | .vstsLs p b a e d => Sys2Proof.Machine.execVstsLs p b a e d s
  | .mgeo b a => Sys2Proof.Machine.execMgeo b a s
  | .mwfmt x => Sys2Proof.Machine.execMwfmt x s
  | .mwld a => Sys2Proof.Machine.execMwld a s
  | .macc x b a d => Sys2Proof.Machine.execMacc x b a d s
  | .mzero d => Sys2Proof.Machine.execMzero d s
  | .mst x b a d => Sys2Proof.Machine.execMst x b a d s
  | .mld x b a d => Sys2Proof.Machine.execMld x b a d s
  | .mscl x a d => Sys2Proof.Machine.execMscl x a d s
  | .mbias x a d => Sys2Proof.Machine.execMbias x a d s
  | .mmv a d => Sys2Proof.Machine.execMmv a d s
  | .cpy b a m d => Sys2Proof.Machine.execCpy b a m d s
  | .cpy2d x b a m d => Sys2Proof.Machine.execCpy2d x b a m d s
  | .deal b a d => Sys2Proof.Machine.execDeal b a d s
  | .cpyw x a d => Sys2Proof.Machine.execCpyw x a d s
  | .cpyz x b a m d => Sys2Proof.Machine.execCpyz x b a m d s
  | .cpyc x b a d => Sys2Proof.Machine.execCpyc x b a d s
  | .cpyset b a m d => Sys2Proof.Machine.execCpyset b a m d s
  | .mergeAdd x z imm d => Sys2Proof.Machine.execMergeAdd x z imm d s
  | .mergeMax x z imm d => Sys2Proof.Machine.execMergeMax x z imm d s
  | .mergeMin x z imm d => Sys2Proof.Machine.execMergeMin x z imm d s
  | .mergeSub x z imm d => Sys2Proof.Machine.execMergeSub x z imm d s
  | .isectMul x z imm d => Sys2Proof.Machine.execIsectMul x z imm d s
  | .isectMin x z imm d => Sys2Proof.Machine.execIsectMin x z imm d s
  | .isectMax x z imm d => Sys2Proof.Machine.execIsectMax x z imm d s
  | .isectFirst x z imm d => Sys2Proof.Machine.execIsectFirst x z imm d s
  | .condense x imm a d => Sys2Proof.Machine.execCondense x imm a d s
  | .expand x imm d => Sys2Proof.Machine.execExpand x imm d s
  | .topkMax x imm a d => Sys2Proof.Machine.execTopkMax x imm a d s
  | .topkMin x imm a d => Sys2Proof.Machine.execTopkMin x imm a d s
  | .ksortK32 x t bs d => Sys2Proof.Machine.execKsortK32 x t bs d s
  | .ksortK64 x t bs d => Sys2Proof.Machine.execKsortK64 x t bs d s
  | .nvsub x a d => Sys2Proof.Machine.execNvsub x a d s
  | .nvpoll a d => Sys2Proof.Machine.execNvpoll a d s
  | .nvcfg a d => Sys2Proof.Machine.execNvcfg a d s
  | .kclaim b a n => Sys2Proof.Machine.execKclaim b a n s
  | .krel => Sys2Proof.Machine.execKrel s
  | .kins b a d => Sys2Proof.Machine.execKins b a d s
  | .kinsV64 x b a d => Sys2Proof.Machine.execKinsV64 x b a d s
  | .kinsV32 x b a d => Sys2Proof.Machine.execKinsV32 x b a d s
  | .kprb f a d => Sys2Proof.Machine.execKprb f a d s
  | .kprbV64 x f a d => Sys2Proof.Machine.execKprbV64 x f a d s
  | .kprbV32 x f a d => Sys2Proof.Machine.execKprbV32 x f a d s
  | .kdel a d => Sys2Proof.Machine.execKdel a d s
  | .kdelV64 x a d => Sys2Proof.Machine.execKdelV64 x a d s
  | .kdelV32 x a d => Sys2Proof.Machine.execKdelV32 x a d s
  | .kaccAdd b a d => Sys2Proof.Machine.execKaccAdd b a d s
  | .kaccAddV64 x b a d => Sys2Proof.Machine.execKaccAddV64 x b a d s
  | .kaccAddV32 x b a d => Sys2Proof.Machine.execKaccAddV32 x b a d s
  | .kaccMin b a d => Sys2Proof.Machine.execKaccMin b a d s
  | .kaccMinV64 x b a d => Sys2Proof.Machine.execKaccMinV64 x b a d s
  | .kaccMinV32 x b a d => Sys2Proof.Machine.execKaccMinV32 x b a d s
  | .kaccMax b a d => Sys2Proof.Machine.execKaccMax b a d s
  | .kaccMaxV64 x b a d => Sys2Proof.Machine.execKaccMaxV64 x b a d s
  | .kaccMaxV32 x b a d => Sys2Proof.Machine.execKaccMaxV32 x b a d s
  | .kaccFadd b a d => Sys2Proof.Machine.execKaccFadd b a d s
  | .kaccFaddV64 x b a d => Sys2Proof.Machine.execKaccFaddV64 x b a d s
  | .kdrain c b a m => Sys2Proof.Machine.execKdrain c b a m s
  | .kdrains bs c b a m => Sys2Proof.Machine.execKdrains bs c b a m s
  | .kstat bs d => Sys2Proof.Machine.execKstat bs d s
  | .spawn b a d => Sys2Proof.Machine.execSpawn b a d s
  | .spawnAt b a d => Sys2Proof.Machine.execSpawnAt b a d s
  | .await a => Sys2Proof.Machine.execAwait a s
  | .quit => Sys2Proof.Machine.execQuit s
  | .wfw => Sys2Proof.Machine.execWfw s
  | .yield => Sys2Proof.Machine.execYield s
  | .txsub b a d => Sys2Proof.Machine.execTxsub b a d s
  | .txrecon b a d => Sys2Proof.Machine.execTxrecon b a d s
  | .txchk => Sys2Proof.Machine.execTxchk s
  | .sendLo a d => Sys2Proof.Machine.execSendLo a d s
  | .sendHi a d => Sys2Proof.Machine.execSendHi a d s
  | .recv d => Sys2Proof.Machine.execRecv d s
  | .waitm => Sys2Proof.Machine.execWaitm s
  | .waitmHi => Sys2Proof.Machine.execWaitmHi s
  | .menter a => Sys2Proof.Machine.execMenter a s
  | .mexit a => Sys2Proof.Machine.execMexit a s
  | .barCfg n a => Sys2Proof.Machine.execBarCfg n a s
  | .barArrive n d => Sys2Proof.Machine.execBarArrive n d s
  | .barWait n a => Sys2Proof.Machine.execBarWait n a s
  | .qcfg a => Sys2Proof.Machine.execQcfg a s
  | .qmapOff => Sys2Proof.Machine.execQmapOff s
  | .qmapOn => Sys2Proof.Machine.execQmapOn s
  | .wait t c bs l => Sys2Proof.Machine.execWait t c bs l s
  | .qfence q => Sys2Proof.Machine.execQfence q s
  | .l1wb => Sys2Proof.Machine.execL1wb s
  | .l1wbL a => Sys2Proof.Machine.execL1wbL a s
  | .l1inv => Sys2Proof.Machine.execL1inv s
  | .l1invL a => Sys2Proof.Machine.execL1invL a s
  | .epoch => Sys2Proof.Machine.execEpoch s
  | .trap n => Sys2Proof.Machine.execTrap n s
  | .sysret => Sys2Proof.Machine.execSysret s
  | .mfs n d => Sys2Proof.Machine.execMfs n d s
  | .mfsE n d => Sys2Proof.Machine.execMfsE n d s
  | .mts n a => Sys2Proof.Machine.execMts n a s
  | .mtsE n a => Sys2Proof.Machine.execMtsE n a s
  | .bkpt n => Sys2Proof.Machine.execBkpt n s
  | .halt => Sys2Proof.Machine.execHalt s
  | .tlbw a => Sys2Proof.Machine.execTlbw a s
  | .tlbi a => Sys2Proof.Machine.execTlbi a s
  | .tlbiAll => Sys2Proof.Machine.execTlbiAll s
  | .launchHeaderWrite hdr => Sys2Proof.Machine.execLaunchHeaderWrite hdr s
  | .shapeRecordWrite shape => Sys2Proof.Machine.execShapeRecordWrite shape s
  | .launchHeaderCheck => Sys2Proof.Machine.execLaunchHeaderCheck s
  | .launchStart => Sys2Proof.Machine.execLaunchStart s
  | .reportRecordWrite => Sys2Proof.Machine.execReportRecordWrite s
  | .lrheadWrite v => Sys2Proof.Machine.execLrheadWrite v s
  | .lrbaseWrite v => Sys2Proof.Machine.execLrbaseWrite v s
  | .shwinWrite v => Sys2Proof.Machine.execShwinWrite v s
  | .hwbaseWrite v => Sys2Proof.Machine.execHwbaseWrite v s
  | .preemptRequest v => Sys2Proof.Machine.execPreemptRequest v s
  | .preemptComplete => Sys2Proof.Machine.execPreemptComplete s
  | .resumeRequest v => Sys2Proof.Machine.execResumeRequest v s
  | .resumeComplete => Sys2Proof.Machine.execResumeComplete s
  | .fwreqBootDoorbell tag => Sys2Proof.Machine.execFwreqBootDoorbell tag s
  | .fwreqInvalidate tag va len => Sys2Proof.Machine.execFwreqInvalidate tag va len s
  | .fwreqAttestationQuote tag nonceAt resultAt => Sys2Proof.Machine.execFwreqAttestationQuote tag nonceAt resultAt s
  | .fwreqAdminCommand tag cmdAt ctl completion => Sys2Proof.Machine.execFwreqAdminCommand tag cmdAt ctl completion s
  | .fwreqIdentityKey tag resultAt => Sys2Proof.Machine.execFwreqIdentityKey tag resultAt s
  | .fwreqTripLog tag resultAt => Sys2Proof.Machine.execFwreqTripLog tag resultAt s
  | .fwreqUnfreeze tag which => Sys2Proof.Machine.execFwreqUnfreeze tag which s
  | .fwreqUnknownOp tag op => Sys2Proof.Machine.execFwreqUnknownOp tag op s
  | .firmwareRequestDone => Sys2Proof.Machine.execFirmwareRequestDone s
  | .tsctlLoad index => Sys2Proof.Machine.execTsctlLoad index s
  | .tsDescriptorLoad => Sys2Proof.Machine.execTsDescriptorLoad s
  | .accessTableWrite master t e part v => Sys2Proof.Machine.execAccessTableWrite master t e part v s
  | .atctlEnfSet master => Sys2Proof.Machine.execAtctlEnfSet master s
  | .atctlHlSet master => Sys2Proof.Machine.execAtctlHlSet master s
  | .swgateConsent master => Sys2Proof.Machine.execSwgateConsent master s
  | .swgateClear master => Sys2Proof.Machine.execSwgateClear master s
  | .mcmdCool => Sys2Proof.Machine.execMcmdCool s
  | .mcmdWarm => Sys2Proof.Machine.execMcmdWarm s
  | .dbgresResume v => Sys2Proof.Machine.execDbgresResume v s
  | .hwLimitWrite master off v => Sys2Proof.Machine.execHwLimitWrite master off v s
  | .hrtcWrite h v => Sys2Proof.Machine.execHrtcWrite h v s
  | .controlRegisterWrite master off size v => Sys2Proof.Machine.execControlRegisterWrite master off size v s
  | .dispenserPlace cluster => Sys2Proof.Machine.execDispenserPlace cluster s
  | .runListResume site slot => Sys2Proof.Machine.execRunListResume site slot s
  | .dequePop site slot => Sys2Proof.Machine.execDequePop site slot s
  | .stealAttempt site => Sys2Proof.Machine.execStealAttempt site s
  | .stealRequestServe k => Sys2Proof.Machine.execStealRequestServe k s
  | .stealReply k => Sys2Proof.Machine.execStealReply k s
  | .joinDecrement k => Sys2Proof.Machine.execJoinDecrement k s
  | .awaitRetry site slot => Sys2Proof.Machine.execAwaitRetry site slot s
  | .spawnAtArrival k => Sys2Proof.Machine.execSpawnAtArrival k s
  | .spawnAtReturn k => Sys2Proof.Machine.execSpawnAtReturn k s
  | .messageDelivery k => Sys2Proof.Machine.execMessageDelivery k s
  | .bounceReturn k => Sys2Proof.Machine.execBounceReturn k s
  | .evictedContextReload cluster => Sys2Proof.Machine.execEvictedContextReload cluster s
  | .barrierArrival k => Sys2Proof.Machine.execBarrierArrival k s
  | .scarabNumbering => Sys2Proof.Machine.execScarabNumbering s
  | .batchSeal => Sys2Proof.Machine.execBatchSeal s
  | .frameAssignment cluster => Sys2Proof.Machine.execFrameAssignment cluster s
  | .lockRequestArrival k => Sys2Proof.Machine.execLockRequestArrival k s
  | .sealArrival k => Sys2Proof.Machine.execSealArrival k s
  | .sealOverdue h => Sys2Proof.Machine.execSealOverdue h s
  | .frameNoticeArrival k => Sys2Proof.Machine.execFrameNoticeArrival k s
  | .grantLanding k => Sys2Proof.Machine.execGrantLanding k s
  | .transactionDispatch cluster => Sys2Proof.Machine.execTransactionDispatch cluster s
  | .commitSegmentArrival k => Sys2Proof.Machine.execCommitSegmentArrival k s
  | .tileRelease k => Sys2Proof.Machine.execTileRelease k s
  | .transactionFrameFree k => Sys2Proof.Machine.execTransactionFrameFree k s
  | .lineFill k => Sys2Proof.Machine.execLineFill k s
  | .loadResponse k => Sys2Proof.Machine.execLoadResponse k s
  | .homeAccess k => Sys2Proof.Machine.execHomeAccess k s
  | .writebackArrival k => Sys2Proof.Machine.execWritebackArrival k s
  | .acknowledgementArrival k => Sys2Proof.Machine.execAcknowledgementArrival k s
  | .homeAtomic k => Sys2Proof.Machine.execHomeAtomic k s
  | .atomicResult k => Sys2Proof.Machine.execAtomicResult k s
  | .windowAccessArrival k => Sys2Proof.Machine.execWindowAccessArrival k s
  | .walkRequest cluster => Sys2Proof.Machine.execWalkRequest cluster s
  | .walkTimeout cluster => Sys2Proof.Machine.execWalkTimeout cluster s
  | .accessRefusalResponse k => Sys2Proof.Machine.execAccessRefusalResponse k s
  | .patrolScrub line bad => Sys2Proof.Machine.execPatrolScrub line bad s
  | .dramRefresh h => Sys2Proof.Machine.execDramRefresh h s
  | .correctedErrorReport cluster code at_ => Sys2Proof.Machine.execCorrectedErrorReport cluster code at_ s
  | .engineOpBegin site q k => Sys2Proof.Machine.execEngineOpBegin site q k s
  | .drainReadPhase site => Sys2Proof.Machine.execDrainReadPhase site s
  | .engineOpPerformed site q k => Sys2Proof.Machine.execEngineOpPerformed site q k s
  | .engineHandback site q k => Sys2Proof.Machine.execEngineHandback site q k s
  | .handbackTrap site slot => Sys2Proof.Machine.execHandbackTrap site slot s
  | .trapEntry site slot => Sys2Proof.Machine.execTrapEntry site slot s
  | .threadFailure site slot => Sys2Proof.Machine.execThreadFailure site slot s
  | .pairCompare site slot => Sys2Proof.Machine.execPairCompare site slot s
  | .queueStallWatchdog site => Sys2Proof.Machine.execQueueStallWatchdog site s
  | .errorRecordWrite cluster => Sys2Proof.Machine.execErrorRecordWrite cluster s
  | .errorQueueHeadPoll cluster => Sys2Proof.Machine.execErrorQueueHeadPoll cluster s
  | .powerOn readings => Sys2Proof.Machine.execPowerOn readings s
  | .powerLoss => Sys2Proof.Machine.execPowerLoss s
  | .unitPowerUp => Sys2Proof.Machine.execUnitPowerUp s
  | .sensorSample readings => Sys2Proof.Machine.execSensorSample readings s
  | .bandFallTimer => Sys2Proof.Machine.execBandFallTimer s
  | .clockRestart => Sys2Proof.Machine.execClockRestart s
  | .moltTransition => Sys2Proof.Machine.execMoltTransition s
  | .soakComplete failedStack => Sys2Proof.Machine.execSoakComplete failedStack s
  | .moltLimitExpiry => Sys2Proof.Machine.execMoltLimitExpiry s
  | .governorTick site n => Sys2Proof.Machine.execGovernorTick site n s
  | .ulisilFlitCrcError replays => Sys2Proof.Machine.execUlisilFlitCrcError replays s
  | .ulisilRetrainEnd goodFlits => Sys2Proof.Machine.execUlisilRetrainEnd goodFlits s
  | .ulisilUpAttempt works => Sys2Proof.Machine.execUlisilUpAttempt works s
  | .companionWrite at_ data => Sys2Proof.Machine.execCompanionWrite at_ data s
  | .companionRead at_ size => Sys2Proof.Machine.execCompanionRead at_ size s
  | .meshFlitError k retries header => Sys2Proof.Machine.execMeshFlitError k retries header s
  | .fabricLaneFailure link lane => Sys2Proof.Machine.execFabricLaneFailure link lane s
  | .fabricRetrainEnd link => Sys2Proof.Machine.execFabricRetrainEnd link s
  | .fabricLaneTest link good => Sys2Proof.Machine.execFabricLaneTest link good s
  | .fabricFlitError link k header => Sys2Proof.Machine.execFabricFlitError link k header s
  | .fabricFlowTimeout k => Sys2Proof.Machine.execFabricFlowTimeout k s
  | .scaleoutEvent port isQp qp syndrome newState => Sys2Proof.Machine.execScaleoutEvent port isQp qp syndrome newState s
  | .rdmaInbound write bad at_ data => Sys2Proof.Machine.execRdmaInbound write bad at_ data s
  | .nvmeCompletion qp tag status dw0 data bad => Sys2Proof.Machine.execNvmeCompletion qp tag status dw0 data bad s
  | .storageCompletionDelivery k => Sys2Proof.Machine.execStorageCompletionDelivery k s
  | .nvmeCommandTimeout k => Sys2Proof.Machine.execNvmeCommandTimeout k s
  | .nvmeControllerLost ctl hierarchy => Sys2Proof.Machine.execNvmeControllerLost ctl hierarchy s
  | .illegalInstruction w half => Sys2Proof.Machine.execIllegalInstruction w half s
  | .instructionFetchFault va why => Sys2Proof.Machine.execInstructionFetchFault va why s
  | .localStoreBankService site slot => Sys2Proof.Machine.execLocalStoreBankService site slot s
  | .fabricLinkUp link lanes peer plink => Sys2Proof.Machine.execFabricLinkUp link lanes peer plink s
  | .packagePowerCap above => Sys2Proof.Machine.execPackagePowerCap above s
  | .packageReset readings => Sys2Proof.Machine.execPackageReset readings s

end Sys2Proof.Machine
end

