-- ==== Sys2Proof/Machine/Outside.lean ====
section
/-!
DEFINITION. What happens besides instructions and the events of the opcode table: errors in the structures of the part (R405, R406,
R409, R411, R425, R429), pieces that an engine moves before its turn (R130, R131), storage controllers that come back (R437), the other packages of a pod (R79 to R82, R86) and
their accesses (R331), and poisoned payloads of the Ulisil link (R431, R432).
-/

namespace Sys2Proof.Machine

open Sys2Proof

/-! ## Errors in structures (R405, R406, R429) -/

/-- The special registers of a thread, which have parity (R185, R405). -/
def threadSprs : List Nat := [0x010, 0x011, 0x012, 0x013, 0x014, 0x015, 0x016, 0x017, 0x018, 0x019, 0x081, 0x082, 0x083]

/-- The register that an error names: s0, s31 and p0 are no storage (R178). -/
def errorReg (file num : Nat) : Option RegName :=
  match file with
  | 0 => if 0 < num ∧ num < 31 then some (.s num) else none
  | 1 => if num < 16 then some (.v num) else none
  | 2 => if 0 < num ∧ num < 8 then some (.p num) else none
  | 3 => if num < 8 then some (.e num) else none
  | _ => if threadSprs.contains num then some (.spr num) else none

/-- The kind 17 record of an error: it names the thread that read it, or for which an engine did; without one it goes to a cluster's queue
(R413, R429). -/
def State.errorFound (s : State) (n i k code found : Nat) (at_ : Word) : State :=
  let t := s.thread n i
  if t.busyTask && (found == 1 || found == 2 || found == 4) then s.reportThread n i 17 code t.pc at_ (BitVec.ofNat 64 found)
  else s.record k (bareRec 17 code at_ (BitVec.ofNat 64 found))

/-- A register fails its parity: the thread fails when it reads it (R405, R407). -/
def State.registerError (s : State) (n i : Nat) (r : RegName) : State :=
  let t := s.thread n i
  if t.busyTask then (s.setThread n i { t with regBad := t.regBad ++ [t.abs r] }).errorFound n i (clusterOf n) 1 1 0 else s

/-- An uncorrectable error in a granule of the L1: dirty bytes are poisoned; clean ones are fetched again, and counted (R405). -/
def State.l1Error (s : State) (n i pa : Nat) (writeback : Bool) : State :=
  match (s.core n).line (pa / 64 * 64) with
  | none => s
  | some l =>
    let g := pa % 64 / 8
    let mask : BitVec 64 := BitVec.ofNat 64 (0xFF * 2 ^ (8 * g))
    let at_ := BitVec.ofNat 64 (pa / 8 * 8)
    if l.dirty &&& mask = 0 then
      (s.setCore n ((s.core n).setLine { l with valid := l.valid &&& ~~~mask })).countCorrected 2 n 1 at_
    else
      (s.setCore n ((s.core n).setLine { l with bad := l.bad ||| BitVec.ofNat 8 (2 ^ g) })).errorFound n i (clusterOf n) 2
        (if writeback then 5 else 1) at_

/-- An uncorrectable error in a granule of a local store (R405). -/
def State.localError (s : State) (n i g found : Nat) : State :=
  if 0x10000 ≤ g ∨ ¬ [1, 2, 5, 6].contains found then s
  else (s.setCore n { s.core n with lsBad := addBad (s.core n).lsBad [g] }).errorFound n i (clusterOf n) 3 found (BitVec.ofNat 64 (8 * g))

/-- The granules of a DRAM codeword (R406). -/
def State.codeword (s : State) (pa : Nat) : List Nat := (List.range 4).map (fun j => s.dramKey pa / 32 * 4 + j)

/-- An uncorrectable error at a home: a granule of its cache, or a codeword of DRAM (R405, R406, R413). -/
def State.homeError (s : State) (dram : Bool) (pa found n i : Nat) : State :=
  if !inDram (pa / 8 * 8) 8 || decide (pa / 2 ^ 40 % 256 ≠ s.scarab.pidx) || !([1, 2, 4, 5, 6].contains found) then s
  else
    let bad := if dram then s.codeword pa else [s.dramKey pa / 8]
    let s := { s with dramBad := addBad s.dramBad bad }
    let code := 4 + b2n dram
    let at_ := BitVec.ofNat 64 (pa / 8 * 8 % 2 ^ 48)
    s.errorFound n i (homeCluster (homeOf (pa % 2 ^ 40))) code found at_

/-- A line of a home cache goes to DRAM and comes back: a codeword with a poisoned granule comes back with four (R406). -/
def State.homeEvict (s : State) (pa : Nat) : State :=
  if (s.codeword pa).any s.dramBad.contains then { s with dramBad := addBad s.dramBad (s.codeword pa) } else s

/-- An uncorrectable error in a lock manager: the tile, or every tile of the home, is broken, with one kind 25 record (R425). -/
def State.lockError (s : State) (h : Nat) (tile : Option (Nat × Nat)) : State :=
  let x := s.home h
  if 256 ≤ h then s
  else
    match tile with
    | some (sp, i) =>
      if x.broken.contains (sp, i) || x.allBroken then s
      else (s.setHome h { x with broken := x.broken ++ [(sp, i)] }).record (homeCluster h)
        (bareRec 25 1 (BitVec.ofNat 64 (i % 2 ^ 48 + sp % 256 * 2 ^ 48)) (BitVec.ofNat 64 h))
    | none =>
      if x.allBroken then s
      else (s.setHome h { x with allBroken := true }).record (homeCluster h) (bareRec 25 2 0 (BitVec.ofNat 64 h))

/-! ## The other packages of a pod (R79 to R82) -/

/-- A sequence number of another package. -/
def State.foreign (s : State) (seq : Nat) : Bool := decide (seqPkg seq ≠ s.scarab.pidx)

/-- Another package enrols with a home (R79). -/
def State.podEnrol (s : State) (h pkg b : Nat) : State :=
  let x := s.home h
  if pkg = s.scarab.pidx ∨ x.enrolled.any (fun e => decide (e.1 = pkg)) = true then s
  else s.setHome h { x with enrolled := x.enrolled ++ [(pkg, b)] }

/-- A seal of another package reaches a home (R80, R423). -/
def State.podSeal (s : State) (h pkg b : Nat) : State := if pkg = s.scarab.pidx then s else s.sealReaches h pkg b

/-- A request of another package reaches a home, in the order of its channel (R81, R422). -/
def State.podRequest (s : State) (h : Nat) (r : LockReq) : State :=
  let x := s.home h
  if !s.foreign r.seq || decide (16384 ≤ x.reqs.length + x.early.length) then s else s.requestReaches h r

/-- A frame notice of another package reaches a home (R82). -/
def State.podNotice (s : State) (h seq : Nat) : State :=
  if s.foreign seq then (s.setHome h { s.home h with notices := (s.home h).notices ++ [seq] }).serveHome h else s

/-- Another package's transaction releases a tile (R86). -/
def State.podRelease (s : State) (seq entry : Nat) : State := if s.foreign seq then s.releaseTile seq entry else s

/-! ## Accesses (R331, R432) -/

/-- An access of a peer package as master 5; an atomic is a write of the bytes that it leaves, under its own permission (R331, R333). -/
def State.peerAccess (s : State) (acc pa : Nat) (data : List Byte) : State :=
  if data.isEmpty then s
  else if acc = 0 then s.outsideRead 5 pa data.length
  else if acc = 1 then s.outsideWrite 5 pa data false
  else
    match s.outsideTarget 5 pa data.length 2 with
    | none => s
    | some t =>
      match s.portWrite t 5 pa (data.map some) [] 1 s.outsider with
      | .done s' => s'.bump
      | _ => s

/-- A write of the companion arrives with its poison bit set: its granules are poisoned, with a kind 17 record (R431, R432). -/
def State.poisonedWrite (s : State) (pa : Nat) (data : List Byte) : State :=
  if !s.companionMay pa || data.isEmpty || (s.outsideTarget 4 pa data.length 1).isNone then s
  else (s.outsideWrite 4 pa data true).edgeRec false 17 11 (BitVec.ofNat 64 (pa % 2 ^ 48)) (Config.freeWord s.tick 0)

/-- A write of a peer package arrives with its payload poisoned by a link that is up: its granules are poisoned (R406, R431, R439). -/
def State.poisonedPeer (s : State) (l pa : Nat) (data : List Byte) : State :=
  if 18 ≤ l ∨ (s.link l).st ≠ 2 ∨ data.isEmpty ∨ (s.outsideTarget 5 pa data.length 1).isNone then s
  else (s.outsideWrite 5 pa data true).edgeRec (decide (9 ≤ l)) 17 12 (BitVec.ofNat 64 (pa % 2 ^ 48)) (Config.freeWord s.tick 0)

/-- The data of a read of the host window arrives with its poison bit set (R432). -/
def State.poisonedRead (s : State) (k : Nat) : State :=
  match s.flights[k]? with
  | some f => if s.leaves f = false ∧ regionOf (f.pa % 2 ^ 40) = some 5002 then s.poisonPayload 11 0 k else s
  | none => s

/-- What an outside turn does (log entry 26). -/
def State.outside (s : State) (x : Outside) : State :=
  if !s.alive then s
  else
    match x with
    | .registerError n i file num => match errorReg file num with | some r => s.registerError n i r | none => s
    | .l1Error n i pa wb => s.l1Error n i pa wb
    | .localError n i g found => s.localError n i g found
    | .homeError dram pa found n i => s.homeError dram pa found n i
    | .weightError n i g =>
      (s.setCore n { s.core n with wsBad := addBad (s.core n).wsBad [g] }).errorFound n i (clusterOf n) 6 2 (BitVec.ofNat 64 (8 * g))
    | .accumulatorError n i w =>
      (s.setCore n { s.core n with accBad := addBad (s.core n).accBad [w] }).errorFound n i (clusterOf n) 7 2 (BitVec.ofNat 64 w)
    | .lockError h t => s.lockError h t
    | .scarabError u => s.enterFatal 2 u
    | .saveError n => s.setCore n { s.core n with saveBad := true }
    | .homeEvict pa => s.homeEvict pa
    | .corrected code unit count at_ => s.countCorrected code unit count at_
    | .podEnrol h pkg b => s.podEnrol h pkg b
    | .podSeal h pkg b => s.podSeal h pkg b
    | .podRequest h seq entry space tile mode =>
      s.podRequest h { seq := seq, entry := entry, space := space, tile := tile, mode := mode, granted := false, sent := false }
    | .podNotice h seq => s.podNotice h seq
    | .podRelease seq entry => s.podRelease seq entry
    | .peerAccess acc pa data => s.peerAccess acc pa data
    | .engineRead n q k off delta code => s.earlyRead n q k off delta code
    | .engineWrite n k off delta code => s.earlyWrite n k off delta code
    | .engineLate n q k => s.opLate n q k
    | .slotLate n i => if (s.thread n i).busyTask then s.setThread n i { s.thread n i with late := some (s.thread n i).pc } else s
    | .slotPayload n i code => if (s.thread n i).busyTask then s.setThread n i { s.thread n i with linkBad := some code } else s
    | .controllerBack ctl q => s.controllerBack (ctl % 16) q
    | .poisonedWrite pa data => s.poisonedWrite pa data
    | .poisonedPeer l pa data => s.poisonedPeer l pa data
    | .poisonedRead k => s.poisonedRead k

end Sys2Proof.Machine
end

