-- ==== Sys2Proof/Machine/Step.lean ====
section
/-!
DEFINITION. One step of the machine: the cycle of one core, one event of another agent, or an error or an access from outside, as the
schedule gives (log entry 1).
-/

namespace Sys2Proof.Machine

open Sys2Proof

/-- The row is a part of a core's own cycle, which the schedule does not give alone. -/
def atIssue : Instr → Bool
  | .illegalInstruction _ _ => true
  | .instructionFetchFault _ _ => true
  | .trapEntry _ _ => true
  | .handbackTrap _ _ => true
  | _ => false

/-- The instruction that the issuing thread's PC holds: fetched, decoded and executed; a word that no row assigns is illegal. -/
noncomputable def issueWord (s : State) : Out :=
  match s.fetch with
  | .error r => .next (s.fetchStop r)
  | .ok (c, s) =>
    match decode c.toBytes with
    | .ok (i, _, _) => exec i s
    | .error _ => execIllegalInstruction c.bits (decide (c.bytes = 2)) s

/-- The issuing slot's cycle, by the state of its thread; a trap that is due waits for the first slot in which the thread would issue (R248,
R361). -/
noncomputable def slotCycle (s : State) : Out :=
  match s.th.run with
  | .trapped => execTrapEntry s.cur.1 s.cur.2 s
  | .running =>
    if 0 < s.th.busy then .next (s.setTh { s.th with busy := s.th.busy - 1 })
    else if s.th.interruptible && !s.th.due.isEmpty then execHandbackTrap s.cur.1 s.cur.2 s
    else issueWord s
  | .stalled => if s.th.interruptible && !s.th.due.isEmpty then execHandbackTrap s.cur.1 s.cur.2 s else issueWord s
  | _ => .next s

/-- What follows the slot's part of a cycle: the watchdog and the cycle counter. -/
def afterSlot (n : Nat) (o : Out) : Out :=
  match o with
  | .next s => .next ((s.watch n).endCycle n)
  | .fault r => .fault r
  | .refused r => .refused r

/-- One cycle of a core: the slot of the cycle issues (R31, R32). A core without a clock has no cycle, a pre-empted one issues nothing
(R66), and the boot program waits until the image has been verified (R343). -/
noncomputable def coreCycle (n : Nat) (s : State) : Out :=
  if !s.clocked n then .next s
  else if (s.core n).pre || (s.site && !s.booted) then .next (s.endCycle n)
  else afterSlot n (slotCycle { s with cur := (n, s.slotOf n) })

/-- The turn that the schedule gives next, and the state without it. -/
def State.nextTurn (s : State) : Turn × State :=
  match s.turns with
  | t :: ts => (t, { s with turns := ts })
  | [] => (Config.nextTurn s.tick, s.bump)

/-- One step: the turn given next; an error of the part, or what comes from outside, has no row of the table (log entry 26). -/
noncomputable def step (s : State) : Host.Outcome State Fault Refusal :=
  match s.nextTurn with
  | (.core n, s') => coreCycle n s'
  | (.outside x, s') => .next (s'.outside x)
  | (.event i, s') => if i.isWord || atIssue i then .next s' else exec i s'

/-- The state with an instruction's bits at the place where the next step fetches: the boot core's slot is given the next turn, its
cluster is powered, the image counts as verified, and the bytes stand in DRAM at its PC (log entry 6). -/
def State.withFetchWord (s : State) (nbits w : Nat) : State :=
  let n := bootSite s.fused
  { s with turns := .core n :: s.turns, powered := 136, booted := true
           dram := memWrite (s.thread n (s.slotOf n)).pc.toNat (leBytes 4 (w % 2 ^ nbits)) s.dram }

end Sys2Proof.Machine
end

