-- ==== Sys2Proof/Safety.lean ====
section
/-!
DEFINITION. The terms that claims use: an outcome that goes on, states whose memories are in their canonical form, and a thread
whose next word issues without waiting for anything (R34, R91, R383).
-/

namespace Sys2Proof.Machine

open Sys2Proof

/-- The machine goes on. -/
def Out.goesOn : Out → Bool
  | .next _ => true
  | .fault _ => false
  | .refused _ => false

/-- The memories of a core are in their canonical form. -/
def Core.memWf (c : Core) : Bool := Memory.wf c.ls && Memory.wf c.ws

/-- Every byte memory of the machine is in its canonical form. -/
def State.memWf (s : State) : Bool := Memory.wf s.dram && Memory.wf s.hostMem && s.cores.all (fun x => x.2.memWf)

/-- The issuing thread waits for nothing and is watched by nothing: no register is pending (R34) or poisoned (R407), it is no
member of a pair (R63), its queue names are off (R56), it is in no reconnaissance pass (R91), and it is in the middle of no
instruction. -/
abbrev State.plain (s : State) : Prop :=
  s.th.pend = [] ∧ s.th.regBad = [] ∧ s.th.pair = 0 ∧ s.th.qmap = false ∧ s.th.inRecon = false ∧ s.th.phase = 0

/-- A thread that issued: it runs and is blocked on no queue. -/
def Thread.live (t : Thread) : Thread := { t with run := .running, qblock := none }

/-- The issuing thread issued. -/
def State.live (s : State) : State := s.setTh s.th.live

/-- A thread that completed a word of n bytes which left everything else alone. -/
def Thread.went (t : Thread) (n : Nat) : Thread := { t.live with pc := t.pc + BitVec.ofNat 64 n }

/-- The issuing thread completed a word of n bytes which left everything else alone. -/
def State.went (s : State) (n : Nat) : State := s.setTh (s.th.went n)

/-- A scalar register of the issuing thread (R178). -/
def State.reg (s : State) (n : Nat) : Word := s.th.sreg s.cur.2 n

end Sys2Proof.Machine
end

