-- ==== Sys2Proof/Certificates/Slice0/Obligations.lean ====
section
/-!
DEFINITION. The statements about the machine, each a numbered rule of spec/ or a property that its rules give, and the tables of
instructions that they range over.
-/

open Sys2Proof Sys2Proof.Machine

/-! ## Integer words (R199 to R201, R177) -/

namespace Sys2Proof.Claims

/-- A major 0 word with two sources. -/
abbrev Rg2 := BitVec 3 → BitVec 5 → BitVec 5 → BitVec 2 → BitVec 5 → Instr

/-- A major 0 word with one source. -/
abbrev Rg1 := BitVec 3 → BitVec 5 → BitVec 2 → BitVec 5 → Instr

/-- A word with a 12-bit immediate. -/
abbrev Imm := BitVec 12 → BitVec 5 → BitVec 5 → Instr

/-- R199: W = 0, 1, 2 or 3 selects 64, 32, 16 or 8 bits. -/
def width (w : BitVec 2) : Nat := 64 / 2 ^ w.toNat

/-- An exact result cut to n bits and sign-extended (Ext S of R199). -/
def cutS (n : Nat) (x : Int) : Word := (BitVec.ofInt n x).signExtend 64

/-- R142: an exact result clamped to the signed range of n bits. -/
def clampS (n : Nat) (x : Int) : Int := max (-(2 ^ (n - 1))) (min (2 ^ (n - 1) - 1) x)

/-- R142: an exact result clamped to the unsigned range of n bits. -/
def clampU (n : Nat) (x : Int) : Int := max 0 (min (2 ^ n - 1) x)

/-- The rows of R199 with two sources: what sD receives at n bits. -/
def rg2Words : List (Rg2 × ((n : Nat) → BitVec n → BitVec n → Word)) :=
  [(.add, fun _ a b => (a + b).signExtend 64),
   (.sub, fun _ a b => (a - b).signExtend 64),
   (.and, fun _ a b => (a &&& b).signExtend 64),
   (.or, fun _ a b => (a ||| b).signExtend 64),
   (.xor, fun _ a b => (a ^^^ b).signExtend 64),
   (.andn, fun _ a b => (a &&& ~~~b).signExtend 64),
   (.shl, fun n a b => (a <<< (b.toNat % n)).signExtend 64),
   (.shr, fun n a b => (a >>> (b.toNat % n)).setWidth 64),
   (.sar, fun n a b => (a.sshiftRight (b.toNat % n)).signExtend 64),
   (.ror, fun n a b => (a.rotateRight (b.toNat % n)).signExtend 64),
   (.mul, fun _ a b => (a * b).signExtend 64),
   (.mulh, fun n a b => cutS n (a.toInt * b.toInt / 2 ^ n)),
   (.mulhu, fun n a b => (BitVec.ofNat n (a.toNat * b.toNat / 2 ^ n)).setWidth 64),
   (.div, fun n a b => if b = 0 then BitVec.allOnes 64 else cutS n (a.toInt.tdiv b.toInt)),
   (.divu, fun n a b => if b = 0 then (BitVec.allOnes n).setWidth 64 else (a / b).setWidth 64),
   (.rem, fun n a b => if b = 0 then a.signExtend 64 else cutS n (a.toInt.tmod b.toInt)),
   (.remu, fun _ a b => if b = 0 then a.setWidth 64 else (a % b).setWidth 64),
   (.slt, fun _ a b => if a.toInt < b.toInt then 1 else 0),
   (.sltu, fun _ a b => if a.toNat < b.toNat then 1 else 0),
   (.min, fun n a b => cutS n (min a.toInt b.toInt)),
   (.max, fun n a b => cutS n (max a.toInt b.toInt)),
   (.minu, fun _ a b => if a.toNat < b.toNat then a.setWidth 64 else b.setWidth 64),
   (.maxu, fun _ a b => if a.toNat < b.toNat then b.setWidth 64 else a.setWidth 64),
   (.adds, fun n a b => cutS n (clampS n (a.toInt + b.toInt))),
   (.addsu, fun n a b => (BitVec.ofInt n (clampU n (a.toNat + b.toNat))).setWidth 64),
   (.subs, fun n a b => cutS n (clampS n (a.toInt - b.toInt))),
   (.subsu, fun n a b => (BitVec.ofInt n (clampU n (a.toNat - b.toNat))).setWidth 64)]

/-- The rows of R199 with one source: what sD receives at n bits. -/
def rg1Words : List (Rg1 × ((n : Nat) → BitVec n → Word)) :=
  [(.clz, fun n a => BitVec.ofNat 64 ((List.range n).reverse.takeWhile (fun i => !a.getLsbD i)).length),
   (.ctz, fun n a => BitVec.ofNat 64 ((List.range n).takeWhile (fun i => !a.getLsbD i)).length),
   (.popc, fun n a => BitVec.ofNat 64 ((List.range n).countP (fun i => a.getLsbD i))),
   (.sext, fun _ a => a.signExtend 64),
   (.zext, fun _ a => a.setWidth 64)]

/-- The immediate words of R200: what sD receives from sA and the sign-extended immediate. -/
def immWords : List (Imm × (Word → Word → Word)) :=
  [(.addi, fun x i => x + i), (.andi, fun x i => x &&& i), (.ori, fun x i => x ||| i), (.xori, fun x i => x ^^^ i),
   (.slti, fun x i => if x.toInt < i.toInt then 1 else 0), (.sltiu, fun x i => if x.toNat < i.toNat then 1 else 0),
   (.muli, fun x i => x * i)]

/-- The immediate shifts of R200. -/
def shiftWords : List ((BitVec 6 → BitVec 5 → BitVec 5 → Instr) × (Word → Nat → Word)) :=
  [(.shli, fun x n => x <<< n), (.shri, fun x n => x >>> n), (.sari, fun x n => x.sshiftRight n), (.rori, fun x n => x.rotateRight n)]

/-- The 16-bit words of R177 that compute sD from sD and sA. -/
def cRegWords : List ((BitVec 4 → BitVec 4 → Instr) × (Word → Word → Word)) :=
  [(.cMove, fun _ y => y), (.cAdd, fun x y => x + y), (.cSub, fun x y => x - y), (.cAnd, fun x y => x &&& y),
   (.cOr, fun x y => x ||| y), (.cXor, fun x y => x ^^^ y), (.cShl, fun x y => x <<< (y.toNat % 64)),
   (.cShr, fun x y => x >>> (y.toNat % 64)), (.cSar, fun x y => x.sshiftRight (y.toNat % 64)), (.cMul, fun x y => x * y)]

/-- The 16-bit words of R177 that compute sD from sD and a 6-bit immediate. -/
def cImmWords : List ((BitVec 4 → BitVec 6 → Instr) × (Word → BitVec 6 → Word)) :=
  [(.cAddiS0, fun _ i => i.signExtend 64), (.cAddi, fun x i => x + i.signExtend 64), (.cShli, fun x i => x <<< i.toNat),
   (.cShri, fun x i => x >>> i.toNat), (.cSari, fun x i => x.sshiftRight i.toNat), (.cAndi, fun x i => x &&& i.signExtend 64)]

/-- The state after a word of k bytes that gives sD a value and changes nothing else. -/
def wrote (s : State) (d : Nat) (v : Word) (k : Nat) : State := s.setTh ((s.th.setSreg d v).went k)

end Sys2Proof.Claims

/-- R199: a two-source word writes sD with the row's result at its width under bit 0 of p[P], and is a no-op otherwise. -/
def Sys2Proof.Claims.RegisterPairWords : Prop :=
  ∀ r ∈ Claims.rg2Words, ∀ (p : BitVec 3) (b a : BitVec 5) (w : BitVec 2) (d : BitVec 5) (s : State), s.plain →
    exec (r.1 p b a w d) s = .next (if (s.th.preg p.toNat).getLsbD 0 then
      Claims.wrote s d.toNat (r.2 (Claims.width w) ((s.reg a.toNat).setWidth _) ((s.reg b.toNat).setWidth _)) 4 else s.went 4)

/-- R199: a one-source word writes sD with the row's result at its width under bit 0 of p[P], and is a no-op otherwise. -/
def Sys2Proof.Claims.RegisterWords : Prop :=
  ∀ r ∈ Claims.rg1Words, ∀ (p : BitVec 3) (a : BitVec 5) (w : BitVec 2) (d : BitVec 5) (s : State), s.plain →
    exec (r.1 p a w d) s = .next (if (s.th.preg p.toNat).getLsbD 0 then
      Claims.wrote s d.toNat (r.2 (Claims.width w) ((s.reg a.toNat).setWidth _)) 4 else s.went 4)

/-- R200, R201: the immediate words, the immediate shifts and the two constants write sD and go on after 4 bytes. -/
def Sys2Proof.Claims.ImmediateWords : Prop :=
  ∀ s : State, s.plain →
    (∀ r ∈ Claims.immWords, ∀ (i : BitVec 12) (a d : BitVec 5),
      exec (r.1 i a d) s = .next (Claims.wrote s d.toNat (r.2 (s.reg a.toNat) (i.signExtend 64)) 4)) ∧
    (∀ r ∈ Claims.shiftWords, ∀ (n : BitVec 6) (a d : BitVec 5),
      exec (r.1 n a d) s = .next (Claims.wrote s d.toNat (r.2 (s.reg a.toNat) n.toNat) 4)) ∧
    (∀ (i : BitVec 20) (d : BitVec 5),
      exec (.ldhi i d) s = .next (Claims.wrote s d.toNat ((i ++ 0#12).signExtend 64) 4) ∧
      exec (.addpc i d) s = .next (Claims.wrote s d.toNat (s.th.pc + (i ++ 0#12).signExtend 64) 4))

/-- R175, R177: the 16-bit computing words act as the words they expand to and go on after 2 bytes; every hint only goes on. -/
def Sys2Proof.Claims.CompactAndHintWords : Prop :=
  ∀ s : State, s.plain →
    (∀ r ∈ Claims.cRegWords, ∀ d a : BitVec 4,
      exec (r.1 d a) s = .next (Claims.wrote s d.toNat (r.2 (s.reg d.toNat) (s.reg a.toNat)) 2)) ∧
    (∀ r ∈ Claims.cImmWords, ∀ (d : BitVec 4) (i : BitVec 6),
      exec (r.1 d i) s = .next (Claims.wrote s d.toNat (r.2 (s.reg d.toNat) i) 2)) ∧
    (∀ d a : BitVec 4, exec (.cHint d a) s = .next (s.went 2)) ∧
    (∀ h : BitVec 25, exec (.hint h) s = .next (s.went 4)) ∧ exec .nop s = .next (s.went 4)
/-! ## Branches, jumps, calls and windows (R206 to R209, R177, R179) -/

namespace Sys2Proof.Claims

/-- A conditional word of major 11. -/
abbrev Br := BitVec 15 → BitVec 5 → Instr

/-- The rows of R206: the branch, the counted loop and the test. -/
def branchWords : List (Br × Br × (Word → Bool)) :=
  [(.bZ, .lpZ, fun x => x == 0), (.bNz, .lpNz, fun x => x != 0), (.bLt, .lpLt, fun x => x.toInt < 0),
   (.bGe, .lpGe, fun x => 0 ≤ x.toInt), (.bGt, .lpGt, fun x => 0 < x.toInt), (.bLe, .lpLe, fun x => x.toInt ≤ 0),
   (.bOdd, .lpOdd, fun x => x.getLsbD 0), (.bEven, .lpEven, fun x => !x.getLsbD 0)]

/-- The issuing thread issued, and goes on at an address as a given thread. -/
def goesTo (s : State) (t : Thread) (pc : Word) : State := s.setTh { t.live with pc := pc }

/-- A word raised a trap with its own address (R359, R360). -/
def trapped (s : State) (code : Nat) (val : Word) : State := s.live.takeTrap code val s.th.pc

/-- What `ret` closes is a window that a call opened, and its caller's window is resident (R180, R209). -/
def canReturn (s : State) : Prop := s.th.resLo < s.th.depth ∧ ∀ x ∈ s.th.inl.head?, x.depth < s.th.depth

/-- A call may open its window at once (R180, R182). -/
def canCall (s : State) : Prop :=
  s.th.depth + 1 - s.th.resLo < 4 ∧ s.th.depth < 31 ∧ 0x140 + 96 * (s.th.depth + 1) + 64 * s.th.inl.length ≤ 0x1000

/-- An opening overflows: a 33rd window, or the window area would meet the inline saves (R182). -/
def overflows (s : State) : Prop := 31 < s.th.depth + 1 ∨ 0x1000 < 0x140 + 96 * (s.th.depth + 1) + 64 * s.th.inl.length

/-- XVAL of a window-stack overflow: DEPTH, and the inline saves above it (R360). -/
def openings (s : State) : Word := BitVec.ofNat 64 (s.th.depth % 32 + s.th.inl.length % 64 * 256)

/-- The issuing slot stays empty: nothing but the thread's state of rotation changes (R34). -/
def waits (s : State) : State := s.setTh { s.th.live with run := .stalled }

/-- What a call leaves: lk, a new window whose s8 to s11 are the caller's s20 to s23, the target, and every other thread and
register as before. -/
def called (s t : State) (ret target : Word) : Prop :=
  t.th.pc = target ∧ t.reg 30 = ret ∧ t.th.depth = s.th.depth + 1 ∧ t.th.run = .running ∧
    (∀ n < 4, t.reg (8 + n) = s.reg (20 + n)) ∧ (∀ n < 30, n < 8 ∨ 24 ≤ n → t.reg n = s.reg n) ∧
    t.th.vec = s.th.vec ∧ t.th.prd = s.th.prd ∧ t.th.ext = s.th.ext ∧ t.dram = s.dram ∧ t.co.ls = s.co.ls ∧
    ∀ n i, (n, i) ≠ s.cur → t.thread n i = s.thread n i

/-- What a return leaves: the caller's window, whose s20 to s23 are the callee's s8 to s11, and the address in lk. -/
def returned (s t : State) : Prop :=
  t.th.pc = s.reg 30 ∧ t.th.depth = s.th.depth - 1 ∧ t.th.run = .running ∧ t.th.win = s.th.win ∧
    (∀ n < 4, t.reg (20 + n) = s.reg (8 + n)) ∧ (∀ n < 31, n < 8 ∨ 24 ≤ n → t.reg n = s.reg n) ∧
    t.dram = s.dram ∧ t.co.ls = s.co.ls ∧ ∀ n i, (n, i) ≠ s.cur → t.thread n i = s.thread n i

end Sys2Proof.Claims

/-- R206, R177: a branch goes to PC + 2 × EXTS(OFF) when its test holds of sA, and else to the next word; nothing else changes. -/
def Sys2Proof.Claims.BranchWords : Prop :=
  ∀ s : State, s.plain →
    (∀ r ∈ Claims.branchWords, ∀ (o : BitVec 15) (a : BitVec 5),
      exec (r.1 o a) s = .next (Claims.goesTo s s.th
        (if r.2.2 (s.reg a.toNat) then s.th.pc + 2 * o.signExtend 64 else s.th.pc + 4))) ∧
    ∀ (a : BitVec 4) (o : BitVec 8),
      exec (.cBZ a o) s = .next (Claims.goesTo s s.th
        (if s.reg a.toNat = 0 then s.th.pc + 2 * o.signExtend 64 else s.th.pc + 2)) ∧
      exec (.cBNz a o) s = .next (Claims.goesTo s s.th
        (if s.reg a.toNat ≠ 0 then s.th.pc + 2 * o.signExtend 64 else s.th.pc + 2))

/-- R206: a counted loop decrements sA, taken or not, and tests it after the decrement. -/
def Sys2Proof.Claims.LoopWords : Prop :=
  ∀ r ∈ Claims.branchWords, ∀ (o : BitVec 15) (a : BitVec 5) (s : State), s.plain → a ≠ 0 → a ≠ 31 →
    exec (r.2.1 o a) s = .next (Claims.goesTo s (s.th.setSreg a.toNat (s.reg a.toNat - 1))
      (if r.2.2 (s.reg a.toNat - 1) then s.th.pc + 2 * o.signExtend 64 else s.th.pc + 4))

/-- R206, R178: a counted loop that names s0 or s31, which discard what is written, decrements nothing and tests the register. For
s31 this is the model's reading (log entry 30). -/
def Sys2Proof.Claims.LoopWordsOnConstants : Prop :=
  ∀ r ∈ Claims.branchWords, ∀ (o : BitVec 15) (a : BitVec 5) (s : State), s.plain → a = 0 ∨ a = 31 →
    exec (r.2.1 o a) s = .next (Claims.goesTo s s.th
      (if r.2.2 (s.reg a.toNat) then s.th.pc + 2 * o.signExtend 64 else s.th.pc + 4))

/-- R207, R208, R170, R177: the jumps go to their target, `jal` with PC + 4 in sD, and an odd target traps before any effect. -/
def Sys2Proof.Claims.JumpWords : Prop :=
  ∀ s : State, s.plain →
    (∀ o : BitVec 24, exec (.jmp o) s = .next (Claims.goesTo s s.th (s.th.pc + 2 * o.signExtend 64))) ∧
    (∀ o : BitVec 12, exec (.cJmp o) s = .next (Claims.goesTo s s.th (s.th.pc + 2 * o.signExtend 64))) ∧
    (∀ (i : BitVec 12) (a d : BitVec 5), let t := s.reg a.toNat + i.signExtend 64
      exec (.jr i a) s = .next (if t.getLsbD 0 then Claims.trapped s 3 t else Claims.goesTo s s.th t) ∧
      exec (.jal i a d) s = .next (if t.getLsbD 0 then Claims.trapped s 3 t
        else Claims.goesTo s (s.th.setSreg d.toNat (s.th.pc + 4)) t)) ∧
    ∀ a : BitVec 4, let t := s.reg a.toNat
      exec (.cJr a) s = .next (if t.getLsbD 0 then Claims.trapped s 3 t else Claims.goesTo s s.th t)

/-- R207, R208, R179: a call sets lk and opens a window; a return closes it and goes to lk. -/
def Sys2Proof.Claims.CallAndReturn : Prop :=
  ∀ s : State, s.plain →
    (Claims.canCall s → ∀ o : BitVec 24, ∃ t, exec (.call o) s = .next t ∧
      Claims.called s t (s.th.pc + 4) (s.th.pc + 2 * o.signExtend 64)) ∧
    (Claims.canCall s → ∀ (i : BitVec 12) (a : BitVec 5), (s.reg a.toNat + i.signExtend 64).getLsbD 0 = false →
      ∃ t, exec (.callr i a) s = .next t ∧ Claims.called s t (s.th.pc + 4) (s.reg a.toNat + i.signExtend 64)) ∧
    (Claims.canReturn s → (s.reg 30).getLsbD 0 = false →
      (∃ t, exec .ret s = .next t ∧ Claims.returned s t) ∧ ∃ t, exec .cRet s = .next t ∧ Claims.returned s t)

/-- R180, R182, R208, R209: a call, direct or indirect, whose opening overflows and a return from window 0 or from the first window of an
inline child trap with no other effect, after the target check; a call that would keep five windows resident and a return to a window that
is not resident leave their slot empty. -/
def Sys2Proof.Claims.WindowTraps : Prop :=
  ∀ s : State, s.plain →
    (Claims.overflows s → ∀ o : BitVec 24, exec (.call o) s = .next (Claims.trapped s 7 (Claims.openings s))) ∧
    (¬ Claims.overflows s → 4 ≤ s.th.depth + 1 - s.th.resLo → ∀ o : BitVec 24, exec (.call o) s = .next (Claims.waits s)) ∧
    (∀ (i : BitVec 12) (a : BitVec 5), let t := s.reg a.toNat + i.signExtend 64
      (t.getLsbD 0 = true → exec (.callr i a) s = .next (Claims.trapped s 3 t)) ∧
      (t.getLsbD 0 = false → Claims.overflows s → exec (.callr i a) s = .next (Claims.trapped s 7 (Claims.openings s))) ∧
      (t.getLsbD 0 = false → ¬ Claims.overflows s → 4 ≤ s.th.depth + 1 - s.th.resLo →
        exec (.callr i a) s = .next (Claims.waits s))) ∧
    ∀ r ∈ [Instr.ret, .cRet],
      ((s.reg 30).getLsbD 0 = true → exec r s = .next (Claims.trapped s 3 (s.reg 30))) ∧
      ((s.reg 30).getLsbD 0 = false → s.th.depth = 0 ∨ (∃ x ∈ s.th.inl.head?, s.th.depth ≤ x.depth) →
        exec r s = .next (Claims.trapped s 8 0)) ∧
      ((s.reg 30).getLsbD 0 = false → 0 < s.th.depth → (∀ x ∈ s.th.inl.head?, x.depth < s.th.depth) → s.th.depth ≤ s.th.resLo →
        exec r s = .next (Claims.waits s))

/-- R208: `wflush` writes every resident window but the current one to the region, and the current one alone stays resident. -/
def Sys2Proof.Claims.WindowFlush : Prop :=
  ∀ s : State, s.plain → ∃ t, exec .wflush s = .next t ∧ t.th.resLo = max s.th.resLo s.th.depth ∧
    t.th.pc = s.th.pc + 4 ∧ t.th.run = .running ∧ t.th.win = s.th.win ∧ t.th.depth = s.th.depth ∧ t.th.glob = s.th.glob ∧
    (∀ n i, (n, i) ≠ s.cur → t.thread n i = s.thread n i) ∧ t.dram = s.dram ∧
    ∀ k, s.th.resLo ≤ k → k < s.th.depth → s.th.depth ≤ 31 → ∀ n, 12 ≤ n → n ≤ 23 →
      t.lsWord s.cur.1 (s.th.region + winPlace k n) = tblGet 0 (winIndex k n) s.th.win

/-! ## Traps (R359, R362) -/

/-- R359: a trap of a thread that is in no handler, on a core whose handler is enabled, saves the return address, the value, the
code, PRIV and QMAP, raises PRIV, turns QMAP off and goes to the handler; the thread is trapped, and nothing else changes. -/
def Sys2Proof.Claims.TrapTaken : Prop :=
  ∀ (s : State) (code : Nat) (val ret : Word), s.th.act = false → s.co.thbEn = true →
    ∃ t, s.takeTrap code val ret = s.setTh t ∧ t.run = .trapped ∧ t.xpc = ret ∧ t.xval = val ∧ t.xcode = BitVec.ofNat 8 code ∧
      t.ppriv = s.th.priv ∧ t.pqmap = s.th.qmap ∧ t.act = true ∧ t.priv = true ∧ t.qmap = false ∧
      t.pc = s.co.thbBase ++ 0#8 ∧ t.glob = s.th.glob ∧ t.win = s.th.win ∧ t.vec = s.th.vec ∧ t.prd = s.th.prd ∧
      t.ext = s.th.ext ∧ t.wid = s.th.wid ∧ t.flg = s.th.flg ∧ t.srs = s.th.srs ∧ t.depth = s.th.depth

/-- R359: a trap in a handler, or with the handler disabled, fails the thread. -/
def Sys2Proof.Claims.TrapFails : Prop :=
  ∀ (s : State) (code : Nat) (val ret : Word), s.th.pair = 0 → s.th.run ≠ .halted → s.th.act = true ∨ s.co.thbEn = false →
    (s.takeTrap code val ret).th.run = .failing 1 ∧
    ∃ f, (s.takeTrap code val ret).th.fail = some f ∧ f.cause = if s.th.act then 1 else 2
/-! ## The local store, device memory and atomics (R210 to R219) -/

namespace Sys2Proof.Claims

/-- Every memory of the machine but the local store of one core is as before, and so is every thread but the issuing one. -/
def elsewhere (s t : State) : Prop :=
  t.dram = s.dram ∧ t.hostMem = s.hostMem ∧ (∀ n, (t.core n).ws = (s.core n).ws) ∧
    (∀ n, n ≠ s.cur.1 → (t.core n).ls = (s.core n).ls) ∧ ∀ n i, (n, i) ≠ s.cur → t.thread n i = s.thread n i

/-- The local store of a core holds new bytes from an address up, and every other byte as before. -/
def storedAt (s t : State) (n a : Nat) (bs : List Byte) : Prop :=
  (∀ j < bs.length, memGet (a + j) (t.core n).ls = bs.getD j 0) ∧
    ∀ x, x < a ∨ a + bs.length ≤ x → memGet x (t.core n).ls = memGet x (s.core n).ls

/-- The local loads of R214 and their sizes. -/
def localLoads : List (Imm × Nat) := [(.ldBLs, 1), (.ldHLs, 2), (.ldWLs, 4), (.ldDLs, 8)]

/-- The local stores of R214 and their sizes. -/
def localStores : List (Imm × Nat) := [(.stBLs, 1), (.stHLs, 2), (.stWLs, 4), (.stDLs, 8)]

/-- A load of n bytes at a local address changes no memory. It writes its register with the bytes, sign-extended; where the banks
serve it only after the thread's next slot the register keeps its value and is pending (R34, R100). -/
def loadsLocal (s : State) (i : Instr) (la : Word) (d n k : Nat) : Prop :=
  la.toNat + n ≤ 0x80000 → anyBad s.co.lsBad la.toNat n = false →
    ∃ t, exec i s = .next t ∧ t.co.ls = s.co.ls ∧ elsewhere s t ∧
      (s.co.bankReady la.toNat n < s.co.cyc + 16 →
        t.th = (s.th.setSreg d ((BitVec.ofNat (8 * n) (leNat (s.lsSeen s.cur.1 la.toNat n))).signExtend 64)).went k) ∧
      (s.co.cyc + 16 ≤ s.co.bankReady la.toNat n → d ≠ 0 → d ≠ 31 →
        t.th.pend.map (·.1) = [s.th.abs (.s d)] ∧ (∀ r < 31, t.reg r = s.reg r) ∧ t.th.pc = s.th.pc + BitVec.ofNat 64 k)

/-- A write of n bytes at a local address sets the dirty bits of the 64-byte segments of W and RW tile slots that it reaches, and leaves the
others and the frames alone (R85). -/
def segmentsDirty (s t : State) (a n : Nat) : Prop :=
  t.co.frames.length = s.co.frames.length ∧ ∀ (j : Nat) (f : FrameUse), s.co.frames[j]? = some f → ∃ u, t.co.frames[j]? = some u ∧
    u = { f with dirty := u.dirty } ∧ ∀ g, g ∈ u.dirty ↔
      g ∈ f.dirty ∨ (g % 64 = 0 ∧ g < a + n ∧ a < g + 64 ∧ ∃ x ∈ f.slots, x.1 ≤ g ∧ g < x.1 + x.2)

/-- A store of n bytes at a local address writes them there and nowhere else, and marks the tile-slot segments that it reaches. -/
def storesLocal (s : State) (i : Instr) (la v : Word) (n k : Nat) : Prop :=
  la.toNat + n ≤ 0x80000 → s.co.inClaim la.toNat n = false → s.site = false →
    ∃ t, exec i s = .next t ∧ t.th = s.th.went k ∧ storedAt s t s.cur.1 la.toNat (leBytes n v.toNat) ∧ elsewhere s t ∧
      segmentsDirty s t la.toNat n

/-- The device loads of R210: size and extension. -/
def deviceLoads : List (Imm × Nat × LoadExt) :=
  [(.ldB, 1, .signed 8), (.ldH, 2, .signed 16), (.ldW, 4, .signed 32), (.ldD, 8, .signed 64), (.ldBu, 1, .unsigned 8),
   (.ldHu, 2, .unsigned 16), (.ldWu, 4, .unsigned 32)]

/-- The device stores of R210 and their sizes. -/
def deviceStores : List (Imm × Nat) := [(.stB, 1), (.stH, 2), (.stW, 4), (.stD, 8)]

/-- A translation missed both TLBs: a walk of the address's page is under way or queued for the issuing thread, whose instruction issues
again (R116); nothing else of the thread changes, and no memory. -/
def walkAsked (s t : State) (va : Word) : Prop :=
  t.th = { s.th.live with run := .stalled } ∧ elsewhere s t ∧ t.co.ls = s.co.ls ∧
    ∃ w ∈ (t.cluster (clusterOf s.cur.1)).walks, w.page = (va.extractLsb' 16 40).toNat ∧ s.cur ∈ w.who

/-- An access of n bytes lies in one aligned piece of a page that translates without a TLB fill, at a target outside the core that
the L1 does not hold (R97, R106, R113). -/
def uncached (s : State) (va : Word) (n acc : Nat) (g : Seg) : Prop :=
  s.live.segments va n acc = .ok ([g], s.live) ∧ g.pa % n = 0 ∧ g.cached = false ∧ g.tgt ≠ .window s.cur.1 ∧ g.size = n

/-- An access of n bytes lies in one line of a cached page that translates without a TLB fill (R106, R113). -/
def cached (s : State) (va : Word) (n acc : Nat) (g : Seg) : Prop :=
  s.live.segments va n acc = .ok ([g], s.live) ∧ g.cached = true ∧ g.far = none ∧ g.tgt ≠ .window s.cur.1 ∧ g.pa % 64 + n ≤ 64 ∧
    g.size = n

/-- The bytes of a cached line that an access touches. -/
def lineBytes (s : State) (g : Seg) (n : Nat) : Option (List Byte) :=
  (s.co.line (g.pa / 64 * 64)).map (fun l => l.bytes (g.pa % 64) n)

/-- A load that hits the L1 writes its register at once, and sends nothing (R34, R211). -/
def loadHits (s : State) (i : Instr) (va : Word) (d n k : Nat) (e : LoadExt) : Prop :=
  ∀ g, cached s va n 0 g → s.co.hit (g.pa / 64 * 64) (g.pa % 64) n = true → ∀ bs, lineBytes s g n = some bs →
    (∀ l ∈ s.co.line (g.pa / 64 * 64), l.bad = 0) → s.th.accQ = [] →
    ∃ t, exec i s = .next t ∧ t.reg d = (s.th.setSreg d (e.value (memWrite 0 bs []))).sreg s.cur.2 d ∧ t.flights = s.flights ∧
      t.th.pc = s.th.pc + BitVec.ofNat 64 k ∧ t.th.cntL = s.th.cntL ∧ t.th.pend = [] ∧
      t.th.acc = accStep s.th.acc va (BitVec.ofNat 64 (leNat bs)) ∧
      (∀ r < 31, r ≠ d → t.reg r = s.reg r) ∧ t.co.ls = s.co.ls ∧ t.co.l1 = s.co.l1 ∧ elsewhere s t

/-- A load outside the L1 leaves as one request; its register is pending and L counts it (R34, R187, R211). -/
def loadSent (s : State) (i : Instr) (va : Word) (d n k : Nat) : Prop :=
  ∀ g, uncached s va n 0 g → s.th.cntL < 1023 → d ≠ 0 → d ≠ 31 →
    ∃ t f, exec i s = .next t ∧ t.flights = s.flights ++ [f] ∧ f.kind = .load ∧ f.stage = .request ∧ f.pa = g.pa ∧ f.size = n ∧
      f.site = s.cur.1 ∧ f.slot = s.cur.2 ∧ t.th.cntL = s.th.cntL + 1 ∧ t.th.pend = [(s.th.abs (.s d), f.grp)] ∧
      t.th.pc = s.th.pc + BitVec.ofNat 64 k ∧ (∀ r < 31, t.reg r = s.reg r) ∧ t.co.ls = s.co.ls ∧ elsewhere s t

/-- A store outside the L1 leaves as one request with its bytes, and S counts it (R187, R211). -/
def storeSent (s : State) (i : Instr) (va v : Word) (n k : Nat) : Prop :=
  ∀ g, uncached s va n 1 g → s.th.cntS < 1023 →
    ∃ t f, exec i s = .next t ∧ t.flights = s.flights ++ [f] ∧ f.kind = .store ∧ f.stage = .request ∧ f.pa = g.pa ∧ f.size = n ∧
      f.data = (leBytes n v.toNat).map some ∧ t.th.cntS = s.th.cntS + 1 ∧ t.th.pc = s.th.pc + BitVec.ofNat 64 k ∧
      (∀ r < 31, t.reg r = s.reg r) ∧ t.co.ls = s.co.ls ∧ elsewhere s t

/-- A store to a line that the L1 holds stays there: the line takes its bytes, dirty, with the slot in its writer mask (R107). -/
def storeHits (s : State) (i : Instr) (va : Word) (bs : List Byte) (k : Nat) : Prop :=
  ∀ g, cached s va bs.length 1 g → ∀ l, s.co.line (g.pa / 64 * 64) = some l →
    ∃ t, exec i s = .next t ∧ t.flights = s.flights ∧
      t.co.l1 = (s.co.setLine (l.store s.co.epoch s.cur.2 (g.pa % 64) bs)).l1 ∧ t.th.pc = s.th.pc + BitVec.ofNat 64 k ∧
      t.th.cntS = s.th.cntS ∧ (∀ r < 31, t.reg r = s.reg r) ∧ t.co.ls = s.co.ls ∧ elsewhere s t

/-- A load that misses the L1 asks for its line: L counts it, its register is pending on the line, and the L1 keeps what it holds (R34,
R107, R187). -/
def loadMisses (s : State) (i : Instr) (va : Word) (d n k : Nat) : Prop :=
  ∀ g, cached s va n 0 g → s.co.hit (g.pa / 64 * 64) (g.pa % 64) n = false → s.th.cntL < 1023 → d ≠ 0 → d ≠ 31 →
    ∃ t f, exec i s = .next t ∧ t.flights = s.flights ++ [f] ∧ f.kind = .fill ∧ f.stage = .request ∧ f.pa = g.pa / 64 * 64 ∧
      f.size = 64 ∧ f.site = s.cur.1 ∧ f.slot = s.cur.2 ∧ t.th.cntL = s.th.cntL + 1 ∧ t.th.pend = [(s.th.abs (.s d), f.grp)] ∧
      t.th.pc = s.th.pc + BitVec.ofNat 64 k ∧ (∀ r < 31, t.reg r = s.reg r) ∧ t.co.l1 = s.co.l1 ∧ t.co.ls = s.co.ls ∧ elsewhere s t

/-- A load that straddles two lines of a cached page, neither of them in the L1, asks for both; L counts it once (R97, R187). -/
def loadStraddles (s : State) (i : Instr) (va : Word) (d n k : Nat) : Prop :=
  ∀ g, s.live.segments va n 0 = .ok ([g], s.live) → g.cached = true → g.far = none → g.tgt ≠ .window s.cur.1 → g.size = n →
    64 < g.pa % 64 + n → let b := g.pa / 64 * 64
    s.co.hit b (g.pa % 64) (64 - g.pa % 64) = false → s.co.hit (b + 64) 0 (n - (64 - g.pa % 64)) = false → s.th.cntL < 1023 →
    d ≠ 0 → d ≠ 31 →
    ∃ t e f, exec i s = .next t ∧ t.flights = s.flights ++ [e, f] ∧ e.kind = .fill ∧ f.kind = .fill ∧ e.pa = b ∧ f.pa = b + 64 ∧
      e.size = 64 ∧ f.size = 64 ∧ f.grp = e.grp ∧ t.th.cntL = s.th.cntL + 1 ∧ t.th.pend = [(s.th.abs (.s d), e.grp)] ∧
      t.th.pc = s.th.pc + BitVec.ofNat 64 k ∧ (∀ r < 31, t.reg r = s.reg r) ∧ t.co.ls = s.co.ls ∧ elsewhere s t

/-- Requests cover the physical bytes of an access in order, each aligned and of 1, 2, 4 or 8 bytes (R97). -/
def inPieces (gs : List Seg) (fs : List Flight) : Prop :=
  (∀ f ∈ fs, f.stage = .request ∧ f.size ∈ [1, 2, 4, 8] ∧ f.pa % f.size = 0) ∧
    fs.flatMap (fun f => List.range' f.pa f.size) = gs.flatMap (fun g => List.range' g.pa g.size)

/-- A load outside the L1 that is unaligned or reaches into a second page leaves as aligned pieces; L counts it once (R97, R187). -/
def loadSplit (s : State) (i : Instr) (va : Word) (d n k : Nat) : Prop :=
  ∀ gs, s.live.segments va n 0 = .ok (gs, s.live) → (∀ g ∈ gs, g.cached = false ∧ g.tgt ≠ .window s.cur.1) → s.th.cntL < 1023 →
    d ≠ 0 → d ≠ 31 →
    ∃ t fs id, exec i s = .next t ∧ t.flights = s.flights ++ fs ∧ inPieces gs fs ∧ (∀ f ∈ fs, f.kind = .load ∧ f.grp = id) ∧
      t.th.cntL = s.th.cntL + 1 ∧ t.th.pend = [(s.th.abs (.s d), id)] ∧ t.th.pc = s.th.pc + BitVec.ofNat 64 k ∧
      (∀ r < 31, t.reg r = s.reg r) ∧ t.co.ls = s.co.ls ∧ elsewhere s t

/-- A store outside the L1 that is unaligned or reaches into a second page leaves as aligned pieces with its bytes; S counts it once (R97,
R187). -/
def storeSplit (s : State) (i : Instr) (va : Word) (bs : List Byte) (k : Nat) : Prop :=
  ∀ gs, s.live.segments va bs.length 1 = .ok (gs, s.live) → (∀ g ∈ gs, g.cached = false ∧ g.tgt ≠ .window s.cur.1) → s.th.cntS < 1023 →
    ∃ t fs, exec i s = .next t ∧ t.flights = s.flights ++ fs ∧ inPieces gs fs ∧ (∀ f ∈ fs, f.kind = .store) ∧
      fs.flatMap (fun f => f.data) = bs.map some ∧ t.th.cntS = s.th.cntS + 1 ∧ t.th.pc = s.th.pc + BitVec.ofNat 64 k ∧
      (∀ r < 31, t.reg r = s.reg r) ∧ t.co.ls = s.co.ls ∧ elsewhere s t

/-- An access lies in the issuing core's own window, in a page that translates without a TLB fill (R96). -/
def inOwnWindow (s : State) (va : Word) (n acc : Nat) (g : Seg) : Prop :=
  s.live.segments va n acc = .ok ([g], s.live) ∧ g.tgt = .window s.cur.1 ∧ g.size = n

/-- A load through the own window reads the local store at once; it counts in nothing and leaves ACC alone (R96, R214; for ACC, log entry
29). -/
def loadWindow (s : State) (i : Instr) (va : Word) (d n k : Nat) (e : LoadExt) : Prop :=
  ∀ g, inOwnWindow s va n 0 g → anyBad s.co.lsBad (g.pa % 0x80000) n = false → s.th.accQ = [] →
    ∃ t, exec i s = .next t ∧
      t.reg d = (s.th.setSreg d (e.value (memWrite 0 (s.lsSeen s.cur.1 (g.pa % 0x80000) n) []))).sreg s.cur.2 d ∧
      (∀ r < 31, r ≠ d → t.reg r = s.reg r) ∧ t.th.pc = s.th.pc + BitVec.ofNat 64 k ∧ t.th.pend = [] ∧ t.th.cntL = s.th.cntL ∧
      t.th.acc = s.th.acc ∧ t.flights = s.flights ∧ t.co.ls = s.co.ls ∧ elsewhere s t

/-- A store through the own window writes the local store at once, and marks the tile-slot segments that it reaches; the claimed Hive range
refuses it with the protection trap (R85, R96, R104). -/
def storeWindow (s : State) (i : Instr) (va : Word) (bs : List Byte) (k : Nat) : Prop :=
  ∀ g, inOwnWindow s va bs.length 1 g → let a := g.pa % 0x80000
    (s.co.inClaim a bs.length = false → s.site = false →
      ∃ t, exec i s = .next t ∧ t.th = s.th.went k ∧ storedAt s t s.cur.1 a bs ∧ segmentsDirty s t a bs.length ∧
        t.flights = s.flights ∧ elsewhere s t) ∧
    (s.co.inClaim a bs.length = true → exec i s = .next (trapped s 12 (BitVec.ofNat 64 (max a s.co.hvb))))

/-- A word takes a trap that a translated access meets; the core's TLB keeps what its translations filled (R115). -/
def trappedAt (s s' : State) (code val : Nat) : State :=
  (s.live.setCo { s.live.co with tlb := s'.co.tlb }).takeTrap code (BitVec.ofNat 64 val) s.th.pc

/-- The faults of an access of n bytes to device memory, of kind 0 (read), 1 (write) or 2 (atomic): the translation fault with its WHY, the
map fault, and WHY 2 where its two pages lie at different targets; a miss of both TLBs asks for a walk (R97, R116, R360, R414, R415). -/
def accessFaults (s : State) (i : Instr) (va : Word) (n acc : Nat) : Prop :=
  let x := fun (u : State) (a : Word) => u.translate s.cur.1 s.cur.2 s.th.priv s.th.walk a acc
  let left := 0x10000 - (va.extractLsb' 0 16).toNat
  (∀ why s', x s.live va = .fault why s' → why < 8 →
    exec i s = .next (trappedAt s s' 13 ((va.extractLsb' 0 56).toNat + acc * 2 ^ 56 + why * 2 ^ 59))) ∧
  (∀ s', x s.live va = .miss s' → ∃ t, exec i s = .next t ∧ walkAsked s t va) ∧
  (∀ pa nc s' why, x s.live va = .ok pa nc s' → n ≤ left → s'.decodePa pa n acc = .error why →
    exec i s = .next (trappedAt s s' 14 (pa % 2 ^ 48 + why * 2 ^ 48 + acc * 2 ^ 51))) ∧
  (∀ pa nc s' why s'', x s.live va = .ok pa nc s' → left < n → x s' (va + BitVec.ofNat 64 left) = .fault why s'' → why < 8 →
    exec i s = .next (trappedAt s s'' 13 (((va + BitVec.ofNat 64 left).extractLsb' 0 56).toNat + acc * 2 ^ 56 + why * 2 ^ 59))) ∧
  ∀ pa nc s' pa2 nc2 s'' t u, x s.live va = .ok pa nc s' → left < n → x s' (va + BitVec.ofNat 64 left) = .ok pa2 nc2 s'' →
    s''.decodePa pa left acc = .ok t → s''.decodePa pa2 (n - left) acc = .ok u → t ≠ u →
    exec i s = .next (trappedAt s s'' 14 (pa % 2 ^ 48 + 2 * 2 ^ 48 + acc * 2 ^ 51))

/-- Everything that a load of device memory does outside a hit of one line or one aligned request. -/
def loadRest (s : State) (i : Instr) (va : Word) (d n k : Nat) (e : LoadExt) : Prop :=
  loadMisses s i va d n k ∧ loadStraddles s i va d n k ∧ loadSplit s i va d n k ∧ loadWindow s i va d n k e ∧ accessFaults s i va n 0

/-- Everything that a store to device memory does outside a hit of one line or one aligned request. -/
def storeRest (s : State) (i : Instr) (va : Word) (bs : List Byte) (k : Nat) : Prop :=
  storeSplit s i va bs k ∧ storeWindow s i va bs k ∧ accessFaults s i va bs.length 1

/-- The atomics of R215 with an operand sB: whether the result is sign-extended, and what the location receives from the old value,
the operand and sD at n bits. -/
def atomics : List ((BitVec 1 → BitVec 1 → BitVec 1 → BitVec 5 → BitVec 5 → BitVec 1 → BitVec 5 → Instr) × Bool ×
    ((n : Nat) → BitVec n → BitVec n → BitVec n → BitVec n)) :=
  [(.amoSwap, false, fun _ _ b _ => b), (.amoAdd, false, fun _ m b _ => m + b), (.amoAnd, false, fun _ m b _ => m &&& b),
   (.amoOr, false, fun _ m b _ => m ||| b), (.amoXor, false, fun _ m b _ => m ^^^ b),
   (.amoMin, true, fun _ m b _ => if m.toInt ≤ b.toInt then m else b),
   (.amoMax, true, fun _ m b _ => if m.toInt ≤ b.toInt then b else m),
   (.amoMinu, false, fun _ m b _ => if m.toNat ≤ b.toNat then m else b),
   (.amoMaxu, false, fun _ m b _ => if m.toNat ≤ b.toNat then b else m),
   (.amoCas, true, fun _ m b c => if m = c then b else m)]

/-- No L1 line holds a store of the issuing slot, and no write of the thread is unacknowledged, by whomever it was written back (R109,
R450). -/
def atHome (s : State) : Prop :=
  (∀ l ∈ s.co.l1, l.writers.getLsbD s.cur.2 = false) ∧
    (∀ f ∈ s.flights, ¬ (f.site = s.cur.1 ∧ f.slot = s.cur.2 ∧ f.inS = true)) ∧
    ∀ f ∈ s.flights, ¬ (f.site = s.cur.1 ∧ f.writers.getLsbD s.cur.2 = true)

/-- An atomic of n bytes acts at address A of the own bank: by local address, or through the own window; it is aligned, and nothing refuses it
or fails it (R96, R104, R214, R388, R407). -/
def bankReady (s : State) (l : BitVec 1) (va : Word) (n A : Nat) : Prop :=
  va.toNat % n = 0 ∧ A + n ≤ 0x80000 ∧ s.co.inClaim A n = false ∧ anyBad s.co.lsBad A n = false ∧
    ((l = 1 ∧ A = va.toNat) ∨ (l = 0 ∧ ∃ g, inOwnWindow s va n 2 g ∧ A = g.pa % 0x80000))

/-- The old value of n bytes at a local address. -/
def bankOld (s : State) (A n : Nat) : BitVec (8 * n) := BitVec.ofNat (8 * n) (s.lsNum s.cur.1 A n)

/-- A `.rel` form has nothing to wait for: no store of the slot is on its way or in the L1 (R135, R218). -/
def released (s : State) (r : BitVec 1) : Prop := r = 1 → atHome s ∧ s.th.cntS = 0

/-- An atomic takes no effect at a bank but that of an acquire: the epoch (R136). -/
def acquires (s t : State) (q : BitVec 1) : Prop := t.co.epoch = (if q = 1 then s.co.epoch + 1 else s.co.epoch)

/-- What an atomic does to the location of its request: the operation's result on an old value (R215, R216). -/
def operates (o : Amo) (n : Nat) (f : BitVec (8 * n) → BitVec (8 * n)) : Prop :=
  o.width = n ∧ o.writes = true ∧ ∀ m : BitVec (8 * n), (o.apply m.toNat).1 = (f m).toNat

/-- Lines and fetches of the atomic's target line in the L1: none, one with no dirty byte, or one with dirty bytes that S has room to write
back (R134). -/
inductive TargetLine where
  | absent
  | clean
  | dirty (l : Line)

/-- The L1's line of an address, and no fetch of it on its way. -/
def targetLine (s : State) (base : Nat) : TargetLine → Prop
  | .absent => s.co.line base = none
  | .clean => ∃ l, s.co.line base = some l ∧ l.dirty = 0
  | .dirty l => s.co.line base = some l ∧ l.dirty ≠ 0

/-- An atomic of n bytes leaves as one request: with a destination L counts it and the register is pending, without one S counts it; an
acquire stalls its slot. Its target line in DRAM leaves the L1: dirty bytes are written back before it (R134, R187, R216 to R218). -/
def amoSent (s : State) (i : Instr) (r q : BitVec 1) (va : Word) (n d : Nat) (P : Amo → Prop) : Prop :=
  ∀ g, va.toNat % n = 0 → s.live.segments va n 2 = .ok ([g], s.live) → g.tgt ≠ .window s.cur.1 → released s r →
    s.th.cntS < 1022 → s.th.cntL < 1023 → d ≠ 31 → let base := g.pa / 64 * 64
    let dram := regionOf (g.pa % 2 ^ 40) = some 0
    (dram → ∀ f ∈ s.flights, ¬ (f.site = s.cur.1 ∧ f.pa = base)) →
    ∀ x, (if dram then targetLine s base x else x = .absent) →
    ∃ t f o ws, exec i s = .next t ∧ t.flights = s.flights ++ ws ++ [f] ∧ f.kind = .atomic o ∧ P o ∧ f.stage = .request ∧ f.pa = g.pa ∧
      f.size = n ∧ f.site = s.cur.1 ∧ f.slot = s.cur.2 ∧ f.acq = decide (q = 1) ∧ f.inS = decide (d = 0) ∧
      t.th.cntS = s.th.cntS + ws.length + (if d = 0 then 1 else 0) ∧ t.th.cntL = s.th.cntL + (if d = 0 then 0 else 1) ∧
      t.th.pend = (if d = 0 then [] else [(s.th.abs (.s d), f.grp)]) ∧
      (if q = 1 then t.th.run = .stalled ∧ t.th.phase = 2 ∧ t.th.pc = s.th.pc
        else t.th.run = .running ∧ t.th.phase = 0 ∧ t.th.pc = s.th.pc + 4) ∧
      (match x with
        | .absent => ws = [] ∧ t.co.l1 = s.co.l1
        | .clean => ws = [] ∧ ∀ l ∈ t.co.line base, l.valid = 0
        | .dirty y => (∃ w, ws = [w] ∧ w.kind = .writeback ∧ w.pa = base ∧ w.data = y.dirtyBytes ∧ w.inS = true) ∧
          ∀ l ∈ t.co.line base, l.valid = 0 ∧ l.dirty = 0) ∧
      (∀ m < 31, t.reg m = s.reg m) ∧ t.co.ls = s.co.ls ∧ elsewhere s t

/-- The bytes that an atomic's W field selects (R215). -/
def amoBytes (w : BitVec 1) : Nat := if w = 0 then 8 else 4

end Sys2Proof.Claims

/-- R214, R177, R85: a local load writes sD with the bytes at sA + EXTS(imm), sign-extended, and changes no memory; a local store writes
the low bytes of sD there and nowhere else, and sets the dirty bits of the tile-slot segments that it reaches. -/
def Sys2Proof.Claims.LocalLoadsAndStores : Prop :=
  ∀ s : State, s.plain →
    (∀ r ∈ Claims.localLoads, ∀ (i : BitVec 12) (a d : BitVec 5),
      Claims.loadsLocal s (r.1 i a d) (s.reg a.toNat + i.signExtend 64) d.toNat r.2 4) ∧
    (∀ r ∈ Claims.localStores, ∀ (i : BitVec 12) (a d : BitVec 5),
      Claims.storesLocal s (r.1 i a d) (s.reg a.toNat + i.signExtend 64) (s.reg d.toNat) r.2 4) ∧
    ∀ d a : BitVec 4, Claims.loadsLocal s (.cLdDLs d a) (s.reg a.toNat) d.toNat 8 2 ∧
      Claims.storesLocal s (.cStDLs d a) (s.reg a.toNat) (s.reg d.toNat) 8 2

/-- R214, R104, R360: a local access past 0x80000 takes the range trap with its address, and a store that meets the claimed Hive
range the protection trap with the first byte refused; neither has another effect. -/
def Sys2Proof.Claims.LocalTraps : Prop :=
  ∀ s : State, s.plain → ∀ (i : BitVec 12) (a d : BitVec 5), let la := s.reg a.toNat + i.signExtend 64
    (∀ r ∈ Claims.localLoads ++ Claims.localStores, 0x80000 < la.toNat + r.2 →
      exec (r.1 i a d) s = .next (Claims.trapped s 11 la)) ∧
    ∀ r ∈ Claims.localStores, la.toNat + r.2 ≤ 0x80000 → s.co.inClaim la.toNat r.2 = true →
      exec (r.1 i a d) s = .next (Claims.trapped s 12 (BitVec.ofNat 64 (max la.toNat s.co.hvb)))

/-- R210, R211, R177: a device load that hits the L1 writes its register at once; one outside the L1 leaves as a request. -/
def Sys2Proof.Claims.DeviceLoads : Prop :=
  ∀ s : State, s.plain →
    (∀ r ∈ Claims.deviceLoads, ∀ (i : BitVec 12) (a d : BitVec 5), let va := s.reg a.toNat + i.signExtend 64
      Claims.loadHits s (r.1 i a d) va d.toNat r.2.1 4 r.2.2 ∧ Claims.loadSent s (r.1 i a d) va d.toNat r.2.1 4) ∧
    (∀ d a : BitVec 4, Claims.loadHits s (.cLdD d a) (s.reg a.toNat) d.toNat 8 2 (.signed 64) ∧
      Claims.loadSent s (.cLdD d a) (s.reg a.toNat) d.toNat 8 2) ∧
    ∀ (d : BitVec 4) (i : BitVec 6), let va := s.reg 29 + BitVec.ofNat 64 (8 * i.toNat)
      Claims.loadHits s (.cLdDSp d i) va d.toNat 8 2 (.signed 64) ∧ Claims.loadSent s (.cLdDSp d i) va d.toNat 8 2

/-- R210, R211, R107, R177: a device store goes into a line that the L1 holds, or leaves as a request with its bytes; `st.z` stores
64 zeros at the line of its address. -/
def Sys2Proof.Claims.DeviceStores : Prop :=
  ∀ s : State, s.plain →
    (∀ r ∈ Claims.deviceStores, ∀ (i : BitVec 12) (a d : BitVec 5), let va := s.reg a.toNat + i.signExtend 64
      Claims.storeHits s (r.1 i a d) va (leBytes r.2 (s.reg d.toNat).toNat) 4 ∧
      Claims.storeSent s (r.1 i a d) va (s.reg d.toNat) r.2 4) ∧
    (∀ (i : BitVec 12) (a : BitVec 5),
      Claims.storeHits s (.stZ i a) ((s.reg a.toNat + i.signExtend 64) &&& ~~~63) (List.replicate 64 0) 4) ∧
    (∀ d a : BitVec 4, Claims.storeHits s (.cStD d a) (s.reg a.toNat) (leBytes 8 (s.reg d.toNat).toNat) 2 ∧
      Claims.storeSent s (.cStD d a) (s.reg a.toNat) (s.reg d.toNat) 8 2) ∧
    ∀ (d : BitVec 4) (i : BitVec 6), let va := s.reg 29 + BitVec.ofNat 64 (8 * i.toNat)
      Claims.storeHits s (.cStDSp d i) va (leBytes 8 (s.reg d.toNat).toNat) 2 ∧
      Claims.storeSent s (.cStDSp d i) va (s.reg d.toNat) 8 2

/-- R85, R96, R97, R104, R107, R113 to R116, R187, R360, R414, R415: a load that misses the L1 or straddles two lines asks for its lines; an
unaligned access, or one in two pages, leaves as aligned pieces; an access through the own window acts at the local store; an access that
faults in translation or in the map, or lies at two targets, traps with no other effect but TLB fills; a TLB miss asks for a walk. -/
def Sys2Proof.Claims.DeviceSplitsWindowsAndFaults : Prop :=
  ∀ s : State, s.plain →
    (∀ r ∈ Claims.deviceLoads, ∀ (i : BitVec 12) (a d : BitVec 5),
      Claims.loadRest s (r.1 i a d) (s.reg a.toNat + i.signExtend 64) d.toNat r.2.1 4 r.2.2) ∧
    (∀ d a : BitVec 4, Claims.loadRest s (.cLdD d a) (s.reg a.toNat) d.toNat 8 2 (.signed 64)) ∧
    (∀ (d : BitVec 4) (i : BitVec 6),
      Claims.loadRest s (.cLdDSp d i) (s.reg 29 + BitVec.ofNat 64 (8 * i.toNat)) d.toNat 8 2 (.signed 64)) ∧
    (∀ r ∈ Claims.deviceStores, ∀ (i : BitVec 12) (a d : BitVec 5),
      Claims.storeRest s (r.1 i a d) (s.reg a.toNat + i.signExtend 64) (leBytes r.2 (s.reg d.toNat).toNat) 4) ∧
    (∀ d a : BitVec 4, Claims.storeRest s (.cStD d a) (s.reg a.toNat) (leBytes 8 (s.reg d.toNat).toNat) 2) ∧
    (∀ (d : BitVec 4) (i : BitVec 6),
      Claims.storeRest s (.cStDSp d i) (s.reg 29 + BitVec.ofNat 64 (8 * i.toNat)) (leBytes 8 (s.reg d.toNat).toNat) 2) ∧
    ∀ (i : BitVec 12) (a : BitVec 5), let va := (s.reg a.toNat + i.signExtend 64) &&& ~~~63
      Claims.storeWindow s (.stZ i a) va (List.replicate 64 0) 4 ∧ Claims.accessFaults s (.stZ i a) va 64 1

/-- R355: in site mode a store of the boot root that leaves COMMIT[63] = 1 ends site mode: ENCNT and the package index take their boot
values, every core whose SET bit is 1 takes its number, and the thread goes out of rotation as by `wfw`; with a counter that is not 0 it
waits, and stores nothing. -/
def Sys2Proof.Claims.BootCommit : Prop :=
  ∀ s : State, s.plain → s.site = true → s.cur = (bootSite s.fused, 0) → ∀ (i : BitVec 12) (a d : BitVec 5),
    s.reg a.toNat + i.signExtend 64 = 0x7FFC8 → (s.reg d.toNat).getLsbD 63 = true → s.co.inClaim 0x7FFC8 8 = false →
    (s.th.cntr ≠ 0 → exec (.stDLs i a d) s = .next (Claims.waits s)) ∧
    (s.th.cntr = 0 → ∃ t, exec (.stDLs i a d) s = .next t ∧ t.site = false ∧ t.encnt = (s.reg d.toNat).toNat % 0x1000 ∧
      t.scarab.pidx = s.bootPidx ∧ t.th.run = .wfw ∧ t.th.wsr = s.th.wsr ∧
      Claims.storedAt s t s.cur.1 0x7FFC8 (leBytes 8 (s.reg d.toNat).toNat) ∧
      ∀ n < 2048, n ∉ s.fused → let w := s.lsWord n 0x7FFC0
        (w.getLsbD 63 = true → (t.core n).lcore = w.toNat % 0x1000 ∧ (t.core n).numbered = true) ∧
        (w.getLsbD 63 = false → (t.core n).lcore = (s.core n).lcore ∧ (t.core n).numbered = (s.core n).numbered))

/-- R115, R213: a prefetch of a line of NC = 0 DRAM that translates asks for that line, unless the L1 that it is for holds it; where both
TLBs miss it asks for a walk and issues again; where the page faults or is NC = 1, where the map refuses the address or names another
target, it does nothing. It touches no register. -/
def Sys2Proof.Claims.Prefetch : Prop :=
  ∀ (i : BitVec 12) (a : BitVec 5) (k : BitVec 1) (s : State), s.plain → let va := s.reg a.toNat + i.signExtend 64
    let x := s.live.translate s.cur.1 s.cur.2 s.th.priv s.th.walk va 0
    (∀ pa, x = .ok pa false s.live → s.live.decodePa pa 1 0 = .ok .dram → (k = 0 → s.co.hit (pa / 64 * 64) 0 64 = false) →
      ∃ t f, exec (.pf i a k) s = .next t ∧ t.flights = s.flights ++ [f] ∧ f.kind = .prefetch (decide (k = 0)) ∧
        f.pa = pa / 64 * 64 ∧ f.size = 64 ∧ t.th = s.th.went 4) ∧
    (∀ pa, x = .ok pa false s.live → s.live.decodePa pa 1 0 = .ok .dram → k = 0 → s.co.hit (pa / 64 * 64) 0 64 = true →
      exec (.pf i a k) s = .next (s.went 4)) ∧
    (∀ why s', x = .fault why s' → exec (.pf i a k) s = .next (s.setTh ({ s.th with walk := none }.went 4))) ∧
    (∀ pa s', x = .ok pa true s' → exec (.pf i a k) s = .next (s.went 4)) ∧
    (∀ pa s' why, x = .ok pa false s' → s'.decodePa pa 1 0 = .error why → exec (.pf i a k) s = .next (s.went 4)) ∧
    (∀ pa tgt, x = .ok pa false s.live → s.live.decodePa pa 1 0 = .ok tgt → tgt ≠ .dram → (∀ d, tgt ≠ .peer d) →
      exec (.pf i a k) s = .next (s.went 4)) ∧
    ∀ s', x = .miss s' → ∃ t, exec (.pf i a k) s = .next t ∧ Claims.walkAsked s t va

/-- R96, R135, R136, R215, R216, R218, R219: an atomic at the own bank, by local address or through the own window, writes the operation's
result and gives sD the old value, a `.rel` one where nothing of the slot is on its way; `.acq` bumps the epoch; `amo.fadd` rounds RNE and ORs
its flags into FLG. -/
def Sys2Proof.Claims.BankAtomics : Prop :=
  ∀ s : State, s.plain → s.site = false → ∀ (l rb q : BitVec 1) (b a : BitVec 5) (w : BitVec 1) (d : BitVec 5) (A : Nat),
    let n := Claims.amoBytes w
    let va := s.reg a.toNat
    let m := Claims.bankOld s A n
    Claims.bankReady s l va n A → Claims.released s rb →
    (∀ r ∈ Claims.atomics, ∃ t, exec (r.1 rb q l b a w d) s = .next t ∧
      Claims.storedAt s t s.cur.1 A (leBytes n (r.2.2 (8 * n) m ((s.reg b.toNat).setWidth _) ((s.reg d.toNat).setWidth _)).toNat) ∧
      t.th = ((s.th.setSreg d.toNat (if r.2.1 then m.signExtend 64 else m.setWidth 64)).went 4).endPhase ∧ Claims.elsewhere s t ∧
      Claims.segmentsDirty s t A n ∧ Claims.acquires s t q) ∧
    (∃ t, exec (.amoFadd rb q l b a w d) s = .next t ∧
      let r := (if w = 0 then fp64 else fp32).arith 0 0 0 m.toNat ((s.reg b.toNat).toNat % 2 ^ (8 * n))
      Claims.storedAt s t s.cur.1 A (leBytes n r.1) ∧
      t.th = (((s.th.setSreg d.toNat (m.setWidth 64)).orFlags r.2).went 4).endPhase ∧ Claims.elsewhere s t ∧ Claims.acquires s t q) ∧
    (∃ t, exec (.amoLd rb q l a w d) s = .next t ∧ t.co.ls = s.co.ls ∧
      t.th = ((s.th.setSreg d.toNat (m.setWidth 64)).went 4).endPhase ∧ Claims.elsewhere s t ∧ Claims.acquires s t q) ∧
    ∃ t, exec (.amoSt rb q l b a w) s = .next t ∧
      Claims.storedAt s t s.cur.1 A (leBytes n (s.reg b.toNat).toNat) ∧ t.th = (s.th.went 4).endPhase ∧
      Claims.elsewhere s t ∧ Claims.segmentsDirty s t A n ∧ Claims.acquires s t q

/-- R215, R388: an atomic traps where its address is misaligned, past the local store, in the claimed Hive range or refused by translation or
the map; a `.rel` one waits while S is not 0. -/
def Sys2Proof.Claims.AtomicChecks : Prop :=
  ∀ s : State, s.plain → ∀ (l rb q : BitVec 1) (b a : BitVec 5) (w : BitVec 1) (d : BitVec 5), let n := Claims.amoBytes w
    let va := s.reg a.toNat
    ∀ i ∈ Claims.atomics.map (fun r => r.1 rb q l b a w d) ++ [.amoFadd rb q l b a w d, .amoLd rb q l a w d, .amoSt rb q l b a w],
      (va.toNat % n ≠ 0 → exec i s = .next (Claims.trapped s 4 va)) ∧
      (va.toNat % n = 0 → l = 1 →
        (0x80000 < va.toNat + n → exec i s = .next (Claims.trapped s 11 va)) ∧
        (va.toNat + n ≤ 0x80000 → s.co.inClaim va.toNat n = true →
          exec i s = .next (Claims.trapped s 12 (BitVec.ofNat 64 (max va.toNat s.co.hvb))))) ∧
      (va.toNat % n = 0 → l = 0 → Claims.accessFaults s i va n 2 ∧ ∀ g, Claims.inOwnWindow s va n 2 g →
        s.co.inClaim (g.pa % 0x80000) n = true →
        exec i s = .next (Claims.trapped s 12 (BitVec.ofNat 64 (max (g.pa % 0x80000) s.co.hvb)))) ∧
      (rb = 1 → s.th.cntS ≠ 0 → (∃ A, Claims.bankReady s l va n A) ∨
          (va.toNat % n = 0 ∧ l = 0 ∧ ∃ g, s.live.segments va n 2 = .ok ([g], s.live) ∧ g.tgt ≠ .window s.cur.1) →
        ∃ t, exec i s = .next t ∧ t.th.run = .stalled ∧ t.th.phase = 10 ∧ t.th.pc = s.th.pc ∧ (∀ m < 31, t.reg m = s.reg m) ∧
          t.co.ls = s.co.ls ∧ Claims.elsewhere s t)

/-- R134, R187, R215 to R218: an atomic at another port leaves as one request with its operation. -/
def Sys2Proof.Claims.AtomicsSent : Prop :=
  ∀ s : State, s.plain → ∀ (rb q : BitVec 1) (b a : BitVec 5) (w : BitVec 1) (d : BitVec 5), let n := Claims.amoBytes w
    let va := s.reg a.toNat
    (∀ r ∈ Claims.atomics, Claims.amoSent s (r.1 rb q 0 b a w d) rb q va n d.toNat (fun o => Claims.operates o n
      (fun m => r.2.2 (8 * n) m ((s.reg b.toNat).setWidth _) ((s.reg d.toNat).setWidth _)))) ∧
    Claims.amoSent s (.amoFadd rb q 0 b a w d) rb q va n d.toNat (fun o => o.width = n ∧ o.writes = true ∧ ∀ m : BitVec (8 * n),
      o.apply m.toNat = (if w = 0 then fp64 else fp32).arith 0 0 0 m.toNat ((s.reg b.toNat).toNat % 2 ^ (8 * n))) ∧
    Claims.amoSent s (.amoLd rb q 0 a w d) rb q va n d.toNat (fun o => o.width = n ∧ o.writes = false) ∧
    Claims.amoSent s (.amoSt rb q 0 b a w) rb q va n 0 (fun o => Claims.operates o n (fun _ => (s.reg b.toNat).setWidth _))
/-! ## Number formats (R143, R145, R146, R150, R152 to R155, R204, R205, R236 to R238) -/

namespace Sys2Proof.Claims

/-- R143's table: exponent and fraction widths, bias, code of the greatest finite magnitude and that magnitude, infinity, and the code a
NaN result has (R145; +0 in a format without NaN, R153). -/
def formats : List (Fmt × Nat × Nat × Nat × Nat × Rat × Option Nat × Nat) :=
  [(fp64, 11, 52, 1023, 0x7FEFFFFFFFFFFFFF, (2 - 1 / 2 ^ 52) * 2 ^ 1023, some 0x7FF0000000000000, 0x7FF8000000000000),
   (fp32, 8, 23, 127, 0x7F7FFFFF, (2 - 1 / 2 ^ 23) * 2 ^ 127, some 0x7F800000, 0x7FC00000),
   (fp16, 5, 10, 15, 0x7BFF, 65504, some 0x7C00, 0x7E00),
   (bf16, 8, 7, 127, 0x7F7F, (2 - 1 / 2 ^ 7) * 2 ^ 127, some 0x7F80, 0x7FC0),
   (e5m2, 5, 2, 15, 0x7B, 57344, some 0x7C, 0x7E), (e4m3, 4, 3, 7, 0x7E, 448, none, 0x7F),
   (e3m2, 3, 2, 3, 0x1F, 28, none, 0), (e2m3, 2, 3, 1, 0x1F, 15 / 2, none, 0), (e2m1, 2, 1, 1, 0x7, 6, none, 0)]

/-- A format of R143. -/
def isFormat (f : Fmt) : Prop := ∃ r ∈ formats, r.1 = f

/-- The formats floating-point words compute in (R204). -/
def computes (f : Fmt) : Prop := f ∈ [fp32, fp64, fp16, bf16]

/-- 2 to a whole power. -/
def twoTo (e : Int) : Rat := if 0 ≤ e then ((2 ^ e.toNat : Nat) : Rat) else 1 / ((2 ^ (-e).toNat : Nat) : Rat)

/-- The magnitude that exponent field and fraction k stand for (R143), the exponent field not bounded above. -/
def mag (f : Fmt) (k : Nat) : Rat :=
  if k / 2 ^ f.m = 0 then twoTo (1 - f.bias) * ((k : Rat) / ((2 ^ f.m : Nat) : Rat))
  else twoTo (((k / 2 ^ f.m : Nat) : Int) - f.bias) * (1 + ((k % 2 ^ f.m : Nat) : Rat) / ((2 ^ f.m : Nat) : Rat))

/-- The code below the sign. -/
def body (f : Fmt) (x : Nat) : Nat := x % 2 ^ (f.w + f.m)

/-- The sign of a code. -/
def minus (f : Fmt) (x : Nat) : Bool := decide (x / 2 ^ (f.w + f.m) % 2 = 1)

/-- A code with a sign. -/
def codeOf (f : Fmt) (neg : Bool) (k : Nat) : Nat := if neg then k + 2 ^ (f.w + f.m) else k

/-- The code of a finite number, of an infinity, of a NaN, of a signalling NaN (R143, R145). -/
def isNum (f : Fmt) (x : Nat) : Prop := body f x ≤ f.top
def isInf (f : Fmt) (x : Nat) : Prop := f.inf = some (body f x)
def isNan (f : Fmt) (x : Nat) : Prop := ¬ isNum f x ∧ ¬ isInf f x
def signals (f : Fmt) (x : Nat) : Prop := isNan f x ∧ f.inf ≠ none ∧ x / 2 ^ (f.m - 1) % 2 = 0

/-- The number a finite code stands for. -/
def num (f : Fmt) (x : Nat) : Rat := if minus f x then - mag f (body f x) else mag f (body f x)

/-- The magnitude of a rational number. -/
def absR (x : Rat) : Rat := if x < 0 then - x else x

/-- An exact magnitude, by the thresholds that it reaches and those that it passes. -/
structure Exact where
  reaches : Rat → Prop
  passes : Rat → Prop

/-- The magnitude of x. -/
def exactly (x : Rat) : Exact := { reaches := fun t => t ≤ absR x, passes := fun t => t < absR x }

/-- The square root of x; the thresholds are not negative. -/
def rootOf (x : Rat) : Exact := { reaches := fun t => t * t ≤ x, passes := fun t => t * t < x }

/-- Between two neighbouring magnitudes, of which the lower has an odd last bit or not, the mode takes the upper (R150, R154). -/
def takesUpper (v : Exact) (mode r : Nat) (neg odd : Bool) (lo hi : Rat) : Prop :=
  match mode with
  | 0 => v.passes ((lo + hi) / 2) ∨ v.reaches ((lo + hi) / 2) ∧ odd
  | 1 => False
  | 2 => v.passes lo ∧ neg = false
  | 3 => v.passes lo ∧ neg = true
  | 4 => v.reaches ((lo + hi) / 2)
  | _ => v.reaches (lo + ((r + 1 : Nat) : Rat) * (hi - lo) / 65536)

/-- The least normal magnitude. -/
def minNormal (f : Fmt) : Rat := mag f (2 ^ f.m)

/-- Tiny (R152): rounded to the format's precision with an unbounded exponent it stays below the least normal magnitude; under SR, it lies
below that magnitude itself. -/
def tiny (f : Fmt) (v : Exact) (mode r : Nat) (neg : Bool) : Prop :=
  let g := minNormal f - minNormal f / ((2 ^ (f.m + 1) : Nat) : Rat)
  ¬ v.reaches (minNormal f) ∧ (mode = 5 ∨ ¬ (v.reaches g ∧ takesUpper v mode r neg true g (minNormal f)))

/-- The code and the flags that a magnitude with a sign rounds to (R150, R152, R154). -/
def rounded (f : Fmt) (v : Exact) (mode r : Nat) (neg : Bool) (res : FRes) : Prop :=
  (¬ v.passes 0 → res = (codeOf f neg 0, 0)) ∧
  (v.passes 0 → ∃ (k c : Nat) (nx uf : Bool), v.reaches (mag f k) ∧ ¬ v.reaches (mag f (k + 1)) ∧
    (takesUpper v mode r neg (decide (k % 2 = 1)) (mag f k) (mag f (k + 1)) → c = k + 1) ∧
    (¬ takesUpper v mode r neg (decide (k % 2 = 1)) (mag f k) (mag f (k + 1)) → c = k) ∧
    (nx = true ↔ v.passes (mag f k)) ∧ (uf = true ↔ tiny f v mode r neg ∧ nx = true ∨ c = 0) ∧
    (c ≤ f.top → res = (codeOf f neg c, flagIf nx fNX ||| flagIf uf fUF)) ∧
    (f.top < c → res = (if mode = 1 ∨ mode = 2 ∧ neg = true ∨ mode = 3 ∧ neg = false then codeOf f neg f.top
      else codeOf f neg (f.inf.getD f.top), fOF ||| fNX)))

/-- An exact result that is a number: R146 gives an exact zero its sign, the given one. -/
def delivers (f : Fmt) (x : Rat) (mode r : Nat) (zero : Bool) (res : FRes) : Prop :=
  (x = 0 → res = (codeOf f zero 0, 0)) ∧ (x ≠ 0 → rounded f (exactly x) mode r (decide (x < 0)) res)

/-- The sign of an exact zero sum of terms with the given signs (R146). -/
def sumSign (mode : Nat) (a b : Bool) : Bool := if a = b then a else decide (mode = 3)

/-- The canonical NaN with NV, as an invalid operation delivers it. -/
def invalid (f : Fmt) : FRes := (f.nanCode, fNV)

/-- An infinity without flags. -/
def infinite (f : Fmt) (neg : Bool) : FRes := (codeOf f neg (f.inf.getD f.top), 0)

/-- What an operation with a NaN among its inputs delivers (R145). -/
def nanResult (f : Fmt) (xs : List Nat) (res : FRes) : Prop :=
  ∃ nv : Bool, (nv = true ↔ ∃ x ∈ xs, signals f x) ∧ res = (f.nanCode, flagIf nv fNV)

/-- One number is below another; −0 equals +0, and no NaN is below or above anything. -/
def less (f : Fmt) (x y : Nat) : Prop :=
  isNum f x ∧ isNum f y ∧ num f x < num f y ∨
    isInf f x ∧ minus f x = true ∧ ¬ isNan f y ∧ ¬ (isInf f y ∧ minus f y = true) ∨
    isInf f y ∧ minus f y = false ∧ ¬ isNan f x ∧ ¬ (isInf f x ∧ minus f x = false)

/-- Two numbers are equal. -/
def same (f : Fmt) (x y : Nat) : Prop :=
  isNum f x ∧ isNum f y ∧ num f x = num f y ∨ isInf f x ∧ isInf f y ∧ minus f x = minus f y

/-- The order of the minimum and the maximum, −0 below +0 (R204). -/
def ordered (f : Fmt) (x y : Nat) : Prop :=
  less f x y ∨ isNum f x ∧ isNum f y ∧ num f x = 0 ∧ num f y = 0 ∧ minus f x = true ∧ minus f y = false

/-- A number of an integer type of w bits. -/
def intVal (unsigned : Bool) (w x : Nat) : Int := if unsigned ∨ x < 2 ^ (w - 1) then (x : Int) else (x : Int) - (2 ^ w : Nat)

end Sys2Proof.Claims

/-- R143, R145: the nine formats have the fields, limits and NaN results of the table, and reading a code gives the number, the infinity or
the NaN it stands for. -/
def Sys2Proof.Claims.FormatsRead : Prop :=
  (∀ q ∈ Claims.formats, q.1.w = q.2.1 ∧ q.1.m = q.2.2.1 ∧ q.1.bias = q.2.2.2.1 ∧ q.1.top = q.2.2.2.2.1 ∧
    Claims.mag q.1 q.1.top = q.2.2.2.2.2.1 ∧ q.1.inf = q.2.2.2.2.2.2.1 ∧ q.1.nanCode = q.2.2.2.2.2.2.2) ∧
  ∀ f, Claims.isFormat f → ∀ x : Nat,
    (Claims.isNum f x → ∃ n e, f.read x = .fin (Claims.minus f x) n e ∧ (n : Rat) * Claims.twoTo e = Claims.mag f (Claims.body f x)) ∧
    (Claims.isInf f x → f.read x = .inf (Claims.minus f x)) ∧
    (Claims.isNan f x → ∃ b, f.read x = .nan b ∧ (b = true ↔ Claims.signals f x))

/-- R145, R146, R150, R152, R154, R204, R205: a sum, difference, product, quotient, square root or fused expression of numbers is its exact
value rounded once, with the flags of that rounding; an exact zero has its sign from R146, and the root of a zero is that zero. -/
def Sys2Proof.Claims.ResultsRound : Prop :=
  ∀ f, Claims.computes f → ∀ (mode r x y z : Nat), mode ≤ 5 → Claims.isNum f x → Claims.isNum f y → Claims.isNum f z →
    Claims.delivers f (Claims.num f x + Claims.num f y) mode r
      (Claims.sumSign mode (Claims.minus f x) (Claims.minus f y)) (f.arith 0 mode r x y) ∧
    Claims.delivers f (Claims.num f x - Claims.num f y) mode r
      (Claims.sumSign mode (Claims.minus f x) (!Claims.minus f y)) (f.arith 1 mode r x y) ∧
    Claims.delivers f (Claims.num f x * Claims.num f y) mode r (xor (Claims.minus f x) (Claims.minus f y)) (f.arith 2 mode r x y) ∧
    (Claims.num f y ≠ 0 → Claims.delivers f (Claims.num f x / Claims.num f y) mode r
      (xor (Claims.minus f x) (Claims.minus f y)) (f.arith 3 mode r x y)) ∧
    (Claims.num f x = 0 → f.sqrtV mode r (f.read x) = (Claims.codeOf f (Claims.minus f x) 0, 0)) ∧
    (0 < Claims.num f x → Claims.rounded f (Claims.rootOf (Claims.num f x)) mode r false (f.sqrtV mode r (f.read x))) ∧
    ∀ p c : Bool, Claims.delivers f
      ((if p then - (Claims.num f x * Claims.num f y) else Claims.num f x * Claims.num f y) +
        if c then - Claims.num f z else Claims.num f z) mode r
      (Claims.sumSign mode (xor p (xor (Claims.minus f x) (Claims.minus f y))) (xor c (Claims.minus f z)))
      (f.fused p c mode r x y z)

/-- R145, R204, R205: with a NaN among its inputs an operation delivers the canonical NaN, with NV for a signalling one; ∞ − ∞, 0 × ∞ (of a
fused form even with a quiet NaN added), 0/0, ∞/∞ and the root of a number below 0 give NV; x/0 gives DZ and a signed ∞; the other
operations on infinities are exact. -/
def Sys2Proof.Claims.SpecialResults : Prop :=
  ∀ f, Claims.computes f → ∀ (mode r x y z : Nat), mode ≤ 5 →
    (∀ op < 4, Claims.isNan f x ∨ Claims.isNan f y → Claims.nanResult f [x, y] (f.arith op mode r x y)) ∧
    (∀ op < 2, let t := if op = 0 then Claims.minus f y else !Claims.minus f y
      (Claims.isInf f x → Claims.isInf f y → f.arith op mode r x y =
        if Claims.minus f x = t then Claims.infinite f t else Claims.invalid f) ∧
      (Claims.isInf f x → Claims.isNum f y → f.arith op mode r x y = Claims.infinite f (Claims.minus f x)) ∧
      (Claims.isNum f x → Claims.isInf f y → f.arith op mode r x y = Claims.infinite f t)) ∧
    (let t := xor (Claims.minus f x) (Claims.minus f y)
     (Claims.isInf f x → Claims.isInf f y → f.arith 2 mode r x y = Claims.infinite f t ∧ f.arith 3 mode r x y = Claims.invalid f) ∧
     (Claims.isInf f x → Claims.isNum f y → f.arith 3 mode r x y = Claims.infinite f t ∧
       (Claims.num f y ≠ 0 → f.arith 2 mode r x y = Claims.infinite f t) ∧ (Claims.num f y = 0 → f.arith 2 mode r x y = Claims.invalid f)) ∧
     (Claims.isNum f x → Claims.isInf f y → f.arith 3 mode r x y = (Claims.codeOf f t 0, 0) ∧
       (Claims.num f x ≠ 0 → f.arith 2 mode r x y = Claims.infinite f t) ∧ (Claims.num f x = 0 → f.arith 2 mode r x y = Claims.invalid f)) ∧
     (Claims.isNum f x → Claims.isNum f y → Claims.num f y = 0 → f.arith 3 mode r x y =
       if Claims.num f x = 0 then Claims.invalid f else (Claims.codeOf f t (f.inf.getD f.top), fDZ))) ∧
    (Claims.isNan f x → Claims.nanResult f [x] (f.sqrtV mode r (f.read x))) ∧
    (Claims.isInf f x → f.sqrtV mode r (f.read x) = if Claims.minus f x then Claims.invalid f else Claims.infinite f false) ∧
    (Claims.isNum f x → Claims.num f x < 0 → f.sqrtV mode r (f.read x) = Claims.invalid f) ∧
    ∀ p c : Bool,
      let t := xor p (xor (Claims.minus f x) (Claims.minus f y))
      let bad := Claims.isInf f x ∧ Claims.isNum f y ∧ Claims.num f y = 0 ∨ Claims.isNum f x ∧ Claims.num f x = 0 ∧ Claims.isInf f y
      (bad → f.fused p c mode r x y z = Claims.invalid f) ∧
      (¬ bad → Claims.isNan f x ∨ Claims.isNan f y ∨ Claims.isNan f z → Claims.nanResult f [x, y, z] (f.fused p c mode r x y z)) ∧
      (¬ bad → ¬ Claims.isNan f x → ¬ Claims.isNan f y → Claims.isInf f x ∨ Claims.isInf f y →
        (Claims.isNum f z → f.fused p c mode r x y z = Claims.infinite f t) ∧
        (Claims.isInf f z → f.fused p c mode r x y z =
          if t = xor c (Claims.minus f z) then Claims.infinite f t else Claims.invalid f)) ∧
      (Claims.isNum f x → Claims.isNum f y → Claims.isInf f z →
        f.fused p c mode r x y z = Claims.infinite f (xor c (Claims.minus f z)))

/-- R145, R204: the comparisons, the minimum and the maximum, the sign words' result and the class of a code. -/
def Sys2Proof.Claims.ComparisonsAndClasses : Prop :=
  ∀ f, Claims.computes f → ∀ x y : Nat, x < 2 ^ (f.w + f.m + 1) → y < 2 ^ (f.w + f.m + 1) →
    (((f.feq x y).1 = true ↔ Claims.same f x y) ∧ ((f.flt x y).1 = true ↔ Claims.less f x y) ∧
      ((f.fle x y).1 = true ↔ Claims.less f x y ∨ Claims.same f x y)) ∧
    (∃ q n : Bool, (q = true ↔ Claims.signals f x ∨ Claims.signals f y) ∧ (n = true ↔ Claims.isNan f x ∨ Claims.isNan f y) ∧
      (f.feq x y).2 = flagIf q fNV ∧ (f.flt x y).2 = flagIf n fNV ∧ (f.fle x y).2 = flagIf n fNV) ∧
    (∀ big : Bool,
      (Claims.signals f x ∨ Claims.signals f y → f.minmax big x y = Claims.invalid f) ∧
      (¬ Claims.signals f x → ¬ Claims.signals f y →
        (Claims.isNan f x → Claims.isNan f y → f.minmax big x y = (f.nanCode, 0)) ∧
        (Claims.isNan f x → ¬ Claims.isNan f y → f.minmax big x y = (y, 0)) ∧
        (¬ Claims.isNan f x → Claims.isNan f y → f.minmax big x y = (x, 0)) ∧
        (Claims.ordered f x y → f.minmax big x y = (if big then y else x, 0)) ∧
        (Claims.ordered f y x → f.minmax big x y = (if big then x else y, 0)) ∧
        (x = y → ¬ Claims.isNan f x → f.minmax big x y = (x, 0)))) ∧
    (∀ b : Bool, f.withSign b x = Claims.codeOf f b (Claims.body f x)) ∧
    (Claims.isInf f x → f.classOf x = if Claims.minus f x then 1 else 128) ∧
    (Claims.signals f x → f.classOf x = 256) ∧ (Claims.isNan f x → ¬ Claims.signals f x → f.classOf x = 512) ∧
    (Claims.isNum f x → f.classOf x =
      if Claims.num f x = 0 then (if Claims.minus f x then 8 else 16)
      else if Claims.mag f (Claims.body f x) < Claims.minNormal f then (if Claims.minus f x then 4 else 32)
      else if Claims.minus f x then 2 else 64)

/-- R142, R153: a conversion to a format rounds the number; ±∞ becomes ±∞ or, with OF and NX, the greatest finite value; a NaN becomes
the canonical NaN, or +0 with NV in a format without NaN; an integer rounds; a conversion to an integer rounds to a whole number and clamps,
with NV where it clamps and NX where it only rounds. -/
def Sys2Proof.Claims.ConversionsRound : Prop :=
  (∀ f g, Claims.isFormat f → Claims.isFormat g → ∀ mode r x : Nat, mode ≤ 5 →
    (Claims.isNum f x → Claims.rounded g (Claims.exactly (Claims.num f x)) mode r (Claims.minus f x) (f.convert g mode r x)) ∧
    (Claims.isInf f x → f.convert g mode r x =
      (Claims.codeOf g (Claims.minus f x) (g.inf.getD g.top), if g.inf = none then fOF ||| fNX else 0)) ∧
    (Claims.isNan f x → ∃ nv : Bool, (nv = true ↔ Claims.signals f x ∨ g.nan = none) ∧ f.convert g mode r x = (g.nanCode, flagIf nv fNV))) ∧
  (∀ f, Claims.computes f → ∀ (mode r : Nat) (v : Int), mode ≤ 5 →
    Claims.rounded f (Claims.exactly (v : Rat)) mode r (decide (v < 0)) (f.ofInt mode r v)) ∧
  ∀ f, Claims.computes f → ∀ w ∈ [8, 16, 32, 64], ∀ (mode r x : Nat) (sg : Bool), mode ≤ 5 →
    let low : Int := if sg then - (2 ^ (w - 1) : Nat) else 0
    let high : Int := if sg then (2 ^ (w - 1) : Nat) - 1 else (2 ^ w : Nat) - 1
    let code := fun v : Int => (v % (2 ^ w : Nat)).toNat
    (Claims.isNan f x → f.toInt mode r w sg x = (0, fNV)) ∧
    (Claims.isInf f x → f.toInt mode r w sg x = (code (if Claims.minus f x then low else high), fNV)) ∧
    (Claims.isNum f x → ∃ (k c : Nat) (nx : Bool),
      let v := Claims.exactly (Claims.num f x)
      let i : Int := if Claims.minus f x then - (c : Int) else c
      v.reaches k ∧ ¬ v.reaches ((k + 1 : Nat) : Rat) ∧ (nx = true ↔ v.passes k) ∧
      (Claims.takesUpper v mode r (Claims.minus f x) (decide (k % 2 = 1)) k ((k + 1 : Nat) : Rat) → c = k + 1) ∧
      (¬ Claims.takesUpper v mode r (Claims.minus f x) (decide (k % 2 = 1)) k ((k + 1 : Nat) : Rat) → c = k) ∧
      (low ≤ i → i ≤ high → f.toInt mode r w sg x = (code i, flagIf nx fNX)) ∧
      (i < low → f.toInt mode r w sg x = (code low, fNV)) ∧ (high < i → f.toInt mode r w sg x = (code high, fNV)))

/-- R155, R236 to R238: the step of the generator; the combining step of a scan; the minimum and the maximum of a register's numbers,
which do not depend on their order. -/
def Sys2Proof.Claims.ReductionsAndGenerator : Prop :=
  (∀ x : Word, let a := x ^^^ x <<< 13
    let b := a ^^^ a >>> 7
    xorshift x = b ^^^ b <<< 17) ∧ xorshift 1 = 0x40822041 ∧
  (∀ q ∈ [((4 : BitVec 3), fp16), (5, bf16), (6, fp32), (7, fp64)], ∀ (mode r x y : Nat) (u : Bool),
    combineOf q.1 0 u mode r x y = q.2.arith 0 mode r x y ∧ combineOf q.1 1 u mode r x y = q.2.minmax false x y ∧
      combineOf q.1 2 u mode r x y = q.2.minmax true x y) ∧
  (∀ q ∈ [((0 : BitVec 3), 8), (1, 16), (2, 32), (3, 64)], ∀ (mode r x y : Nat) (u : Bool), x < 2 ^ q.2 → y < 2 ^ q.2 →
    combineOf q.1 0 u mode r x y = ((x + y) % 2 ^ q.2, 0) ∧
    (∃ z ∈ [x, y], combineOf q.1 1 u mode r x y = (z, 0) ∧ ∀ t ∈ [x, y], Claims.intVal u q.2 z ≤ Claims.intVal u q.2 t) ∧
    ∃ z ∈ [x, y], combineOf q.1 2 u mode r x y = (z, 0) ∧ ∀ t ∈ [x, y], Claims.intVal u q.2 t ≤ Claims.intVal u q.2 z) ∧
  ∀ f, Claims.computes f → ∀ (big : Bool) (xs : List Nat), (∀ x ∈ xs, x < 2 ^ (f.w + f.m + 1)) →
    ((∃ x ∈ xs, Claims.signals f x) → fltReduce f big xs = Claims.invalid f) ∧
    ((∀ x ∈ xs, Claims.isNan f x ∧ ¬ Claims.signals f x) → fltReduce f big xs = (f.nanCode, 0)) ∧
    ((∀ x ∈ xs, ¬ Claims.signals f x) → (∃ x ∈ xs, ¬ Claims.isNan f x) →
      ∃ z ∈ xs, ¬ Claims.isNan f z ∧ fltReduce f big xs = (z, 0) ∧
        ∀ x ∈ xs, ¬ (if big then Claims.ordered f z x else Claims.ordered f x z))

/-! ## Scalar floating point (R204, R205, R157, R161 to R163) -/

namespace Sys2Proof.Claims

/-- The rounding mode of a word's RM field: 7 names RND.MODE (R151). -/
def roundMode (s : State) (rm : BitVec 3) : Nat := if rm = 7 then s.th.rnd.toNat else rm.toNat

/-- SRS after a scalar word that rounds in a mode: one step of the generator under SR, mode 5 (R157). -/
def srsStep (mode : Nat) (x : Word) : Word := if mode = 5 then xorshift x else x

/-- The random number that a scalar word rounds with: output [15:0] of one step (R157). -/
def srDraw (s : State) : Nat := ((xorshift s.th.srs).extractLsb' 0 16).toNat

/-- The low bits of a register that a format reads (R204). -/
def low (s : State) (f : Fmt) (n : Nat) : Nat := (s.reg n).toNat % 2 ^ f.size

/-- A word raises flags: with none of them enabled the thread becomes the given one, with SRS and FLG written and the cluster's sticky
flags set; with one enabled it is left alone but for SRS and FLG, and the arithmetic trap is taken with the flags (R161, R163). -/
def raises (s : State) (i : Instr) (fl : BitVec 6) (srs : Word) (th : Thread) : Prop :=
  (s.th.trapsOn fl = false → ∃ t, exec i s = .next t ∧ t.th = { (th.orFlags fl).went 4 with srs := srs } ∧
    (t.cluster (clusterOf s.cur.1)).stk = (s.cluster (clusterOf s.cur.1)).stk ||| fl ∧ t.co.ls = s.co.ls ∧ elsewhere s t) ∧
  (s.th.trapsOn fl = true → s.th.act = false → s.co.thbEn = true → ∃ t, exec i s = .next t ∧
    t.th.run = .trapped ∧ t.th.xcode = 6 ∧ t.th.xval = fl.zeroExtend 64 ∧ t.th.xpc = s.th.pc ∧ t.th.srs = srs ∧
    t.th.flg = s.th.flg ||| fl.zeroExtend 14 ∧ t.th.glob = s.th.glob ∧ t.th.win = s.th.win ∧ t.th.vec = s.th.vec ∧
    t.th.prd = s.th.prd ∧ t.co.ls = s.co.ls ∧ elsewhere s t)

/-- A scalar float word: the result goes to sD, zero-extended, with its flags (R204). -/
def floats (s : State) (i : Instr) (d : Nat) (r : FRes) (srs : Word) : Prop :=
  raises s i r.2 srs (s.th.setSreg d (BitVec.ofNat 64 r.1))

/-- R204: the rounding words with two sources. -/
def fpArith : List ((BitVec 3 → BitVec 5 → BitVec 5 → BitVec 2 → BitVec 5 → Instr) × (Fmt → Nat → Nat → FVal → FVal → FRes)) :=
  [(.fadd, Fmt.addV), (.fsub, fun f m r a b => f.addV m r a b.neg), (.fmul, Fmt.mulV), (.fdiv, Fmt.divV)]

/-- R204: the words with two sources that do not round. -/
def fpExact : List ((BitVec 5 → BitVec 5 → BitVec 2 → BitVec 5 → Instr) × (Fmt → Nat → Nat → FRes)) :=
  [(.fmin, fun f x y => f.minmax false x y), (.fmax, fun f x y => f.minmax true x y),
   (.fsgnj, fun f x y => (f.withSign (f.sign y) x, 0)), (.fsgnjn, fun f x y => (f.withSign (!f.sign y) x, 0)),
   (.fsgnjx, fun f x y => (f.withSign (xor (f.sign x) (f.sign y)) x, 0)),
   (.feq, fun f x y => (b2n ((f.read x).eq (f.read y)),
      flagIf (decide (f.read x = .nan true) || decide (f.read y = .nan true)) fNV)),
   (.flt, fun f x y => (b2n ((f.read x).lt false (f.read y)), flagIf (anyNan [f.read x, f.read y]) fNV)),
   (.fle, fun f x y => (b2n ((f.read x).lt false (f.read y) || (f.read x).eq (f.read y)),
      flagIf (anyNan [f.read x, f.read y]) fNV))]

/-- R205: the fused words, with the signs that NEG and the major give the product and the addend. -/
def fpFused : List ((BitVec 5 → BitVec 3 → BitVec 5 → BitVec 5 → BitVec 1 → BitVec 5 → Instr) × Bool × Bool) :=
  [(.fmadd, false, false), (.fmsub, false, true), (.fnmsub, true, false), (.fnmadd, true, true)]

/-- A value with its sign changed or kept. -/
def withNeg (n : Bool) (x : FVal) : FVal := if n then x.neg else x

/-- Bits of the integer type that `ftoi` and `itof` name, and whether it is signed (R204). -/
def intType (t : BitVec 3) : Nat × Bool := (64 / 2 ^ (t.toNat % 4), decide (t.toNat < 4))

end Sys2Proof.Claims

/-- R204, R157, R161: the arithmetic, square root and conversion words round once in the word's mode; under SR they take one step of
SRS; an enabled flag traps. -/
def Sys2Proof.Claims.RoundingWords : Prop :=
  ∀ s : State, s.plain → ∀ (rm : BitVec 3) (b a : BitVec 5) (ft : BitVec 2) (d : BitVec 5), rm ≠ 6 →
    let f := ftFmt ft
    let m := Claims.roundMode s rm
    let srs := Claims.srsStep m s.th.srs
    let x := Claims.low s f a.toNat
    (∀ r ∈ Claims.fpArith, Claims.floats s (r.1 rm b a ft d) d.toNat
      (r.2 f m (Claims.srDraw s) (f.read x) (f.read (Claims.low s f b.toNat))) srs) ∧
    Claims.floats s (.fsqrt rm a ft d) d.toNat (f.sqrtV m (Claims.srDraw s) (f.read x)) srs ∧
    (∀ g : BitVec 2, Claims.floats s (.fcvt rm g a ft d) d.toNat (f.convert (ftFmt g) m (Claims.srDraw s) x) srs) ∧
    (∀ t : BitVec 3, let w := (Claims.intType t).1
      let r := f.toInt m (Claims.srDraw s) w (Claims.intType t).2 x
      Claims.floats s (.ftoi rm t a ft d) d.toNat (if (Claims.intType t).2 then (extS w r.1).toNat else r.1, r.2) srs) ∧
    ∀ t : BitVec 3, let w := (Claims.intType t).1
      let v : BitVec w := (s.reg a.toNat).setWidth w
      Claims.floats s (.itof rm t a ft d) d.toNat (f.ofInt m (Claims.srDraw s) (if (Claims.intType t).2 then v.toInt else v.toNat)) srs

/-- R205: the fused words round a × b ± c, or its negative product, once. -/
def Sys2Proof.Claims.FusedWords : Prop :=
  ∀ r ∈ Claims.fpFused, ∀ (s : State), s.plain → ∀ (c : BitVec 5) (rm : BitVec 3) (b a : BitVec 5) (ft : BitVec 1) (d : BitVec 5), rm ≠ 6 →
    let f := ftFmt1 ft
    let m := Claims.roundMode s rm
    Claims.floats s (r.1 c rm b a ft d) d.toNat (f.fmaV m (Claims.srDraw s)
      (Claims.withNeg r.2.1 (f.read (Claims.low s f a.toNat))) (f.read (Claims.low s f b.toNat))
      (Claims.withNeg r.2.2 (f.read (Claims.low s f c.toNat)))) (Claims.srsStep m s.th.srs)

/-- R204: minimum, maximum, sign words, comparisons and `fclass` round nothing and leave SRS alone. -/
def Sys2Proof.Claims.ExactFloatWords : Prop :=
  ∀ s : State, s.plain → ∀ (b a : BitVec 5) (ft : BitVec 2) (d : BitVec 5), let f := ftFmt ft
    (∀ r ∈ Claims.fpExact, Claims.floats s (r.1 b a ft d) d.toNat (r.2 f (Claims.low s f a.toNat) (Claims.low s f b.toNat)) s.th.srs) ∧
    Claims.floats s (.fclass a ft d) d.toNat (f.classOf (Claims.low s f a.toNat), 0) s.th.srs

/-! ## Work identifier, geometry and extension registers (R39 to R41, R202, R203) -/

namespace Sys2Proof.Claims

/-- Width of field k of the work identifier: the six bits of GEO2 at 6 × k (R39, R40). -/
def fieldBits (geo2 : Word) (k : Nat) : Nat := (geo2.extractLsb' (6 * k) 6).toNat

/-- Field k of a work identifier: its width's bits above the fields below it (R39). -/
def field (geo2 x : Word) (k : Nat) : Nat := x.toNat / 2 ^ ((List.range k).map (fieldBits geo2)).sum % 2 ^ fieldBits geo2 k

/-- Extent X, tile extent T and coordinate c of a dimension (R40, R41). -/
def extent (t : Thread) (m : Nat) : Nat := (t.task.geo0.extractLsb' (21 * m) 21).toNat
def tile (t : Thread) (m : Nat) : Nat := (t.task.geo1.extractLsb' (12 * m) 12).toNat
def coord (t : Thread) (m : Nat) : Nat :=
  let f := (t.task.geo1.extractLsb' (36 + 3 * m) 3).toNat
  if f ≤ 5 then field t.task.geo2 t.wid f else 0

/-- len and edge of R41. -/
def len (t : Thread) (m : Nat) : Nat :=
  let start := coord t m * tile t m
  if extent t m ≤ start then 0 else min (tile t m) (extent t m - start)
def edge (t : Thread) (m : Nat) : Nat := if tile t m = 0 ∨ extent t m < coord t m * tile t m + tile t m then 1 else 0

end Sys2Proof.Claims

/-- R41, R202: `geo` writes start, length, coordinate or the edge mask of the tile, and `wid` a field of WID or of sA. -/
def Sys2Proof.Claims.GeometryWords : Prop :=
  ∀ s : State, s.plain → ∀ d : BitVec 5,
    (∀ m : BitVec 2, m ≠ 3 →
      exec (.geoStart m d) s = .next (Claims.wrote s d.toNat (BitVec.ofNat 64 (Claims.coord s.th m.toNat * Claims.tile s.th m.toNat)) 4) ∧
      exec (.geoLen m d) s = .next (Claims.wrote s d.toNat (BitVec.ofNat 64 (Claims.len s.th m.toNat)) 4) ∧
      exec (.geoCrd m d) s = .next (Claims.wrote s d.toNat (BitVec.ofNat 64 (Claims.coord s.th m.toNat)) 4)) ∧
    exec (.geoEdge d) s = .next (Claims.wrote s d.toNat
      (BitVec.ofNat 64 (Claims.edge s.th 0 + 2 * Claims.edge s.th 1 + 4 * Claims.edge s.th 2)) 4) ∧
    ∀ k : BitVec 3, k.toNat ≤ 5 →
      exec (.widField k d) s = .next (Claims.wrote s d.toNat (BitVec.ofNat 64 (Claims.field s.th.task.geo2 s.th.wid k.toNat)) 4) ∧
      ∀ a : BitVec 5, exec (.widReg k a d) s = .next (Claims.wrote s d.toNat
        (BitVec.ofNat 64 (Claims.field s.th.task.geo2 (s.reg a.toNat) k.toNat)) 4)

/-- R202, R203: the extension registers are set from a register, from the local store and read back; `tsa` gives the address of a tile
slot from its OFFS entry. -/
def Sys2Proof.Claims.ExtensionWords : Prop :=
  ∀ s : State, s.plain → ∀ (a d : BitVec 5) (n : BitVec 3) (i : BitVec 12), let la := s.reg a.toNat + i.signExtend 64
    exec (.xli i a n) s = .next (s.setTh ((s.th.setEreg n.toNat la).went 4)) ∧
    exec (.xmv n d) s = .next (Claims.wrote s d.toNat (s.th.ereg n.toNat) 4) ∧
    (la.toNat % 8 = 0 → la.toNat + 8 ≤ 0x80000 → anyBad s.co.lsBad la.toNat 8 = false → s.co.bankReady la.toNat 8 < s.co.cyc + 16 →
      ∃ t, exec (.xld i a n) s = .next t ∧
        t.th = (s.th.setEreg n.toNat (BitVec.ofNat 64 (leNat (s.lsSeen s.cur.1 la.toNat 8)))).went 4 ∧
        t.co.ls = s.co.ls ∧ Claims.elsewhere s t) ∧
    (la.toNat % 8 ≠ 0 → exec (.xld i a n) s = .next (Claims.trapped s 4 la)) ∧
    ∀ j : BitVec 3, s.frameAt (s.reg a.toNat) = true → let f := (s.reg a.toNat).toNat - 256
      s.lsNum s.cur.1 (f + 28) 1 = 1 → s.co.lsBad = [] → let o := s.lsNum s.cur.1 (f + 32 + 4 * j.toNat) 4
      ∃ t, exec (.tsa j a d) s = .next t ∧
        t.th = (s.th.setSreg d.toNat (if o = 0xFFFFFFFF then BitVec.allOnes 64 else s.reg a.toNat + BitVec.ofNat 64 o)).went 4 ∧
        t.co.ls = s.co.ls ∧ Claims.elsewhere s t
/-! ## Vector words (R226 to R245) -/

namespace Sys2Proof.Claims

/-- Element j of w bytes of a vector register (R226). -/
def lane (v : Vec) (w j : Nat) : BitVec (8 * w) := v.extractLsb' (8 * w * j) (8 * w)

/-- Element j of vector register n of the issuing thread. -/
def vlane (s : State) (n w j : Nat) : BitVec (8 * w) := lane (s.th.vreg n) w j

/-- Element j of operand B: a vector register's, or sB's low bytes for every element (R226). -/
def blane (s : State) (bs : BitVec 1) (b : BitVec 5) (w j : Nat) : BitVec (8 * w) :=
  if bs = 1 then (s.reg b.toNat).setWidth _ else vlane s b.toNat w j

/-- Element j is active under p[P]: bit j × w (R173). -/
def on (s : State) (p : BitVec 3) (w j : Nat) : Bool := (s.th.preg p.toNat).getLsbD (j * w)

/-- A vector register holds the given elements where they are active, and its old ones elsewhere (R227). -/
def merged (s : State) (p : BitVec 3) (d w : Nat) (f : Nat → BitVec (8 * w)) (v : Vec) : Prop :=
  ∀ j < 64 / w, lane v w j = if on s p w j then f j else vlane s d w j

/-- A word writes the active elements of vD, and changes nothing else. -/
def writesVec (s : State) (i : Instr) (p : BitVec 3) (d w : Nat) (f : Nat → BitVec (8 * w)) : Prop :=
  ∃ v, exec i s = .next (s.setTh ((s.th.setVreg d v).went 4)) ∧ merged s p d w f v

/-- A word writes all elements of vD, and changes nothing else. -/
def writesAll (s : State) (i : Instr) (d w : Nat) (f : Nat → BitVec (8 * w)) : Prop :=
  ∃ v, exec i s = .next (s.setTh ((s.th.setVreg d v).went 4)) ∧ ∀ j < 64 / w, lane v w j = f j

/-- A predicate holds, in every byte lane of element j, whether that element is active and its test holds (R231). -/
def tested (s : State) (p : BitVec 3) (w : Nat) (f : Nat → Bool) (v : Word) : Prop :=
  ∀ k < 64, v.getLsbD k = (on s p w (k / w) && f (k / w))

/-- The flags of the active elements together (R228). -/
def laneFlags (s : State) (p : BitVec 3) (w : Nat) (r : Nat → FRes) : BitVec 6 :=
  (List.range (64 / w)).foldl (fun fl j => if on s p w j then fl ||| (r j).2 else fl) 0

/-- A word gives every active element a result with flags; under SR the generator has taken the given steps (R228). -/
def floatsVec (s : State) (i : Instr) (p : BitVec 3) (d w : Nat) (r : Nat → FRes) (srs : Word) : Prop :=
  ∃ v, merged s p d w (fun j => BitVec.ofNat _ (r j).1) v ∧ raises s i (laneFlags s p w r) srs (s.th.setVreg d v)

/-- SRS after a word that rounds n elements in a mode: a step for every four under SR, mode 5 (R157). -/
def srsSteps (mode n : Nat) (x : Word) : Word := if mode = 5 then srsAfter ((n + 3) / 4) x else x

/-- The random bits of rounded element j: 16 bits of step j / 4 (R157). -/
def srLane (s : State) (j : Nat) : Nat := ((srsAfter (j / 4 + 1) s.th.srs).extractLsb' (16 * (j % 4)) 16).toNat

/-- A word of format VA on an integer type. -/
abbrev Va := BitVec 3 → BitVec 2 → BitVec 1 → BitVec 5 → BitVec 4 → BitVec 4 → Instr

/-- Bytes of an integer element type 0 to 3 (R173). -/
def intBytes (e : BitVec 2) : Nat := 2 ^ e.toNat

/-- The rows of R230 with two operands, at n bits. -/
def vecIntWords : List (Va × ((n : Nat) → BitVec n → BitVec n → BitVec n)) :=
  [(.vadd, fun _ a b => a + b), (.vsub, fun _ a b => a - b), (.vmul, fun _ a b => a * b),
   (.vmulh, fun n a b => BitVec.ofInt n (a.toInt * b.toInt / 2 ^ n)),
   (.vmulhu, fun n a b => BitVec.ofNat n (a.toNat * b.toNat / 2 ^ n)),
   (.vadds, fun n a b => BitVec.ofInt n (clampS n (a.toInt + b.toInt))),
   (.vaddsu, fun n a b => BitVec.ofInt n (clampU n (a.toNat + b.toNat))),
   (.vsubs, fun n a b => BitVec.ofInt n (clampS n (a.toInt - b.toInt))),
   (.vsubsu, fun n a b => BitVec.ofInt n (clampU n (a.toNat - b.toNat))),
   (.vmin, fun _ a b => if a.toInt ≤ b.toInt then a else b), (.vmax, fun _ a b => if a.toInt ≤ b.toInt then b else a),
   (.vminu, fun _ a b => if a.toNat ≤ b.toNat then a else b), (.vmaxu, fun _ a b => if a.toNat ≤ b.toNat then b else a),
   (.vand, fun _ a b => a &&& b), (.vor, fun _ a b => a ||| b), (.vxor, fun _ a b => a ^^^ b),
   (.vshl, fun n a b => a <<< (b.toNat % n)), (.vshr, fun n a b => a >>> (b.toNat % n)),
   (.vsar, fun n a b => a.sshiftRight (b.toNat % n))]

/-- The comparisons of R231. -/
def vecCmpWords : List ((BitVec 3 → BitVec 2 → BitVec 1 → BitVec 5 → BitVec 4 → BitVec 3 → Instr) ×
    ((n : Nat) → BitVec n → BitVec n → Bool)) :=
  [(.vcmpeq, fun _ a b => a == b), (.vcmplt, fun _ a b => a.toInt < b.toInt), (.vcmpltu, fun _ a b => a.toNat < b.toNat),
   (.vcmple, fun _ a b => a.toInt ≤ b.toInt), (.vcmpleu, fun _ a b => a.toNat ≤ b.toNat)]

/-- The floating-point words of R239 with two operands, and whether they round. -/
def vecFpWords : List (Va × Bool × (Fmt → Nat → Nat → Nat → Nat → FRes)) :=
  [(.vfadd, true, fun f m r x y => f.addV m r (f.read x) (f.read y)),
   (.vfsub, true, fun f m r x y => f.addV m r (f.read x) (f.read y).neg),
   (.vfmul, true, fun f m r x y => f.mulV m r (f.read x) (f.read y)),
   (.vfdiv, true, fun f m r x y => f.divV m r (f.read x) (f.read y)),
   (.vfmin, false, fun f _ _ x y => f.minmax false x y), (.vfmax, false, fun f _ _ x y => f.minmax true x y),
   (.vfsgnj, false, fun f _ _ x y => (f.withSign (f.sign y) x, 0)),
   (.vfsgnjn, false, fun f _ _ x y => (f.withSign (!f.sign y) x, 0)),
   (.vfsgnjx, false, fun f _ _ x y => (f.withSign (xor (f.sign x) (f.sign y)) x, 0))]

/-- The floating-point comparisons of R239. -/
def vecFpCmpWords : List ((BitVec 3 → BitVec 2 → BitVec 1 → BitVec 5 → BitVec 4 → BitVec 3 → Instr) × (Fmt → Nat → Nat → Bool × BitVec 6)) :=
  [(.vfcmpeq, Fmt.feq), (.vfcmplt, Fmt.flt), (.vfcmple, Fmt.fle)]

/-- The format of a floating-point element type 4 to 7, by its low two bits, and its bytes (R173). -/
def fpType (e : BitVec 2) : Fmt := etFmt (4 + e.toNat)
def fpBytes (e : BitVec 2) : Nat := (fpType e).size / 8

/-- The active elements of a register with their numbers, ascending. -/
def activeLanes (s : State) (p : BitVec 3) (n w : Nat) : List (Nat × BitVec (8 * w)) :=
  ((List.range (64 / w)).filter (on s p w)).map (fun j => (j, vlane s n w j))

/-- The integer reductions of R237 on the active elements, from their identity: value and whether it is sign-extended. -/
def intReductions (n : Nat) (xs : List (BitVec n)) : List (BitVec n × Bool) :=
  [(xs.foldl (· + ·) 0, true),
   (xs.foldl (fun a x => if x.toInt < a.toInt then x else a) (BitVec.intMax n), true),
   (xs.foldl (fun a x => if a.toInt < x.toInt then x else a) (BitVec.intMin n), true),
   (xs.foldl (fun a x => if x.toNat < a.toNat then x else a) (BitVec.allOnes n), false),
   (xs.foldl (fun a x => if a.toNat < x.toNat then x else a) 0, false),
   (xs.foldl (· &&& ·) (BitVec.allOnes n), false), (xs.foldl (· ||| ·) 0, false), (xs.foldl (· ^^^ ·) 0, false)]

/-- The value a scan has reached over some active elements: the first one as it is, then combined one by one (R236). -/
def scanned (comb : Nat → Nat → Nat → FRes) (w : Nat) (start : Nat) : List (Nat × BitVec (8 * w)) → FRes
  | [] => (start, 0)
  | x :: t => t.foldl (fun v y => let r := comb y.1 v.1 y.2.toNat; (r.1, v.2 ||| r.2)) (x.2.toNat, 0)

/-- The sum over the five trits of a valid ternary byte against five signed bytes (R149, R235). -/
def tritSum (x : Nat) (act : Nat → BitVec 8) : Int :=
  ((List.range 5).map (fun k => (if x / 3 ^ k % 3 = 1 then (act k).toInt else if x / 3 ^ k % 3 = 2 then -(act k).toInt else 0))).sum

/-- The predicate words of R243 with two sources. -/
def predWords : List ((BitVec 3 → BitVec 3 → BitVec 3 → Instr) × (Word → Word → Word)) :=
  [(.pand, (· &&& ·)), (.por, (· ||| ·)), (.pxor, (· ^^^ ·)), (.pandn, fun x y => x &&& ~~~y)]

/-- The permutations of R241 of two registers: where element j of D comes from in A followed by B, with n elements in each. -/
def zipWords : List ((BitVec 3 → BitVec 3 → BitVec 4 → BitVec 4 → BitVec 4 → Instr) × (Nat → Nat → Nat)) :=
  [(.vzipLo, fun n j => j / 2 + if j % 2 = 0 then 0 else n), (.vzipHi, fun n j => n / 2 + j / 2 + if j % 2 = 0 then 0 else n),
   (.vunzipEv, fun _ j => 2 * j), (.vunzipOd, fun _ j => 2 * j + 1)]

/-- The fused words of R245 with the signs of the product and the addend. -/
def vecFused : List ((BitVec 3 → BitVec 3 → BitVec 4 → BitVec 4 → BitVec 1 → BitVec 4 → BitVec 4 → Instr) × Bool × Bool) :=
  [(.vfmadd, false, false), (.vfmsub, false, true), (.vfnmsub, true, false), (.vfnmadd, true, true)]

/-- An element type is a floating-point one: codes 4 to 7 (R173). -/
def isFp (e : BitVec 3) : Bool := 4 ≤ e.toNat

/-- R240: the conversion of one element between two types. -/
def converted (src dst : BitVec 3) (signed : Bool) (mode r : Nat) (x : BitVec (8 * etBytes src)) : FRes :=
  let n := 8 * etBytes dst
  let v : Int := if signed then x.toInt else x.toNat
  if isFp src ∧ isFp dst then (etFmt src.toNat).convert (etFmt dst.toNat) mode r x.toNat
  else if isFp src then (etFmt src.toNat).toInt mode r n signed x.toNat
  else if isFp dst then (etFmt dst.toNat).ofInt mode r v
  else ((BitVec.ofInt n (if signed then clampS n v else clampU n v)).toNat, 0)

end Sys2Proof.Claims

/-- R230, R233: the integer element-wise words and `vdot4` write the active elements of vD and nothing else. -/
def Sys2Proof.Claims.VectorIntegerWords : Prop :=
  ∀ s : State, s.plain → ∀ (p : BitVec 3) (e : BitVec 2) (bs : BitVec 1) (b : BitVec 5) (a d : BitVec 4), let w := Claims.intBytes e
    (∀ r ∈ Claims.vecIntWords, Claims.writesVec s (r.1 p e bs b a d) p d.toNat w
      (fun j => r.2 _ (Claims.vlane s a.toNat w j) (Claims.blane s bs b w j))) ∧
    Claims.writesVec s (.vabs p e a d) p d.toNat w (fun j => BitVec.ofNat _ (Claims.vlane s a.toNat w j).toInt.natAbs) ∧
    Claims.writesVec s (.vdot4 p bs b a d) p d.toNat 4 (fun j => Claims.vlane s d.toNat 4 j + BitVec.ofInt 32
      ((List.range 4).map (fun k => ((Claims.vlane s a.toNat 4 j).extractLsb' (8 * k) 8).toInt *
        ((Claims.blane s bs b 4 j).extractLsb' (8 * k) 8).toInt)).sum)

/-- R231, R243, R232: comparisons set the byte lanes of every element that is active and passes, and clear the others; the predicate
words work bit by bit; `vsel` and `vmv` choose elements. -/
def Sys2Proof.Claims.CompareAndPredicateWords : Prop :=
  ∀ s : State, s.plain → ∀ (p : BitVec 3) (bs : BitVec 1) (b : BitVec 5) (a : BitVec 4),
    (∀ r ∈ Claims.vecCmpWords, ∀ (e : BitVec 2) (d : BitVec 3), let w := Claims.intBytes e
      ∃ v, exec (r.1 p e bs b a d) s = .next (s.setTh ((s.th.setPreg d.toNat v).went 4)) ∧
        Claims.tested s p w (fun j => r.2 _ (Claims.vlane s a.toNat w j) (Claims.blane s bs b w j)) v) ∧
    (∀ r ∈ Claims.predWords, ∀ x y d : BitVec 3,
      exec (r.1 y x d) s = .next (s.setTh ((s.th.setPreg d.toNat (r.2 (s.th.preg x.toNat) (s.th.preg y.toNat))).went 4))) ∧
    (∀ x d : BitVec 3, exec (.pnot x d) s = .next (s.setTh ((s.th.setPreg d.toNat (~~~(s.th.preg x.toNat))).went 4))) ∧
    (∀ (e x : BitVec 3) (d : BitVec 4), exec (.ppop e x d) s = .next (Claims.wrote s d.toNat
      (BitVec.ofNat 64 ((List.range (64 / etBytes e)).countP (fun j => (s.th.preg x.toNat).getLsbD (j * etBytes e)))) 4)) ∧
    (∀ d : BitVec 3, exec (.pmvToPred b d) s = .next (s.setTh ((s.th.setPreg d.toNat (s.reg b.toNat)).went 4))) ∧
    (∀ (x : BitVec 3) (d : BitVec 4), exec (.pmvFromPred x d) s = .next (Claims.wrote s d.toNat (s.th.preg x.toNat) 4)) ∧
    (∀ e d : BitVec 3, ∃ v, exec (.pwhile e b d) s = .next (s.setTh ((s.th.setPreg d.toNat v).went 4)) ∧
      ∀ k < 64, v.getLsbD k = decide (((k / etBytes e : Nat) : Int) < (s.reg b.toNat).toInt)) ∧
    ∀ (e : BitVec 3) (d : BitVec 4), let w := etBytes e
      Claims.writesAll s (.vsel p e bs b a d) d.toNat w
        (fun j => if Claims.on s p w j then Claims.vlane s a.toNat w j else Claims.blane s bs b w j) ∧
      Claims.writesVec s (.vmv p e bs b d) p d.toNat w (fun j => Claims.blane s bs b w j)

/-- R239, R245, R228: the floating-point element-wise, fused and comparison words treat each active element as the scalar word does. -/
def Sys2Proof.Claims.VectorFloatWords : Prop :=
  ∀ s : State, s.plain → ∀ (p : BitVec 3) (bs : BitVec 1) (b : BitVec 5) (a d : BitVec 4), let m := s.th.rnd.toNat
    (∀ r ∈ Claims.vecFpWords, ∀ e : BitVec 2, let w := Claims.fpBytes e
      Claims.floatsVec s (r.1 p e bs b a d) p d.toNat w
        (fun j => r.2.2 (Claims.fpType e) m (Claims.srLane s j) (Claims.vlane s a.toNat w j).toNat (Claims.blane s bs b w j).toNat)
        (if r.2.1 then Claims.srsSteps m (64 / w) s.th.srs else s.th.srs)) ∧
    (∀ e : BitVec 2, let w := Claims.fpBytes e
      Claims.floatsVec s (.vfsqrt p e a d) p d.toNat w
        (fun j => (Claims.fpType e).sqrtV m (Claims.srLane s j) ((Claims.fpType e).read (Claims.vlane s a.toNat w j).toNat))
        (Claims.srsSteps m (64 / w) s.th.srs)) ∧
    (∀ r ∈ Claims.vecFpCmpWords, ∀ (e : BitVec 2) (x : BitVec 3), let w := Claims.fpBytes e
      let c := fun j => r.2 (Claims.fpType e) (Claims.vlane s a.toNat w j).toNat (Claims.blane s bs b w j).toNat
      ∃ v, Claims.tested s p w (fun j => (c j).1) v ∧
        Claims.raises s (r.1 p e bs b a x) (Claims.laneFlags s p w (fun j => (0, (c j).2))) s.th.srs (s.th.setPreg x.toNat v)) ∧
    ∀ r ∈ Claims.vecFused, ∀ (rm : BitVec 3) (cc bb : BitVec 4) (ft : BitVec 1), rm ≠ 6 → let f := ftFmt1 ft
      let w := f.size / 8
      let mode := Claims.roundMode s rm
      Claims.floatsVec s (r.1 rm p cc bb ft a d) p d.toNat w
        (fun j => f.fmaV mode (Claims.srLane s j) (Claims.withNeg r.2.1 (f.read (Claims.vlane s a.toNat w j).toNat))
          (f.read (Claims.vlane s bb.toNat w j).toNat) (Claims.withNeg r.2.2 (f.read (Claims.vlane s cc.toNat w j).toNat)))
        (Claims.srsSteps mode (64 / w) s.th.srs)

/-- R240: a conversion fills the chunk of D that h names, or takes the chunk of A, and leaves D's other elements alone. -/
def Sys2Proof.Claims.VectorConversions : Prop :=
  ∀ s : State, s.plain → ∀ (p src dst : BitVec 3) (c : BitVec 1) (h : BitVec 2) (a d : BitVec 4),
    let ws := etBytes src
    let wd := etBytes dst
    let m := min (64 / ws) (64 / wd)
    let k := 4 * c.toNat + h.toNat
    k < max (64 / ws) (64 / wd) / m →
    ∀ r ∈ [((.vcvt p src c h dst a d : Instr), true), (.vcvtu p src c h dst a d, false)],
      (r.2 = true ∨ Claims.isFp src = false ∨ Claims.isFp dst = false) →
      let at0 := if 64 / wd < 64 / ws then 0 else k * m
      let from0 := if 64 / wd < 64 / ws then k * m else 0
      let res := fun j => if at0 ≤ j ∧ j < at0 + m then
          Claims.converted src dst r.2 s.th.rnd.toNat (Claims.srLane s (j - at0)) (Claims.vlane s a.toNat ws (from0 + (j - at0)))
        else ((Claims.vlane s d.toNat wd j).toNat, 0)
      Claims.floatsVec s r.1 p d.toNat wd res
        (if Claims.isFp src || Claims.isFp dst then Claims.srsSteps s.th.rnd.toNat m s.th.srs else s.th.srs)

/-- R241, R242: the permutations take the elements the table names; `vcompress` packs the active ones and zeroes the rest; `vext`
gives sD one element. -/
def Sys2Proof.Claims.VectorPermutations : Prop :=
  ∀ s : State, s.plain → ∀ (p e : BitVec 3) (bs : BitVec 1) (b : BitVec 5) (a d : BitVec 4),
    let w := etBytes e
    let n := 64 / w
    Claims.writesVec s (.vperm p e bs b a d) p d.toNat w
      (fun j => if (Claims.blane s bs b w j).toNat < n then Claims.vlane s a.toNat w (Claims.blane s bs b w j).toNat else 0) ∧
    Claims.writesVec s (.vslide p e b a d) p d.toNat w
      (fun j => let x := (j : Int) + (s.reg b.toNat).toInt
        if 0 ≤ x ∧ x < n then Claims.vlane s a.toNat w x.toNat else 0) ∧
    (∀ r ∈ Claims.zipWords, ∀ b : BitVec 4, Claims.writesVec s (r.1 p e b a d) p d.toNat w
      (fun j => if r.2 n j < n then Claims.vlane s a.toNat w (r.2 n j) else Claims.vlane s b.toNat w (r.2 n j - n))) ∧
    Claims.writesAll s (.vcompress p e a d) d.toNat w
      (fun j => ((Claims.activeLanes s p a.toNat w).map (·.2)).getD j 0) ∧
    exec (.vext e b a d) s = .next (Claims.wrote s d.toNat (let x := Claims.vlane s a.toNat w ((s.reg b.toNat).toNat % n)
      if Claims.isFp e then x.setWidth 64 else x.signExtend 64) 4)

/-- R234 to R238: `vtunp` decodes one trit of every byte, `vtdot` adds twenty ternary products to each lane, a scan gives every active
element the value reached, and a reduction gives sD the active elements together; a floating-point sum is the fixed tree. -/
def Sys2Proof.Claims.TernaryScansAndReductions : Prop :=
  ∀ s : State, s.plain → ∀ (p : BitVec 3) (a d : BitVec 4),
    (∀ k : BitVec 3, k.toNat ≤ 4 → Claims.floatsVec s (.vtunp p k a d) p d.toNat 1
      (fun j => let x := (Claims.vlane s a.toNat 1 j).toNat
        if x ≤ 242 then ([0, 1, 255].getD (x / 3 ^ k.toNat % 3) 0, 0) else (0, fIC)) s.th.srs) ∧
    (∀ b : BitVec 4, Claims.floatsVec s (.vtdot p b a d) p d.toNat 4
      (fun j => let x := fun q => (Claims.vlane s a.toNat 1 (4 * j + q)).toNat
        let sum := ((List.range 4).map (fun q => if x q ≤ 242 then Claims.tritSum (x q) (fun k => Claims.vlane s b.toNat 1 (5 * q + k)) else 0)).sum
        ((Claims.vlane s d.toNat 4 j + BitVec.ofInt 32 sum).toNat, if (List.range 4).any (fun q => 242 < x q) then fIC else 0)) s.th.srs) ∧
    (∀ (e : BitVec 3) (x u : BitVec 1) (o : BitVec 2), o ≠ 3 → (u = 1 → Claims.isFp e = false) →
      let w := etBytes e
      let m := s.th.rnd.toNat
      let start := identityOf e o.toNat (decide (u = 1))
      let comb := fun j v y => combineOf e o.toNat (decide (u = 1)) m (Claims.srLane s j) v y
      let reached := fun j => Claims.scanned comb w start
        ((Claims.activeLanes s p a.toNat w).filter (fun y => if x = 1 then decide (y.1 < j) else decide (y.1 ≤ j)))
      ∃ v, Claims.merged s p d.toNat w (fun j => BitVec.ofNat _ (reached j).1) v ∧
        Claims.raises s (.vscan p e x u o a d) (Claims.scanned comb w start (Claims.activeLanes s p a.toNat w)).2
          (if Claims.isFp e && o == 0 then Claims.srsSteps m (64 / w) s.th.srs else s.th.srs) (s.th.setVreg d.toNat v)) ∧
    (∀ e k : BitVec 3, Claims.isFp e = false → let n := 8 * etBytes e
      let r := (Claims.intReductions n ((Claims.activeLanes s p a.toNat (etBytes e)).map (·.2))).getD k.toNat (0, false)
      exec (.vred p e k a d) s = .next (Claims.wrote s d.toNat (if r.2 then r.1.signExtend 64 else r.1.setWidth 64) 4)) ∧
    ∀ e k : BitVec 3, Claims.isFp e = true → k.toNat ≤ 2 →
      let w := etBytes e
      let f := etFmt e.toNat
      let xs := (Claims.activeLanes s p a.toNat w).map (fun y => y.2.toNat)
      let m := s.th.rnd.toNat
      Claims.floats s (.vred p e k a d) d.toNat
        (if k = 0 then treeSum (fun i x y => f.addV m (Claims.srLane s i) (f.read x) (f.read y)) (Nat.log2 (64 / w)) 0
            ((List.range (64 / w)).map (fun j => if Claims.on s p w j then (Claims.vlane s a.toNat w j).toNat else f.code true 0))
          else fltReduce f (decide (k = 2)) xs)
        (if k = 0 then Claims.srsSteps m (64 / w - 1) s.th.srs else s.th.srs)
/-! ## Vector loads and stores (R246 to R249) -/

namespace Sys2Proof.Claims

/-- Address of element j: contiguous, strided by a register, or indexed by the signed elements of a vector (R246). -/
def contigAddr (s : State) (a : BitVec 5) (w j : Nat) : Word := s.reg a.toNat + BitVec.ofNat 64 (w * j)
def strideAddr (s : State) (a b : BitVec 5) (j : Nat) : Word := s.reg a.toNat + s.reg b.toNat * BitVec.ofNat 64 j
def gatherAddr (s : State) (a : BitVec 5) (x : BitVec 4) (w j : Nat) : Word :=
  s.reg a.toNat + (vlane s x.toNat w j).signExtend 64 * BitVec.ofNat 64 w

/-- The accesses of a form: one for each active element, ascending, as address, place and bytes; a contiguous form with every
element active at a multiple of 64 makes one of 64 bytes (R247). -/
def vecAccs (s : State) (p : BitVec 3) (w : Nat) (contig : Bool) (addr : Nat → Word) : List (Word × Nat × Nat) :=
  if contig ∧ (∀ j < 64 / w, on s p w j = true) ∧ (addr 0).toNat % 64 = 0 then [(addr 0, 0, 64)]
  else ((List.range (64 / w)).filter (on s p w)).map (fun j => (addr j, w * j, w))

/-- A vector load of the local store: active elements take their bytes, and no memory changes (R248). Where the banks have served it only in
or after the thread's next slot, the register keeps its value and is pending (R34, R100). -/
def lanesLoaded (s : State) (i : Instr) (p : BitVec 3) (w d : Nat) (addr : Nat → Word) : Prop :=
  s.co.frames = [] →
  (∀ j < 64 / w, on s p w j = true → (addr j).toNat + w ≤ 0x80000 ∧ anyBad s.co.lsBad (addr j).toNat w = false) →
    let els := ((List.range (64 / w)).filter (on s p w)).map (fun j => (addr j, w * j, w))
    let next := s.co.cyc + 16 * (1 + busySlots els)
    let served := (s.co.bankUse (accBlocks els)).bankLast (accBlocks els)
    (served < next → ∃ t v n, exec i s = .next t ∧ t.th = { (s.th.setVreg d v).went 4 with busy := n } ∧
      merged s p d w (fun j => BitVec.ofNat _ (leNat (s.lsBytes s.cur.1 (addr j).toNat w))) v ∧ t.co.ls = s.co.ls ∧ elsewhere s t) ∧
    (next ≤ served → ∃ t, exec i s = .next t ∧ t.th.pend.map (·.1) = [.v d] ∧ t.th.vec = s.th.vec ∧ t.th.pc = s.th.pc + 4 ∧
      (∀ r < 31, t.reg r = s.reg r) ∧ t.co.ls = s.co.ls ∧ elsewhere s t) ∧
    ((∀ k < 8, tblGet 0 k s.co.bankFree ≤ s.co.cyc) → served < next)

/-- A vector store to the local store: a byte holds that of the highest active element which covers it, and every other byte is as
before (R248, R249). -/
def lanesStored (s : State) (i : Instr) (p : BitVec 3) (w d : Nat) (addr : Nat → Word) : Prop :=
  s.site = false →
  (∀ j < 64 / w, on s p w j = true → (addr j).toNat + w ≤ 0x80000 ∧ s.co.inClaim (addr j).toNat w = false) →
    ∃ t n, exec i s = .next t ∧ t.th = { s.th.went 4 with busy := n } ∧ elsewhere s t ∧
      ∀ x, memGet x t.co.ls =
        match ((List.range (64 / w)).filter (fun j => on s p w j && decide ((addr j).toNat ≤ x ∧ x < (addr j).toNat + w))).getLast? with
        | some j => (vlane s d w j).extractLsb' (8 * (x - (addr j).toNat)) 8
        | none => memGet x s.co.ls

/-- A vector load of pages outside the L1 leaves as one request for each access; its register is pending and L counts it once
(R34, R247). -/
def lanesSent (s : State) (i : Instr) (p : BitVec 3) (w d : Nat) (contig : Bool) (addr : Nat → Word) : Prop :=
  ∀ gs : List Seg, let accs := vecAccs s p w contig addr
    accs ≠ [] → gs.length = accs.length → (∀ x ∈ accs.zip gs, uncached s x.1.1 x.1.2.2 0 x.2) → s.th.cntL < 1023 →
    ∃ t fs, exec i s = .next t ∧ t.flights = s.flights ++ fs ∧
      fs.map (fun f => (f.kind, f.stage, f.pa, f.size, f.place, f.grp)) =
        (accs.zip gs).map (fun x => (.load, .request, x.2.pa, x.1.2.2, x.1.2.1, s.nextId)) ∧
      t.th.cntL = s.th.cntL + 1 ∧ t.th.pend = [(.v d, s.nextId)] ∧ t.th.pc = s.th.pc + 4 ∧ t.th.vec = s.th.vec ∧
      (∀ r < 31, t.reg r = s.reg r) ∧ t.co.ls = s.co.ls ∧ elsewhere s t

/-- A vector store to pages outside the L1 leaves as one request for each access, with its elements' bytes, and S counts it once. -/
def lanesPosted (s : State) (i : Instr) (p : BitVec 3) (w d : Nat) (contig : Bool) (addr : Nat → Word) : Prop :=
  ∀ gs : List Seg, let accs := vecAccs s p w contig addr
    accs ≠ [] → gs.length = accs.length → (∀ x ∈ accs.zip gs, uncached s x.1.1 x.1.2.2 1 x.2) → s.th.cntS < 1023 →
    ∃ t fs, exec i s = .next t ∧ t.flights = s.flights ++ fs ∧
      fs.map (fun f => (f.kind, f.stage, f.pa, f.size, f.data)) = (accs.zip gs).map (fun x => (.store, .request, x.2.pa, x.1.2.2,
        (List.range x.1.2.2).map (fun k => some (vlane s d 1 (x.1.2.1 + k))))) ∧
      t.th.cntS = s.th.cntS + 1 ∧ t.th.pc = s.th.pc + 4 ∧ t.th.vec = s.th.vec ∧
      (∀ r < 31, t.reg r = s.reg r) ∧ t.co.ls = s.co.ls ∧ elsewhere s t

end Sys2Proof.Claims

/-- R248, R249: the contiguous, strided and indexed vector words of the local store load or store exactly the active elements. -/
def Sys2Proof.Claims.VectorLocalMemory : Prop :=
  ∀ s : State, s.plain → ∀ (p e : BitVec 3) (a b : BitVec 5) (x d : BitVec 4), let w := etBytes e
    Claims.lanesLoaded s (.vldLs p a e d) p w d.toNat (Claims.contigAddr s a w) ∧
    Claims.lanesLoaded s (.vldsLs p b a e d) p w d.toNat (Claims.strideAddr s a b) ∧
    Claims.lanesLoaded s (.vldgLs p x a e d) p w d.toNat (Claims.gatherAddr s a x w) ∧
    Claims.lanesStored s (.vstLs p a e d) p w d.toNat (Claims.contigAddr s a w) ∧
    Claims.lanesStored s (.vstsLs p b a e d) p w d.toNat (Claims.strideAddr s a b) ∧
    Claims.lanesStored s (.vstgLs p x a e d) p w d.toNat (Claims.gatherAddr s a x w)

/-- R246, R247: the vector words of device memory make one access for each active element, ascending, or one of 64 bytes. -/
def Sys2Proof.Claims.VectorDeviceMemory : Prop :=
  ∀ s : State, s.plain → ∀ (p e : BitVec 3) (a b : BitVec 5) (x d : BitVec 4), let w := etBytes e
    Claims.lanesSent s (.vld p a e d) p w d.toNat true (Claims.contigAddr s a w) ∧
    Claims.lanesSent s (.vlds p b a e d) p w d.toNat false (Claims.strideAddr s a b) ∧
    Claims.lanesSent s (.vldg p x a e d) p w d.toNat false (Claims.gatherAddr s a x w) ∧
    Claims.lanesPosted s (.vst p a e d) p w d.toNat true (Claims.contigAddr s a w) ∧
    Claims.lanesPosted s (.vsts p b a e d) p w d.toNat false (Claims.strideAddr s a b) ∧
    Claims.lanesPosted s (.vstg p x a e d) p w d.toNat false (Claims.gatherAddr s a x w)
/-! ## Engine submissions (R250, R257 to R275, R282) -/

namespace Sys2Proof.Claims

/-- A queue has room for an operation of a thread that services no hand-back (R187, R250, R419). -/
def room (s : State) (q : Nat) : Prop :=
  s.th.act = false ∧ (s.co.ops.filter (fun o => decide (o.queue = q))).length < 32 ∧ s.th.opCount q < 1023

/-- The word of an instruction, as a trap value shows it (R360). -/
def word (i : Instr) : Word := (encode i).bits.zeroExtend 64

/-- A word enters one operation at the end of a queue, with the submitter, the word and its operands; its counter rises, SRS takes a
step where the operation rounds stochastically, and nothing else changes. -/
def queued (s : State) (i : Instr) (q : Nat) (ra rb rd x0 x1 : Word) (steps : Bool)
    (more : State → EngOp → Prop := fun _ _ => True) : Prop :=
  ∃ t o, exec i s = .next t ∧ t.co.ops = s.co.ops ++ [o] ∧ o.id = s.nextId ∧ o.queue = q ∧ o.slot = s.cur.2 ∧
    o.gen = s.th.gen.toNat ∧ o.pc = s.th.pc ∧ o.word = (encode i).bits ∧ o.stage = .queued ∧
    o.ra = ra ∧ o.rb = rb ∧ o.rd = rd ∧ o.x0 = x0 ∧ o.x1 = x1 ∧
    t.th = { (s.th.went 4).setOpCount q (s.th.opCount q + 1) with srs := if steps then xorshift s.th.srs else s.th.srs } ∧
    t.co.ls = s.co.ls ∧ elsewhere s t ∧ more t o

/-- A word is queued where its operands obey the rules, and else takes the operand trap with no effect (R381, R395). -/
def queuedOr (ok : Prop) [Decidable ok] (s : State) (i : Instr) (q : Nat) (ra rb rd x0 x1 : Word)
    (more : State → EngOp → Prop := fun _ _ => True) : Prop :=
  if ok then queued s i q ra rb rd x0 x1 false more else exec i s = .next (trapped s 5 (word i))

/-- A range of n bytes at a local address lies in the local store, and as a destination clear of the claimed Hive range. -/
def fits (s : State) (here : Bool) (a : Word) (n : Nat) (dst : Bool) : Prop :=
  here = true → 0 < n → a.toNat + n ≤ 0x80000 ∧ (dst = true → s.co.inClaim a.toNat n = false)

/-- Two ranges share no byte: in different spaces, empty, or one below the other (R266). -/
def apart (h : Bool) (a : Word) (n : Nat) (g : Bool) (b : Word) (k : Nat) : Prop :=
  h = g → n = 0 ∨ k = 0 ∨ a.toNat + n ≤ b.toNat ∨ b.toNat + k ≤ a.toNat

/-- A bank word's extension names rows of the bank and nothing else (R262). -/
def rowsOnly (x : Word) : Bool := onlyRows x && decide (bits x.toNat 9 7 + bits x.toNat 16 7 ≤ 127)

/-- `merge` and `isect`: the word and whether it rounds floating-point values (R158, R271). -/
noncomputable def mergeWords : List ((BitVec 3 → BitVec 1 → BitVec 1 → BitVec 5 → Instr) × Bool) :=
  [(.mergeAdd, true), (.mergeMax, false), (.mergeMin, false), (.mergeSub, true), (.isectMul, true), (.isectMin, false),
   (.isectMax, false), (.isectFirst, false)]

/-- Descriptor j of the group that eX begins (R270). -/
def eregOf (s : State) (x : BitVec 3) (j : Nat) : Word := s.th.ereg ((x.toNat + j) % 8)

end Sys2Proof.Claims

/-- R257 to R263, R395: a matrix word enters `mq` with its operands, or takes the operand trap where they break its rules. -/
def Obligations.MatrixWords : Prop :=
  ∀ s : State, s.plain → Claims.room s 0 → ∀ (x : BitVec 3) (a b d : BitVec 5) (ba bd : BitVec 2),
    let p := s.reg a.toNat
    let q := s.reg b.toNat
    let r := s.reg d.toNat
    let e := s.th.ereg x.toNat
    Claims.queuedOr ((1 ≤ p.toNat ∧ p.toNat ≤ 128) ∧ 1 ≤ q.toNat ∧ q.toNat ≤ 32) s (.mgeo b a) 0 p q 0 0 0 ∧
    Claims.queuedOr (descOk e = true) s (.mwfmt x) 0 0 0 0 e 0 (fun t _ => t.co.lastFmt = e) ∧
    Claims.queuedOr (p.toNat < 0x10000 ∧ p.toNat % 64 = 0 ∧ p.toNat + (tileOf (dWfmt s.co.lastFmt)).cb ≤ 0xC000) s (.mwld a) 0
      p 0 0 0 0 (fun _ o => o.desc = s.co.lastFmt) ∧
    Claims.queuedOr (maccBad e p q = false) s (.macc x b a bd) 0 p q 0 e 0 ∧
    Claims.queued s (.mzero bd) 0 0 0 0 0 0 false ∧ Claims.queued s (.mmv ba bd) 0 0 0 0 0 0 false ∧
    (mstBad e r q = true → exec (.mst x b ba d) s = .next (Claims.trapped s 5 (Claims.word (.mst x b ba d)))) ∧
    (mstBad e r q = false →
      let m := bits e.toNat 9 7 + 1
      let len := (bits e.toNat 23 5 + 1) * codeBytes (bits e.toNat 2 4)
      (∀ i < m, r.toNat + i * q.toNat + len ≤ 0x80000 ∧ s.co.inClaim (r.toNat + i * q.toNat) len = false) →
      let mode := if bits e.toNat 6 3 = 7 then s.th.rnd.toNat else bits e.toNat 6 3;
      Claims.queued s (.mst x b ba d) 0 0 q r e 0 (decide (mode = 5)) (fun _ o => o.rm = mode)) ∧
    ((∀ i < bits e.toNat 9 7 + 1, p.toNat + i * q.toNat + 128 ≤ 0x80000) →
      Claims.queuedOr (Claims.rowsOnly e = true ∧ p.toNat % 16 = 0 ∧ q.toNat % 16 = 0) s (.mld x b a bd) 0 p q 0 e 0) ∧
    (p.toNat + 128 ≤ 0x80000 →
      Claims.queuedOr (Claims.rowsOnly e = true ∧ p.toNat % 16 = 0) s (.mscl x a bd) 0 p 0 0 e 0 ∧
      Claims.queuedOr (Claims.rowsOnly e = true ∧ p.toNat % 16 = 0) s (.mbias x a bd) 0 p 0 0 e 0)

/-- R265 to R269, R112: a copy word whose ranges lie in the local store, clear of the claimed range and apart, enters `cq`. -/
def Obligations.CopyWords : Prop :=
  ∀ s : State, s.plain → Claims.room s 1 → ∀ (x : BitVec 3) (a b d : BitVec 5) (m : BitVec 2) (m1 : BitVec 1),
    let p := s.reg a.toNat
    let q := s.reg b.toNat
    let r := s.reg d.toNat
    let n := q.toNat
    let e := s.th.ereg x.toNat
    let h := m.getLsbD 0
    let g := m.getLsbD 1
    (n < 2 ^ 32 → Claims.fits s h p n false → Claims.fits s g r n true → Claims.apart h p n g r n →
      Claims.queued s (.cpy b a m d) 1 p q r 0 0 false) ∧
    (n < 2 ^ 32 → Claims.fits s (m1.getLsbD 0) r n true → Claims.queued s (.cpyset b a m1 d) 1 p q r 0 0 false) ∧
    (n ≤ 2 ^ 20 → rowLen e ≠ 0 →
      (∀ i < n, let y := p + BitVec.ofNat 64 (i * srcStride e)
        let z := r + BitVec.ofNat 64 (i * dstStride e)
        Claims.fits s h y (rowLen e) false ∧ Claims.fits s g z (rowLen e) true ∧
        ∀ j < n, Claims.apart h y (rowLen e) g (r + BitVec.ofNat 64 (j * dstStride e)) (rowLen e)) →
      Claims.queued s (.cpy2d x b a m d) 1 p q r e 0 false) ∧
    (let pat : Word := s.th.dpat.zeroExtend 64
      let list := s.dealList pat;
      n < 2 ^ 32 → 1 ≤ patBlk pat ∧ patBlk pat ≤ 1024 → patList pat % 2 = 0 → patList pat + 2 * (patNcm pat + 1) ≤ 0x80000 →
      (∀ c ∈ list, c < 0x1000 ∧ c < s.encnt) →
      (∀ y ∈ dealBlocks pat r.toNat n, y.2.2.2 + y.2.1 ≤ 0x80000 ∧ s.co.inClaim y.2.2.2 y.2.1 = false) →
      Claims.queued s (.deal b a d) 1 p q r 0 0 false (fun _ o => o.desc = pat ∧ o.list = list)) ∧
    (cpywBad e r = false → Claims.fits s true p ((bits e.toNat 0 5 + 1) * bits e.toNat 10 7) false →
      Claims.queued s (.cpyw x a d) 1 p 0 r e 0 false) ∧
    (let f := s.th.ereg ((x.toNat + 1) % 8);
      n < 2 ^ 32 → zStat e % 16 = 0 → e.toNat < 2 ^ 54 → f.toNat < 2 ^ 32 → Claims.fits s (e.getLsbD 53) p n false →
      Claims.fits s (e.getLsbD 52) r (zCap e) true → Claims.fits s true (BitVec.ofNat 64 (zStat e)) 16 true →
      Claims.queued s (.cpyz x b a m1 d) 1 p q r e f false) ∧
    (let z := cpycSizes e
      let mode := if bits e.toNat 8 3 = 7 then s.th.rnd.toNat else bits e.toNat 8 3;
      cpycBad e q = false → Claims.fits s (e.getLsbD 11) p (n * z.1) false → Claims.fits s (e.getLsbD 12) r (n * z.2) true →
      Claims.apart (e.getLsbD 11) p (n * z.1) (e.getLsbD 12) r (n * z.2) →
      Claims.queued s (.cpyc x b a d) 1 p q r e (s.th.ereg ((x.toNat + 1) % 8)) (decide (mode = 5)) (fun _ o => o.rm = mode))

/-- R270 to R275, R397: a sparse word enters `xq` with its descriptors where they and the record address obey the rules, and else takes
the operand trap. -/
def Obligations.SparseWords : Prop :=
  ∀ s : State, s.plain → Claims.room s 2 → ∀ (x : BitVec 3) (i z u : BitVec 1) (a d : BitVec 5),
    let p := s.reg a.toNat
    let r := s.reg d.toNat
    let e := Claims.eregOf s x
    (∀ m ∈ Claims.mergeWords,
      if s.descBad (e 0) 4 false false = false ∧ s.descBad (e 1) 4 false false = false ∧ s.descBad (e 2) 4 false true = false ∧
          s.recordBad r = false then
        Claims.queued s (m.1 x z i d) 2 0 0 r (e 0) (e 1) (m.2 && decide (i = 0) && decide (s.th.rnd.toNat = 5)) (fun _ o => o.desc = e 2)
      else exec (m.1 x z i d) s = .next (Claims.trapped s 5 (Claims.word (m.1 x z i d)))) ∧
    Claims.queuedOr (s.descBad (e 0) 4 true false = false ∧ s.descBad (e 1) 4 false true = false ∧ s.recordBad r = false)
      s (.condense x i a d) 2 p 0 r (e 0) (e 1) ∧
    Claims.queuedOr (s.descBad (e 0) 4 false false = false ∧ s.descBad (e 1) 4 true true = false ∧ s.recordBad r = false)
      s (.expand x i d) 2 0 0 r (e 0) (e 1) ∧
    (∀ m ∈ [(Instr.topkMax x i a d), .topkMin x i a d],
      Claims.queuedOr (s.descBad (e 0) 4 false false = false ∧ s.descBad (e 1) 4 false true = false ∧ s.recordBad r = false ∧
        p.toNat < 2 ^ 32) s m 2 p 0 r (e 0) (e 1)) ∧
    ∀ m ∈ [(Instr.ksortK32 x z u d, 4), (.ksortK64 x z u d, 8)],
      Claims.queuedOr (s.descBad (e 0) m.2 false false = false ∧ s.descBad (e 1) m.2 false true = false ∧ s.recordBad r = false)
        s m.1 2 0 0 r (e 0) (e 1)
/-! ## The Hive (R276 to R283, R428) -/

namespace Sys2Proof.Claims

/-- Key, value, valid bit and tombstone of a slot of the claimed table in a local store (R276). -/
def slotPlace (c : Core) (x : Nat × Nat) : Nat := c.hvb + 64 * x.1 + 16 * x.2
def tagPlace (c : Core) (i : Nat) : Nat := c.hvb + 64 * 2 ^ c.hive.b + i
def slotKey (c : Core) (m : Memory) (x : Nat × Nat) : Nat := memNum (slotPlace c x) 8 m
def slotVal (c : Core) (m : Memory) (x : Nat × Nat) : Nat := memNum (slotPlace c x + 8) 8 m
def tagByte (c : Core) (m : Memory) (i : Nat) : Byte := memGet (tagPlace c i) m
def slotValid (c : Core) (m : Memory) (x : Nat × Nat) : Bool := (tagByte c m x.1).getLsbD x.2
def slotDead (c : Core) (m : Memory) (x : Nat × Nat) : Bool := (tagByte c m x.1).getLsbD (x.2 + 4)

/-- The hash of R278 and the window of a key: eight buckets of four slots. -/
def firstBucket (b : Nat) (key : Word) : Nat :=
  let h := key * 0x9E3779B97F4A7C15
  ((h ^^^ (h >>> 29)) >>> (64 - b)).toNat
def keyWindow (b : Nat) (key : Word) : List (Nat × Nat) :=
  (List.range 8).flatMap (fun t => (List.range 4).map (fun j => ((firstBucket b key + t) % 2 ^ b, j)))

/-- The search of R278 over the buckets: the slot that holds the key, and the first slot that is not valid. -/
def seek (c : Core) (m : Memory) (key : Word) : List (Nat × Nat) → Option (Nat × Nat) → Option (Nat × Nat) × Option (Nat × Nat)
  | [], free => (none, free)
  | x :: t, free =>
    if slotValid c m x then (if slotKey c m x = key.toNat then (some x, free) else seek c m key t free)
    else if slotDead c m x then seek c m key t (free.or (some x))
    else (none, free.or (some x))

/-- What one lane leaves: result, found flag, arithmetic flags and the local store. -/
structure KeyAns where
  val : Nat
  found : Bool
  flags : BitVec 6
  ls : Memory

/-- A placement writes key and value, then sets V and clears TS; a deletion clears V and sets TS (R278). -/
def placed (c : Core) (m : Memory) (x : Nat × Nat) (key : Word) (v : Nat) : Memory :=
  memSet (tagPlace c x.1) ((tagByte c m x.1 &&& ~~~(BitVec.ofNat 8 (2 ^ (x.2 + 4)))) ||| BitVec.ofNat 8 (2 ^ x.2))
    (memWrite (slotPlace c x) (leBytes 8 key.toNat ++ leBytes 8 v) m)
def removed (c : Core) (m : Memory) (x : Nat × Nat) : Memory :=
  memSet (tagPlace c x.1) ((tagByte c m x.1 &&& ~~~(BitVec.ofNat 8 (2 ^ x.2))) ||| BitVec.ofNat 8 (2 ^ (x.2 + 4))) m

/-- The accumulations of R279: new value and flags from the found value, or none, and the delta. -/
def accAdd (v : Option Nat) (x : Word) : FRes := ((BitVec.ofNat 64 (v.getD 0) + x).toNat, 0)
def accMin (v : Option Nat) (x : Word) : FRes :=
  match v with
  | some v => ((BitVec.ofInt 64 (min (BitVec.ofNat 64 v).toInt x.toInt)).toNat, 0)
  | none => (x.toNat, 0)
def accMax (v : Option Nat) (x : Word) : FRes :=
  match v with
  | some v => ((BitVec.ofInt 64 (max (BitVec.ofNat 64 v).toInt x.toInt)).toNat, 0)
  | none => (x.toNat, 0)
def accFadd (v : Option Nat) (x : Word) : FRes :=
  match v with
  | some v => fp64.arith 0 0 0 v x.toNat
  | none => if fp64.read x.toNat = .nan true then (fp64.nanCode, fNV) else (x.toNat, 0)

/-- One lane of a key word on a table without spill records; none where an absent key finds no slot free (R279). -/
def keyIns (c : Core) (m : Memory) (k x : Word) : Option KeyAns :=
  match seek c m k (keyWindow c.hive.b k) none with
  | (some _, _) => some ⟨1, true, 0, m⟩
  | (none, some p) => some ⟨0, false, 0, placed c m p k x.toNat⟩
  | (none, none) => none
def keyPrb (c : Core) (m : Memory) (k _x : Word) : Option KeyAns :=
  match (seek c m k (keyWindow c.hive.b k) none).1 with
  | some p => some ⟨slotVal c m p, true, 0, m⟩
  | none => some ⟨0, false, 0, m⟩
def keyDel (c : Core) (m : Memory) (k _x : Word) : Option KeyAns :=
  match (seek c m k (keyWindow c.hive.b k) none).1 with
  | some p => some ⟨1, true, 0, removed c m p⟩
  | none => some ⟨0, false, 0, m⟩
def keyAcc (f : Option Nat → Word → FRes) (c : Core) (m : Memory) (k x : Word) : Option KeyAns :=
  match seek c m k (keyWindow c.hive.b k) none with
  | (some p, _) => let r := f (some (slotVal c m p)) x
    some ⟨r.1, true, r.2, memWrite (slotPlace c p + 8) (leBytes 8 r.1) m⟩
  | (none, some p) => let r := f none x
    some ⟨r.1, false, r.2, placed c m p k r.1⟩
  | (none, none) => none

/-- One lane of a key word. -/
abbrev KeyWord := Core → Memory → Word → Word → Option KeyAns

/-- The lanes in ascending order, each on what the ones before it left (R280). -/
def keyLanes (o : KeyWord) (c : Core) (m : Memory) : List (Nat × Word × Word) → Option (List (Nat × KeyAns) × Memory)
  | [] => some ([], m)
  | (i, k, x) :: t => (o c m k x).bind (fun r => (keyLanes o c r.ls t).map (fun q => ((i, r) :: q.1, q.2)))

/-- The table is claimed, holds no spill record and no poison, and no drain holds the Hive (R276, R281). -/
def hiveReady (s : State) : Prop :=
  s.co.hive.clm = true ∧ s.co.hive.spn = 0 ∧ s.co.lsBad = [] ∧ s.hiveHeld = false

/-- The scalar key words with a value: arithmetic flags go to FLG, none of them enabled (R279). -/
noncomputable def keyWords : List ((BitVec 5 → BitVec 5 → BitVec 5 → Instr) × KeyWord) :=
  [(.kins, keyIns), (.kaccAdd, keyAcc accAdd), (.kaccMin, keyAcc accMin), (.kaccMax, keyAcc accMax), (.kaccFadd, keyAcc accFadd)]

/-- The vector key words with values: bytes of a lane. -/
noncomputable def keyVectors : List ((BitVec 3 → BitVec 4 → BitVec 4 → BitVec 4 → Instr) × Nat × KeyWord) :=
  [(.kinsV64, 8, keyIns), (.kinsV32, 4, keyIns), (.kaccAddV64, 8, keyAcc accAdd), (.kaccAddV32, 4, keyAcc accAdd),
   (.kaccMinV64, 8, keyAcc accMin), (.kaccMinV32, 4, keyAcc accMin), (.kaccMaxV64, 8, keyAcc accMax),
   (.kaccMaxV32, 4, keyAcc accMax), (.kaccFaddV64, 8, keyAcc accFadd)]

/-- The active lanes of a vector key word: lane, zero-extended key, sign-extended value (R280). -/
def keyInput (s : State) (p : BitVec 3) (a : BitVec 4) (b : Option (BitVec 4)) (w : Nat) : List (Nat × Word × Word) :=
  (activeLanes s p a.toNat w).map (fun y => (y.1, y.2.setWidth 64, match b with
    | some b => (vlane s b.toNat w y.1).signExtend 64
    | none => 0))

/-- The results of the active lanes in vD: the low bytes of each. -/
def keyOutput (s : State) (d w : Nat) (rs : List (Nat × KeyAns)) (v : Vec) : Prop :=
  ∀ j < 64 / w, lane v w j = match (rs.find? (fun r => decide (r.1 = j))) with
    | some r => BitVec.ofNat _ r.2.val
    | none => vlane s d w j

/-- The flags of all lanes. -/
def keyFlags (rs : List (Nat × KeyAns)) : BitVec 6 := rs.foldl (fun f r => f ||| r.2.flags) 0

/-- The predicate of the lanes whose key was found. -/
def keyFound (w : Nat) (rs : List (Nat × KeyAns)) (v : Word) : Prop :=
  ∀ k < 64, v.getLsbD k = rs.any (fun r => decide (r.1 = k / w) && r.2.found)

end Sys2Proof.Claims

/-- R278, R279: a scalar key word searches the window of its key, and writes sD, the table's bytes and the flags as its row says. -/
def Sys2Proof.Claims.HiveScalarWords : Prop :=
  ∀ s : State, s.plain → Claims.hiveReady s → ∀ a b f d : BitVec 5,
    (∀ r ∈ Claims.keyWords, ∀ y, r.2 s.co s.co.ls (s.reg a.toNat) (s.reg b.toNat) = some y → s.th.trapsOn y.flags = false →
      ∃ t, exec (r.1 b a d) s = .next t ∧ t.th = ((s.th.orFlags y.flags).setSreg d.toNat (BitVec.ofNat 64 y.val)).went 4 ∧
        t.co.ls = y.ls ∧ t.co.hive = s.co.hive ∧ Claims.elsewhere s t) ∧
    (∀ y, Claims.keyPrb s.co s.co.ls (s.reg a.toNat) 0 = some y → ∃ t, exec (.kprb f a d) s = .next t ∧
      t.th = ((s.th.setSreg d.toNat (BitVec.ofNat 64 y.val)).setSreg f.toNat (if y.found then 1 else 0)).went 4 ∧
      t.co.ls = s.co.ls ∧ t.co.hive = s.co.hive ∧ Claims.elsewhere s t) ∧
    (∀ y, Claims.keyDel s.co s.co.ls (s.reg a.toNat) 0 = some y → ∃ t, exec (.kdel a d) s = .next t ∧
      t.th = (s.th.setSreg d.toNat (BitVec.ofNat 64 y.val)).went 4 ∧ t.co.ls = y.ls ∧ t.co.hive = s.co.hive ∧ Claims.elsewhere s t)

/-- R280: a vector key word acts as its active lanes one after another in ascending order. -/
def Sys2Proof.Claims.HiveVectorWords : Prop :=
  ∀ s : State, s.plain → Claims.hiveReady s → ∀ (p f : BitVec 3) (a b d : BitVec 4),
    (∀ r ∈ Claims.keyVectors, ∀ y, Claims.keyLanes r.2.2 s.co s.co.ls (Claims.keyInput s p a (some b) r.2.1) = some y →
      s.th.trapsOn (Claims.keyFlags y.1) = false →
      ∃ t v, exec (r.1 p b a d) s = .next t ∧ t.th = ((s.th.orFlags (Claims.keyFlags y.1)).setVreg d.toNat v).went 4 ∧
        Claims.keyOutput s d.toNat r.2.1 y.1 v ∧ t.co.ls = y.2 ∧ t.co.hive = s.co.hive ∧ Claims.elsewhere s t) ∧
    (∀ r ∈ [((.kprbV64 p f a d : Instr), 8), (.kprbV32 p f a d, 4)], ∀ y,
      Claims.keyLanes Claims.keyPrb s.co s.co.ls (Claims.keyInput s p a none r.2) = some y →
      ∃ t v u, exec r.1 s = .next t ∧ t.th = ((s.th.setVreg d.toNat v).setPreg f.toNat u).went 4 ∧
        Claims.keyOutput s d.toNat r.2 y.1 v ∧ Claims.keyFound r.2 y.1 u ∧ t.co.ls = s.co.ls ∧ t.co.hive = s.co.hive ∧
        Claims.elsewhere s t) ∧
    ∀ r ∈ [((.kdelV64 p a d : Instr), 8), (.kdelV32 p a d, 4)], ∀ y,
      Claims.keyLanes Claims.keyDel s.co s.co.ls (Claims.keyInput s p a none r.2) = some y →
      ∃ t v, exec r.1 s = .next t ∧ t.th = (s.th.setVreg d.toNat v).went 4 ∧ Claims.keyOutput s d.toNat r.2 y.1 v ∧
        t.co.ls = y.2 ∧ t.co.hive = s.co.hive ∧ Claims.elsewhere s t

/-- R276, R282, R283: `kclaim` clears the tags and claims the table, `krel` unclaims it, `kstat` reads a count, and a drain enters
`kq`. -/
def Sys2Proof.Claims.HiveTableWords : Prop :=
  ∀ s : State, s.plain → s.co.lsBad = [] → s.hiveHeld = false → ∀ (a b d e : BitVec 5) (m bs c : BitVec 1),
    let p := s.reg a.toNat
    let q := s.reg b.toNat
    let tagBits := fun lo => (List.range (2 ^ s.co.hive.b)).foldl (fun n i =>
      n + (List.range 4).countP (fun j => (Claims.tagByte s.co s.co.ls i).getLsbD (lo + j))) 0
    (s.co.hive.clm = false → s.co.hlog ≠ 0 → 3 ≤ e.toNat → e.toNat ≤ 11 → 65 * 2 ^ e.toNat ≤ 2 ^ s.co.hlog → p.toNat % 32 = 0 →
      canonical p = true → q.toNat < 2 ^ 24 →
      ∃ t n, exec (.kclaim b a e) s = .next t ∧ t.th = { s.th.went 4 with busy := n } ∧
        t.co.hive = { clm := true, b := e.toNat, sovf := false, spn := 0, spcap := q.toNat, log := p } ∧
        (∀ x, memGet x t.co.ls = if s.co.hvb + 64 * 2 ^ e.toNat ≤ x ∧ x < s.co.hvb + 65 * 2 ^ e.toNat then 0 else memGet x s.co.ls) ∧
        Claims.elsewhere s t) ∧
    (s.co.hive.clm = true → (∀ o ∈ s.co.ops, o.queue ≠ 3) →
      ∃ t, exec .krel s = .next t ∧ t.th = s.th.went 4 ∧ t.co.hive = { s.co.hive with clm := false } ∧ t.co.ls = s.co.ls ∧
        Claims.elsewhere s t) ∧
    (e.toNat ≤ 6 → (e.toNat = 3 → s.co.hive.spn = 0) →
      let v := if e.toNat = 6 then s.co.hvc
        else if s.co.hive.clm = false then 0
        else [BitVec.ofNat 64 (tagBits 0), BitVec.ofNat 64 (tagBits 4), BitVec.ofNat 64 s.co.hive.spn, 0,
              BitVec.ofNat 64 s.co.hive.spcap, s.co.hive.log].getD e.toNat 0
      ∃ t, exec (.kstat e d) s = .next t ∧ t.th = (s.th.setSreg d.toNat v).went 4 ∧ t.co.ls = s.co.ls ∧ t.co.hive = s.co.hive ∧
        Claims.elsewhere s t) ∧
    (Claims.room s 3 → s.co.hive.clm = true → p.toNat % 16 = 0 → q.toNat ≤ 2 ^ 24 →
      Claims.fits s (decide (m = 1)) p (16 + 16 * q.toNat) true →
      Claims.queued s (.kdrain c b a m) 3 p q 0 0 0 false ∧ Claims.queued s (.kdrains bs c b a m) 3 p q 0 0 0 false)

/-- R398, R428: a Hive word without a claimed table takes the operand trap, and an append that the capacity does not allow takes the
spill trap with no lane's effect but the sticky overflow flag. -/
def Sys2Proof.Claims.HiveTraps : Prop :=
  ∀ s : State, s.plain → ∀ a b d : BitVec 5,
    (s.co.hive.clm = false → ∀ r ∈ Claims.keyWords,
      exec (r.1 b a d) s = .next (Claims.trapped s 5 (Claims.word (r.1 b a d)))) ∧
    (s.co.hive.clm = false → exec .krel s = .next (Claims.trapped s 5 (Claims.word .krel))) ∧
    (Claims.hiveReady s → s.co.hive.spcap = 0 → s.th.act = false → s.co.thbEn = true → ∀ r ∈ Claims.keyWords,
      r.2 s.co s.co.ls (s.reg a.toNat) (s.reg b.toNat) = none →
      ∃ t, exec (r.1 b a d) s = .next t ∧ t.th.run = .trapped ∧ t.th.xcode = 16 ∧ t.th.xval = 0 ∧ t.th.xpc = s.th.pc ∧
        t.co.hive = { s.co.hive with sovf := true } ∧ t.co.ls = s.co.ls ∧ t.th.glob = s.th.glob ∧ t.th.win = s.th.win ∧
        Claims.elsewhere s t)
/-! ## Counters, fences, the L1, traps and special registers (R185, R220 to R225, R359, R362) -/

namespace Sys2Proof.Claims

/-- A counter is within a bound of `wait`, where 15 places none (R220). -/
def within (b : BitVec 4) (n : Nat) : Prop := b.toNat = 15 ∨ n ≤ b.toNat

/-- Special registers and the values that `mfs` reads at any privilege (R185). -/
def sprValues (s : State) : List (BitVec 12 × Word) :=
  let t := s.th
  let c := s.co
  [(0x001, 0x686), (0x002, BitVec.ofNat 64 c.cyc),
   (0x003, BitVec.ofNat 64 (c.txb % 2 ^ 19 + c.scrb % 2 ^ 19 * 2 ^ 19 + c.hvb % 2 ^ 20 * 2 ^ 38)), (0x005, c.epoch.setWidth 64), (0x010, t.wid),
   (0x011, t.task.geo0), (0x012, t.task.geo1), (0x013, t.task.geo2), (0x014, t.rnd.setWidth 64), (0x015, t.flg.setWidth 64),
   (0x016, t.srs), (0x017, t.dpat.setWidth 64),
   (0x018, BitVec.ofNat 64 (t.cntL % 1024 + t.cntS % 1024 * 2 ^ 10 + t.cntC % 1024 * 2 ^ 20 + t.cntT % 1024 * 2 ^ 30)),
   (0x040, BitVec.ofNat 64 ((if c.hive.clm then 1 else 0) + c.hive.b % 16 * 2 + (if c.hive.sovf then 1 else 0) * 2 ^ 5 +
      c.hive.spn % 2 ^ 24 * 2 ^ 8 + c.hive.spcap % 2 ^ 24 * 2 ^ 32))]

/-- Special registers that firmware reads (R358, R361). -/
def sprFirm (s : State) : List (BitVec 12 × Word) :=
  let t := s.th
  let c := s.co
  [(0x004, BitVec.ofNat 64 (c.wsn % 128 + c.flog % 32 * 2 ^ 8 + c.fcnt % 64 * 2 ^ 13 + c.hlog % 32 * 2 ^ 19)),
   (0x080, c.thbBase ++ (if c.thbEn then 1#8 else 0#8)), (0x081, t.xpc), (0x083, t.xval),
   (0x082, BitVec.ofNat 64 (t.xcode.toNat + (if t.ppriv then 1 else 0) * 2 ^ 8 + (if t.pqmap then 1 else 0) * 2 ^ 9 +
      (if t.act then 1 else 0) * 2 ^ 10 + t.wsr % 64 * 2 ^ 12))]

/-- Special registers of a thread that `mts` writes at any privilege: what a value leaves (R156, R159, R160). -/
def sprWrites (t : Thread) (x : Word) : List (BitVec 12 × Thread) :=
  [(0x010, { t with wid := x }), (0x015, { t with flg := (x &&& 0x3F3F).extractLsb' 0 14 }),
   (0x016, { t with srs := if x = 0 then 1 else x }), (0x017, { t with dpat := x.extractLsb' 0 51 })]

/-- The read-only special registers, which a write leaves unchanged (R223). -/
def sprFixed : List (BitVec 12) := [0x000, 0x001, 0x002, 0x003, 0x005, 0x011, 0x012, 0x013, 0x018, 0x019, 0x032, 0x033, 0x040]

/-- A thread holds a task: it is neither free nor in `wfw` (R163). -/
def holdsTask (t : Thread) : Prop := t.run ≠ .free ∧ t.run ≠ .wfw

/-- CID of the core at a site: its number, die, cluster and position, and the number of enabled cores (R26), 0 in site mode (R353). -/
def cidWord (s : State) (n : Nat) : Word :=
  BitVec.ofNat 64 ((s.core n).lcore % 2 ^ 12 + n / 1024 * 2 ^ 12 + (n % 1024 / 32 / 4 * 8 + n % 32 / 4) * 2 ^ 13 +
    (n % 1024 / 32 % 4 * 4 + n % 32 % 4) * 2 ^ 19 + (if s.site then 0 else s.encnt % 2 ^ 12) * 2 ^ 32)

/-- RTC, RTF, RTD0 and RTD1 of a ring (R126 to R128). -/
def ringWords (r : Ring) : List (BitVec 12 × Word) :=
  let b := fun (x : Bool) => if x then 1 else 0
  [(0x030, BitVec.ofNat 64 (b r.en + b r.wrap * 2 + b r.ovf * 2 ^ 2 + b r.own * 2 ^ 3 + b r.lds * 2 ^ 4 + r.idx % 2 ^ 8 * 2 ^ 8 +
      r.entries.length * 2 ^ 16)),
   (0x031, BitVec.ofNat 64 (r.mtch % 2 ^ 19 + r.mask % 2 ^ 19 * 2 ^ 19)),
   (0x032, match r.entries[r.idx]? with
      | none => 0
      | some e => BitVec.ofNat 64 (e.addr % 2 ^ 19 + e.size * 2 ^ 19 + e.kind * 2 ^ 22 + e.ord % 2 ^ 32 * 2 ^ 32)),
   (0x033, match r.entries[r.idx]? with
      | none => 0
      | some e => BitVec.ofNat 64 (e.src % 2 ^ 12 + e.slot % 2 ^ 4 * 2 ^ 12 + e.gen % 2 ^ 16 * 2 ^ 16 + e.cyc % 2 ^ 32 * 2 ^ 32))]

/-- The fields that a value gives LSP are valid: the transaction region ends at or below the Hive base (R101, R102). -/
def lspFields (x : Word) : Prop :=
  let wsn := (x.extractLsb' 0 7).toNat
  let frame := 2 ^ (x.extractLsb' 8 5).toNat
  let fcnt := (x.extractLsb' 13 6).toNat
  let hlog := (x.extractLsb' 19 5).toNat
  16 ≤ wsn ∧ wsn ≤ 64 ∧ (fcnt = 0 ∨ (2 ^ 9 ≤ frame ∧ frame ≤ 2 ^ 18)) ∧ (hlog = 0 ∨ (12 ≤ hlog ∧ hlog ≤ 18)) ∧
    (if fcnt = 0 then wsn * 0x1000 else (wsn * 0x1000 + frame - 1) / frame * frame + fcnt * frame) ≤
      0x80000 - (if hlog = 0 then 0 else 2 ^ hlog)

/-- The core holds nothing that stands in its local store but the writing thread, whose region stays below the new WSN (R101). -/
def lspFree (s : State) (x : Word) : Prop :=
  s.th.wsr < (x.extractLsb' 0 7).toNat ∧ s.th.inl = [] ∧ (∀ i < 16, i ≠ s.cur.2 → ¬ holdsTask (s.thread s.cur.1 i)) ∧
    s.co.deque = [] ∧ s.co.runList = [] ∧ s.co.parked = [] ∧ (∀ e ∈ (s.cluster (clusterOf s.cur.1)).runq, e.site ≠ s.cur.1) ∧
    (∀ t ∈ s.scarab.txns, ¬ (t.core = s.cur.1 ∧ t.stage = .running)) ∧ s.co.frames = [] ∧ s.co.hive.clm = false ∧
    (s.cluster (clusterOf s.cur.1)).txq = []

/-- The TLBs that a translation service core controls: its cluster's and those of the cluster's cores (R115, R225). -/
def tlbsHold (s : State) (k : Nat) (e : TlbEntry) : Prop :=
  (∃ j, e ∈ tblGet [] j (s.cluster k).tlb) ∨ ∃ n ∈ s.coresOf k ++ [2048 + k], e ∈ (s.core n).tlb

end Sys2Proof.Claims

/-- R220, R221, R138: `wait` goes on when every counter is within its bound, and stalls the slot otherwise; `qfence` records the operations
that later submissions to its queues wait for. -/
def Sys2Proof.Claims.WaitAndQueueFence : Prop :=
  ∀ s : State, s.plain →
    (∀ nT nC nS nL : BitVec 4,
      let go := Claims.within nL s.th.cntL ∧ Claims.within nS s.th.cntS ∧ Claims.within nC s.th.cntC ∧ Claims.within nT s.th.cntT
      (go → exec (.wait nT nC nS nL) s = .next (s.went 4)) ∧ (¬ go → exec (.wait nT nC nS nL) s = .next (Claims.waits s))) ∧
    ∀ m : BitVec 5, ∃ t, exec (.qfence m) s = .next t ∧ t.th = s.th.went 4 ∧ t.co.ops = s.co.ops ∧ t.co.ls = s.co.ls ∧
      Claims.elsewhere s t ∧ (s.th.due = [] → s.th.hb = none →
        let ids := (s.co.ops.filter (fun o => decide (o.slot = s.cur.2) && m.toNat.testBit o.queue)).map (·.id)
        ids ≠ [] → (s.cur.2, m.toNat, ids) ∈ t.co.fences)

/-- R220, R108, R109: `l1wb` sends every dirty line home, one write-back each in S, and leaves them valid and clean, and what a fetch on
its way brings does not replace what was stored; `l1inv` clears the
valid bits of clean bytes; the forms with an address do so for one line; `epoch` bumps the epoch. -/
def Sys2Proof.Claims.L1Words : Prop :=
  ∀ s : State, s.plain →
    (let dirty := s.co.l1.filter (fun l => decide (l.dirty ≠ 0));
      (s.co.l1.map (·.base)).Nodup → s.th.cntS + dirty.length ≤ 1023 →
      ∃ t fs, exec .l1wb s = .next t ∧
        t.flights = s.flights.map (fun g => dirty.foldl (fun g l => g.passedBy s.cur.1 l) g) ++ fs ∧
        fs.map (fun f => (f.kind, f.pa, f.data, f.inS)) = dirty.map (fun l => (.writeback, l.base, l.dirtyBytes, true)) ∧
        t.co.l1 = s.co.l1.map (fun l => if l.dirty = 0 then l else { l with dirty := 0, writers := 0 }) ∧
        t.th = { s.th.went 4 with cntS := s.th.cntS + dirty.length } ∧ t.co.ls = s.co.ls ∧ Claims.elsewhere s t) ∧
    (∃ t, exec .l1inv s = .next t ∧ t.co.l1 = s.co.l1.map (fun l => { l with valid := l.valid &&& l.dirty }) ∧
      t.th = s.th.went 4 ∧ t.flights = s.flights ∧ t.co.ls = s.co.ls ∧ Claims.elsewhere s t) ∧
    (∃ t, exec .epoch s = .next t ∧ t.co.epoch = s.co.epoch + 1 ∧
      t.co.l1 = s.co.l1.map (fun l => if l.tag = s.co.epoch + 1 then { l with valid := l.valid &&& l.dirty } else l) ∧
      t.th = s.th.went 4 ∧ t.flights = s.flights.map (fun f => f.bumped s.cur.1 (s.co.epoch + 1)) ∧ t.co.ls = s.co.ls ∧
      Claims.elsewhere s t) ∧
    ∀ (a : BitVec 5) (pa : Nat),
      s.live.translate s.cur.1 s.cur.2 true s.th.walk (s.reg a.toNat) 4 = .ok pa false s.live → let base := pa / 64 * 64;
      (∀ l, s.co.line base = some l → l.dirty ≠ 0 → s.th.cntS < 1023 →
        ∃ t f, exec (.l1wbL a) s = .next t ∧ t.flights = s.flights.map (fun g => g.passedBy s.cur.1 l) ++ [f] ∧
          f.kind = .writeback ∧ f.pa = l.base ∧
          f.data = l.dirtyBytes ∧ t.th = { s.th.went 4 with cntS := s.th.cntS + 1 } ∧
          t.co.line base = some { l with dirty := 0, writers := 0 } ∧ t.co.ls = s.co.ls ∧ Claims.elsewhere s t) ∧
      (∀ l, s.co.line base = some l → ∃ t, exec (.l1invL a) s = .next t ∧ t.flights = s.flights ∧ t.th = s.th.went 4 ∧
        t.co.line base = some { l with valid := l.valid &&& l.dirty } ∧ t.co.ls = s.co.ls ∧ Claims.elsewhere s t) ∧
      (s.co.line base = none → exec (.l1wbL a) s = .next (s.went 4) ∧ exec (.l1invL a) s = .next (s.went 4))

/-- R222, R224: `trap` and a `bkpt` whose core has no breakpoints take their trap with the next word as return address; with
breakpoints enabled `bkpt` halts the thread and records its number; `halt` halts firmware and traps a user. -/
def Sys2Proof.Claims.TrapAndHaltWords : Prop :=
  ∀ s : State, s.plain → ∀ n : BitVec 12,
    let on := (tblGet 0 (s.co.lcore / 64) s.dbgbp).getLsbD (s.co.lcore % 64);
    exec (.trap n) s = .next (s.live.takeTrap 9 (n.setWidth 64) (s.th.pc + 4)) ∧
    exec (.bkpt n) s = .next (if on then s.setTh { s.th.went 4 with run := .halted, bkpt := some n.toNat }
      else s.live.takeTrap 10 (n.setWidth 64) (s.th.pc + 4)) ∧
    exec .halt s = .next (if s.th.priv then s.setTh { s.th.went 4 with run := .halted, bkpt := none }
      else Claims.trapped s 2 (Claims.word .halt))

/-- R362, R222: `sysret` restores s1 to s7 and s24 to s30 from the park save area, PRIV and QMAP from XCAUSE, clears ACT and goes to
XPC; a user, a thread in no handler and an odd XPC trap. -/
def Sys2Proof.Claims.ReturnFromTrap : Prop :=
  ∀ s : State, s.plain →
    (s.th.priv = true → s.th.act = true → s.th.xpc.getLsbD 0 = false → s.co.lsBad = [] →
      ∃ t, exec .sysret s = .next t ∧ t.th.pc = s.th.xpc ∧ t.th.priv = s.th.ppriv ∧ t.th.qmap = s.th.pqmap ∧ t.th.act = false ∧
        t.th.run = .running ∧
        (∀ k < 7, t.th.sreg s.cur.2 (1 + k) = s.lsWord s.cur.1 (s.th.region + 8 * k) ∧
          t.th.sreg s.cur.2 (24 + k) = s.lsWord s.cur.1 (s.th.region + 0x38 + 8 * k)) ∧
        (∀ r, 8 ≤ r → r ≤ 23 → t.th.sreg s.cur.2 r = s.reg r) ∧ t.th.vec = s.th.vec ∧ t.th.prd = s.th.prd ∧
        t.th.ext = s.th.ext ∧ t.th.depth = s.th.depth ∧ t.co.ls = s.co.ls ∧ Claims.elsewhere s t) ∧
    (s.th.priv = false → exec .sysret s = .next (Claims.trapped s 2 (Claims.word .sysret))) ∧
    (s.th.priv = true → s.th.act = false → exec .sysret s = .next (Claims.trapped s 5 (Claims.word .sysret))) ∧
    (s.th.priv = true → s.th.act = true → s.th.xpc.getLsbD 0 = true → exec .sysret s = .next (Claims.trapped s 3 s.th.xpc))

/-- R185, R222: `mfs` gives sD a special register, `mfs` and `mts` of an extension register copy it; an unlisted number is an illegal
instruction, and a firmware register traps a user. -/
def Sys2Proof.Claims.SpecialRegisterReads : Prop :=
  ∀ s : State, s.plain → ∀ d : BitVec 5,
    (∀ r ∈ Claims.sprValues s, exec (.mfs r.1 d) s = .next (Claims.wrote s d.toNat r.2 4)) ∧
    (s.th.priv = true → ∀ r ∈ Claims.sprFirm s, exec (.mfs r.1 d) s = .next (Claims.wrote s d.toNat r.2 4)) ∧
    (s.th.priv = false → ∀ r ∈ Claims.sprFirm s, exec (.mfs r.1 d) s = .next (Claims.trapped s 2 (Claims.word (.mfs r.1 d)))) ∧
    (s.th.accQ = [] → exec (.mfs 0x019 d) s = .next (Claims.wrote s d.toNat s.th.acc 4)) ∧
    (∀ n : BitVec 12, sprListed n = false → exec (.mfs n d) s = .next (Claims.trapped s 1 (Claims.word (.mfs n d))) ∧
      ∀ a : BitVec 5, exec (.mts n a) s = .next (Claims.trapped s 1 (Claims.word (.mts n a)))) ∧
    ∀ (e : BitVec 3) (a : BitVec 5),
      exec (.mfsE e d) s = .next (Claims.wrote s d.toNat (s.th.ereg e.toNat) 4) ∧
      exec (.mtsE e a) s = .next (s.setTh ((s.th.setEreg e.toNat (s.reg a.toNat)).went 4))

/-- R26, R126 to R128, R163: `mfs` of CID, FLU and the ring registers. FLU.LIVE is the OR of the flags of the cluster's slots that hold a task,
and FLU.STK the sticky copy. -/
def Sys2Proof.Claims.UnitRegisterReads : Prop :=
  ∀ s : State, s.plain → ∀ d : BitVec 5,
    (s.cur.1 < 2048 → exec (.mfs 0x000 d) s = .next (Claims.wrote s d.toNat (Claims.cidWord s s.cur.1) 4)) ∧
    (∀ r ∈ Claims.ringWords s.co.ring, exec (.mfs r.1 d) s = .next (Claims.wrote s d.toNat r.2 4)) ∧
    ∃ v : Word, exec (.mfs 0x020 d) s = .next (Claims.wrote s d.toNat v 4) ∧
      v.extractLsb' 8 6 = (s.cluster (clusterOf s.cur.1)).stk ∧ v.extractLsb' 6 2 = 0 ∧ v.extractLsb' 14 50 = 0 ∧
      ∀ b < 6, (v.getLsbD b = true ↔ ∃ n ∈ s.coresOf (clusterOf s.cur.1), ∃ i < 16,
        Claims.holdsTask (s.live.thread n i) ∧ (s.live.thread n i).flg.getLsbD b = true)

/-- R101, R126, R127, R223, R391: firmware's `mts` of LSP cuts the local store anew where the fields are valid and the core holds nothing else,
and traps otherwise; a THB that is not sign-extended traps; a write of RTC sets the ring's controls, clears OVF by a one and empties the ring
where EN rises; a write of RTF sets the filter. -/
def Sys2Proof.Claims.UnitRegisterWrites : Prop :=
  ∀ s : State, s.plain → ∀ a : BitVec 5, let x := s.reg a.toNat
    let r := s.co.ring
    (s.th.priv = true →
      (Claims.lspFields x → Claims.lspFree s x → ∃ t, exec (.mts 0x004 a) s = .next t ∧ t.th = s.th.went 4 ∧
        t.co.wsn = (x.extractLsb' 0 7).toNat ∧ t.co.flog = (x.extractLsb' 8 5).toNat ∧ t.co.fcnt = (x.extractLsb' 13 6).toNat ∧
        t.co.hlog = (x.extractLsb' 19 5).toNat ∧ t.co.ls = s.co.ls ∧ Claims.elsewhere s t) ∧
      (¬ Claims.lspFields x ∨ ¬ Claims.lspFree s x →
        exec (.mts 0x004 a) s = .next (Claims.trapped s 5 (Claims.word (.mts 0x004 a)))) ∧
      (canonical x = false → exec (.mts 0x080 a) s = .next (Claims.trapped s 5 (Claims.word (.mts 0x080 a))))) ∧
    (∃ t, exec (.mts 0x030 a) s = .next t ∧ t.th = s.th.went 4 ∧ t.co.ls = s.co.ls ∧ Claims.elsewhere s t ∧
      t.co.ring = { r with en := x.getLsbD 0, wrap := x.getLsbD 1, ovf := r.ovf && !x.getLsbD 2, own := x.getLsbD 3, lds := x.getLsbD 4
                           idx := (x.extractLsb' 8 8).toNat
                           entries := if x.getLsbD 0 = true ∧ r.en = false then [] else r.entries
                           ord := if x.getLsbD 0 = true ∧ r.en = false then 0 else r.ord }) ∧
    ∃ t, exec (.mts 0x031 a) s = .next t ∧ t.th = s.th.went 4 ∧ t.co.ls = s.co.ls ∧ Claims.elsewhere s t ∧
      t.co.ring = { r with mtch := (x.extractLsb' 0 19).toNat, mask := (x.extractLsb' 19 19).toNat }

/-- R223, R156, R159, R163: `mts` writes a special register field by field; read-only ones stay, RND.MODE 6 and 7 trap, and FLU.STK is
cleared by ones. -/
def Sys2Proof.Claims.SpecialRegisterWrites : Prop :=
  ∀ s : State, s.plain → ∀ a : BitVec 5, let x := s.reg a.toNat;
    (∀ r ∈ Claims.sprWrites s.th x, exec (.mts r.1 a) s = .next (s.setTh (r.2.went 4))) ∧
    (∀ n ∈ Claims.sprFixed, exec (.mts n a) s = .next (s.went 4)) ∧
    exec (.mts 0x014 a) s = .next (if x.toNat % 8 < 6 then s.setTh { s.th.went 4 with rnd := x.extractLsb' 0 3 }
      else Claims.trapped s 5 (Claims.word (.mts 0x014 a))) ∧
    (∃ t, exec (.mts 0x020 a) s = .next t ∧ t.th = s.th.went 4 ∧ (t.cluster (clusterOf s.cur.1)).stk =
      (s.cluster (clusterOf s.cur.1)).stk &&& ~~~(x.extractLsb' 8 6) ∧ t.co.ls = s.co.ls ∧ Claims.elsewhere s t) ∧
    (s.th.priv = true →
      exec (.mts 0x081 a) s = .next (s.setTh { s.th.went 4 with xpc := x }) ∧
      exec (.mts 0x083 a) s = .next (s.setTh { s.th.went 4 with xval := x }) ∧
      exec (.mts 0x082 a) s = .next (s.setTh { s.th.went 4 with xcode := x.extractLsb' 0 8, ppriv := x.getLsbD 8, pqmap := x.getLsbD 9 }) ∧
      (canonical x = true → ∃ t, exec (.mts 0x080 a) s = .next t ∧ t.th = s.th.went 4 ∧ t.co.thbEn = x.getLsbD 0 ∧
        t.co.thbBase = x.extractLsb' 8 56 ∧ t.co.ls = s.co.ls ∧ Claims.elsewhere s t)) ∧
    (s.th.priv = false → ∀ n ∈ [0x004, 0x080, 0x081, 0x082, 0x083],
      exec (.mts n a) s = .next (Claims.trapped s 2 (Claims.word (.mts n a))))

/-- R225: on a translation service core in firmware `tlbw` enters e0 and e1 where sA says, and `tlbi` drops from every TLB of the
cluster the entries of a page, or all; on another core they are illegal instructions, and a user takes the privilege trap. -/
def Obligations.TlbWords : Prop :=
  ∀ s : State, s.plain → ∀ a : BitVec 5, let x := s.reg a.toNat
    let k := clusterOf s.cur.1
    let e : TlbEntry := { w0 := s.th.ereg 0, w1 := s.th.ereg 1 };
    (2048 ≤ s.cur.1 → s.th.priv = true →
      (x.extractLsb' 13 51 = 0 → entryReserved e.w0 e.w1 = false → x.extractLsb' 0 12 = 0xFFF →
        ∃ t, exec (.tlbw a) s = .next t ∧ (x.getLsbD 12 = true → e ∈ tblGet [] e.set (t.cluster k).tlb) ∧
          (x.getLsbD 12 = false → t = s.went 4) ∧ t.th = s.th.went 4 ∧ t.co.ls = s.co.ls ∧ Claims.elsewhere s t) ∧
      (x.extractLsb' 13 51 = 0 → entryReserved e.w0 e.w1 = false → ∀ n, s.live.siteOf (x.extractLsb' 0 12).toNat = some n →
        x.extractLsb' 0 12 ≠ 0xFFF → clusterOf n = k → ∃ t, exec (.tlbw a) s = .next t ∧ e ∈ (t.core n).tlb ∧ t.th = s.th.went 4 ∧
          t.co.ls = s.co.ls ∧ Claims.elsewhere s t) ∧
      (∃ t, exec (.tlbi a) s = .next t ∧ t.th = s.th.went 4 ∧ t.co.ls = s.co.ls ∧ Claims.elsewhere s t ∧
        ∀ e, Claims.tlbsHold t k e ↔ Claims.tlbsHold s k e ∧ e.hits x = false) ∧
      ∃ t, exec .tlbiAll s = .next t ∧ t.th = s.th.went 4 ∧ t.co.ls = s.co.ls ∧ Claims.elsewhere s t ∧ ∀ e, ¬ Claims.tlbsHold t k e) ∧
    ∀ i ∈ [(Instr.tlbw a), .tlbi a, .tlbiAll],
      (s.cur.1 < 2048 → exec i s = .next (Claims.trapped s 1 (Claims.word i))) ∧
      (2048 ≤ s.cur.1 → s.th.priv = false → exec i s = .next (Claims.trapped s 2 (Claims.word i)))
/-! ## Messages, monitors, barriers and queue registers (R56 to R62, R301 to R307) -/

namespace Sys2Proof.Claims

/-- A register group of k registers from D reads zeros where D is 0 (R288). -/
def group (s : State) (d k : Nat) : List Word := if d = 0 then List.replicate k 0 else (List.range' d k).map s.reg

/-- The header word of a mailbox entry (R302). -/
def mailHeader (e : Entry) (hi : Bool) : Word :=
  BitVec.ofNat 64 (e.core % 0x1000 + e.slot % 16 * 2 ^ 12 + e.gen % 0x10000 * 2 ^ 16 + e.kind % 8 * 2 ^ 32 +
    (if hi then 1 else 0) * 2 ^ 35 + e.reason % 16 * 2 ^ 36)

/-- The monitor table of the issuing core's cluster (R61). -/
def monitors (s : State) : List Mon := (s.cluster (clusterOf s.cur.1)).mons

/-- A barrier unit of the issuing core's cluster (R62). -/
def barrier (s : State) (n : BitVec 4) : Bar := tblGet {} n.toNat (s.cluster (clusterOf s.cur.1)).bars

end Sys2Proof.Claims

/-- R301, R288: `send` puts a message of its four registers on the way, addressed by sA and stamped with the sender, and counts it in S;
a full counter stalls it, and nonzero high bits of sA trap. -/
def Sys2Proof.Claims.SendWords : Prop :=
  ∀ r ∈ [((.sendLo : BitVec 5 → BitVec 5 → Instr), false), (.sendHi, true)], ∀ s : State, s.plain → ∀ a d : BitVec 5,
    let x := s.reg a.toNat
    (x.extractLsb' 32 32 = 0 → s.th.cntS < 1023 → ∃ t, exec (r.1 a d) s = .next t ∧
      t.chan = s.chan ++ [.message (s.cur.1, s.cur.2, s.th.gen.toNat)
        ((x.extractLsb' 0 12).toNat, (x.extractLsb' 12 4).toNat, (x.extractLsb' 16 16).toNat) r.2 (Claims.group s d.toNat 4) s.th.task.lnch false] ∧
      t.th = { s.th.went 4 with cntS := s.th.cntS + 1 } ∧ t.co.ls = s.co.ls ∧ Claims.elsewhere s t) ∧
    (x.extractLsb' 32 32 = 0 → 1023 ≤ s.th.cntS → exec (r.1 a d) s = .next (Claims.waits s)) ∧
    (x.extractLsb' 32 32 ≠ 0 → exec (r.1 a d) s = .next (Claims.trapped s 5 (Claims.word (r.1 a d))))

/-- R302, R303: `recv` takes the oldest entry, the high mailbox first, into five registers, and zeros from empty mailboxes; a storage
completion bumps the epoch. `waitm` goes on when an entry is there and stalls otherwise. -/
def Sys2Proof.Claims.ReceiveWords : Prop :=
  ∀ s : State, s.plain →
    (∀ d : BitVec 5, 1 ≤ d.toNat → d.toNat + 4 ≤ 30 →
      let take := match s.th.mbHi, s.th.mbLo with
        | e :: r, lo => (e.payload ++ [Claims.mailHeader e true], decide (e.kind = 3), r, lo)
        | [], e :: r => (e.payload ++ [Claims.mailHeader e false], decide (e.kind = 3), [], r)
        | [], [] => (List.replicate 5 0, false, [], [])
      take.1.length = 5 → ∃ t, exec (.recv d) s = .next t ∧ (∀ j < 5, t.reg (d.toNat + j) = take.1.getD j 0) ∧
        (∀ r < 31, r < d.toNat ∨ d.toNat + 4 < r → t.reg r = s.reg r) ∧ t.th.mbHi = take.2.2.1 ∧ t.th.mbLo = take.2.2.2 ∧
        t.co.epoch = (if take.2.1 then s.co.epoch + 1 else s.co.epoch) ∧ t.th.pc = s.th.pc + 4 ∧ t.th.run = .running ∧
        t.th.vec = s.th.vec ∧ t.th.prd = s.th.prd ∧ t.th.ext = s.th.ext ∧ t.co.ls = s.co.ls ∧ Claims.elsewhere s t) ∧
    exec .waitm s = .next (if s.th.mbHi = [] ∧ s.th.mbLo = [] then Claims.waits s else s.went 4) ∧
    exec .waitmHi s = .next (if s.th.mbHi = [] then Claims.waits s else s.went 4)

/-- R61, R304: `menter` takes a free entry for its key and goes on, or queues behind the holder; `mexit` hands the monitor to the oldest
waiter or frees the entry; entering twice and leaving what is not held trap. -/
def Sys2Proof.Claims.MonitorWords : Prop :=
  ∀ s : State, s.plain → ∀ a : BitVec 5, let key := s.reg a.toNat
    (s.th.monHeld = none → (∀ m ∈ Claims.monitors s, m.key ≠ key) → (Claims.monitors s).length < 64 →
      ∃ t, exec (.menter a) s = .next t ∧
        Claims.monitors t = Claims.monitors s ++ [{ key := key, holder := s.cur, waiters := [] }] ∧ t.th.monHeld = some key ∧
        t.th.pc = s.th.pc + 4 ∧ t.th.run = .running ∧ (∀ r < 31, t.reg r = s.reg r) ∧ t.co.ls = s.co.ls ∧ Claims.elsewhere s t) ∧
    (s.th.monHeld = none → (∃ m ∈ Claims.monitors s, m.key = key) → ∃ t, exec (.menter a) s = .next t ∧
      Claims.monitors t = (Claims.monitors s).map (fun m => if m.key = key then { m with waiters := m.waiters ++ [s.cur] } else m) ∧
      t.th.run = .stalled ∧ t.th.pc = s.th.pc ∧ t.th.monHeld = none ∧ (∀ r < 31, t.reg r = s.reg r) ∧ t.co.ls = s.co.ls ∧
      Claims.elsewhere s t) ∧
    (s.th.monHeld.isSome → exec (.menter a) s = .next (Claims.trapped s 5 (Claims.word (.menter a)))) ∧
    (s.th.monHeld ≠ some key → exec (.mexit a) s = .next (Claims.trapped s 5 (Claims.word (.mexit a)))) ∧
    (s.th.monHeld = some key → ∀ m, (Claims.monitors s).find? (fun m => decide (m.key = key)) = some m →
      ∃ t, exec (.mexit a) s = .next t ∧ t.th.pc = s.th.pc + 4 ∧ t.co.ls = s.co.ls ∧
        (m.waiters = [] → t.th.monHeld = none ∧ Claims.monitors t = (Claims.monitors s).filter (fun x => decide (x.key ≠ key)) ∧
          Claims.elsewhere s t) ∧
        ∀ w r, m.waiters = w :: r → (t.thread w.1 w.2).monHeld = some key ∧
          Claims.monitors t = (Claims.monitors s).map (fun x => if x.key = key then { x with holder := w, waiters := r } else x) ∧
          ∀ n i, (n, i) ≠ s.cur → (n, i) ≠ w → t.thread n i = s.thread n i)

/-- R62, R305: `bar.cfg` sets EXPECTED of an idle unit, `bar.arrive` sends an arrival whose answer its register waits for, and
`bar.wait` goes on once the generation has changed; a bad value, a unit in use and one that is not configured trap. -/
def Sys2Proof.Claims.BarrierWords : Prop :=
  ∀ s : State, s.plain → ∀ (n : BitVec 4) (a d : BitVec 5), let x := s.reg a.toNat
    let b := Claims.barrier s n
    (1 ≤ x.toNat → x.toNat ≤ 4095 → b.arrived = 0 → ∃ t, exec (.barCfg n a) s = .next t ∧
      Claims.barrier t n = { b with expected := x.toNat, arrived := 0 } ∧ (∀ m, m ≠ n → Claims.barrier t m = Claims.barrier s m) ∧
      t.th = s.th.went 4 ∧ t.co.ls = s.co.ls ∧ Claims.elsewhere s t) ∧
    (x.toNat = 0 ∨ 4095 < x.toNat ∨ b.arrived ≠ 0 → exec (.barCfg n a) s = .next (Claims.trapped s 5 (Claims.word (.barCfg n a)))) ∧
    (b.expected ≠ 0 → s.th.cntL < 1023 → ∃ t, exec (.barArrive n d) s = .next t ∧
      t.chan = s.chan ++ [.arrive (clusterOf s.cur.1) n.toNat s.cur.1 s.cur.2 s.nextId] ∧ t.th.cntL = s.th.cntL + 1 ∧
      t.th.pend = (if d = 0 ∨ d = 31 then [] else [(s.th.abs (.s d.toNat), s.nextId)]) ∧ t.th.pc = s.th.pc + 4 ∧
      (∀ r < 31, t.reg r = s.reg r) ∧ t.co.ls = s.co.ls ∧ Claims.elsewhere s t) ∧
    (b.expected = 0 → exec (.barArrive n d) s = .next (Claims.trapped s 5 (Claims.word (.barArrive n d)))) ∧
    (b.gen ≠ x.toNat % 256 → ∃ t, exec (.barWait n a) s = .next t ∧ t.th.pc = s.th.pc + 4 ∧ t.th.run = .running ∧
      (∀ r < 31, t.reg r = s.reg r) ∧ t.co.ls = s.co.ls ∧ Claims.elsewhere s t) ∧
    (b.gen = x.toNat % 256 → ∃ t, exec (.barWait n a) s = .next t ∧ t.th.pc = s.th.pc ∧ t.th.run = .stalled ∧
      (∀ r < 31, t.reg r = s.reg r) ∧ t.co.ls = s.co.ls ∧ Claims.elsewhere s t)

/-- R306, R307: `qcfg` gives the four queue registers their writers and readers and empties them; `qmap` turns the names of s24 to s27
on and off. -/
def Sys2Proof.Claims.QueueConfiguration : Prop :=
  ∀ s : State, s.plain → ∀ a : BitVec 5, let x := s.reg a.toNat
    ((∀ u ∈ s.co.threads, u.2.qmap = false) → (∀ q < 4, (s.co.queue q).items = []) → x.extractLsb' 36 28 = 0 →
      (∀ q < 4, x.getLsbD (32 + q) = true → x.extractLsb' (8 * q) 4 ≠ x.extractLsb' (8 * q + 4) 4) →
      ∃ t, exec (.qcfg a) s = .next t ∧ t.th = s.th.went 4 ∧ t.co.ls = s.co.ls ∧ Claims.elsewhere s t ∧
        ∀ q < 4, t.co.queue q = { en := x.getLsbD (32 + q), writer := (x.extractLsb' (8 * q) 4).toNat
                                  reader := (x.extractLsb' (8 * q + 4) 4).toNat, items := [] }) ∧
    (x.extractLsb' 36 28 ≠ 0 ∨ (∃ u ∈ s.co.threads, u.2.qmap = true) ∨ (∃ q < 4, (s.co.queue q).items ≠ []) →
      exec (.qcfg a) s = .next (Claims.trapped s 5 (Claims.word (.qcfg a)))) ∧
    exec .qmapOn s = .next (s.setTh { s.th.went 4 with qmap := true }) ∧ exec .qmapOff s = .next (s.went 4)

namespace Sys2Proof.Claims

/-- Words that read register r once, and what they give sD from its value. -/
def qSources (s : State) (i : BitVec 12) (m : BitVec 6) (w : BitVec 2) (b r d : BitVec 5) : List (Instr × (Word → Word)) :=
  immWords.map (fun x => (x.1 i r d, fun v => x.2 v (i.signExtend 64))) ++ shiftWords.map (fun x => (x.1 m r d, fun v => x.2 v m.toNat)) ++
    rg1Words.map (fun x => (x.1 0 r w d, fun v => x.2 (width w) (v.setWidth _))) ++
    rg2Words.map (fun x => (x.1 0 b r w d, fun v => x.2 (width w) (v.setWidth _) ((s.reg b.toNat).setWidth _)))

/-- Words that write register r, and the value that they give it. -/
def qDests (s : State) (i : BitVec 12) (m : BitVec 6) (w : BitVec 2) (a b r : BitVec 5) : List (Instr × Word) :=
  immWords.map (fun x => (x.1 i a r, x.2 (s.reg a.toNat) (i.signExtend 64))) ++
    shiftWords.map (fun x => (x.1 m a r, x.2 (s.reg a.toNat) m.toNat)) ++
    rg1Words.map (fun x => (x.1 0 a w r, x.2 (width w) ((s.reg a.toNat).setWidth _))) ++
    rg2Words.map (fun x => (x.1 0 b a w r, x.2 (width w) ((s.reg a.toNat).setWidth _) ((s.reg b.toNat).setWidth _)))

/-- A queue holds given values, and every other queue is as before. -/
def queueIs (s t : State) (q : Nat) (vs : List Word) : Prop :=
  t.co.queue q = { s.co.queue q with items := vs } ∧ ∀ p, p ≠ q → t.co.queue p = s.co.queue p

/-- The slot stays empty on a queue, and nothing else changes (R57). -/
def queueStalls (s : State) (i : Instr) : Prop :=
  ∃ t, exec i s = .next t ∧ t.th.run = .stalled ∧ t.th.pc = s.th.pc ∧ t.th.glob = s.th.glob ∧ t.th.win = s.th.win ∧
    (∀ p, t.co.queue p = s.co.queue p) ∧ t.co.ls = s.co.ls ∧ elsewhere s t

end Sys2Proof.Claims

/-- R57, R212, R307: with QMAP on, a word that names s24 to s27 as a source takes the oldest value of its queue, two of them where it names the
register twice, and one that names them as a destination puts its result at the end; a store sends the value that it takes, and a load puts its
value into the queue, at once from the local store, and from device memory once it has come, the slot waiting. An empty or full queue stalls
the slot, and a thread that is not the reader or the writer traps. -/
def Sys2Proof.Claims.QueueRegisterWords : Prop :=
  ∀ s : State, s.th.pend = [] → s.th.regBad = [] → s.th.pair = 0 → s.th.qmap = true → s.th.inRecon = false → s.th.phase = 0 →
    ∀ q < 4, let x := s.co.queue q
    let r := BitVec.ofNat 5 (24 + q)
    ∀ (i : BitVec 12) (m : BitVec 6) (w : BitVec 2) (a b d : BitVec 5), a.toNat < 24 → b.toNat < 24 → d.toNat < 24 →
    let la := s.reg a.toNat + i.signExtend 64
    (x.en = true → x.reader = s.cur.2 →
      (∀ v rest, x.items = v :: rest →
        (∀ y ∈ Claims.qSources s i m w b r d, ∃ t, exec y.1 s = .next t ∧ t.th = (s.th.setSreg d.toNat (y.2 v)).went 4 ∧
          Claims.queueIs s t q rest ∧ t.co.ls = s.co.ls ∧ Claims.elsewhere s t) ∧
        (∀ y ∈ Claims.localStores, la.toNat + y.2 ≤ 0x80000 → s.co.inClaim la.toNat y.2 = false → s.site = false →
          ∃ t, exec (y.1 i a r) s = .next t ∧ t.th = s.th.went 4 ∧ Claims.storedAt s t s.cur.1 la.toNat (leBytes y.2 v.toNat) ∧
            Claims.queueIs s t q rest ∧ Claims.elsewhere s t) ∧
        ∀ y ∈ Claims.deviceStores, ∀ g, Claims.uncached s la y.2 1 g → s.th.cntS < 1023 → ∃ t f, exec (y.1 i a r) s = .next t ∧
          t.flights = s.flights ++ [f] ∧ f.kind = .store ∧ f.pa = g.pa ∧ f.data = (leBytes y.2 v.toNat).map some ∧
          t.th.cntS = s.th.cntS + 1 ∧ t.th.pc = s.th.pc + 4 ∧ Claims.queueIs s t q rest ∧ t.co.ls = s.co.ls ∧ Claims.elsewhere s t) ∧
      (∀ v u rest, x.items = v :: u :: rest → ∀ y ∈ Claims.rg2Words, ∃ t, exec (y.1 0 r r w d) s = .next t ∧
        t.th = (s.th.setSreg d.toNat (y.2 (Claims.width w) (v.setWidth _) (u.setWidth _))).went 4 ∧ Claims.queueIs s t q rest ∧
        t.co.ls = s.co.ls ∧ Claims.elsewhere s t) ∧
      (x.items.length < 2 → ∀ y ∈ Claims.rg2Words, Claims.queueStalls s (y.1 0 r r w d)) ∧
      (x.items = [] → (∀ y ∈ Claims.qSources s i m w b r d, Claims.queueStalls s y.1) ∧
        ∀ y ∈ Claims.localStores ++ Claims.deviceStores, Claims.queueStalls s (y.1 i a r))) ∧
    (x.en = false ∨ x.reader ≠ s.cur.2 →
      (∀ y ∈ Claims.qSources s i m w b r d, exec y.1 s = .next (Claims.trapped s 5 (Claims.word y.1))) ∧
      ∀ y ∈ Claims.localStores ++ Claims.deviceStores, exec (y.1 i a r) s = .next (Claims.trapped s 5 (Claims.word (y.1 i a r)))) ∧
    (x.en = true → x.writer = s.cur.2 →
      (x.items.length < 8 →
        (∀ y ∈ Claims.qDests s i m w a b r, ∃ t, exec y.1 s = .next t ∧ t.th = s.th.went 4 ∧ Claims.queueIs s t q (x.items ++ [y.2]) ∧
          t.co.ls = s.co.ls ∧ Claims.elsewhere s t) ∧
        (∀ y ∈ Claims.localLoads, la.toNat + y.2 ≤ 0x80000 → anyBad s.co.lsBad la.toNat y.2 = false →
          ∃ t, exec (y.1 i a r) s = .next t ∧ t.th = s.th.went 4 ∧ t.co.ls = s.co.ls ∧ Claims.elsewhere s t ∧ Claims.queueIs s t q
            (x.items ++ [(BitVec.ofNat (8 * y.2) (leNat (s.lsSeen s.cur.1 la.toNat y.2))).signExtend 64])) ∧
        ∀ y ∈ Claims.deviceLoads, ∀ g, Claims.uncached s la y.2.1 0 g → s.th.cntL < 1023 → s.th.reply = none →
          ∃ t f, exec (y.1 i a r) s = .next t ∧ t.flights = s.flights ++ [f] ∧ f.kind = .load ∧ f.pa = g.pa ∧ t.th.cntL = s.th.cntL + 1 ∧ t.th.run = .stalled ∧
          t.th.phase = 1 ∧ t.th.pc = s.th.pc ∧ t.th.pend = [] ∧ (∀ p, t.co.queue p = s.co.queue p) ∧ t.co.ls = s.co.ls ∧
          Claims.elsewhere s t) ∧
      (8 ≤ x.items.length → (∀ y ∈ Claims.qDests s i m w a b r, Claims.queueStalls s y.1) ∧
        (∀ y ∈ Claims.localLoads, Claims.queueStalls s (y.1 i a r)) ∧ ∀ y ∈ Claims.deviceLoads, Claims.queueStalls s (y.1 i a r))) ∧
    (x.en = false ∨ x.writer ≠ s.cur.2 →
      (∀ y ∈ Claims.qDests s i m w a b r, exec y.1 s = .next (Claims.trapped s 5 (Claims.word y.1))) ∧
      (∀ y ∈ Claims.localLoads, exec (y.1 i a r) s = .next (Claims.trapped s 5 (Claims.word (y.1 i a r)))) ∧
      ∀ y ∈ Claims.deviceLoads, exec (y.1 i a r) s = .next (Claims.trapped s 5 (Claims.word (y.1 i a r))))
/-! ## Tasks (R43 to R48, R91, R288 to R300) -/

namespace Sys2Proof.Claims

/-- The issuing thread waits for nothing but its instruction is in the middle of its work, in a given phase. -/
def midway (s : State) (ph : Nat) : Prop :=
  s.th.pend = [] ∧ s.th.regBad = [] ∧ s.th.pair = 0 ∧ s.th.qmap = false ∧ s.th.inRecon = false ∧ s.th.phase = ph

/-- The counters L, S, C and T are 0 (R48). -/
def idle (s : State) : Prop := s.th.cntL = 0 ∧ s.th.cntS = 0 ∧ s.th.cntC = 0 ∧ s.th.cntT = 0

/-- COUNT, GEN and STATE of a frame (R45). -/
def frameCount (s : State) (a : Nat) : Nat := s.lsNum s.cur.1 a 4
def frameGen (s : State) (a : Nat) : Nat := s.lsNum s.cur.1 (a + 4) 2
def frameState (s : State) (a : Nat) : Nat := s.lsNum s.cur.1 (a + 6) 1

/-- A frame address is aligned and inside the local store, and the frame can gain a child (R289). -/
def frameOpen (s : State) (a : Nat) : Prop :=
  a % 32 = 0 ∧ a + 32 ≤ 0x80000 ∧ frameState s a < 2 ∧ frameCount s a ≠ 2 ^ 32 - 1

/-- An entry address is even and sign-extended from bit 55 (R289). -/
def entry (pc : Word) : Prop := pc.getLsbD 0 = false ∧ (pc.extractLsb' 0 56).signExtend 64 = pc

/-- An inline opening finds its window and its save, and ACC settled (R43, R180, R182). -/
def canOpen (s : State) : Prop :=
  s.th.depth + 1 - s.th.resLo < 4 ∧ s.th.depth < 31 ∧ 0x140 + 96 * (s.th.depth + 1) + 64 * (s.th.inl.length + 1) ≤ 0x1000 ∧
    s.th.accQ = []

/-- The record of a child (R290): its entry, arguments, frame, and what it takes from its parent. -/
def childOf (s : State) (r : Record) (pc : Word) (args : List Word) (fa : Nat) : Prop :=
  r.pc = pc ∧ r.args = args ∧ r.fref = { addr := fa, core := s.co.lcore, gen := frameGen s fa } ∧ r.txn = s.th.task.txn ∧
    r.lnch = s.th.task.lnch ∧ r.wid = s.th.wid ∧ r.score = s.th.task.score ∧ r.rmode = s.th.rnd

/-- A child runs inline: a new window, its arguments in s1 to s4, FLG 0, the parent's RND and WID, its own SRS (R43, R156). -/
def ranInline (s t : State) (pc : Word) (args : List Word) : Prop :=
  t.th.pc = pc ∧ t.th.run = .running ∧ (∀ j < 4, t.reg (1 + j) = args.getD j 0) ∧ t.th.flg = 0 ∧ t.th.rnd = s.th.rnd ∧
    t.th.wid = s.th.wid ∧ t.th.depth = s.th.depth + 1 ∧ t.th.inl.length = s.th.inl.length + 1 ∧
    t.th.srs = startSrs (s.seed s.th.task.lnch) s.th.task.score s.th.wid ∧ t.co.deque = s.co.deque ∧
    ∀ n i, (n, i) ≠ s.cur → t.thread n i = s.thread n i

/-- A decrement to the task's frame leaves at the end of a task, with the TREE decrement that follows it (R48, R295). -/
def lastDecrement (s : State) : List Packet :=
  let tree := if s.th.task.txn then s.th.task.txf else none
  match s.th.task.fref, tree with
  | some f, x => [.decrement f s.th.task.lnch x s.self false]
  | none, some x => [.tree x s.self]
  | none, none => []

end Sys2Proof.Claims

/-- R289 to R291: `spawn` raises COUNT of the frame and pushes a record at the bottom of the deque; with 64 records there it runs the
child inline and leaves COUNT alone; a bad frame word and a bad entry trap. -/
def Sys2Proof.Claims.SpawnWord : Prop :=
  ∀ s : State, s.plain → ∀ a b d : BitVec 5, let pc := s.reg a.toNat
    let w := s.reg b.toNat
    let fa := w.toNat
    (fa < 2 ^ 19 → Claims.frameOpen s fa → Claims.entry pc → s.th.task.txn = false → s.co.deque.length < 64 →
      ∃ t r, exec (.spawn b a d) s = .next t ∧ t.co.deque = r :: s.co.deque ∧ Claims.childOf s r pc (Claims.group s d.toNat 4) fa ∧
        Claims.storedAt s t s.cur.1 fa (leBytes 4 (Claims.frameCount s fa + 1)) ∧
        t.th = { s.th.went 4 with task := { s.th.task with spawned := true } } ∧ Claims.elsewhere s t) ∧
    (fa < 2 ^ 19 → Claims.frameOpen s fa → Claims.entry pc → 64 ≤ s.co.deque.length → Claims.canOpen s →
      ∃ t, exec (.spawn b a d) s = .next t ∧ Claims.ranInline s t pc (Claims.group s d.toNat 4)) ∧
    (2 ^ 19 ≤ fa ∨ fa % 32 ≠ 0 ∨ 0x80000 < fa + 32 →
      exec (.spawn b a d) s = .next (Claims.trapped s 5 (Claims.word (.spawn b a d)))) ∧
    (fa < 2 ^ 19 → fa % 32 = 0 → fa + 32 ≤ 0x80000 → ¬ Claims.entry pc → exec (.spawn b a d) s = .next (Claims.trapped s 3 pc)) ∧
    (fa < 2 ^ 19 → fa % 32 = 0 → fa + 32 ≤ 0x80000 → Claims.entry pc → 2 ≤ Claims.frameState s fa ∨ Claims.frameCount s fa = 2 ^ 32 - 1 →
      exec (.spawn b a d) s = .next (Claims.trapped s 5 (Claims.word (.spawn b a d))))

/-- R292: `spawn.at` counts its child, then sends the record when the thread's writes are at home, counting it in S, and goes on when
the target answers; a returned record runs inline. -/
def Sys2Proof.Claims.SpawnAtWord : Prop :=
  ∀ (s : State) (a b d : BitVec 5),
    (s.plain → let pc := s.reg a.toNat
      let w := s.reg b.toNat
      let fa := (w.extractLsb' 0 19).toNat
      w.extractLsb' 19 13 = 0 → w.extractLsb' 44 20 = 0 → Claims.frameOpen s fa → Claims.entry pc → s.th.task.txn = false →
      s.live.coreTakes (w.extractLsb' 32 12).toNat = true → Claims.atHome s →
      ∃ t, exec (.spawnAt b a d) s = .next t ∧ Claims.storedAt s t s.cur.1 fa (leBytes 4 (Claims.frameCount s fa + 1)) ∧
        t.th.phase = 4 ∧ t.th.held = [pc, w] ∧ t.th.run = .stalled ∧ t.th.pc = s.th.pc ∧ Claims.elsewhere s t) ∧
    (Claims.midway s 4 → ∀ pc w, s.th.held = [pc, w] → Claims.atHome s → s.th.cntS < 1023 →
      ∀ n, s.live.siteOf (w.extractLsb' 32 12).toNat = some n →
      ∃ t r, exec (.spawnAt b a d) s = .next t ∧ t.chan = s.chan ++ [.spawnAt s.cur.1 s.cur.2 n r] ∧
        Claims.childOf s r pc (Claims.group s d.toNat 4) (w.extractLsb' 0 19).toNat ∧ t.th.cntS = s.th.cntS + 1 ∧ t.th.phase = 5 ∧
        t.th.run = .stalled ∧ t.th.pc = s.th.pc ∧ t.co.ls = s.co.ls ∧ Claims.elsewhere s t) ∧
    (Claims.midway s 5 → s.th.reply = some 1 → ∃ t, exec (.spawnAt b a d) s = .next t ∧ t.th.pc = s.th.pc + 4 ∧ t.th.phase = 0 ∧
      t.th.run = .running ∧ (∀ r < 31, t.reg r = s.reg r) ∧ t.co.ls = s.co.ls ∧ Claims.elsewhere s t) ∧
    (Claims.midway s 5 → s.th.reply = some 0 → Claims.canOpen s →
      ∃ t, exec (.spawnAt b a d) s = .next t ∧ Claims.ranInline s t (s.th.held.headD 0) (Claims.group s d.toNat 4))

/-- R47, R294: `await` of a frame whose COUNT is 0 bumps the epoch and goes on; otherwise, while the pool keeps a region, the thread
parks: its continuation is bound to the frame, STATE becomes 1, and the slot is free. -/
def Sys2Proof.Claims.AwaitWord : Prop :=
  ∀ s : State, s.plain → ∀ a : BitVec 5, let x := (s.reg a.toNat).toNat
    x % 32 = 0 → x + 32 ≤ 0x80000 → s.co.lsBad = [] → Claims.frameState s x = 0 → s.th.monHeld = none →
    (Claims.frameCount s x = 0 → ∃ t, exec (.await a) s = .next t ∧ t.co.epoch = s.co.epoch + 1 ∧ t.th.pc = s.th.pc + 4 ∧
      t.th.run = .running ∧ (∀ r < 31, t.reg r = s.reg r) ∧ t.th.vec = s.th.vec ∧ t.th.prd = s.th.prd ∧ t.co.ls = s.co.ls ∧
      Claims.elsewhere s t) ∧
    (Claims.frameCount s x ≠ 0 → s.live.mayPark = true → Claims.atHome s → s.th.cntL = 0 → s.th.depth ≤ 31 →
      s.th.wsr * 0x1000 + 0x1000 ≤ x →
      ∃ t k, exec (.await a) s = .next t ∧ t.co.parked = s.co.parked ++ [k] ∧ k.frame = some x ∧ k.region = s.th.wsr ∧
        t.th.run = .free ∧ memGet (x + 6) t.co.ls = 1 ∧ Claims.frameCount t x = Claims.frameCount s x ∧
        t.lsWord s.cur.1 (x + 8) = s.th.pc + 4 ∧ t.lsWord s.cur.1 (x + 24) = s.th.srs ∧ Claims.elsewhere s t)

/-- R295, R48, R296: `quit` and `wfw` wait for the counters and the thread's lines, send the decrement of the task's frame and leave
the slot, which `wfw` keeps out of rotation with its region; `quit` in an inline child restores the parent. -/
def Sys2Proof.Claims.EndOfTask : Prop :=
  ∀ s : State, s.plain →
    (s.th.inl = [] → s.th.monHeld = none → Claims.idle s → Claims.atHome s →
      (∃ t, exec .quit s = .next t ∧ t.chan = s.chan ++ Claims.lastDecrement s ∧ t.th.run = .free ∧ t.th.task = {} ∧ t.th.qmap = false ∧
        t.th.mbHi = s.th.mbHi ∧ t.th.mbLo = s.th.mbLo ∧ t.co.ls = s.co.ls ∧ Claims.elsewhere s t) ∧
      ∃ t, exec .wfw s = .next t ∧ t.chan = s.chan ++ Claims.lastDecrement s ∧ t.th.run = .wfw ∧ t.th.wsr = s.th.wsr ∧
        t.th.ext = s.th.ext ∧ (∀ r, (5 ≤ r ∧ r ≤ 7) ∨ (24 ≤ r ∧ r ≤ 30) → t.reg r = s.reg r) ∧ t.co.ls = s.co.ls ∧ Claims.elsewhere s t) ∧
    (s.th.inl = [] → s.th.monHeld = none → s.th.cntr ≠ 0 → ∃ t, exec .quit s = .next t ∧ t.th.run = .stalled ∧ t.th.pc = s.th.pc ∧
      t.chan = s.chan ∧ t.co.ls = s.co.ls ∧ Claims.elsewhere s t) ∧
    (s.th.monHeld.isSome → exec .wfw s = .next (Claims.trapped s 5 (Claims.word .wfw)) ∧
      (s.th.inl = [] → exec .quit s = .next (Claims.trapped s 5 (Claims.word .quit)))) ∧
    (s.th.inl ≠ [] → exec .wfw s = .next (Claims.trapped s 5 (Claims.word .wfw))) ∧
    ∀ x rest, s.th.inl = x :: rest → x.kind = .child → Claims.idle s → s.co.lsBad = [] → s.th.resLo < x.depth → x.depth ≤ s.th.depth →
      let save := s.th.region + 0x1000 - 64 * s.th.inl.length
      ∃ t, exec .quit s = .next t ∧ t.th.pc = x.ret ∧ t.th.inl = rest ∧ t.th.task = x.task ∧ t.th.depth = x.depth - 1 ∧
        (∀ j < 4, t.reg (1 + j) = s.lsWord s.cur.1 (save + 8 * j)) ∧ t.th.wid = s.lsWord s.cur.1 (save + 32) ∧
        t.th.rnd = (s.lsWord s.cur.1 (save + 48)).extractLsb' 0 3 ∧ t.th.flg = (s.lsWord s.cur.1 (save + 48)).extractLsb' 16 14 ∧
        t.chan = s.chan ∧ t.co.ls = s.co.ls ∧ Claims.elsewhere s t

/-- R297: `yield` is a no-op without eligible work, in an inline child and with a monitor held; with work and a region to spare the
thread becomes a continuation at the tail of the run list. -/
def Sys2Proof.Claims.YieldWord : Prop :=
  ∀ s : State, s.plain →
    (s.th.inl ≠ [] ∨ s.th.monHeld.isSome ∨ s.live.workWaits s.cur.1 = false ∨ s.live.mayPark = false →
      exec .yield s = .next (s.went 4)) ∧
    (s.th.inl = [] → s.th.monHeld = none → s.live.workWaits s.cur.1 = true → s.live.mayPark = true → Claims.atHome s → s.th.cntL = 0 →
      s.th.depth ≤ 31 → ∃ t k, exec .yield s = .next t ∧ t.co.runList = s.co.runList ++ [k] ∧ k.frame = none ∧ k.region = s.th.wsr ∧
        t.th.run = .free ∧ t.lsWord s.cur.1 (s.th.region + 0x100) = s.th.pc + 4 ∧
        t.lsWord s.cur.1 (s.th.region + 0x108) = s.th.srs ∧ Claims.elsewhere s t)

/-- R298 to R300, R92: `txsub` sends its record to the Scarab and counts it in S; `txrecon` opens a reconnaissance pass; `txchk` in a
dispatched root compares ACC once, and traps outside a transaction and after a spawn. -/
def Obligations.TransactionWords : Prop :=
  ∀ s : State, s.plain → ∀ a b d : BitVec 5, let pc := s.reg a.toNat
    let w := s.reg b.toNat
    (w.extractLsb' 29 35 = 0 → w.getLsbD 19 = false → w.getLsbD 27 = false → s.th.setRefused = false → Claims.entry pc →
      Claims.atHome s → s.th.cntS < 1023 → ∃ t r, exec (.txsub b a d) s = .next t ∧ t.scarab.subs = s.scarab.subs ++ [r] ∧
        r.pc = pc ∧ r.args = (Claims.group s d.toNat 5).take 4 ∧ r.check = (Claims.group s d.toNat 5).getD 4 0 ∧ r.frame = none ∧
        r.chk = w.getLsbD 28 ∧ r.restart = 0 ∧ r.wid = s.th.wid ∧ r.set = (List.range 8).map s.th.ereg ∧ r.lnch = s.th.task.lnch ∧
        t.th.cntS = s.th.cntS + 1 ∧ t.th.pc = s.th.pc + 4 ∧ t.th.run = .running ∧ (∀ r < 31, t.reg r = s.reg r) ∧ t.co.ls = s.co.ls ∧
        Claims.elsewhere s t) ∧
    (w.extractLsb' 29 35 ≠ 0 ∨ s.th.setRefused = true →
      exec (.txsub b a d) s = .next (Claims.trapped s 5 (Claims.word (.txsub b a d)))) ∧
    (Claims.entry pc → Claims.canOpen s → let g := Claims.group s b.toNat 4
      ∃ t, exec (.txrecon b a d) s = .next t ∧ t.th.pc = pc ∧ t.th.inRecon = true ∧ t.th.acc = 0 ∧ t.th.flg = 0 ∧ t.reg 1 = 0 ∧
        t.reg 2 = 0 ∧ t.reg 3 = g.getD 0 0 ∧ t.reg 4 = g.getD 1 0 ∧ t.th.ereg 6 = g.getD 2 0 ∧ t.th.ereg 7 = g.getD 3 0 ∧
        (∀ j < 6, t.th.ereg j = 0) ∧ t.th.depth = s.th.depth + 1 ∧ t.th.wid = s.th.wid ∧
        ∀ n i, (n, i) ≠ s.cur → t.thread n i = s.thread n i) ∧
    (¬ Claims.entry pc → exec (.txrecon b a d) s = .next (Claims.trapped s 3 pc)) ∧
    (s.th.inl = [] → s.th.task.txn = true → s.th.task.spawned = false → ∀ seq, s.th.task.body = some seq →
      (s.th.task.checked = true → exec .txchk s = .next (s.went 4)) ∧
      (s.th.task.checked = false → s.th.accQ = [] → ∀ x, s.txn seq = some x → x.sub.chk = false ∨ s.th.acc = x.sub.check →
        exec .txchk s = .next (s.setTh { s.th.went 4 with task := { s.th.task with checked := true } }))) ∧
    (s.th.inl = [] → s.th.task.txn = false ∨ s.th.task.body = none ∨ s.th.task.spawned = true →
      exec .txchk s = .next (Claims.trapped s 5 (Claims.word .txchk)))
/-! ## Storage words (R308 to R311, R327) -/

namespace Sys2Proof.Claims

/-- A mailbox entry is the storage completion of a command of a pair (R310, R311). -/
def completes (q tag : Nat) (e : Entry) : Bool :=
  let w := e.payload.getD 0 0
  decide (e.kind = 3 ∧ (w.extractLsb' 0 16).toNat = tag ∧ (w.extractLsb' 40 6).toNat = q)

/-- The first entry of a mailbox that a test picks, and the mailbox without it. -/
def firstMail (p : Entry → Bool) (l : List Entry) : Option (Entry × List Entry) :=
  match l.find? p with
  | some e => some (e, l.takeWhile (fun x => !p x) ++ (l.dropWhile (fun x => !p x)).drop 1)
  | none => none

/-- The bytes of (NLB + 1) blocks of the namespace, which no command lets pass 2 MiB (R403). -/
def nvBlocks (s : State) (ctl : Nat) (x : Word) : Nat :=
  ((x.extractLsb' 32 16).toNat + 1) * blockBytes ctl (s.th.stctx.extractLsb' 7 32).toNat

/-- The bytes that a storage command moves: none for Flush and Write Zeroes (R309, R323). -/
def nvBytes (s : State) (ctl : Nat) (x : Word) : Nat :=
  if (x.extractLsb' 0 8).toNat = 1 ∨ (x.extractLsb' 0 8).toNat = 2 then
    ((x.extractLsb' 32 16).toNat + 1) * blockBytes ctl (s.th.stctx.extractLsb' 7 32).toNat
  else 0

end Sys2Proof.Claims

/-- R308, R311: `nvcfg` exchanges the storage context for one whose pair is open for the launch and has the namespace; `nvpoll` takes a
matching completion, the high mailbox first, and bumps the epoch, or gives all ones; reserved bits and a closed pair trap. -/
def Sys2Proof.Claims.StorageContextAndPoll : Prop :=
  ∀ s : State, s.plain → ∀ a d : BitVec 5, let x := s.reg a.toNat
    let q := (x.extractLsb' 0 6).toNat
    let opened := s.storage.opens q s.th.task.lnch (x.extractLsb' 7 32).toNat
    let p := Claims.completes (s.th.stctx.extractLsb' 0 6).toNat x.toNat
    (x.extractLsb' 39 25 = 0 → opened = true → exec (.nvcfg a d) s = .next (s.setTh
      ((Thread.setSreg { s.th with stctx := x.extractLsb' 0 39
                                   stctl := some (bits (s.storage.pair q) 5 4, tblGet 0 q s.storage.changes) } d.toNat
        (s.th.stctx.setWidth 64)).went 4))) ∧
    (x.extractLsb' 39 25 ≠ 0 ∨ opened = false → exec (.nvcfg a d) s = .next (Claims.trapped s 5 (Claims.word (.nvcfg a d)))) ∧
    (x.toNat < 2 ^ 16 → ∀ e rest, Claims.firstMail p s.th.mbHi = some (e, rest) → ∃ t, exec (.nvpoll a d) s = .next t ∧
      t.th = (Thread.setSreg { s.th with mbHi := rest } d.toNat (e.payload.getD 0 0)).went 4 ∧ t.co.epoch = s.co.epoch + 1 ∧
      t.co.ls = s.co.ls ∧ Claims.elsewhere s t) ∧
    (x.toNat < 2 ^ 16 → Claims.firstMail p s.th.mbHi = none → ∀ e rest, Claims.firstMail p s.th.mbLo = some (e, rest) →
      ∃ t, exec (.nvpoll a d) s = .next t ∧ t.th = (Thread.setSreg { s.th with mbLo := rest } d.toNat (e.payload.getD 0 0)).went 4 ∧
        t.co.epoch = s.co.epoch + 1 ∧ t.co.ls = s.co.ls ∧ Claims.elsewhere s t) ∧
    (x.toNat < 2 ^ 16 → Claims.firstMail p s.th.mbHi = none → Claims.firstMail p s.th.mbLo = none →
      exec (.nvpoll a d) s = .next (Claims.wrote s d.toNat (BitVec.allOnes 64) 4)) ∧
    (2 ^ 16 ≤ x.toNat → exec (.nvpoll a d) s = .next (Claims.trapped s 5 (Claims.word (.nvpoll a d))))

/-- R309, R139: with its buffer translated, its lines at home and S = 0, `nvsub` draws a free tag, gives it to sD, and enters `nq` with
its command; a command that the write gate or a table refuses is completed at once; a bad operand traps. -/
def Sys2Proof.Claims.StorageSubmission : Prop :=
  ∀ s : State, s.plain → ∀ (x : BitVec 3) (a d : BitVec 5), let p := s.reg a.toNat
    let e := s.th.ereg x.toNat
    let q := (s.th.stctx.extractLsb' 0 6).toNat
    let opc := (e.extractLsb' 0 8).toNat
    (nvBad e p = true ∨ s.context = none → exec (.nvsub x a d) s = .next (Claims.trapped s 5 (Claims.word (.nvsub x a d)))) ∧
    (∀ ctl, s.context = some ctl → 2 ^ 21 < Claims.nvBlocks s ctl e →
      exec (.nvsub x a d) s = .next (Claims.trapped s 5 (Claims.word (.nvsub x a d)))) ∧
    (nvBad e p = false → ∀ ctl, s.context = some ctl → Claims.nvBlocks s ctl e ≤ 2 ^ 21 → ∀ pages tag,
      s.live.nvPages (if opc = 2 then 1 else 0) ((List.range ((Claims.nvBytes s ctl e + 4095) / 4096)).map
        (fun i => p + BitVec.ofNat 64 (4096 * i))) = .ok (pages, s.live) → (∀ y ∈ pages, y < 2 ^ 64) →
      Claims.atHome s → s.th.cntS = 0 → Claims.room s 4 → s.storage.freeTag q = some tag →
      ∃ t c, exec (.nvsub x a d) s = .next t ∧ t.storage.cmds = s.storage.cmds ++ [c] ∧ c.qp = q ∧ c.tag = tag ∧ c.opc = opc ∧ c.pages = pages ∧ c.site = s.cur.1 ∧
        c.slot = s.cur.2 ∧ c.gen = s.th.gen.toNat ∧ c.slba = s.th.ereg ((x.toNat + 1) % 8) ∧
        t.th.sreg s.cur.2 d.toNat = (s.th.setSreg d.toNat (BitVec.ofNat 64 tag)).sreg s.cur.2 d.toNat ∧
        (∀ r < 31, r ≠ d.toNat → t.reg r = s.reg r) ∧ t.th.pc = s.th.pc + 4 ∧ t.th.run = .running ∧ t.co.ls = s.co.ls ∧
        Claims.elsewhere s t ∧
        match s.nvRefused q ctl opc (Claims.nvBytes s ctl e) pages with
        | some why => c.done = some (0, why, 0) ∧ t.th.cntS = 0 ∧ t.co.ops = s.co.ops
        | none => c.done = none ∧ t.th.cntS = 1 ∧ ∃ o, t.co.ops = s.co.ops ++ [o] ∧ o.queue = 4 ∧ o.stage = .queued ∧
            o.word = (encode (.nvsub x a d)).bits ∧ o.slot = s.cur.2)
/-! ## The launch port and the report ring (R36 to R38, R316 to R318, R321, R451) -/

namespace Sys2Proof.Claims

/-- The Molt is in a new state from now on (R338, R444). -/
def moltAt (s : State) (m : Molt) : State :=
  { s with cold := { s.cold with molt := m, entered := s.cold.time, limited := false, soakFrom := none } }

/-- The package is powered and in no fatal state. -/
def up (s : State) : Prop := s.on = true ∧ s.fatal = none

/-- The bytes of DRAM from a physical address up are new, and every other byte of DRAM, every core and the companion's memory are as
before. -/
def dramGot (s t : State) (pa : Nat) (bs : List Byte) : Prop :=
  (∀ j < bs.length, memGet (s.dramKey pa + j) t.dram = bs.getD j 0) ∧
    (∀ x, x < s.dramKey pa ∨ s.dramKey pa + bs.length ≤ x → memGet x t.dram = memGet x s.dram) ∧ t.cores = s.cores ∧
    t.hostMem = s.hostMem

/-- Only the port and, where a launch starts or the Molt moves, what the statement says of them changes: threads and memories stay. -/
def undisturbed (s t : State) : Prop := t.cores = s.cores ∧ t.dram = s.dram ∧ t.hostMem = s.hostMem ∧ t.flights = s.flights

/-- The reasons of R317 for refusing a header, in the order in which the port takes them. -/
def headerReasons (s : State) (h : Header) : List (Nat × Bool) :=
  let f := fun (lo len : Nat) => (h.hdr.toNat / 2 ^ lo) % 2 ^ len
  let w := f 384 6 + f 390 6 + f 396 6 + f 402 6 + f 408 6 + f 414 6
  [(10, s.site), (1, decide (((h.hdr.extractLsb' 0 56).signExtend 64 : Word) ≠ h.hdr.extractLsb' 0 64)), (2, decide (5 < f 422 3)),
   (3, decide (f 448 4 > f 455 4 ∨ f 452 3 > f 459 3)), (4, decide (f 480 32 = 0)), (5, decide (64 < w)), (6, decide (2 ^ w < f 480 32)),
   (7, decide (s.cold.band = 2 ∧ f 426 1 = 0)), (8, [Molt.coolPrep, .cooling, .soak, .warming].contains s.cold.molt),
   (9, decide (f 425 1 = 1 ∧ f 64 64 % 128 ≠ 0))]

/-- The first of some reasons that applies. -/
def firstReason (l : List (Nat × Bool)) : Option Nat := (l.find? (fun r => r.2)).map (·.1)

/-- A header that has not been accepted is the oldest of those. -/
def nextHeader (s : State) (pre : List Header) (h : Header) (post : List Header) : Prop :=
  s.port.headers = pre ++ h :: post ∧ (∀ x ∈ pre, x.accepted = true) ∧ h.accepted = false ∧ (s.port.headers.map (·.lseq)).Nodup

/-- The launch index that an accepted header takes: the lowest that is not live (log entry 16). -/
def lowestFree (s : State) (i : Nat) : Prop := i < 16 ∧ s.launch i = none ∧ ∀ j < i, s.launch j ≠ none

end Sys2Proof.Claims

/-- R316, R317: a header enters the port with the next LSEQ, or is held back while 16 are there or one waits for its shape record; a
shape record goes to the header that waits for one; the port checks the oldest header, and refuses it with the first reason of R317
that applies or accepts it, which takes the Molt from COLD_READY to COLD_RUN (R338). -/
def Sys2Proof.Claims.LaunchHeaders : Prop :=
  ∀ s : State,
    (∀ hdr, s.hostMay 0x10000 64 1 = true →
      exec (.launchHeaderWrite hdr) s = .next (if s.port.headers.length < 16 ∧ s.port.shapeWaits = false then
        { s with port := { s.port with headers := s.port.headers ++ [{ lseq := s.port.lseq, hdr := hdr, shape := none, accepted := false }]
                                       lseq := (s.port.lseq + 1) % 2 ^ 32 } } else s)) ∧
    (∀ sh, s.hostMay 0x10040 32 1 = true →
      (∀ pre h post, s.port.headers = pre ++ h :: post → h.hdr.getLsbD 427 = true → h.shape = none →
        (∀ x ∈ pre ++ post, ¬ (x.hdr.getLsbD 427 = true ∧ x.shape = none)) →
        exec (.shapeRecordWrite sh) s = .next { s with port := { s.port with headers := pre ++ { h with shape := some sh } :: post } }) ∧
      ((∀ x ∈ s.port.headers, ¬ (x.hdr.getLsbD 427 = true ∧ x.shape = none)) → exec (.shapeRecordWrite sh) s = .next s)) ∧
    (Claims.up s → s.port.lrset = true → ∀ pre h post, Claims.nextHeader s pre h post → (h.hdr.getLsbD 427 = true → h.shape ≠ none) →
      (∀ r, Claims.firstReason (Claims.headerReasons s h) = some r →
        exec .launchHeaderCheck s = .next { s with port := { s.port with headers := pre ++ post, reports := s.port.reports ++
          [{ kind := 2, lnch := 0, lseq := h.lseq, code := r, value := 0 }] } }) ∧
      (Claims.firstReason (Claims.headerReasons s h) = none →
        let t := { s with port := { s.port with headers := pre ++ { h with accepted := true } :: post } }
        exec .launchHeaderCheck s =
          .next (if s.cold.molt = .coldReady ∧ s.cold.ramping = false then Claims.moltAt t .coldRun else t))) ∧
    (Claims.up s → s.port.lrset = false → exec .launchHeaderCheck s = .next s)

/-- R37, R318: the oldest accepted header becomes live under a free index, with all its items to start, and is reported. -/
def Sys2Proof.Claims.LaunchStarts : Prop :=
  ∀ (s : State) (pre : List Header) (h : Header) (post : List Header) (i : Nat), Claims.up s → s.port.headers = pre ++ h :: post →
    (∀ x ∈ pre, x.accepted = false) → h.accepted = true → (s.port.headers.map (·.lseq)).Nodup → Claims.lowestFree s i →
    ∃ t l, exec .launchStart s = .next t ∧ t.launch i = some l ∧ (∀ j, j ≠ i → t.launch j = s.launch j) ∧ l.hdr = h.hdr ∧
      l.lseq = h.lseq ∧ l.toStart = h.hdr.toNat / 2 ^ 480 % 2 ^ 32 ∧ l.live = 0 ∧ l.failed = 0 ∧ l.suspended = false ∧
      (∀ sh, h.shape = some sh → l.geo0 = (sh.extractLsb' 0 63).setWidth 64 ∧ l.geo1 = (sh.extractLsb' 64 45).setWidth 64) ∧
      t.port = { s.port with headers := pre ++ post, reports := s.port.reports ++
        [{ kind := 1, lnch := i, lseq := h.lseq, code := 0, value := 0 }] } ∧
      t.cold = s.cold ∧ Claims.undisturbed s t

/-- R318, R321, R451: a report goes to slot LRTAIL mod 256 of the ring while it has room, and LRTAIL advances; a write of LRHEAD that
would leave more than 256 records unread is ignored, and so is one of LRBASE, SHWIN or HWBASE while a launch is live. -/
def Sys2Proof.Claims.ReportRing : Prop :=
  ∀ s : State,
    (∀ r rest, Claims.up s → s.port.reports = r :: rest → s.port.lrset = true → s.port.lrhead < 512 → s.port.lrtail < 512 →
      ((s.port.lrtail + 512 - s.port.lrhead) % 512 < 256 → s.port.lrbase % 0x1000 = 0 →
        s.devMay 1 (s.port.lrbase + 16 * (s.port.lrtail % 256)) 16 1 = true →
        ∃ t, exec .reportRecordWrite s = .next t ∧ Claims.dramGot s t (s.port.lrbase + 16 * (s.port.lrtail % 256)) r.bytes ∧
          t.port = { s.port with reports := rest, lrtail := (s.port.lrtail + 1) % 512 }) ∧
      (256 ≤ (s.port.lrtail + 512 - s.port.lrhead) % 512 → exec .reportRecordWrite s = .next s)) ∧
    ∀ v : Word,
      (s.hostMay 0x10090 8 1 = true → exec (.lrheadWrite v) s = .next
        (if (s.port.lrtail + 512 - v.toNat % 512) % 512 ≤ 256 then { s with port := { s.port with lrhead := v.toNat % 512 } } else s)) ∧
      (s.hostMay 0x10088 8 1 = true → exec (.lrbaseWrite v) s = .next
        (if s.launches = [] ∧ s.port.lrhead = s.port.lrtail then
          { s with port := { s.port with lrbase := (v &&& 0xFFFFFFFFF000).toNat, lrset := true } } else s)) ∧
      (s.hostMay 0x10200 8 1 = true → exec (.shwinWrite v) s = .next
        (if s.launches = [] then { s with port := { s.port with shsize := v.toNat % 256, shbase := (v &&& 0xFFFFC0000000).toNat } } else s)) ∧
      (s.hostMay 0x10208 8 1 = true → exec (.hwbaseWrite v) s = .next
        (if s.launches = [] then { s with port := { s.port with hwbase := (v &&& 0xFFFFC0000000).toNat } } else s))
/-! ## Firmware requests (R118, R320, R343 to R345, R443, R445 to R447) -/

namespace Sys2Proof.Claims

/-- A firmware request waits for its report with a status; `wait` is the identifier before which the accesses it waits for were
given, 0 for none. -/
def asked (s : State) (op : Nat) (tag : Byte) (status wait : Nat) : State :=
  { s with port := { s.port with fwreqs := s.port.fwreqs ++
    [{ op := op, tag := tag.toNat, status := status, value := BitVec.ofNat 64 wait }] } }

/-- A request that only changes one byte range of DRAM, and waits for its report. -/
def answers (s t : State) (op : Nat) (tag : Byte) (pa : Word) (bs : List Byte) : Prop :=
  dramGot s t pa.toNat bs ∧ t.port = (asked s op tag 0 0).port ∧ t.launches = s.launches ∧ t.storage = s.storage

/-- The checks of R446 on an image in the package's DRAM, in their order. -/
def imageReasons (s : State) : List (Nat × Bool) :=
  let rd := fun a n => memRead a n s.dram
  let key := leNat (rd 12 1)
  let len := leNat (rd 8 4)
  [(16, decide (leNat (rd 0 4) ≠ 0x4F5A4C31)), (17, decide (leNat (rd 4 4) < s.minVersion)),
   (18, decide (sha512 (rd 80 32) ≠ tblGet [] key s.keyHash ∨ 3 < key)), (19, s.revoked.contains key),
   (20, decide (leNat (rd 13 3) ≠ 0 ∨ leNat (rd 112 16) ≠ 0)),
   (21, !edVerify (rd 80 32) (rd 16 64) (rd 0 16 ++ rd 128 len)), (22, decide (len = 0 ∨ 0x7735940000 < 128 + len + 64))]

/-- A virtual range of an invalidation that keeps its bounds (R320). -/
def aligned64K (va len : Word) : Prop :=
  ((va.extractLsb' 0 56).signExtend 64 : Word) = va ∧ va.toNat % 0x10000 = 0 ∧ len.toNat % 0x10000 = 0

/-- Every TLB holds the entries that it held and that do not meet a range of virtual addresses (R118). -/
def invalidated (s t : State) (va len : Word) : Prop :=
  (∀ n e, e ∈ (t.core n).tlb ↔ e ∈ (s.core n).tlb ∧ e.meets va len = false) ∧
    ∀ k j e, e ∈ tblGet [] j (t.cluster k).tlb ↔ e ∈ tblGet [] j (s.cluster k).tlb ∧ e.meets va len = false

end Sys2Proof.Claims

/-- R320, R118, R343 to R345, R443, R445 to R447: with room at the port each firmware request acts as its OP says and waits for its
report; bad arguments, an unknown OP and a refused command have no other effect. The opcodes of the media commands (log entry 13), SHA-512
and Ed25519 as the image and the quote use them (log entry 34) are presumed, and what the fuses hold is free (log entry 8). -/
def Sys2Proof.Claims.FirmwareRequests : Prop :=
  ∀ (s : State) (tag : Byte), s.hostMay 0x10100 64 1 = true → s.port.fwreqs.length < 8 → 8 + clusterOf (bootSite s.fused) < s.powered →
    (s.booted = true ∨ s.site = false → exec (.fwreqBootDoorbell tag) s = .next (Claims.asked s 0 tag 1 0)) ∧
    (s.booted = false → s.site = true →
      (∀ r, Claims.firstReason (Claims.imageReasons s) = some r → exec (.fwreqBootDoorbell tag) s = .next
        (Claims.asked (if s.cold.molt = .warmService then s else Claims.moltAt s .warmService) 0 tag r 0)) ∧
      (Claims.firstReason (Claims.imageReasons s) = none → let len := leNat (memRead 8 4 s.dram)
        exec (.fwreqBootDoorbell tag) s = .next (Claims.asked { s with booted := true, fwVersion := leNat (memRead 4 4 s.dram)
                                                                       fwDigest := sha512 (memRead 0 (128 + len) s.dram)
                                                                       bootPidx := leNat (memRead (128 + len) 1 s.dram) } 0 tag 0 0))) ∧
    (∀ va len : Word,
      (¬ Claims.aligned64K va len → exec (.fwreqInvalidate tag va len) s = .next (Claims.asked s 1 tag 2 0)) ∧
      (Claims.aligned64K va len → len = 0 → exec (.fwreqInvalidate tag va len) s = .next (Claims.asked s 1 tag 0 0)) ∧
      (Claims.aligned64K va len → len ≠ 0 → ∃ t, exec (.fwreqInvalidate tag va len) s = .next t ∧ Claims.invalidated s t va len ∧
        t.port = (Claims.asked s 1 tag 0 s.nextId).port ∧ (∀ n i, t.thread n i = s.thread n i) ∧ t.dram = s.dram)) ∧
    (∀ nonce result : Word,
      (inDram nonce.toNat 32 = true → inDram result.toNat 192 = true → s.devMay 1 nonce.toNat 32 0 = true →
        s.devMay 1 result.toNat 192 1 = true → ∃ t, exec (.fwreqAttestationQuote tag nonce result) s = .next t ∧
        Claims.answers s t 2 tag result (s.quote (memRead (s.dramKey nonce.toNat) 32 s.dram))) ∧
      (inDram nonce.toNat 32 = false ∨ inDram result.toNat 192 = false →
        exec (.fwreqAttestationQuote tag nonce result) s = .next (Claims.asked s 2 tag 2 0))) ∧
    (∀ (cmd ctl : Word) (done : BitVec 128), let op := (memGet (s.dramKey cmd.toNat) s.dram).toNat
      (inDram cmd.toNat 64 = false ∨ 15 < ctl.toNat → exec (.fwreqAdminCommand tag cmd ctl done) s = .next (Claims.asked s 3 tag 2 0)) ∧
      (inDram cmd.toNat 64 = true → ctl.toNat ≤ 15 → s.devMay 1 cmd.toNat 64 0 = true → mediaOpcode op = true → s.storage.consent = false →
        ∃ t, exec (.fwreqAdminCommand tag cmd ctl done) s = .next t ∧ t.port = (Claims.asked s 3 tag 3 0).port ∧ t.dram = s.dram ∧
          t.cores = s.cores ∧ t.storage = s.storage) ∧
      (inDram cmd.toNat 64 = true → ctl.toNat ≤ 15 → s.devMay 1 cmd.toNat 64 0 = true → s.devMay 1 cmd.toNat 16 1 = true →
        mediaOpcode op = false ∨ s.storage.consent = true →
        ∃ t, exec (.fwreqAdminCommand tag cmd ctl done) s = .next t ∧ Claims.answers s t 3 tag cmd (leBytes 16 done.toNat))) ∧
    (∀ result : Word,
      (inDram result.toNat 32 = true → s.devMay 1 result.toNat 32 1 = true → (∃ t, exec (.fwreqIdentityKey tag result) s = .next t ∧
          Claims.answers s t 4 tag result (edPublic Config.identitySecret)) ∧
        ∃ t, exec (.fwreqTripLog tag result) s = .next t ∧ Claims.answers s t 5 tag result s.tripBytes ∧ t.cold = { s.cold with trip := none }) ∧
      (inDram result.toNat 32 = false → exec (.fwreqIdentityKey tag result) s = .next (Claims.asked s 4 tag 2 0) ∧
        exec (.fwreqTripLog tag result) s = .next (Claims.asked s 5 tag 2 0))) ∧
    (∀ which : Word,
      (which = 0xFFFFFFFF → ∃ t, exec (.fwreqUnfreeze tag which) s = .next t ∧ (∀ n, (t.core n).gov.frozen = false) ∧
        t.port = (Claims.asked s 6 tag 0 0).port ∧ (∀ n i, t.thread n i = s.thread n i) ∧ t.dram = s.dram) ∧
      (which ≠ 0xFFFFFFFF → ∀ n, s.siteOf which.toNat = some n → exec (.fwreqUnfreeze tag which) s = .next
        (Claims.asked (s.setCore n { s.core n with gov := { (s.core n).gov with frozen := false } }) 6 tag 0 0)) ∧
      (which ≠ 0xFFFFFFFF → s.siteOf which.toNat = none → exec (.fwreqUnfreeze tag which) s = .next (Claims.asked s 6 tag 2 0))) ∧
    ∀ op : Byte, 6 < op.toNat → exec (.fwreqUnknownOp tag op) s = .next (Claims.asked s op.toNat tag 1 0)

/-- R320, R342: while 8 requests wait, or the boot core has not powered up, a further one is held back; the oldest request whose accesses, and
the writes of drains that have read their entries, are acknowledged ends with a KIND 7 report of its status and tag. -/
def Sys2Proof.Claims.FirmwareAnswers : Prop :=
  ∀ s : State,
    (8 ≤ s.port.fwreqs.length ∨ s.powered ≤ 8 + clusterOf (bootSite s.fused) → ∀ (tag op : Byte) (a b : Word) (c : BitVec 128),
      ∀ i ∈ [Instr.fwreqBootDoorbell tag, .fwreqInvalidate tag a b, .fwreqAttestationQuote tag a b, .fwreqAdminCommand tag a b c,
        .fwreqIdentityKey tag a, .fwreqTripLog tag a, .fwreqUnfreeze tag a, .fwreqUnknownOp tag op], exec i s = .next s) ∧
    ∀ pre r post, Claims.up s → s.port.fwreqs = pre ++ r :: post →
      r.value = 0 ∨ ((∀ f ∈ s.flights, r.value.toNat ≤ f.grp) ∧ (∀ c ∈ s.storage.cmds, r.value.toNat ≤ c.id ∨ c.done.isSome) ∧
        ∀ x ∈ s.cores, ∀ o ∈ x.2.ops, r.value.toNat ≤ o.id ∨ o.stage ≠ .read) → r ∉ pre →
      (∀ x ∈ pre, x.value ≠ 0 ∧ ((∃ f ∈ s.flights, f.grp < x.value.toNat) ∨ (∃ c ∈ s.storage.cmds, c.id < x.value.toNat ∧ c.done = none) ∨
        ∃ y ∈ s.cores, ∃ o ∈ y.2.ops, o.id < x.value.toNat ∧ o.stage = .read)) →
      exec .firmwareRequestDone s = .next { s with port := { s.port with fwreqs := pre ++ post, reports := s.port.reports ++
        [{ kind := 7, lnch := 0, lseq := 0, code := r.status + 256 * r.tag, value := 0 }] } }

/-! ## Pre-emption (R66, R67, R319, R341, R376, R377) -/

namespace Sys2Proof.Claims

/-- The reports that a group's pre-emption or resumption makes: one for each live launch whose group meets it, or one with 0xFF. -/
def groupReports (s : State) (kind g : Nat) : List Report :=
  (if s.meets g = [] then [0xFF] else s.meets g).map (fun i => { kind := kind, lnch := i, lseq := 0, code := 0, value := 0 })

/-- The reports that end a thermal pre-emption of a rectangle: one for each launch that it saves (R341). -/
def savedReports (s : State) (g : Nat) : List Report :=
  ((s.launches.filter (fun x => x.2.suspended && decide (x.2.rect = g))).map (·.1)).map
    (fun i => { kind := 4, lnch := i, lseq := 0, code := 0, value := 0 })

/-- A core stops for a pre-emption: its flag is up and no thread of it is in a trap entry. -/
def stopped (c : Core) : Prop := c.pre = true ∧ ∀ x ∈ c.threads, x.2.run ≠ .trapped

/-- The cores of a rectangle, no two the same. -/
def cores (s : State) (g : Nat) : List Nat := s.rectCores g

end Sys2Proof.Claims

/-- R66, R67, R319: CMD = 1 stops the cores of the rectangle and records the pre-emption with PRSAVE; once their begun operations are
performed and no thread is failing the group is saved and reported; CMD = 2 with the same rectangle and PRSAVE resumes it, and the
cores go on with the state that they had, whatever the save area then holds: that is the model's choice (log entry 12). -/
def Obligations.PreemptionAndResumption : Prop :=
  ∀ s : State,
    (∀ v : Word, s.hostMay 0x10188 8 1 = true → (v.toNat / 2 ^ 14) % 4 = 1 →
      ∃ t, exec (.preemptRequest v) s = .next t ∧ (∀ n ∈ Claims.cores s (v.toNat % 2 ^ 14), (t.core n).pre = true) ∧
        (∀ n, n ∉ Claims.cores s (v.toNat % 2 ^ 14) → t.core n = s.core n) ∧ t.dram = s.dram ∧
        t.port = { s.port with prgrp := v.toNat % 2 ^ 16, pres := s.port.pres ++ [(v.toNat % 2 ^ 14, s.port.prsave)] }) ∧
    (∀ g area rest, Claims.up s → s.port.pres = (g, area) :: rest →
      ((∀ n ∈ Claims.cores s g, s.quiet n = true) → (∀ n ∈ Claims.cores s g, s.saveTakes area n = true) →
        (∀ n ∈ Claims.cores s g, (s.core n).lost = false) →
        ∃ t, exec .preemptComplete s = .next t ∧
          (∀ n ∈ Claims.cores s g, t.core n = { s.core n with saved := true, ring := (t.core n).ring }) ∧
          (∀ n, n ∉ Claims.cores s g → t.core n = s.core n) ∧ t.port.pres = rest ∧ t.port.saves = s.port.saves ++ [(g, area)] ∧
          t.port.reports = s.port.reports ++ (if s.suspendedIn g = true then Claims.savedReports s g else Claims.groupReports s 4 g)) ∧
      ((∃ n ∈ Claims.cores s g, s.quiet n = false) → exec .preemptComplete s = .next s)) ∧
    (∀ v : Word, s.hostMay 0x10188 8 1 = true → (v.toNat / 2 ^ 14) % 4 = 2 → let g := v.toNat % 2 ^ 14
      ((g, s.port.prsave) ∈ s.port.saves → (g, s.port.prsave) ∉ s.port.ress → s.suspendedIn g = false →
        ∃ t, exec (.resumeRequest v) s = .next t ∧ t.cores = s.cores ∧ t.dram = s.dram ∧ t.cold = s.cold ∧
          t.port = { s.port with prgrp := v.toNat % 2 ^ 16, ress := s.port.ress ++ [(g, s.port.prsave)] }) ∧
      ((g, s.port.prsave) ∉ s.port.saves →
        exec (.resumeRequest v) s = .next { s with port := { s.port with prgrp := v.toNat % 2 ^ 16 } })) ∧
    ∀ g area rest, Claims.up s → s.port.ress = (g, area) :: rest → s.port.saves = [(g, area)] → s.port.pres = [] →
      (∀ n ∈ Claims.cores s g, s.saveReads area n = true ∧ (s.core n).lost = false) →
      ∃ t, exec .resumeComplete s = .next t ∧
        (∀ n ∈ Claims.cores s g, t.core n = { s.core n with pre := false, saved := false, ring := (t.core n).ring }) ∧
        (∀ n, n ∉ Claims.cores s g → t.core n = s.core n) ∧ t.dram = s.dram ∧ t.port.ress = rest ∧ t.port.saves = [] ∧
        t.port.reports = s.port.reports ++ Claims.groupReports s 5 g
/-! ## The control window (R73, R312, R313, R322, R327, R332 to R334, R338) -/

namespace Sys2Proof.Claims

/-- A master's write of 8 bytes at an offset of the control window arrives: the window can be reached and its table allows it. -/
def reaches (s : State) (master off : Nat) : Prop := s.masterMay master off 8 1 = true

/-- A stack has failed its training three times (R444). -/
def trainingFailed (s : State) : Bool := s.cold.trainFails.any (fun x => decide (3 ≤ x.2))

/-- The plain registers of the control window and what a write of each stores (R70, R312, R319, R324, R337). -/
def plainRegisters (s : State) (v : Word) : List (BitVec 32 × State) :=
  [(0x1018, { s with cold := { s.cold with msave := (v &&& 0xFFFFFFFF0000).toNat } }),
   (0x10180, { s with port := { s.port with prsave := (v &&& 0xFFFFFFFF0000).toNat } }),
   (0x20000, { s with scarab := { s.scarab with base := (v &&& 0xFFFFFFFFE000).toNat } }),
   (0x20010, { s with scarab := { s.scarab with pidx := v.toNat % 256, podm := v.toNat / 256 % 256 } }),
   (0x40000, { s with storage := { s.storage with stqbase := (v &&& 0xFFFFFFE00000).toNat } })]

end Sys2Proof.Claims

/-- R312, R313, R322, R331 to R334: writes of control registers store what each register keeps of the value; read-only registers keep
their values, and after HL only the host changes the tables, ATCTL and PCAP; the master numbers that R331 does not assign write nothing. -/
def Sys2Proof.Claims.ControlRegisters : Prop :=
  ∀ s : State,
    (∀ m : BitVec 4, let free := s.hl = false ∨ m = 4
      (∀ (t : BitVec 3) (e : BitVec 6) (p : BitVec 2) (v : Word), t.toNat < 7 →
        Claims.reaches s m.toNat (0x30000 + t.toNat * 0x1000 + e.toNat * 32 + p.toNat * 8) →
        let k := 64 * t.toNat + e.toNat
        let mask : Word := if p = 3 then 0 else if p = 2 then 0x87FFFF else 0xFFFFFFFFFFFF
        let entry := (tblGet (List.replicate 4 0) k s.tables).set p.toNat (v &&& mask)
        (free → exec (.accessTableWrite m t e p v) s = .next { s with tables := tblSet k entry s.tables }) ∧
        (¬ free → exec (.accessTableWrite m t e p v) s = .next s)) ∧
      (Claims.reaches s m.toNat 0x3F000 →
        (free → exec (.atctlEnfSet m) s = .next { s with enf := true } ∧ exec (.atctlHlSet m) s = .next { s with hl := true }) ∧
        (¬ free → exec (.atctlEnfSet m) s = .next s ∧ exec (.atctlHlSet m) s = .next s)) ∧
      (Claims.reaches s m.toNat 0x40008 →
        exec (.swgateConsent m) s = .next (if m = 4 then { s with storage := { s.storage with consent := true } } else s) ∧
        exec (.swgateClear m) s = .next (if m = 4 then { s with storage := { s.storage with consent := false } } else s)) ∧
      (∀ v : Word, Claims.reaches s m.toNat 0x60000 →
        (free → exec (.hwLimitWrite m 0x60000 v) s = .next { s with pcap := min (v.toNat % 4096) 2600 }) ∧
        (¬ free → exec (.hwLimitWrite m 0x60000 v) s = .next s)) ∧
      (∀ (v : Word) (p : BitVec 4), Claims.reaches s m.toNat (0x60100 + 8 * p.toNat) →
        exec (.hwLimitWrite m (BitVec.ofNat 32 (0x60100 + 8 * p.toNat)) v) s = .next
          { s with sorl := tblSet p.toNat (min (v.toNat % 2 ^ 20) 800000) s.sorl }) ∧
      (∀ v : Word, ∀ r ∈ Claims.plainRegisters s v, Claims.reaches s m.toNat r.1.toNat →
        exec (.controlRegisterWrite m r.1 8 v) s = .next r.2) ∧
      ∀ v : Word, ∀ off ∈ [(0x0 : BitVec 32), 0x8, 0x1000, 0x1008, 0x1100, 0x10080, 0x10098, 0x20000000],
        exec (.controlRegisterWrite m off 8 v) s = .next s) ∧
    (∀ m : BitVec 4, 8 ≤ m.toNat → (∀ t e p v, exec (.accessTableWrite m t e p v) s = .next s) ∧
      (∀ off v, exec (.hwLimitWrite m off v) s = .next s) ∧ ∀ off v, exec (.controlRegisterWrite m off 8 v) s = .next s) ∧
    (∀ i : Byte, Claims.reaches s 4 0x20008 → s.scarab.load = false → exec (.tsctlLoad i) s = .next
      { s with scarab := { s.scarab with index := i.toNat, load := true, loading := i.toNat } }) ∧
    (∀ v : Word, Claims.reaches s 7 0x50200 →
      (∀ n, s.siteOf (v.toNat % 4096) = some n → let u := s.thread n (v.toNat / 4096 % 16)
        u.run = .halted →
          (u.fail = none → exec (.dbgresResume v) s = .next (s.setThread n (v.toNat / 4096 % 16) { u with run := .running, bkpt := none })) ∧
          ∀ f, u.fail = some f → ∃ t, exec (.dbgresResume v) s = .next t ∧ (t.thread n (v.toNat / 4096 % 16)).run = .failing 1 ∧
            (t.thread n (v.toNat / 4096 % 16)).fail = some f) ∧
      (∀ n, s.siteOf (v.toNat % 4096) = some n → (s.thread n (v.toNat / 4096 % 16)).run ≠ .halted → exec (.dbgresResume v) s = .next s) ∧
      (s.siteOf (v.toNat % 4096) = none → exec (.dbgresResume v) s = .next s)) ∧
    ∀ (h : Byte) (v : Word), Claims.reaches s 4 (0x10000000 + h.toNat * 0x1000) →
      let r := (s.home h.toNat).ring
      let start := v.getLsbD 0 = true ∧ r.en = false
      exec (.hrtcWrite h v) s = .next (s.setHome h.toNat { s.home h.toNat with ring := { r with
        en := v.getLsbD 0, wrap := v.getLsbD 1, ovf := r.ovf && !v.getLsbD 2, own := v.getLsbD 3, lds := v.getLsbD 4,
        idx := v.toNat / 256 % 256, entries := if start then [] else r.entries, ord := if start then 0 else r.ord } })

/-- R338, R444: COOL leaves WARM_SERVICE for COOL_PREP; WARM leads COOLING, a SOAK that can train, COLD_READY and EXCURSION to WARMING
and is held in COLD_RUN; elsewhere both are ignored. A command given while a ramp or gradient limit holds the state waits (the model's
reading of R339, log entry 35). -/
def Sys2Proof.Claims.MoltCommands : Prop :=
  (∀ s : State, Claims.reaches s 4 0x1010 → s.cold.ramping = true →
    exec .mcmdCool s = .next { s with cold := { s.cold with cmdHeld := 1 } } ∧
    exec .mcmdWarm s = .next { s with cold := { s.cold with cmdHeld := 2 } }) ∧
  ∀ s : State, Claims.reaches s 4 0x1010 → s.cold.ramping = false →
    exec .mcmdCool s = .next (if s.cold.molt = .warmService then Claims.moltAt s .coolPrep else s) ∧
    (s.cold.molt = .cooling ∨ s.cold.molt = .coldReady ∨ s.cold.molt = .excursion ∨ (s.cold.molt = .soak ∧ Claims.trainingFailed s = false) →
      exec .mcmdWarm s = .next (Claims.moltAt s .warming)) ∧
    (s.cold.molt = .coldRun → exec .mcmdWarm s = .next { s with cold := { s.cold with warmHeld := true } }) ∧
    (s.cold.molt ∈ [Molt.off, .warmService, .coolPrep, .warming] ∨ (s.cold.molt = .soak ∧ Claims.trainingFailed s = true) →
      exec .mcmdWarm s = .next s)
/-! ## Work for slots (R38, R47, R49 to R51, R55, R122, R290 to R297, R373) -/

namespace Sys2Proof.Claims

/-- A task begins in a slot: its address, whose bit 0 is 0 (R170; log entry 17), arguments in s1 and up, WID and rounding mode; every window register, v and p register and
FLG are 0, the counters are 0, the generation rises and the mailboxes stay (R35, R38, R293). -/
def begun (s t : State) (n i : Nat) (pc wid : Word) (rnd : BitVec 3) (args : List Word) : Prop :=
  let u := t.thread n i
  u.run = .running ∧ u.pc = pc &&& ~~~1#64 ∧ u.wid = wid ∧ u.rnd = rnd ∧ (∀ j < args.length, u.sreg i (1 + j) = args.getD j 0) ∧
    (∀ j, 8 ≤ j → j ≤ 23 → u.sreg i j = 0) ∧ u.vec = [] ∧ u.prd = [] ∧ u.flg = 0 ∧ u.depth = 0 ∧ u.inl = [] ∧ u.cntr = 0 ∧
    u.gen = (s.thread n i).gen + 1 ∧ u.mbHi = (s.thread n i).mbHi ∧ u.mbLo = (s.thread n i).mbLo

/-- Threads of other slots are as before, but for the trailing thread of a pair. -/
def others (s t : State) (n i : Nat) : Prop := ∀ m j, (m, j) ≠ (n, i) → (m, j) ≠ (n, i + 8) → t.thread m j = s.thread m j

/-- A record begins in a slot, unpaired or as the leading thread of a pair, with an epoch bump where another core made it (R122). -/
def recordBegins (s t : State) (n i : Nat) (r : Record) : Prop :=
  begun s t n i r.pc r.wid r.rmode r.args ∧ others s t n i ∧ (t.thread n i).task.fref = some r.fref ∧
    (t.thread n i).pair = (if s.pairedLaunch r.lnch then 1 else 0) ∧
    (s.pairedLaunch r.lnch = false → t.thread n (i + 8) = s.thread n (i + 8)) ∧
    (t.core n).epoch = (if r.fref.core = (s.core n).lcore then (s.core n).epoch else (s.core n).epoch + 1)

/-- What arrives has arrived, and some packets go on their way. -/
def moved (s t : State) (k : Nat) (out : List Packet) : Prop := t.chan = s.chan.eraseIdx k ++ out

/-- The items that a cluster's dispenser could give at once: of launches and of granted transactions (R55). -/
def items (s : State) (k : Nat) : List DispItem :=
  s.launches.filterMap (fun x => s.launchItem k x.1 x.2) ++ s.scarab.txns.filterMap (s.txnItem k)

/-- An item that goes no later than another: a higher priority, or the same and no younger (R55). -/
def noLater (a b : DispItem) : Prop := b.prio < a.prio ∨ (b.prio = a.prio ∧ a.age ≤ b.age)

end Sys2Proof.Claims

/-- R38, R55: of the items that it could give a dispenser gives one of the highest priority, the oldest of those; an item of a launch
begins with ARG0 to ARG3 and WID = n, and counts as started. -/
def Sys2Proof.Claims.Dispensing : Prop :=
  ∀ (s : State) (k : Nat) (d : DispItem), s.alive = true → s.bestItem k = some d →
    d ∈ Claims.items s k ∧ (∀ y ∈ Claims.items s k, Claims.noLater d y) ∧
    ∀ l m x, d.item = some (l, m) → s.launch l = some x → ∃ t y, exec (.dispenserPlace k) s = .next t ∧
      Claims.begun s t d.core d.slot (x.hdr.extractLsb' 0 64) (BitVec.ofNat 64 m) (x.hdr.extractLsb' 422 3)
        ((List.range 4).map (fun j => x.hdr.extractLsb' (64 + 64 * j) 64)) ∧
      Claims.others s t d.core d.slot ∧ t.launch l = some y ∧ y.toStart = x.toStart - 1 ∧ y.live = x.live + 1 ∧ y.hdr = x.hdr ∧
      (t.thread d.core d.slot).task.item = some m ∧ (t.thread d.core d.slot).task.lnch = l ∧ t.dram = s.dram ∧ t.chan = s.chan

/-- R50, R294, R297: a free slot takes the head of the run list, and the continuation goes on with the registers of its region; with an
empty run list it takes the bottom record of the deque as a new task. -/
def Sys2Proof.Claims.FreeSlots : Prop :=
  ∀ (s : State) (n i : Nat), s.takesWork n = true →
    (∀ k rest, (s.core n).runList = k :: rest → s.canResume n i k = true → k.thread.pair = 0 → s.contBad n k = none →
      let a := k.region * 0x1000
      let point := match k.frame with | some f => (f + 8, f + 24) | none => (a + 0x100, a + 0x108)
      ∃ t, exec (.runListResume n i) s = .next t ∧ (t.core n).runList = rest ∧ (t.thread n i).run = .running ∧
        (t.thread n i).pc = s.lsWord n point.1 &&& ~~~1#64 ∧ (t.thread n i).srs = (if s.lsWord n point.2 = 0 then 1 else s.lsWord n point.2) ∧
        (∀ j < 7, (t.thread n i).sreg i (1 + j) = s.lsWord n (a + 8 * j) ∧ (t.thread n i).sreg i (24 + j) = s.lsWord n (a + 0x38 + 8 * j)) ∧
        (∀ r, 12 ≤ r → r ≤ 23 → (t.thread n i).sreg i r = s.lsWord n (a + winPlace k.thread.depth r)) ∧
        (t.thread n i).wid = s.lsWord n (a + 0x70) ∧ (t.thread n i).wsr = k.region ∧ (t.thread n i).depth = k.thread.depth ∧
        (t.thread n i).gen = (s.thread n i).gen + 1 ∧ (t.core n).epoch = (s.core n).epoch + 1 ∧
        (∀ m j, (m, j) ≠ (n, i) → t.thread m j = s.thread m j) ∧ t.chan = s.chan ∧ t.dram = s.dram) ∧
    (∀ r rest, (s.core n).runList = [] → (s.core n).deque = r :: rest → i < 16 → r.args.length ≤ 4 →
      s.slotTakes n i .free (s.pairedLaunch r.lnch) = true →
      ∃ t, exec (.dequePop n i) s = .next t ∧ (t.core n).deque = rest ∧ Claims.recordBegins s t n i r ∧ t.chan = s.chan ∧ t.dram = s.dram)

/-- R51: an idle core asks its next neighbour, clockwise from the one asked last; the victim answers with its oldest record whose launch
has the thief's core in its group, its dirty lines on their way home, or with none; the thief starts the record once they are there and
the sources of work that go first have nothing. -/
def Sys2Proof.Claims.Steals : Prop :=
  ∀ s : State,
    (∀ n j v, s.takesWork n = true → (s.core n).runList = [] → (s.core n).deque = [] → (s.core n).stealing = false →
      s.dispenserHas n = false → (s.slotFor n .free false).isSome → j < 4 →
      let dir := fun i => ((s.core n).stealDir + 1 + i) % 4
      (neighbour n (dir j)).filter s.enabled = some v → (∀ i < j, (neighbour n (dir i)).filter s.enabled = none) →
      ∃ t, exec (.stealAttempt n) s = .next t ∧ t.chan = s.chan ++ [.steal n v] ∧
        t.core n = { s.core n with stealDir := dir j, stealing := true } ∧ ∀ m, m ≠ n → t.core m = s.core m) ∧
    (∀ k thief v, s.alive = true → s.chan[k]? = some (.steal thief v) → (s.core v).pre = false →
      (∀ a r b, (s.core v).deque = a ++ r :: b → s.inGroup r.lnch thief = true → (∀ x ∈ b, s.inGroup x.lnch thief = false) →
        ∃ t fs, exec (.stealRequestServe k) s = .next t ∧ Claims.moved s t k [.stolen thief v (some r)] ∧ (t.core v).deque = a ++ b ∧
          let dirty := (s.core v).l1.filter (fun l => decide (l.dirty ≠ 0))
          t.flights = s.flights.map (fun g => dirty.foldl (fun g l => g.passedBy v l) g) ++ fs ∧
          fs.map (fun f => (f.kind, f.pa, f.data)) = dirty.map (fun l => (.writeback, l.base, l.dirtyBytes)) ∧ (∀ l ∈ (t.core v).l1, l.dirty = 0) ∧ (t.core v).threads = (s.core v).threads ∧
          ∀ m, m ≠ v → t.core m = s.core m) ∧
      ((∀ x ∈ (s.core v).deque, s.inGroup x.lnch thief = false) → ∃ t, exec (.stealRequestServe k) s = .next t ∧
        Claims.moved s t k [.stolen thief v none] ∧ (t.core v).deque = (s.core v).deque ∧ (t.core v).l1 = (s.core v).l1)) ∧
    ∀ k n v, s.alive = true →
      (s.chan[k]? = some (.stolen n v none) → ∃ t, exec (.stealReply k) s = .next t ∧ Claims.moved s t k [] ∧
        t.core n = { s.core n with stealing := false, wdog := 0 } ∧ ∀ m, m ≠ n → t.core m = s.core m) ∧
      ∀ r i, s.chan[k]? = some (.stolen n v (some r)) → s.takesWork n = true → s.coreHome v = true → (s.core n).runList = [] →
        (s.core n).deque = [] → s.dispenserHas n = false → r.args.length ≤ 4 →
        s.slotFor n .free (s.pairedLaunch r.lnch) = some i → ∃ t, exec (.stealReply k) s = .next t ∧ Claims.moved s t k [] ∧
          (t.core n).stealing = false ∧ Claims.recordBegins s t n i r ∧ (t.core n).deque = (s.core n).deque

/-- R49, R67, R295, R373: a decrement for a pre-empted core waits, and counts in S of the thread that sent it; else it lowers COUNT of its frame, and sends the TREE decrement behind it; the continuation parked at a frame
that reaches 0 goes to the tail of the run list and STATE becomes 0; a stale one only writes a kind 3 record. -/
def Sys2Proof.Claims.JoinDecrements : Prop :=
  ∀ (s : State) (k n : Nat) (f : FRef) (lnch : Nat) (next : Option TxF) (w : Source), s.alive = true →
    s.chan[k]? = some (.decrement f lnch next w false) → s.siteOf f.core = some n →
    ((s.core n).pre = true → ∀ m, w.site = some m → (s.thread m w.slot).busyTask = true → (s.thread m w.slot).gen.toNat = w.gen →
      (s.thread m w.slot).cntS < 1023 → ∃ t, exec (.joinDecrement k) s = .next t ∧
        t.chan = s.chan.set k (.decrement f lnch next w true) ∧ t.dram = s.dram ∧
        t.thread m w.slot = { s.thread m w.slot with cntS := (s.thread m w.slot).cntS + 1 }) ∧
    ((s.core n).pre = false → anyBad (s.core n).lsBad f.addr 32 = false →
    let c := s.lsNum n f.addr 4
    let tail := match next with | some x => [Packet.tree x w] | none => []
    (s.lsNum n (f.addr + 4) 2 = f.gen → 1 ≤ c → c ≠ 1 ∨ s.lsNum n (f.addr + 6) 1 ≠ 1 → ∃ t, exec (.joinDecrement k) s = .next t ∧
      Claims.moved s t k tail ∧ Claims.storedAt s t n f.addr (leBytes 4 (c - 1)) ∧ (t.core n).runList = (s.core n).runList ∧
      (t.core n).parked = (s.core n).parked ∧ (∀ m j, t.thread m j = s.thread m j) ∧ t.dram = s.dram) ∧
    (s.lsNum n (f.addr + 4) 2 = f.gen → c = 1 → s.lsNum n (f.addr + 6) 1 = 1 → ∃ t, exec (.joinDecrement k) s = .next t ∧
      Claims.moved s t k tail ∧ t.lsNum n f.addr 4 = 0 ∧ t.lsNum n (f.addr + 6) 1 = 0 ∧
      (t.core n).runList = (s.core n).runList ++ (s.core n).parked.filter (fun x => decide (x.frame = some f.addr)) ∧
      (t.core n).parked = (s.core n).parked.filter (fun x => decide (x.frame ≠ some f.addr)) ∧ (∀ m j, t.thread m j = s.thread m j) ∧
      t.dram = s.dram) ∧
    (s.lsNum n (f.addr + 4) 2 ≠ f.gen ∨ c = 0 → ∃ t r, exec (.joinDecrement k) s = .next t ∧ Claims.moved s t k tail ∧
      (t.cluster (clusterOf n)).errQ = (s.cluster (clusterOf n)).errQ ++ [r] ∧ r.kind = 3 ∧ r.val1 = BitVec.ofNat 64 f.addr ∧
      r.lnch = lnch ∧ (t.core n).ls = (s.core n).ls ∧ (t.core n).runList = (s.core n).runList))

/-- R292, R47: a `spawn.at` record takes a free slot of its target, or its deque, or goes back; its answer reaches the issuer, and a
returned one undoes the count; a stalled `await` executes again when what it waits for has happened. -/
def Sys2Proof.Claims.SpawnsElsewhere : Prop :=
  ∀ s : State,
    (∀ k n i m r, s.alive = true → s.chan[k]? = some (.spawnAt n i m r) → s.takesWork m = true →
      (∀ j, s.slotFor m .free (s.pairedLaunch r.lnch) = some j → r.args.length ≤ 4 → ∃ t, exec (.spawnAtArrival k) s = .next t ∧
        Claims.moved s t k [.spawnAtReply n i true r] ∧ Claims.recordBegins s t m j r ∧ (t.core m).deque = (s.core m).deque) ∧
      (s.slotFor m .free (s.pairedLaunch r.lnch) = none → ∃ t b, exec (.spawnAtArrival k) s = .next t ∧
        Claims.moved s t k [.spawnAtReply n i b r] ∧ b = decide ((s.core m).deque.length < 64) ∧
        (t.core m).deque = (if b then r :: (s.core m).deque else (s.core m).deque) ∧ ∀ a j, t.thread a j = s.thread a j)) ∧
    (∀ k n i b r, s.alive = true → s.chan[k]? = some (.spawnAtReply n i b r) → (s.core n).pre = false → r.txn = false →
      let c := s.lsNum n r.fref.addr 4
      b = true ∨ 2 ≤ c → ∃ t, exec (.spawnAtReturn k) s = .next t ∧ Claims.moved s t k [] ∧
        t.thread n i = { s.thread n i with cntS := (s.thread n i).cntS - 1, reply := some (if b then 1 else 0) } ∧
        (b = true → (t.core n).ls = (s.core n).ls) ∧ (b = false → Claims.storedAt s t n r.fref.addr (leBytes 4 (c - 1))) ∧
        ∀ a j, (a, j) ≠ (n, i) → t.thread a j = s.thread a j) ∧
    ∀ n i, let u := s.thread n i
      u.phase = 18 → u.run = .stalled →
      1 ≤ s.freeRegions n + (if u.pair = 1 then 1 else 0) ∨ (s.core n).deque ≠ [] ∨
        s.lsNum n (u.held.headD 0).toNat 4 ≠ (u.held.getD 1 0).toNat →
      exec (.awaitRetry n i) s = .next (s.setThread n i { u with phase := 19 })
/-! ## Messages, bounces, evicted contexts and barrier arrivals (R58, R59, R61, R62, R301, R372) -/

namespace Sys2Proof.Claims

/-- No earlier message of the same sender to the same target at the same priority is on its way (R301). -/
def inOrder (s : State) (k : Nat) (src dst : Nat × Nat × Nat) (hi : Bool) : Prop :=
  ∀ p ∈ s.chan.take k, ∀ x l b, p ≠ .message src dst hi x l b

/-- The thread that an address names holds a task of that generation and is not failing. -/
def holds (s : State) (n i gen : Nat) : Prop :=
  (s.thread n i).busyTask = true ∧ (s.thread n i).gen.toNat = gen ∧ ∀ m, (s.thread n i).run ≠ .failing m

/-- Room in the mailbox of a priority: 4 high entries, 12 low ones (R58). -/
def mailRoom (t : Thread) (hi : Bool) : Prop := if hi then t.mbHi.length < 4 else t.mbLo.length < 12

/-- The thread with an entry more in a mailbox. -/
def withMail (t : Thread) (hi : Bool) (e : Entry) : Thread :=
  { t with mbHi := if hi then t.mbHi ++ [e] else t.mbHi, mbLo := if hi then t.mbLo else t.mbLo ++ [e] }

/-- The access table of a core's window lets the sender write the address that the implementation gives a mailbox (R333). -/
def mailAllowed (s : State) (src : Nat × Nat × Nat) (n slot : Nat) : Prop :=
  s.tableAllows 1 (masterOf (s.thread src.1 src.2.1).priv) (Config.mailboxAt n slot) 32 1 = true

/-- The reasons for which a message bounces, in order (R59, R301, R333). -/
def bounces (s : State) (src dst : Nat × Nat × Nat) (hi : Bool) (reason : Nat) : Prop :=
  (s.siteOf dst.1 = none ∧ reason = 3) ∨ ∃ n, s.siteOf dst.1 = some n ∧
    ((¬ mailAllowed s src n dst.2.1 ∧ reason = 5) ∨ (mailAllowed s src n dst.2.1 ∧
      (((s.core n).pre = true ∧ (s.core n).saved = true ∧ reason = 4) ∨
        (¬ ((s.core n).pre = true ∧ (s.core n).saved = true) ∧
          ((¬ holds s n dst.2.1 dst.2.2 ∧ reason = 1) ∨ (holds s n dst.2.1 dst.2.2 ∧ ¬ mailRoom (s.thread n dst.2.1) hi ∧ reason = 2))))))

/-- An entry with what a record of its sender would show (R367). -/
def signed (s : State) (src : Nat × Nat × Nat) (e : Entry) : Entry :=
  let u := s.thread src.1 src.2.1
  { e with fl := u.recFlags, seq := s.seqOf u.task, wid := u.wid }

/-- The kind 4 record of a bounce that no thread takes: the sender's, with the target that the message named (R368, R372). -/
def undelivered (s : State) (n i gen : Nat) (e : Entry) (w : Word) : ErrRec :=
  { kind := 4, cause := e.reason, lnch := e.lnch, fl := e.fl, core := (s.core n).lcore, slot := i, gen := gen
    val1 := BitVec.ofNat 64 (e.core % 0x1000 + e.slot * 2 ^ 12 + e.gen * 2 ^ 16), val2 := e.payload.getD 0 0, wid := w, seq := e.seq
    cyc := (s.core n).cyc }

end Sys2Proof.Claims

/-- R58, R59, R372: a message enters its mailbox and lowers S of its sender, or comes back with a reason; a bounce enters the high or low
mailbox that its message was for and lowers S, waits while that mailbox is full, and is a kind 4 record when its thread is gone or waits
in `quit` or `wfw`. Where a window's table has the mailboxes is the implementation's (log entry 2). -/
def Sys2Proof.Claims.MessagesArrive : Prop :=
  ∀ s : State, s.alive = true →
    (∀ k src dst hi x l b, s.chan[k]? = some (.message src dst hi x l b) → Claims.inOrder s k src dst hi →
      (∀ n, s.siteOf dst.1 = some n → Claims.mailAllowed s src n dst.2.1 →
        ¬ ((s.core n).pre = true ∧ (s.core n).saved = true) → Claims.holds s n dst.2.1 dst.2.2 →
        Claims.mailRoom (s.thread n dst.2.1) hi → (n, dst.2.1) ≠ (src.1, src.2.1) → (s.thread src.1 src.2.1).gen.toNat = src.2.2 →
        ∃ t, exec (.messageDelivery k) s = .next t ∧ t.chan = s.chan.eraseIdx k ∧
          t.thread n dst.2.1 = Claims.withMail (s.thread n dst.2.1) hi (Claims.signed s src
            { core := (s.core src.1).lcore, slot := src.2.1, gen := src.2.2, kind := 1, reason := 0, payload := x, lnch := l, bad := b }) ∧
          t.thread src.1 src.2.1 = { s.thread src.1 src.2.1 with cntS := (s.thread src.1 src.2.1).cntS - 1 } ∧
          ∀ m i, (m, i) ≠ (n, dst.2.1) → (m, i) ≠ (src.1, src.2.1) → t.thread m i = s.thread m i) ∧
      ∀ r, Claims.bounces s src dst hi r → ∃ t, exec (.messageDelivery k) s = .next t ∧ t.chan = s.chan.eraseIdx k ++
        [.bounce src hi (Claims.signed s src
          { core := dst.1, slot := dst.2.1, gen := dst.2.2, kind := 2, reason := r, payload := x, lnch := l, bad := b })
          (s.thread src.1 src.2.1).wid true] ∧
        ∀ m i, t.thread m i = s.thread m i) ∧
    ∀ k n i gen hi e w, s.chan[k]? = some (.bounce (n, i, gen) hi e w true) →
      let u := s.thread n i
      let c := s.cluster (clusterOf n)
      (u.refusesBounce gen = false → (s.core n).pre = false → Claims.mailRoom u hi → ∃ t, exec (.bounceReturn k) s = .next t ∧
        t.chan = s.chan.eraseIdx k ∧ t.thread n i = { Claims.withMail u hi e with cntS := u.cntS - 1 } ∧
        ∀ m j, (m, j) ≠ (n, i) → t.thread m j = s.thread m j) ∧
      (u.refusesBounce gen = false → ¬ Claims.mailRoom u hi → exec (.bounceReturn k) s = .next s) ∧
      (u.refusesBounce gen = true → c.errQ = [] → c.errTail < c.errHead + 64 →
        s.devMay 1 (s.errQueue (clusterOf n) + 64 * (c.errTail % 64)) 64 1 = true → ∃ t, exec (.bounceReturn k) s = .next t ∧
        t.chan = s.chan.eraseIdx k ∧ (t.cluster (clusterOf n)).errTail = c.errTail + 1 ∧
        memRead (s.dramKey (s.errQueue (clusterOf n) + 64 * (c.errTail % 64))) 64 t.dram = (Claims.undelivered s n i gen e w).bytes ∧
        (t.thread n i).cntS = (if u.gen.toNat = gen then u.cntS - 1 else u.cntS))

/-- R61: when the monitor table has room the oldest evicted context takes an idle slot of its core and goes on at its `menter`, with the
slot's mailboxes. That it is the lowest free slot (log entry 16), with a new generation and cleared counters, and that a thread in `wfw` is no
idle slot (log entry 42), is the model's choice. -/
def Sys2Proof.Claims.EvictedContexts : Prop :=
  ∀ (s : State) (k i : Nat) (e : Evicted) (rest : List Evicted), s.alive = true → (s.cluster k).runq = e :: rest →
    (s.cluster k).mons.length < 64 → s.takesWork e.site = true → e.thread.pair = 0 → i < 16 → (s.thread e.site i).run = .free →
    (∀ j < i, (s.thread e.site j).run ≠ .free) →
    ∃ t, exec (.evictedContextReload k) s = .next t ∧ (t.cluster k).runq = rest ∧ (t.thread e.site i).run = .stalled ∧
      (t.thread e.site i).pc = e.thread.pc ∧ (t.thread e.site i).glob = e.thread.glob ∧ (t.thread e.site i).win = e.thread.win ∧
      (t.thread e.site i).held = e.thread.held ∧ (t.thread e.site i).phase = e.thread.phase ∧
      (t.thread e.site i).gen = (s.thread e.site i).gen + 1 ∧ (t.thread e.site i).mbHi = (s.thread e.site i).mbHi ∧
      (t.thread e.site i).mbLo = (s.thread e.site i).mbLo ∧ (∀ m j, (m, j) ≠ (e.site, i) → t.thread m j = s.thread m j) ∧ t.dram = s.dram

/-- R62: an arrival raises ARRIVED of its unit, and the one that reaches EXPECTED clears it and steps the generation; the register of its
`bar.arrive` receives the generation that the arrival found, and L falls. -/
def Sys2Proof.Claims.BarrierArrivals : Prop :=
  ∀ (s : State) (k c u n i id : Nat) (d : Nat) (l : Load), s.alive = true → s.chan[k]? = some (.arrive c u n i id) →
    (s.thread n i).loads = [l] → l.id = id → l.dst = .s d → l.ext = .unsigned 8 → l.got = [] → l.waiting = 1 → l.elems = [] →
    l.acq = false → l.refused = false → l.dead = false → l.counted = true → l.toQueue = false → (s.thread n i).accQ = [] →
    (s.thread n i).pair = 0 → 1 ≤ d → d < 8 →
    let b := tblGet {} u (s.cluster c).bars
    ∃ t, exec (.barrierArrival k) s = .next t ∧ t.chan = s.chan.eraseIdx k ∧
      tblGet {} u (t.cluster c).bars = (if b.arrived + 1 = b.expected then { b with arrived := 0, gen := (b.gen + 1) % 256 }
        else { b with arrived := b.arrived + 1 }) ∧
      (∀ v, v ≠ u → tblGet {} v (t.cluster c).bars = tblGet {} v (s.cluster c).bars) ∧
      (t.thread n i).sreg i d = BitVec.ofNat 64 (b.gen % 256) ∧ (t.thread n i).cntL = (s.thread n i).cntL - 1 ∧
      (t.thread n i).loads = [] ∧ (t.thread n i).pc = (s.thread n i).pc ∧ (∀ m j, (m, j) ≠ (n, i) → t.thread m j = s.thread m j) ∧
      t.dram = s.dram
/-! ## Accesses on their way (R96, R99, R107, R109, R124, R187, R211, R216, R217, R415, R416) -/

namespace Sys2Proof.Claims

/-- An access of the own package arrives at its port, which admits it for a target (R95, R123, R331, R415). -/
def lands (s : State) (k : Nat) (f : Flight) (x : Target) : Prop :=
  s.flights[k]? = some f ∧ s.arrives k f = true ∧ s.leaves f = false ∧ s.admitted f = .ok x

/-- The answer of an access takes its place on the way. -/
def answered (s t : State) (k : Nat) (f : Flight) : Prop := t.flights = s.flights.set k f

/-- A store is acknowledged, and its target has admitted the other pieces of its element (R393). -/
def storeTaken (s t : State) (k : Nat) (f : Flight) : Prop :=
  t.flights = (s.flights.map (fun g => if g.grp = f.grp ∧ g.site = f.site ∧ g.place = f.place then { g with admitted := true } else g)).set k
    { f with stage := .reply none, admitted := true }

/-- A masked write of DRAM: each byte of the mask is new, and every other byte as before. -/
def dramMasked (s t : State) (pa : Nat) (bs : List (Option Byte)) : Prop :=
  (∀ j < bs.length, memGet (s.dramKey pa + j) t.dram = (bs.getD j none).getD (memGet (s.dramKey pa + j) s.dram)) ∧
    ∀ x, x < s.dramKey pa ∨ s.dramKey pa + bs.length ≤ x → memGet x t.dram = memGet x s.dram

/-- No thread and no local store changes. -/
def coresKept (s t : State) : Prop := ∀ n, (t.core n).threads = (s.core n).threads ∧ (t.core n).ls = (s.core n).ls ∧ (t.core n).l1 = (s.core n).l1

/-- A scalar register of a thread waits for the last piece of one load. -/
def expects (t : Thread) (l : Load) (d id : Nat) (e : LoadExt) (el : List (Word × Nat × Nat)) : Prop :=
  t.loads = [l] ∧ l.id = id ∧ l.dst = .s d ∧ l.ext = e ∧ l.got = [] ∧ l.waiting = 1 ∧ l.elems = el ∧ l.acq = false ∧ l.refused = false ∧
    l.dead = false ∧ l.counted = true ∧ l.toQueue = false ∧ t.accQ = [] ∧ t.pair = 0 ∧ 1 ≤ d ∧ d < 8

/-- The register has its value, L has fallen, and nothing else of the thread has changed. -/
def received (s t : State) (n i d : Nat) (v : Word) : Prop :=
  let u := s.thread n i
  t.thread n i = Thread.setSreg { u with loads := [], cntL := u.cntL - 1
                                         pend := u.pend.filter (fun x => decide (∀ l ∈ u.loads, x.2 ≠ l.id)) } d v

/-- The thread that sent an access has the same task, and is not failing. -/
def alive (s : State) (f : Flight) : Prop :=
  f.slot < 16 ∧ (s.thread f.site f.slot).gen.toNat = f.gen ∧ ∀ k, (s.thread f.site f.slot).run ≠ .failing k

/-- No other access of the instruction is on its way. -/
def lastOne (s : State) (k : Nat) (f : Flight) : Prop :=
  ∀ j g, s.flights[j]? = some g → j ≠ k → g.grp = f.grp → g.site ≠ f.site

end Sys2Proof.Claims

/-- R96, R99, R109, R124, R211, R216: at its port a store and a write-back write the bytes of their mask, a load reads, a fill brings its
whole line, and an atomic exchanges one value indivisibly; each then carries its answer. -/
def Sys2Proof.Claims.AccessesArrive : Prop :=
  ∀ (s : State) (k : Nat) (f : Flight),
    (Claims.lands s k f .dram → f.toHome = true →
      (f.kind = .store → ∃ t, exec (.homeAccess k) s = .next t ∧ Claims.storeTaken s t k f ∧
        Claims.dramMasked s t f.pa f.data ∧ Claims.coresKept s t) ∧
      (f.kind = .writeback → ∃ t, exec (.writebackArrival k) s = .next t ∧ Claims.answered s t k { f with stage := .reply none } ∧
        Claims.dramMasked s t f.pa f.data ∧ Claims.coresKept s t) ∧
      (f.kind = .load → s.dramBad = [] → ∃ t, exec (.homeAccess k) s = .next t ∧ Claims.answered s t k { f with
        stage := .reply none, data := (memRead (s.dramKey f.pa) f.size s.dram).map some } ∧ t.dram = s.dram ∧ Claims.coresKept s t) ∧
      (f.kind = .fill → s.dramBad = [] → f.bad = 0 → ∃ t, exec (.homeAccess k) s = .next t ∧ Claims.answered s t k { f with
        stage := .reply none, data := (memRead (s.dramKey f.pa) f.size s.dram).map some ++ f.data } ∧ t.dram = s.dram ∧
        Claims.coresKept s t) ∧
      ∀ o, f.kind = .atomic o → s.dramBad = [] →
        let m := leNat (memRead (s.dramKey f.pa) o.width s.dram)
        ∃ t, exec (.homeAtomic k) s = .next t ∧ Claims.answered s t k { f with stage := .reply none, data := (leBytes o.width m).map some } ∧
          (o.writes = true → Claims.dramMasked s t f.pa ((leBytes o.width (o.apply m).1).map some)) ∧
          (o.writes = false → t.dram = s.dram) ∧ Claims.coresKept s t) ∧
    ∀ m, Claims.lands s k f (.window m) → f.toHome = false → let a := f.pa % 0x80000
      (f.kind = .store → f.data.all (fun b => b.isSome) → f.bad = 0 → a + f.data.length ≤ 0x80000 → s.site = false →
        ∃ t, exec (.windowAccessArrival k) s = .next t ∧ Claims.storeTaken s t k f ∧
          Claims.storedAt s t m a (f.data.map (fun b => b.getD 0)) ∧ (∀ n, (t.core n).threads = (s.core n).threads) ∧ t.dram = s.dram ∧
          ∀ n, n ≠ m → t.core n = s.core n) ∧
      (f.kind = .load → (s.core m).lsBad = [] → ∃ t, exec (.windowAccessArrival k) s = .next t ∧ Claims.answered s t k { f with
        stage := .reply none, data := (s.lsSeen m a f.size).map some } ∧ t.dram = s.dram ∧ Claims.coresKept s t)

/-- R107, R187, R211, R217, R219: the answer of an access ends it: a fetched line enters the L1 and its load's register has its value, an
uncached load and an atomic write their register, and an acknowledgement lowers S once no piece is left. That the line's tag is EPOCH as it
was at the issue, and that a line that its core's epoch or an atomic has overtaken gives its load its bytes and does not enter, is the
model's reading (log entry 10). -/
def Sys2Proof.Claims.AnswersArrive : Prop :=
  ∀ (s : State) (k : Nat) (f : Flight), s.alive = true → s.flights[k]? = some f → f.stage = .reply none → Claims.alive s f →
    let n := f.site
    let i := f.slot
    let c := s.core n
    (∀ l d z, f.kind = .load → Claims.expects (s.thread n i) l d f.grp (.unsigned (8 * z)) [] → f.place = 0 → f.data.length = z → z ≤ 8 →
      f.data.all (fun b => b.isSome) → ∃ t, exec (.loadResponse k) s = .next t ∧ t.flights = s.flights.eraseIdx k ∧
        Claims.received s t n i d (BitVec.ofNat 64 (leNat (f.data.map (fun b => b.getD 0)))) ∧ t.dram = s.dram ∧
        ∀ m j, (m, j) ≠ (n, i) → t.thread m j = s.thread m j) ∧
    (∀ l d z, f.kind = .fill → Claims.expects (s.thread n i) l d f.grp (.unsigned (8 * z)) [] → f.place = 0 → f.data.length = 64 + z →
      z ≤ 8 → f.va.toNat % 64 + z ≤ 64 → f.newer = [] → c.line f.pa = none → (c.l1.filter (fun x => decide (x.base / 64 % 128 = f.pa / 64 % 128))).length < 8 →
      let v := (List.range z).map (fun j => ((f.data.getD (64 + j) none).orElse (fun _ => f.data.getD (f.va.toNat % 64 + j) none)).getD 0)
      ∃ t x, exec (.lineFill k) s = .next t ∧ t.flights = s.flights.eraseIdx k ∧ (t.core n).l1 = (if f.stale then c.l1 else c.l1 ++ [x]) ∧
        x.base = f.pa ∧ x.valid = BitVec.allOnes 64 ∧ x.dirty = 0 ∧ x.tag = f.epoch ∧
        x.data = BitVec.ofNat 512 (leNat ((f.data.take 64).map (fun b => b.getD 0))) ∧ Claims.received s t n i d (BitVec.ofNat 64 (leNat v)) ∧ t.dram = s.dram) ∧
    (∀ x, f.kind = .prefetch true → f.stale = false → f.newer = [] → c.line f.pa = some x → (∀ y ∈ c.l1, y.base = f.pa → y = x) →
      ∃ t y, exec (.lineFill k) s = .next t ∧ t.flights = s.flights.eraseIdx k ∧ (t.core n).line f.pa = some y ∧ y.valid = BitVec.allOnes 64 ∧
        y.dirty = x.dirty ∧ y.tag = f.epoch ∧ (∀ j < 64, y.data.extractLsb' (8 * j) 8 = if x.dirty.getLsbD j then x.data.extractLsb' (8 * j) 8
          else (f.data.getD j none).getD 0) ∧ ∀ m j, t.thread m j = s.thread m j) ∧
    (∀ o l d, f.kind = .atomic o → f.inS = false → o.fn ≠ 10 → o.width ≤ 8 → f.data.length = o.width → f.data.all (fun b => b.isSome) →
      Claims.expects (s.thread n i) l d f.grp (.unsigned (8 * o.width)) [] → f.place = 0 → ∃ t, exec (.atomicResult k) s = .next t ∧
        t.flights = s.flights.eraseIdx k ∧ Claims.received s t n i d (BitVec.ofNat 64 f.old) ∧ t.dram = s.dram) ∧
    (f.inS = true → f.kind = .store ∨ f.kind = .writeback → Claims.lastOne s k f → ∃ t, exec (.acknowledgementArrival k) s = .next t ∧
      t.flights = s.flights.eraseIdx k ∧ t.thread n i = { s.thread n i with cntS := (s.thread n i).cntS - 1 } ∧ t.dram = s.dram ∧
      ∀ m j, (m, j) ≠ (n, i) → t.thread m j = s.thread m j)

/-- R415, R416, R420: a refusal that returns ends its access without effect, writes a KIND 3 hand-back record that gives the refused
address, and makes the map fault due in the thread. -/
def Sys2Proof.Claims.RefusalsReturn : Prop :=
  ∀ (s : State) (k : Nat) (f : Flight) (why : Nat), s.alive = true → s.flights[k]? = some f → f.stage = .refusal why → Claims.alive s f →
    (s.thread f.site f.slot).due = [] → (s.thread f.site f.slot).hb = none → (s.thread f.site f.slot).pair = 0 → Claims.lastOne s k f →
    (∀ l1, f.kind ≠ .prefetch l1) → let at_ := s.handbackAt f.site f.slot
    s.devMay 1 at_ 64 1 = true → ∃ t d, exec (.accessRefusalResponse k) s = .next t ∧ t.flights = s.flights.eraseIdx k ∧ (t.thread f.site f.slot).due = [d] ∧ d.code = 14 ∧
      d.val = BitVec.ofNat 64 (f.refusedAt % 2 ^ 48 + why * 2 ^ 48 + f.acc * 2 ^ 51 + 2 ^ 53) ∧
      (t.thread f.site f.slot).pc = (s.thread f.site f.slot).pc ∧ memGet (s.dramKey at_ + 4) t.dram = 3 ∧
      memRead (s.dramKey at_ + 16) 8 t.dram = leBytes 8 (BitVec.ofNat 64 f.refusedAt : Word).toNat ∧
      (∀ x, x < s.dramKey at_ ∨ s.dramKey at_ + 64 ≤ x → memGet x t.dram = memGet x s.dram) ∧
      ∀ m j, (m, j) ≠ (f.site, f.slot) → t.thread m j = s.thread m j

/-! ## Walks, homes and banks (R100, R115 to R119, R180, R335, R411, R412, R447) -/

namespace Sys2Proof.Claims

/-- The requesters of a walk that ended without an entry have its fault: threads, and operations of the engine queues, numbered from 16
up; every other thread, and memory, is as before. -/
def walkFailed (s t : State) (w : Walk) (why : Nat) : Prop :=
  (∀ r ∈ w.who, r.2 < 16 → t.thread r.1 r.2 = { s.thread r.1 r.2 with walk := some (w.page, why) }) ∧
    (∀ r ∈ w.who, 16 ≤ r.2 → ∀ o ∈ (t.core r.1).ops, o.queue = r.2 - 16 → o.walk = some (w.page, why)) ∧
    (∀ m j, (m, j) ∉ w.who → t.thread m j = s.thread m j) ∧ t.dram = s.dram

/-- A walk that holds one of the 8 contexts of a cluster, and its place (R116). -/
def underWay (s : State) (c : Nat) (w : Walk) (j : Nat) : Prop := j < 8 ∧ (s.cluster c).walks[j]? = some w

end Sys2Proof.Claims

/-- R116, R119, R447: of the walks in the 8 contexts of a cluster one that ends gives its entry to the cluster TLB and to its requesters,
or its fault to them; one that meets a poisoned table word keeps its context; one that no answer came for in 10 ms ends with WHY 5 and a
kind 44 record. Which walk is the next to end is open (log entry 2). -/
def Sys2Proof.Claims.Walks : Prop :=
  ∀ (s : State) (c : Nat),
    (s.clocked (2048 + c) = true → (∃ w j, Claims.underWay s c w j ∧ w.lost = false) →
      ∃ w j t, Claims.underWay s c w j ∧ w.lost = false ∧ exec (.walkRequest c) s = .next t ∧
        let e := (s.walkFrom (pageVa w.page) 3 ((s.cluster c).ptroot.toNat % 2 ^ 48)).1
        (e = .lost → (t.cluster c).walks = (s.cluster c).walks.set j { w with lost := true } ∧ (∀ m i, t.thread m i = s.thread m i) ∧
          t.dram = s.dram) ∧
        (∀ why, e = .fault why → (t.cluster c).walks = (s.cluster c).walks.eraseIdx j ∧ Claims.walkFailed s t w why) ∧
        ∀ x, e = .entry x → (t.cluster c).walks = (s.cluster c).walks.eraseIdx j ∧ x ∈ tblGet [] x.set (t.cluster c).tlb ∧
          (∀ r ∈ w.who, x ∈ (t.core r.1).tlb) ∧ (∀ m i, t.thread m i = s.thread m i) ∧ t.dram = s.dram) ∧
    (s.alive = true → (s.cluster c).walks ≠ [] → ∃ w j t r, Claims.underWay s c w j ∧ exec (.walkTimeout c) s = .next t ∧
      (t.cluster c).walks = (s.cluster c).walks.eraseIdx j ∧ (t.cluster c).errQ = (s.cluster c).errQ ++ [r] ∧ r.kind = 44 ∧
      r.val1 = BitVec.ofNat 64 c ∧ r.val2 = pageVa w.page ∧ Claims.walkFailed s t w 5)

/-- R34, R100, R180: the bank gives a delayed load of the local store its register, serves the spill of a stalled thread's oldest window,
or the fill of its caller's. -/
def Sys2Proof.Claims.BankService : Prop :=
  ∀ (s : State) (n i : Nat), s.clocked n = true → (s.core n).pre = false →
    let u := s.thread n i
    (∀ l d, u.loads = [l] → 1 ≤ l.ready → l.ready ≤ (s.core n).cyc → l.dst = .s d → 1 ≤ d → d < 8 → l.ext ≠ .vector → l.dead = false →
      l.counted = false → l.toQueue = false → l.acq = false → u.accQ = [] → u.pair = 0 → ∃ t, exec (.localStoreBankService n i) s = .next t ∧
        t.thread n i = Thread.setSreg { u with loads := [], pend := u.pend.filter (fun x => decide (x.2 ≠ l.id)) } d (l.ext.value l.got) ∧
        (∀ m j, (m, j) ≠ (n, i) → t.thread m j = s.thread m j) ∧ t.dram = s.dram ∧ (t.core n).ls = (s.core n).ls) ∧
    (u.run = .stalled → (∀ l ∈ u.loads, l.ready = 0 ∨ (s.core n).cyc < l.ready) →
      (u.needSpill = true → u.windowPends u.resLo = false → u.resLo ≤ 31 → ∃ t, exec (.localStoreBankService n i) s = .next t ∧
        t.thread n i = { u with resLo := u.resLo + 1 } ∧
        (∀ r, 8 ≤ r → r ≤ 23 → t.lsWord n (u.region + winPlace u.resLo r) = tblGet 0 (winIndex u.resLo r) u.win) ∧
        (∀ m j, (m, j) ≠ (n, i) → t.thread m j = s.thread m j) ∧ t.dram = s.dram) ∧
      (u.needSpill = false → u.needFill = true → 1 ≤ u.depth → (s.core n).lsBad = [] → ∃ t, exec (.localStoreBankService n i) s = .next t ∧
        (t.thread n i).resLo = u.depth - 1 ∧
        (∀ r, 8 ≤ r → r ≤ 19 →
          tblGet 0 (winIndex (u.depth - 1) r) (t.thread n i).win = s.lsWord n (u.region + winPlace (u.depth - 1) r)) ∧
        (t.thread n i).run = .stalled ∧ (t.thread n i).depth = u.depth ∧ (t.thread n i).glob = u.glob ∧ (t.core n).ls = (s.core n).ls ∧
        ∀ m j, (m, j) ≠ (n, i) → t.thread m j = s.thread m j))

/-- R335, R411, R412: a refresh changes nothing; a scrub that finds a sound line changes nothing, and one that finds an uncorrectable
codeword poisons its granules and reports it; a structure instance that has corrected errors reports their count, which starts over, once
a second has passed since its last record, and none sooner. -/
def Sys2Proof.Claims.HomesUpkeep : Prop :=
  ∀ s : State,
    (∀ h, exec (.dramRefresh h) s = .next s) ∧ (∀ l, exec (.patrolScrub l false) s = .next s) ∧
    (∀ l, s.alive = true → 64 * l + 64 ≤ 0x7735940000 → ∃ t, exec (.patrolScrub l true) s = .next t ∧ t.dram = s.dram ∧
      (∃ g, 8 * l ≤ g ∧ g < 8 * l + 8 ∧ g ∈ t.dramBad) ∧ (∀ g ∈ s.dramBad, g ∈ t.dramBad) ∧
      (∃ k r, r ∈ (t.cluster k).errQ ∧ r.kind = 17 ∧ r.cause = 5) ∧ t.cores = s.cores) ∧
    ∀ (c : Nat) (code : Byte) (at_ : Word), s.alive = true →
      let named := fun (x : Corrected) => x.cluster = c ∧ x.code = code.toNat ∧ x.last = at_
      let due := fun (x : Corrected) => 1 ≤ x.count ∧ ∀ w, x.wrote = some w → w + 1000000 ≤ s.cold.time
      (∀ j x, s.corrected[j]? = some x → named x → due x → (∀ i < j, ∀ y, s.corrected[i]? = some y → named y → ¬ due y) →
        ∃ t r, exec (.correctedErrorReport c code at_) s = .next t ∧ (t.cluster c).errQ = (s.cluster c).errQ ++ [r] ∧ r.kind = 16 ∧
          r.cause = code.toNat ∧ r.val1 = at_ ∧ r.val2 = BitVec.ofNat 64 x.count ∧
          t.corrected = s.corrected.set j { x with count := 0, wrote := some s.cold.time } ∧
          (∀ b, b ≠ c → t.cluster b = s.cluster b) ∧ t.cores = s.cores ∧ t.dram = s.dram) ∧
      ((∀ y ∈ s.corrected, named y → ¬ due y) → exec (.correctedErrorReport c code at_) s = .next s)
/-! ## Engine operations (R131, R132, R162, R251, R257, R264, R266, R282, R369, R415 to R420) -/

namespace Sys2Proof.Claims

/-- An operation of a queue of a core whose engines run; no two operations have one identifier. -/
def engineOp (s : State) (n q k : Nat) (o : EngOp) : Prop :=
  s.enginesRun n = true ∧ (s.core n).opAt q k = some o ∧ ((s.core n).ops.map (·.id)).Nodup

/-- An operation that has begun is the next to be performed in its queue (R131, R132). -/
def nextUp (s : State) (n q : Nat) (o : EngOp) : Prop :=
  engineOp s n q 0 o ∧ o.stage = .begun ∧ (s.core n).opBlocked o = false

/-- The operation is gone from its queue, its counter has fallen and its flags are in FLG (R131, R162); other threads are as before. -/
def finished (s t : State) (n : Nat) (o : EngOp) (f : BitVec 6) : Prop :=
  let u := s.thread n o.slot
  (t.core n).ops = (s.core n).ops.filter (fun x => decide (x.id ≠ o.id)) ∧
    t.thread n o.slot = (if u.gen.toNat = o.gen then (u.setOpCount o.queue (u.opCount o.queue - 1)).orFlags f else u) ∧
    ∀ m j, (m, j) ≠ (n, o.slot) → t.thread m j = s.thread m j

end Sys2Proof.Claims

/-- R131, R132, R251, R369, R376: a queued operation that nothing blocks begins, on a core that is being pre-empted only one that has taken
values already or whose thread is failing; one of `mq` begins when it is the next, and with a bad operand it waits for its kind 5 record
and is then performed as a no-op. -/
def Sys2Proof.Claims.EngineOpsBegin : Prop :=
  ∀ (s : State) (n q k : Nat) (o : EngOp), Claims.engineOp s n q k o →
    let g := fun (x : EngOp) => s.setCore n { s.core n with ops := (s.core n).ops.map (fun y => if y.id = o.id then x else y) }
    (o.stage = .queued → (s.core n).opBlocked o = false →
      (s.core n).pre = false ∨ o.got ≠ [] ∨ (∃ m, (s.thread n o.slot).run = .failing m) →
      (q ≠ 0 → exec (.engineOpBegin n q k) s = .next (g { o with stage := .begun })) ∧
      (q = 0 → k = 0 → s.matrixFault n o = false → exec (.engineOpBegin n q k) s = .next (g { o with stage := .begun })) ∧
      (q = 0 → k = 0 → s.matrixFault n o = true → ∃ t r x, exec (.engineOpBegin n q k) s = .next t ∧
        (t.cluster (clusterOf n)).errQ = (s.cluster (clusterOf n)).errQ ++ [r] ∧ r.kind = 5 ∧ r.pc = o.pc ∧ r.slot = o.slot ∧
        x ∈ (t.core n).ops ∧ x.id = o.id ∧ x.stage = .record ∧ (t.core n).ls = (s.core n).ls ∧ (t.core n).arr = (s.core n).arr)) ∧
    (k = 0 → o.stage = .record → (s.core n).opBlocked o = false → s.faultWritten n o = true → ∃ t,
      exec (.engineOpPerformed n q k) s = .next t ∧ Claims.finished s t n o 0 ∧ (t.core n).ls = (s.core n).ls ∧
      (t.core n).arr = (s.core n).arr ∧ t.dram = s.dram)

/-- R131, R257, R264, R266, R282: the next operation of a queue is performed: `mgeo` sets the active part of the array, `mzero` clears a
bank, `cpy` moves bytes inside the local store, a drain reads its entries before it writes them; it then leaves its queue. -/
def Sys2Proof.Claims.EngineOpsPerformed : Prop :=
  ∀ (s : State) (n : Nat) (o : EngOp),
    (∀ q s' f, Claims.nextUp s n q o → s.performOp n o = .done s' f →
      exec (.engineOpPerformed n q 0) s = .next (if s.recordsFit s' n then (s'.opDone n o f).touch n else s)) ∧
    (∀ a b, Claims.nextUp s n 0 o → o.word = (encode (.mgeo b a)).bits → ∃ t, exec (.engineOpPerformed n 0 0) s = .next t ∧
      Claims.finished s t n o 0 ∧ (t.core n).arr = { (s.core n).arr with kact := o.ra.toNat, nact := o.rb.toNat } ∧
      (t.core n).banks = (s.core n).banks ∧ (t.core n).ls = (s.core n).ls ∧ t.dram = s.dram) ∧
    (∀ d : BitVec 2, Claims.nextUp s n 0 o → o.word = (encode (.mzero d)).bits → ∃ t, exec (.engineOpPerformed n 0 0) s = .next t ∧
      Claims.finished s t n o 0 ∧ (t.core n).arr = (s.core n).arr ∧ (t.core n).ls = (s.core n).ls ∧ t.dram = s.dram ∧
      ∀ x, tblGet 0 x (t.core n).banks = if x / 4096 = d.toNat then 0 else tblGet 0 x (s.core n).banks) ∧
    (∀ (a b d : BitVec 5), let k := o.rb.toNat
      let p := o.ra.toNat
      let r := o.rd.toNat
      Claims.nextUp s n 1 o → o.word = (encode (.cpy b a 3 d)).bits → k < 2 ^ 32 → p + k ≤ 0x80000 → r + k ≤ 0x80000 →
      (s.core n).inClaim r k = false → (s.core n).lsBad = [] → (s.core n).frames = [] → o.got = [] → o.wrote = [] →
      ∃ t, exec (.engineOpPerformed n 1 0) s = .next t ∧ Claims.finished s t n o 0 ∧
        (∀ j < k, memGet (r + j) (t.core n).ls = memGet (p + j) (s.core n).ls) ∧
        (∀ x, x < r ∨ r + k ≤ x → memGet x (t.core n).ls = memGet x (s.core n).ls) ∧ t.dram = s.dram ∧ ∀ m, m ≠ n → t.core m = s.core m) ∧
    ∀ x s', s.enginesRun n = true → s.hiveBusy n = false → (s.core n).nextDrain = some x → s.drainRead n x = .ok s' → exec (.drainReadPhase n) s = .next s'

/-- R415 to R420: an operation that stops is handed back with a record of its remainder, and its trap becomes due; a due trap is taken in
the first slot in which the thread would issue outside a handler. -/
def Sys2Proof.Claims.HandBacks : Prop :=
  ∀ (s : State) (n : Nat),
    (∀ o s' f r code val, Claims.nextUp s n 1 o → s.backWaits n o = false → s.performOp n o = .back s' f r code val → s.recordsFit s' n = true →
      (s'.core n).ops = (s.core n).ops → (s'.thread n o.slot) = s.thread n o.slot → (s.thread n o.slot).gen.toNat = o.gen →
      (∀ m, (s.thread n o.slot).run ≠ .failing m) → (s.thread n o.slot).pair = 0 → (s.thread n o.slot).due = [] →
      s'.devMay 1 (s'.handbackAt n o.slot) 64 1 = true → ∃ t d, exec (.engineHandback n 1 0) s = .next t ∧ (∀ x ∈ (t.core n).ops, x.id ≠ o.id ∧ (x.slot = o.slot → x.queue = 1 → x.held = true)) ∧
        (t.thread n o.slot).due = [d] ∧ d.code = code ∧ d.val = val ∧ d.queue = some 1 ∧ d.op = o.id ∧
        (t.thread n o.slot).cntC = (s.thread n o.slot).cntC - 1 ∧
        memRead (s'.dramKey (s'.handbackAt n o.slot)) 64 t.dram = recordBytes o.word 1 o.pc r) ∧
    ∀ i d rest, let u := s.thread n i
      u.interruptible = true → u.pair = 0 → u.act = false → (s.core n).thbEn = true → u.due = d :: rest →
      ∃ t, exec (.handbackTrap n i) s = .next t ∧ (t.thread n i).run = .trapped ∧ (t.thread n i).pc = (s.core n).thbBase ++ 0#8 ∧
        (t.thread n i).xpc = u.pc ∧ (t.thread n i).xval = d.val ∧ (t.thread n i).xcode = BitVec.ofNat 8 d.code ∧
        (t.thread n i).act = true ∧ (t.thread n i).priv = true ∧ (t.thread n i).due = rest ∧
        (t.thread n i).hb = some { d with mark := s.nextId } ∧ (t.thread n i).glob = u.glob ∧ (t.thread n i).win = u.win ∧
        (∀ m j, (m, j) ≠ (n, i) → t.thread m j = s.thread m j) ∧ t.dram = s.dram

/-! ## Traps, failing threads, pairs and records (R64, R171, R359, R363 to R370, R375, R414) -/

namespace Sys2Proof.Claims

/-- The thread of a slot makes one step of its failure, and no thread of another slot changes. -/
def failing (s t : State) (n i k : Nat) : Prop :=
  (t.thread n i).run = .failing k ∧ ∀ m j, (m, j) ≠ (n, i) → t.thread m j = s.thread m j

/-- The thread is in a step of its failure, unpaired, in a slot whose core has its clock. -/
def inStep (s : State) (n i k : Nat) (f : FailInfo) : Prop :=
  s.clocked n = true ∧ (s.thread n i).run = .failing k ∧ (s.thread n i).fail = some f ∧ (s.thread n i).pair = 0

end Sys2Proof.Claims

/-- R171, R359, R360, R414: a word that is no instruction and a fetch that cannot translate take their traps; the slot after a trap writes
s1 to s7 and s24 to s30 to the park save area, and the handler may issue. -/
def Sys2Proof.Claims.TrapEntries : Prop :=
  ∀ s : State,
    (s.th.pair = 0 → let live := s.setTh { s.th with run := .running, qblock := none }
      (∀ w : BitVec 32, exec (.illegalInstruction w false) s = .next (live.takeTrap 1 (w.setWidth 64) s.th.pc) ∧
        exec (.illegalInstruction w true) s = .next (live.takeTrap 1 ((w.setWidth 16).setWidth 64) s.th.pc)) ∧
      ∀ (va : Word) (why : BitVec 3), exec (.instructionFetchFault va why) s = .next (live.takeTrap 13
        (((va.extractLsb' 0 56).setWidth 64) ||| BitVec.ofNat 64 (3 * 2 ^ 56 + why.toNat * 2 ^ 59)) s.th.pc)) ∧
    ∀ n i, (s.thread n i).run = .trapped → let a := (s.thread n i).region
      ∃ t, exec (.trapEntry n i) s = .next t ∧ t.thread n i = { s.thread n i with run := .running } ∧
        (∀ j < 7, t.lsWord n (a + 8 * j) = tblGet 0 (1 + j) (s.thread n i).glob ∧
          t.lsWord n (a + 56 + 8 * j) = tblGet 0 (24 + j) (s.thread n i).glob) ∧
        (∀ x, x < a ∨ a + 112 ≤ x → memGet x (t.core n).ls = memGet x (s.core n).ls) ∧
        (∀ m j, (m, j) ≠ (n, i) → t.thread m j = s.thread m j) ∧ t.dram = s.dram

/-- The issuing thread is the leading (1) or the trailing (2) one of a pair, and waits for nothing else. -/
def Sys2Proof.Claims.pairState (s : State) (p : Nat) : Prop :=
  s.th.pend = [] ∧ s.th.regBad = [] ∧ s.th.pair = p ∧ s.th.qmap = false ∧ s.th.inRecon = false ∧ s.th.phase = 0

/-- R364, R365, R369: a failing thread drains its counters, writes its lines back, loses its registers and its region, waits for its
kind 1 record, sends its decrement and gives up its slot. -/
def Sys2Proof.Claims.FailureSequence : Prop :=
  ∀ (s : State) (n i : Nat) (f : FailInfo),
    (Claims.inStep s n i 1 f → (s.thread n i).monHeld = none → (s.thread n i).monWait = none →
      (s.thread n i).phase ≠ 4 → (s.thread n i).phase ≠ 7 → ∃ t, exec (.threadFailure n i) s = .next t ∧
      Claims.failing s t n i 2 ∧ (t.thread n i).mbHi = [] ∧ (t.thread n i).mbLo = [] ∧ (t.thread n i).due = [] ∧
      (t.core n).ls = (s.core n).ls) ∧
    (Claims.inStep s n i 2 f → (s.thread n i).cntr = 0 → ∃ t, exec (.threadFailure n i) s = .next t ∧ Claims.failing s t n i 3) ∧
    (Claims.inStep s n i 2 f → (s.thread n i).cntr ≠ 0 → exec (.threadFailure n i) s = .next s) ∧
    (Claims.inStep s n i 3 f → (∀ l ∈ (s.core n).l1, l.writers.getLsbD i = false) → (s.thread n i).cntS = 0 →
      (∀ g ∈ s.flights, g.site = n → g.writers.getLsbD i = false) →
      ∃ t, exec (.threadFailure n i) s = .next t ∧ Claims.failing s t n i 4) ∧
    (Claims.inStep s n i 4 f → ∃ t, exec (.threadFailure n i) s = .next t ∧ Claims.failing s t n i 5 ∧
      (∀ r, r < 31 → (t.thread n i).sreg i r = 0) ∧ (∀ r, (t.thread n i).vreg r = 0) ∧ (t.thread n i).wid = 0 ∧ (t.thread n i).flg = 0 ∧
      (t.thread n i).srs = 1 ∧ (t.thread n i).act = false ∧ (t.thread n i).qmap = false) ∧
    (Claims.inStep s n i 5 f → let a := (s.thread n i).region
      ∃ t, exec (.threadFailure n i) s = .next t ∧ Claims.failing s t n i 6 ∧
        (∀ x, memGet x (t.core n).ls = if a ≤ x ∧ x < a + 0x1000 then 0 else memGet x (s.core n).ls)) ∧
    (Claims.inStep s n i 6 f → f.queued = false → (s.thread n i).task.txn = false → (s.thread n i).inl = [] → ∃ t r,
      exec (.threadFailure n i) s = .next t ∧ Claims.failing s t n i 6 ∧
      (t.cluster (clusterOf n)).errQ = (s.cluster (clusterOf n)).errQ ++ [r] ∧ r.kind = 1 ∧ r.cause = f.cause ∧ r.pc = f.pc ∧
      r.val1 = f.val1 ∧ r.val2 = f.val2 ∧ r.slot = i ∧ r.lnch = (s.thread n i).task.lnch) ∧
    (Claims.inStep s n i 6 f → f.queued = true → f.num < (s.cluster (clusterOf n)).errTail →
      ∃ t, exec (.threadFailure n i) s = .next t ∧ Claims.failing s t n i 7) ∧
    (∀ x, Claims.inStep s n i 7 f → (s.thread n i).inl = [] → (s.thread n i).task.txn = false → (s.thread n i).task.fref = some x →
      ∃ t, exec (.threadFailure n i) s = .next t ∧ Claims.failing s t n i 8 ∧
        t.chan = s.chan ++ [.decrement x (s.thread n i).task.lnch none (s.source n i true) false]) ∧
    (Claims.inStep s n i 8 f → ∃ t, exec (.threadFailure n i) s = .next t ∧ (t.thread n i).run = .free ∧ (t.thread n i).task = {} ∧
      (t.thread n i).priv = false ∧ ∀ m j, (m, j) ≠ (n, i) → t.thread m j = s.thread m j)

/-- R64, R370: effects of a pair that are equal take place once, by the leading thread; unequal ones fail both threads with CAUSE 4. -/
def Sys2Proof.Claims.PairsCompare : Prop :=
  ∀ (s : State) (n i : Nat) (e f : PairEffect), s.clocked n = true → (s.thread n i).pair = 1 → (s.thread n (i + 8)).pair = 2 →
    (s.thread n i).cmp = some e → (s.thread n (i + 8)).cmp = some f → e.go = false →
    (s.thread n i).run ≠ .halted → (s.thread n (i + 8)).run ≠ .halted →
    (e.trap = f.trap → e.key = f.key → ∃ t, exec (.pairCompare n i) s = .next t ∧
      t.thread n i = { s.thread n i with cmp := some { e with go := true } } ∧
      t.thread n (i + 8) = { s.thread n (i + 8) with cmp := some { f with go := f.trap.isSome } } ∧
      ∀ m j, (m, j) ≠ (n, i) → (m, j) ≠ (n, i + 8) → t.thread m j = s.thread m j) ∧
    (e.trap ≠ f.trap ∨ e.key ≠ f.key → ∃ t x, exec (.pairCompare n i) s = .next t ∧ (t.thread n i).run = .failing 1 ∧
      (t.thread n (i + 8)).run = .failing 1 ∧ (t.thread n i).fail = some x ∧ x.cause = 4 ∧ x.pc = (s.thread n i).pc ∧
      ∀ m j, (m, j) ≠ (n, i) → (m, j) ≠ (n, i + 8) → t.thread m j = s.thread m j)

/-- R63, R64, R370: the accesses of a pair take place once, by the leading thread. A store or an atomic of either waits in the comparator, with its
address and data and no access; once the two agree the leading one makes it, and the trailing one goes on, with an atomic's value. A load is
made by the leading thread and passes through the queue, from which the trailing one takes its value. How the trailing thread goes on is the
model's choice (log entry 36). -/
def Sys2Proof.Claims.PairsAccessOnce : Prop :=
  ∀ s : State, let n := s.cur.1
    let i := s.cur.2
    let u := s.thread n (i + 8)
    (∀ p, p = 1 ∨ p = 2 → Claims.pairState s p → s.th.cmp = none → (p = 1 → u.lvq.length ≤ 31) → ∀ (k : BitVec 12) (a d : BitVec 5),
      ∀ r ∈ Claims.deviceStores ++ Claims.localStores, let va := s.reg a.toNat + k.signExtend 64
        ∃ e, exec (r.1 k a d) s = .next (s.setTh { s.th.live with run := .stalled, cmp := some e }) ∧ e.go = false ∧ e.trap = none ∧
          e.pc = s.th.pc ∧ e.addrs = [va] ∧
          e.key = Claims.word (r.1 k a d) :: 1 :: va :: (leBytes r.2 (s.reg d.toNat).toNat).map (fun b => b.zeroExtend 64)) ∧
    (∀ p, p = 1 ∨ p = 2 → Claims.pairState s p → s.th.cmp = none → (p = 1 → u.lvq.length ≤ 31) → ∀ (l rb q w : BitVec 1)
      (a b d : BitVec 5), ∀ r ∈ Claims.atomics, ∃ e, exec (r.1 rb q l b a w d) s =
          .next (s.setTh { s.th.live with run := .stalled, cmp := some e }) ∧ e.go = false ∧ e.trap = none ∧ e.addrs = [s.reg a.toNat]) ∧
    (∀ p e, p = 1 ∨ p = 2 → Claims.pairState s p → s.th.cmp = some e → e.go = false → ∀ (k : BitVec 12) (a d : BitVec 5),
      ∀ r ∈ Claims.deviceStores ++ Claims.localStores, exec (r.1 k a d) s = .next (Claims.waits s)) ∧
    (∀ e, Claims.pairState s 1 → u.pair = 2 → s.th.cmp = some e → e.go = true → e.trap = none → u.lvq.length ≤ 32 → s.th.cntS < 1023 →
      ∀ (k : BitVec 12) (a d : BitVec 5), ∀ r ∈ Claims.deviceStores, ∀ g, Claims.uncached s (s.reg a.toNat + k.signExtend 64) r.2 1 g →
        ∃ t f, exec (r.1 k a d) s = .next t ∧ t.flights = s.flights ++ [f] ∧ f.kind = .store ∧ f.pa = g.pa ∧ f.slot = i ∧
          f.data = (leBytes r.2 (s.reg d.toNat).toNat).map some ∧ t.th.cmp = none ∧ t.th.pc = s.th.pc + 4 ∧ t.th.cntS = s.th.cntS + 1 ∧
          (t.thread n (i + 8)).cmp = none ∧ (t.thread n (i + 8)).pc = s.th.pc + 4 ∧ (t.thread n (i + 8)).cntS = u.cntS ∧
          (t.thread n (i + 8)).glob = u.glob) ∧
    (∀ e, Claims.pairState s 1 → u.pair = 2 → s.th.cmp = some e → e.go = true → e.trap = none → u.lvq.length ≤ 31 → s.th.cntL < 1023 →
      ∀ (w : BitVec 1) (a b d : BitVec 5), d ≠ 0 → d ≠ 31 → (s.reg a.toNat).toNat % Claims.amoBytes w = 0 →
      ∀ g, s.live.segments (s.reg a.toNat) (Claims.amoBytes w) 2 = .ok ([g], s.live) → g.tgt ≠ .window n →
        regionOf (g.pa % 2 ^ 40) ≠ some 0 → ∀ r ∈ Claims.atomics, ∃ t f o, exec (r.1 0 0 0 b a w d) s = .next t ∧
          t.flights = s.flights ++ [f] ∧ f.kind = .atomic o ∧ f.pa = g.pa ∧ t.th.cmp = none ∧ t.th.cntL = s.th.cntL + 1 ∧
          (t.thread n (i + 8)).cmp = none ∧ (t.thread n (i + 8)).phase = 1 ∧ (t.thread n (i + 8)).pc = u.pc ∧
          (t.thread n (i + 8)).lvq = u.lvq ++ [(f.grp, none)]) ∧
    (Claims.pairState s 1 → u.lvq.length ≤ 31 → s.th.cntL < 1023 → s.th.cmp = none → ∀ (k : BitVec 12) (a d : BitVec 5), d ≠ 0 → d ≠ 31 →
      ∀ r ∈ Claims.deviceLoads, ∀ g, Claims.uncached s (s.reg a.toNat + k.signExtend 64) r.2.1 0 g →
        ∃ t f, exec (r.1 k a d) s = .next t ∧ t.flights = s.flights ++ [f] ∧ f.kind = .load ∧ f.pa = g.pa ∧ f.slot = i ∧
          t.th.cntL = s.th.cntL + 1 ∧ t.th.pc = s.th.pc + 4 ∧ t.thread n (i + 8) = { u with lvq := u.lvq ++ [(f.grp, none)] }) ∧
    (Claims.pairState s 1 → 32 ≤ u.lvq.length → ∀ (k : BitVec 12) (a d : BitVec 5), s.th.cmp = none → ∀ r ∈ Claims.deviceLoads,
      exec (r.1 k a d) s = .next (Claims.waits s)) ∧
    (Claims.pairState s 2 → s.th.cmp = none → ∀ (k : BitVec 12) (a d : BitVec 5), ∀ x ∈ Claims.deviceLoads.map (·.1) ++ Claims.localLoads.map (·.1),
      (∀ id v rest, s.th.lvq = (id, some v) :: rest →
        exec (x k a d) s = .next (s.setTh ((({ s.th with lvq := rest } : Thread).setSreg d.toNat (v.extractLsb' 0 64)).went 4))) ∧
      (s.th.lvq = [] → (s.thread n (i - 8)).cmp = none → exec (x k a d) s = .next (Claims.waits s)))

/-- R369, R375: a cluster writes its oldest record to its queue in DRAM and then TAIL, holds it while the queue is full and reads HEAD
again; the core watchdog fails the threads blocked on queue registers, and empties the queues. -/
def Sys2Proof.Claims.RecordsAndWatchdog : Prop :=
  ∀ s : State,
    (∀ c r rest, s.alive = true → (s.cluster c).errQ = r :: rest → let base := s.errQueue c
      ((s.cluster c).errTail < (s.cluster c).errHead + 64 → (∀ h, (s.home h).ring.en = false) →
        s.devMay 1 (base + 64 * ((s.cluster c).errTail % 64)) 64 1 = true → s.devMay 1 (base + 0x1000) 8 1 = true → ∃ t, exec (.errorRecordWrite c) s = .next t ∧
        (t.cluster c).errQ = rest ∧ (t.cluster c).errTail = (s.cluster c).errTail + 1 ∧
        memRead (s.dramKey (base + 64 * ((s.cluster c).errTail % 64))) 64 t.dram = r.bytes ∧
        memNum (s.dramKey (base + 0x1000)) 8 t.dram = ((s.cluster c).errTail + 1) % 2 ^ 64 ∧ t.cores = s.cores) ∧
      ((s.cluster c).errHead + 64 ≤ (s.cluster c).errTail → exec (.errorRecordWrite c) s = .next s)) ∧
    (∀ c, s.alive = true → (s.cluster c).errHead + 64 ≤ (s.cluster c).errTail → s.devMay 1 (s.errQueue c + 0x1008) 8 0 = true →
      ∃ t, exec (.errorQueueHeadPoll c) s = .next t ∧
      (t.cluster c).errHead = memNum (s.dramKey (s.errQueue c + 0x1008)) 8 s.dram ∧ (t.cluster c).errTail = (s.cluster c).errTail ∧
      t.dram = s.dram ∧ t.cores = s.cores) ∧
    ∀ n, 0x100000 ≤ (s.core n).wdog → ((s.core n).threads.map (·.1)).Nodup → (∀ x ∈ (s.core n).threads, x.2.pair = 0) →
      ∃ t r, exec (.queueStallWatchdog n) s = .next t ∧ (t.cluster (clusterOf n)).errQ = (s.cluster (clusterOf n)).errQ ++ [r] ∧
        r.kind = 6 ∧ (t.core n).hwq = [] ∧ (t.core n).wdog = 0 ∧
        (∀ i, (s.thread n i).queueStalled = true → (t.thread n i).run = .failing 1 ∧ ∃ x, (t.thread n i).fail = some x ∧ x.cause = 5) ∧
        (∀ i, (s.thread n i).queueStalled = false → t.thread n i = s.thread n i) ∧ ∀ m, m ≠ n → t.core m = s.core m
/-! ## Transactions at the Scarab, the homes and the dispatch cores (R70 to R86, R366, R422 to R426) -/

namespace Sys2Proof.Claims

/-- The descriptor that a load reads: 32 bytes of DRAM. -/
def descBytes (s : State) : List Byte := memRead (s.dramKey (s.scarab.base + 32 * s.scarab.loading)) 32 s.dram

/-- The checks of R73 on a descriptor. -/
def descGood (bs : List Byte) : Prop :=
  let num := fun o n => leNat ((bs.drop o).take n)
  let flags := num 15 1
  8 ≤ num 14 1 ∧ num 14 1 ≤ 16 ∧ flags / 2 % 2 = 1 ∧ flags < 4 ∧ num 0 8 % 2 ^ num 14 1 = 0 ∧
    num 8 6 % 2 ^ num 14 1 = 0 ∧ 1 ≤ num 16 6 ∧ num 22 2 = 0 ∧ num 30 2 = 0

/-- The number of the next transaction: batch, package and position (R78). -/
def nextSeq (s : State) : Nat := s.scarab.batch % 2 ^ 40 * 2 ^ 24 + s.scarab.pidx % 256 * 2 ^ 16 + s.scarab.pos

/-- Threads, local stores and DRAM are as before. -/
def memoriesKept (s t : State) : Prop := (∀ m j, t.thread m j = s.thread m j) ∧ (∀ m, (t.core m).ls = (s.core m).ls) ∧ t.dram = s.dram

/-- The one record that is ready to be numbered: none waits from another source, and no batch launch has any. -/
def onlyRecord (s : State) (r : SubRec) : Prop := s.nextSubs = [r] ∧ s.scarab.subs = [r] ∧ s.scarab.head = none

/-- A lock request names a tile. -/
def onTile (r : LockReq) (space tile : Nat) : Bool := decide (r.space = space ∧ r.tile = tile)

/-- Of the requests of a home for a tile: an R request goes with R requests, any other alone (R81). -/
def lockCompatible (l : List LockReq) : Prop :=
  ∀ a b, a ∈ l → b ∈ l → a.space = b.space → a.tile = b.tile → a.granted = true → b.granted = true → (a.seq, a.entry) ≠ (b.seq, b.entry) →
    a.mode = 1 ∧ b.mode = 1

/-- The requests of a queue are granted in order: one is granted only where those before it for its tile are (R81). -/
def lockOrdered (l : List LockReq) : Prop :=
  ∀ (pre : List LockReq) (r : LockReq) (post : List LockReq), l = pre ++ r :: post → r.granted = true →
    ∀ x ∈ pre, x.space = r.space → x.tile = r.tile → x.granted = true

end Sys2Proof.Claims

/-- R70, R73, R77, R78: a descriptor that passes its checks becomes valid, and one that fails makes its index invalid and sets ERR; the
Scarab numbers a record with batch, package and position, lowers S of its sender and queues it at its dispatch cluster, or holds it back
while a load of a space that it names is under way; a full batch seals. -/
def Sys2Proof.Claims.Numbering : Prop :=
  ∀ s : State, s.alive = true →
    (s.scarab.load = true → s.spaceBusy s.scarab.loading = false → s.scarab.base % 32 = 0 →
      s.devMay 2 (s.scarab.base + 32 * s.scarab.loading) 32 0 = true → let i := s.scarab.loading
      let bs := Claims.descBytes s
      let num := fun o n => leNat ((bs.drop o).take n)
      (Claims.descGood bs → ∃ t x, exec .tsDescriptorLoad s = .next t ∧ tblFind i t.scarab.spaces = some x ∧
        x.vbase = BitVec.ofNat 64 (num 0 8) ∧ x.pbase = num 8 6 ∧ x.log2 = num 14 1 ∧ x.explicit = decide (num 15 1 % 2 = 1) ∧
        x.count = num 16 6 ∧ x.pmap = num 24 6 ∧ (∀ j, j ≠ i → tblFind j t.scarab.spaces = tblFind j s.scarab.spaces) ∧ t.scarab.load = false ∧
        t.scarab.err = false ∧ Claims.memoriesKept s t) ∧
      (¬ Claims.descGood bs → ∃ t, exec .tsDescriptorLoad s = .next t ∧ tblFind i t.scarab.spaces = none ∧
        (∀ j, j ≠ i → tblFind j t.scarab.spaces = tblFind j s.scarab.spaces) ∧ t.scarab.load = false ∧ t.scarab.err = true ∧
        Claims.memoriesKept s t)) ∧
    (s.scarab.load = true → s.spaceBusy s.scarab.loading = true → exec .tsDescriptorLoad s = .next s) ∧
    (∀ r n i gen k, Claims.onlyRecord s r → s.namesLoading r = false → r.src = some (n, i, gen) → r.hexp = true → r.clus = k →
      (s.thread n i).gen.toNat = gen → s.numberFault r k = none → s.scarab.pos + 1 < 4096 →
      (∀ x ∈ s.scarab.txns, x.seq ≠ Claims.nextSeq s) → ∃ t x, exec .scarabNumbering s = .next t ∧ t.scarab.txns = s.scarab.txns ++ [x] ∧
        x.seq = Claims.nextSeq s ∧ x.sub = r ∧ x.cluster = k ∧ t.scarab.pos = s.scarab.pos + 1 ∧ t.scarab.batch = s.scarab.batch ∧
        t.scarab.subs = [] ∧ (t.cluster k).txq = (s.cluster k).txq ++ [Claims.nextSeq s] ∧
        t.thread n i = { s.thread n i with cntS := (s.thread n i).cntS - 1 } ∧ t.dram = s.dram) ∧
    (∀ r, Claims.onlyRecord s r → r.src.isSome → s.namesLoading r = true → ∃ t, exec .scarabNumbering s = .next t ∧
      t.scarab = { s.scarab with head := some r } ∧ t.chan = s.chan ∧ Claims.memoriesKept s t) ∧
    (s.cold.stopped = false → s.cold.req = s.cold.band → ∃ t, exec .batchSeal s = .next t ∧ t.scarab.batch = (s.scarab.batch + 1) % 2 ^ 40 ∧ t.scarab.pos = 0 ∧
      t.scarab.txns = s.scarab.txns ∧ Claims.memoriesKept s t ∧
      t.chan.filterMap (fun p => match p with | .seal h _ g b => some (h, g, b) | _ => none) =
        s.chan.filterMap (fun p => match p with | .seal h _ g b => some (h, g, b) | _ => none) ++
          s.scarab.channels.map (fun c => (c.1, s.scarab.pidx, s.scarab.batch)))

/-- R72, R77, R83: the next transaction of a cluster takes a frame of the core that its dispenser's rotation finds, the frame's header is
written, and a notice goes to the lock home of each of its tiles, which was found at numbering. That it is the lowest free frame, and
that a pre-empted core is passed over, is the model's choice (log entry 20). -/
def Sys2Proof.Claims.FrameAssignment : Prop :=
  ∀ (s : State) (k seq n f : Nat) (rest : List Nat) (x : Txn), s.alive = true → (s.cluster k).txq = seq :: rest → s.txn seq = some x →
    (s.scarab.txns.map (·.seq)).Nodup →
    (rotateAfter (s.cluster k).lastFrameCore (s.coresOf k)).find? (fun m => decide (s.frameNeed x.sub ≤ 2 ^ (s.core m).flog) &&
      (s.core m).freeFrame.isSome && !(s.core m).pre) = some n → (s.core n).freeFrame = some f →
    let base := (s.core n).txb + f * 2 ^ (s.core n).flog
    f < (s.core n).fcnt ∧ (∀ u ∈ (s.core n).frames, u.index ≠ f) ∧ (∀ g < f, ∃ u ∈ (s.core n).frames, u.index = g) ∧
    ∃ t u y, exec (.frameAssignment k) s = .next t ∧ (t.cluster k).txq = rest ∧ (t.core n).frames = (s.core n).frames ++ [u] ∧
      u.index = f ∧ u.seq = seq ∧ u.dirty = [] ∧ t.txn seq = some y ∧ y.core = n ∧ y.frame = f ∧ y.sub = x.sub ∧
      t.lsNum n base 8 = seq % 2 ^ 64 ∧ t.lsWord n (base + 8) = x.sub.args.getD 2 0 ∧ t.lsWord n (base + 16) = x.sub.args.getD 3 0 ∧
      t.lsNum n (base + 24) 4 = 0 ∧ (∀ m j, t.thread m j = s.thread m j) ∧ t.dram = s.dram ∧
      t.chan = s.chan ++ x.sub.entries.map (fun e => .notice (x.home e.1) seq)

/-- R80, R81, R422, R423: at its lock home a request of a batch whose seals are not all there waits, and one whose seals are waits in its
queue in the order of sequence numbers; R requests share a tile and others hold it alone; each overdue seal is reported once, and once
more when it arrives. -/
def Sys2Proof.Claims.LockQueues : Prop :=
  ∀ (s : State), s.alive = true →
    (∀ k h o r, s.chan[k]? = some (.lockReq h o r) → s.cut (.lockReq h o r) = false → s.outOfOrder h o = false → (s.home h).reqs.length + (s.home h).early.length < 16384 →
      (s.home h).outside (seqPkg r.seq) (seqBatch r.seq) = false → (s.home h).early = [] → (∀ q ∈ (s.home h).notices, q ≠ r.seq) →
      r.granted = false → r.sent = false →
      (s.scarab.podm = 0 ∨ (s.home h).missing r.seq = [] →
        ((s.home h).reqs = [] → ∃ t, exec (.lockRequestArrival k) s = .next t ∧ t.chan = s.chan.eraseIdx k ∧ (t.home h).early = [] ∧
          (t.home h).reqs = [{ r with granted := true }] ∧ Claims.memoriesKept s t) ∧
        ((∀ x ∈ (s.home h).reqs, seqBefore r.seq x.seq = false) → ∃ t, exec (.lockRequestArrival k) s = .next t ∧ (t.home h).early = [] ∧
          (t.home h).reqs.map (fun x => (x.seq, x.entry)) = (s.home h).reqs.map (fun x => (x.seq, x.entry)) ++ [(r.seq, r.entry)])) ∧
      (s.scarab.podm ≠ 0 → (s.home h).missing r.seq ≠ [] → ∃ t, exec (.lockRequestArrival k) s = .next t ∧ (t.home h).early = [r])) ∧
    (∀ l, Claims.lockCompatible l → Claims.lockOrdered l → (l.map (fun x => (x.seq, x.entry))).Nodup →
      Claims.lockCompatible (grantAll [] l) ∧ Claims.lockOrdered (grantAll [] l)) ∧
    (∀ k h o p b, s.chan[k]? = some (.seal h o p b) → s.cut (.seal h o p b) = false → s.outOfOrder h o = false → (s.home h).outside p b = false →
      (s.home h).early = [] → ∃ t, exec (.sealArrival k) s = .next t ∧ tblFind p (t.home h).seals = some b ∧
        (∀ q, q ≠ p → tblFind q (t.home h).seals = tblFind q (s.home h).seals) ∧
        (∀ m, m ∈ (t.home h).overdue ↔ m ∈ (s.home h).overdue ∧ m ≠ (p, b)) ∧ Claims.memoriesKept s t ∧
        (h < 256 → (p, b) ∈ (s.home h).overdue → ∃ x, (t.cluster (homeCluster h)).errQ = (s.cluster (homeCluster h)).errQ ++ [x] ∧
          x.kind = 22 ∧ x.val1 = BitVec.ofNat 64 (h + p * 2 ^ 8) ∧ x.val2 = BitVec.ofNat 64 b)) ∧
    ∀ h, h < 256 → let waited := (s.home h).early.flatMap (fun r => (s.home h).missing r.seq)
      ((∀ m ∈ waited, m ∈ (s.home h).overdue) → exec (.sealOverdue h) s = .next s) ∧
      ∀ m ∈ waited, m ∉ (s.home h).overdue → ∃ t x w, exec (.sealOverdue h) s = .next t ∧ w ∈ waited ∧ w ∉ (s.home h).overdue ∧
        (t.home h).overdue = (s.home h).overdue ++ [w] ∧ (t.cluster (homeCluster h)).errQ = (s.cluster (homeCluster h)).errQ ++ [x] ∧
        x.kind = 21 ∧ x.val1 = BitVec.ofNat 64 (h + w.1 * 2 ^ 8) ∧ x.val2 = BitVec.ofNat 64 w.2 ∧ Claims.memoriesKept s t

/-- R82, R84, R130: a notice lets the home send its grants, the parts of a grant's push are read at the home as they are now and land in
the frame's slot, and with the last grant the transaction is ready; the dispenser dispatches it to a thread in `wfw` with its sequence
number, its frame and its arguments, at its PC with bit 0 cleared, which is the model's reading (log entry 17). -/
def Sys2Proof.Claims.GrantsAndDispatch : Prop :=
  ∀ (s : State), s.alive = true →
    (∀ k h seq, s.chan[k]? = some (.notice h seq) → s.cut (.notice h seq) = false → (s.home h).reqs = [] → (s.home h).early = [] → ∃ t,
      exec (.frameNoticeArrival k) s = .next t ∧ t.chan = s.chan.eraseIdx k ∧ (t.home h).notices = (s.home h).notices ++ [seq] ∧
      Claims.memoriesKept s t) ∧
    (∀ k h seq r, s.chan[k]? = some (.notice h seq) → s.cut (.notice h seq) = false → (s.home h).reqs = [r] → (s.home h).early = [] → r.seq = seq → r.granted = true →
      r.sent = false → (s.home h).brokenTile r = false → ∃ t, exec (.frameNoticeArrival k) s = .next t ∧
      t.chan = s.chan.eraseIdx k ++ [.grant seq r.entry false (if r.mode = 2 then {} else pushOf h (2 ^ (s.space r.space).log2))] ∧
      Claims.memoriesKept s t) ∧
    (∀ k seq entry x p, s.chan[k]? = some (.grant seq entry false p) → s.txn seq = some x → (s.core x.core).pre = false →
      s.cut (.grant seq entry false p) = false → (s.scarab.txns.map (·.seq)).Nodup →
      (p.gather = [] → p.land = [] → x.failedGrant = false → ∃ t y, exec (.grantLanding k) s = .next t ∧ t.chan = s.chan.eraseIdx k ∧
        t.txn seq = some y ∧ y.landed = x.landed ++ [entry] ∧ y.sub = x.sub ∧ Claims.memoriesKept s t) ∧
      (p.gather = [] → p.land ≠ [] → ∀ a z, s.slotAt x entry = some (a, z) →
        (∀ o ∈ p.land, s.tableAllows 1 2 (s.windowPa x.core (a + o)) (landSize (x.home entry)) 1 = true) → ∃ t o, exec (.grantLanding k) s = .next t ∧ o ∈ p.land ∧
          (x.home entry < 256 → p.land.head? = some o) ∧ t.chan = s.chan.set k (.grant seq entry false { p with land := p.land.erase o }) ∧
          Claims.storedAt s t x.core (a + o) ((p.bytes.drop o).take (landSize (x.home entry))) ∧ (∀ m j, t.thread m j = s.thread m j) ∧ t.dram = s.dram) ∧
      (p.gather ≠ [] → (∀ o ∈ p.land, o / 256 * 256 ∈ p.gather) → s.dramBad = [] →
        (∀ o ∈ p.gather, s.devMay 2 (s.tilePa x entry + o) 256 0 = true) → ∃ t o, exec (.grantLanding k) s = .next t ∧ o ∈ p.gather ∧
          t.chan = s.chan.set k (.grant seq entry false { p with
            gather := p.gather.erase o
            bytes := p.bytes.take o ++ memRead (s.dramKey (s.tilePa x entry + o)) 256 s.dram ++ p.bytes.drop (o + 256) }) ∧
          Claims.memoriesKept s t)) ∧
    ∀ k d x, s.bestItem k = some d → d.item = none → s.txn d.seq = some x → (s.scarab.txns.map (·.seq)).Nodup →
      anyBad (s.core d.core).lsBad (s.txBase x) 64 = false → ∃ t y, exec (.transactionDispatch k) s = .next t ∧
        let u := t.thread d.core d.slot
        (s.thread d.core d.slot).run = .wfw ∧ u.run = .running ∧ u.pc = x.sub.pc &&& ~~~1#64 ∧ u.wid = x.sub.wid ∧
        u.sreg d.slot 1 = BitVec.ofNat 64 (x.seq % 2 ^ 32) ∧ u.sreg d.slot 2 = BitVec.ofNat 64 (s.txBase x + 256) ∧
        u.sreg d.slot 3 = x.sub.args.getD 0 0 ∧ u.sreg d.slot 4 = x.sub.args.getD 1 0 ∧ u.task.txn = true ∧ u.task.body = some x.seq ∧
        t.txn d.seq = some y ∧ y.stage = .running ∧
        (s.pairedLaunch x.sub.lnch = false → t.lsNum d.core (s.txBase x + 24) 4 = 1 ∧ t.lsNum d.core (s.txBase x + 28) 1 = 1) ∧
        (t.core d.core).epoch = (s.core d.core).epoch + 1 ∧ t.dram = s.dram

/-- R86, R366: a committed segment is written to its tile's bytes; a tile is released once its request and segments have arrived; with
every tile released the frame is free, the FRAME decrement goes out, and a failed transaction waits for its record. -/
def Sys2Proof.Claims.Commits : Prop :=
  ∀ (s : State), s.alive = true →
    (∀ k seq entry pa bs bad, s.chan[k]? = some (.segment seq entry pa bs bad) → s.cut (.segment seq entry pa bs bad) = false →
      (∀ e a b c, .segment seq e a b c ∈ s.chan.take k → s.homeFor a ≠ s.homeFor pa) →
      (s.devMay 2 pa 64 1 = true → ∃ t, exec (.commitSegmentArrival k) s = .next t ∧ t.chan = s.chan.eraseIdx k ∧ Claims.dramGot s t pa bs) ∧
      (s.devMay 2 pa 64 1 = false → ∃ t, exec (.commitSegmentArrival k) s = .next t ∧ t.chan = s.chan.eraseIdx k ∧
        Claims.undisturbed s t)) ∧
    (∀ k seq entry, s.chan[k]? = some (.release seq entry) →
      (s.segmentLeft seq entry = true ∨ s.requestLeft seq entry = true → exec (.tileRelease k) s = .next s) ∧
      (s.entryCut seq entry = false → s.segmentLeft seq entry = false → s.requestLeft seq entry = false → ∀ x, s.txn seq = some x → (s.homes.map (·.1)).Nodup →
        ∃ t y, exec (.tileRelease k) s = .next t ∧ t.txn seq = some y ∧ y.unreleased = x.unreleased.filter (fun e => decide (e ≠ entry)) ∧
          (∀ h, ∀ r ∈ (t.home h).reqs, ¬ (r.seq = seq ∧ r.entry = entry)) ∧ Claims.memoriesKept s t)) ∧
    (∀ k x, s.scarab.txns[k]? = some x → x.stage = .committing → (s.scarab.txns.map (·.seq)).Nodup →
      (x.unreleased ≠ [] → exec (.transactionFrameFree k) s = .next s) ∧
      (x.unreleased = [] → x.failed = false → ∃ t, exec (.transactionFrameFree k) s = .next t ∧ t.txn x.seq = none ∧
        (t.core x.core).frames = (s.core x.core).frames.filter (fun u => decide (u.seq ≠ x.seq)) ∧
        t.chan = s.chan ++ (match x.sub.frame with
          | some f => if x.restarted then [] else [.decrement f x.sub.lnch none (s.txSource x.sub) false]
          | none => []) ∧ Claims.memoriesKept s t)) ∧
    ∀ k x w, s.chan[k]? = some (.tree x w) → ∀ n, s.siteOf x.core = some n → (s.core n).pre = false → s.lsNum n (x.base + 24) 4 ≠ 1 →
      ∃ t, exec (.joinDecrement k) s = .next t ∧ t.chan = s.chan.eraseIdx k ∧
        Claims.storedAt s t n (x.base + 24) (leBytes 4 (s.lsNum n (x.base + 24) 4 - 1)) ∧ (∀ m j, t.thread m j = s.thread m j) ∧ t.dram = s.dram
/-! ## Temperature, power and reset (R7, R32, R78, R334, R336 to R344, R442 to R445, R448) -/

namespace Sys2Proof.Claims

/-- Threads and memories are as before; clocks, engines and power states are another matter. -/
def kept (s t : State) : Prop := t.cores = s.cores ∧ t.dram = s.dram ∧ t.hostMem = s.hostMem ∧ t.flights = s.flights ∧ t.chan = s.chan

/-- The state of reset but for what a reset does not reach (R343, R344, R443): fuses, the device number, the companion's memory and the
trip log. -/
def afterReset (s t : State) : Prop :=
  t.cores = [] ∧ t.dram = [] ∧ t.flights = [] ∧ t.chan = [] ∧ t.launches = [] ∧ t.port = {} ∧ t.scarab = {} ∧ t.storage = {} ∧ t.site = true ∧
    t.booted = false ∧ t.on = true ∧ t.fatal = none ∧ t.enf = false ∧ t.hl = false ∧ t.links = [] ∧ t.corrected = [] ∧
    t.hostMem = s.hostMem ∧ t.fused = s.fused ∧ t.devsn = s.devsn ∧
    t.keyHash = s.keyHash ∧ t.revoked = s.revoked ∧ t.minVersion = s.minVersion ∧ t.cold.trip = s.cold.trip ∧ t.cold.under = false

/-- The hottest of 64 readings, all in service. -/
def hottest (readings : List Nat) : Nat := readings.foldl max 0

/-- Every sensor is in service, and a sample gives it a reading in its range that does not show it stuck (R442). -/
def soundSample (s : State) (readings : List Nat) : Prop :=
  s.cold.failed = [] ∧ readings.length = 64 ∧ (∀ r ∈ readings, 320 ≤ r ∧ r ≤ 5280) ∧ ∀ x ∈ s.cold.stuck, x.1 < 900

/-- The Molt leaves its state for another one (R338). -/
def leaves (s : State) (m : Molt) : State := moltAt s m

end Sys2Proof.Claims

/-- R336, R338, R443: a sample takes the readings, the highest as TMAX; two samples above 92 K in Band C call for Band E, and two above
140 K in Band E for Band W; a reading above 330 K writes the trip log and ends the power. -/
def Sys2Proof.Claims.SensorSamples : Prop :=
  ∀ (s : State) (readings : List Nat), s.on = true → readings.length = 64 → s.cold.failed = [] →
    (Claims.soundSample s readings → let top := Claims.hottest readings
      ∃ t, exec (.sensorSample readings) s = .next t ∧ t.cold.temps = readings ∧ t.cold.tmax = top ∧ t.cold.failed = [] ∧
        (∀ i < 64, t.cold.smax = i → readings.getD i 0 = top) ∧ t.cold.band = s.cold.band ∧ t.cold.time = s.cold.time + 4 ∧
        (s.cold.band = 0 → 1472 < top → 1 ≤ s.cold.over92 → t.cold.req = 1 ∧
          (s.cold.ramping = false → s.cold.molt = .coldReady ∨ s.cold.molt = .coldRun → t.cold.molt = .excursion)) ∧
        (s.cold.band = 1 → 2240 < top → 1 ≤ s.cold.over140 → t.cold.req = 2) ∧
        (s.cold.band = 2 → top ≤ 2192 → 1 ≤ s.cold.under137 → t.cold.req = 1) ∧
        (s.cold.band = 0 → top ≤ 1472 → t.cold.req = s.cold.req) ∧ t.on = true ∧ Claims.kept s t) ∧
    (5280 < Claims.hottest readings → ∃ t i, exec (.sensorSample readings) s = .next t ∧ t.on = false ∧ t.cold.molt = .off ∧
      readings.getD i 0 = Claims.hottest readings ∧
      t.cold.trip = some (s.cold.powerTime + 4, i, s.cold.molt.code, Claims.hottest readings) ∧ Claims.kept s t)

/-- R336, R338 to R340, R444: the Molt moves when what it waits for holds and no ramp limit holds it, and writes a kind 41 record once when it has passed a limit; a
band change stops the clocks at a batch seal and ends with a KIND 8 report. -/
def Sys2Proof.Claims.MoltAndBands : Prop :=
  ∀ s : State, s.on = true →
    (∀ a, s.cold.fallFrom = some a → s.cold.band = 1 → s.cold.req = 1 → a + 10000000 ≤ s.cold.time →
      exec .bandFallTimer s = .next { s with cold := { s.cold with req := 0 } }) ∧
    (s.cold.ramping = true → exec .moltTransition s = .next s) ∧
    (s.cold.ramping = false → s.cold.cmdHeld = 0 →
      (s.cold.molt = .coolPrep → (∀ x ∈ s.launches, x.2.suspended = true) → exec .moltTransition s = .next (Claims.leaves s .cooling)) ∧
      (s.cold.molt = .cooling → s.cold.tmax ≤ 1424 → exec .moltTransition s = .next (Claims.leaves s .soak)) ∧
      (s.cold.molt = .cooling → 1424 < s.cold.tmax → exec .moltTransition s = .next s) ∧
      (s.cold.molt = .coldReady → s.cold.req = 0 → s.awaited = true → exec .moltTransition s = .next (Claims.leaves s .coldRun)) ∧
      (s.cold.molt = .coldRun → s.cold.req = 0 → s.awaited = false → s.cold.warmHeld = false →
        exec .moltTransition s = .next (Claims.leaves s .coldReady)) ∧
      (s.cold.molt = .coldReady ∨ s.cold.molt = .coldRun → s.cold.req ≠ 0 →
        exec .moltTransition s = .next (Claims.leaves s .excursion)) ∧
      (s.cold.molt = .excursion → s.cold.band = 2 → exec .moltTransition s = .next (Claims.leaves s .warming)) ∧
      (s.cold.molt = .excursion → s.cold.band = 0 → s.cold.req = 0 → s.awaited = true →
        exec .moltTransition s = .next (Claims.leaves s .coldRun)) ∧
      (s.cold.molt = .warming → 4480 ≤ s.cold.coolest → exec .moltTransition s = .next (Claims.leaves s .warmService)) ∧
      (s.cold.molt = .off ∨ s.cold.molt = .warmService ∨ s.cold.molt = .soak → exec .moltTransition s = .next s)) ∧
    (∀ a, s.cold.molt = .soak → s.cold.soakFrom = some a → s.cold.trainDead = false → s.cold.ramping = false → s.cold.band = 0 →
      s.cold.warmHeld = false →
      (a + 120000000 ≤ s.cold.time → exec (.soakComplete none) s = .next (Claims.leaves s .coldReady)) ∧
      (s.cold.time < a + 120000000 → ∀ k, exec (.soakComplete k) s = .next s)) ∧
    (∀ l, s.cold.molt.limit = some l → s.cold.limited = false → ¬ (s.cold.molt = .soak ∧ s.cold.trainDead = true) → l ≤ (s.cold.time - s.cold.entered) / 1000000 →
      ∃ t r, exec .moltLimitExpiry s = .next t ∧ t.cold = { s.cold with limited := true } ∧
        (t.cluster 0).errQ = (s.cluster 0).errQ ++ [r] ∧ r.kind = 41 ∧ r.val1 = BitVec.ofNat 64 s.cold.molt.code ∧
        r.val2 = BitVec.ofNat 64 ((s.cold.time - s.cold.entered) / 1000000) ∧ Claims.kept s t) ∧
    (s.fatal = none → s.cold.stopped = false →
      (s.cold.req < s.cold.band → ∃ t, exec .batchSeal s = .next t ∧ t.cold = { s.cold with stopped := true, nextBand := s.cold.band - 1 } ∧
        (∀ m j, t.thread m j = s.thread m j)) ∧
      (s.cold.band = 0 → s.cold.req ≠ 0 → ∃ t, exec .batchSeal s = .next t ∧ t.cold = { s.cold with stopped := true, nextBand := 1 } ∧
        (∀ m j, t.thread m j = s.thread m j))) ∧
    (s.fatal = none → s.cold.stopped = true → ∃ t r, exec .clockRestart s = .next t ∧ t.cold.stopped = false ∧
      t.cold.band = s.cold.nextBand ∧ t.cold.lastTime = s.cold.time ∧ t.cold.lastFrom = s.cold.band ∧ t.cold.lastTo = s.cold.nextBand ∧
      t.port.reports = s.port.reports ++ [r] ∧ r.kind = 8 ∧ (∀ m j, t.thread m j = s.thread m j) ∧ t.dram = s.dram)

/-- R7, R334, R338, R342, R343, R448: power-on and reset give the reset state, with the Molt and the band that the temperature decides;
stacks, clusters and arrays power up one after another; loss of power leads to OFF. -/
def Sys2Proof.Claims.PowerAndReset : Prop :=
  ∀ (s : State) (readings : List Nat),
    (s.on = false → readings.length = 64 → ∃ t, exec (.powerOn readings) s = .next t ∧ Claims.afterReset s t ∧ t.cold.failed = [] ∧
      t.cold.molt = (if 2240 < Claims.hottest readings then .warmService else if 1424 < Claims.hottest readings then .cooling else .soak)) ∧
    (s.on = true → ∃ t, exec (.packageReset readings) s = .next t ∧ Claims.afterReset s t ∧ t.cold.failed = s.cold.failed) ∧
    exec .powerLoss s = .next { s with on := false, cold := { s.cold with molt := .off } } ∧
    (s.alive = true → (s.powered < 136 → exec .unitPowerUp s = .next { s with powered := s.powered + 1 }) ∧
      (136 ≤ s.powered → s.arrays < 128 → s.cold.holdOff = false → s.cold.band ≠ 2 →
        exec .unitPowerUp s = .next { s with arrays := s.arrays + 1 })) ∧
    (∀ b, s.on = true → exec (.packagePowerCap b) s = .next { s with cold := { s.cold with overCap := b } })

/-- R411, R445: eight corrections in a second lower a governor's step, freeze it and write a kind 42 record; a frozen one at step 0 writes one
kind 43 record when it lasts; 60 quiet seconds raise the step of one that is not frozen. -/
def Sys2Proof.Claims.Governors : Prop :=
  ∀ (s : State) (n j : Nat), s.alive = true → n < 2048 → let g := (s.core n).gov
    let k := g.count + j
    let put := fun (x : Gov) => { s.core n with gov := x }
    (8 ≤ k → 0 < g.step → ∃ t r, exec (.governorTick n j) s = .next t ∧
      t.core n = put { step := g.step - 1, frozen := true, quiet := 0, prev := 0, count := 0 } ∧
      (t.cluster (clusterOf n)).errQ = (s.cluster (clusterOf n)).errQ ++ [r] ∧ r.kind = 42 ∧ r.val2 = BitVec.ofNat 64 (g.step - 1) ∧
      (∀ m, m ≠ n → t.core m = s.core m)) ∧
    (8 ≤ k → g.step = 0 → g.frozen = true → g.prev = 1 → ∃ t r, exec (.governorTick n j) s = .next t ∧
      t.core n = put { g with quiet := 0, prev := 2, count := 0 } ∧ (t.cluster (clusterOf n)).errQ = (s.cluster (clusterOf n)).errQ ++ [r] ∧
      r.kind = 43 ∧ r.val2 = BitVec.ofNat 64 k ∧ (∀ m, m ≠ n → t.core m = s.core m)) ∧
    (k = 0 → g.frozen = false → 59 ≤ g.quiet → g.step < 6 → ∃ t, exec (.governorTick n j) s = .next t ∧
      (t.core n).gov.step = g.step + 1 ∧ (t.core n).threads = (s.core n).threads ∧ (∀ m, m ≠ n → t.core m = s.core m)) ∧
    (k < 8 → g.frozen = true → ∃ t, exec (.governorTick n j) s = .next t ∧ (t.core n).gov.step = g.step ∧ (t.core n).gov.frozen = true)
/-! ## Links, outside masters and drives (R137, R310, R321, R324, R328 to R330, R405, R432, R436 to R441, R449) -/

namespace Sys2Proof.Claims

/-- Nothing but an error record of a kind has been added, in the queue of a cluster (R449). -/
def noted (s t : State) (k kind : Nat) (v1 v2 : Word) : Prop := ∃ r, t = s.record k r ∧ r.kind = kind ∧ r.val1 = v1 ∧ r.val2 = v2

/-- The die of a scale-up link writes its records (R22): links 9 to 17 are the east die's. -/
def linkDie (l : Nat) : Nat := if 9 ≤ l then 64 else 0

/-- A fabric link with its new fields. -/
def linked (s : State) (l : Nat) (x : Link) : State := { s with links := tblSet l x s.links }

/-- What had left on a link goes out again (R439). -/
def resent (s : State) (l : Nat) : State :=
  { s with flights := s.flights.map (fun f => if f.via = some l then { f with via := none } else f)
           flows := s.flows.filter (fun x => decide (x.2 ≠ l)) }

/-- An access whose payload arrives poisoned, with its kind 17 record and the code of what failed: the record is the thread's, in its
cluster's queue, or without a thread in that of a cluster (R429, R430, R439). -/
def payloadLost (s t : State) (k : Nat) (f g : Flight) (code found c : Nat) : Prop :=
  ∃ r, t = State.record { s with flights := s.flights.set k g } (if f.slot < 16 then clusterOf f.site else c) r ∧ r.kind = 17 ∧ r.cause = code ∧
    r.val1 = BitVec.ofNat 64 (f.pa % 2 ^ 48) ∧ r.val2 = BitVec.ofNat 64 found

/-- The number of lanes that work together after training (R438). -/
def trainedTo (lanes w : Nat) : Prop :=
  (w = 4 ∧ lanes = 15) ∨ (w = 2 ∧ lanes ≠ 15 ∧ (lanes % 4 = 3 ∨ lanes / 4 % 4 = 3)) ∨ (w = 0 ∧ lanes % 4 ≠ 3 ∧ lanes / 4 % 4 ≠ 3)

/-- An access of one naturally aligned piece (R99). -/
def onePiece (pa n : Nat) : Prop := n ∈ [1, 2, 4, 8, 16, 32, 64] ∧ pa % n = 0

/-- The queue engine's command, sent and not completed. -/
def sentCmd (s : State) (c : Cmd) : Prop :=
  c.sent = true ∧ c.done = none ∧ s.storage.cmds = [c]

end Sys2Proof.Claims

/-- R432, R433, R449: 16 replays in a row start a retrain; it ends with a kind 32 record, or takes the link down with a kind 33 record when
it is the third in a run, and the host-window accesses that are under way are then refused; a link that comes up again writes kind 34. -/
def Sys2Proof.Claims.UlisilLink : Prop :=
  ∀ s : State, s.on = true →
    (∀ n, s.ulisil.up = true → s.ulisil.retraining = false →
      (16 ≤ n → exec (.ulisilFlitCrcError n) s = .next { s with ulisil := { s.ulisil with retraining := true, replays := n } }) ∧
      (n < 16 → exec (.ulisilFlitCrcError n) s = .next s)) ∧
    (∀ good, s.ulisil.retraining = true → let run := if good < 1000 then s.ulisil.retrains + 1 else 1
      (run < 3 → ∃ t, exec (.ulisilRetrainEnd good) s = .next t ∧
        Claims.noted { s with ulisil := { s.ulisil with retraining := false, retrains := run } } t 0 32 (BitVec.ofNat 64 s.ulisil.replays)
          (BitVec.ofNat 64 run)) ∧
      (3 ≤ run → ∃ t, exec (.ulisilRetrainEnd good) s = .next t ∧
        Claims.noted { s with ulisil := { s.ulisil with up := false, retraining := false, retrains := 0 }
                              flights := s.flights.map s.hostLost } t 0 33 (BitVec.ofNat 64 s.cold.time) 0)) ∧
    (s.ulisil.up = false → (∃ t, exec (.ulisilUpAttempt true) s = .next t ∧
        Claims.noted { s with ulisil := { up := true, retraining := false, replays := 0, retrains := 0 } } t 0 34
          (BitVec.ofNat 64 s.cold.time) 0) ∧
      exec (.ulisilUpAttempt false) s = .next s) ∧
    (s.ulisil.up = true → ∀ b, exec (.ulisilUpAttempt b) s = .next s)

/-- R328, R405, R429, R438 to R441, R448: a mesh flit is retried 8 times, then its payload is poisoned with a kind 17 record, and a bad header
stops the package; a fabric link that loses a lane retrains at a lower width, with kind 38 records of each change; an access without a path fails with WHY 5. -/
def Sys2Proof.Claims.FlitsAndFabric : Prop :=
  ∀ (s : State), s.alive = true →
    (∀ k n b, n < 8 → exec (.meshFlitError k n b) s = .next s) ∧
    (∀ k n, 8 ≤ n → ∃ t c, exec (.meshFlitError k n true) s = .next t ∧ t = { s with fatal := some (1, c, s.cold.time), tick := s.tick + 1 }) ∧
    (∀ k n f, 8 ≤ n → s.flights[k]? = some f → f.stage = .request → f.kind = .store ∨ f.kind = .writeback → f.bad ≠ 0xFF → ∃ t,
      exec (.meshFlitError k n false) s = .next t ∧
        Claims.payloadLost s t k f { f with bad := 0xFF } 9 (if f.isWriteback then 5 else 1) (clusterOf f.site)) ∧
    (∀ k n f, 8 ≤ n → s.flights[k]? = some f → f.stage = .reply none → f.kind = .load → ∃ t,
      exec (.meshFlitError k n false) s = .next t ∧ Claims.payloadLost s t k f { f with stage := .reply (some 0) } 9 1 (clusterOf f.site)) ∧
    (∀ l, l < 18 → let x := s.link l
      (∀ i < 4, x.st ≠ 0 → x.lanes.testBit i = true →
        exec (.fabricLaneFailure l i) s = .next (Claims.linked s l { x with st := 1, lanes := x.lanes - 2 ^ i, cost := 255 })) ∧
      (x.st = 1 → x.lanes < 16 → ∀ w, Claims.trainedTo x.lanes w → let y : Link := { x with
            st := if w = 0 then 0 else 2, width := w, cost := if w = 4 then 1 else if w = 2 then 2 else 255, window := 128 * w }
        ∃ t, exec (.fabricRetrainEnd l) s = .next t ∧
          Claims.noted (if w = 0 then Claims.resent (Claims.linked s l y) l else Claims.linked s l y) t (Claims.linkDie l) 38 (BitVec.ofNat 64 x.flstat) (BitVec.ofNat 64 y.flstat)) ∧
      (∀ good : BitVec 4, x.st = 2 → x.width = 2 → x.lanes < 16 → (x.lanes ||| good.toNat) = 15 →
        exec (.fabricLaneTest l good) s = .next (Claims.linked s l { x with st := 1, lanes := 15, cost := 255 })) ∧
      (∀ good : BitVec 4, x.st = 2 → x.lanes < 16 → x.width ≠ 2 ∨ (x.lanes ||| good.toNat) ≠ 15 →
        exec (.fabricLaneTest l good) s = .next s) ∧
      (∀ k, x.st = 2 → let y : Link := { x with st := 0, width := 0, cost := 255, window := 0 }
        ∃ t, exec (.fabricFlitError l k true) s = .next t ∧
          Claims.noted (Claims.resent (Claims.linked s l y) l) t (Claims.linkDie l) 38 (BitVec.ofNat 64 x.flstat) (BitVec.ofNat 64 y.flstat)) ∧
      (∀ k f, x.st = 2 → s.flights[k]? = some f → f.via = some l → f.stage = .request → f.kind = .store → f.bad ≠ 0xFF → ∃ t,
        exec (.fabricFlitError l k false) s = .next t ∧ Claims.payloadLost s t k f { f with bad := 0xFF } 12 1 (Claims.linkDie l)) ∧
      (∀ k f, x.st = 2 → s.flights[k]? = some f → f.via ≠ some l → exec (.fabricFlitError l k false) s = .next s) ∧
      (∀ (lanes : BitVec 4) (peer : Byte) (pl : BitVec 5) w, x.st = 0 → Claims.trainedTo lanes.toNat w → w ≠ 0 →
        let y : Link := { st := 2, lanes := lanes.toNat, width := w, peer := peer.toNat, plink := pl.toNat,
                          cost := if w = 4 then 1 else 2, window := 128 * w }
        ∃ t, exec (.fabricLinkUp l lanes peer pl) s = .next t ∧
          Claims.noted (Claims.linked s l y) t (Claims.linkDie l) 38 (BitVec.ofNat 64 x.flstat) (BitVec.ofNat 64 y.flstat))) ∧
    (∀ k f, s.flights[k]? = some f → f.stage = .request → f.pa / 2 ^ 40 % 256 ≠ s.scarab.pidx → f.via = none →
      (∀ l < 18, (tblGet 0 (f.pa / 2 ^ 40 % 256) s.froute).testBit l = true → (s.link l).st ≠ 2) →
      (f.kind = .load ∨ f.kind = .store → exec (.fabricFlowTimeout k) s = .next { s with
        flights := s.flights.set k { f with stage := .refusal 5 } }) ∧
      (f.kind = .writeback → exec (.fabricFlowTimeout k) s = .next s)) ∧
    ∀ (port : BitVec 4) (b : Bool) (qp : BitVec 24) (syn : BitVec 32) (v : Word), ∃ t, exec (.scaleoutEvent port b qp syn v) s = .next t ∧
      Claims.noted s t (if 8 ≤ port.toNat then 64 else 0) 39
        (BitVec.ofNat 64 (port.toNat + qp.toNat * 2 ^ 8 + syn.toNat * 2 ^ 32)) v

/-- R137, R321, R330, R331, R441: a companion's write reaches the bytes that it names, and a read changes no byte; one that the map or
a table refuses does nothing; RDMA reaches DRAM only, through its own access table, and bad data is not accepted. -/
def Obligations.OutsideMasters : Prop :=
  ∀ (s : State) (a : Word) (bs : List Byte) (n : Nat),
    (s.hostUp = true → Claims.onePiece a.toNat bs.length →
      (s.outsideTarget 4 a.toNat bs.length 1 = some .dram →
        ∃ t, exec (.companionWrite a bs) s = .next t ∧ Claims.dramGot s t a.toNat bs) ∧
      (s.outsideTarget 4 a.toNat bs.length 1 = some .host → ∃ t, exec (.companionWrite a bs) s = .next t ∧
        (∀ j < bs.length, memGet (s.hostAddr a.toNat + j) t.hostMem = bs.getD j 0) ∧ t.dram = s.dram ∧ t.cores = s.cores)) ∧
    (s.hostUp = true → Claims.onePiece a.toNat n → s.outsideTarget 4 a.toNat n 0 = some .dram →
      ∃ t, exec (.companionRead a n) s = .next t ∧ t.dram = s.dram ∧ t.cores = s.cores ∧ t.hostMem = s.hostMem ∧ t.flights = s.flights) ∧
    (s.outsideTarget 4 a.toNat bs.length 1 = none → exec (.companionWrite a bs) s = .next s) ∧
    (s.outsideTarget 4 a.toNat n 0 = none → exec (.companionRead a n) s = .next s) ∧
    (s.alive = true →
      (Claims.onePiece a.toNat bs.length → inDram a.toNat bs.length = true → a.toNat / 2 ^ 40 % 256 = s.scarab.pidx →
        s.tableAllows 6 6 a.toNat bs.length 1 = true → s.outsideTarget 6 a.toNat bs.length 1 = some .dram →
        ∃ t, exec (.rdmaInbound true false a bs) s = .next t ∧ Claims.dramGot s t a.toNat bs) ∧
      exec (.rdmaInbound true true a bs) s = .next s ∧
      (inDram a.toNat bs.length = false ∨ s.tableAllows 6 6 a.toNat bs.length 1 = false → ∀ bad,
        exec (.rdmaInbound true bad a bs) s = .next s))

/-- R310, R324, R436, R437: a completion that a controller signals gives the command its status, with its data in the buffer; it enters
the issuer's mailbox when that has room; an overdue command is reported and aborted, a lost controller
is reported once, and its commands end with ENG 3. Where the result and the tag stand in a completion entry is presumed (log entry 15). -/
def Obligations.StorageEvents : Prop :=
  ∀ (s : State) (c : Cmd), s.alive = true → c.qp < 64 →
    (Claims.sentCmd s c → ∀ (st : BitVec 15) (dw0 : BitVec 32), let at_ := s.stq (0x400000 + 0x4000 * c.qp + 16 * tblGet 0 c.qp s.storage.heads)
      s.devMay 3 at_ 16 1 = true →
      (c.opc = 0 ∨ c.opc = 8 → ∃ t bs, exec (.nvmeCompletion c.qp c.tag st dw0 [] []) s = .next t ∧ Claims.dramGot s t at_ bs ∧
        bs.length = 16 ∧ bs.take 4 = leBytes 4 dw0.toNat ∧ (bs.drop 12).take 2 = leBytes 2 c.tag ∧
        t.storage = { s.storage with cmds := [{ c with done := some (st.toNat, 0, dw0.toNat) }]
                                     heads := tblSet c.qp ((tblGet 0 c.qp s.storage.heads + 1) % 1024) s.storage.heads
                                     aborts := s.storage.aborts.filter (fun a => decide (a.2 ≠ (c.qp, c.tag))) }) ∧
      (∀ p data, c.opc = 2 → st = 0 → c.pages = [p] → data.length = c.size → c.size ≤ 4096 → p % 4096 = 0 → p + 4096 ≤ 0x7735940000 →
        s.scarab.pidx = 0 → s.enf = false → s.dramKey at_ + 16 ≤ p ∨ p + 4096 ≤ s.dramKey at_ →
        ∃ t, exec (.nvmeCompletion c.qp c.tag st dw0 data []) s = .next t ∧ (∀ j < c.size, memGet (p + j) t.dram = data.getD j 0) ∧
          t.storage.cmds = [{ c with done := some (0, 0, dw0.toNat) }] ∧ t.cores = s.cores)) ∧
    (∀ k x eng d0, s.storage.cmds = [c] → k = 0 → c.done = some (x, eng, d0) → (s.core c.site).pre = false → x < 2 ^ 15 → eng < 256 →
      c.slot < 16 → c.tag < 2 ^ 16 →
      let u := s.thread c.site c.slot
      let w : Word := BitVec.ofNat 64 (c.tag + x * 2 ^ 16 + eng * 2 ^ 32 + c.qp * 2 ^ 40)
      (u.gen.toNat = c.gen → u.busyTask = true → (∀ j, u.run ≠ .failing j) → Claims.mailRoom u c.hi →
        ∃ t e, exec (.storageCompletionDelivery k) s = .next t ∧ t.thread c.site c.slot = Claims.withMail u c.hi e ∧ e.kind = 3 ∧
          e.payload = [w, BitVec.ofNat 64 d0, c.slba, 0] ∧ t.storage = { s.storage with cmds := [] } ∧
          (∀ m j, (m, j) ≠ (c.site, c.slot) → t.thread m j = s.thread m j) ∧ t.dram = s.dram) ∧
      (u.gen.toNat = c.gen → u.busyTask = true → (∀ j, u.run ≠ .failing j) → ¬ Claims.mailRoom u c.hi →
        exec (.storageCompletionDelivery k) s = .next s) ∧
      (u.gen.toNat ≠ c.gen → ∃ t, exec (.storageCompletionDelivery k) s = .next t ∧
        Claims.noted { s with storage := { s.storage with cmds := [] } } t 64 35 w c.slba)) ∧
    (Claims.sentCmd s c → c.tag < 2 ^ 16 →
      (c.late = false → ∃ t, exec (.nvmeCommandTimeout 0) s = .next t ∧
        Claims.noted { s with storage := { s.storage with cmds := [{ c with late := true }]
                                                          aborts := s.storage.aborts ++ [(c.ctl, c.qp, c.tag)] } } t 64 36
          (BitVec.ofNat 64 (c.tag + c.qp * 2 ^ 16)) c.slba) ∧
      (c.late = true → exec (.nvmeCommandTimeout 0) s = .next s) ∧
      ∀ h, c.ctl < 16 →
        (c.ctl ∈ s.storage.lostCtl → exec (.nvmeControllerLost c.ctl h) s = .next s) ∧
        (c.ctl ∉ s.storage.lostCtl → ∃ t qs, exec (.nvmeControllerLost c.ctl h) s = .next t ∧
          (∀ q, q ∈ qs ↔ q = c.qp ∨ (q < 64 ∧ bit (s.storage.pair q) 0 = true ∧ bits (s.storage.pair q) 5 4 = c.ctl)) ∧
          t.storage.cmds = [{ c with done := some (0, 3, 0) }] ∧
          (c.opc ≠ 2 → Claims.noted { s with storage := { s.storage with
            cmds := [{ c with done := some (0, 3, 0) }], lost := (s.storage.lost ++ qs).eraseDups, lostCtl := s.storage.lostCtl ++ [c.ctl]
            recreated := s.storage.recreated.filter (fun q => !qs.contains q)
            aborts := s.storage.aborts.filter (fun a => decide (a.1 ≠ c.ctl)) } } t 64 37 (BitVec.ofNat 64 c.ctl) 1)))
/-! ## The machine as a whole (R7, R32, R34, R35, R91, R99, R169 to R173, R178, R353, R407) -/

namespace Sys2Proof.Claims

/-- A register waits for a load. -/
def isWaiting (s : State) (d : BitVec 5) : Prop := ∃ x ∈ s.th.pend, x.1 = s.th.abs (.s d.toNat)

/-- The thread's slot stays empty, and nothing else has changed (R34). -/
def slotEmpty (s : State) : State := s.setTh { s.th with run := .stalled, qblock := none }

/-- The issuing thread is no member of a pair, its queue names are off, it is in no reconnaissance pass and in the middle of no
instruction. -/
def alone (s : State) : Prop := s.th.pair = 0 ∧ s.th.qmap = false ∧ s.th.inRecon = false ∧ s.th.phase = 0

/-- A register of the issuing thread fails parity (R405). -/
def isBad (s : State) (r : RegName) : Prop := s.th.abs r ∈ s.th.regBad

/-- A word that reads a bad register, which it names by number n, fails its thread with CAUSE 3, and has no other effect (R407). -/
def parityFails (s : State) (i : Instr) (n : Nat) : Prop :=
  ∃ t f x, exec i s = .next t ∧ t.th.run = .failing f ∧ t.th.fail = some x ∧ x.cause = 3 ∧ x.pc = s.th.pc ∧ x.val1 = 0 ∧
    x.val2 = BitVec.ofNat 64 (1 + n * 256) ∧ (∀ n, t.reg n = s.reg n) ∧ t.co.ls = s.co.ls ∧ elsewhere s t

/-- Words that read one scalar register. -/
def oneSource (k : BitVec 12) (n : BitVec 6) (o : BitVec 15) (a d : BitVec 5) : List Instr :=
  immWords.map (fun r => r.1 k a d) ++ shiftWords.map (fun r => r.1 n a d) ++ localLoads.map (fun r => r.1 k a d) ++
    deviceLoads.map (fun r => r.1 k a d) ++ branchWords.map (fun r => r.1 o a)

/-- Stores, which read their data and then their address. -/
def storing (k : BitVec 12) (a d : BitVec 5) : List Instr := (localStores ++ deviceStores).map (fun r => r.1 k a d)

/-- The issuing thread runs in a reconnaissance pass, and waits for nothing else (R91). -/
def inPass (s : State) : Prop :=
  s.th.pend = [] ∧ s.th.regBad = [] ∧ s.th.pair = 0 ∧ s.th.qmap = false ∧ s.th.inRecon = true ∧ s.th.phase = 0

/-- The word that four bytes of DRAM hold from an address up: a halfword, or two when its low bits are 11 (R4, R169). -/
def wordAt (m : Memory) (a : Nat) : Code :=
  let h := fun k => memGet (a + k + 1) m ++ memGet (a + k) m
  if (h 0).extractLsb' 0 2 = 3 then .long (h 2 ++ h 0) else .half (h 0)

/-- The slot of a core's present cycle may issue: its thread runs, no trap is due, and it owes no cycles (R32, R361). -/
def slotRuns (s : State) : Prop := s.th.run = .running ∧ s.th.due = [] ∧ s.th.busy = 0

/-- Encodings that the spec writes out, one or more for each family. -/
noncomputable def spelled : List (BitVec 32 × Instr) :=
  [(0x005A9483, .add 0 11 10 1 9), (0x02A50507, .addi 42 10 10), (0x0100B493, .ldD 16 1 9), (0x0000B513, .ldD 0 1 10),
   (0x0000003F, .nop), (0x2000006B, .epoch), (0x0848801F, .amoAdd 0 0 0 9 2 0 0), (0x0C52401F, .amoAdd 1 0 0 10 9 0 0),
   (0x00508663, .spawn 10 2 12), (0x10028063, .await 10), (0x18000063, .quit), (0x00025667, .sendHi 9 12),
   (0x840284DB, .nvsub 4 10 9), (0x035490C3, .vadd 3 2 1 9 2 1), (0xFFF482AF, .lpNz 0x7FFA 8),
   (0x000051CF, .vld 0 1 2 3), (0x041004DB, .mergeAdd 4 1 0 9), (0x291890DF, .kaccAddV64 1 3 2 1)]

end Sys2Proof.Claims

/-- R31, R32, R169, R171, R353: a step gives one core its cycle: the slot of the cycle executes the instruction that the bytes at its PC
decode to, a word that no row assigns takes the illegal-instruction trap, and the cycle ends; or it is one event of another agent, or an
error or an access from outside. What counts as one turn, and which comes next, is the model's choice (log entries 1 and 26). In site mode
the bytes are those of DRAM at the PC, and no slot issues before the image has been verified: that no instruction of the boot ROM shows is
the model's reading (log entry 6). -/
def Obligations.StepRunsTheDecodedInstruction : Prop :=
  ∀ (s s1 : State),
    (∀ n, s.nextTurn = (.core n, s1) → s1.clocked n = true → (s1.core n).pre = false → (s1.site = true → s1.booted = true) →
      let u : State := { s1 with cur := (n, (s1.core n).cyc % 16) }
      Claims.slotRuns u → ∀ c u1, u.fetch = .ok (c, u1) →
        (∀ i k rest, decode c.toBytes = .ok (i, k, rest) → ∀ t, exec i u1 = .next t → step s = .next ((t.watch n).endCycle n)) ∧
        (∀ e, decode c.toBytes = .error e →
          step s = .next (((u1.live.trapOr 1 (c.bits.setWidth 64)).watch n).endCycle n))) ∧
    (∀ n, s.nextTurn = (.core n, s1) → s1.clocked n = true → s1.site = true → s1.booted = false → step s = .next (s1.endCycle n)) ∧
    (∀ x, s.nextTurn = (.outside x, s1) → step s = .next (s1.outside x)) ∧
    (∀ i, s.nextTurn = (.event i, s1) → i.isWord = false → atIssue i = false → step s = exec i s1) ∧
    (s.site = true → s.enf = false → s.dramBad = [] → s.scarab.pidx = 0 → (∀ h, (s.home h).ring.en = false) → s.th.pc.toNat + 4 ≤ 0x7735940000 →
      s.fetch = .ok (Claims.wordAt s.dram s.th.pc.toNat, s))

/-- R169, R172 to R177: encodings that the spec writes out decode to the instructions that they stand for. -/
def Obligations.WordsDecode : Prop :=
  (∀ x ∈ Claims.spelled, (decode32 x.1).toOption = some x.2) ∧ (decode16 0x0A68).toOption = some (.cAdd 9 10) ∧
    (decode [0, 0, 0, 0]).toOption = none ∧ (decode16 0).toOption = none

/-- R172, R176: every instruction whose fields the encoding admits is what its own word decodes to, with every operand. -/
def Obligations.DecodeAfterEncode : Prop :=
  ∀ i : Instr, i.isWord = true → i.wellFormed = true → ∀ rest,
    decode ((encode i).toBytes ++ rest) = .ok (i, (encode i).bytes, rest)

/-- R34, R173, R407: a word that names a pending register, or whose governing predicate is pending, leaves its slot empty; one that reads a
register with bad parity fails its thread with CAUSE 3, and a word under a false predicate reads that predicate only. -/
def Obligations.PendingAndPoisonedRegisters : Prop :=
  ∀ (s : State) (p : BitVec 3) (w : BitVec 2) (k : BitVec 12) (m : BitVec 6) (o : BitVec 15) (b a d : BitVec 5), Claims.alone s →
    (Claims.isWaiting s a ∨ Claims.isWaiting s b ∨ Claims.isWaiting s d →
      ∀ r ∈ Claims.rg2Words, exec (r.1 p b a w d) s = .next (Claims.slotEmpty s)) ∧
    (Claims.isWaiting s a ∨ Claims.isWaiting s d → ∀ r ∈ Claims.rg1Words, exec (r.1 p a w d) s = .next (Claims.slotEmpty s)) ∧
    ((∃ x ∈ s.th.pend, x.1 = .p p.toNat) →
      (∀ r ∈ Claims.rg2Words, exec (r.1 p b a w d) s = .next (Claims.slotEmpty s)) ∧
      ∀ r ∈ Claims.rg1Words, exec (r.1 p a w d) s = .next (Claims.slotEmpty s)) ∧
    (Claims.isWaiting s a ∨ Claims.isWaiting s d →
      (∀ r ∈ Claims.immWords, exec (r.1 k a d) s = .next (Claims.slotEmpty s)) ∧
      (∀ r ∈ Claims.shiftWords, exec (r.1 m a d) s = .next (Claims.slotEmpty s)) ∧
      (∀ r ∈ Claims.localLoads ++ Claims.localStores ++ Claims.deviceStores, exec (r.1 k a d) s = .next (Claims.slotEmpty s)) ∧
      ∀ r ∈ Claims.deviceLoads, exec (r.1 k a d) s = .next (Claims.slotEmpty s)) ∧
    (Claims.isWaiting s a → ∀ r ∈ Claims.branchWords, exec (r.1 o a) s = .next (Claims.slotEmpty s) ∧
      exec (r.2.1 o a) s = .next (Claims.slotEmpty s)) ∧
    (s.th.pend = [] → s.th.fail = none →
      (Claims.isBad s (.p p.toNat) → (∀ r ∈ Claims.rg2Words, Claims.parityFails s (r.1 p b a w d) p.toNat) ∧
        ∀ r ∈ Claims.rg1Words, Claims.parityFails s (r.1 p a w d) p.toNat) ∧
      (¬ Claims.isBad s (.p p.toNat) → (s.th.preg p.toNat).getLsbD 0 = false →
        (∀ r ∈ Claims.rg2Words, exec (r.1 p b a w d) s = .next (s.went 4)) ∧
        ∀ r ∈ Claims.rg1Words, exec (r.1 p a w d) s = .next (s.went 4)) ∧
      (¬ Claims.isBad s (.p p.toNat) → (s.th.preg p.toNat).getLsbD 0 = true →
        (Claims.isBad s (.s a.toNat) → (∀ r ∈ Claims.rg2Words, Claims.parityFails s (r.1 p b a w d) a.toNat) ∧
          ∀ r ∈ Claims.rg1Words, Claims.parityFails s (r.1 p a w d) a.toNat) ∧
        (¬ Claims.isBad s (.s a.toNat) → Claims.isBad s (.s b.toNat) →
          ∀ r ∈ Claims.rg2Words, Claims.parityFails s (r.1 p b a w d) b.toNat)) ∧
      (Claims.isBad s (.s a.toNat) → ∀ i ∈ Claims.oneSource k m o a d, Claims.parityFails s i a.toNat) ∧
      (Claims.isBad s (.s d.toNat) → ∀ i ∈ Claims.storing k a d, Claims.parityFails s i d.toNat) ∧
      (¬ Claims.isBad s (.s d.toNat) → Claims.isBad s (.s a.toNat) → ∀ i ∈ Claims.storing k a d, Claims.parityFails s i a.toNat))

/-- R91: in a reconnaissance pass messages, write-backs, engine operations, storage commands and submissions are suppressed, with no
change but the PC, and a device store is discarded. That a suppressed `nvsub` leaves sD and makes no check, and that a discarded store makes no
translation, is the model's choice (log entry 22). -/
def Sys2Proof.Claims.PassSuppresses : Prop :=
  ∀ s : State, Claims.inPass s → ∀ (a b d : BitVec 5) (x : BitVec 3) (m : BitVec 2) (i : BitVec 12) (e c : BitVec 4) (j : BitVec 6),
    (∀ w ∈ [Instr.sendLo a d, .sendHi a d, .txsub b a d, .nvsub x a d, .l1wb, .l1wbL a, .mgeo b a, .mwfmt x, .mwld a, .macc x b a m,
        .krel], exec w s = .next (s.went 4)) ∧
    (∀ r ∈ Claims.deviceStores, exec (r.1 i a d) s = .next (s.went 4)) ∧ exec (.stZ i a) s = .next (s.went 4) ∧
    exec (.cStD e c) s = .next (s.went 2) ∧ exec (.cStDSp e j) s = .next (s.went 2)

/-- R91, R102: in a pass a local store acts in the two scratch ranges, WSN × 0x1000 to TXB and SCRB to HVB; elsewhere it is discarded, and past
the local store it takes the range trap. -/
def Sys2Proof.Claims.PassStoresScratch : Prop :=
  ∀ s : State, Claims.inPass s → s.site = false → ∀ r ∈ Claims.localStores, ∀ (i : BitVec 12) (a d : BitVec 5),
    let la := (s.reg a.toNat + i.signExtend 64).toNat
    (0x80000 < la + r.2 → exec (r.1 i a d) s = .next (Claims.trapped s 11 (s.reg a.toNat + i.signExtend 64))) ∧
    (la + r.2 ≤ 0x80000 → (s.co.wsn * 0x1000 ≤ la ∧ la + r.2 ≤ s.co.txb) ∨ (s.co.scrb ≤ la ∧ la + r.2 ≤ s.co.hvb) →
      ∃ t, exec (r.1 i a d) s = .next t ∧ t.th = s.th.went 4 ∧ Claims.elsewhere s t ∧
        Claims.storedAt s t s.cur.1 la (leBytes r.2 (s.reg d.toNat).toNat)) ∧
    (la + r.2 ≤ 0x80000 → (∀ k < r.2, ¬ (s.co.wsn * 0x1000 ≤ la + k ∧ la + k < s.co.txb) ∧ ¬ (s.co.scrb ≤ la + k ∧ la + k < s.co.hvb)) →
      exec (r.1 i a d) s = .next (s.went 4))

/-- R90, R91, R136: in a pass loads act as they do outside it, and those of device memory update ACC; an atomic returns the current value and
writes nothing, at the own bank at once and at another port with a request that writes nothing; `.rel` neither writes back nor waits, and
`.acq` bumps the epoch. -/
def Sys2Proof.Claims.PassReads : Prop :=
  ∀ s : State, Claims.inPass s → ∀ (i : BitVec 12) (a b d : BitVec 5),
    (∀ r ∈ Claims.localLoads, Claims.loadsLocal s (r.1 i a d) (s.reg a.toNat + i.signExtend 64) d.toNat r.2 4) ∧
    (∀ r ∈ Claims.deviceLoads, let va := s.reg a.toNat + i.signExtend 64
      Claims.loadHits s (r.1 i a d) va d.toNat r.2.1 4 r.2.2 ∧ Claims.loadSent s (r.1 i a d) va d.toNat r.2.1 4 ∧
      Claims.loadRest s (r.1 i a d) va d.toNat r.2.1 4 r.2.2) ∧
    ∀ (l rb q w : BitVec 1), let n := Claims.amoBytes w
      let va := s.reg a.toNat
      (∀ A, Claims.bankReady s l va n A → let m := Claims.bankOld s A n
        (∀ r ∈ Claims.atomics, ∃ t, exec (r.1 rb q l b a w d) s = .next t ∧ t.co.ls = s.co.ls ∧
          t.th = ((s.th.setSreg d.toNat (if r.2.1 then m.signExtend 64 else m.setWidth 64)).went 4).endPhase ∧
          Claims.elsewhere s t ∧ Claims.acquires s t q) ∧
        ∃ t, exec (.amoSt rb q l b a w) s = .next t ∧ t.co.ls = s.co.ls ∧ t.th = (s.th.went 4).endPhase ∧ Claims.elsewhere s t ∧
          Claims.acquires s t q) ∧
      ∀ g, l = 0 → va.toNat % n = 0 → s.live.segments va n 2 = .ok ([g], s.live) → g.tgt ≠ .window s.cur.1 → s.th.cntL < 1023 →
        d ≠ 0 → d ≠ 31 → ∀ r ∈ Claims.atomics, ∃ t f o, exec (r.1 rb q l b a w d) s = .next t ∧ t.flights = s.flights ++ [f] ∧
          f.kind = .atomic o ∧ o.writes = false ∧ f.pa = g.pa ∧ t.th.cntS = s.th.cntS ∧ t.th.cntL = s.th.cntL + 1 ∧
          t.co.l1 = s.co.l1 ∧ t.co.ls = s.co.ls ∧ Claims.elsewhere s t

/-- R91, R299: in a pass a spawned child runs inline, and a pass in a pass gives 0; `txchk` and `quit` end the innermost pass, once its loads
are back: ACC goes to the destination, the set stays in e0 to e7, the caller's s1 to s4, WID, RND, FLG and ACC come back, and it goes on after its
`txrecon`. A `txchk` of an inline child within the pass traps (log entry 21). -/
def Sys2Proof.Claims.PassChildrenAndEnd : Prop :=
  ∀ s : State, Claims.inPass s → ∀ a b d : BitVec 5, let pc := s.reg a.toNat
    (∀ i ∈ [Instr.spawn b a d, .spawnAt b a d], let w := s.reg b.toNat
      let fa := (w.extractLsb' 0 19).toNat
      w.extractLsb' 19 13 = 0 → w.extractLsb' 44 20 = 0 → Claims.frameOpen s fa → Claims.entry pc →
      (i = .spawn b a d → w.extractLsb' 32 12 = 0) → (i = .spawnAt b a d → s.live.coreTakes (w.extractLsb' 32 12).toNat = true) →
      Claims.canOpen s → ∃ t, exec i s = .next t ∧ Claims.ranInline s t pc (Claims.group s d.toNat 4)) ∧
    (Claims.entry pc → Claims.canOpen s → exec (.txrecon b a d) s = .next (Claims.wrote s d.toNat 0 4)) ∧
    ∀ x rest, s.th.inl = x :: rest →
      (x.kind = .pass false → ∀ i ∈ [Instr.quit, .txchk],
        (s.th.cntL ≠ 0 → ∃ t, exec i s = .next t ∧ t.th.run = .stalled ∧ t.th.pc = s.th.pc ∧ t.th.inl = s.th.inl ∧ t.co.ls = s.co.ls ∧
          Claims.elsewhere s t) ∧
        (s.th.cntL = 0 → s.th.accQ = [] → s.co.lsBad = [] → s.th.resLo < x.depth → x.depth ≤ s.th.depth → x.dst < 32 →
          let save := s.th.region + 0x1000 - 64 * s.th.inl.length
          ∃ t, exec i s = .next t ∧ t.th.pc = x.ret ∧ t.th.inl = rest ∧ t.th.task = x.task ∧ t.th.depth = x.depth - 1 ∧
            t.th.run = .running ∧ (x.dst ≠ 0 → x.dst ≠ 31 → t.reg x.dst = s.th.acc) ∧ (∀ j < 8, t.th.ereg j = s.th.ereg j) ∧
            (∀ j < 4, 1 + j ≠ x.dst → t.reg (1 + j) = s.lsWord s.cur.1 (save + 8 * j)) ∧ t.th.wid = s.lsWord s.cur.1 (save + 32) ∧
            t.th.rnd = (s.lsWord s.cur.1 (save + 48)).extractLsb' 0 3 ∧
            t.th.flg = (s.lsWord s.cur.1 (save + 48)).extractLsb' 16 14 ∧ t.th.acc = s.lsWord s.cur.1 (save + 56) ∧
            t.co.ls = s.co.ls ∧ Claims.elsewhere s t)) ∧
      (x.kind = .child → exec .txchk s = .next (Claims.trapped s 5 (Claims.word .txchk)))

/-- What a reconnaissance pass changes of each kind of instruction: `PassSuppresses`, `PassStoresScratch`, `PassReads`,
`PassChildrenAndEnd`. -/
def Obligations.ReconnaissanceSuppresses : Prop :=
  Claims.PassSuppresses ∧ Claims.PassStoresScratch ∧ Claims.PassReads ∧ Claims.PassChildrenAndEnd

/-- R35, R178: s0 reads zero and s31 the thread's status, whatever is written to them. -/
def Obligations.ConstantRegisters : Prop :=
  ∀ s : State,
    s.reg 0 = 0 ∧ (s.reg 31).extractLsb' 0 4 = BitVec.ofNat 4 s.cur.2 ∧ (s.reg 31).extractLsb' 4 16 = s.th.gen ∧
    (s.reg 31).getLsbD 20 = s.th.priv ∧ (s.reg 31).getLsbD 24 = s.th.qmap ∧ (s.reg 31).extractLsb' 25 5 = BitVec.ofNat 5 s.th.depth ∧
    (s.reg 31).extractLsb' 37 27 = 0 ∧
    ∀ v, s.th.setSreg 0 v = s.th ∧ s.th.setSreg 31 v = s.th ∧
      (s.plain → ∀ r ∈ Claims.immWords, ∀ (i : BitVec 12) (a : BitVec 5),
        exec (r.1 i a 0) s = .next (s.went 4) ∧ exec (r.1 i a 31) s = .next (s.went 4))

/-- R7, R23, R24, R101, R103, R107, R156, R343, R353: what reset leaves, whichever sites are fused off: site mode with no launch and no
verified image, slot 0 of every enabled core set to run the boot program at firmware privilege with generation 1, every other slot free, and
the special registers at their reset values. That s2 to s30 and WID read 0 and that the memories list nothing is the model's choice (log
entries 5 and 4), and the first PC its reading (log entry 6). -/
def Obligations.ResetState : Prop :=
  State.reset = State.resetOf [] ∧ ∀ fused : List Nat, let s := State.resetOf fused
  s.site = true ∧ s.booted = false ∧ s.on = true ∧ s.launches = [] ∧ s.flights = [] ∧ s.chan = [] ∧ s.enf = false ∧ s.fatal = none ∧ s.encnt = 0 ∧
    s.memWf = true ∧ s.dram = [] ∧
    (∀ n ∈ fused, ∀ i, (s.thread n i).run = .free) ∧
    ∀ n < 2048, n ∉ fused → (s.core n).lcore = n ∧ (s.core n).pre = false ∧
      (s.thread n 0).run = .running ∧ (s.thread n 0).priv = true ∧ (s.thread n 0).gen = 1 ∧
      (s.thread n 0).sreg 0 1 = (if (∀ m < n, m ∈ fused) then 1 else 0) ∧ (∀ r < 31, r ≠ 1 → (s.thread n 0).sreg 0 r = 0) ∧
      (∀ i < 16, i ≠ 0 → (s.thread n i).run = .free) ∧
      ∀ x ∈ [((0x001 : BitVec 12), (0x686 : Word)), (0x002, 0), (0x003, 0x10000 + 0x10000 * 2 ^ 19 + 0x80000 * 2 ^ 38), (0x004, 16),
          (0x005, 0), (0x010, 0), (0x014, 0), (0x015, 0), (0x016, 1), (0x018, 0), (0x040, 0), (0x080, 0), (0x081, 0), (0x083, 0)],
        ∀ d : BitVec 5, let u : State := { s with cur := (n, 0) }
          exec (.mfs x.1 d) u = .next (Claims.wrote u d.toNat x.2 4)

/-- Every step keeps every byte memory of the machine (DRAM, companion memory, local stores and weight stores) in its canonical form:
addresses rising, and no byte listed that reads as an unlisted one does (log entry 4). -/
def Obligations.StepKeepsMemoriesCanonical : Prop :=
  ∀ s t : State, s.memWf = true → step s = .next t → t.memWf = true

/-- R2, R171: no instruction and no event stops the machine, in any state: each ends in a next state. -/
def Obligations.NothingStops : Prop :=
  (∀ (i : Instr) (s : State), ∃ t, exec i s = .next t) ∧ ∀ s : State, ∃ t, step s = .next t

/-! ## Statements of several parts -/

/-- The integer words of major 0: `RegisterPairWords`, `RegisterWords`. -/
def Obligations.IntegerWords : Prop :=
  Claims.RegisterPairWords ∧ Claims.RegisterWords

/-- Immediate words, constants, 16-bit computing words and hints: `ImmediateWords`, `CompactAndHintWords`. -/
def Obligations.ImmediateAndCompactWords : Prop :=
  Claims.ImmediateWords ∧ Claims.CompactAndHintWords

/-- Branches, counted loops and jumps: `BranchWords`, `LoopWords`, `LoopWordsOnConstants`, `JumpWords`. -/
def Obligations.BranchesAndJumps : Prop :=
  Claims.BranchWords ∧ Claims.LoopWords ∧ Claims.LoopWordsOnConstants ∧ Claims.JumpWords

/-- The number formats and their arithmetic: `FormatsRead`, `ResultsRound`, `SpecialResults`, `ComparisonsAndClasses`,
`ConversionsRound`, `ReductionsAndGenerator`. -/
def Obligations.NumberFormats : Prop :=
  Claims.FormatsRead ∧ Claims.ResultsRound ∧ Claims.SpecialResults ∧ Claims.ComparisonsAndClasses ∧ Claims.ConversionsRound ∧
    Claims.ReductionsAndGenerator

/-- Calls, returns, their window traps and wflush: `CallAndReturn`, `WindowTraps`, `WindowFlush`. -/
def Obligations.CallsAndWindows : Prop :=
  Claims.CallAndReturn ∧ Claims.WindowTraps ∧ Claims.WindowFlush

/-- Taking a trap, and failing where no handler can take it: `TrapTaken`, `TrapFails`. -/
def Obligations.TakingATrap : Prop :=
  Claims.TrapTaken ∧ Claims.TrapFails

/-- Local loads and stores, their traps and the boot commit: `LocalLoadsAndStores`, `LocalTraps`, `BootCommit`. -/
def Obligations.LocalAccesses : Prop :=
  Claims.LocalLoadsAndStores ∧ Claims.LocalTraps ∧ Claims.BootCommit

/-- Atomics at the own bank, their checks and those that leave for another port: `BankAtomics`, `AtomicChecks`, `AtomicsSent`. -/
def Obligations.LocalAtomics : Prop :=
  Claims.BankAtomics ∧ Claims.AtomicChecks ∧ Claims.AtomicsSent

/-- Device loads, stores and prefetches: `DeviceLoads`, `DeviceStores`, `DeviceSplitsWindowsAndFaults`, `Prefetch`. -/
def Obligations.DeviceAccesses : Prop :=
  Claims.DeviceLoads ∧ Claims.DeviceStores ∧ Claims.DeviceSplitsWindowsAndFaults ∧ Claims.Prefetch

/-- Scalar floating-point words: `RoundingWords`, `FusedWords`, `ExactFloatWords`. -/
def Obligations.FloatWords : Prop :=
  Claims.RoundingWords ∧ Claims.FusedWords ∧ Claims.ExactFloatWords

/-- Geometry, work identifier, extension registers and tile slots: `GeometryWords`, `ExtensionWords`. -/
def Obligations.GeometryAndExtensionWords : Prop :=
  Claims.GeometryWords ∧ Claims.ExtensionWords

/-- Vector integer, comparison and predicate words: `VectorIntegerWords`, `CompareAndPredicateWords`. -/
def Obligations.VectorIntegerAndPredicateWords : Prop :=
  Claims.VectorIntegerWords ∧ Claims.CompareAndPredicateWords

/-- Vector floating-point words and conversions: `VectorFloatWords`, `VectorConversions`. -/
def Obligations.VectorFloatWordsAndConversions : Prop :=
  Claims.VectorFloatWords ∧ Claims.VectorConversions

/-- Vector permutations, ternary words, scans and reductions: `VectorPermutations`, `TernaryScansAndReductions`. -/
def Obligations.VectorPermutationsAndSums : Prop :=
  Claims.VectorPermutations ∧ Claims.TernaryScansAndReductions

/-- Vector loads and stores: `VectorLocalMemory`, `VectorDeviceMemory`. -/
def Obligations.VectorMemory : Prop :=
  Claims.VectorLocalMemory ∧ Claims.VectorDeviceMemory

/-- Hive key words, scalar and vector: `HiveScalarWords`, `HiveVectorWords`. -/
def Obligations.HiveKeyWords : Prop :=
  Claims.HiveScalarWords ∧ Claims.HiveVectorWords

/-- Claiming, releasing, reading and draining a Hive table, and Hive traps: `HiveTableWords`, `HiveTraps`. -/
def Obligations.HiveTables : Prop :=
  Claims.HiveTableWords ∧ Claims.HiveTraps

/-- wait, qfence and the L1 words: `WaitAndQueueFence`, `L1Words`. -/
def Obligations.WaitsAndL1Words : Prop :=
  Claims.WaitAndQueueFence ∧ Claims.L1Words

/-- trap, bkpt, halt and sysret: `TrapAndHaltWords`, `ReturnFromTrap`. -/
def Obligations.TrapWordsAndReturn : Prop :=
  Claims.TrapAndHaltWords ∧ Claims.ReturnFromTrap

/-- Reads and writes of the special registers: `SpecialRegisterReads`, `UnitRegisterReads`, `SpecialRegisterWrites`,
`UnitRegisterWrites`. -/
def Obligations.SpecialRegisters : Prop :=
  Claims.SpecialRegisterReads ∧ Claims.UnitRegisterReads ∧ Claims.SpecialRegisterWrites ∧ Claims.UnitRegisterWrites

/-- send, recv and waitm: `SendWords`, `ReceiveWords`. -/
def Obligations.MessageWords : Prop :=
  Claims.SendWords ∧ Claims.ReceiveWords

/-- Monitor and barrier words: `MonitorWords`, `BarrierWords`. -/
def Obligations.MonitorsAndBarriers : Prop :=
  Claims.MonitorWords ∧ Claims.BarrierWords

/-- Queue registers: `QueueConfiguration`, `QueueRegisterWords`. -/
def Obligations.QueueRegisters : Prop :=
  Claims.QueueConfiguration ∧ Claims.QueueRegisterWords

/-- spawn and spawn.at: `SpawnWord`, `SpawnAtWord`. -/
def Obligations.Spawning : Prop :=
  Claims.SpawnWord ∧ Claims.SpawnAtWord

/-- await, quit, wfw and yield: `AwaitWord`, `EndOfTask`, `YieldWord`. -/
def Obligations.AwaitingAndEnding : Prop :=
  Claims.AwaitWord ∧ Claims.EndOfTask ∧ Claims.YieldWord

/-- nvcfg, nvpoll and nvsub: `StorageContextAndPoll`, `StorageSubmission`. -/
def Obligations.StorageWords : Prop :=
  Claims.StorageContextAndPoll ∧ Claims.StorageSubmission

/-- Launch headers, their checks, starts and the report ring: `LaunchHeaders`, `LaunchStarts`, `ReportRing`. -/
def Obligations.Launches : Prop :=
  Claims.LaunchHeaders ∧ Claims.LaunchStarts ∧ Claims.ReportRing

/-- Firmware requests and their answers: `FirmwareRequests`, `FirmwareAnswers`. -/
def Obligations.Firmware : Prop :=
  Claims.FirmwareRequests ∧ Claims.FirmwareAnswers

/-- Control registers and Molt commands: `ControlRegisters`, `MoltCommands`. -/
def Obligations.ControlWrites : Prop :=
  Claims.ControlRegisters ∧ Claims.MoltCommands

/-- Dispensing items and filling free slots: `Dispensing`, `FreeSlots`. -/
def Obligations.ItemsAndFreeSlots : Prop :=
  Claims.Dispensing ∧ Claims.FreeSlots

/-- Steals, join decrements and spawns on other cores: `Steals`, `JoinDecrements`, `SpawnsElsewhere`. -/
def Obligations.StealsAndJoins : Prop :=
  Claims.Steals ∧ Claims.JoinDecrements ∧ Claims.SpawnsElsewhere

/-- Messages, evicted contexts and barrier arrivals: `MessagesArrive`, `EvictedContexts`, `BarrierArrivals`. -/
def Obligations.MessagesAndBarriersArrive : Prop :=
  Claims.MessagesArrive ∧ Claims.EvictedContexts ∧ Claims.BarrierArrivals

/-- Accesses at their ports, their answers and their refusals: `AccessesArrive`, `AnswersArrive`, `RefusalsReturn`. -/
def Obligations.AccessesAndAnswers : Prop :=
  Claims.AccessesArrive ∧ Claims.AnswersArrive ∧ Claims.RefusalsReturn

/-- Walks, bank service and upkeep of the homes: `Walks`, `BankService`, `HomesUpkeep`. -/
def Obligations.WalksBanksAndHomes : Prop :=
  Claims.Walks ∧ Claims.BankService ∧ Claims.HomesUpkeep

/-- Engine operations begin, are performed or handed back: `EngineOpsBegin`, `EngineOpsPerformed`, `HandBacks`. -/
def Obligations.EngineEvents : Prop :=
  Claims.EngineOpsBegin ∧ Claims.EngineOpsPerformed ∧ Claims.HandBacks

/-- Trap entries and the failure of a thread: `TrapEntries`, `FailureSequence`. -/
def Obligations.TrapEntriesAndFailures : Prop :=
  Claims.TrapEntries ∧ Claims.FailureSequence

/-- Pairs, error records and the watchdog: `PairsCompare`, `PairsAccessOnce`, `RecordsAndWatchdog`. -/
def Obligations.PairsAndRecords : Prop :=
  Claims.PairsCompare ∧ Claims.PairsAccessOnce ∧ Claims.RecordsAndWatchdog

/-- Numbering transactions and giving them frames: `Numbering`, `FrameAssignment`. -/
def Obligations.NumberingAndFrames : Prop :=
  Claims.Numbering ∧ Claims.FrameAssignment

/-- Lock queues, grants, dispatch and commits: `LockQueues`, `GrantsAndDispatch`, `Commits`. -/
def Obligations.LocksGrantsAndCommits : Prop :=
  Claims.LockQueues ∧ Claims.GrantsAndDispatch ∧ Claims.Commits

/-- Sensor samples, the Molt and band changes: `SensorSamples`, `MoltAndBands`. -/
def Obligations.TemperatureAndMolt : Prop :=
  Claims.SensorSamples ∧ Claims.MoltAndBands

/-- Power, reset and governors: `PowerAndReset`, `Governors`. -/
def Obligations.PowerAndGovernors : Prop :=
  Claims.PowerAndReset ∧ Claims.Governors

/-- The Ulisil link, failing flits and the fabric: `UlisilLink`, `FlitsAndFabric`. -/
def Obligations.Links : Prop :=
  Claims.UlisilLink ∧ Claims.FlitsAndFabric
/-! ## Events of other agents take place -/

/-- R58, R59, R61, R62, R73, R77, R78: in a package with power a message that nothing turns away enters its mailbox, whoever sent it; a
bounce enters its sender's mailbox; an evicted context that finds room goes on; an arrival is counted; a descriptor load ends; the Scarab
numbers a record, a batch seals, and a transaction takes a frame (which one, log entry 20). -/
def Sys2Proof.Claims.CoordinationEvents : Prop :=
  ∀ s : State, s.alive = true →
    (∀ k src n site slot gen hi x l b, s.chan[k]? = some (.message src (site, slot, gen) hi x l b) → Claims.inOrder s k src (site, slot, gen) hi →
      s.siteOf site = some n → Claims.mailAllowed s src n slot → (s.core n).pre = false → Claims.holds s n slot gen →
      Claims.mailRoom (s.thread n slot) hi → ∃ t e, exec (.messageDelivery k) s = .next t ∧ t.chan = s.chan.eraseIdx k ∧
        e.core = (s.core src.1).lcore ∧ e.slot = src.2.1 ∧ e.gen = src.2.2 ∧ e.kind = 1 ∧ e.payload = x ∧
        (hi = true → (t.thread n slot).mbHi = (s.thread n slot).mbHi ++ [e]) ∧
        (hi = false → (t.thread n slot).mbLo = (s.thread n slot).mbLo ++ [e])) ∧
    (∀ k n i gen hi e w b, s.chan[k]? = some (.bounce (n, i, gen) hi e w b) → Claims.holds s n i gen → (s.core n).pre = false →
      (∀ p ∈ [8, 16, 17], (s.thread n i).phase ≠ p) → Claims.mailRoom (s.thread n i) hi → ∃ t, exec (.bounceReturn k) s = .next t ∧
        t.chan = s.chan.eraseIdx k ∧ (hi = true → (t.thread n i).mbHi = (s.thread n i).mbHi ++ [e]) ∧
        (hi = false → (t.thread n i).mbLo = (s.thread n i).mbLo ++ [e])) ∧
    (∀ k e rest, (s.cluster k).runq = e :: rest → (s.cluster k).mons.length < 64 → s.takesWork e.site = true → e.thread.pair = 0 →
      (∃ j < 16, (s.thread e.site j).run = .free) → ∃ t i, exec (.evictedContextReload k) s = .next t ∧ (t.cluster k).runq = rest ∧
        (s.thread e.site i).run = .free ∧ (t.thread e.site i).run = .stalled ∧ (t.thread e.site i).pc = e.thread.pc) ∧
    (∀ k c u n i id, s.chan[k]? = some (.arrive c u n i id) → let b := tblGet {} u (s.cluster c).bars
      ∃ t, exec (.barrierArrival k) s = .next t ∧ t.chan = s.chan.eraseIdx k ∧ tblGet {} u (t.cluster c).bars =
        (if b.arrived + 1 = b.expected then { b with arrived := 0, gen := (b.gen + 1) % 256 } else { b with arrived := b.arrived + 1 })) ∧
    (s.scarab.load = true → s.spaceBusy s.scarab.loading = false → s.scarab.base % 32 = 0 →
      s.devMay 2 (s.scarab.base + 32 * s.scarab.loading) 32 0 = true → ∃ t, exec .tsDescriptorLoad s = .next t ∧ t.scarab.load = false ∧
        (t.scarab.err = false ↔ Claims.descGood (Claims.descBytes s)) ∧
        ((tblFind s.scarab.loading t.scarab.spaces).isSome ↔ Claims.descGood (Claims.descBytes s))) ∧
    (∀ r, Claims.onlyRecord s r → s.namesLoading r = false → r.src.isSome → s.scarab.pos + 1 < 4096 →
      (∀ x ∈ s.scarab.txns, x.seq ≠ Claims.nextSeq s) → ∃ t x, exec .scarabNumbering s = .next t ∧
        t.scarab.txns = s.scarab.txns ++ [x] ∧ x.seq = Claims.nextSeq s ∧ x.sub = r ∧ t.scarab.pos = s.scarab.pos + 1 ∧ t.scarab.subs = []) ∧
    (s.cold.stopped = false → s.cold.req = s.cold.band → ∃ t, exec .batchSeal s = .next t ∧
      t.scarab.batch = (s.scarab.batch + 1) % 2 ^ 40 ∧ t.scarab.pos = 0) ∧
    ∀ k seq rest x n f, (s.cluster k).txq = seq :: rest → s.txn seq = some x → n ∈ s.coresOf k → (s.core n).pre = false →
      s.frameNeed x.sub ≤ 2 ^ (s.core n).flog → (s.core n).freeFrame = some f →
      (∀ m ∈ s.coresOf k, m ≠ n → (s.core m).freeFrame = none) → ∃ t y, exec (.frameAssignment k) s = .next t ∧
        (t.cluster k).txq = rest ∧ t.txn seq = some y ∧ y.core = n ∧ y.frame = f ∧ y.stage = .framed

/-- R116, R119, R180, R335, R411, R412, R447: the one walk of a cluster ends with its entry, its fault or a poisoned table word, or after
10 ms; a bank serves a spill; a refresh takes place; a scrub poisons what it finds; a structure's corrected errors are reported. -/
def Sys2Proof.Claims.MemoryEvents : Prop :=
  ∀ s : State,
    (∀ c w, s.clocked (2048 + c) = true → (s.cluster c).walks = [w] → w.lost = false → ∃ t, exec (.walkRequest c) s = .next t ∧
      match (s.walkFrom (pageVa w.page) 3 ((s.cluster c).ptroot.toNat % 2 ^ 48)).1 with
      | .entry x => (t.cluster c).walks = [] ∧ x ∈ tblGet [] x.set (t.cluster c).tlb
      | .fault why => (t.cluster c).walks = [] ∧ ∀ r ∈ w.who, r.2 < 16 → (t.thread r.1 r.2).walk = some (w.page, why)
      | .lost => (t.cluster c).walks = [{ w with lost := true }]) ∧
    (∀ c w, s.alive = true → (s.cluster c).walks = [w] → ∃ t r, exec (.walkTimeout c) s = .next t ∧ (t.cluster c).walks = [] ∧
      (t.cluster c).errQ = (s.cluster c).errQ ++ [r] ∧ r.kind = 44 ∧
      ∀ q ∈ w.who, q.2 < 16 → (t.thread q.1 q.2).walk = some (w.page, 5)) ∧
    (∀ n i, s.clocked n = true → (s.core n).pre = false → (s.thread n i).run = .stalled → (s.thread n i).loads = [] →
      (s.thread n i).pend = [] → (s.thread n i).needSpill = true → ∃ t, exec (.localStoreBankService n i) s = .next t ∧
      (t.thread n i).resLo = (s.thread n i).resLo + 1) ∧
    (∀ h, exec (.dramRefresh h) s = .next s) ∧
    (∀ l, s.alive = true → 64 * l + 64 ≤ 0x7735940000 → ∃ t g, exec (.patrolScrub l true) s = .next t ∧ g ∈ t.dramBad ∧ g / 8 = l) ∧
    ∀ (c : Nat) (code : Byte) (at_ : Word) (x : Corrected), s.alive = true → s.corrected = [x] → x.cluster = c → x.code = code.toNat →
      x.last = at_ → 1 ≤ x.count → x.wrote = none → ∃ t r, exec (.correctedErrorReport c code at_) s = .next t ∧
        (t.cluster c).errQ = (s.cluster c).errQ ++ [r] ∧ r.kind = 16 ∧ r.cause = code.toNat ∧ r.val1 = at_ ∧ r.val2 = BitVec.ofNat 64 x.count

/-- R334, R336, R338, R340, R342, R343, R443 to R445: a sound sample is taken; the timer of Band C, the end of a soak, the Molt's moves and
limits, and the restart of the clocks take place; power comes and goes, units power up, a reset resets, and a governor without corrections
counts a quiet second. -/
def Sys2Proof.Claims.ClimateEvents : Prop :=
  ∀ (s : State) (readings : List Nat),
    (s.on = true → Claims.soundSample s readings → ∃ t, exec (.sensorSample readings) s = .next t ∧ t.cold.temps = readings ∧
      t.cold.tmax = Claims.hottest readings ∧ t.cold.time = s.cold.time + 4) ∧
    (∀ a, s.on = true → s.cold.fallFrom = some a → s.cold.band = 1 → s.cold.req = 1 → a + 10000000 ≤ s.cold.time →
      ∃ t, exec .bandFallTimer s = .next t ∧ t.cold.req = 0) ∧
    (s.alive = true → s.cold.stopped = true → ∃ t, exec .clockRestart s = .next t ∧ t.cold.stopped = false ∧ t.cold.band = s.cold.nextBand) ∧
    (s.on = true → s.cold.ramping = false → s.cold.cmdHeld = 0 → s.cold.molt = .cooling → s.cold.tmax ≤ 1424 →
      ∃ t, exec .moltTransition s = .next t ∧ t.cold.molt = .soak ∧ t.cold.entered = s.cold.time) ∧
    (∀ a, s.on = true → s.cold.molt = .soak → s.cold.soakFrom = some a → s.cold.trainDead = false → s.cold.ramping = false →
      s.cold.band = 0 → s.cold.warmHeld = false → a + 120000000 ≤ s.cold.time →
      ∃ t, exec (.soakComplete none) s = .next t ∧ t.cold.molt = .coldReady) ∧
    (s.on = true → s.cold.molt = .warming → s.cold.limited = false → 10800 ≤ (s.cold.time - s.cold.entered) / 1000000 →
      ∃ t r, exec .moltLimitExpiry s = .next t ∧ t.cold.limited = true ∧ (t.cluster 0).errQ = (s.cluster 0).errQ ++ [r] ∧ r.kind = 41) ∧
    (s.on = false → ∃ t, exec (.powerOn readings) s = .next t ∧ t.on = true ∧ t.booted = false ∧ t.cores = [] ∧ t.dram = []) ∧
    (s.on = true → ∃ t, exec (.packageReset readings) s = .next t ∧ t.on = true ∧ t.booted = false ∧ t.cores = [] ∧ t.launches = []) ∧
    (∃ t, exec .powerLoss s = .next t ∧ t.on = false ∧ t.cold.molt = .off) ∧
    (s.alive = true → s.powered < 136 → ∃ t, exec .unitPowerUp s = .next t ∧ t.powered = s.powered + 1) ∧
    (∀ n, s.alive = true → n < 2048 → (s.core n).gov.count = 0 → ∃ t, exec (.governorTick n 0) s = .next t ∧
      (t.core n).gov.quiet = (s.core n).gov.quiet + 1 ∧ (t.core n).gov.count = 0) ∧
    ∀ b, s.on = true → ∃ t, exec (.packagePowerCap b) s = .next t ∧ t.cold.overCap = b

/-- Events of other agents take place in every state in which the spec's conditions for them hold: `CoordinationEvents`, `MemoryEvents`,
`ClimateEvents`. -/
def Obligations.EventsTakePlace : Prop :=
  Claims.CoordinationEvents ∧ Claims.MemoryEvents ∧ Claims.ClimateEvents
end

