-- ==== Sys2Proof/Laws/State.lean ====
section
/-!
SUPPORT. One lemma for each field and each update of the state, a core and a thread, true by `rfl`, so that no proof unfolds a
record update; and the laws of tables, cores and threads read after a write.
-/

namespace Sys2Proof.Machine

open Sys2Proof

/-! ## Tables -/

@[simp] theorem tblFind_tblSet_self {α : Type} (k : Nat) (v : α) (t : Tbl α) : tblFind k (tblSet k v t) = some v := by
  induction t with
  | nil => simp [tblSet, tblFind]
  | cons x t ih =>
    obtain ⟨j, w⟩ := x
    simp only [tblSet]
    split
    · simp [tblFind]
    · split
      · simp [tblFind]
      · simp_all [tblFind]

theorem tblFind_tblSet_ne {α : Type} {j k : Nat} (h : j ≠ k) (v : α) (t : Tbl α) : tblFind j (tblSet k v t) = tblFind j t := by
  induction t with
  | nil => simp [tblSet, tblFind, h]
  | cons x t ih =>
    obtain ⟨i, w⟩ := x
    simp only [tblSet]
    split
    · simp [tblFind, h]
    · split
      · subst_vars; simp [tblFind, h]
      · simp [tblFind, ih]

@[simp] theorem tblGet_tblSet_self {α : Type} (d : α) (k : Nat) (v : α) (t : Tbl α) : tblGet d k (tblSet k v t) = v := by
  simp [tblGet]

theorem tblGet_tblSet_ne {α : Type} (d : α) {j k : Nat} (h : j ≠ k) (v : α) (t : Tbl α) :
    tblGet d j (tblSet k v t) = tblGet d j t := by
  simp [tblGet, tblFind_tblSet_ne h]

@[simp] theorem tblSet_tblSet {α : Type} (k : Nat) (v w : α) (t : Tbl α) : tblSet k w (tblSet k v t) = tblSet k w t := by
  induction t with
  | nil => simp [tblSet]
  | cons x t ih =>
    obtain ⟨j, u⟩ := x
    simp only [tblSet]
    split
    · simp [tblSet]
    · split
      · simp [tblSet]
      · simp_all [tblSet]

/-! ## Cores and threads by number -/

@[simp] theorem State.core_setCore_self (s : State) (n : Nat) (c : Core) : (s.setCore n c).core n = c := by
  simp [State.core, State.setCore]

theorem State.core_setCore_ne (s : State) {m n : Nat} (h : m ≠ n) (c : Core) : (s.setCore n c).core m = s.core m := by
  simp [State.core, State.setCore, tblFind_tblSet_ne h]

@[simp] theorem Core.thread_setThread_self (c : Core) (i : Nat) (t : Thread) : (c.setThread i t).thread i = t := by
  simp [Core.thread, Core.setThread]

theorem Core.thread_setThread_ne (c : Core) {i j : Nat} (h : j ≠ i) (t : Thread) : (c.setThread i t).thread j = c.thread j := by
  simp [Core.thread, Core.setThread, tblGet_tblSet_ne _ h]

@[simp] theorem Core.setThread_setThread (c : Core) (i : Nat) (t u : Thread) :
    (c.setThread i t).setThread i u = c.setThread i u := by
  simp [Core.setThread]

@[simp] theorem State.setCore_setCore (s : State) (n : Nat) (c d : Core) : (s.setCore n c).setCore n d = s.setCore n d := by
  simp [State.setCore]

@[simp] theorem State.thread_setThread_self (s : State) (n i : Nat) (t : Thread) : (s.setThread n i t).thread n i = t := by
  simp [State.thread, State.setThread]

@[simp] theorem State.setThread_setThread (s : State) (n i : Nat) (t u : Thread) :
    (s.setThread n i t).setThread n i u = s.setThread n i u := by
  simp [State.setThread]

@[simp] theorem State.th_setTh (s : State) (t : Thread) : (s.setTh t).th = t := State.thread_setThread_self s _ _ t

@[simp] theorem State.setTh_setTh (s : State) (t u : Thread) :
    (s.setTh t).setTh u = s.setTh u := State.setThread_setThread s _ _ t u

@[simp] theorem State.co_setTh (s : State) (t : Thread) : (s.setTh t).co = s.co.setThread s.cur.2 t := by
  simp [State.co, State.setTh, State.setThread, State.setCore, State.core]

@[simp] theorem State.co_setCo (s : State) (c : Core) : (s.setCo c).co = c := State.core_setCore_self s _ c

/-- Another thread stays as it is when the issuing one is replaced. -/
theorem State.thread_setTh_ne (s : State) (t : Thread) {n i : Nat} (h :
    (n, i) ≠ s.cur) : (s.setTh t).thread n i = s.thread n i := by
  simp only [State.thread, State.setTh, State.setThread]
  by_cases hn : n = s.cur.1
  · have : i ≠ s.cur.2 := fun e => h (by rw [hn, e])
    subst hn
    simp [Core.thread_setThread_ne _ this]
  · simp [State.core_setCore_ne _ hn]

/-- Another core stays as it is when the issuing thread is replaced. -/
theorem State.core_setTh_ne (s : State) (t : Thread) {n : Nat} (h : n ≠ s.cur.1) : (s.setTh t).core n = s.core n := by
  simp [State.setTh, State.setThread, State.core_setCore_ne _ h]

/-! ## Fields of the state -/

@[simp] theorem State.setCore_cur (s : State) (n : Nat) (c : Core) : (s.setCore n c).cur = s.cur := rfl
@[simp] theorem State.setCore_turns (s : State) (n : Nat) (c : Core) : (s.setCore n c).turns = s.turns := rfl
@[simp] theorem State.setCore_tick (s : State) (n : Nat) (c : Core) : (s.setCore n c).tick = s.tick := rfl
@[simp] theorem State.setCore_nextId (s : State) (n : Nat) (c : Core) : (s.setCore n c).nextId = s.nextId := rfl
@[simp] theorem State.setCore_clusters (s : State) (n : Nat) (c : Core) : (s.setCore n c).clusters = s.clusters := rfl
@[simp] theorem State.setCore_homes (s : State) (n : Nat) (c : Core) : (s.setCore n c).homes = s.homes := rfl
@[simp] theorem State.setCore_dram (s : State) (n : Nat) (c : Core) : (s.setCore n c).dram = s.dram := rfl
@[simp] theorem State.setCore_dramBad (s : State) (n : Nat) (c : Core) : (s.setCore n c).dramBad = s.dramBad := rfl
@[simp] theorem State.setCore_hostMem (s : State) (n : Nat) (c : Core) : (s.setCore n c).hostMem = s.hostMem := rfl
@[simp] theorem State.setCore_flights (s : State) (n : Nat) (c : Core) : (s.setCore n c).flights = s.flights := rfl
@[simp] theorem State.setCore_chan (s : State) (n : Nat) (c : Core) : (s.setCore n c).chan = s.chan := rfl
@[simp] theorem State.setCore_scarab (s : State) (n : Nat) (c : Core) : (s.setCore n c).scarab = s.scarab := rfl
@[simp] theorem State.setCore_port (s : State) (n : Nat) (c : Core) : (s.setCore n c).port = s.port := rfl
@[simp] theorem State.setCore_launches (s : State) (n : Nat) (c : Core) : (s.setCore n c).launches = s.launches := rfl
@[simp] theorem State.setCore_tables (s : State) (n : Nat) (c : Core) : (s.setCore n c).tables = s.tables := rfl
@[simp] theorem State.setCore_enf (s : State) (n : Nat) (c : Core) : (s.setCore n c).enf = s.enf := rfl
@[simp] theorem State.setCore_hl (s : State) (n : Nat) (c : Core) : (s.setCore n c).hl = s.hl := rfl
@[simp] theorem State.setCore_dbgbp (s : State) (n : Nat) (c : Core) : (s.setCore n c).dbgbp = s.dbgbp := rfl
@[simp] theorem State.setCore_pcap (s : State) (n : Nat) (c : Core) : (s.setCore n c).pcap = s.pcap := rfl
@[simp] theorem State.setCore_sorl (s : State) (n : Nat) (c : Core) : (s.setCore n c).sorl = s.sorl := rfl
@[simp] theorem State.setCore_fused (s : State) (n : Nat) (c : Core) : (s.setCore n c).fused = s.fused := rfl
@[simp] theorem State.setCore_devsn (s : State) (n : Nat) (c : Core) : (s.setCore n c).devsn = s.devsn := rfl
@[simp] theorem State.setCore_keyHash (s : State) (n : Nat) (c : Core) : (s.setCore n c).keyHash = s.keyHash := rfl
@[simp] theorem State.setCore_revoked (s : State) (n : Nat) (c : Core) : (s.setCore n c).revoked = s.revoked := rfl
@[simp] theorem State.setCore_minVersion (s : State) (n : Nat) (c : Core) : (s.setCore n c).minVersion = s.minVersion := rfl
@[simp] theorem State.setCore_fwVersion (s : State) (n : Nat) (c : Core) : (s.setCore n c).fwVersion = s.fwVersion := rfl
@[simp] theorem State.setCore_fwDigest (s : State) (n : Nat) (c : Core) : (s.setCore n c).fwDigest = s.fwDigest := rfl
@[simp] theorem State.setCore_booted (s : State) (n : Nat) (c : Core) : (s.setCore n c).booted = s.booted := rfl
@[simp] theorem State.setCore_bootPidx (s : State) (n : Nat) (c : Core) : (s.setCore n c).bootPidx = s.bootPidx := rfl
@[simp] theorem State.setCore_storage (s : State) (n : Nat) (c : Core) : (s.setCore n c).storage = s.storage := rfl
@[simp] theorem State.setCore_links (s : State) (n : Nat) (c : Core) : (s.setCore n c).links = s.links := rfl
@[simp] theorem State.setCore_flows (s : State) (n : Nat) (c : Core) : (s.setCore n c).flows = s.flows := rfl
@[simp] theorem State.setCore_froute (s : State) (n : Nat) (c : Core) : (s.setCore n c).froute = s.froute := rfl
@[simp] theorem State.setCore_cold (s : State) (n : Nat) (c : Core) : (s.setCore n c).cold = s.cold := rfl
@[simp] theorem State.setCore_ulisil (s : State) (n : Nat) (c : Core) : (s.setCore n c).ulisil = s.ulisil := rfl
@[simp] theorem State.setCore_corrected (s : State) (n : Nat) (c : Core) : (s.setCore n c).corrected = s.corrected := rfl
@[simp] theorem State.setCore_encnt (s : State) (n : Nat) (c : Core) : (s.setCore n c).encnt = s.encnt := rfl
@[simp] theorem State.setCore_site (s : State) (n : Nat) (c : Core) : (s.setCore n c).site = s.site := rfl
@[simp] theorem State.setCore_powered (s : State) (n : Nat) (c : Core) : (s.setCore n c).powered = s.powered := rfl
@[simp] theorem State.setCore_arrays (s : State) (n : Nat) (c : Core) : (s.setCore n c).arrays = s.arrays := rfl
@[simp] theorem State.setCore_on (s : State) (n : Nat) (c : Core) : (s.setCore n c).on = s.on := rfl
@[simp] theorem State.setCore_fatal (s : State) (n : Nat) (c : Core) : (s.setCore n c).fatal = s.fatal := rfl

@[simp] theorem State.setThread_cur (s : State) (n i : Nat) (t : Thread) : (s.setThread n i t).cur = s.cur := rfl
@[simp] theorem State.setThread_turns (s : State) (n i : Nat) (t : Thread) : (s.setThread n i t).turns = s.turns := rfl
@[simp] theorem State.setThread_tick (s : State) (n i : Nat) (t : Thread) : (s.setThread n i t).tick = s.tick := rfl
@[simp] theorem State.setThread_nextId (s : State) (n i : Nat) (t : Thread) : (s.setThread n i t).nextId = s.nextId := rfl
@[simp] theorem State.setThread_clusters (s : State) (n i : Nat) (t : Thread) : (s.setThread n i t).clusters = s.clusters := rfl
@[simp] theorem State.setThread_homes (s : State) (n i : Nat) (t : Thread) : (s.setThread n i t).homes = s.homes := rfl
@[simp] theorem State.setThread_dram (s : State) (n i : Nat) (t : Thread) : (s.setThread n i t).dram = s.dram := rfl
@[simp] theorem State.setThread_dramBad (s : State) (n i : Nat) (t : Thread) : (s.setThread n i t).dramBad = s.dramBad := rfl
@[simp] theorem State.setThread_hostMem (s : State) (n i : Nat) (t : Thread) : (s.setThread n i t).hostMem = s.hostMem := rfl
@[simp] theorem State.setThread_flights (s : State) (n i : Nat) (t : Thread) : (s.setThread n i t).flights = s.flights := rfl
@[simp] theorem State.setThread_chan (s : State) (n i : Nat) (t : Thread) : (s.setThread n i t).chan = s.chan := rfl
@[simp] theorem State.setThread_scarab (s : State) (n i : Nat) (t : Thread) : (s.setThread n i t).scarab = s.scarab := rfl
@[simp] theorem State.setThread_port (s : State) (n i : Nat) (t : Thread) : (s.setThread n i t).port = s.port := rfl
@[simp] theorem State.setThread_launches (s : State) (n i : Nat) (t : Thread) : (s.setThread n i t).launches = s.launches := rfl
@[simp] theorem State.setThread_tables (s : State) (n i : Nat) (t : Thread) : (s.setThread n i t).tables = s.tables := rfl
@[simp] theorem State.setThread_enf (s : State) (n i : Nat) (t : Thread) : (s.setThread n i t).enf = s.enf := rfl
@[simp] theorem State.setThread_hl (s : State) (n i : Nat) (t : Thread) : (s.setThread n i t).hl = s.hl := rfl
@[simp] theorem State.setThread_dbgbp (s : State) (n i : Nat) (t : Thread) : (s.setThread n i t).dbgbp = s.dbgbp := rfl
@[simp] theorem State.setThread_pcap (s : State) (n i : Nat) (t : Thread) : (s.setThread n i t).pcap = s.pcap := rfl
@[simp] theorem State.setThread_sorl (s : State) (n i : Nat) (t : Thread) : (s.setThread n i t).sorl = s.sorl := rfl
@[simp] theorem State.setThread_fused (s : State) (n i : Nat) (t : Thread) : (s.setThread n i t).fused = s.fused := rfl
@[simp] theorem State.setThread_devsn (s : State) (n i : Nat) (t : Thread) : (s.setThread n i t).devsn = s.devsn := rfl
@[simp] theorem State.setThread_keyHash (s : State) (n i : Nat) (t : Thread) : (s.setThread n i t).keyHash = s.keyHash := rfl
@[simp] theorem State.setThread_revoked (s : State) (n i : Nat) (t : Thread) : (s.setThread n i t).revoked = s.revoked := rfl
@[simp] theorem State.setThread_minVersion (s : State) (n i : Nat) (t : Thread) :
    (s.setThread n i t).minVersion = s.minVersion := rfl
@[simp] theorem State.setThread_fwVersion (s : State) (n i : Nat) (t : Thread) :
    (s.setThread n i t).fwVersion = s.fwVersion := rfl
@[simp] theorem State.setThread_fwDigest (s : State) (n i : Nat) (t : Thread) : (s.setThread n i t).fwDigest = s.fwDigest := rfl
@[simp] theorem State.setThread_booted (s : State) (n i : Nat) (t : Thread) : (s.setThread n i t).booted = s.booted := rfl
@[simp] theorem State.setThread_bootPidx (s : State) (n i : Nat) (t : Thread) : (s.setThread n i t).bootPidx = s.bootPidx := rfl
@[simp] theorem State.setThread_storage (s : State) (n i : Nat) (t : Thread) : (s.setThread n i t).storage = s.storage := rfl
@[simp] theorem State.setThread_links (s : State) (n i : Nat) (t : Thread) : (s.setThread n i t).links = s.links := rfl
@[simp] theorem State.setThread_flows (s : State) (n i : Nat) (t : Thread) : (s.setThread n i t).flows = s.flows := rfl
@[simp] theorem State.setThread_froute (s : State) (n i : Nat) (t : Thread) : (s.setThread n i t).froute = s.froute := rfl
@[simp] theorem State.setThread_cold (s : State) (n i : Nat) (t : Thread) : (s.setThread n i t).cold = s.cold := rfl
@[simp] theorem State.setThread_ulisil (s : State) (n i : Nat) (t : Thread) : (s.setThread n i t).ulisil = s.ulisil := rfl
@[simp] theorem State.setThread_corrected (s : State) (n i : Nat) (t : Thread) :
    (s.setThread n i t).corrected = s.corrected := rfl
@[simp] theorem State.setThread_encnt (s : State) (n i : Nat) (t : Thread) : (s.setThread n i t).encnt = s.encnt := rfl
@[simp] theorem State.setThread_site (s : State) (n i : Nat) (t : Thread) : (s.setThread n i t).site = s.site := rfl
@[simp] theorem State.setThread_powered (s : State) (n i : Nat) (t : Thread) : (s.setThread n i t).powered = s.powered := rfl
@[simp] theorem State.setThread_arrays (s : State) (n i : Nat) (t : Thread) : (s.setThread n i t).arrays = s.arrays := rfl
@[simp] theorem State.setThread_on (s : State) (n i : Nat) (t : Thread) : (s.setThread n i t).on = s.on := rfl
@[simp] theorem State.setThread_fatal (s : State) (n i : Nat) (t : Thread) : (s.setThread n i t).fatal = s.fatal := rfl

@[simp] theorem State.setTh_cur (s : State) (t : Thread) : (s.setTh t).cur = s.cur := rfl
@[simp] theorem State.setTh_turns (s : State) (t : Thread) : (s.setTh t).turns = s.turns := rfl
@[simp] theorem State.setTh_tick (s : State) (t : Thread) : (s.setTh t).tick = s.tick := rfl
@[simp] theorem State.setTh_nextId (s : State) (t : Thread) : (s.setTh t).nextId = s.nextId := rfl
@[simp] theorem State.setTh_clusters (s : State) (t : Thread) : (s.setTh t).clusters = s.clusters := rfl
@[simp] theorem State.setTh_homes (s : State) (t : Thread) : (s.setTh t).homes = s.homes := rfl
@[simp] theorem State.setTh_dram (s : State) (t : Thread) : (s.setTh t).dram = s.dram := rfl
@[simp] theorem State.setTh_dramBad (s : State) (t : Thread) : (s.setTh t).dramBad = s.dramBad := rfl
@[simp] theorem State.setTh_hostMem (s : State) (t : Thread) : (s.setTh t).hostMem = s.hostMem := rfl
@[simp] theorem State.setTh_flights (s : State) (t : Thread) : (s.setTh t).flights = s.flights := rfl
@[simp] theorem State.setTh_chan (s : State) (t : Thread) : (s.setTh t).chan = s.chan := rfl
@[simp] theorem State.setTh_scarab (s : State) (t : Thread) : (s.setTh t).scarab = s.scarab := rfl
@[simp] theorem State.setTh_port (s : State) (t : Thread) : (s.setTh t).port = s.port := rfl
@[simp] theorem State.setTh_launches (s : State) (t : Thread) : (s.setTh t).launches = s.launches := rfl
@[simp] theorem State.setTh_tables (s : State) (t : Thread) : (s.setTh t).tables = s.tables := rfl
@[simp] theorem State.setTh_enf (s : State) (t : Thread) : (s.setTh t).enf = s.enf := rfl
@[simp] theorem State.setTh_hl (s : State) (t : Thread) : (s.setTh t).hl = s.hl := rfl
@[simp] theorem State.setTh_dbgbp (s : State) (t : Thread) : (s.setTh t).dbgbp = s.dbgbp := rfl
@[simp] theorem State.setTh_pcap (s : State) (t : Thread) : (s.setTh t).pcap = s.pcap := rfl
@[simp] theorem State.setTh_sorl (s : State) (t : Thread) : (s.setTh t).sorl = s.sorl := rfl
@[simp] theorem State.setTh_fused (s : State) (t : Thread) : (s.setTh t).fused = s.fused := rfl
@[simp] theorem State.setTh_devsn (s : State) (t : Thread) : (s.setTh t).devsn = s.devsn := rfl
@[simp] theorem State.setTh_keyHash (s : State) (t : Thread) : (s.setTh t).keyHash = s.keyHash := rfl
@[simp] theorem State.setTh_revoked (s : State) (t : Thread) : (s.setTh t).revoked = s.revoked := rfl
@[simp] theorem State.setTh_minVersion (s : State) (t : Thread) : (s.setTh t).minVersion = s.minVersion := rfl
@[simp] theorem State.setTh_fwVersion (s : State) (t : Thread) : (s.setTh t).fwVersion = s.fwVersion := rfl
@[simp] theorem State.setTh_fwDigest (s : State) (t : Thread) : (s.setTh t).fwDigest = s.fwDigest := rfl
@[simp] theorem State.setTh_booted (s : State) (t : Thread) : (s.setTh t).booted = s.booted := rfl
@[simp] theorem State.setTh_bootPidx (s : State) (t : Thread) : (s.setTh t).bootPidx = s.bootPidx := rfl
@[simp] theorem State.setTh_storage (s : State) (t : Thread) : (s.setTh t).storage = s.storage := rfl
@[simp] theorem State.setTh_links (s : State) (t : Thread) : (s.setTh t).links = s.links := rfl
@[simp] theorem State.setTh_flows (s : State) (t : Thread) : (s.setTh t).flows = s.flows := rfl
@[simp] theorem State.setTh_froute (s : State) (t : Thread) : (s.setTh t).froute = s.froute := rfl
@[simp] theorem State.setTh_cold (s : State) (t : Thread) : (s.setTh t).cold = s.cold := rfl
@[simp] theorem State.setTh_ulisil (s : State) (t : Thread) : (s.setTh t).ulisil = s.ulisil := rfl
@[simp] theorem State.setTh_corrected (s : State) (t : Thread) : (s.setTh t).corrected = s.corrected := rfl
@[simp] theorem State.setTh_encnt (s : State) (t : Thread) : (s.setTh t).encnt = s.encnt := rfl
@[simp] theorem State.setTh_site (s : State) (t : Thread) : (s.setTh t).site = s.site := rfl
@[simp] theorem State.setTh_powered (s : State) (t : Thread) : (s.setTh t).powered = s.powered := rfl
@[simp] theorem State.setTh_arrays (s : State) (t : Thread) : (s.setTh t).arrays = s.arrays := rfl
@[simp] theorem State.setTh_on (s : State) (t : Thread) : (s.setTh t).on = s.on := rfl
@[simp] theorem State.setTh_fatal (s : State) (t : Thread) : (s.setTh t).fatal = s.fatal := rfl

@[simp] theorem State.setCo_cur (s : State) (c : Core) : (s.setCo c).cur = s.cur := rfl
@[simp] theorem State.setCo_turns (s : State) (c : Core) : (s.setCo c).turns = s.turns := rfl
@[simp] theorem State.setCo_tick (s : State) (c : Core) : (s.setCo c).tick = s.tick := rfl
@[simp] theorem State.setCo_nextId (s : State) (c : Core) : (s.setCo c).nextId = s.nextId := rfl
@[simp] theorem State.setCo_clusters (s : State) (c : Core) : (s.setCo c).clusters = s.clusters := rfl
@[simp] theorem State.setCo_homes (s : State) (c : Core) : (s.setCo c).homes = s.homes := rfl
@[simp] theorem State.setCo_dram (s : State) (c : Core) : (s.setCo c).dram = s.dram := rfl
@[simp] theorem State.setCo_dramBad (s : State) (c : Core) : (s.setCo c).dramBad = s.dramBad := rfl
@[simp] theorem State.setCo_hostMem (s : State) (c : Core) : (s.setCo c).hostMem = s.hostMem := rfl
@[simp] theorem State.setCo_flights (s : State) (c : Core) : (s.setCo c).flights = s.flights := rfl
@[simp] theorem State.setCo_chan (s : State) (c : Core) : (s.setCo c).chan = s.chan := rfl
@[simp] theorem State.setCo_scarab (s : State) (c : Core) : (s.setCo c).scarab = s.scarab := rfl
@[simp] theorem State.setCo_port (s : State) (c : Core) : (s.setCo c).port = s.port := rfl
@[simp] theorem State.setCo_launches (s : State) (c : Core) : (s.setCo c).launches = s.launches := rfl
@[simp] theorem State.setCo_tables (s : State) (c : Core) : (s.setCo c).tables = s.tables := rfl
@[simp] theorem State.setCo_enf (s : State) (c : Core) : (s.setCo c).enf = s.enf := rfl
@[simp] theorem State.setCo_hl (s : State) (c : Core) : (s.setCo c).hl = s.hl := rfl
@[simp] theorem State.setCo_dbgbp (s : State) (c : Core) : (s.setCo c).dbgbp = s.dbgbp := rfl
@[simp] theorem State.setCo_pcap (s : State) (c : Core) : (s.setCo c).pcap = s.pcap := rfl
@[simp] theorem State.setCo_sorl (s : State) (c : Core) : (s.setCo c).sorl = s.sorl := rfl
@[simp] theorem State.setCo_fused (s : State) (c : Core) : (s.setCo c).fused = s.fused := rfl
@[simp] theorem State.setCo_devsn (s : State) (c : Core) : (s.setCo c).devsn = s.devsn := rfl
@[simp] theorem State.setCo_keyHash (s : State) (c : Core) : (s.setCo c).keyHash = s.keyHash := rfl
@[simp] theorem State.setCo_revoked (s : State) (c : Core) : (s.setCo c).revoked = s.revoked := rfl
@[simp] theorem State.setCo_minVersion (s : State) (c : Core) : (s.setCo c).minVersion = s.minVersion := rfl
@[simp] theorem State.setCo_fwVersion (s : State) (c : Core) : (s.setCo c).fwVersion = s.fwVersion := rfl
@[simp] theorem State.setCo_fwDigest (s : State) (c : Core) : (s.setCo c).fwDigest = s.fwDigest := rfl
@[simp] theorem State.setCo_booted (s : State) (c : Core) : (s.setCo c).booted = s.booted := rfl
@[simp] theorem State.setCo_bootPidx (s : State) (c : Core) : (s.setCo c).bootPidx = s.bootPidx := rfl
@[simp] theorem State.setCo_storage (s : State) (c : Core) : (s.setCo c).storage = s.storage := rfl
@[simp] theorem State.setCo_links (s : State) (c : Core) : (s.setCo c).links = s.links := rfl
@[simp] theorem State.setCo_flows (s : State) (c : Core) : (s.setCo c).flows = s.flows := rfl
@[simp] theorem State.setCo_froute (s : State) (c : Core) : (s.setCo c).froute = s.froute := rfl
@[simp] theorem State.setCo_cold (s : State) (c : Core) : (s.setCo c).cold = s.cold := rfl
@[simp] theorem State.setCo_ulisil (s : State) (c : Core) : (s.setCo c).ulisil = s.ulisil := rfl
@[simp] theorem State.setCo_corrected (s : State) (c : Core) : (s.setCo c).corrected = s.corrected := rfl
@[simp] theorem State.setCo_encnt (s : State) (c : Core) : (s.setCo c).encnt = s.encnt := rfl
@[simp] theorem State.setCo_site (s : State) (c : Core) : (s.setCo c).site = s.site := rfl
@[simp] theorem State.setCo_powered (s : State) (c : Core) : (s.setCo c).powered = s.powered := rfl
@[simp] theorem State.setCo_arrays (s : State) (c : Core) : (s.setCo c).arrays = s.arrays := rfl
@[simp] theorem State.setCo_on (s : State) (c : Core) : (s.setCo c).on = s.on := rfl
@[simp] theorem State.setCo_fatal (s : State) (c : Core) : (s.setCo c).fatal = s.fatal := rfl

@[simp] theorem State.setCluster_cur (s : State) (n : Nat) (c : Cluster) : (s.setCluster n c).cur = s.cur := rfl
@[simp] theorem State.setCluster_turns (s : State) (n : Nat) (c : Cluster) : (s.setCluster n c).turns = s.turns := rfl
@[simp] theorem State.setCluster_tick (s : State) (n : Nat) (c : Cluster) : (s.setCluster n c).tick = s.tick := rfl
@[simp] theorem State.setCluster_nextId (s : State) (n : Nat) (c : Cluster) : (s.setCluster n c).nextId = s.nextId := rfl
@[simp] theorem State.setCluster_cores (s : State) (n : Nat) (c : Cluster) : (s.setCluster n c).cores = s.cores := rfl
@[simp] theorem State.setCluster_homes (s : State) (n : Nat) (c : Cluster) : (s.setCluster n c).homes = s.homes := rfl
@[simp] theorem State.setCluster_dram (s : State) (n : Nat) (c : Cluster) : (s.setCluster n c).dram = s.dram := rfl
@[simp] theorem State.setCluster_dramBad (s : State) (n : Nat) (c : Cluster) : (s.setCluster n c).dramBad = s.dramBad := rfl
@[simp] theorem State.setCluster_hostMem (s : State) (n : Nat) (c : Cluster) : (s.setCluster n c).hostMem = s.hostMem := rfl
@[simp] theorem State.setCluster_flights (s : State) (n : Nat) (c : Cluster) : (s.setCluster n c).flights = s.flights := rfl
@[simp] theorem State.setCluster_chan (s : State) (n : Nat) (c : Cluster) : (s.setCluster n c).chan = s.chan := rfl
@[simp] theorem State.setCluster_scarab (s : State) (n : Nat) (c : Cluster) : (s.setCluster n c).scarab = s.scarab := rfl
@[simp] theorem State.setCluster_port (s : State) (n : Nat) (c : Cluster) : (s.setCluster n c).port = s.port := rfl
@[simp] theorem State.setCluster_launches (s : State) (n : Nat) (c : Cluster) : (s.setCluster n c).launches = s.launches := rfl
@[simp] theorem State.setCluster_tables (s : State) (n : Nat) (c : Cluster) : (s.setCluster n c).tables = s.tables := rfl
@[simp] theorem State.setCluster_enf (s : State) (n : Nat) (c : Cluster) : (s.setCluster n c).enf = s.enf := rfl
@[simp] theorem State.setCluster_hl (s : State) (n : Nat) (c : Cluster) : (s.setCluster n c).hl = s.hl := rfl
@[simp] theorem State.setCluster_dbgbp (s : State) (n : Nat) (c : Cluster) : (s.setCluster n c).dbgbp = s.dbgbp := rfl
@[simp] theorem State.setCluster_pcap (s : State) (n : Nat) (c : Cluster) : (s.setCluster n c).pcap = s.pcap := rfl
@[simp] theorem State.setCluster_sorl (s : State) (n : Nat) (c : Cluster) : (s.setCluster n c).sorl = s.sorl := rfl
@[simp] theorem State.setCluster_fused (s : State) (n : Nat) (c : Cluster) : (s.setCluster n c).fused = s.fused := rfl
@[simp] theorem State.setCluster_devsn (s : State) (n : Nat) (c : Cluster) : (s.setCluster n c).devsn = s.devsn := rfl
@[simp] theorem State.setCluster_keyHash (s : State) (n : Nat) (c : Cluster) : (s.setCluster n c).keyHash = s.keyHash := rfl
@[simp] theorem State.setCluster_revoked (s : State) (n : Nat) (c : Cluster) : (s.setCluster n c).revoked = s.revoked := rfl
@[simp] theorem State.setCluster_minVersion (s : State) (n : Nat) (c : Cluster) :
    (s.setCluster n c).minVersion = s.minVersion := rfl
@[simp] theorem State.setCluster_fwVersion (s : State) (n : Nat) (c : Cluster) :
    (s.setCluster n c).fwVersion = s.fwVersion := rfl
@[simp] theorem State.setCluster_fwDigest (s : State) (n : Nat) (c : Cluster) : (s.setCluster n c).fwDigest = s.fwDigest := rfl
@[simp] theorem State.setCluster_booted (s : State) (n : Nat) (c : Cluster) : (s.setCluster n c).booted = s.booted := rfl
@[simp] theorem State.setCluster_bootPidx (s : State) (n : Nat) (c : Cluster) : (s.setCluster n c).bootPidx = s.bootPidx := rfl
@[simp] theorem State.setCluster_storage (s : State) (n : Nat) (c : Cluster) : (s.setCluster n c).storage = s.storage := rfl
@[simp] theorem State.setCluster_links (s : State) (n : Nat) (c : Cluster) : (s.setCluster n c).links = s.links := rfl
@[simp] theorem State.setCluster_flows (s : State) (n : Nat) (c : Cluster) : (s.setCluster n c).flows = s.flows := rfl
@[simp] theorem State.setCluster_froute (s : State) (n : Nat) (c : Cluster) : (s.setCluster n c).froute = s.froute := rfl
@[simp] theorem State.setCluster_cold (s : State) (n : Nat) (c : Cluster) : (s.setCluster n c).cold = s.cold := rfl
@[simp] theorem State.setCluster_ulisil (s : State) (n : Nat) (c : Cluster) : (s.setCluster n c).ulisil = s.ulisil := rfl
@[simp] theorem State.setCluster_corrected (s : State) (n : Nat) (c : Cluster) :
    (s.setCluster n c).corrected = s.corrected := rfl
@[simp] theorem State.setCluster_encnt (s : State) (n : Nat) (c : Cluster) : (s.setCluster n c).encnt = s.encnt := rfl
@[simp] theorem State.setCluster_site (s : State) (n : Nat) (c : Cluster) : (s.setCluster n c).site = s.site := rfl
@[simp] theorem State.setCluster_powered (s : State) (n : Nat) (c : Cluster) : (s.setCluster n c).powered = s.powered := rfl
@[simp] theorem State.setCluster_arrays (s : State) (n : Nat) (c : Cluster) : (s.setCluster n c).arrays = s.arrays := rfl
@[simp] theorem State.setCluster_on (s : State) (n : Nat) (c : Cluster) : (s.setCluster n c).on = s.on := rfl
@[simp] theorem State.setCluster_fatal (s : State) (n : Nat) (c : Cluster) : (s.setCluster n c).fatal = s.fatal := rfl

@[simp] theorem State.setHome_cur (s : State) (n : Nat) (c : Home) : (s.setHome n c).cur = s.cur := rfl
@[simp] theorem State.setHome_turns (s : State) (n : Nat) (c : Home) : (s.setHome n c).turns = s.turns := rfl
@[simp] theorem State.setHome_tick (s : State) (n : Nat) (c : Home) : (s.setHome n c).tick = s.tick := rfl
@[simp] theorem State.setHome_nextId (s : State) (n : Nat) (c : Home) : (s.setHome n c).nextId = s.nextId := rfl
@[simp] theorem State.setHome_cores (s : State) (n : Nat) (c : Home) : (s.setHome n c).cores = s.cores := rfl
@[simp] theorem State.setHome_clusters (s : State) (n : Nat) (c : Home) : (s.setHome n c).clusters = s.clusters := rfl
@[simp] theorem State.setHome_dram (s : State) (n : Nat) (c : Home) : (s.setHome n c).dram = s.dram := rfl
@[simp] theorem State.setHome_dramBad (s : State) (n : Nat) (c : Home) : (s.setHome n c).dramBad = s.dramBad := rfl
@[simp] theorem State.setHome_hostMem (s : State) (n : Nat) (c : Home) : (s.setHome n c).hostMem = s.hostMem := rfl
@[simp] theorem State.setHome_flights (s : State) (n : Nat) (c : Home) : (s.setHome n c).flights = s.flights := rfl
@[simp] theorem State.setHome_chan (s : State) (n : Nat) (c : Home) : (s.setHome n c).chan = s.chan := rfl
@[simp] theorem State.setHome_scarab (s : State) (n : Nat) (c : Home) : (s.setHome n c).scarab = s.scarab := rfl
@[simp] theorem State.setHome_port (s : State) (n : Nat) (c : Home) : (s.setHome n c).port = s.port := rfl
@[simp] theorem State.setHome_launches (s : State) (n : Nat) (c : Home) : (s.setHome n c).launches = s.launches := rfl
@[simp] theorem State.setHome_tables (s : State) (n : Nat) (c : Home) : (s.setHome n c).tables = s.tables := rfl
@[simp] theorem State.setHome_enf (s : State) (n : Nat) (c : Home) : (s.setHome n c).enf = s.enf := rfl
@[simp] theorem State.setHome_hl (s : State) (n : Nat) (c : Home) : (s.setHome n c).hl = s.hl := rfl
@[simp] theorem State.setHome_dbgbp (s : State) (n : Nat) (c : Home) : (s.setHome n c).dbgbp = s.dbgbp := rfl
@[simp] theorem State.setHome_pcap (s : State) (n : Nat) (c : Home) : (s.setHome n c).pcap = s.pcap := rfl
@[simp] theorem State.setHome_sorl (s : State) (n : Nat) (c : Home) : (s.setHome n c).sorl = s.sorl := rfl
@[simp] theorem State.setHome_fused (s : State) (n : Nat) (c : Home) : (s.setHome n c).fused = s.fused := rfl
@[simp] theorem State.setHome_devsn (s : State) (n : Nat) (c : Home) : (s.setHome n c).devsn = s.devsn := rfl
@[simp] theorem State.setHome_keyHash (s : State) (n : Nat) (c : Home) : (s.setHome n c).keyHash = s.keyHash := rfl
@[simp] theorem State.setHome_revoked (s : State) (n : Nat) (c : Home) : (s.setHome n c).revoked = s.revoked := rfl
@[simp] theorem State.setHome_minVersion (s : State) (n : Nat) (c : Home) : (s.setHome n c).minVersion = s.minVersion := rfl
@[simp] theorem State.setHome_fwVersion (s : State) (n : Nat) (c : Home) : (s.setHome n c).fwVersion = s.fwVersion := rfl
@[simp] theorem State.setHome_fwDigest (s : State) (n : Nat) (c : Home) : (s.setHome n c).fwDigest = s.fwDigest := rfl
@[simp] theorem State.setHome_booted (s : State) (n : Nat) (c : Home) : (s.setHome n c).booted = s.booted := rfl
@[simp] theorem State.setHome_bootPidx (s : State) (n : Nat) (c : Home) : (s.setHome n c).bootPidx = s.bootPidx := rfl
@[simp] theorem State.setHome_storage (s : State) (n : Nat) (c : Home) : (s.setHome n c).storage = s.storage := rfl
@[simp] theorem State.setHome_links (s : State) (n : Nat) (c : Home) : (s.setHome n c).links = s.links := rfl
@[simp] theorem State.setHome_flows (s : State) (n : Nat) (c : Home) : (s.setHome n c).flows = s.flows := rfl
@[simp] theorem State.setHome_froute (s : State) (n : Nat) (c : Home) : (s.setHome n c).froute = s.froute := rfl
@[simp] theorem State.setHome_cold (s : State) (n : Nat) (c : Home) : (s.setHome n c).cold = s.cold := rfl
@[simp] theorem State.setHome_ulisil (s : State) (n : Nat) (c : Home) : (s.setHome n c).ulisil = s.ulisil := rfl
@[simp] theorem State.setHome_corrected (s : State) (n : Nat) (c : Home) : (s.setHome n c).corrected = s.corrected := rfl
@[simp] theorem State.setHome_encnt (s : State) (n : Nat) (c : Home) : (s.setHome n c).encnt = s.encnt := rfl
@[simp] theorem State.setHome_site (s : State) (n : Nat) (c : Home) : (s.setHome n c).site = s.site := rfl
@[simp] theorem State.setHome_powered (s : State) (n : Nat) (c : Home) : (s.setHome n c).powered = s.powered := rfl
@[simp] theorem State.setHome_arrays (s : State) (n : Nat) (c : Home) : (s.setHome n c).arrays = s.arrays := rfl
@[simp] theorem State.setHome_on (s : State) (n : Nat) (c : Home) : (s.setHome n c).on = s.on := rfl
@[simp] theorem State.setHome_fatal (s : State) (n : Nat) (c : Home) : (s.setHome n c).fatal = s.fatal := rfl

@[simp] theorem State.bump_cur (s : State) : (s.bump).cur = s.cur := rfl
@[simp] theorem State.bump_turns (s : State) : (s.bump).turns = s.turns := rfl
@[simp] theorem State.bump_nextId (s : State) : (s.bump).nextId = s.nextId := rfl
@[simp] theorem State.bump_cores (s : State) : (s.bump).cores = s.cores := rfl
@[simp] theorem State.bump_clusters (s : State) : (s.bump).clusters = s.clusters := rfl
@[simp] theorem State.bump_homes (s : State) : (s.bump).homes = s.homes := rfl
@[simp] theorem State.bump_dram (s : State) : (s.bump).dram = s.dram := rfl
@[simp] theorem State.bump_dramBad (s : State) : (s.bump).dramBad = s.dramBad := rfl
@[simp] theorem State.bump_hostMem (s : State) : (s.bump).hostMem = s.hostMem := rfl
@[simp] theorem State.bump_flights (s : State) : (s.bump).flights = s.flights := rfl
@[simp] theorem State.bump_chan (s : State) : (s.bump).chan = s.chan := rfl
@[simp] theorem State.bump_scarab (s : State) : (s.bump).scarab = s.scarab := rfl
@[simp] theorem State.bump_port (s : State) : (s.bump).port = s.port := rfl
@[simp] theorem State.bump_launches (s : State) : (s.bump).launches = s.launches := rfl
@[simp] theorem State.bump_tables (s : State) : (s.bump).tables = s.tables := rfl
@[simp] theorem State.bump_enf (s : State) : (s.bump).enf = s.enf := rfl
@[simp] theorem State.bump_hl (s : State) : (s.bump).hl = s.hl := rfl
@[simp] theorem State.bump_dbgbp (s : State) : (s.bump).dbgbp = s.dbgbp := rfl
@[simp] theorem State.bump_pcap (s : State) : (s.bump).pcap = s.pcap := rfl
@[simp] theorem State.bump_sorl (s : State) : (s.bump).sorl = s.sorl := rfl
@[simp] theorem State.bump_fused (s : State) : (s.bump).fused = s.fused := rfl
@[simp] theorem State.bump_devsn (s : State) : (s.bump).devsn = s.devsn := rfl
@[simp] theorem State.bump_keyHash (s : State) : (s.bump).keyHash = s.keyHash := rfl
@[simp] theorem State.bump_revoked (s : State) : (s.bump).revoked = s.revoked := rfl
@[simp] theorem State.bump_minVersion (s : State) : (s.bump).minVersion = s.minVersion := rfl
@[simp] theorem State.bump_fwVersion (s : State) : (s.bump).fwVersion = s.fwVersion := rfl
@[simp] theorem State.bump_fwDigest (s : State) : (s.bump).fwDigest = s.fwDigest := rfl
@[simp] theorem State.bump_booted (s : State) : (s.bump).booted = s.booted := rfl
@[simp] theorem State.bump_bootPidx (s : State) : (s.bump).bootPidx = s.bootPidx := rfl
@[simp] theorem State.bump_storage (s : State) : (s.bump).storage = s.storage := rfl
@[simp] theorem State.bump_links (s : State) : (s.bump).links = s.links := rfl
@[simp] theorem State.bump_flows (s : State) : (s.bump).flows = s.flows := rfl
@[simp] theorem State.bump_froute (s : State) : (s.bump).froute = s.froute := rfl
@[simp] theorem State.bump_cold (s : State) : (s.bump).cold = s.cold := rfl
@[simp] theorem State.bump_ulisil (s : State) : (s.bump).ulisil = s.ulisil := rfl
@[simp] theorem State.bump_corrected (s : State) : (s.bump).corrected = s.corrected := rfl
@[simp] theorem State.bump_encnt (s : State) : (s.bump).encnt = s.encnt := rfl
@[simp] theorem State.bump_site (s : State) : (s.bump).site = s.site := rfl
@[simp] theorem State.bump_powered (s : State) : (s.bump).powered = s.powered := rfl
@[simp] theorem State.bump_arrays (s : State) : (s.bump).arrays = s.arrays := rfl
@[simp] theorem State.bump_on (s : State) : (s.bump).on = s.on := rfl
@[simp] theorem State.bump_fatal (s : State) : (s.bump).fatal = s.fatal := rfl

/-! ## Fields of a core -/

@[simp] theorem Core.setThread_lcore (c : Core) (i : Nat) (t : Thread) : (c.setThread i t).lcore = c.lcore := rfl
@[simp] theorem Core.setThread_numbered (c : Core) (i : Nat) (t : Thread) : (c.setThread i t).numbered = c.numbered := rfl
@[simp] theorem Core.setThread_cyc (c : Core) (i : Nat) (t : Thread) : (c.setThread i t).cyc = c.cyc := rfl
@[simp] theorem Core.setThread_ls (c : Core) (i : Nat) (t : Thread) : (c.setThread i t).ls = c.ls := rfl
@[simp] theorem Core.setThread_lsBad (c : Core) (i : Nat) (t : Thread) : (c.setThread i t).lsBad = c.lsBad := rfl
@[simp] theorem Core.setThread_ws (c : Core) (i : Nat) (t : Thread) : (c.setThread i t).ws = c.ws := rfl
@[simp] theorem Core.setThread_wsBad (c : Core) (i : Nat) (t : Thread) : (c.setThread i t).wsBad = c.wsBad := rfl
@[simp] theorem Core.setThread_l1 (c : Core) (i : Nat) (t : Thread) : (c.setThread i t).l1 = c.l1 := rfl
@[simp] theorem Core.setThread_epoch (c : Core) (i : Nat) (t : Thread) : (c.setThread i t).epoch = c.epoch := rfl
@[simp] theorem Core.setThread_wsn (c : Core) (i : Nat) (t : Thread) : (c.setThread i t).wsn = c.wsn := rfl
@[simp] theorem Core.setThread_flog (c : Core) (i : Nat) (t : Thread) : (c.setThread i t).flog = c.flog := rfl
@[simp] theorem Core.setThread_fcnt (c : Core) (i : Nat) (t : Thread) : (c.setThread i t).fcnt = c.fcnt := rfl
@[simp] theorem Core.setThread_hlog (c : Core) (i : Nat) (t : Thread) : (c.setThread i t).hlog = c.hlog := rfl
@[simp] theorem Core.setThread_thbEn (c : Core) (i : Nat) (t : Thread) : (c.setThread i t).thbEn = c.thbEn := rfl
@[simp] theorem Core.setThread_thbBase (c : Core) (i : Nat) (t : Thread) : (c.setThread i t).thbBase = c.thbBase := rfl
@[simp] theorem Core.setThread_ring (c : Core) (i : Nat) (t : Thread) : (c.setThread i t).ring = c.ring := rfl
@[simp] theorem Core.setThread_hive (c : Core) (i : Nat) (t : Thread) : (c.setThread i t).hive = c.hive := rfl
@[simp] theorem Core.setThread_banks (c : Core) (i : Nat) (t : Thread) : (c.setThread i t).banks = c.banks := rfl
@[simp] theorem Core.setThread_tags (c : Core) (i : Nat) (t : Thread) : (c.setThread i t).tags = c.tags := rfl
@[simp] theorem Core.setThread_accBad (c : Core) (i : Nat) (t : Thread) : (c.setThread i t).accBad = c.accBad := rfl
@[simp] theorem Core.setThread_arr (c : Core) (i : Nat) (t : Thread) : (c.setThread i t).arr = c.arr := rfl
@[simp] theorem Core.setThread_lastFmt (c : Core) (i : Nat) (t : Thread) : (c.setThread i t).lastFmt = c.lastFmt := rfl
@[simp] theorem Core.setThread_ops (c : Core) (i : Nat) (t : Thread) : (c.setThread i t).ops = c.ops := rfl
@[simp] theorem Core.setThread_fences (c : Core) (i : Nat) (t : Thread) : (c.setThread i t).fences = c.fences := rfl
@[simp] theorem Core.setThread_deque (c : Core) (i : Nat) (t : Thread) : (c.setThread i t).deque = c.deque := rfl
@[simp] theorem Core.setThread_runList (c : Core) (i : Nat) (t : Thread) : (c.setThread i t).runList = c.runList := rfl
@[simp] theorem Core.setThread_parked (c : Core) (i : Nat) (t : Thread) : (c.setThread i t).parked = c.parked := rfl
@[simp] theorem Core.setThread_hwq (c : Core) (i : Nat) (t : Thread) : (c.setThread i t).hwq = c.hwq := rfl
@[simp] theorem Core.setThread_tlb (c : Core) (i : Nat) (t : Thread) : (c.setThread i t).tlb = c.tlb := rfl
@[simp] theorem Core.setThread_frames (c : Core) (i : Nat) (t : Thread) : (c.setThread i t).frames = c.frames := rfl
@[simp] theorem Core.setThread_bankFree (c : Core) (i : Nat) (t : Thread) : (c.setThread i t).bankFree = c.bankFree := rfl
@[simp] theorem Core.setThread_logOps (c : Core) (i : Nat) (t : Thread) : (c.setThread i t).logOps = c.logOps := rfl
@[simp] theorem Core.setThread_saveBad (c : Core) (i : Nat) (t : Thread) : (c.setThread i t).saveBad = c.saveBad := rfl
@[simp] theorem Core.setThread_lost (c : Core) (i : Nat) (t : Thread) : (c.setThread i t).lost = c.lost := rfl
@[simp] theorem Core.setThread_hiveWalk (c : Core) (i : Nat) (t : Thread) : (c.setThread i t).hiveWalk = c.hiveWalk := rfl
@[simp] theorem Core.setThread_stealDir (c : Core) (i : Nat) (t : Thread) : (c.setThread i t).stealDir = c.stealDir := rfl
@[simp] theorem Core.setThread_stealing (c : Core) (i : Nat) (t : Thread) : (c.setThread i t).stealing = c.stealing := rfl
@[simp] theorem Core.setThread_wdog (c : Core) (i : Nat) (t : Thread) : (c.setThread i t).wdog = c.wdog := rfl
@[simp] theorem Core.setThread_gov (c : Core) (i : Nat) (t : Thread) : (c.setThread i t).gov = c.gov := rfl
@[simp] theorem Core.setThread_pre (c : Core) (i : Nat) (t : Thread) : (c.setThread i t).pre = c.pre := rfl
@[simp] theorem Core.setThread_saved (c : Core) (i : Nat) (t : Thread) : (c.setThread i t).saved = c.saved := rfl

@[simp] theorem Core.setQueue_lcore (c : Core) (q : Nat) (x : HwQ) : (c.setQueue q x).lcore = c.lcore := rfl
@[simp] theorem Core.setQueue_numbered (c : Core) (q : Nat) (x : HwQ) : (c.setQueue q x).numbered = c.numbered := rfl
@[simp] theorem Core.setQueue_cyc (c : Core) (q : Nat) (x : HwQ) : (c.setQueue q x).cyc = c.cyc := rfl
@[simp] theorem Core.setQueue_threads (c : Core) (q : Nat) (x : HwQ) : (c.setQueue q x).threads = c.threads := rfl
@[simp] theorem Core.setQueue_ls (c : Core) (q : Nat) (x : HwQ) : (c.setQueue q x).ls = c.ls := rfl
@[simp] theorem Core.setQueue_lsBad (c : Core) (q : Nat) (x : HwQ) : (c.setQueue q x).lsBad = c.lsBad := rfl
@[simp] theorem Core.setQueue_ws (c : Core) (q : Nat) (x : HwQ) : (c.setQueue q x).ws = c.ws := rfl
@[simp] theorem Core.setQueue_wsBad (c : Core) (q : Nat) (x : HwQ) : (c.setQueue q x).wsBad = c.wsBad := rfl
@[simp] theorem Core.setQueue_l1 (c : Core) (q : Nat) (x : HwQ) : (c.setQueue q x).l1 = c.l1 := rfl
@[simp] theorem Core.setQueue_epoch (c : Core) (q : Nat) (x : HwQ) : (c.setQueue q x).epoch = c.epoch := rfl
@[simp] theorem Core.setQueue_wsn (c : Core) (q : Nat) (x : HwQ) : (c.setQueue q x).wsn = c.wsn := rfl
@[simp] theorem Core.setQueue_flog (c : Core) (q : Nat) (x : HwQ) : (c.setQueue q x).flog = c.flog := rfl
@[simp] theorem Core.setQueue_fcnt (c : Core) (q : Nat) (x : HwQ) : (c.setQueue q x).fcnt = c.fcnt := rfl
@[simp] theorem Core.setQueue_hlog (c : Core) (q : Nat) (x : HwQ) : (c.setQueue q x).hlog = c.hlog := rfl
@[simp] theorem Core.setQueue_thbEn (c : Core) (q : Nat) (x : HwQ) : (c.setQueue q x).thbEn = c.thbEn := rfl
@[simp] theorem Core.setQueue_thbBase (c : Core) (q : Nat) (x : HwQ) : (c.setQueue q x).thbBase = c.thbBase := rfl
@[simp] theorem Core.setQueue_ring (c : Core) (q : Nat) (x : HwQ) : (c.setQueue q x).ring = c.ring := rfl
@[simp] theorem Core.setQueue_hive (c : Core) (q : Nat) (x : HwQ) : (c.setQueue q x).hive = c.hive := rfl
@[simp] theorem Core.setQueue_banks (c : Core) (q : Nat) (x : HwQ) : (c.setQueue q x).banks = c.banks := rfl
@[simp] theorem Core.setQueue_tags (c : Core) (q : Nat) (x : HwQ) : (c.setQueue q x).tags = c.tags := rfl
@[simp] theorem Core.setQueue_accBad (c : Core) (q : Nat) (x : HwQ) : (c.setQueue q x).accBad = c.accBad := rfl
@[simp] theorem Core.setQueue_arr (c : Core) (q : Nat) (x : HwQ) : (c.setQueue q x).arr = c.arr := rfl
@[simp] theorem Core.setQueue_lastFmt (c : Core) (q : Nat) (x : HwQ) : (c.setQueue q x).lastFmt = c.lastFmt := rfl
@[simp] theorem Core.setQueue_ops (c : Core) (q : Nat) (x : HwQ) : (c.setQueue q x).ops = c.ops := rfl
@[simp] theorem Core.setQueue_fences (c : Core) (q : Nat) (x : HwQ) : (c.setQueue q x).fences = c.fences := rfl
@[simp] theorem Core.setQueue_deque (c : Core) (q : Nat) (x : HwQ) : (c.setQueue q x).deque = c.deque := rfl
@[simp] theorem Core.setQueue_runList (c : Core) (q : Nat) (x : HwQ) : (c.setQueue q x).runList = c.runList := rfl
@[simp] theorem Core.setQueue_parked (c : Core) (q : Nat) (x : HwQ) : (c.setQueue q x).parked = c.parked := rfl
@[simp] theorem Core.setQueue_tlb (c : Core) (q : Nat) (x : HwQ) : (c.setQueue q x).tlb = c.tlb := rfl
@[simp] theorem Core.setQueue_frames (c : Core) (q : Nat) (x : HwQ) : (c.setQueue q x).frames = c.frames := rfl
@[simp] theorem Core.setQueue_bankFree (c : Core) (q : Nat) (x : HwQ) : (c.setQueue q x).bankFree = c.bankFree := rfl
@[simp] theorem Core.setQueue_logOps (c : Core) (q : Nat) (x : HwQ) : (c.setQueue q x).logOps = c.logOps := rfl
@[simp] theorem Core.setQueue_saveBad (c : Core) (q : Nat) (x : HwQ) : (c.setQueue q x).saveBad = c.saveBad := rfl
@[simp] theorem Core.setQueue_lost (c : Core) (q : Nat) (x : HwQ) : (c.setQueue q x).lost = c.lost := rfl
@[simp] theorem Core.setQueue_hiveWalk (c : Core) (q : Nat) (x : HwQ) : (c.setQueue q x).hiveWalk = c.hiveWalk := rfl
@[simp] theorem Core.setQueue_stealDir (c : Core) (q : Nat) (x : HwQ) : (c.setQueue q x).stealDir = c.stealDir := rfl
@[simp] theorem Core.setQueue_stealing (c : Core) (q : Nat) (x : HwQ) : (c.setQueue q x).stealing = c.stealing := rfl
@[simp] theorem Core.setQueue_wdog (c : Core) (q : Nat) (x : HwQ) : (c.setQueue q x).wdog = c.wdog := rfl
@[simp] theorem Core.setQueue_gov (c : Core) (q : Nat) (x : HwQ) : (c.setQueue q x).gov = c.gov := rfl
@[simp] theorem Core.setQueue_pre (c : Core) (q : Nat) (x : HwQ) : (c.setQueue q x).pre = c.pre := rfl
@[simp] theorem Core.setQueue_saved (c : Core) (q : Nat) (x : HwQ) : (c.setQueue q x).saved = c.saved := rfl

@[simp] theorem Core.setLine_lcore (c : Core) (l : Line) : (c.setLine l).lcore = c.lcore := rfl
@[simp] theorem Core.setLine_numbered (c : Core) (l : Line) : (c.setLine l).numbered = c.numbered := rfl
@[simp] theorem Core.setLine_cyc (c : Core) (l : Line) : (c.setLine l).cyc = c.cyc := rfl
@[simp] theorem Core.setLine_threads (c : Core) (l : Line) : (c.setLine l).threads = c.threads := rfl
@[simp] theorem Core.setLine_ls (c : Core) (l : Line) : (c.setLine l).ls = c.ls := rfl
@[simp] theorem Core.setLine_lsBad (c : Core) (l : Line) : (c.setLine l).lsBad = c.lsBad := rfl
@[simp] theorem Core.setLine_ws (c : Core) (l : Line) : (c.setLine l).ws = c.ws := rfl
@[simp] theorem Core.setLine_wsBad (c : Core) (l : Line) : (c.setLine l).wsBad = c.wsBad := rfl
@[simp] theorem Core.setLine_epoch (c : Core) (l : Line) : (c.setLine l).epoch = c.epoch := rfl
@[simp] theorem Core.setLine_wsn (c : Core) (l : Line) : (c.setLine l).wsn = c.wsn := rfl
@[simp] theorem Core.setLine_flog (c : Core) (l : Line) : (c.setLine l).flog = c.flog := rfl
@[simp] theorem Core.setLine_fcnt (c : Core) (l : Line) : (c.setLine l).fcnt = c.fcnt := rfl
@[simp] theorem Core.setLine_hlog (c : Core) (l : Line) : (c.setLine l).hlog = c.hlog := rfl
@[simp] theorem Core.setLine_thbEn (c : Core) (l : Line) : (c.setLine l).thbEn = c.thbEn := rfl
@[simp] theorem Core.setLine_thbBase (c : Core) (l : Line) : (c.setLine l).thbBase = c.thbBase := rfl
@[simp] theorem Core.setLine_ring (c : Core) (l : Line) : (c.setLine l).ring = c.ring := rfl
@[simp] theorem Core.setLine_hive (c : Core) (l : Line) : (c.setLine l).hive = c.hive := rfl
@[simp] theorem Core.setLine_banks (c : Core) (l : Line) : (c.setLine l).banks = c.banks := rfl
@[simp] theorem Core.setLine_tags (c : Core) (l : Line) : (c.setLine l).tags = c.tags := rfl
@[simp] theorem Core.setLine_accBad (c : Core) (l : Line) : (c.setLine l).accBad = c.accBad := rfl
@[simp] theorem Core.setLine_arr (c : Core) (l : Line) : (c.setLine l).arr = c.arr := rfl
@[simp] theorem Core.setLine_lastFmt (c : Core) (l : Line) : (c.setLine l).lastFmt = c.lastFmt := rfl
@[simp] theorem Core.setLine_ops (c : Core) (l : Line) : (c.setLine l).ops = c.ops := rfl
@[simp] theorem Core.setLine_fences (c : Core) (l : Line) : (c.setLine l).fences = c.fences := rfl
@[simp] theorem Core.setLine_deque (c : Core) (l : Line) : (c.setLine l).deque = c.deque := rfl
@[simp] theorem Core.setLine_runList (c : Core) (l : Line) : (c.setLine l).runList = c.runList := rfl
@[simp] theorem Core.setLine_parked (c : Core) (l : Line) : (c.setLine l).parked = c.parked := rfl
@[simp] theorem Core.setLine_hwq (c : Core) (l : Line) : (c.setLine l).hwq = c.hwq := rfl
@[simp] theorem Core.setLine_tlb (c : Core) (l : Line) : (c.setLine l).tlb = c.tlb := rfl
@[simp] theorem Core.setLine_frames (c : Core) (l : Line) : (c.setLine l).frames = c.frames := rfl
@[simp] theorem Core.setLine_bankFree (c : Core) (l : Line) : (c.setLine l).bankFree = c.bankFree := rfl
@[simp] theorem Core.setLine_logOps (c : Core) (l : Line) : (c.setLine l).logOps = c.logOps := rfl
@[simp] theorem Core.setLine_saveBad (c : Core) (l : Line) : (c.setLine l).saveBad = c.saveBad := rfl
@[simp] theorem Core.setLine_lost (c : Core) (l : Line) : (c.setLine l).lost = c.lost := rfl
@[simp] theorem Core.setLine_hiveWalk (c : Core) (l : Line) : (c.setLine l).hiveWalk = c.hiveWalk := rfl
@[simp] theorem Core.setLine_stealDir (c : Core) (l : Line) : (c.setLine l).stealDir = c.stealDir := rfl
@[simp] theorem Core.setLine_stealing (c : Core) (l : Line) : (c.setLine l).stealing = c.stealing := rfl
@[simp] theorem Core.setLine_wdog (c : Core) (l : Line) : (c.setLine l).wdog = c.wdog := rfl
@[simp] theorem Core.setLine_gov (c : Core) (l : Line) : (c.setLine l).gov = c.gov := rfl
@[simp] theorem Core.setLine_pre (c : Core) (l : Line) : (c.setLine l).pre = c.pre := rfl
@[simp] theorem Core.setLine_saved (c : Core) (l : Line) : (c.setLine l).saved = c.saved := rfl

/-! ## Fields of a thread -/

@[simp] theorem Thread.setSreg_run (t : Thread) (n : Nat) (x : Word) : (t.setSreg n x).run = t.run := by
  unfold Thread.setSreg; split; rfl; split <;> rfl
@[simp] theorem Thread.setSreg_pc (t : Thread) (n : Nat) (x : Word) : (t.setSreg n x).pc = t.pc := by
  unfold Thread.setSreg; split; rfl; split <;> rfl
@[simp] theorem Thread.setSreg_depth (t : Thread) (n : Nat) (x : Word) : (t.setSreg n x).depth = t.depth := by
  unfold Thread.setSreg; split; rfl; split <;> rfl
@[simp] theorem Thread.setSreg_resLo (t : Thread) (n : Nat) (x : Word) : (t.setSreg n x).resLo = t.resLo := by
  unfold Thread.setSreg; split; rfl; split <;> rfl
@[simp] theorem Thread.setSreg_vec (t : Thread) (n : Nat) (x : Word) : (t.setSreg n x).vec = t.vec := by
  unfold Thread.setSreg; split; rfl; split <;> rfl
@[simp] theorem Thread.setSreg_prd (t : Thread) (n : Nat) (x : Word) : (t.setSreg n x).prd = t.prd := by
  unfold Thread.setSreg; split; rfl; split <;> rfl
@[simp] theorem Thread.setSreg_ext (t : Thread) (n : Nat) (x : Word) : (t.setSreg n x).ext = t.ext := by
  unfold Thread.setSreg; split; rfl; split <;> rfl
@[simp] theorem Thread.setSreg_wid (t : Thread) (n : Nat) (x : Word) : (t.setSreg n x).wid = t.wid := by
  unfold Thread.setSreg; split; rfl; split <;> rfl
@[simp] theorem Thread.setSreg_rnd (t : Thread) (n : Nat) (x : Word) : (t.setSreg n x).rnd = t.rnd := by
  unfold Thread.setSreg; split; rfl; split <;> rfl
@[simp] theorem Thread.setSreg_flg (t : Thread) (n : Nat) (x : Word) : (t.setSreg n x).flg = t.flg := by
  unfold Thread.setSreg; split; rfl; split <;> rfl
@[simp] theorem Thread.setSreg_srs (t : Thread) (n : Nat) (x : Word) : (t.setSreg n x).srs = t.srs := by
  unfold Thread.setSreg; split; rfl; split <;> rfl
@[simp] theorem Thread.setSreg_dpat (t : Thread) (n : Nat) (x : Word) : (t.setSreg n x).dpat = t.dpat := by
  unfold Thread.setSreg; split; rfl; split <;> rfl
@[simp] theorem Thread.setSreg_cntL (t : Thread) (n : Nat) (x : Word) : (t.setSreg n x).cntL = t.cntL := by
  unfold Thread.setSreg; split; rfl; split <;> rfl
@[simp] theorem Thread.setSreg_cntS (t : Thread) (n : Nat) (x : Word) : (t.setSreg n x).cntS = t.cntS := by
  unfold Thread.setSreg; split; rfl; split <;> rfl
@[simp] theorem Thread.setSreg_cntC (t : Thread) (n : Nat) (x : Word) : (t.setSreg n x).cntC = t.cntC := by
  unfold Thread.setSreg; split; rfl; split <;> rfl
@[simp] theorem Thread.setSreg_cntT (t : Thread) (n : Nat) (x : Word) : (t.setSreg n x).cntT = t.cntT := by
  unfold Thread.setSreg; split; rfl; split <;> rfl
@[simp] theorem Thread.setSreg_acc (t : Thread) (n : Nat) (x : Word) : (t.setSreg n x).acc = t.acc := by
  unfold Thread.setSreg; split; rfl; split <;> rfl
@[simp] theorem Thread.setSreg_accQ (t : Thread) (n : Nat) (x : Word) : (t.setSreg n x).accQ = t.accQ := by
  unfold Thread.setSreg; split; rfl; split <;> rfl
@[simp] theorem Thread.setSreg_xpc (t : Thread) (n : Nat) (x : Word) : (t.setSreg n x).xpc = t.xpc := by
  unfold Thread.setSreg; split; rfl; split <;> rfl
@[simp] theorem Thread.setSreg_xval (t : Thread) (n : Nat) (x : Word) : (t.setSreg n x).xval = t.xval := by
  unfold Thread.setSreg; split; rfl; split <;> rfl
@[simp] theorem Thread.setSreg_xcode (t : Thread) (n : Nat) (x : Word) : (t.setSreg n x).xcode = t.xcode := by
  unfold Thread.setSreg; split; rfl; split <;> rfl
@[simp] theorem Thread.setSreg_ppriv (t : Thread) (n : Nat) (x : Word) : (t.setSreg n x).ppriv = t.ppriv := by
  unfold Thread.setSreg; split; rfl; split <;> rfl
@[simp] theorem Thread.setSreg_pqmap (t : Thread) (n : Nat) (x : Word) : (t.setSreg n x).pqmap = t.pqmap := by
  unfold Thread.setSreg; split; rfl; split <;> rfl
@[simp] theorem Thread.setSreg_act (t : Thread) (n : Nat) (x : Word) : (t.setSreg n x).act = t.act := by
  unfold Thread.setSreg; split; rfl; split <;> rfl
@[simp] theorem Thread.setSreg_wsr (t : Thread) (n : Nat) (x : Word) : (t.setSreg n x).wsr = t.wsr := by
  unfold Thread.setSreg; split; rfl; split <;> rfl
@[simp] theorem Thread.setSreg_gen (t : Thread) (n : Nat) (x : Word) : (t.setSreg n x).gen = t.gen := by
  unfold Thread.setSreg; split; rfl; split <;> rfl
@[simp] theorem Thread.setSreg_priv (t : Thread) (n : Nat) (x : Word) : (t.setSreg n x).priv = t.priv := by
  unfold Thread.setSreg; split; rfl; split <;> rfl
@[simp] theorem Thread.setSreg_pair (t : Thread) (n : Nat) (x : Word) : (t.setSreg n x).pair = t.pair := by
  unfold Thread.setSreg; split; rfl; split <;> rfl
@[simp] theorem Thread.setSreg_qmap (t : Thread) (n : Nat) (x : Word) : (t.setSreg n x).qmap = t.qmap := by
  unfold Thread.setSreg; split; rfl; split <;> rfl
@[simp] theorem Thread.setSreg_stctx (t : Thread) (n : Nat) (x : Word) : (t.setSreg n x).stctx = t.stctx := by
  unfold Thread.setSreg; split; rfl; split <;> rfl
@[simp] theorem Thread.setSreg_stctl (t : Thread) (n : Nat) (x : Word) : (t.setSreg n x).stctl = t.stctl := by
  unfold Thread.setSreg; split; rfl; split <;> rfl
@[simp] theorem Thread.setSreg_task (t : Thread) (n : Nat) (x : Word) : (t.setSreg n x).task = t.task := by
  unfold Thread.setSreg; split; rfl; split <;> rfl
@[simp] theorem Thread.setSreg_inl (t : Thread) (n : Nat) (x : Word) : (t.setSreg n x).inl = t.inl := by
  unfold Thread.setSreg; split; rfl; split <;> rfl
@[simp] theorem Thread.setSreg_mbHi (t : Thread) (n : Nat) (x : Word) : (t.setSreg n x).mbHi = t.mbHi := by
  unfold Thread.setSreg; split; rfl; split <;> rfl
@[simp] theorem Thread.setSreg_mbLo (t : Thread) (n : Nat) (x : Word) : (t.setSreg n x).mbLo = t.mbLo := by
  unfold Thread.setSreg; split; rfl; split <;> rfl
@[simp] theorem Thread.setSreg_pend (t : Thread) (n : Nat) (x : Word) : (t.setSreg n x).pend = t.pend := by
  unfold Thread.setSreg; split; rfl; split <;> rfl
@[simp] theorem Thread.setSreg_loads (t : Thread) (n : Nat) (x : Word) : (t.setSreg n x).loads = t.loads := by
  unfold Thread.setSreg; split; rfl; split <;> rfl
@[simp] theorem Thread.setSreg_regBad (t : Thread) (n : Nat) (x : Word) :
    (t.setSreg n x).regBad = if n = 0 ∨ n = 31 then t.regBad else t.healed (.s n) := by
  unfold Thread.setSreg; split
  · rfl
  · split <;> rfl
@[simp] theorem Thread.setSreg_monHeld (t : Thread) (n : Nat) (x : Word) : (t.setSreg n x).monHeld = t.monHeld := by
  unfold Thread.setSreg; split; rfl; split <;> rfl
@[simp] theorem Thread.setSreg_monWait (t : Thread) (n : Nat) (x : Word) : (t.setSreg n x).monWait = t.monWait := by
  unfold Thread.setSreg; split; rfl; split <;> rfl
@[simp] theorem Thread.setSreg_due (t : Thread) (n : Nat) (x : Word) : (t.setSreg n x).due = t.due := by
  unfold Thread.setSreg; split; rfl; split <;> rfl
@[simp] theorem Thread.setSreg_hb (t : Thread) (n : Nat) (x : Word) : (t.setSreg n x).hb = t.hb := by
  unfold Thread.setSreg; split; rfl; split <;> rfl
@[simp] theorem Thread.setSreg_walk (t : Thread) (n : Nat) (x : Word) : (t.setSreg n x).walk = t.walk := by
  unfold Thread.setSreg; split; rfl; split <;> rfl
@[simp] theorem Thread.setSreg_phase (t : Thread) (n : Nat) (x : Word) : (t.setSreg n x).phase = t.phase := by
  unfold Thread.setSreg; split; rfl; split <;> rfl
@[simp] theorem Thread.setSreg_reply (t : Thread) (n : Nat) (x : Word) : (t.setSreg n x).reply = t.reply := by
  unfold Thread.setSreg; split; rfl; split <;> rfl
@[simp] theorem Thread.setSreg_held (t : Thread) (n : Nat) (x : Word) : (t.setSreg n x).held = t.held := by
  unfold Thread.setSreg; split; rfl; split <;> rfl
@[simp] theorem Thread.setSreg_lvq (t : Thread) (n : Nat) (x : Word) : (t.setSreg n x).lvq = t.lvq := by
  unfold Thread.setSreg; split; rfl; split <;> rfl
@[simp] theorem Thread.setSreg_qblock (t : Thread) (n : Nat) (x : Word) : (t.setSreg n x).qblock = t.qblock := by
  unfold Thread.setSreg; split; rfl; split <;> rfl
@[simp] theorem Thread.setSreg_cmp (t : Thread) (n : Nat) (x : Word) : (t.setSreg n x).cmp = t.cmp := by
  unfold Thread.setSreg; split; rfl; split <;> rfl
@[simp] theorem Thread.setSreg_bkpt (t : Thread) (n : Nat) (x : Word) : (t.setSreg n x).bkpt = t.bkpt := by
  unfold Thread.setSreg; split; rfl; split <;> rfl
@[simp] theorem Thread.setSreg_busy (t : Thread) (n : Nat) (x : Word) : (t.setSreg n x).busy = t.busy := by
  unfold Thread.setSreg; split; rfl; split <;> rfl
@[simp] theorem Thread.setSreg_late (t : Thread) (n : Nat) (x : Word) : (t.setSreg n x).late = t.late := by
  unfold Thread.setSreg; split; rfl; split <;> rfl
@[simp] theorem Thread.setSreg_linkBad (t : Thread) (n : Nat) (x : Word) : (t.setSreg n x).linkBad = t.linkBad := by
  unfold Thread.setSreg; split; rfl; split <;> rfl
@[simp] theorem Thread.setSreg_fail (t : Thread) (n : Nat) (x : Word) : (t.setSreg n x).fail = t.fail := by
  unfold Thread.setSreg; split; rfl; split <;> rfl

@[simp] theorem Thread.setVreg_run (t : Thread) (n : Nat) (x : Vec) : (t.setVreg n x).run = t.run := rfl
@[simp] theorem Thread.setVreg_pc (t : Thread) (n : Nat) (x : Vec) : (t.setVreg n x).pc = t.pc := rfl
@[simp] theorem Thread.setVreg_glob (t : Thread) (n : Nat) (x : Vec) : (t.setVreg n x).glob = t.glob := rfl
@[simp] theorem Thread.setVreg_win (t : Thread) (n : Nat) (x : Vec) : (t.setVreg n x).win = t.win := rfl
@[simp] theorem Thread.setVreg_depth (t : Thread) (n : Nat) (x : Vec) : (t.setVreg n x).depth = t.depth := rfl
@[simp] theorem Thread.setVreg_resLo (t : Thread) (n : Nat) (x : Vec) : (t.setVreg n x).resLo = t.resLo := rfl
@[simp] theorem Thread.setVreg_prd (t : Thread) (n : Nat) (x : Vec) : (t.setVreg n x).prd = t.prd := rfl
@[simp] theorem Thread.setVreg_ext (t : Thread) (n : Nat) (x : Vec) : (t.setVreg n x).ext = t.ext := rfl
@[simp] theorem Thread.setVreg_wid (t : Thread) (n : Nat) (x : Vec) : (t.setVreg n x).wid = t.wid := rfl
@[simp] theorem Thread.setVreg_rnd (t : Thread) (n : Nat) (x : Vec) : (t.setVreg n x).rnd = t.rnd := rfl
@[simp] theorem Thread.setVreg_flg (t : Thread) (n : Nat) (x : Vec) : (t.setVreg n x).flg = t.flg := rfl
@[simp] theorem Thread.setVreg_srs (t : Thread) (n : Nat) (x : Vec) : (t.setVreg n x).srs = t.srs := rfl
@[simp] theorem Thread.setVreg_dpat (t : Thread) (n : Nat) (x : Vec) : (t.setVreg n x).dpat = t.dpat := rfl
@[simp] theorem Thread.setVreg_cntL (t : Thread) (n : Nat) (x : Vec) : (t.setVreg n x).cntL = t.cntL := rfl
@[simp] theorem Thread.setVreg_cntS (t : Thread) (n : Nat) (x : Vec) : (t.setVreg n x).cntS = t.cntS := rfl
@[simp] theorem Thread.setVreg_cntC (t : Thread) (n : Nat) (x : Vec) : (t.setVreg n x).cntC = t.cntC := rfl
@[simp] theorem Thread.setVreg_cntT (t : Thread) (n : Nat) (x : Vec) : (t.setVreg n x).cntT = t.cntT := rfl
@[simp] theorem Thread.setVreg_acc (t : Thread) (n : Nat) (x : Vec) : (t.setVreg n x).acc = t.acc := rfl
@[simp] theorem Thread.setVreg_accQ (t : Thread) (n : Nat) (x : Vec) : (t.setVreg n x).accQ = t.accQ := rfl
@[simp] theorem Thread.setVreg_xpc (t : Thread) (n : Nat) (x : Vec) : (t.setVreg n x).xpc = t.xpc := rfl
@[simp] theorem Thread.setVreg_xval (t : Thread) (n : Nat) (x : Vec) : (t.setVreg n x).xval = t.xval := rfl
@[simp] theorem Thread.setVreg_xcode (t : Thread) (n : Nat) (x : Vec) : (t.setVreg n x).xcode = t.xcode := rfl
@[simp] theorem Thread.setVreg_ppriv (t : Thread) (n : Nat) (x : Vec) : (t.setVreg n x).ppriv = t.ppriv := rfl
@[simp] theorem Thread.setVreg_pqmap (t : Thread) (n : Nat) (x : Vec) : (t.setVreg n x).pqmap = t.pqmap := rfl
@[simp] theorem Thread.setVreg_act (t : Thread) (n : Nat) (x : Vec) : (t.setVreg n x).act = t.act := rfl
@[simp] theorem Thread.setVreg_wsr (t : Thread) (n : Nat) (x : Vec) : (t.setVreg n x).wsr = t.wsr := rfl
@[simp] theorem Thread.setVreg_gen (t : Thread) (n : Nat) (x : Vec) : (t.setVreg n x).gen = t.gen := rfl
@[simp] theorem Thread.setVreg_priv (t : Thread) (n : Nat) (x : Vec) : (t.setVreg n x).priv = t.priv := rfl
@[simp] theorem Thread.setVreg_pair (t : Thread) (n : Nat) (x : Vec) : (t.setVreg n x).pair = t.pair := rfl
@[simp] theorem Thread.setVreg_qmap (t : Thread) (n : Nat) (x : Vec) : (t.setVreg n x).qmap = t.qmap := rfl
@[simp] theorem Thread.setVreg_stctx (t : Thread) (n : Nat) (x : Vec) : (t.setVreg n x).stctx = t.stctx := rfl
@[simp] theorem Thread.setVreg_stctl (t : Thread) (n : Nat) (x : Vec) : (t.setVreg n x).stctl = t.stctl := rfl
@[simp] theorem Thread.setVreg_task (t : Thread) (n : Nat) (x : Vec) : (t.setVreg n x).task = t.task := rfl
@[simp] theorem Thread.setVreg_inl (t : Thread) (n : Nat) (x : Vec) : (t.setVreg n x).inl = t.inl := rfl
@[simp] theorem Thread.setVreg_mbHi (t : Thread) (n : Nat) (x : Vec) : (t.setVreg n x).mbHi = t.mbHi := rfl
@[simp] theorem Thread.setVreg_mbLo (t : Thread) (n : Nat) (x : Vec) : (t.setVreg n x).mbLo = t.mbLo := rfl
@[simp] theorem Thread.setVreg_pend (t : Thread) (n : Nat) (x : Vec) : (t.setVreg n x).pend = t.pend := rfl
@[simp] theorem Thread.setVreg_loads (t : Thread) (n : Nat) (x : Vec) : (t.setVreg n x).loads = t.loads := rfl
@[simp] theorem Thread.setVreg_regBad (t : Thread) (n : Nat) (x : Vec) :
    (t.setVreg n x).regBad = t.healed (.v n) := rfl
@[simp] theorem Thread.setVreg_monHeld (t : Thread) (n : Nat) (x : Vec) : (t.setVreg n x).monHeld = t.monHeld := rfl
@[simp] theorem Thread.setVreg_monWait (t : Thread) (n : Nat) (x : Vec) : (t.setVreg n x).monWait = t.monWait := rfl
@[simp] theorem Thread.setVreg_due (t : Thread) (n : Nat) (x : Vec) : (t.setVreg n x).due = t.due := rfl
@[simp] theorem Thread.setVreg_hb (t : Thread) (n : Nat) (x : Vec) : (t.setVreg n x).hb = t.hb := rfl
@[simp] theorem Thread.setVreg_walk (t : Thread) (n : Nat) (x : Vec) : (t.setVreg n x).walk = t.walk := rfl
@[simp] theorem Thread.setVreg_phase (t : Thread) (n : Nat) (x : Vec) : (t.setVreg n x).phase = t.phase := rfl
@[simp] theorem Thread.setVreg_reply (t : Thread) (n : Nat) (x : Vec) : (t.setVreg n x).reply = t.reply := rfl
@[simp] theorem Thread.setVreg_held (t : Thread) (n : Nat) (x : Vec) : (t.setVreg n x).held = t.held := rfl
@[simp] theorem Thread.setVreg_lvq (t : Thread) (n : Nat) (x : Vec) : (t.setVreg n x).lvq = t.lvq := rfl
@[simp] theorem Thread.setVreg_qblock (t : Thread) (n : Nat) (x : Vec) : (t.setVreg n x).qblock = t.qblock := rfl
@[simp] theorem Thread.setVreg_cmp (t : Thread) (n : Nat) (x : Vec) : (t.setVreg n x).cmp = t.cmp := rfl
@[simp] theorem Thread.setVreg_bkpt (t : Thread) (n : Nat) (x : Vec) : (t.setVreg n x).bkpt = t.bkpt := rfl
@[simp] theorem Thread.setVreg_busy (t : Thread) (n : Nat) (x : Vec) : (t.setVreg n x).busy = t.busy := rfl
@[simp] theorem Thread.setVreg_late (t : Thread) (n : Nat) (x : Vec) : (t.setVreg n x).late = t.late := rfl
@[simp] theorem Thread.setVreg_linkBad (t : Thread) (n : Nat) (x : Vec) : (t.setVreg n x).linkBad = t.linkBad := rfl
@[simp] theorem Thread.setVreg_fail (t : Thread) (n : Nat) (x : Vec) : (t.setVreg n x).fail = t.fail := rfl

@[simp] theorem Thread.setPreg_run (t : Thread) (n : Nat) (x : Word) : (t.setPreg n x).run = t.run := by
  unfold Thread.setPreg; split <;> rfl
@[simp] theorem Thread.setPreg_pc (t : Thread) (n : Nat) (x : Word) : (t.setPreg n x).pc = t.pc := by
  unfold Thread.setPreg; split <;> rfl
@[simp] theorem Thread.setPreg_glob (t : Thread) (n : Nat) (x : Word) : (t.setPreg n x).glob = t.glob := by
  unfold Thread.setPreg; split <;> rfl
@[simp] theorem Thread.setPreg_win (t : Thread) (n : Nat) (x : Word) : (t.setPreg n x).win = t.win := by
  unfold Thread.setPreg; split <;> rfl
@[simp] theorem Thread.setPreg_depth (t : Thread) (n : Nat) (x : Word) : (t.setPreg n x).depth = t.depth := by
  unfold Thread.setPreg; split <;> rfl
@[simp] theorem Thread.setPreg_resLo (t : Thread) (n : Nat) (x : Word) : (t.setPreg n x).resLo = t.resLo := by
  unfold Thread.setPreg; split <;> rfl
@[simp] theorem Thread.setPreg_vec (t : Thread) (n : Nat) (x : Word) : (t.setPreg n x).vec = t.vec := by
  unfold Thread.setPreg; split <;> rfl
@[simp] theorem Thread.setPreg_ext (t : Thread) (n : Nat) (x : Word) : (t.setPreg n x).ext = t.ext := by
  unfold Thread.setPreg; split <;> rfl
@[simp] theorem Thread.setPreg_wid (t : Thread) (n : Nat) (x : Word) : (t.setPreg n x).wid = t.wid := by
  unfold Thread.setPreg; split <;> rfl
@[simp] theorem Thread.setPreg_rnd (t : Thread) (n : Nat) (x : Word) : (t.setPreg n x).rnd = t.rnd := by
  unfold Thread.setPreg; split <;> rfl
@[simp] theorem Thread.setPreg_flg (t : Thread) (n : Nat) (x : Word) : (t.setPreg n x).flg = t.flg := by
  unfold Thread.setPreg; split <;> rfl
@[simp] theorem Thread.setPreg_srs (t : Thread) (n : Nat) (x : Word) : (t.setPreg n x).srs = t.srs := by
  unfold Thread.setPreg; split <;> rfl
@[simp] theorem Thread.setPreg_dpat (t : Thread) (n : Nat) (x : Word) : (t.setPreg n x).dpat = t.dpat := by
  unfold Thread.setPreg; split <;> rfl
@[simp] theorem Thread.setPreg_cntL (t : Thread) (n : Nat) (x : Word) : (t.setPreg n x).cntL = t.cntL := by
  unfold Thread.setPreg; split <;> rfl
@[simp] theorem Thread.setPreg_cntS (t : Thread) (n : Nat) (x : Word) : (t.setPreg n x).cntS = t.cntS := by
  unfold Thread.setPreg; split <;> rfl
@[simp] theorem Thread.setPreg_cntC (t : Thread) (n : Nat) (x : Word) : (t.setPreg n x).cntC = t.cntC := by
  unfold Thread.setPreg; split <;> rfl
@[simp] theorem Thread.setPreg_cntT (t : Thread) (n : Nat) (x : Word) : (t.setPreg n x).cntT = t.cntT := by
  unfold Thread.setPreg; split <;> rfl
@[simp] theorem Thread.setPreg_acc (t : Thread) (n : Nat) (x : Word) : (t.setPreg n x).acc = t.acc := by
  unfold Thread.setPreg; split <;> rfl
@[simp] theorem Thread.setPreg_accQ (t : Thread) (n : Nat) (x : Word) : (t.setPreg n x).accQ = t.accQ := by
  unfold Thread.setPreg; split <;> rfl
@[simp] theorem Thread.setPreg_xpc (t : Thread) (n : Nat) (x : Word) : (t.setPreg n x).xpc = t.xpc := by
  unfold Thread.setPreg; split <;> rfl
@[simp] theorem Thread.setPreg_xval (t : Thread) (n : Nat) (x : Word) : (t.setPreg n x).xval = t.xval := by
  unfold Thread.setPreg; split <;> rfl
@[simp] theorem Thread.setPreg_xcode (t : Thread) (n : Nat) (x : Word) : (t.setPreg n x).xcode = t.xcode := by
  unfold Thread.setPreg; split <;> rfl
@[simp] theorem Thread.setPreg_ppriv (t : Thread) (n : Nat) (x : Word) : (t.setPreg n x).ppriv = t.ppriv := by
  unfold Thread.setPreg; split <;> rfl
@[simp] theorem Thread.setPreg_pqmap (t : Thread) (n : Nat) (x : Word) : (t.setPreg n x).pqmap = t.pqmap := by
  unfold Thread.setPreg; split <;> rfl
@[simp] theorem Thread.setPreg_act (t : Thread) (n : Nat) (x : Word) : (t.setPreg n x).act = t.act := by
  unfold Thread.setPreg; split <;> rfl
@[simp] theorem Thread.setPreg_wsr (t : Thread) (n : Nat) (x : Word) : (t.setPreg n x).wsr = t.wsr := by
  unfold Thread.setPreg; split <;> rfl
@[simp] theorem Thread.setPreg_gen (t : Thread) (n : Nat) (x : Word) : (t.setPreg n x).gen = t.gen := by
  unfold Thread.setPreg; split <;> rfl
@[simp] theorem Thread.setPreg_priv (t : Thread) (n : Nat) (x : Word) : (t.setPreg n x).priv = t.priv := by
  unfold Thread.setPreg; split <;> rfl
@[simp] theorem Thread.setPreg_pair (t : Thread) (n : Nat) (x : Word) : (t.setPreg n x).pair = t.pair := by
  unfold Thread.setPreg; split <;> rfl
@[simp] theorem Thread.setPreg_qmap (t : Thread) (n : Nat) (x : Word) : (t.setPreg n x).qmap = t.qmap := by
  unfold Thread.setPreg; split <;> rfl
@[simp] theorem Thread.setPreg_stctx (t : Thread) (n : Nat) (x : Word) : (t.setPreg n x).stctx = t.stctx := by
  unfold Thread.setPreg; split <;> rfl
@[simp] theorem Thread.setPreg_stctl (t : Thread) (n : Nat) (x : Word) : (t.setPreg n x).stctl = t.stctl := by
  unfold Thread.setPreg; split <;> rfl
@[simp] theorem Thread.setPreg_task (t : Thread) (n : Nat) (x : Word) : (t.setPreg n x).task = t.task := by
  unfold Thread.setPreg; split <;> rfl
@[simp] theorem Thread.setPreg_inl (t : Thread) (n : Nat) (x : Word) : (t.setPreg n x).inl = t.inl := by
  unfold Thread.setPreg; split <;> rfl
@[simp] theorem Thread.setPreg_mbHi (t : Thread) (n : Nat) (x : Word) : (t.setPreg n x).mbHi = t.mbHi := by
  unfold Thread.setPreg; split <;> rfl
@[simp] theorem Thread.setPreg_mbLo (t : Thread) (n : Nat) (x : Word) : (t.setPreg n x).mbLo = t.mbLo := by
  unfold Thread.setPreg; split <;> rfl
@[simp] theorem Thread.setPreg_pend (t : Thread) (n : Nat) (x : Word) : (t.setPreg n x).pend = t.pend := by
  unfold Thread.setPreg; split <;> rfl
@[simp] theorem Thread.setPreg_loads (t : Thread) (n : Nat) (x : Word) : (t.setPreg n x).loads = t.loads := by
  unfold Thread.setPreg; split <;> rfl
@[simp] theorem Thread.setPreg_regBad (t : Thread) (n : Nat) (x : Word) :
    (t.setPreg n x).regBad = if n = 0 then t.regBad else t.healed (.p n) := by
  unfold Thread.setPreg; split <;> rfl
@[simp] theorem Thread.setPreg_monHeld (t : Thread) (n : Nat) (x : Word) : (t.setPreg n x).monHeld = t.monHeld := by
  unfold Thread.setPreg; split <;> rfl
@[simp] theorem Thread.setPreg_monWait (t : Thread) (n : Nat) (x : Word) : (t.setPreg n x).monWait = t.monWait := by
  unfold Thread.setPreg; split <;> rfl
@[simp] theorem Thread.setPreg_due (t : Thread) (n : Nat) (x : Word) : (t.setPreg n x).due = t.due := by
  unfold Thread.setPreg; split <;> rfl
@[simp] theorem Thread.setPreg_hb (t : Thread) (n : Nat) (x : Word) : (t.setPreg n x).hb = t.hb := by
  unfold Thread.setPreg; split <;> rfl
@[simp] theorem Thread.setPreg_walk (t : Thread) (n : Nat) (x : Word) : (t.setPreg n x).walk = t.walk := by
  unfold Thread.setPreg; split <;> rfl
@[simp] theorem Thread.setPreg_phase (t : Thread) (n : Nat) (x : Word) : (t.setPreg n x).phase = t.phase := by
  unfold Thread.setPreg; split <;> rfl
@[simp] theorem Thread.setPreg_reply (t : Thread) (n : Nat) (x : Word) : (t.setPreg n x).reply = t.reply := by
  unfold Thread.setPreg; split <;> rfl
@[simp] theorem Thread.setPreg_held (t : Thread) (n : Nat) (x : Word) : (t.setPreg n x).held = t.held := by
  unfold Thread.setPreg; split <;> rfl
@[simp] theorem Thread.setPreg_lvq (t : Thread) (n : Nat) (x : Word) : (t.setPreg n x).lvq = t.lvq := by
  unfold Thread.setPreg; split <;> rfl
@[simp] theorem Thread.setPreg_qblock (t : Thread) (n : Nat) (x : Word) : (t.setPreg n x).qblock = t.qblock := by
  unfold Thread.setPreg; split <;> rfl
@[simp] theorem Thread.setPreg_cmp (t : Thread) (n : Nat) (x : Word) : (t.setPreg n x).cmp = t.cmp := by
  unfold Thread.setPreg; split <;> rfl
@[simp] theorem Thread.setPreg_bkpt (t : Thread) (n : Nat) (x : Word) : (t.setPreg n x).bkpt = t.bkpt := by
  unfold Thread.setPreg; split <;> rfl
@[simp] theorem Thread.setPreg_busy (t : Thread) (n : Nat) (x : Word) : (t.setPreg n x).busy = t.busy := by
  unfold Thread.setPreg; split <;> rfl
@[simp] theorem Thread.setPreg_late (t : Thread) (n : Nat) (x : Word) : (t.setPreg n x).late = t.late := by
  unfold Thread.setPreg; split <;> rfl
@[simp] theorem Thread.setPreg_linkBad (t : Thread) (n : Nat) (x : Word) : (t.setPreg n x).linkBad = t.linkBad := by
  unfold Thread.setPreg; split <;> rfl
@[simp] theorem Thread.setPreg_fail (t : Thread) (n : Nat) (x : Word) : (t.setPreg n x).fail = t.fail := by
  unfold Thread.setPreg; split <;> rfl

@[simp] theorem Thread.setEreg_run (t : Thread) (n : Nat) (x : Word) : (t.setEreg n x).run = t.run := rfl
@[simp] theorem Thread.setEreg_pc (t : Thread) (n : Nat) (x : Word) : (t.setEreg n x).pc = t.pc := rfl
@[simp] theorem Thread.setEreg_glob (t : Thread) (n : Nat) (x : Word) : (t.setEreg n x).glob = t.glob := rfl
@[simp] theorem Thread.setEreg_win (t : Thread) (n : Nat) (x : Word) : (t.setEreg n x).win = t.win := rfl
@[simp] theorem Thread.setEreg_depth (t : Thread) (n : Nat) (x : Word) : (t.setEreg n x).depth = t.depth := rfl
@[simp] theorem Thread.setEreg_resLo (t : Thread) (n : Nat) (x : Word) : (t.setEreg n x).resLo = t.resLo := rfl
@[simp] theorem Thread.setEreg_vec (t : Thread) (n : Nat) (x : Word) : (t.setEreg n x).vec = t.vec := rfl
@[simp] theorem Thread.setEreg_prd (t : Thread) (n : Nat) (x : Word) : (t.setEreg n x).prd = t.prd := rfl
@[simp] theorem Thread.setEreg_wid (t : Thread) (n : Nat) (x : Word) : (t.setEreg n x).wid = t.wid := rfl
@[simp] theorem Thread.setEreg_rnd (t : Thread) (n : Nat) (x : Word) : (t.setEreg n x).rnd = t.rnd := rfl
@[simp] theorem Thread.setEreg_flg (t : Thread) (n : Nat) (x : Word) : (t.setEreg n x).flg = t.flg := rfl
@[simp] theorem Thread.setEreg_srs (t : Thread) (n : Nat) (x : Word) : (t.setEreg n x).srs = t.srs := rfl
@[simp] theorem Thread.setEreg_dpat (t : Thread) (n : Nat) (x : Word) : (t.setEreg n x).dpat = t.dpat := rfl
@[simp] theorem Thread.setEreg_cntL (t : Thread) (n : Nat) (x : Word) : (t.setEreg n x).cntL = t.cntL := rfl
@[simp] theorem Thread.setEreg_cntS (t : Thread) (n : Nat) (x : Word) : (t.setEreg n x).cntS = t.cntS := rfl
@[simp] theorem Thread.setEreg_cntC (t : Thread) (n : Nat) (x : Word) : (t.setEreg n x).cntC = t.cntC := rfl
@[simp] theorem Thread.setEreg_cntT (t : Thread) (n : Nat) (x : Word) : (t.setEreg n x).cntT = t.cntT := rfl
@[simp] theorem Thread.setEreg_acc (t : Thread) (n : Nat) (x : Word) : (t.setEreg n x).acc = t.acc := rfl
@[simp] theorem Thread.setEreg_accQ (t : Thread) (n : Nat) (x : Word) : (t.setEreg n x).accQ = t.accQ := rfl
@[simp] theorem Thread.setEreg_xpc (t : Thread) (n : Nat) (x : Word) : (t.setEreg n x).xpc = t.xpc := rfl
@[simp] theorem Thread.setEreg_xval (t : Thread) (n : Nat) (x : Word) : (t.setEreg n x).xval = t.xval := rfl
@[simp] theorem Thread.setEreg_xcode (t : Thread) (n : Nat) (x : Word) : (t.setEreg n x).xcode = t.xcode := rfl
@[simp] theorem Thread.setEreg_ppriv (t : Thread) (n : Nat) (x : Word) : (t.setEreg n x).ppriv = t.ppriv := rfl
@[simp] theorem Thread.setEreg_pqmap (t : Thread) (n : Nat) (x : Word) : (t.setEreg n x).pqmap = t.pqmap := rfl
@[simp] theorem Thread.setEreg_act (t : Thread) (n : Nat) (x : Word) : (t.setEreg n x).act = t.act := rfl
@[simp] theorem Thread.setEreg_wsr (t : Thread) (n : Nat) (x : Word) : (t.setEreg n x).wsr = t.wsr := rfl
@[simp] theorem Thread.setEreg_gen (t : Thread) (n : Nat) (x : Word) : (t.setEreg n x).gen = t.gen := rfl
@[simp] theorem Thread.setEreg_priv (t : Thread) (n : Nat) (x : Word) : (t.setEreg n x).priv = t.priv := rfl
@[simp] theorem Thread.setEreg_pair (t : Thread) (n : Nat) (x : Word) : (t.setEreg n x).pair = t.pair := rfl
@[simp] theorem Thread.setEreg_qmap (t : Thread) (n : Nat) (x : Word) : (t.setEreg n x).qmap = t.qmap := rfl
@[simp] theorem Thread.setEreg_stctx (t : Thread) (n : Nat) (x : Word) : (t.setEreg n x).stctx = t.stctx := rfl
@[simp] theorem Thread.setEreg_stctl (t : Thread) (n : Nat) (x : Word) : (t.setEreg n x).stctl = t.stctl := rfl
@[simp] theorem Thread.setEreg_task (t : Thread) (n : Nat) (x : Word) : (t.setEreg n x).task = t.task := rfl
@[simp] theorem Thread.setEreg_inl (t : Thread) (n : Nat) (x : Word) : (t.setEreg n x).inl = t.inl := rfl
@[simp] theorem Thread.setEreg_mbHi (t : Thread) (n : Nat) (x : Word) : (t.setEreg n x).mbHi = t.mbHi := rfl
@[simp] theorem Thread.setEreg_mbLo (t : Thread) (n : Nat) (x : Word) : (t.setEreg n x).mbLo = t.mbLo := rfl
@[simp] theorem Thread.setEreg_pend (t : Thread) (n : Nat) (x : Word) : (t.setEreg n x).pend = t.pend := rfl
@[simp] theorem Thread.setEreg_loads (t : Thread) (n : Nat) (x : Word) : (t.setEreg n x).loads = t.loads := rfl
@[simp] theorem Thread.setEreg_regBad (t : Thread) (n : Nat) (x : Word) :
    (t.setEreg n x).regBad = t.healed (.e n) := rfl
@[simp] theorem Thread.setEreg_monHeld (t : Thread) (n : Nat) (x : Word) : (t.setEreg n x).monHeld = t.monHeld := rfl
@[simp] theorem Thread.setEreg_monWait (t : Thread) (n : Nat) (x : Word) : (t.setEreg n x).monWait = t.monWait := rfl
@[simp] theorem Thread.setEreg_due (t : Thread) (n : Nat) (x : Word) : (t.setEreg n x).due = t.due := rfl
@[simp] theorem Thread.setEreg_hb (t : Thread) (n : Nat) (x : Word) : (t.setEreg n x).hb = t.hb := rfl
@[simp] theorem Thread.setEreg_walk (t : Thread) (n : Nat) (x : Word) : (t.setEreg n x).walk = t.walk := rfl
@[simp] theorem Thread.setEreg_phase (t : Thread) (n : Nat) (x : Word) : (t.setEreg n x).phase = t.phase := rfl
@[simp] theorem Thread.setEreg_reply (t : Thread) (n : Nat) (x : Word) : (t.setEreg n x).reply = t.reply := rfl
@[simp] theorem Thread.setEreg_held (t : Thread) (n : Nat) (x : Word) : (t.setEreg n x).held = t.held := rfl
@[simp] theorem Thread.setEreg_lvq (t : Thread) (n : Nat) (x : Word) : (t.setEreg n x).lvq = t.lvq := rfl
@[simp] theorem Thread.setEreg_qblock (t : Thread) (n : Nat) (x : Word) : (t.setEreg n x).qblock = t.qblock := rfl
@[simp] theorem Thread.setEreg_cmp (t : Thread) (n : Nat) (x : Word) : (t.setEreg n x).cmp = t.cmp := rfl
@[simp] theorem Thread.setEreg_bkpt (t : Thread) (n : Nat) (x : Word) : (t.setEreg n x).bkpt = t.bkpt := rfl
@[simp] theorem Thread.setEreg_busy (t : Thread) (n : Nat) (x : Word) : (t.setEreg n x).busy = t.busy := rfl
@[simp] theorem Thread.setEreg_late (t : Thread) (n : Nat) (x : Word) : (t.setEreg n x).late = t.late := rfl
@[simp] theorem Thread.setEreg_linkBad (t : Thread) (n : Nat) (x : Word) : (t.setEreg n x).linkBad = t.linkBad := rfl
@[simp] theorem Thread.setEreg_fail (t : Thread) (n : Nat) (x : Word) : (t.setEreg n x).fail = t.fail := rfl

@[simp] theorem Thread.orFlags_run (t : Thread) (f : BitVec 6) : (t.orFlags f).run = t.run := rfl
@[simp] theorem Thread.orFlags_pc (t : Thread) (f : BitVec 6) : (t.orFlags f).pc = t.pc := rfl
@[simp] theorem Thread.orFlags_glob (t : Thread) (f : BitVec 6) : (t.orFlags f).glob = t.glob := rfl
@[simp] theorem Thread.orFlags_win (t : Thread) (f : BitVec 6) : (t.orFlags f).win = t.win := rfl
@[simp] theorem Thread.orFlags_depth (t : Thread) (f : BitVec 6) : (t.orFlags f).depth = t.depth := rfl
@[simp] theorem Thread.orFlags_resLo (t : Thread) (f : BitVec 6) : (t.orFlags f).resLo = t.resLo := rfl
@[simp] theorem Thread.orFlags_vec (t : Thread) (f : BitVec 6) : (t.orFlags f).vec = t.vec := rfl
@[simp] theorem Thread.orFlags_prd (t : Thread) (f : BitVec 6) : (t.orFlags f).prd = t.prd := rfl
@[simp] theorem Thread.orFlags_ext (t : Thread) (f : BitVec 6) : (t.orFlags f).ext = t.ext := rfl
@[simp] theorem Thread.orFlags_wid (t : Thread) (f : BitVec 6) : (t.orFlags f).wid = t.wid := rfl
@[simp] theorem Thread.orFlags_rnd (t : Thread) (f : BitVec 6) : (t.orFlags f).rnd = t.rnd := rfl
@[simp] theorem Thread.orFlags_srs (t : Thread) (f : BitVec 6) : (t.orFlags f).srs = t.srs := rfl
@[simp] theorem Thread.orFlags_dpat (t : Thread) (f : BitVec 6) : (t.orFlags f).dpat = t.dpat := rfl
@[simp] theorem Thread.orFlags_cntL (t : Thread) (f : BitVec 6) : (t.orFlags f).cntL = t.cntL := rfl
@[simp] theorem Thread.orFlags_cntS (t : Thread) (f : BitVec 6) : (t.orFlags f).cntS = t.cntS := rfl
@[simp] theorem Thread.orFlags_cntC (t : Thread) (f : BitVec 6) : (t.orFlags f).cntC = t.cntC := rfl
@[simp] theorem Thread.orFlags_cntT (t : Thread) (f : BitVec 6) : (t.orFlags f).cntT = t.cntT := rfl
@[simp] theorem Thread.orFlags_acc (t : Thread) (f : BitVec 6) : (t.orFlags f).acc = t.acc := rfl
@[simp] theorem Thread.orFlags_accQ (t : Thread) (f : BitVec 6) : (t.orFlags f).accQ = t.accQ := rfl
@[simp] theorem Thread.orFlags_xpc (t : Thread) (f : BitVec 6) : (t.orFlags f).xpc = t.xpc := rfl
@[simp] theorem Thread.orFlags_xval (t : Thread) (f : BitVec 6) : (t.orFlags f).xval = t.xval := rfl
@[simp] theorem Thread.orFlags_xcode (t : Thread) (f : BitVec 6) : (t.orFlags f).xcode = t.xcode := rfl
@[simp] theorem Thread.orFlags_ppriv (t : Thread) (f : BitVec 6) : (t.orFlags f).ppriv = t.ppriv := rfl
@[simp] theorem Thread.orFlags_pqmap (t : Thread) (f : BitVec 6) : (t.orFlags f).pqmap = t.pqmap := rfl
@[simp] theorem Thread.orFlags_act (t : Thread) (f : BitVec 6) : (t.orFlags f).act = t.act := rfl
@[simp] theorem Thread.orFlags_wsr (t : Thread) (f : BitVec 6) : (t.orFlags f).wsr = t.wsr := rfl
@[simp] theorem Thread.orFlags_gen (t : Thread) (f : BitVec 6) : (t.orFlags f).gen = t.gen := rfl
@[simp] theorem Thread.orFlags_priv (t : Thread) (f : BitVec 6) : (t.orFlags f).priv = t.priv := rfl
@[simp] theorem Thread.orFlags_pair (t : Thread) (f : BitVec 6) : (t.orFlags f).pair = t.pair := rfl
@[simp] theorem Thread.orFlags_qmap (t : Thread) (f : BitVec 6) : (t.orFlags f).qmap = t.qmap := rfl
@[simp] theorem Thread.orFlags_stctx (t : Thread) (f : BitVec 6) : (t.orFlags f).stctx = t.stctx := rfl
@[simp] theorem Thread.orFlags_stctl (t : Thread) (f : BitVec 6) : (t.orFlags f).stctl = t.stctl := rfl
@[simp] theorem Thread.orFlags_task (t : Thread) (f : BitVec 6) : (t.orFlags f).task = t.task := rfl
@[simp] theorem Thread.orFlags_inl (t : Thread) (f : BitVec 6) : (t.orFlags f).inl = t.inl := rfl
@[simp] theorem Thread.orFlags_mbHi (t : Thread) (f : BitVec 6) : (t.orFlags f).mbHi = t.mbHi := rfl
@[simp] theorem Thread.orFlags_mbLo (t : Thread) (f : BitVec 6) : (t.orFlags f).mbLo = t.mbLo := rfl
@[simp] theorem Thread.orFlags_pend (t : Thread) (f : BitVec 6) : (t.orFlags f).pend = t.pend := rfl
@[simp] theorem Thread.orFlags_loads (t : Thread) (f : BitVec 6) : (t.orFlags f).loads = t.loads := rfl
@[simp] theorem Thread.orFlags_regBad (t : Thread) (f : BitVec 6) : (t.orFlags f).regBad = t.regBad := rfl
@[simp] theorem Thread.orFlags_monHeld (t : Thread) (f : BitVec 6) : (t.orFlags f).monHeld = t.monHeld := rfl
@[simp] theorem Thread.orFlags_monWait (t : Thread) (f : BitVec 6) : (t.orFlags f).monWait = t.monWait := rfl
@[simp] theorem Thread.orFlags_due (t : Thread) (f : BitVec 6) : (t.orFlags f).due = t.due := rfl
@[simp] theorem Thread.orFlags_hb (t : Thread) (f : BitVec 6) : (t.orFlags f).hb = t.hb := rfl
@[simp] theorem Thread.orFlags_walk (t : Thread) (f : BitVec 6) : (t.orFlags f).walk = t.walk := rfl
@[simp] theorem Thread.orFlags_phase (t : Thread) (f : BitVec 6) : (t.orFlags f).phase = t.phase := rfl
@[simp] theorem Thread.orFlags_reply (t : Thread) (f : BitVec 6) : (t.orFlags f).reply = t.reply := rfl
@[simp] theorem Thread.orFlags_held (t : Thread) (f : BitVec 6) : (t.orFlags f).held = t.held := rfl
@[simp] theorem Thread.orFlags_lvq (t : Thread) (f : BitVec 6) : (t.orFlags f).lvq = t.lvq := rfl
@[simp] theorem Thread.orFlags_qblock (t : Thread) (f : BitVec 6) : (t.orFlags f).qblock = t.qblock := rfl
@[simp] theorem Thread.orFlags_cmp (t : Thread) (f : BitVec 6) : (t.orFlags f).cmp = t.cmp := rfl
@[simp] theorem Thread.orFlags_bkpt (t : Thread) (f : BitVec 6) : (t.orFlags f).bkpt = t.bkpt := rfl
@[simp] theorem Thread.orFlags_busy (t : Thread) (f : BitVec 6) : (t.orFlags f).busy = t.busy := rfl
@[simp] theorem Thread.orFlags_late (t : Thread) (f : BitVec 6) : (t.orFlags f).late = t.late := rfl
@[simp] theorem Thread.orFlags_linkBad (t : Thread) (f : BitVec 6) : (t.orFlags f).linkBad = t.linkBad := rfl
@[simp] theorem Thread.orFlags_fail (t : Thread) (f : BitVec 6) : (t.orFlags f).fail = t.fail := rfl

end Sys2Proof.Machine
end

