-- ==== Sys2Proof/Laws/Issue.lean ====
section
/-!
SUPPORT. What issuing a word can do, said once: when the issuing thread waits for nothing, its body acts and the thread goes on.
-/

namespace Sys2Proof.Machine

open Sys2Proof

@[simp] theorem State.cur_live (s : State) : s.live.cur = s.cur := rfl

@[simp] theorem State.th_live (s : State) : s.live.th = s.th.live := by simp [State.live]

@[simp] theorem State.setTh_live (s : State) (t : Thread) : s.live.setTh t = s.setTh t := by simp [State.live]

@[simp] theorem State.went_eq (s : State) (n : Nat) : s.live.advance n = s.went n := by
  simp [State.advance, State.went, Thread.went, Thread.live]

theorem State.queueOf_plain {t : Thread} (h : t.qmap = false) (n : Nat) : t.queueOf n = none := by simp [Thread.queueOf, h]

theorem State.readS_off {s : State} (h : s.th.qmap = false) (n : Nat) : s.readS n = (s.th.sreg s.cur.2 n, s) := by
  simp [State.readS, State.peekS, State.queueOf_plain h]

theorem State.writeS_off {s : State} (h : s.th.qmap = false) (n : Nat) (v : Word) : s.writeS n v = s.setTh (s.th.setSreg n v) := by
  simp [State.writeS, State.queueOf_plain h]

/-- The governing predicate of a word lets it act (R173). -/
def Issue.acts (k : Issue) (t : Thread) : Bool := match k.pred with | some p => (t.preg p).getLsbD 0 | none => true

/-- A word of a thread that waits for nothing: a no-op under a false predicate, else its body. -/
theorem issue_plain {s : State} (h : s.plain) (k : Issue) (hk : k.bars = none) (body : State → Except Stop State) :
    issue k s body = .next (if k.acts s.th then finish k s.live (body s.live) else s.went k.code.bytes) := by
  obtain ⟨h1, h2, h3, h4, h5, h6⟩ := h
  have e : s.setTh { s.th with run := .running, qblock := none } = s.live := rfl
  have hb : s.live.th.blocked k = false := by simp [Thread.blocked, Thread.live, h1]
  have hp (p : Nat) : s.live.th.preg p = s.th.preg p := by rw [State.th_live]; rfl
  have hr : s.live.th.inRecon = false := by rw [State.th_live]; exact h5
  have hx (rs : List RegName) : s.live.poisonedIn rs = none := by simp [State.poisonedIn, Thread.live, h2]
  have hq : s.live.queueCheck k = none := by simp [State.queueCheck, Thread.live, h4]
  have hn : s.live.th.pair = 0 := by simpa [Thread.live] using h3
  have ht : s.live.th.trapReady = none := by simp [Thread.trapReady, Thread.live, h3]
  simp only [issue, issueState, State.poisoned, e, hb, hp, hr, hx, hq, hn, ht, hk, Issue.acts]
  obtain ⟨_, _, _, _, _, pred, _, _, _, _, _, _⟩ := k
  cases pred with
  | none => simp
  | some p => simp; cases (s.th.preg p)[0] <;> simp

/-- A word that is illegal, or whose privilege is missing, takes its trap before anything else (R361). -/
theorem issue_barred {s : State} (h : s.plain) (k : Issue) (code : Nat) (hk : k.bars = some code) (hp : k.pred = none)
    (hq : k.quiet = false) (body : State → Except Stop State) :
    issue k s body = .next (s.live.stop (.trap code k.word)) := by
  obtain ⟨h1, h2, h3, h4, h5, h6⟩ := h
  have e : s.setTh { s.th with run := .running, qblock := none } = s.live := rfl
  have hb : s.live.th.blocked k = false := by simp [Thread.blocked, Thread.live, h1]
  have ht : s.live.th.trapReady = none := by simp [Thread.trapReady, Thread.live, h3]
  have hx : s.live.poisonedIn [] = none := by simp [State.poisonedIn, Thread.live, h2]
  simp only [issue, issueState, e, hb, ht, hk, hp, hq, Option.toList, List.map_nil, hx]
  simp

/-- A trap of an unpaired thread is taken at once (R359). -/
@[simp] theorem State.gateTrap_alone {s : State} (h : s.th.pair = 0) (code : Nat) (val ret : Word) (a : Option (BitVec 6 × Word)) :
    s.gateTrap code val ret a = s.enterTrap code val ret a := by simp [State.gateTrap, h]

/-- A completed body advances the PC. -/
@[simp] theorem finish_ok (k : Issue) (s t : State) : finish k s (.ok t) = if k.jumps then t else t.advance k.code.bytes := rfl

@[simp] theorem finish_error (k : Issue) (s : State) (e : Stop) : finish k s (.error e) = s.stop e := rfl

@[simp] theorem Thread.sreg_live (t : Thread) (i n : Nat) : t.live.sreg i n = t.sreg i n := rfl

@[simp] theorem Thread.preg_live (t : Thread) (n : Nat) : t.live.preg n = t.preg n := rfl

@[simp] theorem Thread.vreg_live (t : Thread) (n : Nat) : t.live.vreg n = t.vreg n := rfl

@[simp] theorem Thread.ereg_live (t : Thread) (n : Nat) : t.live.ereg n = t.ereg n := rfl

/-- Writing a register and going on. -/
@[simp] theorem State.advance_setSreg (s : State) (d : Nat) (v : Word) (n : Nat) :
    (s.setTh (s.th.live.setSreg d v)).advance n = s.setTh ((s.th.setSreg d v).went n) := by
  simp only [State.advance, State.th_setTh, State.setTh_setTh, Thread.setSreg_pc]
  congr 1
  simp only [Thread.went, Thread.live, Thread.setSreg, Thread.healed, Thread.abs]
  split
  · rfl
  · split <;> rfl

/-- A word of a thread that waits for nothing and that writes one scalar register. -/
theorem issue_writes {s : State} (h : s.plain) (k : Issue) (hk : k.bars = none) (d : Nat) (v : Word) (hj : k.jumps = false)
    (body : State → Except Stop State)
    (hb : body s.live = .ok (s.live.writeS d v)) :
    issue k s body = .next (s.setTh (if k.acts s.th then (s.th.setSreg d v).went k.code.bytes else s.th.went k.code.bytes)) := by
  have hq : s.live.th.qmap = false := by simpa [Thread.live] using h.2.2.2.1
  rw [issue_plain h k hk, hb, State.writeS_off hq]
  split <;> simp [hj, State.went]

end Sys2Proof.Machine
end

