-- ==== Sys2Proof/Laws/Integer.lean ====
section
/-!
SUPPORT. What the shared forms of the integer words do in a thread that waits for nothing.
-/

namespace Sys2Proof.Machine

open Sys2Proof

theorem qmap_live {s : State} (h : s.plain) : s.live.th.qmap = false := by simpa [Thread.live] using h.2.2.2.1

/-- A two-source word: the result under the predicate, else nothing. -/
theorem rg2_plain {s : State} (h : s.plain) (c : Code) (p a b d : Nat) (f : Nat → Nat → Word) :
    rg2 c p a b d f s = .next (if (s.th.preg p).getLsbD 0 then
      s.setTh ((s.th.setSreg d (f (s.reg a).toNat (s.reg b).toNat)).went c.bytes) else s.went c.bytes) := by
  unfold rg2
  rw [issue_writes h _ rfl d (f (s.reg a).toNat (s.reg b).toNat) rfl]
  · simp only [Issue.acts, State.went]; split <;> simp_all
  · simp [State.readS_off (qmap_live h), State.reg]

/-- A one-source word: the result under the predicate, else nothing. -/
theorem rg1_plain {s : State} (h : s.plain) (c : Code) (p a d : Nat) (f : Nat → Word) :
    rg1 c p a d f s = .next (if (s.th.preg p).getLsbD 0 then
      s.setTh ((s.th.setSreg d (f (s.reg a).toNat)).went c.bytes) else s.went c.bytes) := by
  unfold rg1
  rw [issue_writes h _ rfl d (f (s.reg a).toNat) rfl]
  · simp only [Issue.acts, State.went]; split <;> simp_all
  · simp [State.readS_off (qmap_live h), State.reg]

/-- A word with an immediate. -/
theorem im1_plain {s : State} (h : s.plain) (c : Code) (a d : Nat) (f : Word → Word) :
    im1 c a d f s = .next (s.setTh ((s.th.setSreg d (f (s.reg a))).went c.bytes)) := by
  unfold im1
  rw [issue_writes h _ rfl d (f (s.reg a)) rfl]
  · simp [Issue.acts]
  · simp [State.readS_off (qmap_live h), State.reg]

/-- A word that writes a register from the thread's state. -/
theorem im0_plain {s : State} (h : s.plain) (c : Code) (d : Nat) (f : State → Word) :
    im0 c d f s = .next (s.setTh ((s.th.setSreg d (f s.live)).went c.bytes)) := by
  unfold im0
  rw [issue_writes h _ rfl d (f s.live) rfl]
  · simp [Issue.acts]
  · rfl

/-- A hint goes on. -/
theorem noop_plain {s : State} (h : s.plain) (c : Code) : noop c s = .next (s.went c.bytes) := by
  unfold noop
  rw [issue_plain h _ rfl]
  simp [Issue.acts]

end Sys2Proof.Machine
end

