-- ==== Sys2Proof/Laws/Memory.lean ====
section
/-!
SUPPORT. What the operations of a byte memory do, said once: reading after a write, and that each keeps the canonical form (log entry 4).
-/

namespace Sys2Proof.Machine

open Sys2Proof

/-- The canonical form, as a statement about the whole list. -/
theorem Memory.wf_iff (m : Memory) : Memory.wf m = true ↔ m.Pairwise (fun c d => c.1 < d.1) ∧ ∀ c ∈ m, c.2 ≠ 0 := by
  induction m with
  | nil => simp [Memory.wf]
  | cons c t ih =>
    cases t with
    | nil => simp [Memory.wf]
    | cons d t =>
      simp only [Memory.wf, Bool.and_eq_true, decide_eq_true_eq, ih, List.pairwise_cons, List.mem_cons, forall_eq_or_imp]
      constructor
      · rintro ⟨⟨h1, h2⟩, ⟨h3, h4⟩, h5, h6⟩
        exact ⟨⟨⟨h1, fun x hx => h1.trans (h3 x hx)⟩, h3, h4⟩, h2, h5, h6⟩
      · rintro ⟨⟨⟨h1, -⟩, h3, h4⟩, h2, h5, h6⟩
        exact ⟨⟨h1, h2⟩, ⟨h3, h4⟩, h5, h6⟩

theorem mem_memPut {a : Nat} {b : Byte} {m : Memory} {c : Nat × Byte} (h : c ∈ memPut a b m) : c = (a, b) ∨ c ∈ m := by
  induction m with
  | nil => simpa [memPut] using h
  | cons d t ih =>
    obtain ⟨j, v⟩ := d
    simp only [memPut] at h
    split at h
    · simpa using h
    · split at h
      · rcases List.mem_cons.1 h with h | h
        · exact .inl h
        · exact .inr (List.mem_cons_of_mem _ h)
      · rcases List.mem_cons.1 h with h | h
        · exact .inr (h ▸ List.mem_cons_self)
        · exact (ih h).imp_right (List.mem_cons_of_mem _)

theorem memPut_wf {a : Nat} {b : Byte} {m : Memory} (hb : b ≠ 0) (h : Memory.wf m = true) : Memory.wf (memPut a b m) = true := by
  rw [Memory.wf_iff] at h ⊢
  refine ⟨?_, fun c hc => (mem_memPut hc).elim (fun e => e ▸ hb) (h.2 c)⟩
  obtain ⟨hp, -⟩ := h
  induction m with
  | nil => simp [memPut]
  | cons d t ih =>
    obtain ⟨j, v⟩ := d
    rw [List.pairwise_cons] at hp
    simp only [memPut]
    split
    · next hlt =>
      refine List.pairwise_cons.2 ⟨fun x hx => ?_, List.pairwise_cons.2 hp⟩
      rcases List.mem_cons.1 hx with rfl | hx
      · exact hlt
      · exact hlt.trans (hp.1 x hx)
    · split
      · next e => subst e; exact List.pairwise_cons.2 hp
      · refine List.pairwise_cons.2 ⟨fun x hx => ?_, ih hp.2⟩
        rcases mem_memPut hx with rfl | hx
        · simp only; omega
        · exact hp.1 x hx

/-- A write of one byte keeps the canonical form. -/
theorem memSet_wf {a : Nat} {b : Byte} {m : Memory} (h : Memory.wf m = true) : Memory.wf (memSet a b m) = true := by
  unfold memSet
  split
  · rw [Memory.wf_iff] at h ⊢
    exact ⟨h.1.filter _, fun c hc => h.2 c (List.mem_of_mem_filter hc)⟩
  · next hb => exact memPut_wf hb h

/-- A write of bytes keeps the canonical form. -/
theorem memWrite_wf {a : Nat} {bs : List Byte} {m : Memory} (h : Memory.wf m = true) : Memory.wf (memWrite a bs m) = true := by
  induction bs generalizing a m with
  | nil => exact h
  | cons b t ih => exact ih (memSet_wf h)

/-- A masked write keeps the canonical form. -/
theorem memWriteMasked_wf {a : Nat} {bs : List (Option Byte)} {m : Memory} (h : Memory.wf m = true) :
    Memory.wf (memWriteMasked a bs m) = true := by
  induction bs generalizing a m with
  | nil => exact h
  | cons b t ih =>
    cases b with
    | none => exact ih h
    | some b => exact ih (memSet_wf h)

/-- A number stored keeps the canonical form. -/
theorem memPutNum_wf {a n v : Nat} {m : Memory} (h : Memory.wf m = true) : Memory.wf (memPutNum a n v m) = true := memWrite_wf h

theorem memGet_memPut (a x : Nat) (b : Byte) (m : Memory) : memGet x (memPut a b m) = if x = a then b else memGet x m := by
  induction m with
  | nil => simp [memPut, memGet]
  | cons d t ih =>
    obtain ⟨j, v⟩ := d
    simp only [memPut]
    split
    · simp [memGet]
    · split
      · next e => subst e; simp only [memGet]; split <;> simp_all
      · next e => simp only [memGet, ih]; split <;> simp_all; omega

theorem memGet_filter (a x : Nat) (m : Memory) : memGet x (m.filter (fun c => decide (c.1 ≠ a))) = if x = a then 0 else memGet x m := by
  induction m with
  | nil => simp [memGet]
  | cons d t ih =>
    obtain ⟨j, v⟩ := d
    by_cases e : j = a
    · subst e; simp only [ne_eq, not_true_eq_false, decide_false, Bool.false_eq_true, not_false_eq_true, List.filter_cons_of_neg, memGet]
      simp only [ne_eq] at ih; rw [ih]; split <;> simp_all
    · simp only [ne_eq, e, not_false_eq_true, decide_true, List.filter_cons_of_pos, memGet]
      simp only [ne_eq] at ih; rw [ih]; split <;> simp_all

/-- A byte read after a write of one byte. -/
@[simp] theorem memGet_memSet (a x : Nat) (b : Byte) (m : Memory) : memGet x (memSet a b m) = if x = a then b else memGet x m := by
  unfold memSet
  split
  · next h => subst h; exact memGet_filter a x m
  · exact memGet_memPut a x b m

/-- A byte read after a write of bytes: the byte written there, else what was there. -/
theorem memGet_memWrite (a x : Nat) (bs : List Byte) (m : Memory) :
    memGet x (memWrite a bs m) = if a ≤ x ∧ x < a + bs.length then bs.getD (x - a) 0 else memGet x m := by
  induction bs generalizing a m with
  | nil => simp [memWrite]
  | cons b t ih =>
    simp only [memWrite, ih, memGet_memSet, List.length_cons]
    by_cases h : x = a
    · subst h; simp
    · by_cases h2 : a ≤ x ∧ x < a + (t.length + 1)
      · have e : x - a = (x - (a + 1)) + 1 := by omega
        rw [if_pos (by omega), if_pos h2, e, List.getD_cons_succ]
      · rw [if_neg (by omega), if_neg h, if_neg h2]

/-- The memories of reset are in their canonical form, whichever sites are fused off. -/
theorem resetOf_memWf (fused : List Nat) : (State.resetOf fused).memWf = true := rfl

theorem reset_memWf : State.reset.memWf = true := rfl

end Sys2Proof.Machine
end

