-- ==== Sys2Proof/Laws/Number.lean ====
section
/-!
SUPPORT. The arithmetic helpers on naturals and integers, said as operations on bit vectors.
-/

namespace Sys2Proof.Machine

open Sys2Proof

/-- The signed reading of n bits is the bit vector's. -/
theorem sgn_eq_toInt (n v : Nat) : sgn n v = (BitVec.ofNat n v).toInt := by
  simp only [sgn, BitVec.toInt_eq_toNat_cond, BitVec.toNat_ofNat]
  have h : 2 * (v % 2 ^ n) < 2 ^ n ↔ v % 2 ^ n < 2 ^ (n - 1) := by
    cases n with
    | zero => simp [Nat.mod_one]
    | succ n => simp only [Nat.add_sub_cancel, Nat.pow_succ]; omega
  simp only [h]

theorem extS_eq_signExtend (n v : Nat) : extS n v = (BitVec.ofNat n v).signExtend 64 := by
  rw [extS, sgn_eq_toInt, BitVec.signExtend]

theorem extZ_eq_setWidth (n v : Nat) : extZ n v = (BitVec.ofNat n v).setWidth 64 := by
  apply BitVec.eq_of_toNat_eq
  simp [extZ]

theorem ofNat_wrapN (n : Nat) (x : Int) : BitVec.ofNat n (wrapN n x) = BitVec.ofInt n x := by
  apply BitVec.eq_of_toNat_eq
  have h : (0 : Int) < ((2 ^ n : Nat) : Int) := by exact_mod_cast Nat.two_pow_pos n
  have h0 := Int.emod_nonneg x (ne_of_gt h)
  have h1 := Int.emod_lt_of_pos x h
  simp only [wrapN, BitVec.toNat_ofNat, BitVec.toNat_ofInt]
  rw [Nat.mod_eq_of_lt]
  omega

/-- An exact integer cut to n bits and sign-extended. -/
theorem outS_eq (n : Nat) (x : Int) : outS n x = (BitVec.ofInt n x).signExtend 64 := by
  rw [outS, extS_eq_signExtend, ofNat_wrapN]

end Sys2Proof.Machine
end

