-- ==== Sys2Proof/Tests/Slice0.lean ====
section
/-!
SUPPORT. Tests of the model: words of each family decoded, the checks of WellFormed, the first step after reset, and for every statement
with hypotheses states and operands that meet them.
-/

namespace Sys2Proof.Tests

open Sys2Proof Sys2Proof.Machine

-- One after another: evaluations that the kernel makes at once wait for each other, each in a thread of its own.
set_option Elab.async false

/-! ## Small machines -/

/-- A running thread. -/
def runner : Thread := { run := .running, pc := 0x1000, gen := 1 }

/-- The booted package with one numbered core whose slot 0 holds a thread. -/
def one (t : Thread) (c : Core := {}) : State :=
  { site := false, booted := true, powered := 136, arrays := 128, encnt := 1, devsn := 0, keyHash := [], revoked := [], minVersion := 0
    cores := [(0, { c with numbered := true, threads := [(0, t)] })] }

/-- That package with a thread at rest in its work. -/
def calm : State := one runner

/-- A core with a page of cached DRAM in its TLB, and one with a page that is not cached (R117). -/
def paged (nc : Bool) : Core := { tlb := [{ w0 := if nc then 0x3F else 0x1F, w1 := 0 }] }

/-! ## Hypotheses met: words -/

theorem witness_plain : calm.plain ∧ (calm.th.preg 0).getLsbD 0 = true ∧ (calm.th.preg 1).getLsbD 0 = false := by decide

theorem witness_JumpWords : (one { runner with glob := [(1, 3)] }).plain ∧
    ((one { runner with glob := [(1, 3)] }).reg 1 + (0#12).signExtend 64).getLsbD 0 = true ∧
    (calm.reg 1 + (0#12).signExtend 64).getLsbD 0 = false := by decide

/-- In a called window: lk is even, and the caller's window is resident. -/
def called : State := one { runner with depth := 1, glob := [(30, 0x2000)] }

theorem witness_CallAndReturn : calm.plain ∧ Claims.canCall calm ∧ Claims.canCall (one { runner with depth := 30, resLo := 28 }) ∧
    called.plain ∧ Claims.canReturn called ∧ (called.reg 30).getLsbD 0 = false := by
  refine ⟨by decide, by unfold Claims.canCall; decide, by unfold Claims.canCall; decide, by decide, ⟨by decide, by simp [called, one]; decide⟩, by decide⟩

theorem witness_TrapTaken : (one runner { thbEn := true }).th.act = false ∧ (one runner { thbEn := true }).co.thbEn = true := by decide
theorem witness_TrapFails : calm.th.pair = 0 ∧ calm.th.run ≠ .halted ∧ calm.co.thbEn = false ∧
    (one { runner with act := true } { thbEn := true }).th.act = true := by decide

/-- In window 31, and in a child that began in window 1. -/
def deepest : State := one { runner with depth := 31, resLo := 31, glob := [(1, 1)] }
def inChild : State := one { runner with depth := 1, inl := [{ kind := .child, ret := 0x3000, depth := 1, dst := 0, task := {} }] }

theorem witness_WindowTraps : deepest.plain ∧ Claims.overflows deepest ∧ (deepest.reg 1 + (0#12).signExtend 64).getLsbD 0 = true ∧
    (deepest.reg 0 + (0#12).signExtend 64).getLsbD 0 = false ∧ (one { runner with depth := 3 }).plain ∧
    ¬ Claims.overflows (one { runner with depth := 3 }) ∧ 4 ≤ (one { runner with depth := 3 }).th.depth + 1 - (one { runner with depth := 3 }).th.resLo ∧
    calm.th.depth = 0 ∧ (calm.reg 30).getLsbD 0 = false ∧ ((one { runner with glob := [(30, 0x2001)] }).reg 30).getLsbD 0 = true ∧
    inChild.plain ∧ (∃ x ∈ inChild.th.inl.head?, inChild.th.depth ≤ x.depth) ∧ (one { runner with depth := 2, resLo := 2 }).plain ∧
    0 < (one { runner with depth := 2, resLo := 2 }).th.depth ∧
    (∀ x ∈ (one { runner with depth := 2, resLo := 2 }).th.inl.head?, x.depth < (one { runner with depth := 2, resLo := 2 }).th.depth) ∧
    (one { runner with depth := 2, resLo := 2 }).th.depth ≤ (one { runner with depth := 2, resLo := 2 }).th.resLo := by
  unfold Claims.overflows; decide

theorem witness_WindowFlush : (one { runner with depth := 2 }).plain ∧ (one { runner with depth := 2 }).th.resLo ≤ 1 ∧
    1 < (one { runner with depth := 2 }).th.depth ∧ (one { runner with depth := 2 }).th.depth ≤ 31 := by decide

/-- The highest local address of 8 bytes, and the banks busy with a vector access. -/
theorem witness_LocalLoadsAndStores :
    (0x7FFF8 : Word).toNat + 8 ≤ 0x80000 ∧ anyBad calm.co.lsBad 0x7FFF8 8 = false ∧ calm.co.bankReady 0x7FFF8 8 < calm.co.cyc + 16 ∧
    (one runner { bankFree := [(0, 40)] }).co.cyc + 16 ≤ (one runner { bankFree := [(0, 40)] }).co.bankReady 0 8 ∧
    calm.co.inClaim 0x7FFF8 8 = false ∧ calm.site = false := by decide

/-- A core whose Hive table is claimed at 0x7F000 with 8 buckets. -/
def hived : Core := { hlog := 12, hive := { clm := true, b := 3 } }

theorem witness_LocalTraps : (one runner hived).plain ∧ 0x80000 < (0x7FFF9 : Word).toNat + 8 ∧
    (0x7EFF9 : Word).toNat + 8 ≤ 0x80000 ∧ (one runner hived).co.inClaim 0x7EFF9 8 = true ∧
    (one runner hived).co.inClaim 0x7EFF8 8 = false := by decide

/-- The access of n bytes at an address of the one page. -/
def seg (a n : Nat) (nc : Bool) : Seg := { va := BitVec.ofNat 64 a, pa := a, size := n, nc := nc, tgt := .dram }

/-- A line of the L1 that is valid and whole. -/
def whole (base : Nat) : Line := { base := base, data := 7, valid := BitVec.allOnes 64, dirty := 0, writers := 0, tag := 0, bad := 0 }

/-- The package whose core has an uncached page, and a cached page with a line in its L1. -/
def bare : State := one runner (paged true)
def lined : State := one runner { paged false with l1 := [whole 0x40] }

theorem bare_uncached (acc : Nat) (h : acc = 0 ∨ acc = 1) : Claims.uncached bare 0x1238 8 acc (seg 0x1238 8 true) := by
  rcases h with rfl | rfl <;> exact ⟨rfl, by decide, by decide, by decide, by decide⟩

theorem lined_cached (acc : Nat) (h : acc = 0 ∨ acc = 1) : Claims.cached lined 0x78 8 acc (seg 0x78 8 false) := by
  rcases h with rfl | rfl <;> exact ⟨rfl, by decide, by decide, by decide, by decide, by decide⟩

theorem witness_DeviceLoads : bare.plain ∧ lined.plain ∧ Claims.uncached bare 0x1238 8 0 (seg 0x1238 8 true) ∧ bare.th.cntL < 1023 ∧
    Claims.cached lined 0x78 8 0 (seg 0x78 8 false) ∧ lined.co.hit 0x40 0x38 8 = true ∧
    (Claims.lineBytes lined (seg 0x78 8 false) 8).isSome = true ∧ (∀ l ∈ lined.co.line 0x40, l.bad = 0) ∧ lined.th.accQ = [] :=
  ⟨by decide, by decide, bare_uncached 0 (.inl rfl), by decide, lined_cached 0 (.inl rfl), by decide +kernel, by decide +kernel, by decide +kernel, by decide⟩

theorem witness_DeviceStores : Claims.uncached bare 0x1238 8 1 (seg 0x1238 8 true) ∧ bare.th.cntS < 1023 ∧
    Claims.cached lined 0x78 8 1 (seg 0x78 8 false) ∧ lined.co.line 0x40 = some (whole 0x40) ∧
    Claims.cached lined 0x40 64 1 (seg 0x40 64 false) :=
  ⟨bare_uncached 1 (.inr rfl), by decide, lined_cached 1 (.inr rfl), by decide +kernel, ⟨rfl, by decide, by decide, by decide, by decide, by decide⟩⟩

/-- A core whose TLB maps 64 KiB pages: page, physical address, flags. -/
def mapping (es : List (Nat × Nat × Nat)) : Core :=
  { tlb := es.map (fun e => { w0 := BitVec.ofNat 64 (e.1 * 0x10000 + e.2.2), w1 := BitVec.ofNat 64 e.2.1 }) }

/-- Two uncached pages of DRAM; a cached page; the own window up to 0x10000, and its part with the claimed Hive range. -/
def twoPages : State := one runner (mapping [(0, 0x10000, 0x3D), (1, 0x50000, 0x3D)])
def onePage : State := one runner (mapping [(0, 0x10000, 0x1D)])
def ownWindow : State := one runner (mapping [(0, 0x8000000000, 0x3D)])
def ownClaim : State := one runner { mapping [(0, 0x8000070000, 0x3D)] with hlog := 12, hive := { clm := true, b := 3 } }

/-- The access of n bytes at an address of the own window. -/
def winSeg (a pa n : Nat) : Seg := { va := BitVec.ofNat 64 a, pa := pa, size := n, nc := true, tgt := .window 0 }

theorem own_window (n acc : Nat) (h : (n, acc) ∈ [(8, 0), (8, 1), (64, 1), (8, 2), (4, 2)]) :
    Claims.inOwnWindow ownWindow 0x40 n acc (winSeg 0x40 0x8000000040 n) := by
  simp at h; rcases h with ⟨rfl, rfl⟩ | ⟨rfl, rfl⟩ | ⟨rfl, rfl⟩ | ⟨rfl, rfl⟩ | ⟨rfl, rfl⟩ <;> exact ⟨rfl, by decide, by decide⟩

theorem witness_loads_that_miss : onePage.plain ∧ Claims.cached onePage 0x38 8 0 { seg 0x38 8 false with pa := 0x10038 } ∧
    onePage.co.hit 0x10000 0x38 8 = false ∧ onePage.th.cntL < 1023 ∧
    onePage.live.segments 0x3C 8 0 = .ok ([{ seg 0x3C 8 false with pa := 0x1003C }], onePage.live) ∧ 64 < 0x1003C % 64 + 8 ∧
    onePage.co.hit 0x10000 0x3C 4 = false ∧ onePage.co.hit 0x10040 0 4 = false :=
  ⟨by decide, ⟨rfl, by decide, by decide, by decide, by decide, by decide⟩, by decide, by decide, rfl, by decide, by decide, by decide⟩

theorem witness_splits : twoPages.plain ∧
    (∀ acc ∈ [0, 1], twoPages.live.segments 0xFFFC 8 acc =
      .ok ([{ seg 0xFFFC 4 true with pa := 0x1FFFC }, { seg 0x10000 4 true with pa := 0x50000 }], twoPages.live)) ∧
    (seg 0xFFFC 4 true).cached = false ∧ (seg 0xFFFC 4 true).tgt ≠ .window twoPages.cur.1 ∧ twoPages.th.cntS < 1023 := by
  refine ⟨by decide, ?_, by decide, by decide, by decide⟩
  intro acc h; simp at h; rcases h with rfl | rfl <;> rfl

theorem witness_own_window : ownWindow.plain ∧ Claims.inOwnWindow ownWindow 0x40 8 0 (winSeg 0x40 0x8000000040 8) ∧
    anyBad ownWindow.co.lsBad 0x40 8 = false ∧ ownWindow.th.accQ = [] ∧ ownWindow.co.inClaim 0x40 64 = false ∧ ownWindow.site = false ∧
    Claims.inOwnWindow ownWindow 0x40 64 1 (winSeg 0x40 0x8000000040 64) ∧
    Claims.inOwnWindow ownClaim 0xEFF9 8 1 (winSeg 0xEFF9 0x800007EFF9 8) ∧ ownClaim.co.inClaim 0x7EFF9 8 = true :=
  ⟨by decide, own_window 8 0 (by decide), by decide, by decide, by decide, by decide, own_window 64 1 (by decide),
   ⟨rfl, by decide, by decide⟩, by decide⟩

/-- The issuing thread's translation. -/
def trans (s : State) (va : Word) (acc : Nat) : Xlat := s.live.translate s.cur.1 s.cur.2 s.th.priv s.th.walk va acc

/-- A page that may not be written, one in a hole of the map, and a second page at another target. -/
def readOnly : State := one runner (mapping [(0, 0x10000, 0x35), (1, 0x50000, 0x31)])
def inHole : State := one runner (mapping [(0, 0x9000000000, 0x3D)])
def twoTargets : State := one runner (mapping [(0, 0x10000, 0x3D), (1, 0x8000000000, 0x3D)])

theorem witness_accessFaults : trans readOnly 0x100 1 = .fault 2 readOnly.live ∧ (∃ u, trans calm 0x100 0 = .miss u) ∧
    trans inHole 0x100 0 = .ok 0x9000000100 true inHole.live ∧ inHole.live.decodePa 0x9000000100 8 0 = .error 0 ∧
    trans readOnly 0xFFFC 0 = .ok 0x1FFFC true readOnly.live ∧ trans readOnly 0x10000 0 = .fault 2 readOnly.live ∧
    trans twoTargets 0xFFFC 0 = .ok 0x1FFFC true twoTargets.live ∧ trans twoTargets 0x10000 0 = .ok 0x8000000000 true twoTargets.live ∧
    twoTargets.live.decodePa 0x1FFFC 4 0 = .ok .dram ∧ twoTargets.live.decodePa 0x8000000000 4 0 = .ok (.window 0) ∧
    (Target.dram : Target) ≠ .window 0 := ⟨rfl, ⟨_, rfl⟩, rfl, rfl, rfl, rfl, rfl, rfl, rfl, rfl, by decide⟩

/-- In site mode at a store of the boot root to COMMIT, with a counter that is 0 or not. -/
def booting (cntr : Nat) : State :=
  { one { runner with cntL := cntr, glob := [(1, 0x7FFC8), (2, 0x8000000000000001)] } with site := true }

theorem witness_BootCommit : (booting 0).plain ∧ (booting 0).site = true ∧ (booting 0).cur = (bootSite (booting 0).fused, 0) ∧
    (booting 0).reg 1 + (0#12).signExtend 64 = 0x7FFC8 ∧ ((booting 0).reg 2).getLsbD 63 = true ∧ (booting 0).co.inClaim 0x7FFC8 8 = false ∧
    (booting 0).th.cntr = 0 ∧ (booting 1).plain ∧ (booting 1).th.cntr ≠ 0 := by decide +kernel

theorem witness_Prefetch : lined.plain ∧ trans lined 0x2000 0 = .ok 0x2000 false lined.live ∧
    lined.live.decodePa 0x2000 1 0 = .ok .dram ∧ lined.co.hit 0x2000 0 64 = false ∧ lined.co.hit 0x40 0 64 = true ∧
    trans lined 0x40 0 = .ok 0x40 false lined.live ∧ trans lined 0x0100000000000000 0 = .fault 0 lined.live ∧
    trans bare 0x2000 0 = .ok 0x2000 true bare.live ∧ (∃ u, trans calm 0x100 0 = .miss u) ∧
    trans (one runner (mapping [(0, 0x9000000000, 0x1D)])) 0 0 = .ok 0x9000000000 false (one runner (mapping [(0, 0x9000000000, 0x1D)])).live ∧
    (one runner (mapping [(0, 0x9000000000, 0x1D)])).live.decodePa 0x9000000000 1 0 = .error 0 ∧
    trans (one runner (mapping [(0, 0x8000000000, 0x1D)])) 0 0 = .ok 0x8000000000 false (one runner (mapping [(0, 0x8000000000, 0x1D)])).live ∧
    (one runner (mapping [(0, 0x8000000000, 0x1D)])).live.decodePa 0x8000000000 1 0 = .ok (.window 0) :=
  ⟨by decide, rfl, rfl, by decide, by decide, rfl, rfl, rfl, ⟨_, rfl⟩, rfl, rfl, rfl, rfl⟩

theorem witness_LocalAtomics : calm.plain ∧ calm.site = false ∧ Claims.bankReady calm 1 0 8 0 ∧ Claims.released calm 1 ∧
    Claims.bankReady (one { runner with glob := [(1, 0x7FFFC)] }) 1 ((one { runner with glob := [(1, 0x7FFFC)] }).reg 1) 4 0x7FFFC ∧
    Claims.bankReady ownWindow 0 0x40 8 0x40 ∧ ownWindow.plain :=
  ⟨by decide, by decide, ⟨by decide, by decide, by decide, by decide, .inl ⟨by decide, by decide⟩⟩,
   fun _ => ⟨⟨by decide, by decide, by decide⟩, by decide⟩,
   ⟨by decide, by decide, by decide, by decide, .inl ⟨by decide, by decide⟩⟩,
   ⟨by decide, by decide, by decide, by decide, .inr ⟨rfl, _, own_window 8 2 (by decide), by decide⟩⟩, by decide⟩

theorem witness_AtomicChecks : (one { runner with glob := [(1, 4)] }).plain ∧ ((one { runner with glob := [(1, 4)] }).reg 1).toNat % 8 ≠ 0 ∧
    (0x80000 : Word).toNat % 8 = 0 ∧ 0x80000 < (0x80000 : Word).toNat + 8 ∧ (0x7F000 : Word).toNat + 8 ≤ 0x80000 ∧
    (one runner hived).co.inClaim 0x7F000 8 = true ∧ Claims.inOwnWindow ownClaim 0xF000 8 2 (winSeg 0xF000 0x800007F000 8) ∧
    ownClaim.co.inClaim 0x7F000 8 = true ∧ (one { runner with cntS := 1 }).plain ∧ (one { runner with cntS := 1 }).th.cntS ≠ 0 ∧
    Claims.bankReady (one { runner with cntS := 1 }) 1 0 8 0 ∧
    bare.live.segments 0x1238 8 2 = .ok ([seg 0x1238 8 true], bare.live) ∧ (seg 0x1238 8 true).tgt ≠ .window bare.cur.1 :=
  ⟨by decide, by decide, by decide, by decide, by decide, by decide, ⟨rfl, by decide, by decide⟩, by decide, by decide, by decide,
   ⟨by decide, by decide, by decide, by decide, .inl ⟨by decide, by decide⟩⟩, rfl, by decide⟩

/-- The L1 holds an atomic's target line, clean or with dirty bytes. -/
def holdsTarget (dirty : BitVec 64) : State := one runner { paged false with l1 := [{ whole 0x1200 with dirty := dirty }] }

theorem witness_AtomicsSent : bare.plain ∧ (0x1238 : Word).toNat % 8 = 0 ∧
    bare.live.segments 0x1238 8 2 = .ok ([seg 0x1238 8 true], bare.live) ∧ Claims.released bare 1 ∧ bare.th.cntS < 1022 ∧
    regionOf (0x1238 % 2 ^ 40) = some 0 ∧ (∀ f ∈ bare.flights, ¬ (f.site = bare.cur.1 ∧ f.pa = 0x1200)) ∧
    Claims.targetLine bare 0x1200 .absent ∧ (holdsTarget 0).plain ∧ Claims.targetLine (holdsTarget 0) 0x1200 .clean ∧
    Claims.targetLine (holdsTarget 0xFF) 0x1200 (.dirty { whole 0x1200 with dirty := 0xFF }) ∧
    (holdsTarget 0xFF).live.segments 0x1238 8 2 = .ok ([seg 0x1238 8 false], (holdsTarget 0xFF).live) :=
  ⟨by decide, by decide, rfl, fun _ => ⟨⟨by decide, by decide, by decide⟩, by decide⟩, by decide, by decide, by decide, rfl, by decide,
   ⟨_, rfl, rfl⟩, ⟨rfl, by decide⟩, rfl⟩
/-! ## Hypotheses met: number formats -/

theorem witness_formats : Claims.isFormat fp32 ∧ Claims.isFormat e2m1 ∧ Claims.computes fp32 ∧ Claims.computes bf16 := by
  refine ⟨⟨_, .tail _ (.head _), rfl⟩, ⟨_, .tail _ (.tail _ (.tail _ (.tail _ (.tail _ (.tail _ (.tail _ (.tail _ (.head _)))))))), rfl⟩, ?_, ?_⟩ <;> simp [Claims.computes]

theorem witness_codes : Claims.isNum fp32 0x7F7FFFFF ∧ Claims.isInf fp32 0xFF800000 ∧ Claims.isNan fp32 0x7FC00000 ∧
    ¬ Claims.signals fp32 0x7FC00000 ∧ Claims.signals fp32 0x7F800001 ∧ Claims.isNan e4m3 0xFF ∧ ¬ Claims.signals e4m3 0xFF := by
  unfold Claims.signals Claims.isNan; unfold Claims.isNum Claims.isInf; decide

/-- 1, −1, ±0 and the least subnormal of FP32. -/
theorem witness_numbers : Claims.isNum fp32 0x3F800000 ∧ 0 < Claims.num fp32 0x3F800000 ∧ Claims.num fp32 0xBF800000 < 0 ∧
    Claims.num fp32 0 = 0 ∧ Claims.isNum fp32 0x80000000 ∧ Claims.num fp32 0x80000000 = 0 ∧ Claims.num fp32 1 ≠ 0 ∧
    Claims.ordered fp32 0x80000000 0 ∧ Claims.ordered fp32 0xBF800000 0x3F800000 := by
  refine ⟨by unfold Claims.isNum; decide, by decide +kernel, by decide +kernel, by decide +kernel, by unfold Claims.isNum; decide,
    by decide +kernel, by decide +kernel, .inr ⟨?_, ?_, by decide +kernel, by decide +kernel, by decide, by decide⟩,
    .inl (.inl ⟨?_, ?_, by decide +kernel⟩)⟩ <;> unfold Claims.isNum <;> decide

/-- R158's worked case: 1 + 1.25 × 2^−10 to FP16 under SR, on the draws 8,257 and 16,514; R152: half of the least subnormal, to +0. -/
theorem test_rounding : fp32.convert fp16 5 8257 0x3F802800 = (0x3C02, fNX) ∧ fp32.convert fp16 5 16514 0x3F802800 = (0x3C01, fNX) ∧
    fp32.convert fp16 0 0 0x33000000 = (0, fNX ||| fUF) ∧ fp32.convert e4m3 0 0 0x7F800000 = (0x7E, fOF ||| fNX) := by decide +kernel

/-- The exact value that does not pass 0, and one that does; overflow and no overflow. -/
theorem witness_rounded : ¬ (Claims.exactly 0).passes 0 ∧ (Claims.exactly (1 / 3)).passes 0 ∧ (Claims.rootOf 2).passes 0 ∧
    (Claims.exactly 65520).reaches (Claims.mag fp16 (fp16.top + 1) - 16) := by
  refine ⟨?_, ?_, ?_, ?_⟩ <;> simp only [Claims.exactly, Claims.rootOf] <;> decide +kernel

theorem witness_conversions : (8 : Nat) ∈ [8, 16, 32, 64] ∧ (5 : Nat) ≤ 5 ∧ Claims.isFormat fp16 ∧ Claims.isFormat e4m3 ∧
    (∃ x ∈ [0x7F800001], Claims.signals fp32 x) ∧ (∀ x ∈ [0x7FC00000], Claims.isNan fp32 x ∧ ¬ Claims.signals fp32 x) ∧
    (∃ x ∈ [0x3F800000], ¬ Claims.isNan fp32 x) := by
  refine ⟨by decide, by decide, ⟨_, .tail _ (.tail _ (.head _)), rfl⟩, ⟨_, .tail _ (.tail _ (.tail _ (.tail _ (.tail _ (.head _))))), rfl⟩, ?_⟩
  unfold Claims.signals Claims.isNan; unfold Claims.isNum Claims.isInf; decide

/-- Flags enabled, s1 = 1.0, s2 = 0, s3 = infinity, s4 a signalling NaN, and a handler. -/
def alert : State := one { runner with flg := 0x3F00, glob := [(1, 0x3FF0000000000000), (3, 0x7FF0000000000000), (4, 0x7FF0000000000001)] }
  { thbEn := true }

/-- The format of FT = 1. -/
def ft1 : Fmt := ftFmt 1

theorem witness_RoundingWords : alert.plain ∧ (7 : BitVec 3) ≠ 6 ∧ alert.th.act = false ∧ alert.co.thbEn = true ∧
    alert.th.trapsOn (fp64.divV 0 0 (fp64.read (Claims.low alert fp64 1)) (fp64.read (Claims.low alert fp64 2))).2 = true ∧
    calm.th.trapsOn (fp64.divV 0 0 (fp64.read 0x3FF0000000000000) (fp64.read 0)).2 = false ∧
    alert.th.trapsOn (fp64.mulV 0 0 (fp64.read (Claims.low alert fp64 3)) (fp64.read (Claims.low alert fp64 2))).2 = true := by
  decide +kernel

theorem witness_FusedWords : alert.th.trapsOn (fp64.fmaV 0 0 (fp64.read (Claims.low alert fp64 3)) (fp64.read (Claims.low alert fp64 2))
    (fp64.read 0)).2 = true ∧ alert.th.trapsOn (fp64.fmaV 0 0 (fp64.read 0) (fp64.read 0) (fp64.read 0)).2 = false := by decide +kernel

theorem witness_ExactFloatWords : alert.th.trapsOn (fp64.minmax false (Claims.low alert fp64 4) 0).2 = true ∧
    alert.th.trapsOn (fp64.minmax false (Claims.low alert fp64 1) 0).2 = false := by decide +kernel

theorem witness_GeometryWords : calm.plain ∧ (2 : BitVec 2) ≠ 3 ∧ (5 : BitVec 3).toNat ≤ 5 := by decide

/-- A core with a transaction frame whose header says that it is in use. -/
def framedCore : Core := { flog := 9, fcnt := 1, ls := [(0x1001C, 1)] }
def framedOne : State := one { runner with glob := [(1, 0x10100)] } framedCore

theorem witness_ExtensionWords : (0x7FFF8 : Word).toNat % 8 = 0 ∧ (0x7FFF8 : Word).toNat + 8 ≤ 0x80000 ∧
    anyBad calm.co.lsBad 0x7FFF8 8 = false ∧ calm.co.bankReady 0x7FFF8 8 < calm.co.cyc + 16 ∧ (0x7FFF9 : Word).toNat % 8 ≠ 0 ∧
    framedOne.plain ∧ framedOne.frameAt (framedOne.reg 1) = true ∧ framedOne.lsNum framedOne.cur.1 (0x10000 + 28) 1 = 1 ∧
    framedOne.co.lsBad = [] := by decide

theorem witness_VectorFloatWords : alert.plain ∧ (0 : BitVec 3) ≠ 6 ∧
    alert.th.trapsOn (Claims.laneFlags alert 0 8 (fun _ => fp64.divV 0 0 (fp64.read 0x3FF0000000000000) (fp64.read 0))) = true := by
  decide +kernel

theorem witness_VectorConversions : 3 < max (64 / etBytes 0) (64 / etBytes 2) / min (64 / etBytes 0) (64 / etBytes 2) ∧
    Claims.isFp 0 = false := by decide

theorem witness_TernaryScansAndReductions : (4 : BitVec 3).toNat ≤ 4 ∧ (2 : BitVec 2) ≠ 3 ∧ Claims.isFp 3 = false ∧ Claims.isFp 4 = true ∧
    (2 : BitVec 3).toNat ≤ 2 := by decide

/-- The last 64 bytes of the local store for all lanes, and one lane alone. -/
def lanes : State := one { runner with glob := [(1, 0x7FFC0)], prd := [(1, 1)] }

theorem witness_VectorLocalMemory : lanes.plain ∧ lanes.site = false ∧ lanes.co.frames = [] ∧
    (∀ j < 64, Claims.on lanes 0 1 j = true → (Claims.contigAddr lanes 1 1 j).toNat + 1 ≤ 0x80000 ∧
      anyBad lanes.co.lsBad (Claims.contigAddr lanes 1 1 j).toNat 1 = false ∧ lanes.co.inClaim (Claims.contigAddr lanes 1 1 j).toNat 1 = false) ∧
    ∀ j < 8, Claims.on lanes 1 8 j = true → (Claims.strideAddr lanes 1 0 j).toNat + 8 ≤ 0x80000 ∧
      anyBad lanes.co.lsBad (Claims.strideAddr lanes 1 0 j).toNat 8 = false ∧ (Claims.gatherAddr lanes 1 0 8 j).toNat + 8 ≤ 0x80000 := by
  decide +kernel

/-- The banks of a vector load serve it before the thread's next slot, or only after it. -/
theorem witness_VectorLocalMemory_served : let els := [((0x7FFC0 : Word), 0, 8)]
    ((lanes.co.bankUse (accBlocks els)).bankLast (accBlocks els) < lanes.co.cyc + 16 * (1 + busySlots els)) ∧
    let late := (one { runner with glob := [(1, 0x7FFC0)], prd := [(1, 1)] } { bankFree := (List.range 32).map (fun b => (b, 400)) })
    late.co.cyc + 16 * (1 + busySlots els) ≤ (late.co.bankUse (accBlocks els)).bankLast (accBlocks els) := by decide +kernel

/-- An uncached page, p1 with one lane. -/
def bareLane : State := one { runner with glob := [(1, 0x1238)], prd := [(1, 1)] } (paged true)

theorem witness_VectorDeviceMemory : bareLane.plain ∧ bareLane.th.cntL < 1023 ∧ bareLane.th.cntS < 1023 ∧
    Claims.vecAccs bareLane 0 8 true (Claims.contigAddr bareLane 0 8) = [(0, 0, 64)] ∧
    Claims.vecAccs bareLane 1 8 false (Claims.strideAddr bareLane 1 0) = [(0x1238, 0, 8)] ∧
    Claims.vecAccs bareLane 1 8 false (Claims.gatherAddr bareLane 1 0 8) = [(0x1238, 0, 8)] ∧
    (∀ x ∈ [((0 : Word), 0, 64)].zip [seg 0 64 true], ∀ acc ∈ [0, 1], Claims.uncached bareLane x.1.1 x.1.2.2 acc x.2) ∧
    ∀ x ∈ [((0x1238 : Word), 0, 8)].zip [seg 0x1238 8 true], ∀ acc ∈ [0, 1], Claims.uncached bareLane x.1.1 x.1.2.2 acc x.2 := by
  refine ⟨by decide, by decide, by decide, by decide +kernel, by decide +kernel, by decide +kernel, ?_, ?_⟩ <;>
    · intro x hx acc ha
      simp only [List.zip_cons_cons, List.zip_nil_right, List.mem_cons, List.not_mem_nil, or_false] at hx ha
      subst hx
      rcases ha with rfl | rfl <;> exact ⟨rfl, by decide, by decide, by decide, by decide⟩
/-- s1 = 64, s2 = 16 and s3 = 0x1000. -/
def ready : State := one { runner with glob := [(1, 64), (2, 16), (3, 0x1000)] }

theorem room_ready (q : Nat) (h : q < 5) : Claims.room ready q := by
  unfold Claims.room; revert q; decide

theorem witness_MatrixWords : ready.plain ∧ mstBad 1 1 0 = true ∧ mstBad 0x8 0x1000 64 = false ∧
    (∀ i < bits 0x8 9 7 + 1, 0x1000 + i * 64 + (bits 0x8 23 5 + 1) * codeBytes (bits 0x8 2 4) ≤ 0x80000 ∧
      ready.co.inClaim (0x1000 + i * 64) ((bits 0x8 23 5 + 1) * codeBytes (bits 0x8 2 4)) = false) ∧
    (∀ i < bits 0x8 9 7 + 1, 0x7FF80 + i * 64 + 128 ≤ 0x80000) ∧ 0x7FF80 + 128 ≤ 0x80000 := by decide

theorem witness_CopyWords : ready.plain ∧ Claims.fits ready true 0x7FFC0 64 false ∧ Claims.fits ready true 0x7FF80 64 true ∧
    Claims.apart true 0x7FFC0 64 true 0x7FF80 64 ∧ rowLen 0x40 ≠ 0 ∧
    Claims.fits ready true (0x7FFC0 + BitVec.ofNat 64 (0 * srcStride 0x40)) (rowLen 0x40) false ∧
    Claims.fits ready true (0x7FF80 + BitVec.ofNat 64 (0 * dstStride 0x40)) (rowLen 0x40) true := by
  unfold Claims.fits Claims.apart; refine ⟨?_, ?_, ?_, ?_, ?_, ?_, ?_⟩ <;> decide +kernel

theorem witness_CopyWords_deal : 1 ≤ patBlk 1 ∧ patBlk 0x400 ≤ 1024 ∧ patList 1 % 2 = 0 ∧ patList 1 + 2 * (patNcm 1 + 1) ≤ 0x80000 ∧
    (∀ c ∈ ready.dealList 1, c < 0x1000 ∧ c < ready.encnt) ∧
    (∀ y ∈ dealBlocks 1 0x1000 64, y.2.2.2 + y.2.1 ≤ 0x80000 ∧ ready.co.inClaim y.2.2.2 y.2.1 = false) := by decide +kernel

theorem witness_CopyWords_forms :
    cpywBad 0x420 0xBFC0 = false ∧ Claims.fits ready true 0x1000 ((bits 0x420 0 5 + 1) * bits 0x420 10 7) false ∧
    zStat 0x100000000000 % 16 = 0 ∧ Claims.fits ready true (BitVec.ofNat 64 (zStat 0x100000000000)) 16 true ∧
    cpycBad 0x1811 4 = false ∧ Claims.fits ready ((0x1811 : Word).getLsbD 11) 0x1000 (4 * (cpycSizes 0x1811).1) false ∧
    Claims.apart true 0x1000 (4 * (cpycSizes 0x1811).1) true 0x2000 (4 * (cpycSizes 0x1811).2) := by
  unfold Claims.fits Claims.apart; decide +kernel

theorem witness_SparseWords : ready.plain ∧ ready.descBad 0 4 false false = false ∧ ready.descBad 0 4 false true = false ∧
    ready.descBad 0 4 true true = false ∧ ready.descBad 0 8 false true = false ∧ ready.recordBad 0x1000 = false ∧
    ready.descBad 1 4 false false = true ∧ ready.recordBad 1 = true := by decide +kernel

/-- A claimed table, empty, and one whose every slot holds the key 0. -/
def hiveOne : State := one { runner with glob := [(1, 5), (2, 9)] } hived
def hiveFull : State := one { runner with glob := [(1, 5), (2, 9)] }
  { hived with thbEn := true, ls := (List.range 8).map (fun j => (0x7F200 + j, 0x0F)) }

theorem witness_HiveScalarWords : hiveOne.plain ∧ Claims.hiveReady hiveOne ∧
    (∀ f ∈ [Claims.keyIns, Claims.keyAcc Claims.accAdd, Claims.keyAcc Claims.accFadd, Claims.keyPrb, Claims.keyDel],
      (f hiveOne.co hiveOne.co.ls (hiveOne.reg 1) (hiveOne.reg 2)).isSome = true) ∧
    hiveOne.th.trapsOn 0 = false := by
  refine ⟨by decide, ⟨by decide, by decide, by decide, by decide⟩, by decide +kernel, by decide⟩

theorem witness_HiveVectorWords :
    (∀ f ∈ [Claims.keyIns, Claims.keyAcc Claims.accMax, Claims.keyPrb, Claims.keyDel],
      (Claims.keyLanes f hiveOne.co hiveOne.co.ls (Claims.keyInput hiveOne 0 1 (some 2) 4)).isSome = true) ∧
    hiveOne.th.trapsOn (Claims.keyFlags []) = false := by decide +kernel

theorem witness_HiveTableWords : (one runner { hlog := 18 }).plain ∧ (one runner { hlog := 18 }).co.lsBad = [] ∧
    (one runner { hlog := 18 }).hiveHeld = false ∧ (one runner { hlog := 18 }).co.hive.clm = false ∧
    65 * 2 ^ 11 ≤ 2 ^ (one runner { hlog := 18 }).co.hlog ∧ canonical 0x20 = true ∧
    hiveOne.co.hive.clm = true ∧ hiveOne.co.hive.spn = 0 ∧ (∀ o ∈ hiveOne.co.ops, o.queue ≠ 3) ∧ hiveOne.hiveHeld = false ∧
    Claims.room hiveOne 3 ∧ Claims.fits hiveOne true 0x1000 (16 + 16 * 4) true := by
  unfold Claims.fits Claims.room; decide

theorem witness_HiveTraps : calm.co.hive.clm = false ∧ hiveFull.plain ∧ Claims.hiveReady hiveFull ∧ hiveFull.co.hive.spcap = 0 ∧
    hiveFull.th.act = false ∧ hiveFull.co.thbEn = true ∧
    Claims.keyIns hiveFull.co hiveFull.co.ls (hiveFull.reg 1) (hiveFull.reg 2) = none := by
  refine ⟨by decide, by decide, ⟨by decide, by decide, by decide, by decide⟩, by decide, by decide, by decide, ?_⟩
  have h : (Claims.keyIns hiveFull.co hiveFull.co.ls (hiveFull.reg 1) (hiveFull.reg 2)).isNone = true := by decide +kernel
  simpa using h

/-- One load and one store under way, and an operation queued. -/
def op0 : EngOp :=
  { id := 3, queue := 1, slot := 0, gen := 1, pc := 0, word := 0, lnch := 0, fl := 0, wid := 0, seq := 0, priv := false, ra := 0, rb := 0
    rd := 0, x0 := 0, x1 := 0, desc := 0, list := [], rm := 0, sr := 1, waits := [], held := false, stage := .queued, items := []
    bads := [], walk := none }
def counting : State := one { runner with cntL := 1, cntS := 1 } { ops := [op0] }

theorem witness_WaitAndQueueFence : calm.plain ∧ Claims.within 0 calm.th.cntL ∧
    counting.plain ∧ ¬ Claims.within 0 counting.th.cntL ∧ Claims.within 15 counting.th.cntL ∧ counting.th.due = [] ∧ counting.th.hb = none ∧
    (counting.co.ops.filter (fun o => decide (o.slot = counting.cur.2) && (2 : BitVec 5).toNat.testBit o.queue)).map (·.id) ≠ [] := by
  unfold Claims.within; decide

/-- A core whose L1 holds a line with a byte stored by slot 0. -/
def dirtied : State := one runner { paged false with l1 := [{ whole 0x40 with dirty := 1, writers := 1 }] }

theorem witness_L1Words : dirtied.plain ∧ (dirtied.co.l1.map (·.base)).Nodup ∧
    dirtied.th.cntS + (dirtied.co.l1.filter (fun l => decide (l.dirty ≠ 0))).length ≤ 1023 ∧
    dirtied.live.translate dirtied.cur.1 dirtied.cur.2 true dirtied.th.walk 0x40 4 = .ok 0x40 false dirtied.live ∧
    (∃ l, dirtied.co.line 0x40 = some l ∧ l.dirty ≠ 0) ∧ dirtied.co.line 0x80 = none :=
  ⟨by decide, by decide, by decide +kernel, rfl, ⟨_, rfl, by decide⟩, by decide +kernel⟩

theorem witness_TrapAndHaltWords : calm.plain ∧ (tblGet 0 (calm.co.lcore / 64) calm.dbgbp).getLsbD (calm.co.lcore % 64) = false ∧
    (tblGet 0 (calm.co.lcore / 64) { calm with dbgbp := [(0, 1)] }.dbgbp).getLsbD (calm.co.lcore % 64) = true ∧ calm.th.priv = false := by
  decide

/-- Firmware in its handler. -/
def handler (xpc : Word) : State := one { runner with priv := true, act := true, xpc := xpc }

theorem witness_ReturnFromTrap : (handler 0x2000).plain ∧ (handler 0x2000).th.priv = true ∧ (handler 0x2000).th.act = true ∧
    (handler 0x2000).th.xpc.getLsbD 0 = false ∧ (handler 0x2000).co.lsBad = [] ∧ calm.th.priv = false ∧
    (one { runner with priv := true }).th.priv = true ∧ (one { runner with priv := true }).th.act = false ∧
    (handler 0x2001).th.xpc.getLsbD 0 = true := by decide

theorem witness_SpecialRegisterReads : (handler 0).plain ∧ (handler 0).th.priv = true ∧ calm.th.priv = false ∧ calm.th.accQ = [] ∧
    sprListed 0xFFF = false := by decide

theorem witness_SpecialRegisterWrites : (handler 0).plain ∧ (handler 0).th.priv = true ∧ canonical ((handler 0).reg 1) = true ∧
    calm.th.priv = false := by decide

/-- A core whose ring has an entry. -/
def traced : State := one runner { ring := { en := true, entries := [{ addr := 8, size := 3, kind := 0, ord := 1, src := 0, slot := 0, gen := 1, cyc := 5 }] } }

theorem witness_UnitRegisterReads : traced.plain ∧ traced.cur.1 < 2048 ∧ traced.co.ring.entries[traced.co.ring.idx]? ≠ none ∧
    Claims.holdsTask (calm.live.thread 0 0) ∧ 0 ∈ calm.coresOf (clusterOf calm.cur.1) := by unfold Claims.holdsTask; decide +kernel

/-- s1 the LSP of R103's worked case, s2 a word that is not sign-extended. -/
def cutting (c : Core := {}) : State := one { runner with priv := true, glob := [(1, 0x810E10), (2, 0x0100000000000000)] } c

theorem witness_UnitRegisterWrites : cutting.plain ∧ cutting.th.priv = true ∧ Claims.lspFields (cutting.reg 1) ∧
    Claims.lspFree cutting (cutting.reg 1) ∧ ¬ Claims.lspFields (cutting.reg 0) ∧
    ¬ Claims.lspFree (cutting { deque := [rec0] }) (cutting.reg 1) ∧ canonical (cutting.reg 2) = false := by
  refine ⟨by decide, by decide, ⟨by decide, by decide, .inr ⟨by decide, by decide⟩, .inr ⟨by decide, by decide⟩, by decide⟩, ?_,
    fun h => absurd h.1 (by decide), fun h => absurd h.2.2.2.1 (by intro e; cases e), by decide⟩
  unfold Claims.lspFree Claims.holdsTask; decide +kernel

/-- Its thread. -/
def servant (priv : Bool) : Thread := { runner with priv := priv, glob := [(1, 0xFFF), (2, 0x1FFF)] }

/-- The translation service core of cluster 0, in firmware or for a user, and a core of its cluster. -/
def service (priv : Bool) : State :=
  { calm with cur := (2048, 0), cores := [(0, { numbered := true }), (2048, { threads := [(0, servant priv)] })] }

theorem witness_TlbWords : (service true).plain ∧ 2048 ≤ (service true).cur.1 ∧ (service true).th.priv = true ∧
    (∀ r ∈ [0, 1, 2], ((service true).reg r).extractLsb' 13 51 = 0) ∧
    entryReserved ((service true).th.ereg 0) ((service true).th.ereg 1) = false ∧
    (∀ r ∈ [1, 2], ((service true).reg r).extractLsb' 0 12 = 0xFFF) ∧ (service true).live.siteOf 0 = some 0 ∧ clusterOf 0 = 0 ∧
    calm.cur.1 < 2048 ∧ (service false).th.priv = false := by decide
/-- A message in a mailbox. -/
def mail (kind : Nat) : Entry := { core := 0, slot := 0, gen := 1, kind := kind, reason := 0, payload := [1, 2, 3, 4], lnch := 0 }

theorem witness_SendWords : calm.plain ∧ (calm.reg 0).extractLsb' 32 32 = 0 ∧ calm.th.cntS < 1023 ∧
    1023 ≤ (one { runner with cntS := 1023 }).th.cntS ∧ ((one { runner with glob := [(1, 0x100000000)] }).reg 1).extractLsb' 32 32 ≠ 0 := by
  decide

theorem witness_ReceiveWords : (one { runner with mbHi := [mail 3] }).plain ∧ 1 ≤ (26 : BitVec 5).toNat ∧ (26 : BitVec 5).toNat + 4 ≤ 30 ∧
    ((mail 3).payload ++ [Claims.mailHeader (mail 3) true]).length = 5 ∧ (one { runner with mbHi := [mail 3] }).th.mbHi ≠ [] ∧
    calm.th.mbHi = [] ∧ calm.th.mbLo = [] := by decide

/-- Monitor 0 is held by a thread, with another one waiting. -/
def monitored (held : Option Word) (waiters : List (Nat × Nat)) : State :=
  { one { runner with monHeld := held } with clusters := [(0, { mons := [{ key := 0, holder := (0, 0), waiters := waiters }] })] }

theorem witness_MonitorWords : calm.plain ∧ calm.th.monHeld = none ∧ (∀ m ∈ Claims.monitors calm, m.key ≠ calm.reg 1) ∧
    (Claims.monitors calm).length < 64 ∧ (monitored none []).th.monHeld = none ∧
    (∃ m ∈ Claims.monitors (monitored none []), m.key = (monitored none []).reg 1) ∧ (monitored (some 0) []).th.monHeld.isSome = true ∧
    calm.th.monHeld ≠ some 0 ∧ (monitored (some 0) []).th.monHeld = some ((monitored (some 0) []).reg 1) ∧
    (∀ w ∈ [[], [(0, 1)]], ((Claims.monitors (monitored (some 0) w)).find? (fun m => decide (m.key = 0))).map (·.waiters) = some w) := by
  decide

/-- Barrier unit 3 of cluster 0, and s1 = 4095. -/
def barred (b : Bar) : State := { one { runner with glob := [(1, 4095), (2, 4096)] } with clusters := [(0, { bars := [(3, b)] })] }

theorem witness_BarrierWords : (barred {}).plain ∧ 1 ≤ ((barred {}).reg 1).toNat ∧ ((barred {}).reg 1).toNat ≤ 4095 ∧
    (Claims.barrier (barred {}) 3).arrived = 0 ∧ 4095 < ((barred {}).reg 2).toNat ∧ ((barred {}).reg 0).toNat = 0 ∧
    (Claims.barrier (barred { arrived := 1 }) 3).arrived ≠ 0 ∧ (Claims.barrier (barred { expected := 2 }) 3).expected ≠ 0 ∧
    (barred {}).th.cntL < 1023 ∧ (Claims.barrier (barred {}) 3).expected = 0 ∧
    (Claims.barrier (barred {}) 3).gen ≠ ((barred {}).reg 1).toNat % 256 ∧
    (Claims.barrier (barred { gen := 255 }) 3).gen = ((barred { gen := 255 }).reg 1).toNat % 256 := by decide

/-- Queue 1 goes from a writer to a reader and holds values. -/
def queued (writer reader : Nat) (items : List Word) : State :=
  one { runner with qmap := true } { hwq := [(1, { en := true, writer := writer, reader := reader, items := items })] }

theorem witness_QueueConfiguration : calm.plain ∧ (∀ u ∈ calm.co.threads, u.2.qmap = false) ∧ (∀ q < 4, (calm.co.queue q).items = []) ∧
    (0xF10101010 : Word).extractLsb' 36 28 = 0 ∧
    (∀ q < 4, (0xF10101010 : Word).getLsbD (32 + q) = true →
      (0xF10101010 : Word).extractLsb' (8 * q) 4 ≠ (0xF10101010 : Word).extractLsb' (8 * q + 4) 4) ∧
    (0x1000000000 : Word).extractLsb' 36 28 ≠ 0 ∧ (∃ u ∈ (queued 0 1 []).co.threads, u.2.qmap = true) ∧
    ((one runner { hwq := [(1, { items := [7] })] }).co.queue 1).items ≠ [] := by decide

theorem witness_QueueRegisterWords : (queued 2 0 [7]).th.pend = [] ∧ (queued 2 0 [7]).th.regBad = [] ∧ (queued 2 0 [7]).th.pair = 0 ∧
    (queued 2 0 [7]).th.qmap = true ∧ (queued 2 0 [7]).th.inRecon = false ∧ (queued 2 0 [7]).th.phase = 0 ∧
    ((queued 2 0 [7]).co.queue 1).reader = (queued 2 0 [7]).cur.2 ∧ ((queued 2 0 [7]).co.queue 1).items = 7 :: [] ∧
    ((queued 0 2 (List.replicate 7 1)).co.queue 1).writer = (queued 0 2 []).cur.2 ∧
    ((queued 0 2 (List.replicate 7 1)).co.queue 1).items.length < 8 ∧ ((queued 2 0 []).co.queue 1).items = [] ∧
    ((queued 2 0 []).co.queue 1).en = true ∧ ((queued 2 0 []).co.queue 0).en = false ∧ ((queued 0 2 []).co.queue 1).reader ≠ 0 ∧
    ((queued 2 0 [7, 8]).co.queue 1).items = 7 :: 8 :: [] ∧ ((queued 2 0 [7]).co.queue 1).items.length < 2 ∧
    8 ≤ ((queued 0 2 (List.replicate 8 1)).co.queue 1).items.length ∧ ((queued 2 0 []).co.queue 1).writer ≠ 0 ∧
    (queued 2 0 [7]).co.inClaim 0x7FFF8 8 = false ∧ (queued 2 0 [7]).site = false ∧ anyBad (queued 0 2 []).co.lsBad 0x7FFF8 8 = false ∧
    (queued 0 2 []).th.reply = none := by decide

/-- A thread with an uncached page and a queue that it reads, or writes. -/
def queuedPage (writer reader : Nat) : State :=
  one { runner with qmap := true } { paged true with hwq := [(1, { en := true, writer := writer, reader := reader, items := [7] })] }

theorem witness_QueueRegisterWords_device : Claims.uncached (queuedPage 2 0) 0x1238 8 1 (seg 0x1238 8 true) ∧
    Claims.uncached (queuedPage 0 2) 0x1238 8 0 (seg 0x1238 8 true) ∧ (queuedPage 2 0).th.cntS < 1023 ∧ (queuedPage 0 2).th.cntL < 1023 :=
  ⟨⟨rfl, by decide, by decide, by decide, by decide⟩, ⟨rfl, by decide, by decide, by decide, by decide⟩, by decide, by decide⟩

/-! ### Tasks -/

/-- A live launch of the group of cluster 0, and a record of it. -/
def launch0 : Launch :=
  { lseq := 0, age := 0, hdr := 0, geo0 := 0, geo1 := 0, handed := [], numbered := 0, toStart := 1, live := 0, failed := 0, rot := 0
    suspended := false }
def rec0 : Record :=
  { pc := 0x2000, args := [1, 2, 3, 4], fref := { addr := 0x10000, core := 0, gen := 0 }, txn := false, lnch := 0, wid := 0, score := 0
    rmode := 0, txf := none }

/-- A launch is live. -/
def busy (t : Thread) (c : Core := {}) : State := { one t c with launches := [(0, launch0)] }

/-- s1 an entry, s2 the highest frame address, s3 an odd address. -/
def spawner : Thread := { runner with glob := [(1, 0x2000), (2, 0x7FFE0), (3, 0x2001), (4, 0x80000), (5, 0x7FFE1)] }

theorem frameOpen_top (c : Core) (h : c.ls = []) : Claims.frameOpen (busy spawner c) 0x7FFE0 := by
  have h : ((busy spawner c).core 0).ls = [] := by simp [busy, one, State.core, tblFind, h]
  refine ⟨by decide, by decide, ?_, ?_⟩ <;>
    simp [Claims.frameState, Claims.frameCount, State.lsNum, memNum, show (busy spawner c).cur = (0, 0) from rfl, h, memRead, memGet, leNat]

theorem witness_SpawnWord : (busy spawner).plain ∧ ((busy spawner).reg 2).toNat < 2 ^ 19 ∧
    Claims.frameOpen (busy spawner) ((busy spawner).reg 2).toNat ∧ Claims.entry ((busy spawner).reg 1) ∧
    (busy spawner).th.task.txn = false ∧ (busy spawner).co.deque.length < 64 ∧
    64 ≤ (busy spawner { deque := List.replicate 64 rec0 }).co.deque.length ∧
    Claims.frameOpen (busy spawner { deque := List.replicate 64 rec0 }) 0x7FFE0 ∧
    Claims.canOpen (busy spawner { deque := List.replicate 64 rec0 }) ∧
    2 ^ 19 ≤ ((busy spawner).reg 4).toNat ∧ ((busy spawner).reg 5).toNat % 32 ≠ 0 ∧ ¬ Claims.entry ((busy spawner).reg 3) ∧
    2 ≤ Claims.frameState (busy spawner { ls := [(0x7FFE6, 2)] }) 0x7FFE0 ∧
    Claims.frameCount (busy spawner { ls := (List.range 4).map (fun j => (0x7FFE0 + j, 255)) }) 0x7FFE0 = 2 ^ 32 - 1 := by
  refine ⟨by decide, by decide, frameOpen_top _ rfl, ⟨by decide, by decide⟩, by decide, by decide, by decide, frameOpen_top _ rfl,
    ⟨by decide, by decide, by decide, by decide⟩, by decide, by decide, fun h => absurd h.1 (by decide), by decide +kernel, by decide +kernel⟩

/-- A thread in the middle of a `spawn.at`. -/
def sending (phase : Nat) (reply : Option Nat) : State :=
  busy { runner with phase := phase, held := [0x2000, 0x7FFE0], reply := reply }

theorem atHome_calm (t : Thread) : Claims.atHome (busy t) := by
  refine ⟨?_, ?_, ?_⟩ <;> intro x hx <;> simp [busy, one, State.co, State.core, tblFind] at hx

theorem witness_SpawnAtWord : (busy spawner).plain ∧ ((busy spawner).reg 2).extractLsb' 19 13 = 0 ∧
    ((busy spawner).reg 2).extractLsb' 44 20 = 0 ∧ Claims.frameOpen (busy spawner) (((busy spawner).reg 2).extractLsb' 0 19).toNat ∧
    Claims.entry ((busy spawner).reg 1) ∧ (busy spawner).live.coreTakes (((busy spawner).reg 2).extractLsb' 32 12).toNat = true ∧
    Claims.atHome (busy spawner) ∧ Claims.midway (sending 4 none) 4 ∧ (sending 4 none).th.held = [0x2000, 0x7FFE0] ∧
    Claims.atHome (sending 4 none) ∧ (sending 4 none).th.cntS < 1023 ∧ (sending 4 none).live.siteOf 0 = some 0 ∧
    Claims.midway (sending 5 (some 1)) 5 ∧ (sending 5 (some 1)).th.reply = some 1 ∧ Claims.midway (sending 5 (some 0)) 5 ∧
    Claims.canOpen (sending 5 (some 0)) :=
  ⟨by decide, by decide, by decide, frameOpen_top _ rfl, ⟨by decide, by decide⟩, by decide +kernel, atHome_calm _,
    ⟨by decide, by decide, by decide, by decide, by decide, by decide⟩, by decide, atHome_calm _, by decide, by decide,
    ⟨by decide, by decide, by decide, by decide, by decide, by decide⟩, by decide, ⟨by decide, by decide, by decide, by decide, by decide, by decide⟩,
    ⟨by decide, by decide, by decide, by decide⟩⟩

/-- A frame that waits for a child. -/
def awaiting : State := busy spawner { ls := [(0x7FFE0, 1)] }

theorem witness_AwaitWord : (busy spawner).plain ∧ ((busy spawner).reg 2).toNat % 32 = 0 ∧ ((busy spawner).reg 2).toNat + 32 ≤ 0x80000 ∧
    (busy spawner).co.lsBad = [] ∧ Claims.frameState (busy spawner) 0x7FFE0 = 0 ∧ (busy spawner).th.monHeld = none ∧
    Claims.frameCount (busy spawner) 0x7FFE0 = 0 ∧ Claims.frameCount awaiting 0x7FFE0 ≠ 0 ∧ Claims.frameState awaiting 0x7FFE0 = 0 ∧
    awaiting.live.mayPark = true ∧ Claims.atHome awaiting ∧ awaiting.th.cntL = 0 ∧ awaiting.th.depth ≤ 31 ∧
    awaiting.th.wsr * 0x1000 + 0x1000 ≤ 0x7FFE0 := by
  refine ⟨by decide, by decide, by decide, by decide, by decide +kernel, by decide, by decide +kernel, by decide +kernel, by decide +kernel,
    by decide +kernel, ⟨?_, ?_, ?_⟩, by decide, by decide, by decide⟩ <;>
    intro x hx <;> simp [awaiting, busy, one, State.co, State.core, tblFind] at hx

/-- An inline child, which an entry above a call's window opened. -/
def inlined : State := busy { runner with depth := 1, inl := [{ kind := .child, ret := 0x3000, depth := 1, dst := 0, task := {} }] }

theorem witness_EndOfTask : calm.plain ∧ calm.th.inl = [] ∧ calm.th.monHeld = none ∧ Claims.idle calm ∧ Claims.atHome (busy runner) ∧
    (one { runner with cntC := 1 }).th.cntr ≠ 0 ∧ (monitored (some 0) []).th.monHeld.isSome = true ∧ inlined.plain ∧ inlined.th.inl ≠ [] ∧
    Claims.idle inlined ∧ inlined.co.lsBad = [] ∧ inlined.th.resLo < 1 ∧ 1 ≤ inlined.th.depth :=
  ⟨by decide, by decide, by decide, ⟨by decide, by decide, by decide, by decide⟩, atHome_calm _, by decide, by decide, by decide, by decide,
    ⟨by decide, by decide, by decide, by decide⟩, by decide, by decide, by decide⟩

theorem witness_YieldWord : inlined.th.inl ≠ [] ∧ calm.live.workWaits calm.cur.1 = false ∧
    (busy runner { deque := [rec0] }).live.workWaits 0 = true ∧ (busy runner { deque := [rec0] }).live.mayPark = true ∧
    (busy runner { deque := [rec0] }).th.cntL = 0 ∧ (busy runner { deque := [rec0] }).th.depth ≤ 31 ∧
    (busy runner { deque := [rec0] }).live.mayPark = true := by decide +kernel

/-- A numbered transaction of core 0 with one tile that it reads. -/
def sub0 : SubRec :=
  { pc := 0x2000, args := [1, 2, 3, 4], frame := none, clus := 0, hexp := true, chk := true, restart := 0, check := 0, wid := 0
    set := [0x0100000000000000, 0, 0, 0, 0, 0, 0, 0], lnch := 0, src := none, item := none }
def txn0 (st : TxStage) : Txn := { seq := 5, sub := sub0, cluster := 0, stage := st, unreleased := [0] }

/-- A dispatched root. -/
def rooted (checked : Bool) : State :=
  { busy { runner with task := { txn := true, body := some 5, checked := checked } } with scarab := { txns := [txn0 .running] } }

theorem witness_TransactionWords :
    (0 : Word).extractLsb' 29 35 = 0 ∧ (one { runner with ext := [(0, 0x0100000000000000)] }).th.setRefused = false ∧
    Claims.entry 0x2000 ∧ Claims.atHome (busy runner) ∧ (0x20000000 : Word).extractLsb' 29 35 ≠ 0 ∧ calm.th.setRefused = true ∧
    Claims.canOpen calm ∧ ¬ Claims.entry 0x2001 ∧ (rooted true).plain ∧ (rooted true).th.inl = [] ∧ (rooted true).th.task.txn = true ∧
    (rooted true).th.task.spawned = false ∧ (rooted true).th.task.body = some 5 ∧ (rooted true).th.task.checked = true ∧
    (rooted false).th.task.checked = false ∧ (rooted false).th.accQ = [] ∧ (rooted false).txn 5 = some (txn0 .running) ∧
    (rooted false).th.acc = sub0.check ∧ calm.th.task.body = none :=
  ⟨by decide, by decide +kernel, ⟨by decide, by decide⟩, atHome_calm _, by decide, by decide +kernel, ⟨by decide, by decide, by decide, by decide⟩,
    fun h => absurd h.1 (by decide), by decide, by decide, by decide, by decide, by decide, by decide, by decide, by decide, by decide,
    by decide, by decide⟩
/-! ### Storage and the launch port -/

/-- A storage context on pair 0 for namespace 1, which is open for launch 0. -/
def stored (mb : List Entry) (hi : Bool) : State :=
  { one { runner with stctx := 0x80, stctl := some (0, 0), glob := [(1, 0x80), (2, 0x8000000000), (3, 5), (4, 0x10000)], ext := [(0, 0), (1, 2)],
                      mbHi := if hi then mb else [], mbLo := if hi then [] else mb } (paged false)
    with storage := { qps := [(0, 0x201)] } }

/-- The completion of command 5 of pair 0. -/
def complete5 : Entry := { mail 3 with payload := [5, 0, 0, 0] }

theorem witness_StorageContextAndPoll : (stored [] true).plain ∧ ((stored [] true).reg 1).extractLsb' 39 25 = 0 ∧
    (stored [] true).storage.opens 0 0 1 = true ∧ ((stored [] true).reg 2).extractLsb' 39 25 ≠ 0 ∧
    (stored [] true).storage.opens 0 0 0 = false ∧ ((stored [] true).reg 3).toNat < 2 ^ 16 ∧ 2 ^ 16 ≤ ((stored [] true).reg 4).toNat ∧
    Claims.firstMail (Claims.completes 0 5) (stored [complete5] true).th.mbHi = some (complete5, []) ∧
    Claims.firstMail (Claims.completes 0 5) (stored [mail 1, complete5] false).th.mbHi = none ∧
    Claims.firstMail (Claims.completes 0 5) (stored [mail 1, complete5] false).th.mbLo = some (complete5, [mail 1]) ∧
    Claims.firstMail (Claims.completes 0 5) (stored [mail 1] true).th.mbHi = none := by decide

theorem witness_StorageSubmission : (stored [] true).plain ∧ nvBad 3 0 = true ∧ calm.context = none ∧ nvBad 0 0 = false ∧ nvBad 2 0x1000 = false ∧
    (stored [] true).context = some 0 ∧ Claims.nvBytes (stored [] true) 0 0 ≤ 2 ^ 21 ∧
    (stored [] true).live.nvPages 0 [] = .ok ([], (stored [] true).live) ∧
    (stored [] true).live.nvPages 1 [0x1000] = .ok ([0x1000], (stored [] true).live) ∧ (stored [] true).th.cntS = 0 ∧
    Claims.room (stored [] true) 4 ∧ (stored [] true).storage.freeTag 0 = some 0 := by
  refine ⟨by decide, by decide, by decide +kernel, by decide, by decide, by decide +kernel, by decide +kernel, rfl, rfl, by decide, ?_, by decide +kernel⟩
  unfold Claims.room; decide

/-- The most blocks that NLB names, of either size, are more than 2 MiB; one block is not. -/
theorem witness_StorageSubmission_blocks : 2 ^ 21 < Claims.nvBlocks (stored [] true) 0 0xFFFF00000000 ∧ Claims.nvBlocks (stored [] true) 0 0 ≤ 2 ^ 21 := by
  have h (x : Word) : Claims.nvBlocks (stored [] true) 0 x = ((x.extractLsb' 32 16).toNat + 1) * blockBytes 0 1 := rfl
  rw [h, h, blockBytes]; cases Config.bigBlocks 0 1 <;> decide

theorem witness_StorageSubmission_data : Claims.nvBytes (stored [] true) 0 2 ≤ 2 ^ 21 ∧ (Claims.nvBytes (stored [] true) 0 2 + 4095) / 4096 = 1 := by
  have h : Claims.nvBytes (stored [] true) 0 2 = 1 * blockBytes 0 1 := rfl
  rw [h, blockBytes]; cases Config.bigBlocks 0 1 <;> decide

/-- A header of one item for cluster 0, waiting or accepted; one with a shape bit, and one without an item. -/
def header (hdr : BitVec 512) (ok : Bool) : Header := { lseq := 3, hdr := hdr, shape := none, accepted := ok }
def oneItem : BitVec 512 := 1 <<< 480
def shaped : BitVec 512 := 1 <<< 427
def late : Header := { header 0 false with lseq := 4 }

/-- A package in COLD_RUN, or in COLD_READY, with headers at its port. -/
def port (hs : List Header) (m : Molt := .coldRun) : State := { calm with port := { headers := hs, lrset := true }, cold := { molt := m } }

theorem witness_LaunchHeaders : calm.hostMay 0x10000 64 1 = true ∧ calm.hostMay 0x10040 32 1 = true ∧
    (port [header shaped false]).port.headers = [] ++ header shaped false :: [] ∧ shaped.getLsbD 427 = true ∧
    (∀ x ∈ (port [header oneItem false]).port.headers, ¬ (x.hdr.getLsbD 427 = true ∧ x.shape = none)) ∧
    Claims.up (port []) ∧ (port []).port.lrset = true ∧ Claims.nextHeader (port [header oneItem true, late]) [header oneItem true] late [] ∧
    Claims.firstReason (Claims.headerReasons (port []) (header 0 false)) = some 4 ∧
    Claims.firstReason (Claims.headerReasons (port []) (header oneItem false)) = none ∧
    Claims.firstReason (Claims.headerReasons (port [] .coldReady) (header oneItem false)) = none ∧ calm.port.lrset = false := by
  refine ⟨by decide, by decide, by decide +kernel, by decide +kernel, by decide +kernel, ⟨by decide, by decide⟩, by decide, ?_,
    by decide +kernel, by decide +kernel, by decide +kernel, by decide⟩
  exact ⟨rfl, by decide, by decide, by decide⟩

theorem witness_LaunchStarts : Claims.up (port [header oneItem true]) ∧
    (port [header oneItem true]).port.headers = [] ++ header oneItem true :: [] ∧
    ((port [header oneItem true]).port.headers.map (·.lseq)).Nodup ∧ Claims.lowestFree (port []) 0 ∧
    Claims.lowestFree { port [] with launches := [(0, launch0)] } 1 := by
  refine ⟨⟨by decide, by decide⟩, rfl, by decide, ⟨by decide, by decide, by decide⟩, ⟨by decide, by decide, by decide⟩⟩

/-- A report waits, with 0 or 256 records unread. -/
def reporting (tail : Nat) : State :=
  { calm with port := { reports := [{ kind := 1, lnch := 0, lseq := 0, code := 0, value := 0 }], lrset := true, lrbase := 0x10000, lrtail := tail } }

theorem witness_ReportRing : Claims.up (reporting 255) ∧ (reporting 255).port.reports ≠ [] ∧ (reporting 255).port.lrset = true ∧
    (reporting 255).port.lrhead < 512 ∧ (reporting 255).port.lrtail < 512 ∧
    ((reporting 255).port.lrtail + 512 - (reporting 255).port.lrhead) % 512 < 256 ∧ (reporting 255).port.lrbase % 0x1000 = 0 ∧
    (reporting 255).devMay 1 (0x10000 + 16 * 255) 16 1 = true ∧ 256 ≤ ((reporting 256).port.lrtail + 512 - (reporting 256).port.lrhead) % 512 ∧
    (∀ o ∈ [0x10090, 0x10088, 0x10200, 0x10208], calm.hostMay o 8 1 = true) :=
  ⟨⟨by decide, by decide⟩, by decide, by decide, by decide, by decide, by decide, by decide, by decide, by decide, by decide⟩

theorem witness_FirmwareRequests : calm.hostMay 0x10100 64 1 = true ∧ 8 + clusterOf (bootSite calm.fused) < calm.powered ∧ calm.port.fwreqs.length < 8 ∧ calm.booted = true ∧
    (State.resetOf []).booted = false ∧ (State.resetOf []).site = true ∧
    ¬ Claims.aligned64K 1 0 ∧ Claims.aligned64K 0x10000 0 ∧ Claims.aligned64K 0x10000 0x10000 ∧
    inDram 0x1000 32 = true ∧ inDram 0x2000 192 = true ∧ calm.devMay 1 0x1000 32 0 = true ∧ calm.devMay 1 0x2000 192 1 = true ∧
    inDram 0x8000000000 32 = false ∧ inDram 0x8000000000 64 = false ∧ calm.devMay 1 0x1000 64 0 = true ∧ calm.devMay 1 0x1000 16 1 = true ∧
    calm.storage.consent = false ∧ mediaOpcode 0x80 = true ∧ mediaOpcode 0 = false ∧ (0xFFFFFFFF : Word) ≠ 0 ∧ calm.siteOf 0 = some 0 ∧
    calm.siteOf 1 = none ∧ 6 < (7 : Byte).toNat := by
  refine ⟨by decide, by decide +kernel, by decide, by decide, by decide, by decide, fun h => absurd h.2.1 (by decide), ⟨by decide, by decide, by decide⟩,
    ⟨by decide, by decide, by decide⟩, by decide, by decide, by decide, by decide, by decide, by decide, by decide, by decide, by decide, by decide,
    by decide, by decide, by decide, by decide, by decide⟩

theorem witness_FirmwareRequests_powered : 8 + clusterOf (bootSite (State.resetOf []).fused) < ({ State.resetOf [] with powered := 136 }).powered ∧
    ({ State.resetOf [] with powered := 136 }).hostMay 0x10100 64 1 = true ∧
    (State.resetOf []).powered ≤ 8 + clusterOf (bootSite (State.resetOf []).fused) := by decide +kernel

/-- An image whose magic is wrong. -/
theorem witness_FirmwareRequests_refused :
    Claims.firstReason (Claims.imageReasons { (State.resetOf []) with keyHash := [], revoked := [], minVersion := 0 }) = some 16 := by decide +kernel

/-- Firmware requests wait, one of them for an access. -/
def asking (n : Nat) : State :=
  { calm with port := { fwreqs := List.replicate n { op := 1, tag := 0, status := 0, value := 7 } ++ [{ op := 4, tag := 1, status := 0, value := 0 }] }
              storage := { cmds := [{ qp := 0, tag := 0, site := 0, slot := 0, gen := 1, hi := false, opc := 0, nsid := 1, slba := 0, nlb := 0, va := 0,
                                      size := 0, pages := [], pc := 0, sent := true, done := none, lnch := 0, wid := 0, late := false, id := 3 }] } }

theorem witness_FirmwareAnswers : 8 ≤ (asking 7).port.fwreqs.length ∧ Claims.up (asking 1) ∧
    (asking 1).port.fwreqs = [{ op := 1, tag := 0, status := 0, value := 7 }] ++ { op := 4, tag := 1, status := 0, value := 0 } :: [] ∧
    (∀ x ∈ [({ op := 1, tag := 0, status := 0, value := 7 } : FwReq)], x.value ≠ 0 ∧ ((∃ f ∈ (asking 1).flights, f.grp < x.value.toNat) ∨
      ∃ c ∈ (asking 1).storage.cmds, c.id < x.value.toNat ∧ c.done = none)) :=
  ⟨by decide, ⟨by decide, by decide⟩, by decide, by decide⟩

/-! ### An image that passes every check -/

/-- DRAM with an image of one byte whose key and signature are the neutral point. -/
def image : Memory := [(0, 0x31), (1, 0x4C), (2, 0x5A), (3, 0x4F), (8, 1), (16, 1), (80, 1)]

/-- A package at reset with it, and with the key's hash in its fuses. -/
def imaged : State :=
  { dram := image, devsn := 0, keyHash := [(0, sha512 (memRead 80 32 image))], revoked := [], minVersion := 0 }

theorem edAdd_neutral : edAdd (0, 1) (0, 1) = (0, 1) := by decide +kernel

theorem edMul_neutral (n k : Nat) : edMul k (0, 1) n = (0, 1) := by
  induction n generalizing k with
  | zero => rfl
  | succ n h => simp only [edMul, edAdd_neutral, h]; split <;> rfl

theorem edMul_zero (n : Nat) (a : EdPoint) : edMul 0 a n = (0, 1) := by
  induction n generalizing a with
  | zero => rfl
  | succ n h => simpa [edMul] using h _

theorem image_verifies (m : List Byte) : edVerify (memRead 80 32 image) (memRead 16 64 image) m = true := by
  have hp : edDecode (memRead 80 32 image) = some (0, 1) := by decide +kernel
  have hr : edDecode ((memRead 16 64 image).take 32) = some (0, 1) := by decide +kernel
  have hs : leNat ((memRead 16 64 image).drop 32) = 0 := by decide +kernel
  have hl : (memRead 16 64 image).length = 64 := by decide +kernel
  simp only [edVerify, hp, hr, hs, hl, Nat.mul_zero, edMul_zero, edMul_neutral, edAdd_neutral]
  decide

theorem witness_FirmwareRequests_accepted : imaged.booted = false ∧ imaged.site = true ∧
    Claims.firstReason (Claims.imageReasons imaged) = none := by
  refine ⟨by decide, by decide, ?_⟩
  have h0 : leNat (memRead 0 4 image) = 0x4F5A4C31 := by decide
  have h4 : leNat (memRead 4 4 image) = 0 := by decide
  have h8 : leNat (memRead 8 4 image) = 1 := by decide
  have hk : leNat (memRead 12 1 image) = 0 := by decide
  have hz : leNat (memRead 13 3 image) = 0 := by decide
  have hr : leNat (memRead 112 16 image) = 0 := by decide
  simp [Claims.firstReason, Claims.imageReasons, imaged, h0, h4, h8, hk, hz, hr, tblGet, tblFind, image_verifies]
/-! ### Control registers, pre-emption and the Molt -/

/-- The rectangle of cluster 0 is being pre-empted, saved, or resumed. -/
def grouped (pres saves ress : List (Nat × Nat)) (c : Core) : State :=
  { one runner { c with pre := true } with port := { pres := pres, saves := saves, ress := ress } }

theorem anyBad_nil (a n : Nat) : anyBad [] a n = false := by simp [anyBad]

theorem witness_PreemptionAndResumption : calm.hostMay 0x10188 8 1 = true ∧ ((0x4000 : Word).toNat / 2 ^ 14) % 4 = 1 ∧
    ((0x8000 : Word).toNat / 2 ^ 14) % 4 = 2 ∧ Claims.cores (grouped [(0, 0)] [] [] {}) 0 = [0] ∧ Claims.up (grouped [(0, 0)] [] [] {}) ∧
    (∀ n ∈ Claims.cores (grouped [(0, 0)] [] [] {}) 0, (grouped [(0, 0)] [] [] {}).quiet n = true) ∧
    (∀ n ∈ Claims.cores (grouped [(0, 0)] [] [] {}) 0, (grouped [(0, 0)] [] [] {}).saveTakes 0 n = true) ∧
    (∀ n ∈ Claims.cores (grouped [(0, 0)] [] [] {}) 0, ((grouped [(0, 0)] [] [] {}).core n).lost = false) ∧
    (∃ n ∈ Claims.cores (grouped [(0, 0)] [] [] {}) 0, (grouped [(0, 0)] [] [] { ops := [{ op0 with stage := .begun }] }).quiet n = false) ∧
    ((0, 0) ∈ (grouped [] [(0, 0)] [] {}).port.saves ∧ (0, 0) ∉ (grouped [] [(0, 0)] [] {}).port.ress ∧
      (grouped [] [(0, 0)] [] {}).suspendedIn 0 = false ∧ (0, 0) ∉ (grouped [] [] [] {}).port.saves) ∧
    (∀ n ∈ Claims.cores (grouped [] [(0, 0)] [(0, 0)] {}) 0, (grouped [] [(0, 0)] [(0, 0)] {}).saveReads 0 n = true) := by
  refine ⟨by decide, by decide, by decide, by decide +kernel, ⟨by decide, by decide⟩, by decide +kernel, by decide +kernel, by decide +kernel, by decide +kernel,
    by decide +kernel, ?_⟩
  have h : Claims.cores (grouped [] [(0, 0)] [(0, 0)] {}) 0 = [0] := by decide +kernel
  have h2 : (inDram 0 0x240000 && calm.tableAllows 0 1 0 0x240000 0) = true := by decide +kernel
  intro n hn
  rw [h, List.mem_singleton] at hn
  subst hn
  have h3 : (grouped [] [(0, 0)] [(0, 0)] {}).dramBad.filter (fun g => !((grouped [] [(0, 0)] [(0, 0)] {}).saveMarks 0 0).contains g) = [] := rfl
  rw [State.saveReads, h3, anyBad_nil]
  exact (Bool.and_true _).trans h2

/-- A halted thread, with or without a failure that waits for its resumption. -/
def haltedOne (f : Option FailInfo) : State := one { runner with run := .halted, fail := f }
def info0 : FailInfo := { cause := 3, pc := 0, val1 := 0, val2 := 0, pre := false, queued := false }

theorem witness_ControlRegisters : calm.hl = false ∧ ({ calm with hl := true }).hl = true ∧ (2 : BitVec 4) ≠ 4 ∧ (6 : BitVec 3).toNat < 7 ∧
    (∀ o ∈ [0x30000, 0x36000 + 63 * 32 + 24, 0x3F000, 0x40008, 0x60000, 0x60100 + 8 * 15, 0x1018, 0x10180, 0x20000, 0x20010, 0x40000, 0,
      0x20000000], Claims.reaches calm 4 o) ∧ Claims.reaches { calm with hl := true } 2 0x3F000 ∧
    Claims.reaches calm 4 0x20008 ∧ calm.scarab.load = false ∧ Claims.reaches calm 7 0x50200 ∧
    (haltedOne none).siteOf 0 = some 0 ∧ ((haltedOne none).thread 0 0).run = .halted ∧ ((haltedOne none).thread 0 0).fail = none ∧
    ((haltedOne (some info0)).thread 0 0).fail = some info0 ∧ (calm.thread 0 0).run ≠ .halted ∧ calm.siteOf 1 = none ∧
    Claims.reaches calm 4 (0x10000000 + 255 * 0x1000) := by unfold Claims.reaches; decide

/-- The Molt in a state, its ramp limit met or not, a stack that cannot train or not. -/
def molten (m : Molt) (ramping : Bool := false) (dead : Bool := false) (c : Cold := {}) : State :=
  { calm with cold := { c with molt := m, ramping := ramping, trainFails := if dead then [(0, 3)] else [] } }

theorem witness_MoltCommands : Claims.reaches (molten .warmService true) 4 0x1010 ∧ (molten .warmService true).cold.ramping = true ∧
    Claims.reaches (molten .soak) 4 0x1010 ∧ (molten .soak).cold.ramping = false ∧ Claims.trainingFailed (molten .soak) = false ∧
    (molten .coldRun).cold.molt = .coldRun ∧ (molten .soak false true).cold.molt = .soak ∧ Claims.trainingFailed (molten .soak false true) = true := by
  unfold Claims.reaches; decide

/-! ### Work for slots -/

/-- A core with nothing in its slots, and its package with a launch of one item, and a channel. -/
def idle (c : Core) (chan : List Packet := []) : State :=
  { calm with cores := [(0, { c with numbered := true }), (1, { numbered := true, lcore := 1 })], chan := chan, launches := [(0, { launch0 with hdr := oneItem })], encnt := 2 }

theorem witness_Dispensing : ((idle {}).bestItem 0).isSome = true ∧ (idle {}).alive = true ∧ ((idle {}).bestItem 0).bind (·.item) = some (0, 0) ∧
    ((idle {}).launch 0).isSome = true := by decide +kernel

/-- A continuation in region 3. -/
def cont0 (f : Option Nat) : Cont := { region := 3, frame := f, thread := {} }

theorem witness_FreeSlots : (idle {}).takesWork 0 = true ∧ (idle { runList := [cont0 none] }).takesWork 0 = true ∧
    (idle { runList := [cont0 none] }).canResume 0 15 (cont0 none) = true ∧ (cont0 none).thread.pair = 0 ∧
    (idle { runList := [cont0 none] }).contBad 0 (cont0 none) = none ∧ (idle { runList := [cont0 (some 0x10000)] }).contBad 0 (cont0 (some 0x10000)) = none ∧
    (idle { deque := [rec0] }).takesWork 0 = true ∧ rec0.args.length ≤ 4 ∧
    (idle { deque := [rec0] }).slotTakes 0 15 .free ((idle { deque := [rec0] }).pairedLaunch 0) = true := by decide +kernel

/-- Core 0 asks core 1, which holds a record. -/
def stealing (chan : List Packet) (deque : List Record) : State :=
  { idle {} chan with launches := [(0, { launch0 with toStart := 0 })]
                      cores := [(0, { numbered := true }), (1, { numbered := true, lcore := 1, deque := deque })] }

theorem witness_Steals : (stealing [] []).takesWork 0 = true ∧ ((stealing [] []).core 0).stealing = false ∧ (stealing [] []).dispenserHas 0 = false ∧
    ((stealing [] []).slotFor 0 .free false).isSome = true ∧ (neighbour 0 ((((stealing [] []).core 0).stealDir + 1 + 1) % 4)).filter (stealing [] []).enabled = some 1 ∧
    (∀ i < 1, (neighbour 0 ((((stealing [] []).core 0).stealDir + 1 + i) % 4)).filter (stealing [] []).enabled = none) ∧
    (stealing [.steal 0 1] [rec0]).chan[0]? = some (.steal 0 1) ∧ ((stealing [.steal 0 1] [rec0]).core 1).pre = false ∧
    ((stealing [.steal 0 1] [rec0]).core 1).deque = [] ++ rec0 :: [] ∧ (stealing [.steal 0 1] [rec0]).inGroup 0 0 = true ∧
    (∀ x ∈ ((stealing [.steal 0 1] []).core 1).deque, (stealing [.steal 0 1] []).inGroup x.lnch 0 = false) ∧
    (stealing [.stolen 0 1 none] []).chan[0]? = some (.stolen 0 1 none) ∧
    (stealing [.stolen 0 1 (some rec0)] []).chan[0]? = some (.stolen 0 1 (some rec0)) ∧ (stealing [.stolen 0 1 (some rec0)] []).coreHome 1 = true ∧
    (stealing [.stolen 0 1 (some rec0)] []).slotFor 0 .free false = some 0 := by
  refine ⟨?_, ?_, ?_, ?_, ?_, ?_, ?_, ?_, ?_, ?_, ?_, ?_, ?_, ?_, ?_⟩ <;> decide +kernel

/-- A decrement of the frame at 0x10000 of core 0, sent by its slot 0. -/
def src0 : Source := { own := true, core := 0, slot := 0, gen := 1, cyc := 0, site := some 0 }
def joining (c : Core) : State :=
  { one runner c with chan := [.decrement { addr := 0x10000, core := 0, gen := 0 } 0 (some { base := 0x10000, core := 0 }) src0 false] }

theorem witness_JoinDecrements : (joining {}).alive = true ∧ (joining {}).siteOf 0 = some 0 ∧ ((joining { pre := true }).core 0).pre = true ∧
    ((joining { pre := true }).thread 0 0).busyTask = true ∧ ((joining { pre := true }).thread 0 0).gen.toNat = src0.gen ∧
    ((joining { pre := true }).thread 0 0).cntS < 1023 ∧ ((joining {}).core 0).pre = false ∧ anyBad ((joining {}).core 0).lsBad 0x10000 32 = false ∧
    (joining { ls := [(0x10000, 2)] }).lsNum 0 0x10004 2 = 0 ∧ (joining { ls := [(0x10000, 2)] }).lsNum 0 0x10000 4 = 2 ∧
    (joining { ls := [(0x10000, 1), (0x10006, 1)] }).lsNum 0 0x10000 4 = 1 ∧ (joining { ls := [(0x10000, 1), (0x10006, 1)] }).lsNum 0 0x10006 1 = 1 ∧
    (joining { ls := [(0x10004, 1)] }).lsNum 0 0x10004 2 ≠ 0 ∧ (joining {}).lsNum 0 0x10000 4 = 0 := by decide +kernel

/-- A `spawn.at` record for core 1, or its answer. -/
def sent (p : Packet) (ls : Memory) : State :=
  { idle {} [p] with cores := [(0, { numbered := true, threads := [(0, runner)], ls := ls }), (1, { numbered := true, lcore := 1 })] }
def full : State :=
  { sent (.spawnAt 0 0 1 rec0) [] with
    cores := [(0, { numbered := true }), (1, { numbered := true, lcore := 1, threads := (List.range 16).map (fun i => (i, runner)) })] }

theorem witness_SpawnsElsewhere : (sent (.spawnAt 0 0 1 rec0) []).alive = true ∧ (sent (.spawnAt 0 0 1 rec0) []).takesWork 1 = true ∧
    (sent (.spawnAt 0 0 1 rec0) []).slotFor 1 .free false = some 0 ∧ full.slotFor 1 .free false = none ∧ full.takesWork 1 = true ∧
    ((sent (.spawnAtReply 0 0 true rec0) []).core 0).pre = false ∧ rec0.txn = false ∧
    2 ≤ (sent (.spawnAtReply 0 0 false rec0) [(0x10000, 2)]).lsNum 0 rec0.fref.addr 4 ∧
    (one { runner with phase := 18, run := .stalled, held := [0x10000, 1] }).th.phase = 18 ∧
    1 ≤ (one { runner with phase := 18, run := .stalled, held := [0x10000, 1] }).freeRegions 0 := by decide +kernel

theorem witness_MessagesArrive : (sent (.message (0, 0, 1) (0, 0, 1) true [] 0 false) []).alive = true ∧
    Claims.holds (sent (.message (0, 0, 1) (0, 0, 1) true [] 0 false) []) 0 0 1 ∧ Claims.mailRoom runner true ∧ Claims.mailRoom runner false ∧
    ¬ Claims.mailRoom { runner with mbHi := List.replicate 4 (mail 1) } true ∧ ¬ Claims.mailRoom { runner with mbLo := List.replicate 12 (mail 1) } false ∧
    runner.refusesBounce 1 = false ∧ runner.refusesBounce 2 = true ∧ (calm.cluster 0).errQ = [] ∧ (calm.cluster 0).errTail < (calm.cluster 0).errHead + 64 ∧
    calm.devMay 1 (calm.errQueue 0) 64 1 = true ∧ (∀ src n slot, Claims.mailAllowed calm src n slot) ∧ calm.siteOf 9 = none :=
  ⟨by decide, ⟨by decide, by decide, fun m => by simp [sent, idle, State.thread, State.core, tblGet, tblFind, Core.thread, runner]⟩, by unfold Claims.mailRoom; decide,
    by unfold Claims.mailRoom; decide, by unfold Claims.mailRoom; decide, by unfold Claims.mailRoom; decide, by decide, by decide, by decide,
    by decide, by decide, fun _ _ _ => rfl, by decide⟩

/-- Cluster 0 has an evicted context of core 0, and a barrier unit. -/
def evicted0 : Evicted := { site := 0, thread := { runner with wsr := 9 } }
def reloading : State := { idle {} with clusters := [(0, { runq := [evicted0] })] }

theorem witness_EvictedContexts : reloading.alive = true ∧ (reloading.cluster 0).runq = evicted0 :: [] ∧ (reloading.cluster 0).mons.length < 64 ∧
    reloading.takesWork 0 = true ∧ evicted0.thread.pair = 0 ∧ (reloading.thread 0 0).run = .free := by decide +kernel

/-- A thread whose register waits for a barrier's generation. -/
def load0 (e : LoadExt) : Load :=
  { id := 7, dst := .s 1, ext := e, got := [], waiting := 1, elems := [], acq := false, refused := false, dead := false, counted := true
    isLoad := true, toQueue := false }
def arriving : State := { one { runner with cntL := 1, loads := [load0 (.unsigned 8)] } with chan := [.arrive 0 0 0 0 7] }

theorem witness_BarrierArrivals : arriving.alive = true ∧ arriving.chan[0]? = some (.arrive 0 0 0 0 7) ∧
    (arriving.thread 0 0).loads = [load0 (.unsigned 8)] ∧ (arriving.thread 0 0).accQ = [] ∧ (arriving.thread 0 0).pair = 0 := by decide
/-! ### Accesses, walks and engines -/

/-- An access of slot 0 of core 0, and the package with it on its way. -/
def flight (k : FlightKind) (st : FlightStage) (pa n : Nat) (bs : List (Option Byte)) : Flight :=
  { kind := k, stage := st, site := 0, slot := 0, gen := 1, grp := 7, place := 0, va := 0, pa := pa, size := n, data := bs, bad := 0, inS := false
    epoch := 0, priv := false, nc := true, pc := 0x1000, word := 0, acq := false }
def flying (f : Flight) (t : Thread := runner) (c : Core := {}) : State := { one t c with flights := [f] }
def bytes8 : List (Option Byte) := List.replicate 8 (some 1)

/-- The window of core 0 in the address map. -/
def windowPa : Nat := 0x8000001000

theorem witness_AccessesArrive :
    (∀ k ∈ [FlightKind.store, .load, .writeback, .fill, .atomic { fn := 1, width := 8, b := 1, cmp := 0 }],
      (flying (flight k .request 0x1000 8 bytes8)).arrives 0 (flight k .request 0x1000 8 bytes8) = true ∧
      (flying (flight k .request 0x1000 8 bytes8)).leaves (flight k .request 0x1000 8 bytes8) = false ∧
      ((flying (flight k .request 0x1000 8 bytes8)).admitted (flight k .request 0x1000 8 bytes8)).toOption = some .dram ∧
      (flight k .request 0x1000 8 bytes8).toHome = true) ∧
    (∀ k ∈ [FlightKind.store, .load],
      ((flying (flight k .request windowPa 8 bytes8)).admitted (flight k .request windowPa 8 bytes8)).toOption = some (.window 0) ∧
      (flight k .request windowPa 8 bytes8).toHome = false) ∧
    bytes8.all (fun b => b.isSome) = true ∧ windowPa % 0x80000 + bytes8.length ≤ 0x80000 ∧ (flying (flight .store .request windowPa 8 bytes8)).site = false := by
  decide +kernel

/-- A thread whose s1 waits for a load of 8 bytes. -/
def expecting : Thread := { runner with cntL := 1, cntS := 1, loads := [load0 (.unsigned 64)], pend := [(.s 1, 7)] }

theorem witness_AnswersArrive : (flying (flight .load (.reply none) 0x1000 8 bytes8) expecting).alive = true ∧
    Claims.alive (flying (flight .load (.reply none) 0x1000 8 bytes8) expecting) (flight .load (.reply none) 0x1000 8 bytes8) ∧
    Claims.expects ((flying (flight .load (.reply none) 0x1000 8 bytes8) expecting).thread 0 0) (load0 (.unsigned 64)) 1 7 (.unsigned 64) [] ∧
    (List.replicate 72 (some (1 : Byte))).length = 64 + 8 ∧ (flight .fill (.reply none) 0x1000 64 []).newer = [] ∧
    ((flying (flight .fill (.reply none) 0x1000 64 []) expecting).core 0).line 0x1000 = none ∧
    (((flying (flight .fill (.reply none) 0x1000 64 []) expecting).core 0).l1.filter (fun x => decide (x.base / 64 % 128 = 0x1000 / 64 % 128))).length < 8 ∧
    ({ whole 0x1000 with dirty := 1 } :: []).find? (fun l : Line => decide (l.base = 0x1000)) = some { whole 0x1000 with dirty := 1 } ∧
    Claims.lastOne (flying { flight .store (.reply none) 0x1000 8 bytes8 with inS := true } expecting) 0
      { flight .store (.reply none) 0x1000 8 bytes8 with inS := true } := by
  refine ⟨by decide, ⟨by decide, by decide, fun k => ?_⟩, ?_, by decide, by decide, by decide, by decide, by decide +kernel, ?_⟩
  · simp [flying, one, State.thread, State.core, Core.thread, tblGet, tblFind, expecting, runner, flight]
  · refine ⟨?_, ?_, ?_, ?_, ?_, ?_, ?_, ?_, ?_, ?_, ?_, ?_, ?_, ?_, ?_, ?_⟩ <;> decide
  · intro j g h hj
    cases j with
    | zero => exact absurd rfl hj
    | succ j => simp [flying] at h

/-- A store that was refused, with error queues in DRAM. -/
theorem witness_RefusalsReturn :
    (flying (flight .store (.refusal 4) 0x1000 8 bytes8)).alive = true ∧ (flying (flight .store (.refusal 4) 0x1000 8 bytes8)).th.due = [] ∧
    (flying (flight .store (.refusal 4) 0x1000 8 bytes8)).th.hb = none ∧ (flying (flight .store (.refusal 4) 0x1000 8 bytes8)).th.pair = 0 ∧
    (flying (flight .store (.refusal 4) 0x1000 8 bytes8)).devMay 1 ((flying (flight .store (.refusal 4) 0x1000 8 bytes8)).handbackAt 0 0) 64 1 = true ∧
    (∀ l, FlightKind.store ≠ .prefetch l) := by
  refine ⟨by decide, by decide, by decide, by decide, by decide +kernel, fun l h => by cases h⟩

/-- Cluster 0 with a walk, on its way or lost; its table is empty. -/
def walking (lost : Bool) : State := { calm with clusters := [(0, { walks := [{ page := 1, who := [(0, 0)], lost := lost }] })] }

theorem witness_Walks : (walking false).clocked (2048 + 0) = true ∧ ((walking false).cluster 0).walks[0]? = some { page := 1, who := [(0, 0)] } ∧
    (walking true).alive = true ∧ ((walking true).cluster 0).walks ≠ [] ∧
    (((walking false).walkFrom (pageVa 1) 3 0).1 matches .fault _) = true := by decide +kernel

/-- A stalled thread with a delayed load, one that needs its oldest window spilled, and one that needs its caller's filled. -/
def delayed : State := one { runner with loads := [{ load0 (.signed 64) with ready := 3, counted := false }], pend := [(.s 1, 7)] } { cyc := 3 }
def spilling : State := one { runner with run := .stalled, depth := 4, qblock := none }

theorem witness_BankService : delayed.clocked 0 = true ∧ (delayed.core 0).pre = false ∧
    (delayed.thread 0 0).loads = [{ load0 (.signed 64) with ready := 3, counted := false }] ∧ 3 ≤ (delayed.core 0).cyc ∧
    (spilling.thread 0 0).run = .stalled ∧ (∀ l ∈ (spilling.thread 0 0).loads, l.ready = 0 ∨ (spilling.core 0).cyc < l.ready) ∧
    (spilling.thread 0 0).windowPends 0 = false ∧ (spilling.core 0).lsBad = [] := by decide +kernel

theorem witness_HomesUpkeep : calm.alive = true ∧ 64 * 0x1DCD64FFF + 64 ≤ 0x7735940000 ∧
    ({ calm with corrected := [{ cluster := 0, code := 8, unit := 0, last := 0, count := 1, wrote := none }] }).corrected ≠ [] := by decide

/-- An operation of a queue of core 0 that is queued or has begun. -/
def operating (o : EngOp) (c : Core := {}) (t : Thread := { runner with cntC := 1 }) : State := one t { c with ops := [o] }
noncomputable def mgeo0 (ra : Word) : EngOp := { op0 with queue := 0, word := (encode (.mgeo 2 1)).bits, ra := ra, rb := 32 }
noncomputable def cpy0 : EngOp := { op0 with word := (encode (.cpy 2 1 3 3)).bits, ra := 0x1000, rb := 64, rd := 0x2000, stage := .begun }

theorem witness_EngineOpsBegin : Claims.engineOp (operating op0) 0 1 0 op0 ∧ op0.stage = .queued ∧ ((operating op0).core 0).opBlocked op0 = false ∧
    ((operating op0).core 0).pre = false ∧ Claims.engineOp (operating (mgeo0 128)) 0 0 0 (mgeo0 128) ∧
    (operating (mgeo0 128)).matrixFault 0 (mgeo0 128) = false ∧
    ({ operating (mgeo0 128) with arrays := 0 }).matrixFault 0 (mgeo0 128) = true ∧
    Claims.engineOp (operating { op0 with stage := .record }) 0 1 0 { op0 with stage := .record } ∧
    (operating { op0 with stage := .record }).faultWritten 0 { op0 with stage := .record } = true := by
  refine ⟨⟨by decide, by decide +kernel, by decide +kernel⟩, by decide, by decide +kernel, by decide, ⟨by decide, by decide +kernel, by decide +kernel⟩,
    by decide +kernel, by decide +kernel, ⟨by decide, by decide +kernel, by decide +kernel⟩, by decide⟩

theorem witness_EngineOpsPerformed :
    Claims.nextUp (operating { mgeo0 128 with stage := .begun }) 0 0 { mgeo0 128 with stage := .begun } ∧ Claims.nextUp (operating cpy0) 0 1 cpy0 ∧
    cpy0.rb.toNat < 2 ^ 32 ∧ cpy0.ra.toNat + cpy0.rb.toNat ≤ 0x80000 ∧ cpy0.rd.toNat + cpy0.rb.toNat ≤ 0x80000 ∧
    ((operating cpy0).core 0).inClaim cpy0.rd.toNat cpy0.rb.toNat = false ∧ ((operating cpy0).core 0).lsBad = [] ∧ ((operating cpy0).core 0).frames = [] ∧
    (operating op0).enginesRun 0 = true ∧ (operating op0).hiveBusy 0 = false := by
  refine ⟨⟨⟨by decide, by decide +kernel, by decide +kernel⟩, by decide, by decide +kernel⟩, ⟨⟨by decide, by decide +kernel, by decide +kernel⟩, by decide,
    by decide +kernel⟩, by decide, by decide, by decide, by decide, by decide, by decide, by decide, by decide⟩

/-- A due trap. -/
def due0 : Due := { code := 14, val := 9, op := 0, queue := none, resub := false, sr := 1, release := none }

theorem witness_HandBacks : (operating cpy0).backWaits 0 cpy0 = false ∧ ((operating cpy0).thread 0 cpy0.slot).gen.toNat = cpy0.gen ∧
    ((operating cpy0).thread 0 0).pair = 0 ∧ ((operating cpy0).thread 0 0).due = [] ∧
    ((one { runner with due := [due0] } { thbEn := true }).thread 0 0).interruptible = true ∧
    ((one { runner with due := [due0] } { thbEn := true }).thread 0 0).act = false ∧
    ((one { runner with due := [due0] } { thbEn := true }).core 0).thbEn = true := by decide +kernel

/-! ### Traps, failures and pairs -/

theorem witness_TrapEntries : calm.th.pair = 0 ∧ ((one { runner with run := .trapped }).thread 0 0).run = .trapped := by decide

/-- A thread in a step of its failure. -/
def failed (k : Nat) (f : FailInfo) (t : Thread := runner) : State := one { t with run := .failing k, fail := some f }

theorem witness_FailureSequence : (∀ k ∈ [1, 2, 3, 4, 5, 6, 7, 8], (failed k info0).clocked 0 = true ∧ ((failed k info0).thread 0 0).run = .failing k ∧
      ((failed k info0).thread 0 0).fail = some info0 ∧ ((failed k info0).thread 0 0).pair = 0) ∧
    ((failed 1 info0).thread 0 0).monHeld = none ∧ ((failed 1 info0).thread 0 0).monWait = none ∧ ((failed 1 info0).thread 0 0).phase = 0 ∧
    ((failed 2 info0).thread 0 0).cntr = 0 ∧ ((failed 2 info0 { runner with cntL := 1 }).thread 0 0).cntr ≠ 0 ∧
    (∀ l ∈ ((failed 3 info0).core 0).l1, l.writers.getLsbD 0 = false) ∧ ((failed 3 info0).thread 0 0).cntS = 0 ∧ (failed 3 info0).flights = [] ∧
    info0.queued = false ∧ ((failed 6 info0).thread 0 0).task.txn = false ∧ ((failed 6 info0).thread 0 0).inl = [] ∧
    ({ failed 6 { info0 with queued := true } with clusters := [(0, { errTail := 1 })] }.cluster 0).errTail = 1 ∧
    ((failed 7 info0 { runner with task := { fref := some { addr := 0x10000, core := 0, gen := 0 } } }).thread 0 0).task.fref =
      some { addr := 0x10000, core := 0, gen := 0 } := by decide

/-- A pair whose effects wait in the comparator. -/
def effect0 (key : List Word) : PairEffect := { trap := none, pc := 0x1000, key := key, head := 0, go := false }
def paired (a b : PairEffect) : State :=
  { calm with cores := [(0, { numbered := true, threads := [(0, { runner with pair := 1, cmp := some a }), (8, { runner with pair := 2, cmp := some b })] })] }

theorem witness_PairsCompare : (paired (effect0 [1]) (effect0 [1])).clocked 0 = true ∧ ((paired (effect0 [1]) (effect0 [1])).thread 0 0).pair = 1 ∧
    ((paired (effect0 [1]) (effect0 [1])).thread 0 8).pair = 2 ∧ ((paired (effect0 [1]) (effect0 [1])).thread 0 0).cmp = some (effect0 [1]) ∧
    (effect0 [1]).go = false ∧ ((paired (effect0 [1]) (effect0 [2])).thread 0 8).cmp = some (effect0 [2]) ∧ (effect0 [1]).key ≠ (effect0 [2]).key ∧
    ((paired (effect0 [1]) (effect0 [1])).thread 0 8).run ≠ .halted := by decide

/-- Cluster 0 with a record and its queue, full or not, and a core whose watchdog has run out. -/
def recording (tail : Nat) : State := { calm with clusters := [(0, { errQ := [{ kind := 1 }], errTail := tail })] }
def watched : State := one { runner with run := .stalled, qblock := some (0, false) } { wdog := 0x100000 }

theorem witness_RecordsAndWatchdog : (recording 63).alive = true ∧ ((recording 63).cluster 0).errTail < ((recording 63).cluster 0).errHead + 64 ∧
    (∀ h, ((recording 63).home h).ring.en = false) ∧ (recording 63).devMay 1 ((recording 63).errQueue 0 + 64 * 63) 64 1 = true ∧
    (recording 63).devMay 1 ((recording 63).errQueue 0 + 0x1000) 8 1 = true ∧ ((recording 64).cluster 0).errHead + 64 ≤ ((recording 64).cluster 0).errTail ∧
    (recording 64).devMay 1 ((recording 64).errQueue 0 + 0x1008) 8 0 = true ∧ 0x100000 ≤ (watched.core 0).wdog ∧
    ((watched.core 0).threads.map (·.1)).Nodup ∧ (∀ x ∈ (watched.core 0).threads, x.2.pair = 0) ∧ (watched.thread 0 0).queueStalled = true := by
  refine ⟨by decide, by decide, fun _ => rfl, by decide +kernel, by decide +kernel, by decide, by decide +kernel, by decide, by decide, by decide, by decide⟩

/-- A leading and a trailing thread, one of them issuing, and the leading one's passed values. -/
def pairedAt (i : Nat) (u v : Thread) (c : Core := {}) : State :=
  { calm with cur := (0, i), cores := [(0, { c with numbered := true, threads := [(0, { u with run := .running, pc := 0x1000, pair := 1 }), (8, { v with run := .running, pc := 0x1000, pair := 2 })] })] }
def agreed : PairEffect := { trap := none, pc := 0x1000, key := [], head := 0, go := true }
def leading (cmp : Option PairEffect) (lvq : List (Nat × Option (BitVec 512))) (c : Core := {}) : State := pairedAt 0 { cmp := cmp } { lvq := lvq } c
def trailing (lvq : List (Nat × Option (BitVec 512))) : State := pairedAt 8 {} { lvq := lvq }

theorem witness_PairsAccessOnce : Claims.pairState (leading none []) 1 ∧ (leading none []).th.cmp = none ∧ ((leading none []).thread 0 8).lvq.length ≤ 31 ∧
    Claims.pairState (trailing []) 2 ∧ (trailing []).th.cmp = none ∧ (trailing []).th.lvq = [] ∧ ((trailing []).thread 0 0).cmp = none ∧
    Claims.pairState (leading (some { agreed with go := false }) []) 1 ∧ Claims.pairState (leading (some agreed) [] (paged true)) 1 ∧
    ((leading (some agreed) [] (paged true)).thread 0 8).pair = 2 ∧ agreed.go = true ∧ agreed.trap = none ∧
    (leading (some agreed) [] (paged true)).th.cntS < 1023 ∧ (leading none []).th.cntL < 1023 ∧
    32 ≤ ((leading none (List.replicate 32 (0, none))).thread 0 8).lvq.length ∧ (trailing [(3, some 7)]).th.lvq = (3, some 7) :: [] := by
  unfold Claims.pairState; decide +kernel

/-- A leading thread with a page of another core's window. -/
def farBank : State :=
  { leading (some agreed) [] (mapping [(0, 0x8000080000, 0x3D)]) with
    encnt := 2
    cores := (leading (some agreed) [] (mapping [(0, 0x8000080000, 0x3D)])).cores ++ [(1, { numbered := true, lcore := 1 })] }

theorem witness_PairsAccessOnce_device : Claims.uncached (leading (some agreed) [] (paged true)) 0x1238 8 1 (seg 0x1238 8 true) ∧
    Claims.uncached (leading none [] (paged true)) 0x1238 8 0 (seg 0x1238 8 true) ∧
    farBank.live.segments 0x40 8 2 = .ok ([{ winSeg 0x40 0x8000080040 8 with tgt := .window 1 }], farBank.live) ∧
    regionOf (0x8000080040 % 2 ^ 40) ≠ some 0 ∧ Claims.pairState farBank 1 :=
  ⟨⟨rfl, by decide, by decide, by decide, by decide⟩, ⟨rfl, by decide, by decide, by decide, by decide⟩, rfl, by decide,
   ⟨by decide, by decide, by decide, by decide, by decide, by decide⟩⟩
/-! ### Transactions -/

/-- A descriptor load is due: the descriptor at 0 is that of 256-byte tiles, or all zeros. -/
def loading (m : Memory) (txns : List Txn) (subs : List SubRec) : State :=
  { one runner { flog := 9, fcnt := 1 } with
    dram := m, scarab := { load := true, spaces := [(1, { vbase := 0, pbase := 0, log2 := 8, explicit := true, count := 1, pmap := 0 })],
                                     txns := txns, subs := subs } }

/-- A record with one tile of space 1, and one of the space that a load names. -/
def subAt (space : Nat) : SubRec := { sub0 with src := some (0, 0, 1), set := [BitVec.ofNat 64 (2 ^ 56 + space * 2 ^ 48), 0, 0, 0, 0, 0, 0, 0] }

theorem witness_Numbering : (loading [(14, 8), (15, 3), (16, 1)] [] []).alive = true ∧ (loading [] [] []).scarab.load = true ∧
    (loading [] [] []).spaceBusy 0 = false ∧ (loading [] [] []).scarab.base % 32 = 0 ∧ (loading [] [] []).devMay 2 0 32 0 = true ∧
    Claims.descGood (Claims.descBytes (loading [(14, 8), (15, 3), (16, 1)] [] [])) ∧ ¬ Claims.descGood (Claims.descBytes (loading [] [] [])) ∧
    (loading [] [{ txn0 .running with sub := subAt 0 }] []).spaceBusy 0 = true ∧ Claims.onlyRecord (loading [] [] [subAt 1]) (subAt 1) ∧
    (loading [] [] [subAt 1]).namesLoading (subAt 1) = false ∧ ((loading [] [] [subAt 1]).thread 0 0).gen.toNat = 1 ∧
    (loading [] [] [subAt 1]).numberFault (subAt 1) 0 = none ∧ (loading [] [] [subAt 1]).scarab.pos + 1 < 4096 ∧
    Claims.onlyRecord (loading [] [] [subAt 0]) (subAt 0) ∧ (loading [] [] [subAt 0]).namesLoading (subAt 0) = true ∧
    calm.cold.stopped = false ∧ calm.cold.req = calm.cold.band := by
  refine ⟨by decide, by decide, by decide +kernel, by decide, by decide +kernel, ?_, ?_, by decide +kernel, ⟨by decide +kernel, by decide, by decide⟩,
    by decide +kernel, by decide, by decide +kernel, by decide, ⟨by decide +kernel, by decide, by decide⟩, by decide +kernel, by decide, by decide⟩ <;>
    unfold Claims.descGood <;> decide +kernel

/-- Cluster 0 has a transaction that waits for a frame, and core 0 one frame of 512 bytes. -/
def framing : State :=
  { one runner { flog := 9, fcnt := 1 } with clusters := [(0, { txq := [5] })], scarab := { (loading [] [] []).scarab with txns := [{ txn0 .waiting with sub := subAt 1 }] } }

theorem witness_FrameAssignment : framing.alive = true ∧ (framing.cluster 0).txq = 5 :: [] ∧ framing.txn 5 = some { txn0 .waiting with sub := subAt 1 } ∧
    (framing.scarab.txns.map (·.seq)).Nodup ∧ (rotateAfter (framing.cluster 0).lastFrameCore (framing.coresOf 0)).find? (fun m =>
      decide (framing.frameNeed (subAt 1) ≤ 2 ^ (framing.core m).flog) && (framing.core m).freeFrame.isSome && !(framing.core m).pre) = some 0 ∧
    (framing.core 0).freeFrame = some 0 ∧ 0 ∈ framing.coresOf 0 ∧ framing.frameNeed (subAt 1) ≤ 2 ^ (framing.core 0).flog ∧
    (∀ m ∈ framing.coresOf 0, m ≠ 0 → (framing.core m).freeFrame = none) := by decide +kernel

/-- A request of a transaction for tile 3 of space 1, a home, and what is on its way to it. -/
def req0 (seq : Nat) : LockReq := { seq := seq, entry := 0, space := 1, tile := 3, mode := 2, granted := false, sent := false }
def homed (h : Home) (p : List Packet) (podm : Nat := 0) : State :=
  { (loading [] [txn0 .framed] []) with homes := [(9, h)], chan := p, scarab := { (loading [] [txn0 .framed] []).scarab with podm := podm } }

/-- A home that awaits batch 0 of package 0. -/
def sealed : Home := { enrolled := [(0, 0)], early := [req0 (2 ^ 24)] }

theorem witness_LockQueues : (homed {} [.lockReq 9 0 (req0 5)]).alive = true ∧ (homed {} [.lockReq 9 0 (req0 5)]).chan[0]? = some (.lockReq 9 0 (req0 5)) ∧
    (homed {} [.lockReq 9 0 (req0 5)]).cut (.lockReq 9 0 (req0 5)) = false ∧ (homed {} [.lockReq 9 0 (req0 5)]).outOfOrder 9 0 = false ∧
    (homed {} [.lockReq 9 0 (req0 5)]).scarab.podm = 0 ∧ ((homed { reqs := [req0 4] } []).home 9).outside (seqPkg 5) (seqBatch 5) = false ∧
    seqBefore 5 4 = false ∧ ((homed { enrolled := [(0, 0)] } [.lockReq 9 0 (req0 (2 ^ 24))] 1).home 9).missing (2 ^ 24) ≠ [] ∧
    ((homed { enrolled := [(0, 0)] } [] 1).home 9).outside (seqPkg (2 ^ 24)) (seqBatch (2 ^ 24)) = false ∧
    (homed { enrolled := [(0, 0)], overdue := [(0, 0)] } [.seal 9 0 0 0]).chan[0]? = some (.seal 9 0 0 0) ∧
    ((homed { enrolled := [(0, 0)], overdue := [(0, 0)] } [.seal 9 0 0 0]).home 9).outside 0 0 = false ∧
    ((homed sealed [] 1).home 9).early.flatMap (fun r => ((homed sealed [] 1).home 9).missing r.seq) ≠ [] ∧
    (∀ m ∈ ((homed sealed [] 1).home 9).early.flatMap (fun r => ((homed sealed [] 1).home 9).missing r.seq), m ∉ ((homed sealed [] 1).home 9).overdue) := by
  decide +kernel

theorem witness_LockQueues_order : Claims.lockCompatible [req0 4, req0 5] ∧ Claims.lockOrdered [req0 4, req0 5] ∧
    ([req0 4, req0 5].map (fun x => (x.seq, x.entry))).Nodup := by
  refine ⟨fun a b ha hb _ _ h => ?_, fun pre r post h g => ?_, by decide⟩
  · simp only [List.mem_cons, List.not_mem_nil, or_false] at ha
    rcases ha with rfl | rfl <;> simp [req0] at h
  · have : r ∈ [req0 4, req0 5] := h ▸ List.mem_append_right _ (List.mem_cons_self ..)
    simp only [List.mem_cons, List.not_mem_nil, or_false] at this
    rcases this with rfl | rfl <;> simp [req0] at g

/-- The grant of entry 0, with nothing to push, a part to land, and a part to gather. -/
def granting (p : Push) : State :=
  { homed {} [.grant 5 0 false p] with scarab := { (loading [] [{ txn0 .framed with sub := subAt 1, homes := [(0, 9)] }] []).scarab with load := false } }

theorem witness_GrantsAndDispatch : (homed {} [.notice 9 5]).chan[0]? = some (.notice 9 5) ∧ (homed {} [.notice 9 5]).cut (.notice 9 5) = false ∧
    ((homed {} [.notice 9 5]).home 9).reqs = [] ∧ ((homed { reqs := [{ req0 5 with granted := true }] } []).home 9).reqs = [{ req0 5 with granted := true }] ∧
    ((homed { reqs := [{ req0 5 with granted := true }] } []).home 9).brokenTile { req0 5 with granted := true } = false ∧
    ((granting {}).txn 5).isSome = true ∧ (granting {}).cut (.grant 5 0 false {}) = false ∧ ((granting {}).core 0).pre = false ∧ ((granting {}).scarab.txns.map (·.seq)).Nodup ∧
    ((granting { land := [0], bytes := List.replicate 64 1 }).slotAt { txn0 .framed with sub := subAt 1, homes := [(0, 9)] } 0).isSome = true ∧
    (granting { land := [0] }).tableAllows 1 2 ((granting { land := [0] }).windowPa 0 256) 64 1 = true ∧ (0 : Nat) / 256 * 256 ∈ [(0 : Nat)] ∧
    (granting { gather := [0], land := [0] }).devMay 2 ((granting {}).tilePa { txn0 .framed with sub := subAt 1, homes := [(0, 9)] } 0 + 0) 256 0 = true := by
  decide +kernel

/-- A transaction that is ready, and a thread that waits in `wfw`. -/
def dispatching : State :=
  { one { runner with run := .wfw } { flog := 9, fcnt := 1 } with
    scarab := { (loading [] [] []).scarab with txns := [{ txn0 .framed with sub := { subAt 1 with hexp := true }, homes := [(0, 9)], landed := [0] }] }
    launches := [(0, launch0)] }

theorem witness_TransactionDispatch : (dispatching.bestItem 0).isSome = true ∧ ((dispatching.bestItem 0).map (fun d => (d.item, d.seq))) = some (none, 5) ∧
    anyBad (dispatching.core 0).lsBad (dispatching.txBase (txn0 .framed)) 64 = false := by decide +kernel

/-- A segment, a release and a TREE decrement on their way. -/
def committing (p : List Packet) (un : List Nat) : State :=
  { homed {} p with scarab := { (loading [] [] []).scarab with txns := [{ txn0 .committing with sub := subAt 1, homes := [(0, 9)], unreleased := un }] } }

theorem witness_Commits : (committing [.segment 5 0 0x1000 (List.replicate 64 1) false] [0]).cut (.segment 5 0 0x1000 (List.replicate 64 1) false) = false ∧
    (committing [.segment 5 0 0x1000 (List.replicate 64 1) false] [0]).devMay 2 0x1000 64 1 = true ∧
    ({ committing [] [] with enf := true }).devMay 2 0x1000 64 1 = false ∧
    (committing [.segment 5 0 0x1000 [] false, .release 5 0] [0]).segmentLeft 5 0 = true ∧
    (committing [.release 5 0] [0]).entryCut 5 0 = false ∧ (committing [.release 5 0] [0]).segmentLeft 5 0 = false ∧
    (committing [.release 5 0] [0]).requestLeft 5 0 = false ∧ ((committing [.release 5 0] [0]).txn 5).isSome = true ∧
    ((committing [] []).homes.map (·.1)).Nodup ∧ ((committing [] []).scarab.txns[0]?).map (fun x => (x.stage, x.unreleased, x.failed)) = some (.committing, [], false) ∧
    ((committing [] [0]).scarab.txns[0]?).map (·.unreleased) = some [0] ∧
    (committing [.tree { base := 0x10000, core := 0 } src0] []).siteOf 0 = some 0 ∧
    ((committing [.tree { base := 0x10000, core := 0 } src0] []).core 0).pre = false ∧
    (committing [.tree { base := 0x10000, core := 0 } src0] []).lsNum 0 (0x10000 + 24) 4 ≠ 1 := by decide +kernel

/-! ### Temperature and power -/

/-- 64 readings. -/
def all64 (r : Nat) : List Nat := List.replicate 64 r

theorem soundSample_of (s : State) (r : Nat) (h : s.cold.failed = []) (hs : s.cold.stuck = []) (lo : 320 ≤ r) (hi : r ≤ 5280) :
    Claims.soundSample s (all64 r) := by
  refine ⟨h, List.length_replicate .., fun x hx => ?_, ?_⟩
  · rw [List.eq_of_mem_replicate hx]; exact ⟨lo, hi⟩
  · rw [hs]; intro x hx; cases hx

theorem witness_SensorSamples : calm.on = true ∧ (all64 1473).length = 64 ∧ Claims.soundSample calm (all64 1473) ∧ Claims.hottest (all64 1473) = 1473 ∧
    1 ≤ (molten .coldRun false false { over92 := 1 }).cold.over92 ∧ (molten .coldRun).cold.ramping = false ∧
    Claims.soundSample calm (all64 2241) ∧ 2240 < Claims.hottest (all64 2241) ∧ (molten .excursion false false { band := 1, over140 := 1 }).cold.band = 1 ∧
    Claims.soundSample calm (all64 2192) ∧ Claims.hottest (all64 2192) ≤ 2192 ∧ (molten .warming false false { band := 2, under137 := 1 }).cold.band = 2 ∧
    Claims.hottest (all64 1472) ≤ 1472 ∧ 5280 < Claims.hottest (all64 5281) :=
  ⟨by decide, by decide, soundSample_of _ _ rfl rfl (by decide) (by decide), by decide +kernel, by decide, by decide,
    soundSample_of _ _ rfl rfl (by decide) (by decide), by decide +kernel, by decide, soundSample_of _ _ rfl rfl (by decide) (by decide),
    by decide +kernel, by decide, by decide +kernel, by decide +kernel⟩

theorem witness_MoltAndBands :
    (molten .warming false false { fallFrom := some 0, band := 1, req := 1, time := 10000000 }).cold.time = 0 + 10000000 ∧
    (molten .cooling true).cold.ramping = true ∧ (∀ x ∈ (molten .coolPrep).launches, x.2.suspended = true) ∧
    (molten .cooling false false { tmax := 1424 }).cold.tmax ≤ 1424 ∧ 1424 < (molten .cooling false false { tmax := 1425 }).cold.tmax ∧
    (molten .coldReady).cold.req = 0 ∧ ({ molten .coldReady with launches := [(0, launch0)] }).awaited = true ∧ (molten .coldRun).awaited = false ∧
    (molten .coldRun).cold.warmHeld = false ∧ (molten .coldRun false false { req := 1 }).cold.req ≠ 0 ∧ (molten .excursion false false { band := 2 }).cold.band = 2 ∧
    ({ molten .excursion with launches := [(0, launch0)] }).awaited = true ∧ 4480 ≤ (molten .warming false false { temps := all64 4480 }).cold.coolest ∧
    (molten .soak false false { soakFrom := some 0, time := 120000000 }).cold.trainDead = false ∧
    (molten .soak false false { soakFrom := some 0, time := 119999999 }).cold.time < 0 + 120000000 ∧ Molt.warming.limit = some 10800 ∧
    10800 ≤ ((molten .warming false false { time := 10800000000 }).cold.time - (molten .warming).cold.entered) / 1000000 ∧
    (molten .coldRun false false { band := 1, req := 0 }).cold.req < 1 ∧ (molten .coldRun false false { band := 0, req := 2 }).cold.req ≠ 0 ∧
    (molten .coldRun false false { stopped := true }).cold.stopped = true := by decide +kernel

theorem witness_PowerAndReset : ({ calm with on := false }).on = false ∧ (all64 1232).length = 64 ∧ calm.on = true ∧ calm.alive = true ∧
    ({ calm with powered := 135 }).powered < 136 ∧ 136 ≤ calm.powered ∧ ({ calm with arrays := 127 }).arrays < 128 ∧ calm.cold.holdOff = false ∧
    calm.cold.band ≠ 2 := by decide

/-- Core 0 with its governor. -/
def governed (g : Gov) : State := one runner { gov := g }

theorem witness_Governors : (governed { step := 3, count := 8 }).alive = true ∧ 8 ≤ ((governed { step := 3, count := 8 }).core 0).gov.count + 0 ∧
    0 < ((governed { step := 3, count := 8 }).core 0).gov.step ∧ ((governed { frozen := true, prev := 1 }).core 0).gov.step = 0 ∧
    ((governed { frozen := true, prev := 1 }).core 0).gov.count + 8 = 8 ∧ 59 ≤ ((governed { step := 5, quiet := 59 }).core 0).gov.quiet ∧
    ((governed { step := 5, quiet := 59 }).core 0).gov.step < 6 ∧ ((governed { frozen := true }).core 0).gov.count + 7 < 8 := by decide

/-! ### Links, drives and the whole machine -/

/-- The Ulisil link retrains. -/
def retraining (n : Nat) : State := { calm with ulisil := { retraining := true, retrains := n } }

theorem witness_UlisilLink : calm.ulisil.up = true ∧ calm.ulisil.retraining = false ∧ (retraining 1).ulisil.retraining = true ∧
    (retraining 1).ulisil.retrains + 1 < 3 ∧ 3 ≤ (retraining 2).ulisil.retrains + 1 ∧ ({ calm with ulisil := { up := false } }).ulisil.up = false := by decide

/-- Fabric link 3 in a state; package 1 is reached by it alone. -/
def linkedTo (x : Link) (f : List Flight) : State := { calm with links := [(3, x)], froute := [(1, 8)], flights := f }
def far0 (k : FlightKind) : Flight := flight k .request (2 ^ 40 + 0x1000) 8 bytes8

theorem witness_FlitsAndFabric : calm.alive = true ∧
    (flying (flight .store .request 0x1000 8 bytes8)).flights[0]? = some (flight .store .request 0x1000 8 bytes8) ∧
    (flight .store .request 0x1000 8 bytes8).bad ≠ 0xFF ∧ (flight .load (.reply none) 0x1000 8 bytes8).stage = .reply none ∧
    ((linkedTo { st := 2, lanes := 15, width := 4 } []).link 3).st ≠ 0 ∧ ((linkedTo { st := 2, lanes := 15 } []).link 3).lanes.testBit 3 = true ∧
    (Claims.trainedTo 15 4 ∧ Claims.trainedTo 12 2 ∧ Claims.trainedTo 6 0) ∧ ((linkedTo { st := 1, lanes := 12 } []).link 3).st = 1 ∧
    ((linkedTo { st := 2, width := 2, lanes := 12 } []).link 3).width = 2 ∧ ((12 ||| 3 : Nat) = 15) ∧ ((12 ||| 1 : Nat) ≠ 15) ∧
    ((linkedTo {} []).link 3).st = 0 ∧ (linkedTo { st := 2 } [{ far0 .store with via := some 3 }]).flights[0]? = some { far0 .store with via := some 3 } ∧
    (far0 .store).via ≠ some 3 ∧ (far0 .load).pa / 2 ^ 40 % 256 ≠ calm.scarab.pidx ∧ (far0 .load).via = none ∧
    (∀ l < 18, (tblGet 0 1 (linkedTo {} []).froute).testBit l = true → ((linkedTo {} []).link l).st ≠ 2) := by
  unfold Claims.trainedTo
  refine ⟨?_, ?_, ?_, ?_, ?_, ?_, ?_, ?_, ?_, ?_, ?_, ?_, ?_, ?_, ?_, ?_, ?_⟩ <;> decide +kernel

theorem witness_OutsideMasters : calm.hostUp = true ∧ Claims.onePiece 0x773593FFC0 64 ∧ calm.outsideTarget 4 0x773593FFC0 64 1 = some .dram ∧
    calm.outsideTarget 4 0xC000000000 8 1 = some .host ∧ calm.outsideTarget 4 0x1000 8 0 = some .dram ∧ calm.outsideTarget 4 0x7735940000 8 1 = none ∧
    calm.outsideTarget 4 0x7735940000 8 0 = none ∧ calm.alive = true ∧ inDram 0x1000 64 = true ∧ 0x1000 / 2 ^ 40 % 256 = calm.scarab.pidx ∧
    calm.tableAllows 6 6 0x1000 64 1 = true ∧ calm.outsideTarget 6 0x1000 64 1 = some .dram ∧ inDram 0x8000000000 8 = false := by
  unfold Claims.onePiece; refine ⟨?_, ?_, ?_, ?_, ?_, ?_, ?_, ?_, ?_, ?_, ?_, ?_, ?_⟩ <;> decide +kernel

/-- A command of pair 0 to controller 2. -/
def cmd0 (opc : Nat) (done : Option (Nat × Nat × Nat)) (late : Bool) : Cmd :=
  { qp := 0, tag := 9, site := 0, slot := 0, gen := 1, hi := false, opc := opc, nsid := 1, slba := 0, nlb := 0, va := 0x1000, size := 512, pages := [0x1000]
    pc := 0, sent := true, done := done, lnch := 0, wid := 0, late := late, ctl := 2 }
def driving (c : Cmd) (t : Thread := runner) (lost : List Nat := []) : State :=
  { one t with storage := { stqbase := 0x600000, qps := [(0, 0x41)], cmds := [c], lostCtl := lost } }

theorem witness_StorageEvents : (driving (cmd0 0 none false)).alive = true ∧ (cmd0 0 none false).qp < 64 ∧
    Claims.sentCmd (driving (cmd0 0 none false)) (cmd0 0 none false) ∧ Claims.sentCmd (driving (cmd0 2 none false)) (cmd0 2 none false) ∧
    (driving (cmd0 2 none false)).devMay 3 ((driving (cmd0 2 none false)).stq 0x400000) 16 1 = true ∧ (cmd0 2 none false).size ≤ 4096 ∧
    0x1000 % 4096 = 0 ∧ (0x1000 : Nat) + 4096 ≤ (driving (cmd0 2 none false)).dramKey ((driving (cmd0 2 none false)).stq 0x400000) ∧
    (driving (cmd0 0 (some (0, 0, 0)) false)).storage.cmds = [cmd0 0 (some (0, 0, 0)) false] ∧
    ((driving (cmd0 0 (some (0, 0, 0)) false)).thread 0 0).gen.toNat = 1 ∧ ((driving (cmd0 0 (some (0, 0, 0)) false)).thread 0 0).busyTask = true ∧
    Claims.mailRoom ((driving (cmd0 0 (some (0, 0, 0)) false)).thread 0 0) false ∧
    ¬ Claims.mailRoom ((driving (cmd0 0 (some (0, 0, 0)) false) { runner with mbLo := List.replicate 12 (mail 1) }).thread 0 0) false ∧
    ((driving (cmd0 0 (some (0, 0, 0)) false) { runner with gen := 2 }).thread 0 0).gen.toNat ≠ 1 ∧ Claims.sentCmd (driving (cmd0 0 none true)) (cmd0 0 none true) ∧
    2 ∈ (driving (cmd0 0 none false) runner [2]).storage.lostCtl ∧ 2 ∉ (driving (cmd0 0 none false)).storage.lostCtl := by
  unfold Claims.sentCmd Claims.mailRoom
  refine ⟨?_, ?_, ?_, ?_, ?_, ?_, ?_, ?_, ?_, ?_, ?_, ?_, ?_, ?_, ?_, ?_, ?_⟩ <;> decide +kernel

/-- The turn of core 0, of an event, or of something outside. -/
def turned (t : Turn) (s : State := calm) : State := { s with turns := [t] }

theorem witness_StepRunsTheDecodedInstruction : (turned (.core 0)).nextTurn = (.core 0, calm) ∧ calm.clocked 0 = true ∧ (calm.core 0).pre = false ∧
    Claims.slotRuns { calm with cur := (0, (calm.core 0).cyc % 16) } ∧ (State.resetOf []).site = true ∧ (State.resetOf []).booted = false ∧
    ({ State.resetOf [] with powered := 136 }).clocked 0 = true ∧ (turned (.outside (.saveError 0))).nextTurn = (.outside (.saveError 0), calm) ∧
    (turned (.event .powerLoss)).nextTurn = (.event .powerLoss, calm) ∧ Instr.powerLoss.isWord = false ∧ atIssue .powerLoss = false :=
  ⟨rfl, by decide, by decide, ⟨by decide, by decide, by decide⟩, by decide, by decide, by decide, rfl, rfl, rfl, rfl⟩

/-- A thread with a pending register, and one with registers of bad parity. -/
def pending (r : RegName) : State := one { runner with pend := [(r, 7)] }
def parity (r : RegName) : State := one { runner with regBad := [r] }

theorem witness_PendingAndPoisonedRegisters : Claims.alone (pending (.s 1)) ∧ Claims.isWaiting (pending (.s 1)) 1 ∧
    (∃ x ∈ (pending (.p 1)).th.pend, x.1 = .p (1 : BitVec 3).toNat) ∧ Claims.alone (parity (.s 1)) ∧ (parity (.s 1)).th.pend = [] ∧
    (parity (.s 1)).th.fail = none ∧ Claims.isBad (parity (.p 1)) (.p 1) ∧ ¬ Claims.isBad (parity (.s 1)) (.p 1) ∧
    ((parity (.s 1)).th.preg 1).getLsbD 0 = false ∧ ((parity (.s 1)).th.preg 0).getLsbD 0 = true ∧ ¬ Claims.isBad (parity (.s 1)) (.p 0) ∧
    Claims.isBad (parity (.s 1)) (.s 1) ∧ ¬ Claims.isBad (parity (.s 1)) (.s 2) := by
  unfold Claims.alone Claims.isWaiting Claims.isBad; decide

/-- A reconnaissance pass, in a task of a launch, and an inline child of its. -/
def passOf (t : Thread) (c : Core := {}) : State :=
  busy { t with depth := 1, inl := [{ kind := .pass false, ret := 0x3000, depth := 1, dst := 1, task := {} }] } c
def passing : State := passOf { runner with glob := [(1, 0x7FFFC)] }
def passChild : State :=
  busy { runner with depth := 1, inl := [{ kind := .child, ret := 0x3000, depth := 1, dst := 0, task := {} }, { kind := .pass false, ret := 0x3000, depth := 1, dst := 1, task := {} }] }

/-- The scratch below the frames, from 0xF000 to 0x10000. -/
def scratchy : State := passOf runner { wsn := 15, flog := 14, fcnt := 8 }

theorem witness_PassStoresScratch : Claims.inPass passing ∧ passing.site = false ∧
    0x80000 < (passing.reg 1 + (0#12).signExtend 64).toNat + 8 ∧ passing.co.scrb ≤ 0x7FFF8 ∧ 0x7FFF8 + 8 ≤ passing.co.hvb ∧
    Claims.inPass scratchy ∧ scratchy.co.wsn * 0x1000 ≤ 0xFFF8 ∧ 0xFFF8 + 8 ≤ scratchy.co.txb ∧
    (∀ k < 8, ¬ (scratchy.co.wsn * 0x1000 ≤ 0xEFF8 + k ∧ 0xEFF8 + k < scratchy.co.txb) ∧
      ¬ (scratchy.co.scrb ≤ 0xEFF8 + k ∧ 0xEFF8 + k < scratchy.co.hvb)) := by
  unfold Claims.inPass; decide

theorem witness_PassReads : Claims.inPass (passOf runner (paged true)) ∧ Claims.bankReady passing 1 (passing.reg 1) 4 0x7FFFC ∧
    (passOf runner (paged true)).live.segments 0x1238 8 2 = .ok ([seg 0x1238 8 true], (passOf runner (paged true)).live) ∧
    (seg 0x1238 8 true).tgt ≠ .window (passOf runner (paged true)).cur.1 ∧ (passOf runner (paged true)).th.cntL < 1023 :=
  ⟨⟨by decide, by decide, by decide, by decide, by decide, by decide⟩, ⟨by decide, by decide, by decide, by decide, .inl ⟨by decide, by decide⟩⟩,
   rfl, by decide, by decide⟩

theorem frameOpen_pass : Claims.frameOpen (passOf spawner) 0x7FFE0 :=
  ⟨by decide, by decide, by decide +kernel, by decide +kernel⟩

theorem witness_PassChildrenAndEnd : Claims.inPass (passOf spawner) ∧ ((passOf spawner).reg 2).extractLsb' 19 13 = 0 ∧
    ((passOf spawner).reg 2).extractLsb' 44 20 = 0 ∧ Claims.frameOpen (passOf spawner) (((passOf spawner).reg 2).extractLsb' 0 19).toNat ∧
    Claims.entry ((passOf spawner).reg 1) ∧ ((passOf spawner).reg 2).extractLsb' 32 12 = 0 ∧
    (passOf spawner).live.coreTakes (((passOf spawner).reg 2).extractLsb' 32 12).toNat = true ∧ Claims.canOpen (passOf spawner) ∧
    (passOf { runner with cntL := 1 }).th.cntL ≠ 0 ∧ passing.th.cntL = 0 ∧ passing.th.accQ = [] ∧ passing.co.lsBad = [] ∧
    passing.th.resLo < 1 ∧ 1 ≤ passing.th.depth ∧ Claims.inPass passChild ∧ passChild.th.inl.head?.map (·.kind) = some .child := by
  refine ⟨⟨by decide, by decide, by decide, by decide, by decide, by decide⟩, by decide, by decide, frameOpen_pass, ⟨by decide, by decide⟩,
    by decide, by decide +kernel, ⟨by decide, by decide, by decide, by decide⟩, ?_⟩
  unfold Claims.inPass; decide

theorem witness_DecodeAfterEncode : (Instr.add 0 1 2 0 3).isWord = true ∧ (Instr.add 0 1 2 0 3).wellFormed = true ∧
    (Instr.cAdd 1 2).isWord = true ∧ (Instr.cAdd 1 2).wellFormed = true := by decide

theorem witness_StepKeepsMemoriesCanonical : calm.memWf = true ∧ (turned (.core 0)).memWf = true := by decide

theorem witness_MemoryEvents : (walking false).clocked (2048 + 0) = true ∧ ((walking false).cluster 0).walks = [{ page := 1, who := [(0, 0)] }] ∧
    (one { runner with run := .stalled, depth := 4, qblock := none }).clocked 0 = true ∧ (spilling.thread 0 0).loads = [] ∧ (spilling.thread 0 0).pend = [] := by
  decide

theorem witness_ClimateEvents : ∀ c ∈ [(1232 : Nat), 1424], Claims.soundSample (molten .cooling false false { tmax := 1424 }) (all64 c) := by
  intro c hc
  simp only [List.mem_cons, List.not_mem_nil, or_false] at hc
  rcases hc with rfl | rfl <;> exact soundSample_of _ _ rfl rfl (by decide) (by decide)

theorem witness_CoordinationEvents : (idle {}).alive = true ∧ (∃ j < 16, (reloading.thread evicted0.site j).run = .free) ∧
    (∀ p ∈ [8, 16, 17], (calm.thread 0 0).phase ≠ p) ∧ (subAt 1).src.isSome = true := by decide +kernel

/-! ## Decoding: words written from the spec's encoding tables (R172 to R177) -/

/-- The word stands for the instruction. -/
def reads (w : BitVec 32) (i : Instr) : Prop := (decode32 w).toOption = some i

/-- The short word stands for the instruction. -/
def readsHalf (w : BitVec 16) (i : Instr) : Prop := (decode16 w).toOption = some i

/-- The encoding refuses these fields: the instruction is not well formed, and no instruction has its word. -/
def refused (w : BitVec 32) (i : Instr) : Prop := i.wellFormed = false ∧ encode i = .long w ∧ (decode32 w).toOption = none

/-- Majors 0 to 3 (R172): integer words. -/
theorem test_decodeScalar :
    reads 0x0D189483 (.sub 5 3 2 1 9) ∧ reads 0xF8046F03 (.zext 0 17 2 30) ∧ reads 0xFFF4F507 (.muli 0xFFF 9 10) ∧
    reads 0x82126287 (.sari 33 4 5) ∧ reads 0x8000138B (.ldhi 0x80001 7) ∧ reads 0xFFFFF08F (.addpc 0xFFFFF 1) :=
  ⟨rfl, rfl, rfl, rfl, rfl, rfl⟩

/-- Majors 4 to 7 and 14: device and local accesses, atomics and window loads. -/
theorem test_decodeMemory :
    reads 0x8004C513 (.ldBu 0x800 9 10) ∧ reads 0x0401F093 (.pf 64 3 1) ∧ reads 0x008F4017 (.stZ 8 30) ∧
    reads 0x7F81759B (.stDLs 0x7F8 2 11) ∧ reads 0x4E20D29F (.amoCas 1 1 0 4 3 1 5) ∧ reads 0x0104A3BB (.xld 16 9 7) :=
  ⟨rfl, rfl, rfl, rfl, rfl, rfl⟩

/-- Majors 8 to 10: scalar floating point. -/
theorem test_decodeFloat :
    reads 0x041894A3 (.fadd 4 3 2 1 9) ∧ reads 0x80115323 (.fcvt 0 2 5 1 6) ∧ reads 0xF910F227 (.fmsub 31 1 2 3 1 4) ∧
    reads 0x453994AB (.fnmadd 8 5 7 6 0 9) :=
  ⟨rfl, rfl, rfl, rfl⟩

/-- Majors 11 to 15: branches, loops, jumps and the short system words. -/
theorem test_decodeControl :
    reads 0x80031A2F (.bLe 0x4001 17) ∧ reads 0x00066EAF (.lpEven 3 6) ∧ reads 0xFFFFFE33 (.jmp 0xFFFFFE) ∧ reads 0x000005B3 (.call 5) ∧
    reads 0x002490B7 (.jal 0x002 9 1) ∧ reads 0x00003037 (.ret) ∧ reads 0x000000BF (.hint 1) ∧ reads 0x00E004BB (.geoCrd 2 9) ∧
    reads 0x015194BB (.widReg 5 3 9) ∧ reads 0x004454BB (.tsa 4 8 9) :=
  ⟨rfl, rfl, rfl, rfl, rfl, rfl, rfl, rfl, rfl, rfl⟩

/-- Majors 16 to 19: the vector words. -/
theorem test_decodeVector :
    reads 0xB16792C3 (.vcmpltu 1 3 0 15 2 5) ∧ reads 0xCF021943 (.vtunp 7 4 3 2) ∧ reads 0xDA854C43 (.vscan 2 4 1 0 2 9 8) ∧
    reads 0x1BBFA2C7 (.vfdiv 3 1 1 31 4 5) ∧ reads 0x697C1347 (.vcvt 1 3 1 3 0 2 6) ∧ reads 0xE0BA81C7 (.pwhile 5 21 3) ∧
    reads 0x8BFAEE4B (.vfnmsub 4 2 15 14 1 13 12) ∧ reads 0x1E4A1DCF (.vsts 6 9 8 3 11) ∧ reads 0x415251CF (.vldgLs 1 10 9 2 3) :=
  ⟨rfl, rfl, rfl, rfl, rfl, rfl, rfl, rfl, rfl⟩

/-- Majors 20 to 22: the matrix, copy, sparse and storage words. -/
theorem test_decodeEngine :
    reads 0x00314053 (.mgeo 6 5) ∧ reads 0x1B398153 (.macc 3 7 6 2) ∧ reads 0x2A4044D3 (.mst 2 8 1 9) ∧
    reads 0x0C1894D7 (.cpy2d 4 3 2 1 9) ∧ reads 0x3018A257 (.cpyset 3 2 1 4) ∧ reads 0x0D10265B (.isectMax 5 1 0 12) ∧
    reads 0x2A1816DB (.ksortK64 2 1 1 13) ∧ reads 0x9002455B (.nvcfg 9 10) :=
  ⟨rfl, rfl, rfl, rfl, rfl, rfl, rfl, rfl⟩

/-- Major 23: the key table. -/
theorem test_decodeHive :
    reads 0x0020C85F (.kclaim 4 3 16) ∧ reads 0x1B30A0DF (.kprbV32 3 6 2 1) ∧ reads 0x5231505F (.kdrains 1 0 6 5 1) ∧
    reads 0x583004DF (.kstat 6 9) :=
  ⟨rfl, rfl, rfl, rfl⟩

/-- Majors 24 to 26: tasks, messages, barriers and waits. -/
theorem test_decodeTask :
    reads 0x08A24463 (.spawnAt 20 9 8) ∧ reads 0x40000063 (.txchk) ∧ reads 0x2878C067 (.barCfg 15 3) ∧ reads 0x48001067 (.qmapOn) ∧
    reads 0x007F6E6B (.wait 15 14 13 12) ∧ reads 0x0800086B (.qfence 16) :=
  ⟨rfl, rfl, rfl, rfl, rfl, rfl⟩

/-- Major 26: special registers, translation and the return from the handler. -/
theorem test_decodeSystem :
    reads 0x500804EB (.mfs 0x080 9) ∧ reads 0x580013EB (.mts 0x001 7) ∧ reads 0x59007FEB (.mtsE 7 31) ∧ reads 0x7800106B (.tlbiAll) ∧
    reads 0x4800006B (.sysret) :=
  ⟨rfl, rfl, rfl, rfl, rfl⟩

/-- The 16-bit words of the three quadrants (R177). -/
theorem test_decodeShort :
    readsHalf 0x07C4 (.cMove 15 1) ∧ readsHalf 0x4018 (.cJr 6) ∧ readsHalf 0x03FD (.cAddiS0 3 0x3F) ∧ readsHalf 0x6525 (.cLdDSp 5 9) ∧
    readsHalf 0x3FFE (.cJmp 0xFFF) ∧ readsHalf 0x9206 (.cBNz 4 0x81) :=
  ⟨rfl, rfl, rfl, rfl, rfl, rfl⟩

/-- RM = 6 is reserved (R151), in every family that rounds. -/
theorem test_refusedRm :
    refused 0x061894A3 (.fadd 6 3 2 1 9) ∧ refused 0x260094A3 (.fsqrt 6 2 1 9) ∧ refused 0x7E195323 (.itof 6 3 5 1 6) ∧
    refused 0xFE10E227 (.fmadd 31 6 2 3 1 4) ∧ refused 0xCBF9EE4B (.vfmsub 6 2 15 14 1 13 12) :=
  ⟨⟨rfl, rfl, rfl⟩, ⟨rfl, rfl, rfl⟩, ⟨rfl, rfl, rfl⟩, ⟨rfl, rfl, rfl⟩, ⟨rfl, rfl, rfl⟩⟩

/-- DIM = 3 and WID fields above 5 are illegal (R202, R203), and so is statistic 7 of the key table. -/
theorem test_refusedDim :
    refused 0x003004BB (.geoStart 3 9) ∧ refused 0x00F004BB (.geoCrd 3 9) ∧ refused 0x006014BB (.widField 6 9) ∧
    refused 0x017194BB (.widReg 7 3 9) ∧ refused 0x583804DF (.kstat 7 9) :=
  ⟨⟨rfl, rfl, rfl⟩, ⟨rfl, rfl, rfl⟩, ⟨rfl, rfl, rfl⟩, ⟨rfl, rfl, rfl⟩, ⟨rfl, rfl, rfl⟩⟩

/-- Vector fields: a B of 16 or more that names a vector, an illegal scan or reduction, a chunk out of range (R173, R236, R237, R240). -/
theorem test_refusedVectorFields :
    refused 0x034810C3 (.vadd 3 2 0 16 2 1) ∧ refused 0x834F90C7 (.vperm 3 2 0 31 2 1) ∧ refused 0xDA874C43 (.vscan 2 4 1 1 2 9 8) ∧
    refused 0xDA05CC43 (.vscan 2 0 1 0 3 9 8) ∧ refused 0xE1C190C3 (.vred 1 6 3 2 1) ∧ refused 0x697D9347 (.vcvt 1 3 1 3 3 2 6) ∧
    refused 0x71C39347 (.vcvtu 1 6 0 0 7 2 6) ∧ refused 0xCF029943 (.vtunp 7 5 3 2) :=
  ⟨⟨rfl, rfl, rfl⟩, ⟨rfl, rfl, rfl⟩, ⟨rfl, rfl, rfl⟩, ⟨rfl, rfl, rfl⟩, ⟨rfl, rfl, rfl⟩, ⟨rfl, rfl, rfl⟩, ⟨rfl, rfl, rfl⟩, ⟨rfl, rfl, rfl⟩⟩

/-- Register groups: four registers reach past s23, or five start at s0 (R288, R400). -/
theorem test_refusedGroups :
    refused 0x00A24AE3 (.spawn 20 9 21) ∧ refused 0x00024AE7 (.sendLo 9 21) ∧ refused 0x38AA4463 (.txrecon 21 9 8) ∧
    refused 0x30A24063 (.txsub 20 9 0) ∧ refused 0x08000A67 (.recv 20) :=
  ⟨⟨rfl, rfl, rfl⟩, ⟨rfl, rfl, rfl⟩, ⟨rfl, rfl, rfl⟩, ⟨rfl, rfl, rfl⟩, ⟨rfl, rfl, rfl⟩⟩

/-- No wait at all in a fence, and a special register that R185 does not list. -/
theorem test_refusedSystem :
    refused 0x0800006B (.qfence 0) ∧ refused 0x500064EB (.mfs 0x006 9) ∧ refused 0x581003EB (.mts 0x100 7) :=
  ⟨⟨rfl, rfl, rfl⟩, ⟨rfl, rfl, rfl⟩, ⟨rfl, rfl, rfl⟩⟩

/-- A hint of zero is the word of `nop`, so `hint` stands for the others only (R177). -/
theorem test_hintZero : (Instr.hint 0).wellFormed = false ∧ reads 0x0000003F .nop := ⟨rfl, rfl⟩

/-! ## The first step after reset -/

/-- What the boot core's slot 0 holds after one step of the package with a word placed where it fetches. -/
noncomputable def firstStep (w : Nat) : Option (Word × Word) :=
  match step (State.reset.withFetchWord 32 w) with
  | .next t => some ((t.thread 0 0).pc, (t.thread 0 0).sreg 0 10)
  | _ => none

/-- `addi` 42 to s0, placed where the boot core fetches: s10 holds 42 and the PC has moved on (R7, R31, R193, R343). -/
theorem test_firstStep : firstStep 0x02A00507 = some (0x84, 42) := by
  decide +kernel
end Sys2Proof.Tests
end

section
/-!
Every outcome goes on (R171): each row of the opcode table, and so each step, ends in a next state.
-/

namespace Sys2Proof.Machine

open Sys2Proof

theorem Out.goesOn_iff (o : Out) : o.goesOn = true ↔ ∃ t, o = .next t := by
  cases o <;> simp [Out.goesOn]

@[simp] theorem Out.goesOn_next (s : State) : Out.goesOn (.next s) = true := rfl

@[simp] theorem issue_goesOn (k : Issue) (s : State) (body : State → Except Stop State) : Out.goesOn (issue k s body) = true := rfl

@[simp] theorem trapNext_goesOn (c : Code) (code : Nat) (imm : BitVec 12) (s : State) : Out.goesOn (trapNext c code imm s) = true := rfl

@[simp] theorem State.regEvent_goesOn (s : State) (master off : Nat) (v : Word) : Out.goesOn (s.regEvent master off v) = true := rfl

/-- A block write of the host that is held back or refused goes on as well (R36, R331). -/
@[simp] theorem PortAnswer.forHost_goesOn (a : PortAnswer) (s : State) : Out.goesOn (a.forHost s) = true := by
  cases a <;> rfl

/-- Most rows have one outcome and go on by computation. The others are grouped by what they choose their next state by. -/
theorem exec_goesOn (i : Instr) (s : State) : Out.goesOn (exec i s) = true := by
  cases i with
  -- the word halts for the debugger or traps (R224)
  | bkpt =>
    unfold exec
    dsimp only [execBkpt]
    split <;> simp
  -- a write that is not allowed leaves the state as it is (R312, R331)
  | launchHeaderWrite | shapeRecordWrite | hwLimitWrite | controlRegisterWrite =>
    unfold exec
    dsimp only [execLaunchHeaderWrite, execShapeRecordWrite, execHwLimitWrite, execControlRegisterWrite]
    split <;> simp
  -- the packet that the index names, if it is one of this row
  | stealRequestServe | stealReply | joinDecrement | spawnAtArrival | spawnAtReturn | messageDelivery | bounceReturn |
    barrierArrival | lockRequestArrival | sealArrival | frameNoticeArrival | grantLanding | commitSegmentArrival |
    tileRelease =>
    unfold exec
    dsimp only [execStealRequestServe, execStealReply, execJoinDecrement, execSpawnAtArrival, execSpawnAtReturn,
      execMessageDelivery, execBounceReturn, execBarrierArrival, execLockRequestArrival, execSealArrival,
      execFrameNoticeArrival, execGrantLanding, execCommitSegmentArrival, execTileRelease]
    repeat' split
    all_goals rfl
  -- the access on its way that the index names, if its kind and stage are those of this row
  | lineFill | loadResponse | homeAccess | writebackArrival | acknowledgementArrival | homeAtomic | atomicResult |
    windowAccessArrival | accessRefusalResponse | fabricFlowTimeout =>
    unfold exec
    dsimp only [execLineFill, execLoadResponse, execHomeAccess, execWritebackArrival, execAcknowledgementArrival,
      execHomeAtomic, execAtomicResult, execWindowAccessArrival, execAccessRefusalResponse, execFabricFlowTimeout]
    repeat' split
    all_goals rfl
  -- the operation that stands at a place of an engine queue, if there is one
  | engineOpBegin | engineOpPerformed | engineHandback =>
    unfold exec
    dsimp only [execEngineOpBegin, execEngineOpPerformed, execEngineHandback]
    split <;> rfl
  -- the work at hand for a slot, a dispenser or the Scarab, if there is any
  | dispenserPlace | runListResume | dequePop | scarabNumbering | transactionDispatch | transactionFrameFree =>
    unfold exec
    dsimp only [execDispenserPlace, execRunListResume, execDequePop, execScarabNumbering, execTransactionDispatch,
      execTransactionFrameFree]
    repeat' split
    all_goals rfl
  -- the state of the slot
  | handbackTrap | trapEntry =>
    unfold exec
    dsimp only [execHandbackTrap, execTrapEntry]
    split <;> rfl
  -- the storage command that the event is about, if it is in flight
  | nvmeCompletion | storageCompletionDelivery | nvmeCommandTimeout | nvmeControllerLost =>
    unfold exec
    dsimp only [execNvmeCompletion, execStorageCompletionDelivery, execNvmeCommandTimeout, execNvmeControllerLost]
    repeat' split
    all_goals rfl
  -- one outcome
  | _ => rfl

/-! ## A step -/

/-- A fetched word is executed, or is illegal; a fetch that fails stops as its reason says (R171, R172). -/
theorem issueWord_goesOn (s : State) : Out.goesOn (issueWord s) = true := by
  unfold issueWord
  split
  · rfl
  · split
    · exact exec_goesOn _ _
    · rfl

theorem execTrapEntry_goesOn (n i : Nat) (s : State) : Out.goesOn (execTrapEntry n i s) = true := exec_goesOn (.trapEntry n i) s

theorem execHandbackTrap_goesOn (n i : Nat) (s : State) : Out.goesOn (execHandbackTrap n i s) = true :=
  exec_goesOn (.handbackTrap n i) s

theorem slotCycle_goesOn (s : State) : Out.goesOn (slotCycle s) = true := by
  unfold slotCycle
  split
  · exact execTrapEntry_goesOn _ _ _
  · split
    · rfl
    · split
      · exact execHandbackTrap_goesOn _ _ _
      · exact issueWord_goesOn s
  · split
    · exact execHandbackTrap_goesOn _ _ _
    · exact issueWord_goesOn s
  · rfl

theorem afterSlot_goesOn (n : Nat) {o : Out} (h : o.goesOn = true) : Out.goesOn (afterSlot n o) = true := by
  obtain ⟨t, rfl⟩ := (Out.goesOn_iff o).1 h
  rfl

theorem coreCycle_goesOn (n : Nat) (s : State) : Out.goesOn (coreCycle n s) = true := by
  unfold coreCycle
  split
  · rfl
  · split
    · rfl
    · exact afterSlot_goesOn n (slotCycle_goesOn _)

/-- The turn of a core is its cycle, that of another agent its row; what comes from outside changes the state at once. -/
theorem step_goesOn (s : State) : Out.goesOn (step s) = true := by
  unfold step
  split
  · exact coreCycle_goesOn _ _
  · rfl
  · split
    · rfl
    · exact exec_goesOn _ _

/-- Settles O7: every row of the opcode table goes on, hence every turn of the schedule does. -/
theorem nothingStops : Obligations.NothingStops := by
  unfold Obligations.NothingStops
  exact ⟨fun i s => (Out.goesOn_iff _).1 (exec_goesOn i s), fun s => (Out.goesOn_iff _).1 (step_goesOn s)⟩

end Sys2Proof.Machine
end

section
/-!
What reset leaves (R7, R343, R353), read off the state of `State.resetOf`; and what `mfs` reads (R222).
-/

namespace Sys2Proof.Machine

open Sys2Proof

/-! ## Reading a special register (R222) -/

@[simp] theorem State.co_live (s : State) : s.live.co = s.co.setThread s.cur.2 s.th.live := by simp [State.live]

@[simp] theorem State.cid_live (s : State) : s.live.cid s.cur.1 = s.cid s.cur.1 := by
  have h : (s.live.core s.cur.1).lcore = (s.core s.cur.1).lcore := by
    change s.live.co.lcore = s.co.lcore
    simp
  rw [State.cid, h]
  rfl

/-- A thread that issued shows the special registers it had, but for FLU, which asks which slots hold tasks. -/
theorem State.readSpr_live (s : State) {n : Nat} (hn : n ≠ 0x020) : s.live.readSpr n = s.readSpr n := by
  unfold State.readSpr
  simp only [State.co_live, State.th_live, State.cur_live, State.cid_live]
  split
  case h_17 => exact absurd rfl hn
  all_goals rfl

/-- A thread that waits for nothing and has no value of ACC under way reads a special register that it may read. -/
theorem exec_mfs_plain {s : State} (h : s.plain) (hq : s.th.accQ = []) {n : BitVec 12} (hb : s.sprBar n = none) (d : BitVec 5) :
    exec (.mfs n d) s = .next (Claims.wrote s d.toNat (s.live.readSpr n.toNat) 4) := by
  change execMfs n d s = _
  unfold execMfs
  rw [issue_writes h _ hb d.toNat (s.live.readSpr n.toNat) rfl]
  · rfl
  · simp [hq, Thread.live, pure, Except.pure]

/-! ## The cores of reset -/

theorem Core.reset_threads_of_fused {fused : List Nat} {n : Nat} (h : n ∈ fused) : (Core.reset fused n).threads = [] := by
  simp [Core.reset, h]

/-- Slot 0 of an enabled core has the boot program, and no other slot is listed. -/
theorem Core.reset_threads_of_enabled {fused : List Nat} {n : Nat} (hn : n < 2048) (h : n ∉ fused) :
    (Core.reset fused n).threads = [(0, Thread.boot (if n = bootSite fused then 1 else 0))] := by
  simp [Core.reset, hn, h]

theorem State.core_resetOf (fused : List Nat) (n : Nat) : (State.resetOf fused).core n = Core.reset fused n := rfl

theorem State.thread_resetOf_of_fused {fused : List Nat} {n : Nat} (h : n ∈ fused) (i : Nat) :
    (State.resetOf fused).thread n i = {} := by
  simp [State.thread, State.core_resetOf, Core.thread, Core.reset_threads_of_fused h, tblGet, tblFind]

theorem State.thread_resetOf_zero {fused : List Nat} {n : Nat} (hn : n < 2048) (h : n ∉ fused) :
    (State.resetOf fused).thread n 0 = Thread.boot (if n = bootSite fused then 1 else 0) := by
  simp [State.thread, State.core_resetOf, Core.thread, Core.reset_threads_of_enabled hn h, tblGet, tblFind]

theorem State.thread_resetOf_of_ne {fused : List Nat} {n i : Nat} (hn : n < 2048) (h : n ∉ fused) (hi : i ≠ 0) :
    (State.resetOf fused).thread n i = {} := by
  simp [State.thread, State.core_resetOf, Core.thread, Core.reset_threads_of_enabled hn h, tblGet, tblFind, hi]

/-- The boot core is the first enabled site (R25, R343). -/
theorem eq_bootSite_iff {fused : List Nat} {n : Nat} (hn : n < 2048) (h : n ∉ fused) :
    n = bootSite fused ↔ ∀ m < n, m ∈ fused := by
  have hfind (i : Nat) : (List.range 2048).find? (fun n => !fused.contains n) = some i ↔
      i < 2048 ∧ i ∉ fused ∧ ∀ m < i, m ∈ fused := by
    simp only [List.find?_range_eq_some, List.mem_range, List.contains_eq_mem, Bool.not_eq_true', Bool.not_eq_false',
      decide_eq_false_iff_not, decide_eq_true_eq]
    tauto
  constructor
  · intro e
    cases hf : (List.range 2048).find? (fun n => !fused.contains n) with
    | none => simpa [h] using List.find?_eq_none.1 hf n (List.mem_range.2 hn)
    | some i =>
      have : n = i := by rw [e, bootSite, hf]; rfl
      exact this ▸ ((hfind i).1 hf).2.2
  · intro hm
    rw [bootSite, (hfind n).2 ⟨hn, h, hm⟩]
    rfl

/-! ## The boot thread -/

theorem Thread.tblGet_boot_glob (x : Word) (r : Nat) : tblGet 0 r (Thread.boot x).glob = if r = 1 then x else 0 := by
  rw [Thread.boot]
  by_cases h : x = 0
  · simp only [h, if_true, ite_self]; rfl
  · simp only [h, if_false, tblGet, tblFind]
    split <;> rfl

/-- s1 tells the boot core from the others (R343, R353). -/
theorem Thread.boot_s1 (x : Word) (i : Nat) : (Thread.boot x).sreg i 1 = x :=
  Thread.tblGet_boot_glob x 1

/-- The other registers hold 0 (log entry 5). -/
theorem Thread.boot_sreg (x : Word) {r : Nat} (i : Nat) (hr : r < 31) (h1 : r ≠ 1) : (Thread.boot x).sreg i r = 0 := by
  have hw (k : Nat) : tblGet 0 k (Thread.boot x).win = 0 := rfl
  simp only [Thread.sreg, hw, Thread.tblGet_boot_glob, if_neg h1, if_neg (show r ≠ 31 by omega), ite_self]

theorem plain_of_boot {s : State} {x : Word} (h : s.th = Thread.boot x) : s.plain := by
  simp only [State.plain, h]
  exact ⟨rfl, rfl, rfl, rfl, rfl, rfl⟩

/-! ## The special registers of reset (R185) -/

/-- Special registers of a boot thread, with their reset values. -/
def resetSprs : List (BitVec 12 × Word) :=
  [(0x001, 0x686), (0x002, 0), (0x003, 0x10000 + 0x10000 * 2 ^ 19 + 0x80000 * 2 ^ 38), (0x004, 16), (0x005, 0), (0x010, 0), (0x014, 0),
    (0x015, 0), (0x016, 1), (0x018, 0), (0x040, 0), (0x080, 0), (0x081, 0), (0x083, 0)]

/-- LSMAP of the reset partition: 16 regions of 4 KiB, no frame and no Hive (R101, R103). -/
theorem Core.reset_lsmap (fused : List Nat) (n : Nat) :
    (Core.reset fused n).lsmap = 0x10000 + 0x10000 * 2 ^ 19 + 0x80000 * 2 ^ 38 := by
  have h : (0x10000 + 0x10000 * 2 ^ 19 + 0x80000 * 2 ^ 38 : Word) = 0x0200000800010000 := by decide
  rw [h]
  simp [Core.lsmap, Core.txb, Core.scrb, Core.hvb, Core.reset]

theorem Core.reset_lsp (fused : List Nat) (n : Nat) : (Core.reset fused n).lsp = 16 := by simp [Core.lsp, Core.reset]

/-- No Hive table is claimed (R284). -/
theorem Core.reset_hvc (fused : List Nat) (n : Nat) : (Core.reset fused n).hvc = 0 := by simp [Core.hvc, Core.reset, b2n]

theorem Core.reset_thb (fused : List Nat) (n : Nat) :
    (Core.reset fused n).thbBase ++ (if (Core.reset fused n).thbEn then 1#8 else 0#8) = 0 := by simp [Core.reset]

theorem Thread.boot_cntr (x : Word) : (Thread.boot x).cntr = 0 := by simp [Thread.cntr, Thread.boot]

/-- Each register of `resetSprs` is listed and is not FLU, and a boot thread shows its reset value. -/
theorem resetSprs_read {x : BitVec 12 × Word} (hx : x ∈ resetSprs) :
    sprListed x.1 = true ∧ x.1.toNat ≠ 0x020 ∧ ∀ (s : State) (fused : List Nat) (n : Nat) (b : Word),
      s.co = Core.reset fused n → s.th = Thread.boot b → s.readSpr x.1.toNat = x.2 := by
  simp only [resetSprs, List.mem_cons, List.not_mem_nil, or_false] at hx
  rcases hx with rfl | rfl | rfl | rfl | rfl | rfl | rfl | rfl | rfl | rfl | rfl | rfl | rfl | rfl
  all_goals
    refine ⟨by decide, by decide, fun s fused n b hc ht => ?_⟩
    simp only [State.readSpr, hc, ht, Core.reset_lsp, Core.reset_hvc, Core.reset_thb, Core.reset_lsmap, Thread.boot_cntr]
    rfl

/-- Firmware privilege reads every register that is listed (R185, R222). -/
theorem State.sprBar_of_priv {s : State} (h : s.th.priv = true) {n : BitVec 12} (hn : sprListed n = true) : s.sprBar n = none := by
  simp [State.sprBar, State.privBar, h, hn]

/-- The boot thread of an enabled core reads its special registers (R222, R343). -/
theorem exec_mfs_of_boot {s : State} {fused : List Nat} {n : Nat} {b : Word} (hc : s.co = Core.reset fused n)
    (ht : s.th = Thread.boot b) {x : BitVec 12 × Word} (hx : x ∈ resetSprs) (d : BitVec 5) :
    exec (.mfs x.1 d) s = .next (Claims.wrote s d.toNat x.2 4) := by
  obtain ⟨hlisted, hflu, hread⟩ := resetSprs_read hx
  rw [exec_mfs_plain (plain_of_boot ht) (by rw [ht]; rfl) (State.sprBar_of_priv (by rw [ht]; rfl) hlisted) d,
    State.readSpr_live s hflu, hread s fused n b hc ht]

/-! ## The obligation -/

/-- Settles O3: the fields of the state at once, the slots by whether their site is fused off. -/
theorem resetState : Obligations.ResetState := by
  unfold Obligations.ResetState
  refine ⟨rfl, fun fused => ⟨rfl, rfl, rfl, rfl, rfl, rfl, rfl, rfl, rfl, resetOf_memWf fused, rfl, fun n h i => ?fusedOff,
    fun n hn h => ?enabled⟩⟩
  case fusedOff => rw [State.thread_resetOf_of_fused h i]
  case enabled =>
    have ht := State.thread_resetOf_zero hn h
    refine ⟨if_pos hn, rfl, ?_⟩
    rw [ht]
    refine ⟨rfl, rfl, rfl, ?s1, fun r hr h1 => Thread.boot_sreg _ 0 hr h1, fun i _ hi => ?otherSlots, fun x hx d => ?special⟩
    case s1 => simp only [Thread.boot_s1, eq_bootSite_iff hn h]
    case otherSlots => rw [State.thread_resetOf_of_ne hn h hi]
    case special => exact exec_mfs_of_boot (s := { State.resetOf fused with cur := (n, 0) }) rfl ht hx d

end Sys2Proof.Machine
end

section
/-!
Power-on and reset (R334, R338, R342, R343, R448): what the reset state takes over, and the first sample of the sensors.
-/

namespace Sys2Proof.Machine

open Sys2Proof

/-! ## The hottest sensor (R336) -/

/-- The reading of the hottest sensor found so far; 0 while none is. -/
def Cold.readingOf (c : Cold) : Option Nat → Nat
  | none => 0
  | some i => c.temps.getD i 0

/-- One step of the search for the hottest sensor. -/
def Cold.hotter (c : Cold) (best : Option Nat) (i : Nat) : Option Nat :=
  match best with
  | none => some i
  | some j => if c.temps.getD j 0 < c.temps.getD i 0 then some i else some j

theorem Cold.hottest_eq (c : Cold) : c.hottest = c.inService.foldl c.hotter none := rfl

theorem Cold.readingOf_hotter (c : Cold) (best : Option Nat) (i : Nat) :
    c.readingOf (c.hotter best i) = max (c.readingOf best) (c.temps.getD i 0) := by
  cases best with
  | none => simp [Cold.hotter, Cold.readingOf]
  | some j =>
    simp only [Cold.hotter]
    split <;> simp only [Cold.readingOf] <;> omega

theorem Cold.readingOf_foldl_hotter (c : Cold) (l : List Nat) (best : Option Nat) :
    c.readingOf (l.foldl c.hotter best) = (l.map (fun i => c.temps.getD i 0)).foldl max (c.readingOf best) := by
  induction l generalizing best with
  | nil => rfl
  | cons i l ih => rw [List.foldl_cons, ih, Cold.readingOf_hotter, List.map_cons, List.foldl_cons]

theorem Cold.foldl_hotter_some (c : Cold) (l : List Nat) (j : Nat) : ∃ i, l.foldl c.hotter (some j) = some i := by
  induction l generalizing j with
  | nil => exact ⟨j, rfl⟩
  | cons i l ih =>
    simp only [List.foldl_cons, Cold.hotter]
    split
    · exact ih i
    · exact ih j

theorem map_getD_range {l : List Nat} {n : Nat} (h : l.length = n) (d : Nat → Nat) :
    (List.range n).map (fun i => l.getD i (d i)) = l := by
  apply List.ext_getElem
  · simp [h]
  · intro i h1 h2
    simp [h2]

/-- Among sensors that are all in service there is a hottest one, and it has the highest of the readings. -/
theorem Cold.hottest_of_all (c : Cold) (h : c.failed = []) (hl : c.temps.length = 64) :
    ∃ i, c.hottest = some i ∧ c.temps.getD i 0 = Claims.hottest c.temps := by
  have hs : c.inService = 0 :: List.range' 1 63 := by simp only [Cold.inService, h]; rfl
  obtain ⟨i, hi⟩ : ∃ i, c.hottest = some i := by
    rw [Cold.hottest_eq, hs]
    exact c.foldl_hotter_some _ 0
  have hr := c.readingOf_foldl_hotter c.inService none
  rw [← Cold.hottest_eq, hi, hs, show 0 :: List.range' 1 63 = List.range 64 from rfl, map_getD_range hl] at hr
  exact ⟨i, hi, hr⟩

/-! ## The temperature unit after a reset -/

section
variable (readings failed : List Nat) (trainFails : Tbl Nat) (trip : Option (Nat × Nat × Nat × Nat)) (powerTime : Nat)

theorem bootCold_failed : (bootCold readings failed trainFails trip powerTime).failed = failed := by
  simp only [bootCold]; split <;> rfl

theorem bootCold_trip : (bootCold readings failed trainFails trip powerTime).trip = trip := by
  simp only [bootCold]; split <;> rfl

theorem bootCold_under : (bootCold readings failed trainFails trip powerTime).under = false := by
  simp only [bootCold]; split <;> rfl

end

/-- With every sensor in service the highest reading of the first sample decides the Molt (R338). -/
theorem bootCold_molt {readings : List Nat} (h : readings.length = 64) (trainFails : Tbl Nat)
    (trip : Option (Nat × Nat × Nat × Nat)) (powerTime : Nat) :
    (bootCold readings [] trainFails trip powerTime).molt =
      if 2240 < Claims.hottest readings then .warmService else if 1424 < Claims.hottest readings then .cooling else .soak := by
  have hsample (c : Cold) : c.sample readings = readings := map_getD_range h _
  simp only [bootCold, hsample]
  obtain ⟨i, hi, hr⟩ := Cold.hottest_of_all
    { failed := [], trainFails := trainFails, trip := trip, powerTime := powerTime, temps := readings, minute := readings } rfl h
  simp only [hi, hr]

/-- A reset gives the reset state but for what it does not reach (R343, R344, R443). -/
theorem State.resetWith_afterReset (s : State) {c : Cold} (ht : c.trip = s.cold.trip) (hu : c.under = false) :
    Claims.afterReset s (s.resetWith c) :=
  ⟨rfl, rfl, rfl, rfl, rfl, rfl, rfl, rfl, rfl, rfl, rfl, rfl, rfl, rfl, rfl, rfl, rfl, rfl, rfl, rfl, rfl, rfl, ht, hu⟩

/-! ## The events -/

theorem exec_powerOn {s : State} (h : s.on = false) (readings : List Nat) :
    exec (.powerOn readings) s = .next (s.resetWith (bootCold readings [] [] s.cold.trip 0)) := by
  change execPowerOn readings s = _
  simp [execPowerOn, h]

theorem exec_packageReset {s : State} (h : s.on = true) (readings : List Nat) :
    exec (.packageReset readings) s =
      .next (s.resetWith (bootCold readings s.cold.failed s.cold.trainFails s.cold.trip s.cold.powerTime)) := by
  change execPackageReset readings s = _
  simp [execPackageReset, h]

theorem exec_unitPowerUp {s : State} (h : s.alive = true) : exec .unitPowerUp s = .next s.powerUnit := by
  change execUnitPowerUp s = _
  simp [execUnitPowerUp, h]

theorem exec_packagePowerCap {s : State} (h : s.on = true) (b : Bool) :
    exec (.packagePowerCap b) s = .next { s with cold := { s.cold with overCap := b } } := by
  change execPackagePowerCap b s = _
  simp [execPackagePowerCap, h]

/-- Stacks and clusters come first (R342). -/
theorem State.powerUnit_unit {s : State} (h : s.powered < 136) : s.powerUnit = { s with powered := s.powered + 1 } := by
  simp [State.powerUnit, h]

/-- The arrays are released after them (R335, R342). -/
theorem State.powerUnit_array {s : State} (h : 136 ≤ s.powered) (ha : s.arrays < 128) (hh : s.cold.holdOff = false)
    (hb : s.cold.band ≠ 2) : s.powerUnit = { s with arrays := s.arrays + 1 } := by
  simp [State.powerUnit, Nat.not_lt.2 h, ha, State.mayRelease, hh, hb]

theorem powerAndReset : Claims.PowerAndReset := by
  intro s readings
  refine ⟨fun h hl => ?powerOn, fun h => ?reset, rfl, fun h => ⟨fun hp => ?unit, fun hp ha hh hb => ?array⟩,
    fun b h => exec_packagePowerCap h b⟩
  case powerOn =>
    exact ⟨_, exec_powerOn h readings, s.resetWith_afterReset (bootCold_trip ..) (bootCold_under ..), bootCold_failed ..,
      bootCold_molt hl ..⟩
  case reset =>
    exact ⟨_, exec_packageReset h readings, s.resetWith_afterReset (bootCold_trip ..) (bootCold_under ..), bootCold_failed ..⟩
  case unit => rw [exec_unitPowerUp h, State.powerUnit_unit hp]
  case array => rw [exec_unitPowerUp h, State.powerUnit_array hp ha hh hb]

end Sys2Proof.Machine
end

section
/-!
The voltage governors of the arrays (R411, R445).
-/

namespace Sys2Proof.Machine

open Sys2Proof

/-! ## Records and counts -/

@[simp] theorem State.core_govRec (s : State) (n kind v m : Nat) : (s.govRec n kind v).core m = s.core m := rfl

/-- A governor's record enters the queue of its core's cluster. -/
theorem State.errQ_govRec (s : State) (n kind v : Nat) :
    ∃ r : ErrRec, ((s.govRec n kind v).cluster (clusterOf n)).errQ = (s.cluster (clusterOf n)).errQ ++ [r] ∧ r.kind = kind ∧
      r.val2 = BitVec.ofNat 64 v := by
  refine ⟨{ bareRec kind 0 (BitVec.ofNat 64 (s.core n).lcore) (BitVec.ofNat 64 v) with core := (s.core n).lcore, cyc := (s.core n).cyc },
    ?_, rfl, rfl⟩
  simp [State.govRec, State.record, State.cluster, State.setCluster]

/-- The core with a governor. -/
def Core.withGov (c : Core) (g : Gov) : Core := { c with gov := g }

@[simp] theorem Core.withGov_withGov (c : Core) (g g' : Gov) : (c.withGov g).withGov g' = c.withGov g' := rfl

/-- The governor with the corrections that are counted: those of this second so far, and j more (R411). -/
def Gov.counted (g : Gov) (j : Nat) : Gov := { g with count := g.count + j }

/-- A state in which another one's governor has counted j corrections more; other cores and the clusters are as before. -/
def Counts (s u : State) (n j : Nat) : Prop :=
  u.core n = (s.core n).withGov ((s.core n).gov.counted j) ∧ (∀ m, m ≠ n → u.core m = s.core m) ∧ ∀ k, u.cluster k = s.cluster k

/-- Corrections of the weight store of an array count for its governor (R411, R445). -/
theorem State.countCorrected_counts (s : State) {n : Nat} (hn : n < 2048) (j : Nat) (at_ : Word) :
    Counts s (s.countCorrected 6 n j at_) n j := by
  have hc : correctedAt 6 n = some (clusterOf n) := by simp [correctedAt]; omega
  simp only [State.countCorrected, hc, hn, Counts]
  exact ⟨State.core_setCore_self .., fun m hm => State.core_setCore_ne _ hm _, fun k => rfl⟩

/-- A second's end counts what the array corrected in it, then decides by the count alone. -/
theorem State.govTick_counts (s : State) {n : Nat} (hn : n < 2048) (j : Nat) : ∃ u, Counts s u n j ∧ s.govTick n j = u.govTick n 0 := by
  by_cases hj : j = 0
  · subst hj; exact ⟨s, ⟨rfl, fun _ _ => rfl, fun _ => rfl⟩, rfl⟩
  · refine ⟨_, s.countCorrected_counts hn j (Config.freeWord s.tick n), ?_⟩
    simp [State.govTick, hj]

/-! ## The end of a second, by its count (R445) -/

/-- A governor after a second with fewer than eight corrections. -/
def Gov.calmed (g : Gov) : Gov :=
  let quiet := if g.count = 0 then g.quiet + 1 else 0
  { g with count := 0, quiet := quiet, prev := if g.prev = 2 then 2 else 0
           step := if !g.frozen && decide (60 ≤ quiet) && decide (g.step < 6) then g.step + 1 else g.step }

theorem Gov.calmed_step_of_frozen {g : Gov} (h : g.frozen = true) : g.calmed.step = g.step := by simp [Gov.calmed, h]

/-- The sixtieth quiet second raises the step of a governor that is not frozen. -/
theorem Gov.calmed_step_of_quiet {g : Gov} (hc : g.count = 0) (hf : g.frozen = false) (hq : 59 ≤ g.quiet) (hs : g.step < 6) :
    g.calmed.step = g.step + 1 := by simp [Gov.calmed, hc, hf, hq, hs]

section
variable {u : State} {n : Nat}

/-- Eight corrections or more lower a step that is above 0 and freeze it. -/
theorem State.govTick_lowers (h : 8 ≤ (u.core n).gov.count) (hs : 0 < (u.core n).gov.step) :
    u.govTick n 0 = (u.govRec n 42 ((u.core n).gov.step - 1)).setCore n
      ((u.core n).withGov { step := (u.core n).gov.step - 1, frozen := true, quiet := 0, prev := 0, count := 0 }) := by
  simp [State.govTick, h, hs, Core.withGov]

/-- At step 0 a freeze that lasts a second such second is reported. -/
theorem State.govTick_reports (h : 8 ≤ (u.core n).gov.count) (hs : (u.core n).gov.step = 0) (hf : (u.core n).gov.frozen = true)
    (hp : (u.core n).gov.prev = 1) :
    u.govTick n 0 = (u.govRec n 43 (u.core n).gov.count).setCore n
      ((u.core n).withGov { (u.core n).gov with quiet := 0, prev := 2, count := 0 }) := by
  simp [State.govTick, h, hs, hf, hp, Core.withGov]

theorem State.govTick_calms (h : (u.core n).gov.count < 8) :
    u.govTick n 0 = u.setCore n ((u.core n).withGov (u.core n).gov.calmed) := by
  simp [State.govTick, h, Core.withGov, Gov.calmed]

end

/-- A second of a core's governor ends while the package has power. -/
theorem exec_governorTick {s : State} (h : s.alive = true) {n : Nat} (hn : n < 2048) (j : Nat) :
    exec (.governorTick n j) s = .next (s.govTick n j) := by
  change execGovernorTick n j s = _
  simp [execGovernorTick, h, hn]

theorem governors : Claims.Governors := by
  intro s n j ha hn
  obtain ⟨u, ⟨hu, hother, hcluster⟩, htick⟩ := s.govTick_counts hn j
  have hexec : exec (.governorTick n j) s = .next (u.govTick n 0) := by rw [exec_governorTick ha hn, htick]
  have hg : (u.core n).gov = (s.core n).gov.counted j := by rw [hu]; rfl
  have hput (v : State) (g : Gov) : (v.setCore n ((u.core n).withGov g)).core n = (s.core n).withGov g := by simp [hu]
  have hkept (v : State) (hv : ∀ m, v.core m = u.core m) (c : Core) (m : Nat) (hm : m ≠ n) : (v.setCore n c).core m = s.core m := by
    rw [State.core_setCore_ne _ hm, hv, hother m hm]
  refine ⟨fun hk hs => ?lowers, fun hk hs hf hp => ?reports, fun hk hf hq hs => ?raises, fun hk hf => ?frozen⟩
  case lowers =>
    obtain ⟨r, hr, hkind, hval⟩ := u.errQ_govRec n 42 ((u.core n).gov.step - 1)
    rw [State.govTick_lowers (by rw [hg]; exact hk) (by rw [hg]; exact hs)] at hexec
    rw [hcluster] at hr
    refine ⟨_, r, hexec, ?_, hr, hkind, ?_, hkept _ (fun _ => rfl) _⟩
    · rw [hput, hg]; rfl
    · rw [hval, hg]; rfl
  case reports =>
    obtain ⟨r, hr, hkind, hval⟩ := u.errQ_govRec n 43 (u.core n).gov.count
    rw [State.govTick_reports (by rw [hg]; exact hk) (by rw [hg]; exact hs) (by rw [hg]; exact hf) (by rw [hg]; exact hp)] at hexec
    rw [hcluster] at hr
    refine ⟨_, r, hexec, ?_, hr, hkind, ?_, hkept _ (fun _ => rfl) _⟩
    · rw [hput, hg]; rfl
    · rw [hval, hg]; rfl
  case raises =>
    rw [State.govTick_calms (by rw [hg]; simp only [Gov.counted]; omega)] at hexec
    refine ⟨_, hexec, ?_, ?_, hkept _ (fun _ => rfl) _⟩
    · rw [hput, hg]; exact Gov.calmed_step_of_quiet hk hf hq hs
    · rw [hput]; rfl
  case frozen =>
    rw [State.govTick_calms (by rw [hg]; exact hk)] at hexec
    refine ⟨_, hexec, ?_, ?_⟩
    · rw [hput, hg]; exact Gov.calmed_step_of_frozen hf
    · rw [hput, hg]; exact hf

/-- Settles O56: the two parts above. -/
theorem powerAndGovernors : Obligations.PowerAndGovernors := by
  unfold Obligations.PowerAndGovernors
  exact ⟨powerAndReset, governors⟩

end Sys2Proof.Machine
end

section
/-!
Special registers (R185, R222, R223): what `mfs` reads and what `mts` leaves, first for any register and then for each kind of them.
-/

namespace Sys2Proof.Machine

open Sys2Proof

/-! ## Fields of a word as numbers -/

theorem bits_toNat (x : Word) (lo len : Nat) : bits x.toNat lo len = (x.extractLsb' lo len).toNat := by
  rw [bits, BitVec.extractLsb'_toNat, Nat.shiftRight_eq_div_pow]

theorem bit_toNat (x : Word) (i : Nat) : bit x.toNat i = x.getLsbD i := by
  rw [bit, BitVec.getLsbD, Nat.testBit_eq_decide_div_mod_eq]

/-! ## What writing to a core or a cluster leaves alone -/

/-- A new core that keeps its weight store and its other threads disturbs nothing elsewhere. -/
theorem State.elsewhere_setCo {s : State} {c : Core} (hws : c.ws = s.co.ws)
    (hth : ∀ i, i ≠ s.cur.2 → c.thread i = s.co.thread i) : Claims.elsewhere s (s.setCo c) := by
  have hself : (s.setCo c).core s.cur.1 = c := State.core_setCore_self ..
  have hne (n : Nat) (hn : n ≠ s.cur.1) : (s.setCo c).core n = s.core n := State.core_setCore_ne _ hn _
  refine ⟨rfl, rfl, fun n => ?ws, fun n hn => by rw [hne n hn], fun n i hi => ?thread⟩
  case ws =>
    by_cases hn : n = s.cur.1
    · rw [hn, hself, hws, State.co]
    · rw [hne n hn]
  case thread =>
    by_cases hn : n = s.cur.1
    · have hi' : i ≠ s.cur.2 := fun e => hi (by rw [hn, e])
      rw [hn, State.thread, hself, hth i hi', State.co, State.thread]
    · rw [State.thread, hne n hn, State.thread]

/-- Replacing the issuing thread disturbs nothing elsewhere. -/
theorem State.elsewhere_setTh (s : State) (t : Thread) : Claims.elsewhere s (s.setTh t) :=
  State.elsewhere_setCo (c := s.co.setThread s.cur.2 t) rfl fun _ hi => Core.thread_setThread_ne _ hi t

/-! ## The issuing thread while its word acts -/

theorem regBad_live {s : State} (h : s.plain) : s.live.th.regBad = [] := by
  obtain ⟨-, hbad, -, -, -, -⟩ := h
  rw [State.th_live]
  exact hbad

theorem pair_live {s : State} (h : s.plain) : s.live.th.pair = 0 := by
  obtain ⟨-, -, hpair, -, -, -⟩ := h
  rw [State.th_live]
  exact hpair

theorem State.sreg_live (s : State) (n : Nat) : s.live.th.sreg s.live.cur.2 n = s.reg n := by
  rw [State.th_live, Thread.sreg_live]
  rfl

/-! ## A word that traps -/

/-- A trap of a thread that waits for nothing is taken at once; only spill exhaustion leaves more than the trap (R359, R428). -/
theorem State.stop_trap_plain {s : State} (h : s.plain) {code : Nat} (hc : code ≠ 16) (val : Word) :
    s.live.stop (.trap code val) = Claims.trapped s code val := by
  have hpc : s.live.th.pc = s.th.pc := by rw [State.th_live]; rfl
  simp only [State.stop, State.stopBy, State.gateTrap_alone (pair_live h), State.enterTrap, if_neg hc, hpc, Claims.trapped]

/-! ## Which registers a thread may name -/

section
variable {n : BitVec 12}

/-- A listed register that is not firmware's is open at every privilege. -/
theorem State.sprBar_of_open (s : State) (hl : sprListed n = true) (hf : sprFirmware.contains n.toNat = false) :
    s.sprBar n = none := by
  simp only [State.sprBar, hl, hf]
  rfl

theorem State.sprBar_of_unlisted (s : State) (hl : sprListed n = false) : s.sprBar n = some 1 := by simp [State.sprBar, hl]

/-- Every register that R185 marks FW is listed. -/
theorem sprListed_of_firmware (hf : n ∈ [0x004, 0x080, 0x081, 0x082, 0x083]) : sprListed n = true := by
  revert n
  decide

theorem State.sprBar_of_user {s : State} (hu : s.th.priv = false) (hf : n ∈ [0x004, 0x080, 0x081, 0x082, 0x083]) :
    s.sprBar n = some 2 := by
  have hc : sprFirmware.contains n.toNat = true := by
    revert n
    decide
  simp [State.sprBar, sprListed_of_firmware hf, State.privBar, hu, -List.contains_eq_mem, hc]

/-! ## Any register: `mfs` -/

/-- A register that the thread may read goes to sD; ACC waits for the values that are under way (R222). -/
theorem exec_mfs_open {s : State} (h : s.plain) (hb : s.sprBar n = none) (hq : n = 0x019 → s.th.accQ = []) (d : BitVec 5) :
    exec (.mfs n d) s = .next (Claims.wrote s d.toNat (s.live.readSpr n.toNat) 4) := by
  change execMfs n d s = _
  unfold execMfs
  rw [issue_writes h _ hb d.toNat (s.live.readSpr n.toNat) rfl]
  · rfl
  · have hq' : ¬ (n = 0x019 ∧ ¬ s.live.th.accQ.isEmpty) := by
      rintro ⟨rfl, he⟩
      simp [Thread.live, hq rfl] at he
    rw [if_neg hq']
    rfl

/-- The same for a register other than FLU, whose value does not depend on the slot's own state of rotation. -/
theorem exec_mfs_value {s : State} (h : s.plain) {v : Word} (hb : s.sprBar n = none) (hq : n = 0x019 → s.th.accQ = [])
    (hf : n.toNat ≠ 0x020) (hv : s.readSpr n.toNat = v) (d : BitVec 5) :
    exec (.mfs n d) s = .next (Claims.wrote s d.toNat v 4) := by
  rw [exec_mfs_open h hb hq, State.readSpr_live s hf, hv]

theorem exec_mfs_barred {s : State} (h : s.plain) {code : Nat} (hb : s.sprBar n = some code) (hc : code ≠ 16) (d : BitVec 5) :
    exec (.mfs n d) s = .next (Claims.trapped s code (Claims.word (.mfs n d))) := by
  change execMfs n d s = _
  unfold execMfs
  rw [issue_barred h _ code hb rfl rfl, State.stop_trap_plain h hc]
  rfl

/-! ## Any register: `mts` -/

theorem exec_mts_barred {s : State} (h : s.plain) {code : Nat} (hb : s.sprBar n = some code) (hc : code ≠ 16) (a : BitVec 5) :
    exec (.mts n a) s = .next (Claims.trapped s code (Claims.word (.mts n a))) := by
  change execMts n a s = _
  unfold execMts
  rw [issue_barred h _ code hb rfl rfl, State.stop_trap_plain h hc]
  rfl

/-- A value that the register refuses takes the operand trap (R391). -/
theorem exec_mts_refused {s : State} (h : s.plain) (hb : s.sprBar n = none) {a : BitVec 5}
    (hw : s.live.writeSpr n.toNat (s.reg a.toNat) = none) :
    exec (.mts n a) s = .next (Claims.trapped s 5 (Claims.word (.mts n a))) := by
  change execMts n a s = _
  unfold execMts
  rw [issue_plain h _ hb, State.readS_off (qmap_live h)]
  simp only [State.sreg_live, hw, finish_error, Issue.operand]
  rw [State.stop_trap_plain h (by decide)]
  rfl

/-- A value that the register takes: the thread goes on from the state that the write leaves. -/
theorem exec_mts_taken {s t : State} (h : s.plain) (hb : s.sprBar n = none) {a : BitVec 5}
    (hw : s.live.writeSpr n.toNat (s.reg a.toNat) = some t) (ht : t.th.regBad = []) :
    exec (.mts n a) s = .next (t.advance 4) := by
  change execMts n a s = _
  unfold execMts
  rw [issue_plain h _ hb, State.readS_off (qmap_live h)]
  have hr : t.th.healed (.spr n.toNat) = t.th.regBad := by rw [Thread.healed, ht]; rfl
  simp only [State.sreg_live, hw, hr, Issue.acts, if_true, finish_ok, State.advance, State.th_setTh, State.setTh_setTh]
  rfl

end

/-! ## Reads -/

/-- The registers that any thread reads are open to it, and show the values that R185 gives them. -/
theorem State.readSpr_of_mem_sprValues {s : State} {r : BitVec 12 × Word} (hr : r ∈ Claims.sprValues s) :
    s.sprBar r.1 = none ∧ r.1 ≠ 0x019 ∧ r.1.toNat ≠ 0x020 ∧ s.readSpr r.1.toNat = r.2 := by
  simp only [Claims.sprValues, List.mem_cons, List.not_mem_nil, or_false] at hr
  rcases hr with rfl | rfl | rfl | rfl | rfl | rfl | rfl | rfl | rfl | rfl | rfl | rfl | rfl | rfl
  all_goals exact ⟨s.sprBar_of_open rfl rfl, by simp, by simp, rfl⟩

/-- Firmware's registers show the values of R358 and R361. -/
theorem State.readSpr_of_mem_sprFirm {s : State} {r : BitVec 12 × Word} (hr : r ∈ Claims.sprFirm s) :
    r.1 ∈ [0x004, 0x080, 0x081, 0x082, 0x083] ∧ r.1 ≠ 0x019 ∧ r.1.toNat ≠ 0x020 ∧ s.readSpr r.1.toNat = r.2 := by
  simp only [Claims.sprFirm, List.mem_cons, List.not_mem_nil, or_false] at hr
  rcases hr with rfl | rfl | rfl | rfl | rfl
  all_goals exact ⟨by simp, by simp, by simp, rfl⟩

/-- An extension register goes to sD. -/
theorem exec_mfsE_plain {s : State} (h : s.plain) (e : BitVec 3) (d : BitVec 5) :
    exec (.mfsE e d) s = .next (Claims.wrote s d.toNat (s.th.ereg e.toNat) 4) := by
  change execMfsE e d s = _
  unfold execMfsE
  rw [issue_writes h _ rfl d.toNat (s.th.ereg e.toNat) rfl]
  · rfl
  · rw [State.th_live, Thread.ereg_live]

/-- An extension register takes sA. -/
theorem exec_mtsE_plain {s : State} (h : s.plain) (e : BitVec 3) (a : BitVec 5) :
    exec (.mtsE e a) s = .next (s.setTh ((s.th.setEreg e.toNat (s.reg a.toNat)).went 4)) := by
  change execMtsE e a s = _
  unfold execMtsE
  rw [issue_plain h _ rfl, State.readS_off (qmap_live h)]
  simp only [Issue.acts, if_true, finish_ok, State.advance, State.th_setTh, State.setTh_setTh, State.setTh_live, State.sreg_live]
  rw [State.th_live]
  rfl

theorem specialRegisterReads : Claims.SpecialRegisterReads := by
  intro s h d
  refine ⟨fun r hr => ?values, fun hp r hr => ?firmware, fun hu r hr => ?user, fun hq => ?acc, fun n hl => ?unlisted, fun e a => ?ext⟩
  case values =>
    obtain ⟨hb, hacc, hflu, hv⟩ := State.readSpr_of_mem_sprValues hr
    exact exec_mfs_value h hb (fun e => absurd e hacc) hflu hv d
  case firmware =>
    obtain ⟨hf, hacc, hflu, hv⟩ := State.readSpr_of_mem_sprFirm hr
    exact exec_mfs_value h (State.sprBar_of_priv hp (sprListed_of_firmware hf)) (fun e => absurd e hacc) hflu hv d
  case user =>
    obtain ⟨hf, -, -, -⟩ := State.readSpr_of_mem_sprFirm hr
    exact exec_mfs_barred h (State.sprBar_of_user hu hf) (by decide) d
  case acc => exact exec_mfs_value h (s.sprBar_of_open rfl rfl) (fun _ => hq) (by simp) rfl d
  case unlisted =>
    exact ⟨exec_mfs_barred h (s.sprBar_of_unlisted hl) (by decide) d, exec_mts_barred h (s.sprBar_of_unlisted hl) (by decide)⟩
  case ext => exact ⟨exec_mfsE_plain h e d, exec_mtsE_plain h e a⟩

/-! ## CID (R26) -/

/-- A die has 64 clusters. -/
theorem clusterOf_div {n : Nat} (hn : n < 2048) : clusterOf n / 64 = n / 1024 := by
  rw [clusterOf, if_pos hn]
  omega

theorem clusterOf_mod {n : Nat} (hn : n < 2048) : clusterOf n % 64 = n % 1024 / 32 / 4 * 8 + n % 32 / 4 := by
  rw [clusterOf, if_pos hn]
  omega

theorem cposOf_eq (n : Nat) : cposOf n = n % 1024 / 32 % 4 * 4 + n % 32 % 4 := by
  rw [cposOf]
  omega

theorem State.cid_eq_cidWord (s : State) {n : Nat} (hn : n < 2048) : s.cid n = Claims.cidWord s n := by
  simp only [State.cid, Claims.cidWord, clusterOf_div hn, clusterOf_mod hn, cposOf_eq, if_pos hn] <;> rfl

/-! ## The trace ring (R126 to R128) -/

/-- RTC, RTF, RTD0 and RTD1 are open, and show the ring. -/
theorem State.readSpr_of_mem_ringWords {s : State} {r : BitVec 12 × Word} (hr : r ∈ Claims.ringWords s.co.ring) :
    s.sprBar r.1 = none ∧ r.1 ≠ 0x019 ∧ r.1.toNat ≠ 0x020 ∧ s.readSpr r.1.toNat = r.2 := by
  simp only [Claims.ringWords, List.mem_cons, List.not_mem_nil, or_false] at hr
  rcases hr with rfl | rfl | rfl | rfl
  case inl =>
    refine ⟨s.sprBar_of_open rfl rfl, by simp, by simp, ?_⟩
    change s.co.ring.control = _
    simp only [Ring.control, b2n, Nat.mul_comm] <;> rfl
  all_goals exact ⟨s.sprBar_of_open rfl rfl, by simp, by simp, rfl⟩

/-! ## FLU (R163) -/

/-- Issuing leaves every core its number. -/
theorem State.numbered_live (s : State) (n : Nat) : (s.live.core n).numbered = (s.core n).numbered := by
  by_cases hn : n = s.cur.1
  · subst hn
    change s.live.co.numbered = s.co.numbered
    rw [State.co_live, Core.setThread_numbered]
  · rw [State.live, State.core_setTh_ne _ _ hn]

theorem State.coresOf_live (s : State) (k : Nat) : s.live.coresOf k = s.coresOf k := by
  simp only [State.coresOf]
  congr 1
  funext n
  simp only [State.enabled, State.numbered_live]
  rfl

theorem Thread.busyTask_iff (t : Thread) : t.busyTask = true ↔ Claims.holdsTask t := by
  unfold Thread.busyTask Claims.holdsTask
  cases t.run <;> simp

/-- A bit of a fold over a list, where each element sets it or leaves it. -/
theorem getLsbD_foldl_iff {α : Type} {w b : Nat} {g : BitVec w → α → BitVec w} {p : α → Prop}
    (hg : ∀ v x, (g v x).getLsbD b = true ↔ v.getLsbD b = true ∨ p x) (l : List α) (v : BitVec w) :
    (l.foldl g v).getLsbD b = true ↔ v.getLsbD b = true ∨ ∃ x ∈ l, p x := by
  induction l generalizing v with
  | nil => simp
  | cons x l ih => simp only [List.foldl_cons, ih, hg, List.exists_mem_cons_iff, or_assoc]

/-- FLU.LIVE has the flags of the slots that hold a task. -/
theorem State.getLsbD_fluLive (s : State) (k : Nat) {b : Nat} (hb : b < 6) :
    (s.fluLive k).getLsbD b = true ↔
      ∃ n ∈ s.coresOf k, ∃ i < 16, Claims.holdsTask (s.thread n i) ∧ (s.thread n i).flg.getLsbD b = true := by
  have hslot (n : Nat) (v : BitVec 6) (i : Nat) :
      (if (s.thread n i).busyTask then v ||| (s.thread n i).flg.extractLsb' 0 6 else v).getLsbD b = true ↔
        v.getLsbD b = true ∨ Claims.holdsTask (s.thread n i) ∧ (s.thread n i).flg.getLsbD b = true := by
    rw [← Thread.busyTask_iff]
    by_cases hbusy : (s.thread n i).busyTask = true <;> simp [hbusy, hb]
  have hcore (v : BitVec 6) (n : Nat) := getLsbD_foldl_iff (hslot n) (List.range 16) v
  simp only [State.fluLive, getLsbD_foldl_iff hcore, List.mem_range]
  simp

section
variable (s : State) (k : Nat)

theorem State.flu_stk : (s.flu k).extractLsb' 8 6 = (s.cluster k).stk := by
  ext i hi
  have hlive : (s.fluLive k).getLsbD (8 + i) = false := BitVec.getLsbD_of_ge _ _ (by omega)
  have hin : 8 + i < 64 ∧ i < 64 := by omega
  simp [State.flu, hlive, hin, BitVec.getLsbD_eq_getElem hi]

/-- Bits 7 and 6 are reserved. -/
theorem State.flu_gap : (s.flu k).extractLsb' 6 2 = 0 := by
  ext i hi
  simp [State.flu]
  omega

theorem State.flu_high : (s.flu k).extractLsb' 14 50 = 0 := by
  ext i hi
  have hlive : (s.fluLive k).getLsbD (14 + i) = false := BitVec.getLsbD_of_ge _ _ (by omega)
  have hstk : (s.cluster k).stk.getLsbD (14 + i - 8) = false := BitVec.getLsbD_of_ge _ _ (by omega)
  simp [State.flu, hlive, hstk]

theorem State.getLsbD_flu {b : Nat} (hb : b < 6) : (s.flu k).getLsbD b = (s.fluLive k).getLsbD b := by
  have hin : b < 8 ∧ b < 64 := by omega
  simp [State.flu, hin]

end

theorem unitRegisterReads : Claims.UnitRegisterReads := by
  intro s h d
  refine ⟨fun hn => ?cid, fun r hr => ?ring, s.live.flu (clusterOf s.cur.1), ?flu, State.flu_stk _ _, State.flu_gap _ _,
    State.flu_high _ _, fun b hb => ?live⟩
  case cid =>
    exact exec_mfs_value (n := 0x000) h (s.sprBar_of_open rfl rfl) (fun e => absurd e (by decide)) (by simp)
      (s.cid_eq_cidWord hn) d
  case ring =>
    obtain ⟨hb, hacc, hflu, hv⟩ := State.readSpr_of_mem_ringWords hr
    exact exec_mfs_value h hb (fun e => absurd e hacc) hflu hv d
  case flu => exact exec_mfs_open h (s.sprBar_of_open rfl rfl) (fun e => absurd e (by decide)) d
  case live => rw [State.getLsbD_flu _ _ hb, State.getLsbD_fluLive _ _ hb, State.coresOf_live]

/-! ## Writes that stay in the thread -/

/-- A write that leaves another thread in the slot (R223). -/
theorem exec_mts_thread {s : State} (h : s.plain) {n : BitVec 12} (hb : s.sprBar n = none) {a : BitVec 5} (u : Thread)
    (hw : s.live.writeSpr n.toNat (s.reg a.toNat) = some (s.live.setTh u.live)) (hu : u.regBad = []) :
    exec (.mts n a) s = .next (s.setTh (u.went 4)) := by
  rw [exec_mts_taken h hb hw (by rw [State.th_setTh]; exact hu)]
  simp only [State.advance, State.th_setTh, State.setTh_setTh, State.setTh_live]
  rfl

/-- The open registers of a thread take their value's fields (R156, R159, R160). -/
theorem State.writeSpr_of_mem_sprWrites {s : State} {x : Word} {r : BitVec 12 × Thread} (hr : r ∈ Claims.sprWrites s.th x) :
    s.sprBar r.1 = none ∧ s.live.writeSpr r.1.toNat x = some (s.live.setTh r.2.live) ∧ r.2.regBad = s.th.regBad := by
  simp only [Claims.sprWrites, List.mem_cons, List.not_mem_nil, or_false] at hr
  rcases hr with rfl | rfl | rfl | rfl
  all_goals exact ⟨s.sprBar_of_open rfl rfl, by simp only [State.writeSpr, State.th_live]; rfl, rfl⟩

/-- The read-only registers are open, and a write of them is discarded (R223). -/
theorem State.writeSpr_of_mem_sprFixed (s : State) {n : BitVec 12} (hn : n ∈ Claims.sprFixed) :
    s.sprBar n = none ∧ ∀ x, s.live.writeSpr n.toNat x = some (s.live.setTh s.th.live) := by
  have hsame : s.live.setTh s.th.live = s.live := by rw [State.setTh_live, State.live]
  rw [hsame]
  simp only [Claims.sprFixed, List.mem_cons, List.not_mem_nil, or_false] at hn
  rcases hn with rfl | rfl | rfl | rfl | rfl | rfl | rfl | rfl | rfl | rfl | rfl | rfl | rfl
  all_goals exact ⟨s.sprBar_of_open rfl rfl, fun x => rfl⟩

theorem State.writeSpr_xpc (s : State) (x : Word) : s.live.writeSpr 0x081 x = some (s.live.setTh { s.th with xpc := x }.live) := by
  simp only [State.writeSpr, State.th_live]
  rfl

theorem State.writeSpr_xval (s : State) (x : Word) : s.live.writeSpr 0x083 x = some (s.live.setTh { s.th with xval := x }.live) := by
  simp only [State.writeSpr, State.th_live]
  rfl

/-- The fields of XCAUSE that a write reaches; ACT and WSR stay (R358). -/
theorem State.writeSpr_xcause (s : State) (x : Word) : s.live.writeSpr 0x082 x =
    some (s.live.setTh { s.th with xcode := x.extractLsb' 0 8, ppriv := x.getLsbD 8, pqmap := x.getLsbD 9 }.live) := by
  simp only [State.writeSpr, State.th_live]
  rfl

/-- RND.MODE 6 and 7 name no rounding (R156). -/
theorem State.writeSpr_rnd (s : State) (x : Word) : s.live.writeSpr 0x014 x =
    if x.toNat % 8 < 6 then some (s.live.setTh { s.th with rnd := x.extractLsb' 0 3 }.live) else none := by
  by_cases hx : x.toNat % 8 < 6
  · simp only [State.writeSpr, if_neg (Nat.not_le.2 hx), if_pos hx, State.th_live]
    rfl
  · simp only [State.writeSpr, if_pos (Nat.not_lt.1 hx), if_neg hx]

/-! ## Writes that reach the core or the cluster -/

/-- A write that leaves another core, with the same threads and memories (R223). -/
theorem exec_mts_core {s : State} (h : s.plain) {n : BitVec 12} (hb : s.sprBar n = none) {a : BitVec 5} (c : Core)
    (hw : s.live.writeSpr n.toNat (s.reg a.toNat) = some (s.live.setCo c)) (hc : c.threads = s.live.co.threads)
    (hls : c.ls = s.live.co.ls) (hws : c.ws = s.live.co.ws) :
    ∃ t, exec (.mts n a) s = .next t ∧ t.th = s.th.went 4 ∧ t.co = c.setThread s.cur.2 (s.th.went 4) ∧ t.co.ls = s.co.ls ∧
      Claims.elsewhere s t := by
  have hth (i : Nat) : c.thread i = s.live.co.thread i := by rw [Core.thread, hc]; rfl
  have hslot : (s.live.setCo c).th = s.th.live := by
    change ((s.live.setCo c).co).thread s.cur.2 = _
    rw [State.co_setCo, hth, State.co_live, Core.thread_setThread_self]
  have hgo : (s.live.setCo c).advance 4 = s.setCo (c.setThread s.cur.2 (s.th.went 4)) := by
    rw [State.advance, hslot]
    change ((s.live.setCo c).setCo ((s.live.setCo c).co.setThread s.cur.2 _)) = _
    rw [State.co_setCo]
    simp only [State.setCo, State.live, State.setTh, State.setThread, State.setCore_cur, State.setCore_setCore]
    rfl
  refine ⟨_, exec_mts_taken h hb hw (by rw [hslot, ← State.th_live, regBad_live h]), ?th, ?co, ?ls, ?elsewhere⟩ <;> rw [hgo]
  case th =>
    change (s.setCo _).co.thread s.cur.2 = _
    rw [State.co_setCo, Core.thread_setThread_self]
  case co => rw [State.co_setCo]
  case ls => rw [State.co_setCo, Core.setThread_ls, hls, State.co_live, Core.setThread_ls]
  case elsewhere =>
    refine State.elsewhere_setCo (by rw [Core.setThread_ws, hws, State.co_live, Core.setThread_ws]) fun i hi => ?_
    rw [Core.thread_setThread_ne _ hi, hth, State.co_live, Core.thread_setThread_ne _ hi]

/-- A cluster whose sticky flags of a mask are cleared. -/
def Cluster.unstick (c : Cluster) (m : BitVec 6) : Cluster := { c with stk := c.stk &&& ~~~m }

/-- A write of FLU clears the sticky flags that it names (R163). -/
theorem exec_mts_flu {s : State} (h : s.plain) (a : BitVec 5) :
    exec (.mts 0x020 a) s = .next ((s.went 4).setCluster (clusterOf s.cur.1)
      ((s.cluster (clusterOf s.cur.1)).unstick ((s.reg a.toNat).extractLsb' 8 6))) := by
  have hw : s.live.writeSpr 0x020 (s.reg a.toNat) = some (s.live.setCluster (clusterOf s.cur.1)
      ((s.cluster (clusterOf s.cur.1)).unstick ((s.reg a.toNat).extractLsb' 8 6))) := rfl
  rw [exec_mts_taken (n := 0x020) h (s.sprBar_of_open rfl rfl) hw (regBad_live h), ← State.went_eq]
  rfl

/-! ## RTC and RTF (R126, R127) -/

/-- A write of RTC. -/
theorem Ring.setControl_toNat (r : Ring) (x : Word) : r.setControl x.toNat =
    { r with en := x.getLsbD 0, wrap := x.getLsbD 1, ovf := r.ovf && !x.getLsbD 2, own := x.getLsbD 3, lds := x.getLsbD 4
             idx := (x.extractLsb' 8 8).toNat
             entries := if x.getLsbD 0 = true ∧ r.en = false then [] else r.entries
             ord := if x.getLsbD 0 = true ∧ r.en = false then 0 else r.ord } := by
  simp only [Ring.setControl, bit_toNat, bits_toNat, Bool.and_eq_true, Bool.not_eq_true']

/-- A core with another trace ring. -/
def Core.withRing (c : Core) (r : Ring) : Core := { c with ring := r }

theorem State.writeSpr_rtc (s : State) (x : Word) :
    s.live.writeSpr 0x030 x = some (s.live.setCo (s.live.co.withRing (s.co.ring.setControl x.toNat))) := by
  simp only [State.writeSpr, State.co_live]
  rfl

theorem State.writeSpr_rtf (s : State) (x : Word) : s.live.writeSpr 0x031 x = some (s.live.setCo (s.live.co.withRing
    { s.co.ring with mtch := (x.extractLsb' 0 19).toNat, mask := (x.extractLsb' 19 19).toNat })) := by
  simp only [State.writeSpr, State.co_live, bits_toNat]
  rfl

/-- A write of a ring register changes the core's ring alone. -/
theorem exec_mts_ring {s : State} (h : s.plain) {n : BitVec 12} (hb : s.sprBar n = none) {a : BitVec 5} {r : Ring}
    (hw : s.live.writeSpr n.toNat (s.reg a.toNat) = some (s.live.setCo (s.live.co.withRing r))) :
    ∃ t, exec (.mts n a) s = .next t ∧ t.th = s.th.went 4 ∧ t.co.ls = s.co.ls ∧ Claims.elsewhere s t ∧ t.co.ring = r := by
  obtain ⟨t, ht, hth, hco, hls, helse⟩ := exec_mts_core h hb _ hw rfl rfl rfl
  exact ⟨t, ht, hth, hls, helse, by rw [hco, Core.setThread_ring]; rfl⟩

/-! ## LSP (R101, R102) -/

/-- The end of the transaction region, whose frames begin on a multiple of their size. -/
theorem Core.scrb_eq (c : Core) : c.scrb = if c.fcnt = 0 then c.wsn * 0x1000 else
    (c.wsn * 0x1000 + 2 ^ c.flog - 1) / 2 ^ c.flog * 2 ^ c.flog + c.fcnt * 2 ^ c.flog := by
  have hframe : 2 ^ c.flog ≠ 0 := by positivity
  rw [Core.scrb, Core.txb, roundUp, if_neg hframe]
  split <;> simp_all

theorem Core.hvb_eq (c : Core) : c.hvb = 0x80000 - (if c.hlog = 0 then 0 else 2 ^ c.hlog) := by
  rw [Core.hvb]
  split <;> rfl

theorem lspValid_iff (c : Core) (x : Word) : lspValid c x.toNat = true ↔ Claims.lspFields x := by
  have hpow (i j : Nat) : 2 ^ i ≤ 2 ^ j ↔ i ≤ j := Nat.pow_le_pow_iff_right (by decide)
  simp only [lspValid, Claims.lspFields, bits_toNat, Core.scrb_eq, Core.hvb_eq, Bool.and_eq_true, Bool.or_eq_true,
    decide_eq_true_eq, hpow, and_assoc]

/-- A thread outside a pair has no partner. -/
theorem State.partner_live {s : State} (h : s.plain) (i : Nat) : s.live.partner i = false := by
  simp only [State.partner, pair_live h]

theorem State.lspAccepts_iff {s : State} (h : s.plain) (x : Word) :
    s.live.lspAccepts x.toNat = true ↔ Claims.lspFields x ∧ Claims.lspFree s x := by
  simp only [State.lspAccepts, Bool.and_eq_true, lspValid_iff, Claims.lspFree, and_assoc, bits_toNat, decide_eq_true_eq,
    List.isEmpty_iff, Bool.not_eq_true', State.th_live]
  rw [State.co_live]
  refine and_congr_right fun _ => and_congr_right fun _ => and_congr_right fun _ => and_congr ?slots <|
    and_congr_right fun _ => and_congr_right fun _ => and_congr_right fun _ => and_congr ?runq <| and_congr ?txns Iff.rfl
  case slots =>
    simp only [List.all_eq_true, List.mem_range]
    refine forall₂_congr fun i _ => ?_
    by_cases hi : i = s.cur.2
    · simp [hi]
    · simp [hi, Core.thread_setThread_ne _ hi, State.partner_live h, ← Thread.busyTask_iff]
      rfl
  case runq =>
    simp only [List.any_eq_false, decide_eq_true_eq]
    rfl
  case txns =>
    simp only [List.any_eq_false, Bool.and_eq_true, decide_eq_true_eq]
    refine forall₂_congr fun t _ => not_congr (and_congr_right fun _ => ?_)
    cases t.stage <;> simp

/-- A core with the partition that a value of LSP gives it. -/
def Core.withLsp (c : Core) (x : Word) : Core :=
  { c with wsn := (x.extractLsb' 0 7).toNat, flog := (x.extractLsb' 8 5).toNat, fcnt := (x.extractLsb' 13 6).toNat
           hlog := (x.extractLsb' 19 5).toNat }

theorem State.writeSpr_lsp {s : State} (h : s.plain) {x : Word} (hx : Claims.lspFields x ∧ Claims.lspFree s x) :
    s.live.writeSpr 0x004 x = some (s.live.setCo (s.live.co.withLsp x)) := by
  simp only [State.writeSpr, if_pos ((State.lspAccepts_iff h x).2 hx), bits_toNat]
  rfl

theorem State.writeSpr_lsp_refused {s : State} (h : s.plain) {x : Word} (hx : ¬ (Claims.lspFields x ∧ Claims.lspFree s x)) :
    s.live.writeSpr 0x004 x = none := by
  simp only [State.writeSpr, if_neg (mt (State.lspAccepts_iff h x).1 hx)]

/-! ## THB (R358) -/

/-- A core with the handler that a value of THB gives it. -/
def Core.withThb (c : Core) (x : Word) : Core := { c with thbEn := x.getLsbD 0, thbBase := x.extractLsb' 8 56 }

theorem State.writeSpr_thb (s : State) {x : Word} (hx : canonical x = true) :
    s.live.writeSpr 0x080 x = some (s.live.setCo (s.live.co.withThb x)) := by
  simp only [State.writeSpr, if_pos hx]
  rfl

theorem State.writeSpr_thb_refused (s : State) {x : Word} (hx : canonical x = false) : s.live.writeSpr 0x080 x = none := by
  simp [State.writeSpr, hx]

/-! ## The obligation -/

theorem unitRegisterWrites : Claims.UnitRegisterWrites := by
  intro s h a
  have hfirm {n : BitVec 12} (hp : s.th.priv = true) (hn : n ∈ [0x004, 0x080, 0x081, 0x082, 0x083]) : s.sprBar n = none :=
    State.sprBar_of_priv hp (sprListed_of_firmware hn)
  refine ⟨fun hp => ⟨fun hfields hfree => ?cut, fun hx => ?kept, fun hx => ?thb⟩, ?rtc, ?rtf⟩
  case cut =>
    obtain ⟨t, ht, hth, hco, hls, helse⟩ := exec_mts_core (n := 0x004) h (hfirm hp (by simp)) _
      (State.writeSpr_lsp h ⟨hfields, hfree⟩) rfl rfl rfl
    exact ⟨t, ht, hth, by rw [hco]; rfl, by rw [hco]; rfl, by rw [hco]; rfl, by rw [hco]; rfl, hls, helse⟩
  case kept =>
    exact exec_mts_refused (n := 0x004) h (hfirm hp (by simp)) (State.writeSpr_lsp_refused h (not_and_or.2 hx))
  case thb =>
    exact exec_mts_refused (n := 0x080) h (hfirm hp (by simp)) (s.writeSpr_thb_refused hx)
  case rtc =>
    rw [← Ring.setControl_toNat]
    exact exec_mts_ring (n := 0x030) h (s.sprBar_of_open rfl rfl) (s.writeSpr_rtc _)
  case rtf => exact exec_mts_ring (n := 0x031) h (s.sprBar_of_open rfl rfl) (s.writeSpr_rtf _)

theorem specialRegisterWrites : Claims.SpecialRegisterWrites := by
  intro s h a
  have hgood : s.th.regBad = [] := by obtain ⟨-, hbad, -, -, -, -⟩ := h; exact hbad
  have hfirm {n : BitVec 12} (hp : s.th.priv = true) (hn : n ∈ [0x004, 0x080, 0x081, 0x082, 0x083]) : s.sprBar n = none :=
    State.sprBar_of_priv hp (sprListed_of_firmware hn)
  refine ⟨fun r hr => ?fields, fun n hn => ?fixed, ?rnd, ?flu, fun hp => ⟨?xpc, ?xval, ?xcause, fun hx => ?thb⟩,
    fun hu n hn => exec_mts_barred h (State.sprBar_of_user hu hn) (by decide) a⟩
  case fields =>
    obtain ⟨hb, hw, hbad⟩ := State.writeSpr_of_mem_sprWrites hr
    exact exec_mts_thread h hb r.2 hw (hbad.trans hgood)
  case fixed =>
    obtain ⟨hb, hw⟩ := s.writeSpr_of_mem_sprFixed hn
    exact exec_mts_thread h hb s.th (hw _) hgood
  case rnd =>
    have hb : s.sprBar 0x014 = none := s.sprBar_of_open rfl rfl
    have hw := s.writeSpr_rnd (s.reg a.toNat)
    by_cases hx : (s.reg a.toNat).toNat % 8 < 6
    · rw [if_pos hx] at hw
      rw [if_pos hx]
      exact exec_mts_thread (n := 0x014) h hb _ hw hgood
    · rw [if_neg hx] at hw
      rw [if_neg hx]
      exact exec_mts_refused (n := 0x014) h hb hw
  case flu =>
    refine ⟨_, exec_mts_flu h a, State.th_setTh s _, ?stk, ?ls, s.elsewhere_setTh _⟩
    case stk => rw [State.cluster, State.setCluster, tblGet_tblSet_self, Cluster.unstick]
    case ls =>
      change (s.went 4).co.ls = _
      rw [State.went, State.co_setTh, Core.setThread_ls]
  case xpc => exact exec_mts_thread (n := 0x081) h (hfirm hp (by simp)) _ (s.writeSpr_xpc _) hgood
  case xval => exact exec_mts_thread (n := 0x083) h (hfirm hp (by simp)) _ (s.writeSpr_xval _) hgood
  case xcause => exact exec_mts_thread (n := 0x082) h (hfirm hp (by simp)) _ (s.writeSpr_xcause _) hgood
  case thb =>
    obtain ⟨t, ht, hth, hco, hls, helse⟩ := exec_mts_core (n := 0x080) h (hfirm hp (by simp)) _ (s.writeSpr_thb hx) rfl rfl rfl
    exact ⟨t, ht, hth, by rw [hco]; rfl, by rw [hco]; rfl, hls, helse⟩

/-- Settles O32: the four parts above. -/
theorem specialRegisters : Obligations.SpecialRegisters := by
  unfold Obligations.SpecialRegisters
  exact ⟨specialRegisterReads, unitRegisterReads, specialRegisterWrites, unitRegisterWrites⟩

end Sys2Proof.Machine
end

section
/-!
The registers s0 and s31 (R35, R178), and the words with an immediate (R200).
-/

namespace Sys2Proof.Machine

open Sys2Proof

/-! ## Words with an immediate -/

/-- An immediate word computes its result from sA alone, and has four bytes (R200). -/
theorem exec_of_mem_immWords {r : Claims.Imm × (Word → Word → Word)} (hr : r ∈ Claims.immWords) (i : BitVec 12) (a d : BitVec 5) :
    ∃ w, ∀ s, exec (r.1 i a d) s = im1 (.long w) a.toNat d.toNat (fun x => r.2 x (i.signExtend 64)) s := by
  have hslt (x y : Word) : (if x.slt y then 1 else 0 : Word) = if x.toInt < y.toInt then 1 else 0 := by simp [BitVec.slt]
  have hult (x y : Word) : (if x.ult y then 1 else 0 : Word) = if x.toNat < y.toNat then 1 else 0 := by simp [BitVec.ult]
  simp only [Claims.immWords, List.mem_cons, List.not_mem_nil, or_false] at hr
  rcases hr with rfl | rfl | rfl | rfl | rfl | rfl | rfl
  all_goals simp only [← hslt, ← hult]; exact ⟨_, fun s => rfl⟩

theorem exec_imm_plain {s : State} (h : s.plain) {r : Claims.Imm × (Word → Word → Word)} (hr : r ∈ Claims.immWords) (i : BitVec 12)
    (a d : BitVec 5) : exec (r.1 i a d) s = .next (s.setTh ((s.th.setSreg d.toNat (r.2 (s.reg a.toNat) (i.signExtend 64))).went 4)) := by
  obtain ⟨w, hw⟩ := exec_of_mem_immWords hr i a d
  rw [hw, im1_plain h]
  rfl

/-! ## The status register -/

/-- A field of a word that is given as a number. -/
theorem extractLsb'_ofNat (x lo len : Nat) (h : lo + len ≤ 64) :
    (BitVec.ofNat 64 x).extractLsb' lo len = BitVec.ofNat len (x / 2 ^ lo) := by
  have hw : 2 ^ 64 = 2 ^ lo * (2 ^ len * 2 ^ (64 - (lo + len))) := by rw [← Nat.mul_assoc, ← Nat.pow_add, ← Nat.pow_add]; congr 1; omega
  apply BitVec.eq_of_toNat_eq
  rw [BitVec.extractLsb'_toNat, BitVec.toNat_ofNat, BitVec.toNat_ofNat, Nat.shiftRight_eq_div_pow, hw, Nat.mod_mul_right_div_self,
    Nat.mod_mul_right_mod]

theorem getLsbD_ofNat (x i : Nat) (h : i < 64) : (BitVec.ofNat 64 x).getLsbD i = decide (x / 2 ^ i % 2 = 1) := by
  rw [BitVec.getLsbD_ofNat, Nat.testBit_eq_decide_div_mod_eq]
  simp [h]

theorem Thread.setSreg_zero (t : Thread) (x : Word) : t.setSreg 0 x = t := rfl

theorem Thread.setSreg_status (t : Thread) (x : Word) : t.setSreg 31 x = t := rfl

theorem b2n_le_one (b : Bool) : b2n b ≤ 1 := by cases b <;> decide

theorem decide_b2n_eq_one (b : Bool) : decide (b2n b = 1) = b := by cases b <;> rfl

/-- The number that s31 shows (R35). -/
def Thread.statusNum (t : Thread) (i : Nat) : Nat :=
  i % 16 + t.gen.toNat * 2 ^ 4 + b2n t.priv * 2 ^ 20 + b2n t.task.txn * 2 ^ 21 + t.pair % 4 * 2 ^ 22 + b2n t.qmap * 2 ^ 24 +
    t.depth % 32 * 2 ^ 25 + t.task.lnch % 16 * 2 ^ 30 + t.task.prio % 4 * 2 ^ 34 + b2n (!t.inl.isEmpty) * 2 ^ 36

section
variable (t : Thread) (i : Nat)

theorem Thread.sreg_status : t.sreg i 31 = BitVec.ofNat 64 (t.statusNum i) := rfl

/-- The fields of s31 that R35 names: none reaches into the next. -/
theorem Thread.statusNum_fields : t.statusNum i % 2 ^ 4 = i % 2 ^ 4 ∧ t.statusNum i / 2 ^ 4 % 2 ^ 16 = t.gen.toNat ∧
    t.statusNum i / 2 ^ 20 % 2 = b2n t.priv ∧ t.statusNum i / 2 ^ 24 % 2 = b2n t.qmap ∧
    t.statusNum i / 2 ^ 25 % 2 ^ 5 = t.depth % 2 ^ 5 ∧ t.statusNum i / 2 ^ 37 = 0 := by
  have hgen := t.gen.isLt
  have hpriv := b2n_le_one t.priv
  have htxn := b2n_le_one t.task.txn
  have hqmap := b2n_le_one t.qmap
  have hinl := b2n_le_one (!t.inl.isEmpty)
  unfold Thread.statusNum
  omega

end

/-- Settles O4: s31 field by field; what is written to s0 or s31 is discarded, so an immediate word that names one as its destination
only goes on. -/
theorem constantRegisters : Obligations.ConstantRegisters := by
  unfold Obligations.ConstantRegisters
  intro s
  obtain ⟨hslot, hgen, hpriv, hqmap, hdepth, hhigh⟩ := s.th.statusNum_fields s.cur.2
  have hfield (lo len : Nat) (h : lo + len ≤ 64) : (s.reg 31).extractLsb' lo len = BitVec.ofNat len (s.th.statusNum s.cur.2 / 2 ^ lo) :=
    extractLsb'_ofNat _ lo len h
  have hbit (i : Nat) (h : i < 64) : (s.reg 31).getLsbD i = decide (s.th.statusNum s.cur.2 / 2 ^ i % 2 = 1) := getLsbD_ofNat _ i h
  refine ⟨rfl, ?slot, ?gen, ?priv, ?qmap, ?depth, ?high, fun v => ⟨rfl, rfl, fun h r hr i a => ⟨exec_imm_plain h hr i a 0,
    exec_imm_plain h hr i a 31⟩⟩⟩
  case slot =>
    rw [hfield 0 4 (by decide)]
    apply BitVec.eq_of_toNat_eq
    simpa using hslot
  case gen =>
    rw [hfield 4 16 (by decide)]
    apply BitVec.eq_of_toNat_eq
    simpa using hgen
  case priv => rw [hbit 20 (by decide), hpriv, decide_b2n_eq_one]
  case qmap => rw [hbit 24 (by decide), hqmap, decide_b2n_eq_one]
  case depth =>
    rw [hfield 25 5 (by decide)]
    apply BitVec.eq_of_toNat_eq
    simpa using hdepth
  case high => rw [hfield 37 27 (by decide), hhigh]; rfl

end Sys2Proof.Machine
end

section
/-!
The read of an instruction word over the mesh (R429, R431).
-/

namespace Sys2Proof.Machine

open Sys2Proof

/-- The package after reset, where the payload of the next read that the boot thread makes over the mesh arrives poisoned (R405, R429). -/
def meshPoisoned : State :=
  State.reset.setTh { State.reset.th with linkBad := some 9 }

/-- The fetch of the boot thread meets the poison, and does not end in a word. -/
theorem fetch_meshPoisoned : meshPoisoned.fetch.isOk = false := by decide +kernel

/-- Refutes O1: in its last clause the bytes of DRAM need not arrive. A read over the mesh whose payload is poisoned on its way (R405, R429)
fails the fetch, whatever DRAM holds. -/
theorem not_stepRunsTheDecodedInstruction : ¬ Obligations.StepRunsTheDecodedInstruction := by
  unfold Obligations.StepRunsTheDecodedInstruction
  intro h
  obtain ⟨-, -, -, -, hbytes⟩ := h meshPoisoned meshPoisoned
  have hfetch := hbytes rfl rfl rfl rfl (fun _ => rfl) (by decide)
  have hno := fetch_meshPoisoned
  rw [hfetch] at hno
  exact absurd hno (by decide)

end Sys2Proof.Machine
end

section
/-!
The trace ring of a local-store port (R126 to R129): what an access that is logged leaves alone.
-/

namespace Sys2Proof.Machine

open Sys2Proof

section
variable (s : State) (n a size kind : Nat) (w : Source)

@[simp] theorem State.core_record (k : Nat) (r : ErrRec) (m : Nat) : (s.record k r).core m = s.core m := rfl

/-- Logging an access changes nothing but cores and clusters. -/
theorem State.logPort_frame : ∃ cs cl, s.logPort n a size kind w = { s with cores := cs, clusters := cl } := by
  unfold State.logPort
  dsimp only
  split
  · exact ⟨s.cores, s.clusters, rfl⟩
  · split
    · exact ⟨_, s.clusters, rfl⟩
    · exact ⟨_, _, rfl⟩

/-- Of a core only the ring changes, and only that of the port. -/
theorem State.core_logPort (m : Nat) : ∃ r, (s.logPort n a size kind w).core m = { s.core m with ring := r } := by
  have hset (c : Ring) : ∃ r, (s.setCore n { s.core n with ring := c }).core m = { s.core m with ring := r } := by
    by_cases hm : m = n
    · subst hm; exact ⟨c, State.core_setCore_self ..⟩
    · exact ⟨(s.core m).ring, State.core_setCore_ne _ hm _⟩
  unfold State.logPort
  dsimp only
  split
  · exact ⟨_, rfl⟩
  · split
    · exact hset _
    · exact hset _

theorem State.core_logPort_ne {m : Nat} (hm : m ≠ n) : (s.logPort n a size kind w).core m = s.core m := by
  unfold State.logPort
  dsimp only
  split
  · rfl
  · split
    · exact State.core_setCore_ne _ hm _
    · exact State.core_setCore_ne _ hm _

@[simp] theorem State.thread_logPort (m i : Nat) : (s.logPort n a size kind w).thread m i = s.thread m i := by
  obtain ⟨r, hr⟩ := s.core_logPort n a size kind w m
  rw [State.thread, hr]
  rfl

@[simp] theorem State.logPort_ls (m : Nat) : ((s.logPort n a size kind w).core m).ls = (s.core m).ls := by
  obtain ⟨r, hr⟩ := s.core_logPort n a size kind w m
  rw [hr]

@[simp] theorem State.logPort_lsBad (m : Nat) : ((s.logPort n a size kind w).core m).lsBad = (s.core m).lsBad := by
  obtain ⟨r, hr⟩ := s.core_logPort n a size kind w m
  rw [hr]

@[simp] theorem State.logPort_ws (m : Nat) : ((s.logPort n a size kind w).core m).ws = (s.core m).ws := by
  obtain ⟨r, hr⟩ := s.core_logPort n a size kind w m
  rw [hr]

@[simp] theorem State.logPort_cur : (s.logPort n a size kind w).cur = s.cur := by
  obtain ⟨cs, cl, h⟩ := s.logPort_frame n a size kind w; rw [h]

@[simp] theorem State.logPort_dram : (s.logPort n a size kind w).dram = s.dram := by
  obtain ⟨cs, cl, h⟩ := s.logPort_frame n a size kind w; rw [h]

@[simp] theorem State.logPort_hostMem : (s.logPort n a size kind w).hostMem = s.hostMem := by
  obtain ⟨cs, cl, h⟩ := s.logPort_frame n a size kind w; rw [h]

@[simp] theorem State.logPort_chan : (s.logPort n a size kind w).chan = s.chan := by
  obtain ⟨cs, cl, h⟩ := s.logPort_frame n a size kind w; rw [h]

@[simp] theorem State.logPort_flights : (s.logPort n a size kind w).flights = s.flights := by
  obtain ⟨cs, cl, h⟩ := s.logPort_frame n a size kind w; rw [h]

@[simp] theorem State.logPort_launches : (s.logPort n a size kind w).launches = s.launches := by
  obtain ⟨cs, cl, h⟩ := s.logPort_frame n a size kind w; rw [h]

@[simp] theorem State.logPort_site : (s.logPort n a size kind w).site = s.site := by
  obtain ⟨cs, cl, h⟩ := s.logPort_frame n a size kind w; rw [h]

@[simp] theorem State.th_logPort : (s.logPort n a size kind w).th = s.th := by
  rw [State.th, State.logPort_cur, State.thread_logPort, State.th]

end

/-! ## Fields of a core whose thread is replaced -/

section
variable {α : Type} (s : State) (n i m : Nat) (t : Thread)

theorem State.core_setThread_of_ne {m n : Nat} (h : m ≠ n) : (s.setThread n i t).core m = s.core m := State.core_setCore_ne _ h _

@[simp] theorem State.core_setThread_self : (s.setThread n i t).core n = (s.core n).setThread i t := State.core_setCore_self ..

/-- What does not depend on the threads of a core stays when a thread is replaced. -/
theorem State.core_setThread_field (f : Core → α) (hf : ∀ c : Core, f (c.setThread i t) = f c) :
    f ((s.setThread n i t).core m) = f (s.core m) := by
  by_cases h : m = n
  · subst h; rw [State.core_setThread_self, hf]
  · rw [State.core_setThread_of_ne _ _ _ h]

@[simp] theorem State.setThread_ls : ((s.setThread n i t).core m).ls = (s.core m).ls := s.core_setThread_field _ _ _ _ (·.ls) fun _ => rfl

@[simp] theorem State.setThread_lsBad : ((s.setThread n i t).core m).lsBad = (s.core m).lsBad :=
  s.core_setThread_field _ _ _ _ (·.lsBad) fun _ => rfl

@[simp] theorem State.setThread_ws : ((s.setThread n i t).core m).ws = (s.core m).ws := s.core_setThread_field _ _ _ _ (·.ws) fun _ => rfl

@[simp] theorem State.setTh_ls : ((s.setTh t).core m).ls = (s.core m).ls := s.setThread_ls ..

@[simp] theorem State.setTh_lsBad : ((s.setTh t).core m).lsBad = (s.core m).lsBad := s.setThread_lsBad ..

@[simp] theorem State.setTh_ws : ((s.setTh t).core m).ws = (s.core m).ws := s.setThread_ws ..

@[simp] theorem State.live_ls : (s.live.core m).ls = (s.core m).ls := s.setThread_ls ..

@[simp] theorem State.live_lsBad : (s.live.core m).lsBad = (s.core m).lsBad := s.setThread_lsBad ..

/-- Another slot keeps its thread. -/
theorem State.thread_setThread_of_ne {a b : Nat} (h : (a, b) ≠ (n, i)) : (s.setThread n i t).thread a b = s.thread a b := by
  by_cases ha : a = n
  · subst ha
    have hb : b ≠ i := fun e => h (by rw [e])
    rw [State.thread, State.core_setThread_self, Core.thread_setThread_ne _ hb, State.thread]
  · rw [State.thread, State.core_setThread_of_ne _ _ _ ha, State.thread]

end

/-! ## Going on -/

section
variable (s : State) (k : Nat)

@[simp] theorem State.th_advance : (s.advance k).th = { s.th with pc := s.th.pc + BitVec.ofNat 64 k } := State.th_setTh ..

@[simp] theorem State.cur_advance : (s.advance k).cur = s.cur := rfl

@[simp] theorem State.advance_ls (m : Nat) : ((s.advance k).core m).ls = (s.core m).ls := s.setTh_ls ..

end

/-! ## A word of a thread that waits for nothing, by what its body does -/

section
variable {s : State} (h : s.plain) {k : Issue} (hbars : k.bars = none) (hpred : k.pred = none) {body : State → Except Stop State}

include h hbars hpred

theorem issue_plain_unpred : issue k s body = .next (finish k s.live (body s.live)) := by
  rw [issue_plain h k hbars, Issue.acts, hpred]
  rfl

theorem issue_plain_ok {t : State} (hj : k.jumps = false) (hb : body s.live = .ok t) :
    issue k s body = .next (t.advance k.code.bytes) := by
  rw [issue_plain_unpred h hbars hpred, hb, finish_ok, hj]
  rfl

theorem issue_plain_jump {t : State} (hj : k.jumps = true) (hb : body s.live = .ok t) : issue k s body = .next t := by
  rw [issue_plain_unpred h hbars hpred, hb, finish_ok, hj]
  rfl

theorem issue_plain_stop {r : Stop} (hb : body s.live = .error r) : issue k s body = .next (s.live.stop r) := by
  rw [issue_plain_unpred h hbars hpred, hb, finish_error]

theorem issue_plain_trap {code : Nat} {val : Word} (hc : code ≠ 16) (hb : body s.live = .error (.trap code val)) :
    issue k s body = .next (Claims.trapped s code val) := by
  rw [issue_plain_stop h hbars hpred hb, State.stop_trap_plain h hc]

end

/-- The core that a thread was written to is written again. -/
theorem State.setCo_co_setTh (s : State) (t : Thread) : (s.setTh t).setCo (s.setTh t).co = s.setTh t := by
  rw [State.co_setTh]
  simp only [State.setCo, State.setTh, State.setThread, State.setCore_cur, State.setCore_setCore]
  rfl

/-- A stall of an instruction that has not begun and changed nothing leaves the slot empty (R34). -/
theorem State.stop_stall_live {s : State} (hpair : s.th.pair = 0) : s.live.stop (.stall s.live) = Claims.waits s := by
  have hundo : s.live.undoReads s.live = s.live := by
    have hp : s.live.th.pair = 0 := by rw [State.th_live]; exact hpair
    simp only [State.undoReads, hp]
    exact s.setCo_co_setTh _
  simp only [State.stop, State.stopBy, hundo, ite_self, State.stalled, State.th_live, State.setTh_live]
  rfl

theorem issue_plain_stall {s : State} (h : s.plain) {k : Issue} (hbars : k.bars = none) (hpred : k.pred = none)
    {body : State → Except Stop State} (hb : body s.live = .error (.stall s.live)) : issue k s body = .next (Claims.waits s) := by
  obtain ⟨_, _, hpair, _, _, _⟩ := id h
  rw [issue_plain_stop h hbars hpred hb, State.stop_stall_live hpair]

/-! ## What is elsewhere -/

/-- What two steps leave alone their sequence leaves alone. -/
theorem elsewhere_trans {s t u : State} (hcur : t.cur = s.cur) (h : Claims.elsewhere s t) (h' : Claims.elsewhere t u) :
    Claims.elsewhere s u := by
  obtain ⟨hdram, hhost, hws, hls, hth⟩ := h
  obtain ⟨hdram', hhost', hws', hls', hth'⟩ := h'
  rw [hcur] at hls' hth'
  exact ⟨hdram'.trans hdram, hhost'.trans hhost, fun n => (hws' n).trans (hws n), fun n hn => (hls' n hn).trans (hls n hn),
    fun n i hi => (hth' n i hi).trans (hth n i hi)⟩

theorem State.elsewhere_refl (s : State) : Claims.elsewhere s s := ⟨rfl, rfl, fun _ => rfl, fun _ _ => rfl, fun _ _ _ => rfl⟩

theorem State.elsewhere_logPort (s : State) (n a size kind : Nat) (w : Source) : Claims.elsewhere s (s.logPort n a size kind w) :=
  ⟨by simp, by simp, by simp, by simp, by simp⟩

theorem State.elsewhere_live (s : State) : Claims.elsewhere s s.live := s.elsewhere_setTh _

/-- A word disturbs no more than its body does before it goes on. -/
theorem elsewhere_advance_of_live {s t : State} (hcur : t.cur = s.cur) (h : Claims.elsewhere s.live t) (k : Nat) :
    Claims.elsewhere s (t.advance k) :=
  elsewhere_trans hcur (elsewhere_trans s.cur_live s.elsewhere_live h) (t.elsewhere_setTh _)

end Sys2Proof.Machine
end

section
/-!
Bytes of a memory read back (R4).
-/

namespace Sys2Proof.Machine

open Sys2Proof

@[simp] theorem length_memRead (a n : Nat) (m : Memory) : (memRead a n m).length = n := by
  induction n generalizing a with
  | zero => rfl
  | succ n ih => simp [memRead, ih]

theorem getElem_memRead (a n : Nat) (m : Memory) (j : Nat) (hj : j < (memRead a n m).length) :
    (memRead a n m)[j] = memGet (a + j) m := by
  induction n generalizing a j with
  | zero => simp [memRead] at hj
  | succ n ih =>
    cases j with
    | zero => rfl
    | succ j => simp only [memRead, List.getElem_cons_succ, ih, Nat.add_right_comm a 1 j]; rfl

theorem getD_memRead (a n : Nat) (m : Memory) {j : Nat} (hj : j < n) : (memRead a n m).getD j 0 = memGet (a + j) m := by
  rw [List.getD_eq_getElem _ _ (by simpa using hj), getElem_memRead]

/-- Equal bytes are read alike. -/
theorem memRead_congr {a b n : Nat} {m m' : Memory} (h : ∀ j < n, memGet (a + j) m = memGet (b + j) m') :
    memRead a n m = memRead b n m' := by
  apply List.ext_getElem (by simp)
  intro j hj _
  simpa [getElem_memRead] using h j (by simpa using hj)

/-- What was written is read back. -/
theorem memRead_memWrite_self (a : Nat) (bs : List Byte) (m : Memory) : memRead a bs.length (memWrite a bs m) = bs := by
  apply List.ext_getElem (by simp)
  intro j hj hj'
  rw [getElem_memRead, memGet_memWrite, if_pos (by omega), Nat.add_sub_cancel_left, List.getD_eq_getElem _ _ hj']

theorem memNum_memWrite_self (a : Nat) (bs : List Byte) (m : Memory) : memNum a bs.length (memWrite a bs m) = leNat bs := by
  rw [memNum, memRead_memWrite_self]

/-- The bytes of a number are the number. -/
theorem leNat_leBytes (n v : Nat) : leNat (leBytes n v) = v % 2 ^ (8 * n) := by
  induction n generalizing v with
  | zero => simp [leBytes, leNat, Nat.mod_one]
  | succ n ih =>
    have hpow : 2 ^ (8 * (n + 1)) = 256 * 2 ^ (8 * n) := by rw [Nat.mul_add, Nat.pow_add, Nat.mul_comm]
    rw [leBytes, leNat, ih, BitVec.toNat_ofNat, hpow, Nat.mod_mul]

@[simp] theorem length_leBytes (n v : Nat) : (leBytes n v).length = n := by
  induction n generalizing v with
  | zero => rfl
  | succ n ih => simp [leBytes, ih]

theorem leNat_lt (bs : List Byte) : leNat bs < 2 ^ (8 * bs.length) := by
  induction bs with
  | nil => simp [leNat]
  | cons b bs ih =>
    have hb := b.isLt
    have hpow : 2 ^ (8 * (bs.length + 1)) = 256 * 2 ^ (8 * bs.length) := by rw [Nat.mul_add, Nat.pow_add, Nat.mul_comm]
    simp only [leNat, List.length_cons, hpow]
    omega

theorem leBytes_leNat (bs : List Byte) : leBytes bs.length (leNat bs) = bs := by
  induction bs with
  | nil => rfl
  | cons b bs ih =>
    have hb := b.isLt
    have hdiv : (b.toNat + 256 * leNat bs) / 256 = leNat bs := by omega
    simp only [List.length_cons, leBytes, leNat, hdiv, ih, List.cons.injEq, and_true]
    apply BitVec.eq_of_toNat_eq
    rw [BitVec.toNat_ofNat]
    omega

end Sys2Proof.Machine
end

section
/-!
Geometry, the work identifier, the extension registers and tile slots (R39 to R41, R202, R203).
-/

namespace Sys2Proof.Machine

open Sys2Proof

/-! ## Fields of a work identifier and of the geometry -/

theorem fieldWidth_eq {geo2 : Word} {k : Nat} (h : k ≤ 5) : fieldWidth geo2 k = Claims.fieldBits geo2 k := by
  rw [fieldWidth, if_pos h, bits_toNat, Claims.fieldBits]

theorem widField_eq {geo2 x : Word} {k : Nat} (h : k ≤ 5) : widField geo2 x k = Claims.field geo2 x k := by
  have hlow : (List.range k).map (fieldWidth geo2) = (List.range k).map (Claims.fieldBits geo2) :=
    List.map_congr_left fun j hj => fieldWidth_eq (by have := List.mem_range.1 hj; omega)
  rw [widField, Claims.field, bits, fieldLow, hlow, fieldWidth_eq h]

/-- There is no field 6 or 7 (R39). -/
theorem widField_of_lt {geo2 x : Word} {k : Nat} (h : 5 < k) : widField geo2 x k = 0 := by
  rw [widField, fieldWidth, if_neg (by omega), bits, Nat.pow_zero, Nat.mod_one]

section
variable (t : Thread) (m : Nat)

theorem Task.dim_eq : t.task.dim m = (Claims.extent t m, Claims.tile t m, (t.task.geo1.extractLsb' (36 + 3 * m) 3).toNat) := by
  simp only [Task.dim, bits_toNat, Claims.extent, Claims.tile]

theorem Thread.coord_eq : t.coord m = Claims.coord t m := by
  simp only [Thread.coord, Task.dim_eq, Claims.coord]
  split
  · next h => exact widField_eq h
  · next h => exact widField_of_lt (by omega)

theorem Thread.tileStart_eq : t.tileStart m = Claims.coord t m * Claims.tile t m := by
  rw [Thread.tileStart, Thread.coord_eq, Task.dim_eq]

theorem Thread.tileLen_eq : t.tileLen m = Claims.len t m := by
  simp only [Thread.tileLen, Thread.tileStart_eq, Task.dim_eq, Claims.len]

theorem Thread.tileEdge_eq : b2n (t.tileEdge m) = Claims.edge t m := by
  simp only [Thread.tileEdge, Thread.tileStart_eq, Task.dim_eq, Claims.edge, b2n, Bool.or_eq_true, decide_eq_true_eq]

end

/-! ## Geometry words -/

/-- A geometry word writes a number of the task's registers. -/
theorem geoWord_plain {s : State} (h : s.plain) (w : BitVec 32) (d : Nat) (rs : List Nat) (f : Thread → Nat) :
    geoWord (.long w) d rs f s = .next (Claims.wrote s d (BitVec.ofNat 64 (f s.live.th)) 4) := by
  unfold geoWord
  rw [issue_writes h _ rfl d (BitVec.ofNat 64 (f s.live.th)) rfl]
  · rfl
  · rfl

theorem exec_widReg_plain {s : State} (h : s.plain) (k : BitVec 3) (a d : BitVec 5) :
    exec (.widReg k a d) s =
      .next (Claims.wrote s d.toNat (BitVec.ofNat 64 (widField s.th.task.geo2 (s.reg a.toNat) k.toNat)) 4) := by
  change execWidReg k a d s = _
  unfold execWidReg
  rw [issue_writes h _ rfl d.toNat (BitVec.ofNat 64 (widField s.th.task.geo2 (s.reg a.toNat) k.toNat)) rfl]
  · rfl
  · rw [State.readS_off (qmap_live h)]
    simp only [State.th_live]
    rfl

theorem geometryWords : Claims.GeometryWords := by
  intro s h d
  refine ⟨fun m _ => ⟨?start, ?len, ?crd⟩, ?edge, fun k hk => ⟨?field, fun a => ?reg⟩⟩
  case start =>
    change execGeoStart m d s = _
    rw [execGeoStart, geoWord_plain h, State.th_live, ← Thread.tileStart_eq]
    rfl
  case len =>
    change execGeoLen m d s = _
    rw [execGeoLen, geoWord_plain h, State.th_live, ← Thread.tileLen_eq]
    rfl
  case crd =>
    change execGeoCrd m d s = _
    rw [execGeoCrd, geoWord_plain h, State.th_live, ← Thread.coord_eq]
    rfl
  case edge =>
    change execGeoEdge d s = _
    rw [execGeoEdge, geoWord_plain h, State.th_live]
    simp only [← Thread.tileEdge_eq]
    rfl
  case field =>
    change execWidField k d s = _
    rw [execWidField, geoWord_plain h, State.th_live, ← widField_eq hk]
    rfl
  case reg => rw [← widField_eq hk]; exact exec_widReg_plain h k a d

/-! ## Extension registers -/

theorem exec_xli_plain {s : State} (h : s.plain) (i : BitVec 12) (a : BitVec 5) (n : BitVec 3) :
    exec (.xli i a n) s = .next (s.setTh ((s.th.setEreg n.toNat (s.reg a.toNat + i.signExtend 64)).went 4)) := by
  change execXli i a n s = _
  unfold execXli
  rw [issue_plain h _ rfl, State.readS_off (qmap_live h)]
  simp only [Issue.acts, if_true, finish_ok, State.advance, State.th_setTh, State.setTh_setTh, State.setTh_live, State.sreg_live]
  rw [State.th_live]
  rfl

theorem exec_xmv_plain {s : State} (h : s.plain) (n : BitVec 3) (d : BitVec 5) :
    exec (.xmv n d) s = .next (Claims.wrote s d.toNat (s.th.ereg n.toNat) 4) := by
  change execXmv n d s = _
  unfold execXmv
  rw [issue_writes h _ rfl d.toNat (s.th.ereg n.toNat) rfl]
  · rfl
  · rw [State.th_live, Thread.ereg_live]

theorem length_lsSeen (s : State) (n a size : Nat) : (s.lsSeen n a size).length = size := by
  simp only [State.lsSeen]
  split
  · exact length_memRead ..
  · simp

/-- A load of a range without poison inside the local store gets its bytes, and is logged (R126, R214). -/
theorem State.lsSeen_live (s : State) (a n : Nat) : s.live.lsSeen s.live.cur.1 a n = s.lsSeen s.cur.1 a n := by
  have hco : s.live.core s.live.cur.1 = s.co.setThread s.cur.2 s.th.live := s.co_live
  simp only [State.lsSeen, State.lsBytes, hco]
  rfl

theorem State.localLoad_ok {s : State} {la : Word} {n : Nat} (hin : la.toNat + n ≤ 0x80000) (hbad : anyBad s.co.lsBad la.toNat n = false) :
    s.localLoad la n = .ok (s.lsSeen s.cur.1 la.toNat n, (s.logPort s.cur.1 la.toNat n 3 s.self).bump) := by
  have hfirst : firstBad s.co.lsBad la.toNat n = none := by
    simpa [firstBad, anyBad] using hbad
  simp only [State.localLoad, outOfLocal, hfirst]
  rw [if_neg (by simpa using hin)]

/-- A delayed bank aside, a load of the local store writes its register at once (R34, R100). -/
theorem State.finishLocal_now {s : State} {dst : RegName} {ext : LoadExt} {la n : Nat} {bs : List Byte}
    (h : s.co.bankReady la n < s.co.cyc + 16) :
    s.finishLocal dst ext la n bs = s.setTh (s.th.setReg dst (ext.result (match dst with | .v d => s.th.vreg d | _ => 0)
      (memWrite 0 bs []) [])) := by
  simp only [State.finishLocal, State.finishAt, h, decide_true, Bool.or_true, if_true]
  rfl

/-- A 64-bit value passes through a vector-wide one. -/
theorem extractLsb'_zeroExtend_word (x : Word) : (x.zeroExtend 512).extractLsb' 0 64 = x := by
  ext j hj
  have hj' : j < 512 := by omega
  simp [hj', BitVec.getLsbD_eq_getElem hj]

theorem LoadExt.result_unsigned64 {bs : List Byte} (h : bs.length = 8) (old : Vec) (ps : List (Nat × Nat)) :
    (LoadExt.result (.unsigned 64) old (memWrite 0 bs []) ps).extractLsb' 0 64 = BitVec.ofNat 64 (leNat bs) := by
  have hnum : memNum 0 8 (memWrite 0 bs []) = leNat bs := by rw [← h, memNum_memWrite_self]
  simp only [LoadExt.result, LoadExt.value, hnum, extZ_eq_setWidth, BitVec.setWidth_eq, extractLsb'_zeroExtend_word]

/-- The banks and the cycle are as before a read that was logged. -/
theorem State.bankReady_logPort (s : State) (m n a size kind : Nat) (w : Source) (la z : Nat) :
    ((s.logPort n a size kind w).core m).bankReady la z = (s.core m).bankReady la z ∧
      ((s.logPort n a size kind w).core m).cyc = (s.core m).cyc := by
  obtain ⟨r, hr⟩ := s.core_logPort n a size kind w m
  rw [hr]
  exact ⟨rfl, rfl⟩

theorem State.co_bump (s : State) : s.bump.co = s.co := rfl

/-- The banks serve a thread that issued as they would have served it. -/
theorem State.bankReady_logged_live (s : State) (la n size kind : Nat) (w : Source) (a : Nat)
    (h : s.co.bankReady la n < s.co.cyc + 16) :
    (s.live.logPort s.cur.1 a size kind w).bump.co.bankReady la n < (s.live.logPort s.cur.1 a size kind w).bump.co.cyc + 16 := by
  obtain ⟨hready, hcyc⟩ := s.live.bankReady_logPort s.cur.1 s.cur.1 a size kind w la n
  have hco : s.live.core s.cur.1 = s.co.setThread s.cur.2 s.th.live := s.co_live
  rw [State.co_bump, State.co, State.logPort_cur, State.cur_live, hready, hcyc, hco]
  exact h

/-- The local store of the core of a word that wrote its thread is the one before it. -/
theorem State.advance_setTh_co_ls {s t : State} (hcur : t.cur = s.cur) (hls : ∀ m, (t.core m).ls = (s.core m).ls) (x : Thread) (k : Nat) :
    ((t.setTh x).advance k).co.ls = s.co.ls := by
  simp only [State.co, State.advance_ls, State.setTh_ls, State.cur_advance, State.setTh_cur, hls, hcur]

theorem exec_xld_plain {s : State} (h : s.plain) (i : BitVec 12) (a : BitVec 5) (n : BitVec 3)
    (hal : (s.reg a.toNat + i.signExtend 64).toNat % 8 = 0) (hin : (s.reg a.toNat + i.signExtend 64).toNat + 8 ≤ 0x80000)
    (hbad : anyBad s.co.lsBad (s.reg a.toNat + i.signExtend 64).toNat 8 = false)
    (hnow : s.co.bankReady (s.reg a.toNat + i.signExtend 64).toNat 8 < s.co.cyc + 16) :
    ∃ t, exec (.xld i a n) s = .next t ∧
      t.th = (s.th.setEreg n.toNat (BitVec.ofNat 64 (leNat (s.lsSeen s.cur.1 (s.reg a.toNat + i.signExtend 64).toNat 8)))).went 4 ∧
      t.co.ls = s.co.ls ∧ Claims.elsewhere s t := by
  generalize hla : s.reg a.toNat + i.signExtend 64 = la at *
  have hload := State.localLoad_ok (s := s.live) (la := la) hin (by rw [State.co_live]; exact hbad)
  have hseen : s.live.lsSeen s.live.cur.1 la.toNat 8 = s.lsSeen s.cur.1 la.toNat 8 := s.lsSeen_live _ _
  have hth : (s.live.logPort s.cur.1 la.toNat 8 3 s.live.self).bump.th = s.th.live := by
    change (s.live.logPort s.cur.1 la.toNat 8 3 s.live.self).th = _
    rw [State.th_logPort, State.th_live]
  have hbody : exec (.xld i a n) s = .next (State.advance ((s.live.logPort s.cur.1 la.toNat 8 3 s.live.self).bump.setTh
      (s.th.live.setEreg n.toNat (BitVec.ofNat 64 (leNat (s.lsSeen s.cur.1 la.toNat 8))))) 4) := by
    change execXld i a n s = _
    unfold execXld
    refine issue_plain_ok h rfl rfl rfl ?_
    rw [State.readS_off (qmap_live h)]
    simp only [State.sreg_live, hla, hal, hload, hseen, bind, Except.bind, pure, Except.pure]
    rw [if_neg (by decide), State.cur_live, State.finishLocal_now (s.bankReady_logged_live _ _ _ _ _ _ hnow), hth,
      Thread.setReg, LoadExt.result_unsigned64 (length_lsSeen ..)]
  refine ⟨_, hbody, ?th, ?ls, elsewhere_advance_of_live (by exact State.logPort_cur ..) ?elsewhere _⟩
  case th => rw [State.th_advance, State.th_setTh]; rfl
  case ls =>
    exact State.advance_setTh_co_ls (by exact State.logPort_cur ..) (fun m => (State.logPort_ls ..).trans (s.live_ls m)) _ _
  case elsewhere =>
    exact elsewhere_trans (s := s.live) (t := (s.live.logPort s.cur.1 la.toNat 8 3 s.live.self).bump) (State.logPort_cur ..)
      (s.live.elsewhere_logPort ..) (State.elsewhere_setTh ..)

theorem exec_xld_misaligned {s : State} (h : s.plain) (i : BitVec 12) (a : BitVec 5) (n : BitVec 3)
    (hal : (s.reg a.toNat + i.signExtend 64).toNat % 8 ≠ 0) :
    exec (.xld i a n) s = .next (Claims.trapped s 4 (s.reg a.toNat + i.signExtend 64)) := by
  change execXld i a n s = _
  unfold execXld
  refine issue_plain_trap h rfl rfl (by decide) ?_
  rw [State.readS_off (qmap_live h)]
  simp only [State.sreg_live]
  rw [if_pos hal]
  rfl

/-! ## Tile slots (R203) -/

/-- A thread that issues, writes a register and goes on by `k` bytes. -/
theorem Thread.went_setSreg (t : Thread) (d k : Nat) (v : Word) :
    { t.live.setSreg d v with pc := (t.live.setSreg d v).pc + BitVec.ofNat 64 k } = (t.setSreg d v).went k := by
  simp only [Thread.went, Thread.live, Thread.setSreg, Thread.healed, Thread.abs]
  split
  · rfl
  · split <;> rfl

theorem firstBad_nil (a n : Nat) : firstBad [] a n = none := by simp [firstBad]

/-- In a running frame a tile slot's address is that of its OFFS entry, whose read is logged. -/
theorem exec_tsa_plain {s : State} (h : s.plain) (j : BitVec 3) (a d : BitVec 5) (hframe : s.frameAt (s.reg a.toNat) = true)
    (hstate : s.lsNum s.cur.1 ((s.reg a.toNat).toNat - 256 + 28) 1 = 1) (hbad : s.co.lsBad = []) :
    exec (.tsa j a d) s = .next (State.advance ((s.live.logPort s.cur.1 ((s.reg a.toNat).toNat - 256 + 32 + 4 * j.toNat) 4 3
      s.live.self).setTh (s.th.live.setSreg d.toNat (slotAddress (s.reg a.toNat)
        (s.lsNum s.cur.1 ((s.reg a.toNat).toNat - 256 + 32 + 4 * j.toNat) 4)))) 4) := by
  have hframe' : s.live.frameAt (s.reg a.toNat) = true := by rw [State.frameAt, State.co_live]; exact hframe
  have hbad' : s.live.co.lsBad = [] := by rw [State.co_live]; exact hbad
  have hnum (x z : Nat) : s.live.lsNum s.live.cur.1 x z = s.lsNum s.cur.1 x z := by simp only [State.lsNum, State.cur_live, State.live_ls]
  change execTsa j a d s = _
  unfold execTsa
  refine issue_plain_ok h rfl rfl rfl ?_
  rw [State.readS_off (qmap_live h)]
  simp only [State.sreg_live, hframe', hbad', firstBad_nil, hnum, hstate]
  rw [if_neg (by decide), if_neg (by decide), State.writeS_off (by rw [State.th_logPort]; exact qmap_live h), State.th_logPort,
    State.th_live]
  rfl

theorem extensionWords : Claims.ExtensionWords := by
  intro s h a d n i
  refine ⟨exec_xli_plain h i a n, exec_xmv_plain h n d, exec_xld_plain h i a n, exec_xld_misaligned h i a n,
    fun j hframe hstate hbad => ⟨_, exec_tsa_plain h j a d hframe hstate hbad, ?th, ?ls, ?elsewhere⟩⟩
  case th =>
    rw [State.th_advance, State.th_setTh, Thread.went_setSreg, slotAddress]
  case ls =>
    exact State.advance_setTh_co_ls (by exact State.logPort_cur ..) (fun m => (State.logPort_ls ..).trans (s.live_ls m)) _ _
  case elsewhere =>
    exact elsewhere_advance_of_live (by exact State.logPort_cur ..) (elsewhere_trans (State.logPort_cur ..)
      (s.live.elsewhere_logPort ..) (State.elsewhere_setTh ..)) _

/-- Settles O20: the two parts above. -/
theorem geometryAndExtensionWords : Obligations.GeometryAndExtensionWords := by
  unfold Obligations.GeometryAndExtensionWords
  exact ⟨geometryWords, extensionWords⟩

end Sys2Proof.Machine
end

section
/-!
Pending registers, registers with bad parity, and false predicates of scalar words (R34, R173, R407).
-/

namespace Sys2Proof.Machine

open Sys2Proof

/-! ## Words that name scalar registers only -/

/-- A word of four bytes issues whatever the state is, under predicate `p`, and names the scalar registers `rs`, which it reads, and `ws`,
which it writes, and no others. -/
def NamesScalars (i : Instr) (p : Option Nat) (rs ws : List Nat) : Prop :=
  ∀ s, ∃ k body, exec i s = issue k s body ∧ k.pred = p ∧ k.reads = rs ∧ k.writes = ws ∧ k.others = [] ∧ k.dests = [] ∧
    k.bars = none ∧ k.code.bytes = 4

theorem rg2_namesScalars {i : Instr} {w : BitVec 32} {p a b d : Nat} {f : Nat → Nat → Word} (h : ∀ s, exec i s = rg2 (.long w) p a b d f s) :
    NamesScalars i (some p) [a, b] [d] := fun s => ⟨_, _, h s, rfl, rfl, rfl, rfl, rfl, rfl, rfl⟩

theorem rg1_namesScalars {i : Instr} {w : BitVec 32} {p a d : Nat} {f : Nat → Word} (h : ∀ s, exec i s = rg1 (.long w) p a d f s) :
    NamesScalars i (some p) [a] [d] := fun s => ⟨_, _, h s, rfl, rfl, rfl, rfl, rfl, rfl, rfl⟩

theorem im1_namesScalars {i : Instr} {w : BitVec 32} {a d : Nat} {f : Word → Word} (h : ∀ s, exec i s = im1 (.long w) a d f s) :
    NamesScalars i none [a] [d] := fun s => ⟨_, _, h s, rfl, rfl, rfl, rfl, rfl, rfl, rfl⟩

theorem loadDevice_namesScalars {i : Instr} {w : BitVec 32} {a d n : Nat} {off : Word} {ext : LoadExt}
    (h : ∀ s, exec i s = loadDevice (.long w) a off d n ext s) : NamesScalars i none [a] [d] :=
  fun s => ⟨_, _, h s, rfl, rfl, rfl, rfl, rfl, rfl, rfl⟩

theorem loadLocal_namesScalars {i : Instr} {w : BitVec 32} {a d n : Nat} {off : Word}
    (h : ∀ s, exec i s = loadLocal (.long w) a off d n s) : NamesScalars i none [a] [d] :=
  fun s => ⟨_, _, h s, rfl, rfl, rfl, rfl, rfl, rfl, rfl⟩

theorem storeDevice_namesScalars {i : Instr} {w : BitVec 32} {a d n : Nat} {off : Word}
    (h : ∀ s, exec i s = storeDevice (.long w) a off d n s) : NamesScalars i none [d, a] [] :=
  fun s => ⟨_, _, h s, rfl, rfl, rfl, rfl, rfl, rfl, rfl⟩

theorem storeLocal_namesScalars {i : Instr} {w : BitVec 32} {a d n : Nat} {off : Word}
    (h : ∀ s, exec i s = storeLocal (.long w) a off d n s) : NamesScalars i none [d, a] [] :=
  fun s => ⟨_, _, h s, rfl, rfl, rfl, rfl, rfl, rfl, rfl⟩

theorem branch_namesScalars {i : Instr} {w : BitVec 32} {c a : Nat} {off : Word} (h : ∀ s, exec i s = branch (.long w) c a off s) :
    NamesScalars i none [a] [] := fun s => ⟨_, _, h s, rfl, rfl, rfl, rfl, rfl, rfl, rfl⟩

theorem loopBranch_namesScalars {i : Instr} {w : BitVec 32} {c a : Nat} {off : Word}
    (h : ∀ s, exec i s = loopBranch (.long w) c a off s) : NamesScalars i none [a] [a] :=
  fun s => ⟨_, _, h s, rfl, rfl, rfl, rfl, rfl, rfl, rfl⟩

section
variable (p : BitVec 3) (w : BitVec 2) (k : BitVec 12) (m : BitVec 6) (o : BitVec 15) (b a d : BitVec 5)

theorem namesScalars_of_mem_rg2Words : ∀ r ∈ Claims.rg2Words,
    NamesScalars (r.1 p b a w d) (some p.toNat) [a.toNat, b.toNat] [d.toNat] := by
  simp only [Claims.rg2Words, List.forall_mem_cons, List.not_mem_nil, false_implies, implies_true, and_true]
  refine ⟨?_, ?_, ?_, ?_, ?_, ?_, ?_, ?_, ?_, ?_, ?_, ?_, ?_, ?_, ?_, ?_, ?_, ?_, ?_, ?_, ?_, ?_, ?_, ?_, ?_, ?_, ?_⟩
  all_goals exact rg2_namesScalars fun s => rfl

theorem namesScalars_of_mem_rg1Words : ∀ r ∈ Claims.rg1Words, NamesScalars (r.1 p a w d) (some p.toNat) [a.toNat] [d.toNat] := by
  simp only [Claims.rg1Words, List.forall_mem_cons, List.not_mem_nil, false_implies, implies_true, and_true]
  refine ⟨?_, ?_, ?_, ?_, ?_⟩
  all_goals exact rg1_namesScalars fun s => rfl

theorem namesScalars_of_mem_immWords {r : Claims.Imm × (Word → Word → Word)} (hr : r ∈ Claims.immWords) :
    NamesScalars (r.1 k a d) none [a.toNat] [d.toNat] := by
  obtain ⟨_, h⟩ := exec_of_mem_immWords hr k a d
  exact im1_namesScalars h

theorem namesScalars_of_mem_shiftWords : ∀ r ∈ Claims.shiftWords, NamesScalars (r.1 m a d) none [a.toNat] [d.toNat] := by
  simp only [Claims.shiftWords, List.forall_mem_cons, List.not_mem_nil, false_implies, implies_true, and_true]
  exact ⟨im1_namesScalars (f := fun x => iShl 64 x.toNat m.toNat) fun s => rfl,
    im1_namesScalars (f := fun x => iShr 64 x.toNat m.toNat) fun s => rfl,
    im1_namesScalars (f := fun x => iSar 64 x.toNat m.toNat) fun s => rfl,
    im1_namesScalars (f := fun x => iRor 64 x.toNat m.toNat) fun s => rfl⟩

theorem namesScalars_of_mem_localLoads : ∀ r ∈ Claims.localLoads, NamesScalars (r.1 k a d) none [a.toNat] [d.toNat] := by
  simp only [Claims.localLoads, List.forall_mem_cons, List.not_mem_nil, false_implies, implies_true, and_true]
  refine ⟨?_, ?_, ?_, ?_⟩
  all_goals exact loadLocal_namesScalars fun s => rfl

theorem namesScalars_of_mem_deviceLoads : ∀ r ∈ Claims.deviceLoads, NamesScalars (r.1 k a d) none [a.toNat] [d.toNat] := by
  simp only [Claims.deviceLoads, List.forall_mem_cons, List.not_mem_nil, false_implies, implies_true, and_true]
  refine ⟨?_, ?_, ?_, ?_, ?_, ?_, ?_⟩
  all_goals exact loadDevice_namesScalars fun s => rfl

theorem namesScalars_of_mem_stores : ∀ r ∈ Claims.localStores ++ Claims.deviceStores,
    NamesScalars (r.1 k a d) none [d.toNat, a.toNat] [] := by
  simp only [Claims.localStores, Claims.deviceStores, List.cons_append, List.nil_append, List.forall_mem_cons, List.not_mem_nil,
    false_implies, implies_true, and_true]
  refine ⟨?_, ?_, ?_, ?_, ?_, ?_, ?_, ?_⟩
  iterate 4 exact storeLocal_namesScalars fun s => rfl
  all_goals exact storeDevice_namesScalars fun s => rfl

theorem namesScalars_of_mem_branchWords : ∀ r ∈ Claims.branchWords,
    NamesScalars (r.1 o a) none [a.toNat] [] ∧ NamesScalars (r.2.1 o a) none [a.toNat] [a.toNat] := by
  simp only [Claims.branchWords, List.forall_mem_cons, List.not_mem_nil, false_implies, implies_true, and_true]
  refine ⟨?_, ?_, ?_, ?_, ?_, ?_, ?_, ?_⟩
  all_goals exact ⟨branch_namesScalars fun s => rfl, loopBranch_namesScalars fun s => rfl⟩

/-- The words with one source read it alone. -/
theorem namesScalars_of_mem_oneSource {i : Instr} (hi : i ∈ Claims.oneSource k m o a d) : ∃ ws, NamesScalars i none [a.toNat] ws := by
  simp only [Claims.oneSource, List.mem_append, List.mem_map] at hi
  rcases hi with (((⟨r, hr, rfl⟩ | ⟨r, hr, rfl⟩) | ⟨r, hr, rfl⟩) | ⟨r, hr, rfl⟩) | ⟨r, hr, rfl⟩
  · exact ⟨_, namesScalars_of_mem_immWords k a d hr⟩
  · exact ⟨_, namesScalars_of_mem_shiftWords m a d r hr⟩
  · exact ⟨_, namesScalars_of_mem_localLoads k a d r hr⟩
  · exact ⟨_, namesScalars_of_mem_deviceLoads k a d r hr⟩
  · exact ⟨_, (namesScalars_of_mem_branchWords o a r hr).1⟩

end

/-! ## What keeps a word from acting -/

/-- A slot whose thread begins to issue and is then found to wait (R34). -/
theorem State.live_stalled (s : State) : s.live.stalled = Claims.slotEmpty s := by
  rw [State.stalled, State.th_live, State.setTh_live]
  rfl

theorem issueState_blocked {s : State} {k : Issue} (body : State → Except Stop State) (h : s.live.th.blocked k = true) :
    issueState k s body = Claims.slotEmpty s := by
  rw [← State.live_stalled]
  unfold issueState
  dsimp only
  exact if_pos h

/-- A register of the word is pending. -/
theorem Thread.blocked_of_mem {t : Thread} {k : Issue} {r : RegName} (hr : r ∈ k.names) (h : ∃ x ∈ t.pend, x.1 = t.abs r) :
    t.blocked k = true := by
  obtain ⟨x, hx, he⟩ := h
  have hpend : t.pend.isEmpty = false := by
    cases hp : t.pend with
    | nil => rw [hp] at hx; exact absurd hx (List.not_mem_nil)
    | cons => rfl
  simp only [Thread.blocked, hpend, Bool.not_false, Bool.true_and, List.any_eq_true, Thread.isPending, decide_eq_true_eq]
  exact ⟨r, hr, x, hx, he⟩

theorem Thread.blocked_of_pend_nil {t : Thread} (h : t.pend = []) (k : Issue) : t.blocked k = false := by
  simp [Thread.blocked, h]

section
variable {s : State} (hs : Claims.alone s) (hpend : s.th.pend = []) {k : Issue} (hbars : k.bars = none)
  (body : State → Except Stop State)

include hs hpend

/-- With no register pending and no partner, a word first reads its predicate (R173, R407). -/
theorem issueState_bad_pred {r : Stop} (hp : s.live.poisonedIn (k.pred.toList.map RegName.p) = some r) :
    issueState k s body = s.live.stop r := by
  obtain ⟨hpair, -, -, -⟩ := hs
  have hlive : s.setTh { s.th with run := .running, qblock := none } = s.live := rfl
  have hwait : s.live.th.blocked k = false := Thread.blocked_of_pend_nil (by rw [State.th_live]; exact hpend) k
  have htrap : s.live.th.trapReady = none := by rw [Thread.trapReady, if_pos (by rw [State.th_live]; exact hpair)]
  simp only [issueState, hlive, hwait, htrap, hp, Bool.false_eq_true, if_false]

variable (hp : s.live.poisonedIn (k.pred.toList.map RegName.p) = none)

include hp

/-- A false predicate makes the word a no-op (R173). -/
theorem issueState_false_pred (hacts : k.acts s.th = false) : issueState k s body = s.went k.code.bytes := by
  obtain ⟨hpair, -, -, -⟩ := hs
  have hlive : s.setTh { s.th with run := .running, qblock := none } = s.live := rfl
  have hwait : s.live.th.blocked k = false := Thread.blocked_of_pend_nil (by rw [State.th_live]; exact hpend) k
  have htrap : s.live.th.trapReady = none := by rw [Thread.trapReady, if_pos (by rw [State.th_live]; exact hpair)]
  cases hpred : k.pred with
  | none => simp [Issue.acts, hpred] at hacts
  | some q =>
    rw [Issue.acts, hpred] at hacts
    have hfalse : (s.live.th.preg q).getLsbD 0 = false := by rw [State.th_live]; exact hacts
    rw [hpred] at hp
    simp only [issueState, hlive, hwait, htrap, hpred, hp, hfalse, Bool.false_eq_true, if_false, Bool.not_false, if_true, State.went_eq]

include hbars

/-- Then it reads its sources (R407). -/
theorem issueState_bad_source (hacts : k.acts s.th = true) {r : Stop} (hr : s.live.poisoned k = some r) :
    issueState k s body = s.live.stop r := by
  obtain ⟨hpair, -, hrecon, -⟩ := hs
  have hlive : s.setTh { s.th with run := .running, qblock := none } = s.live := rfl
  have hwait : s.live.th.blocked k = false := Thread.blocked_of_pend_nil (by rw [State.th_live]; exact hpend) k
  have htrap : s.live.th.trapReady = none := by rw [Thread.trapReady, if_pos (by rw [State.th_live]; exact hpair)]
  have hrecon' : (k.quiet && s.live.th.inRecon) = false := by
    rw [State.th_live, show s.th.live.inRecon = false from hrecon, Bool.and_false]
  cases hpred : k.pred with
  | none =>
    rw [hpred] at hp
    simp only [issueState, hlive, hwait, htrap, hpred, hp, hrecon', hbars, hr, Bool.false_eq_true, if_false]
  | some q =>
    rw [Issue.acts, hpred] at hacts
    have htrue : (s.live.th.preg q).getLsbD 0 = true := by rw [State.th_live]; exact hacts
    rw [hpred] at hp
    simp only [issueState, hlive, hwait, htrap, hpred, hp, hrecon', hbars, hr, htrue, Bool.not_true, Bool.false_eq_true, if_false]

end

/-! ## Bad parity -/

/-- The number that a word names a register with. -/
def numberOf : RegName → Nat
  | .s n => n | .v n => n | .p n => n | .e n => n | .w n => n | .spr n => n

/-- How a word that reads a bad register, which it names by number n, stops (R407). -/
def parityStop (n : Nat) : Stop := .fail 3 0 (BitVec.ofNat 64 (1 + n % 256 * 256))

section
variable {s : State} {r : RegName} (rs : List RegName)

theorem State.poisonedIn_cons_bad (h : Claims.isBad s r) : s.live.poisonedIn (r :: rs) = some (parityStop (numberOf r)) := by
  have hmem : s.th.live.regBad.contains (s.th.live.abs r) = true := List.contains_iff_mem.2 h
  have hne : s.th.live.regBad.isEmpty = false := by
    cases hb : s.th.live.regBad with
    | nil => rw [hb] at hmem; exact absurd hmem (by simp)
    | cons => rfl
  simp only [State.poisonedIn, Thread.badAmong, State.th_live, hne, Bool.false_eq_true, if_false, List.find?_cons, hmem, Option.map_some,
    parityStop]
  rfl

theorem State.poisonedIn_cons_good (h : ¬ Claims.isBad s r) : s.live.poisonedIn (r :: rs) = s.live.poisonedIn rs := by
  have hmem : s.th.live.regBad.contains (s.th.live.abs r) = false := by
    rw [Bool.eq_false_iff, ne_eq, List.contains_iff_mem]
    exact h
  simp only [State.poisonedIn, Thread.badAmong, State.th_live, List.find?_cons, hmem]

theorem State.poisonedIn_nil : s.live.poisonedIn [] = none := by simp [State.poisonedIn, Thread.badAmong]

end

/-- The record of a failure of the issuing thread. -/
def State.failInfo (s : State) (cause : Nat) (pc v1 v2 : Word) : FailInfo :=
  { cause := cause, pc := pc, val1 := v1, val2 := v2, pre := false, queued := false, wid := s.th.wid, cyc := s.co.cyc }

/-- An unpaired thread that issues begins to fail, and nothing else changes (R364). -/
theorem State.fail_live {s : State} (hpair : s.th.pair = 0) (cause : Nat) (pc v1 v2 : Word) :
    s.live.fail cause pc v1 v2 = s.setTh (s.th.live.failWith (s.failInfo cause pc v1 v2)) := by
  have hth : s.live.thread s.cur.1 s.cur.2 = s.th.live := State.th_live s
  have hcyc : (s.live.core s.cur.1).cyc = s.co.cyc := s.core_setThread_field _ _ _ _ (·.cyc) fun _ => rfl
  have hpair' : s.th.live.pair = 0 := hpair
  have hrun : s.th.live.run ≠ .halted := Run.noConfusion
  simp only [State.fail, State.cur_live, State.failThread, hth, hpair', if_neg hrun, hcyc]
  exact State.setTh_live s _

/-- A word that reads a bad register stops as R407 says. -/
theorem parityFails_of_exec {s : State} (hs : Claims.alone s) {i : Instr} {n : Nat} (hn : n < 32)
    (h : exec i s = .next (s.live.stop (parityStop n))) : Claims.parityFails s i n := by
  have ht : exec i s = .next (s.setTh (s.th.live.failWith
      (s.failInfo 3 s.th.pc 0 (BitVec.ofNat 64 (1 + n % 256 * 256))))) := by
    rw [h, ← State.fail_live hs.1, ← show s.live.th.pc = s.th.pc by rw [State.th_live]; rfl]
    rfl
  refine ⟨_, 1, s.failInfo 3 s.th.pc 0 (BitVec.ofNat 64 (1 + n % 256 * 256)), ht, ?run, ?fail, rfl, rfl, rfl, ?val, fun m => ?reg, ?ls, s.elsewhere_setTh _⟩
  case run => rw [State.th_setTh]; rfl
  case fail => rw [State.th_setTh]; rfl
  case val => rw [State.failInfo, Nat.mod_eq_of_lt (by omega)]
  case reg => rw [State.reg, State.th_setTh]; rfl
  case ls => rw [State.co_setTh]; rfl

/-! ## Scalar words -/

section
variable {s : State} (hs : Claims.alone s) {i : Instr} {p : Option Nat} {rs ws : List Nat} (hi : NamesScalars i p rs ws)

include hi in
theorem NamesScalars.waits {d : BitVec 5} (h : Claims.isWaiting s d) (hd : d.toNat ∈ rs ++ ws) :
    exec i s = .next (Claims.slotEmpty s) := by
  obtain ⟨k, body, he, hp, hr, hw, -⟩ := hi s
  rw [he, issue, issueState_blocked body (Thread.blocked_of_mem (r := .s d.toNat) ?_ (by rw [State.th_live]; exact h))]
  rw [List.mem_append] at hd
  simp only [Issue.names, hr, hw, List.mem_append, List.mem_map, RegName.s.injEq, exists_eq_right]
  tauto

include hi in
/-- The governing predicate is pending. -/
theorem NamesScalars.waits_pred {q : Nat} (hq : p = some q) (h : ∃ x ∈ s.th.pend, x.1 = .p q) : exec i s = .next (Claims.slotEmpty s) := by
  obtain ⟨k, body, he, hp, -⟩ := hi s
  rw [he, issue, issueState_blocked body (Thread.blocked_of_mem (r := .p q) ?_ (by rw [State.th_live]; exact h))]
  simp [Issue.names, hp, hq]

include hs hi

/-- A bad predicate is read before all else. -/
theorem NamesScalars.fails_pred (hpend : s.th.pend = []) {q : Nat} (hq : p = some q) (hlt : q < 32) (hbad : Claims.isBad s (.p q)) :
    Claims.parityFails s i q := by
  obtain ⟨k, body, he, hp, -⟩ := hi s
  apply parityFails_of_exec hs hlt
  rw [he, issue, issueState_bad_pred hs hpend body (r := parityStop q)]
  rw [hp, hq, Option.toList_some, List.map_cons, State.poisonedIn_cons_bad _ hbad]
  rfl

/-- Under a false predicate a word reads it alone. -/
theorem NamesScalars.skips (hpend : s.th.pend = []) {q : Nat} (hq : p = some q) (hgood : ¬ Claims.isBad s (.p q))
    (hfalse : (s.th.preg q).getLsbD 0 = false) : exec i s = .next (s.went 4) := by
  obtain ⟨k, body, he, hp, -, -, -, -, -, hbytes⟩ := hi s
  have hgood' : s.live.poisonedIn (k.pred.toList.map RegName.p) = none := by
    rw [hp, hq, Option.toList_some, List.map_cons, State.poisonedIn_cons_good _ hgood, List.map_nil, State.poisonedIn_nil]
  rw [he, issue, issueState_false_pred hs hpend body hgood' (by rw [Issue.acts, hp, hq]; exact hfalse), hbytes]

/-- A word that acts fails by the first of its sources that is bad. -/
theorem NamesScalars.fails (hpend : s.th.pend = [])
    (hacts : ∀ q, p = some q → ¬ Claims.isBad s (.p q) ∧ (s.th.preg q).getLsbD 0 = true) {n : Nat} (hlt : n < 32)
    (hbad : s.live.poisonedIn (rs.map .s) = some (parityStop n)) : Claims.parityFails s i n := by
  obtain ⟨k, body, he, hp, hr, -, ho, hd, hbars, -⟩ := hi s
  have hsources : k.sources = rs.map .s := by simp [Issue.sources, hr, ho, hd]
  have hpred : s.live.poisonedIn (p.toList.map RegName.p) = none := by
    cases p with
    | none => exact State.poisonedIn_nil
    | some q => rw [Option.toList_some, List.map_cons, State.poisonedIn_cons_good _ (hacts q rfl).1, List.map_nil, State.poisonedIn_nil]
  have htrue : k.acts s.th = true := by
    rw [Issue.acts, hp]
    cases p with
    | none => rfl
    | some q => exact (hacts q rfl).2
  apply parityFails_of_exec hs hlt
  rw [he, issue, issueState_bad_source hs hpend hbars body (by rw [hp]; exact hpred) htrue (by rw [State.poisoned, hsources, hbad])]

end

/-- Settles O8: each word names one or two registers that it reads and at most one that it writes, whatever the state. -/
theorem pendingAndPoisonedRegisters : Obligations.PendingAndPoisonedRegisters := by
  unfold Obligations.PendingAndPoisonedRegisters
  intro s p w k m o b a d hs
  have hrg2 := namesScalars_of_mem_rg2Words p w b a d
  have hrg1 := namesScalars_of_mem_rg1Words p w a d
  have hstore := namesScalars_of_mem_stores k a d
  have hbad {n : BitVec 5} (h : Claims.isBad s (.s n.toNat)) (rs : List Nat) :
      s.live.poisonedIn ((n.toNat :: rs).map .s) = some (parityStop n.toNat) := State.poisonedIn_cons_bad _ h
  have hbad2 {n n' : BitVec 5} (hgood : ¬ Claims.isBad s (.s n.toNat)) (h : Claims.isBad s (.s n'.toNat)) :
      s.live.poisonedIn ([n.toNat, n'.toNat].map .s) = some (parityStop n'.toNat) :=
    (State.poisonedIn_cons_good _ hgood).trans (State.poisonedIn_cons_bad _ h)
  have hplt : p.toNat < 32 := by omega
  have hnone (q : Nat) : none = some q → ¬ Claims.isBad s (.p q) ∧ (s.th.preg q).getLsbD 0 = true := nofun
  refine ⟨?rg2Waits, ?rg1Waits, fun h => ⟨fun r hr => (hrg2 r hr).waits_pred rfl h, fun r hr => (hrg1 r hr).waits_pred rfl h⟩,
    ?oneWaits, ?branchWaits, fun hpend _ => ⟨?predBad, ?predFalse, ?predTrue, ?oneBad, ?dataBad, ?addressBad⟩⟩
  case rg2Waits =>
    rintro (h | h | h) r hr
    · exact (hrg2 r hr).waits h (by simp)
    · exact (hrg2 r hr).waits h (by simp)
    · exact (hrg2 r hr).waits h (by simp)
  case rg1Waits =>
    rintro (h | h) r hr
    · exact (hrg1 r hr).waits h (by simp)
    · exact (hrg1 r hr).waits h (by simp)
  case oneWaits =>
    intro h
    have hone {i : Instr} (hi : NamesScalars i none [a.toNat] [d.toNat]) : exec i s = .next (Claims.slotEmpty s) :=
      h.elim (fun h => hi.waits h (by simp)) (fun h => hi.waits h (by simp))
    have htwo {i : Instr} (hi : NamesScalars i none [d.toNat, a.toNat] []) : exec i s = .next (Claims.slotEmpty s) :=
      h.elim (fun h => hi.waits h (by simp)) (fun h => hi.waits h (by simp))
    refine ⟨fun r hr => hone (namesScalars_of_mem_immWords k a d hr), fun r hr => hone (namesScalars_of_mem_shiftWords m a d r hr),
      fun r hr => ?_, fun r hr => hone (namesScalars_of_mem_deviceLoads k a d r hr)⟩
    rw [List.append_assoc, List.mem_append] at hr
    exact hr.elim (fun hr => hone (namesScalars_of_mem_localLoads k a d r hr)) (fun hr => htwo (hstore r hr))
  case branchWaits =>
    intro h r hr
    obtain ⟨hbranch, hloop⟩ := namesScalars_of_mem_branchWords o a r hr
    exact ⟨hbranch.waits h (by simp), hloop.waits h (by simp)⟩
  case predBad =>
    exact fun h => ⟨fun r hr => (hrg2 r hr).fails_pred hs hpend rfl hplt h, fun r hr => (hrg1 r hr).fails_pred hs hpend rfl hplt h⟩
  case predFalse =>
    exact fun hp hf => ⟨fun r hr => (hrg2 r hr).skips hs hpend rfl hp hf, fun r hr => (hrg1 r hr).skips hs hpend rfl hp hf⟩
  case predTrue =>
    intro hp ht
    have hacts (q : Nat) (hq : some p.toNat = some q) : ¬ Claims.isBad s (.p q) ∧ (s.th.preg q).getLsbD 0 = true := by
      cases hq; exact ⟨hp, ht⟩
    exact ⟨fun h => ⟨fun r hr => (hrg2 r hr).fails hs hpend hacts a.isLt (hbad h _),
      fun r hr => (hrg1 r hr).fails hs hpend hacts a.isLt (hbad h _)⟩,
      fun ha hb r hr => (hrg2 r hr).fails hs hpend hacts b.isLt (hbad2 ha hb)⟩
  case oneBad =>
    intro h i hi
    obtain ⟨ws, hi⟩ := namesScalars_of_mem_oneSource k m o a d hi
    exact hi.fails hs hpend hnone a.isLt (hbad h _)
  case dataBad =>
    intro h i hi
    obtain ⟨r, hr, rfl⟩ := List.mem_map.1 hi
    exact (hstore r hr).fails hs hpend hnone d.isLt (hbad h _)
  case addressBad =>
    intro hd ha i hi
    obtain ⟨r, hr, rfl⟩ := List.mem_map.1 hi
    exact (hstore r hr).fails hs hpend hnone a.isLt (hbad2 hd ha)

end Sys2Proof.Machine
end

section
/-!
Monitor and barrier words (R61, R62, R304, R305).
-/

namespace Sys2Proof.Machine

open Sys2Proof

/-! ## Clusters -/

section
variable (s : State) (k : Nat) (c : Cluster)

@[simp] theorem State.cluster_setCluster_self : (s.setCluster k c).cluster k = c := tblGet_tblSet_self ..

theorem State.cluster_setCluster_ne {j : Nat} (h : j ≠ k) : (s.setCluster k c).cluster j = s.cluster j := tblGet_tblSet_ne _ h ..

@[simp] theorem State.core_setCluster (n : Nat) : (s.setCluster k c).core n = s.core n := rfl

@[simp] theorem State.thread_setCluster (n i : Nat) : (s.setCluster k c).thread n i = s.thread n i := rfl

@[simp] theorem State.th_setCluster : (s.setCluster k c).th = s.th := rfl

@[simp] theorem State.cluster_setThread (n i : Nat) (t : Thread) : (s.setThread n i t).cluster k = s.cluster k := rfl

@[simp] theorem State.cluster_setTh (t : Thread) : (s.setTh t).cluster k = s.cluster k := rfl

@[simp] theorem State.cluster_live : s.live.cluster k = s.cluster k := rfl

/-- A cluster and a thread change independently. -/
theorem State.setCluster_setTh (t : Thread) : (s.setTh t).setCluster k c = (s.setCluster k c).setTh t := rfl

theorem State.elsewhere_setCluster_setTh (t : Thread) : Claims.elsewhere s ((s.setCluster k c).setTh t) :=
  State.elsewhere_setTh (s.setCluster k c) t

theorem State.setCluster_setTh_ls (t : Thread) : ((s.setCluster k c).setTh t).co.ls = s.co.ls := by rw [State.co_setTh]; rfl

end

/-! ## Stalls and traps of a word that began -/

/-- What a waiting word left stays, with an empty slot (R34). -/
theorem State.stop_stall_phase {s u : State} (h : u.th.phase ≠ 0 ∧ u.th.phase ≠ 10 ∧ u.th.phase ≠ 11) :
    s.stop (.stall u) = u.setTh { u.th with run := .stalled } := by
  simp only [State.stop, State.stopBy, h.1, h.2.1, h.2.2, or_self, if_false]
  rfl

theorem issue_plain_stall_phase {s : State} (h : s.plain) {k : Issue} (hbars : k.bars = none) (hpred : k.pred = none)
    {body : State → Except Stop State} {u : State} {t : Thread} (hb : body s.live = .error (.stall (u.setTh t)))
    {p : Nat} (ht : t.phase = p) (hp : p ≠ 0 ∧ p ≠ 10 ∧ p ≠ 11) : issue k s body = .next (u.setTh { t with run := .stalled }) := by
  rw [issue_plain_stop h hbars hpred hb, State.stop_stall_phase (by rw [State.th_setTh, ht]; exact hp), State.setTh_setTh, State.th_setTh]

/-! ## Monitors (R61, R304) -/

theorem State.phase_live {s : State} (h : s.plain) : s.live.th.phase = 0 := by
  obtain ⟨_, _, _, _, _, hphase⟩ := h
  rw [State.th_live]; exact hphase

/-- A key with no entry finds none; one with an entry finds one of that key. -/
theorem Cluster.mon_eq_none {c : Cluster} {key : Word} (h : ∀ m ∈ c.mons, m.key ≠ key) : c.mon key = none := by
  simpa [Cluster.mon] using h

theorem Cluster.mon_of_exists {c : Cluster} {key : Word} (h : ∃ m ∈ c.mons, m.key = key) : ∃ m, c.mon key = some m ∧ m.key = key := by
  cases hm : c.mon key with
  | none =>
    obtain ⟨m, hmem, he⟩ := h
    exact absurd he (by simpa using List.find?_eq_none.1 hm m hmem)
  | some m => exact ⟨m, rfl, by simpa using List.find?_some hm⟩

/-- The thread after a `menter` that got its monitor. -/
def Thread.entered (t : Thread) (key : Word) : Thread :=
  { (t.went 4) with monHeld := some key, monWait := none, phase := 0, reply := none, held := [] }

/-- The thread after a `menter` that queued. -/
def Thread.queued (t : Thread) (key : Word) : Thread :=
  { t.live with run := .stalled, monHeld := none, monWait := some key, phase := 9, held := [key] }

/-- A cluster with one more monitor, or one more waiter of a key. -/
def Cluster.addMon (c : Cluster) (key : Word) (who : Nat × Nat) : Cluster :=
  { c with mons := c.mons ++ [{ key := key, holder := who, waiters := [] }] }

def Cluster.addWaiter (c : Cluster) (key : Word) (who : Nat × Nat) : Cluster :=
  { c with mons := c.mons.map (fun x => if x.key = key then { x with waiters := x.waiters ++ [who] } else x) }

section
variable {s : State} (h : s.plain) (a : BitVec 5)

include h

theorem State.peekS_live (n : Nat) : s.live.peekS n = s.reg n := by
  rw [State.peekS, State.queueOf_plain (qmap_live h)]
  exact State.sreg_live ..

theorem exec_menter_free (hheld : s.th.monHeld = none) (hfree : (s.cluster (clusterOf s.cur.1)).mon (s.reg a.toNat) = none)
    (hroom : (s.cluster (clusterOf s.cur.1)).mons.length < 64) :
    exec (.menter a) s = .next ((s.setCluster (clusterOf s.cur.1)
      ((s.cluster (clusterOf s.cur.1)).addMon (s.reg a.toNat) s.cur)).setTh (s.th.entered (s.reg a.toNat))) := by
  change execMenter a s = _
  unfold execMenter
  refine issue_plain_jump h rfl rfl rfl ?_
  have hheld' : s.live.th.monHeld = none := by rw [State.th_live]; exact hheld
  have hread (c : Cluster) : (s.live.setCluster (clusterOf s.cur.1) c).readS a.toNat =
      (s.reg a.toNat, s.live.setCluster (clusterOf s.cur.1) c) := by
    rw [State.readS_off (by rw [State.th_setCluster]; exact qmap_live h), State.th_setCluster, State.setCluster_cur, State.sreg_live]
  simp only [State.phase_live h, hheld', Option.isSome_none, Bool.false_eq_true, if_false, State.peekS_live h, State.enterMon,
    State.cur_live, State.cluster_live, hfree, hroom, if_true, hread]
  have hgive (u : State) : u.giveMon u.cur (s.reg a.toNat) = u.setTh { u.th with monHeld := some (s.reg a.toNat), monWait := none } := rfl
  simp only [hgive, State.goOn, State.endPhase, State.advance, State.th_setTh, State.setTh_setTh, State.th_setCluster, State.th_live]
  rw [State.live, State.setCluster_setTh, State.setTh_setTh]
  rfl

theorem exec_menter_taken (hheld : s.th.monHeld = none) {m : Mon} (hm : (s.cluster (clusterOf s.cur.1)).mon (s.reg a.toNat) = some m)
    (hkey : m.key = s.reg a.toNat) :
    exec (.menter a) s = .next ((s.setCluster (clusterOf s.cur.1)
      ((s.cluster (clusterOf s.cur.1)).addWaiter (s.reg a.toNat) s.cur)).setTh (s.th.queued (s.reg a.toNat))) := by
  have hheld' : s.live.th.monHeld = none := by rw [State.th_live]; exact hheld
  change execMenter a s = _
  unfold execMenter
  refine issue_plain_stall_phase h rfl rfl (t := { s.th.live with monHeld := none, monWait := some (s.reg a.toNat), phase := 9, held := [s.reg a.toNat] })
    (p := 9) ?_ rfl (by decide)
  simp only [State.phase_live h, hheld', Option.isSome_none, Bool.false_eq_true, if_false, State.peekS_live h, State.enterMon,
    State.cur_live, State.cluster_live, hm, hkey, State.th_setCluster]
  rw [State.th_live, State.live, State.setCluster_setTh, State.setTh_setTh]
  rfl

theorem exec_menter_twice (hheld : s.th.monHeld.isSome = true) :
    exec (.menter a) s = .next (Claims.trapped s 5 (Claims.word (.menter a))) := by
  have hheld' : s.live.th.monHeld.isSome = true := by rw [State.th_live]; exact hheld
  change execMenter a s = _
  unfold execMenter
  refine issue_plain_trap h rfl rfl (by decide) ?_
  simp only [State.phase_live h, hheld', if_true]
  rfl

theorem exec_mexit_not_held (hheld : s.th.monHeld ≠ some (s.reg a.toNat)) :
    exec (.mexit a) s = .next (Claims.trapped s 5 (Claims.word (.mexit a))) := by
  have hheld' : s.live.th.monHeld ≠ some (s.reg a.toNat) := by rw [State.th_live]; exact hheld
  change execMexit a s = _
  unfold execMexit
  refine issue_plain_trap h rfl rfl (by decide) ?_
  rw [State.readS_off (qmap_live h), State.sreg_live]
  exact if_neg hheld'

theorem exec_mexit_held (hheld : s.th.monHeld = some (s.reg a.toNat)) :
    exec (.mexit a) s = .next ((s.live.leaveMon s.cur.1 s.cur.2 (s.reg a.toNat)).advance 4) := by
  have hheld' : s.live.th.monHeld = some (s.reg a.toNat) := by rw [State.th_live]; exact hheld
  change execMexit a s = _
  unfold execMexit
  refine issue_plain_ok h rfl rfl rfl ?_
  rw [State.readS_off (qmap_live h), State.sreg_live]
  exact if_pos hheld'

end

section
variable (s : State)

/-- A thread other than the issuing one, and what going on leaves of that one, stay as they are. -/
theorem State.thread_advance_of_ne (k : Nat) {n i : Nat} (h : (n, i) ≠ s.cur) : (s.advance k).thread n i = s.thread n i :=
  s.thread_setThread_of_ne _ _ _ h

theorem State.thread_advance_monHeld (k n i : Nat) : ((s.advance k).thread n i).monHeld = (s.thread n i).monHeld := by
  by_cases h : (n, i) = s.cur
  · have ht : (s.advance k).th.monHeld = s.th.monHeld := by rw [State.th_advance]
    simp only [State.th, State.cur_advance, ← h] at ht
    exact ht
  · rw [s.thread_advance_of_ne k h]

variable (key : Word) (w : Nat × Nat)

theorem State.thread_giveMon_self : ((s.giveMon w key).thread w.1 w.2).monHeld = some key := by
  rw [State.giveMon, State.thread_setThread_self]

theorem State.thread_giveMon_of_ne {n i : Nat} (h : (n, i) ≠ w) : (s.giveMon w key).thread n i = s.thread n i :=
  s.thread_setThread_of_ne _ _ _ h

theorem State.thread_giveMon_pc (n i : Nat) : ((s.giveMon w key).thread n i).pc = (s.thread n i).pc := by
  by_cases h : (n, i) = w
  · subst h; rw [State.giveMon, State.thread_setThread_self]
  · rw [s.thread_giveMon_of_ne key w h]

theorem State.giveMon_ls (m : Nat) : ((s.giveMon w key).core m).ls = (s.core m).ls := s.setThread_ls ..

/-- The monitor is handed to its oldest waiter, or its entry is freed. -/
theorem State.leaveMon_handed {n i : Nat} {m : Mon} {r : List (Nat × Nat)} (hm : (s.cluster (clusterOf n)).mon key = some m)
    (hw : m.waiters = w :: r) : s.leaveMon n i key = ((s.setThread n i { s.thread n i with monHeld := none }).setCluster (clusterOf n)
      { s.cluster (clusterOf n) with mons := (s.cluster (clusterOf n)).mons.map (fun x => if x.key = key then { x with holder := w, waiters := r } else x) }).giveMon
      w key := by
  simp only [State.leaveMon, hm, hw]

theorem State.leaveMon_freed {n i : Nat} {m : Mon} (hm : (s.cluster (clusterOf n)).mon key = some m) (hw : m.waiters = []) :
    s.leaveMon n i key = (s.setThread n i { s.thread n i with monHeld := none }).setCluster (clusterOf n)
      { s.cluster (clusterOf n) with mons := (s.cluster (clusterOf n)).mons.filter (fun x => decide (x.key ≠ key)) } := by
  simp only [State.leaveMon, hm, hw]

end

theorem monitorWords : Claims.MonitorWords := by
  intro s h a
  refine ⟨?free, ?taken, exec_menter_twice h a, exec_mexit_not_held h a, ?held⟩
  case free =>
    intro hheld hfree hroom
    refine ⟨_, exec_menter_free h a hheld (Cluster.mon_eq_none hfree) hroom, ?mons, ?mon, ?pc, ?run, fun r _ => ?reg,
      State.setCluster_setTh_ls .., State.elsewhere_setCluster_setTh ..⟩
    case mons => exact congrArg Cluster.mons (State.cluster_setCluster_self ..)
    case reg => rw [State.reg, State.th_setTh]; rfl
    all_goals rw [State.th_setTh]; rfl
  case taken =>
    intro hheld hex
    obtain ⟨m, hm, hkey⟩ := Cluster.mon_of_exists hex
    refine ⟨_, exec_menter_taken h a hheld hm hkey, ?waiters, ?stalled, ?stays, ?none, fun r _ => ?kept,
      State.setCluster_setTh_ls .., State.elsewhere_setCluster_setTh ..⟩
    case waiters => exact congrArg Cluster.mons (State.cluster_setCluster_self ..)
    case kept => rw [State.reg, State.th_setTh]; rfl
    all_goals rw [State.th_setTh]; rfl
  case held =>
    intro hheld m hm
    refine ⟨_, exec_mexit_held h a hheld, ?_⟩
    have hfound : (s.live.cluster (clusterOf s.cur.1)).mon (s.reg a.toNat) = some m := hm
    cases hw : m.waiters with
    | nil =>
      rw [State.leaveMon_freed _ _ hfound hw]
      have hnext (c : Cluster) : ((s.live.setThread s.cur.1 s.cur.2 { s.live.thread s.cur.1 s.cur.2 with monHeld := none }).setCluster
          (clusterOf s.cur.1) c).advance 4 = (s.setCluster (clusterOf s.cur.1) c).setTh { s.th.went 4 with monHeld := none } := by
        change (((s.live.setTh { s.live.th with monHeld := none }).setCluster (clusterOf s.cur.1) c).advance 4) = _
        rw [State.setTh_live, State.setCluster_setTh, State.advance, State.setTh_setTh, State.th_setTh, State.th_live]
        rfl
      rw [hnext]
      refine ⟨by rw [State.th_setTh]; rfl, State.setCluster_setTh_ls .., fun _ => ⟨by rw [State.th_setTh],
        congrArg Cluster.mons (State.cluster_setCluster_self ..), State.elsewhere_setCluster_setTh ..⟩, nofun⟩
    | cons w r =>
      rw [State.leaveMon_handed _ _ _ hfound hw]
      refine ⟨?pcHanded, ?lsHanded, nofun, fun w' r' hw' => ?_⟩
      case pcHanded =>
        rw [State.th_advance]
        refine congrArg (· + 4) ((State.thread_giveMon_pc _ _ _ s.cur.1 s.cur.2).trans ?_)
        rw [State.thread_setCluster, State.thread_setThread_self]
        change s.live.th.pc = s.th.pc
        rw [State.th_live]
        rfl
      case lsHanded =>
        change ((State.advance _ 4).core s.cur.1).ls = _
        rw [State.advance_ls, State.giveMon_ls, State.core_setCluster, State.setThread_ls, State.live_ls]
        rfl
      cases hw'
      refine ⟨?gets, ?monsHanded, fun n i hcur hn => ?others⟩
      case gets => rw [State.thread_advance_monHeld, State.thread_giveMon_self]
      case monsHanded => exact congrArg Cluster.mons (State.cluster_setCluster_self ..)
      case others =>
        rw [State.thread_advance_of_ne _ _ (by exact hcur), State.thread_giveMon_of_ne _ _ _ hn, State.thread_setCluster,
          State.thread_setThread_of_ne _ _ _ _ (by exact hcur)]
        exact s.thread_setThread_of_ne _ _ _ hcur

/-! ## Barriers (R62, R305) -/

/-- A cluster with a barrier unit replaced. -/
def Cluster.setBar (c : Cluster) (n : Nat) (b : Bar) : Cluster := { c with bars := tblSet n b c.bars }

/-- The answer that a `bar.arrive` into sD waits for. -/
def Thread.arrival (t : Thread) (d id : Nat) : Load :=
  { id := id, dst := t.abs (.s d), ext := .unsigned 8, got := [], waiting := 1, elems := [], acq := false, refused := false
    dead := false, counted := true, isLoad := false, toQueue := false }

/-- The thread after a `bar.arrive` (R305): s0 and s31 are never pending. -/
def Thread.arrived (t : Thread) (d id : Nat) : Thread :=
  { t.went 4 with cntL := t.cntL + 1, loads := t.loads ++ [t.arrival d id]
                  pend := if d = 0 ∨ d = 31 then t.pend else t.pend ++ [(t.abs (.s d), id)] }

section
variable {s : State} (h : s.plain) (n : BitVec 4) (a d : BitVec 5)

include h

theorem exec_barCfg_ok (hx : ¬ ((s.reg a.toNat).toNat = 0 ∨ 4095 < (s.reg a.toNat).toNat ∨ (Claims.barrier s n).arrived ≠ 0)) :
    exec (.barCfg n a) s = .next ((s.setCluster (clusterOf s.cur.1) ((s.cluster (clusterOf s.cur.1)).setBar n.toNat
      { Claims.barrier s n with expected := (s.reg a.toNat).toNat, arrived := 0 })).setTh (s.th.went 4)) := by
  have hbody : exec (.barCfg n a) s = .next ((s.live.setCluster (clusterOf s.cur.1) ((s.cluster (clusterOf s.cur.1)).setBar n.toNat
      { Claims.barrier s n with expected := (s.reg a.toNat).toNat, arrived := 0 })).advance 4) := by
    change execBarCfg n a s = _
    unfold execBarCfg
    refine issue_plain_ok h rfl rfl rfl ?_
    rw [State.readS_off (qmap_live h), State.sreg_live]
    exact if_neg hx
  rw [hbody, State.live, State.setCluster_setTh, State.advance, State.setTh_setTh, State.th_setTh]
  rfl

theorem exec_barCfg_bad (hx : (s.reg a.toNat).toNat = 0 ∨ 4095 < (s.reg a.toNat).toNat ∨ (Claims.barrier s n).arrived ≠ 0) :
    exec (.barCfg n a) s = .next (Claims.trapped s 5 (Claims.word (.barCfg n a))) := by
  change execBarCfg n a s = _
  unfold execBarCfg
  refine issue_plain_trap h rfl rfl (by decide) ?_
  rw [State.readS_off (qmap_live h), State.sreg_live]
  exact if_pos hx

theorem exec_barArrive_unconfigured (hx : (Claims.barrier s n).expected = 0) :
    exec (.barArrive n d) s = .next (Claims.trapped s 5 (Claims.word (.barArrive n d))) := by
  change execBarArrive n d s = _
  unfold execBarArrive
  refine issue_plain_trap h rfl rfl (by decide) ?_
  rw [State.phase_live h]
  exact if_pos hx

theorem exec_barArrive_ok (hx : (Claims.barrier s n).expected ≠ 0) (hcnt : s.th.cntL < 1023) :
    exec (.barArrive n d) s = .next (State.setTh { s with
      nextId := s.nextId + 1, chan := s.chan ++ [.arrive (clusterOf s.cur.1) n.toNat s.cur.1 s.cur.2 s.nextId] }
      (s.th.arrived d.toNat s.nextId)) := by
  have hbody : exec (.barArrive n d) s = .next ((State.setTh { s.live with
      nextId := s.nextId + 1, chan := s.chan ++ [.arrive (clusterOf s.cur.1) n.toNat s.cur.1 s.cur.2 s.nextId] }
      { s.th.live with cntL := s.th.cntL + 1, loads := s.th.loads ++ [s.th.arrival d.toNat s.nextId]
                       pend := if d.toNat = 0 ∨ d.toNat = 31 then s.th.pend else s.th.pend ++ [(s.th.abs (.s d.toNat), s.nextId)] }).advance 4) := by
    change execBarArrive n d s = _
    unfold execBarArrive
    refine issue_plain_ok h rfl rfl rfl ?_
    have hcnt' : ¬ 1023 ≤ s.th.live.cntL := by change ¬ 1023 ≤ s.th.cntL; omega
    have hexp : ¬ (tblGet {} n.toNat (s.live.cluster (clusterOf s.live.cur.1)).bars).expected = 0 := hx
    rw [State.phase_live h, if_neg (not_not.2 rfl), if_neg hexp]
    have hqueue : s.th.live.queueOf d.toNat = none := State.queueOf_plain (by rw [← State.th_live]; exact qmap_live h) _
    have hth : (s.live.fresh.2).th = s.th.live := s.th_live
    simp only [State.barSend, State.cur_live, State.th_live, if_neg hcnt', hqueue, hth, Option.isSome_none, Bool.false_eq_true, if_false,
      Bool.or_false, Bool.or_eq_true, decide_eq_true_eq]
    rfl
  have hlive (x : Nat) (p : List Packet) (t : Thread) : State.setTh { s.live with nextId := x, chan := p } t =
      State.setTh { s with nextId := x, chan := p } t := State.setTh_setTh (s := { s with nextId := x, chan := p }) ..
  rw [hbody, State.advance, State.setTh_setTh, State.th_setTh, hlive]
  rfl

theorem exec_barWait_on (hx : (Claims.barrier s n).gen ≠ (s.reg a.toNat).toNat % 256) :
    exec (.barWait n a) s = .next (s.setTh { s.th.went 4 with phase := 0, reply := none, held := [] }) := by
  have hbody : exec (.barWait n a) s = .next (s.live.endPhase.advance 4) := by
    change execBarWait n a s = _
    unfold execBarWait
    refine issue_plain_ok h rfl rfl rfl ?_
    simp only [State.phase_live h, OfNat.zero_ne_ofNat, if_false, State.peekS_live h, State.readS_off (qmap_live h)]
    exact if_neg hx
  rw [hbody, State.endPhase, State.setTh_live, State.advance, State.setTh_setTh, State.th_setTh, State.th_live]
  rfl

theorem exec_barWait_waits (hx : (Claims.barrier s n).gen = (s.reg a.toNat).toNat % 256) :
    exec (.barWait n a) s = .next (s.setTh { s.th.live with run := .stalled, phase := 23, held := [s.reg a.toNat] }) := by
  change execBarWait n a s = _
  unfold execBarWait
  refine issue_plain_stall_phase h rfl rfl (t := { s.th.live with phase := 23, held := [s.reg a.toNat] }) (p := 23) ?_ rfl (by decide)
  simp only [State.phase_live h, OfNat.zero_ne_ofNat, if_false, State.peekS_live h]
  change (if (Claims.barrier s n).gen = _ then _ else _) = _
  rw [if_pos hx, State.waitIn, State.th_live, State.setTh_live]

end

theorem barrierWords : Claims.BarrierWords := by
  intro s h n a d
  refine ⟨fun hlow hhigh hidle => ?cfg, exec_barCfg_bad h n a, fun hx hcnt => ?arrive, exec_barArrive_unconfigured h n d,
    fun hx => ?on, fun hx => ?wait⟩
  case cfg =>
    have hbars : ((s.setCluster (clusterOf s.cur.1) ((s.cluster (clusterOf s.cur.1)).setBar n.toNat
        { Claims.barrier s n with expected := (s.reg a.toNat).toNat, arrived := 0 })).setTh (s.th.went 4)).cluster (clusterOf s.cur.1) =
        (s.cluster (clusterOf s.cur.1)).setBar n.toNat { Claims.barrier s n with expected := (s.reg a.toNat).toNat, arrived := 0 } :=
      State.cluster_setCluster_self ..
    refine ⟨_, exec_barCfg_ok h n a (by omega), ?bar, fun m hm => ?others, State.th_setTh .., State.setCluster_setTh_ls ..,
      State.elsewhere_setCluster_setTh ..⟩
    case bar =>
      rw [Claims.barrier, State.setTh_cur, State.setCluster_cur, hbars]
      exact tblGet_tblSet_self ..
    case others =>
      rw [Claims.barrier, State.setTh_cur, State.setCluster_cur, hbars]
      exact tblGet_tblSet_ne _ (fun e => hm (BitVec.eq_of_toNat_eq e)) ..
  case arrive =>
    obtain ⟨hpend, _⟩ := id h
    have hzero : (d.toNat = 0 ∨ d.toNat = 31) ↔ (d = 0 ∨ d = 31) := by
      rw [← BitVec.toNat_inj, ← BitVec.toNat_inj]; rfl
    refine ⟨_, exec_barArrive_ok h n d hx hcnt, rfl, ?count, ?pend, ?pc, fun r _ => ?reg, ?ls, State.elsewhere_setTh ..⟩
    case pend => rw [State.th_setTh]; simp only [Thread.arrived, hpend, hzero, List.nil_append]
    case reg => rw [State.reg, State.th_setTh]; rfl
    case ls => rw [State.co_setTh]; rfl
    all_goals rw [State.th_setTh]; rfl
  case on =>
    refine ⟨_, exec_barWait_on h n a hx, ?pcOn, ?runOn, fun r _ => ?regOn, ?lsOn, State.elsewhere_setTh ..⟩
    case regOn => rw [State.reg, State.th_setTh]; rfl
    case lsOn => rw [State.co_setTh]; rfl
    all_goals rw [State.th_setTh]; rfl
  case wait =>
    refine ⟨_, exec_barWait_waits h n a hx, ?pcWait, ?runWait, fun r _ => ?regWait, ?lsWait, State.elsewhere_setTh ..⟩
    case regWait => rw [State.reg, State.th_setTh]; rfl
    case lsWait => rw [State.co_setTh]; rfl
    case pcWait => rw [State.th_setTh]; rfl
    case runWait => rw [State.th_setTh]

/-- Settles O35: the two parts above. -/
theorem monitorsAndBarriers : Obligations.MonitorsAndBarriers := by
  unfold Obligations.MonitorsAndBarriers
  exact ⟨monitorWords, barrierWords⟩

end Sys2Proof.Machine
end

section
/-!
Pre-emption and resumption of a core group (R66, R67, R319).
-/

namespace Sys2Proof.Machine

open Sys2Proof

/-! ## What a hardware write of a core's memories leaves alone -/

/-- Nothing but cores and clusters differs. -/
def State.coresOnly (s t : State) : Prop := ∃ cs cl, t = { s with cores := cs, clusters := cl }

/-- Nothing but cores, clusters, homes, DRAM and the tick differs. -/
def State.memoryOnly (s t : State) : Prop :=
  ∃ cs cl hs dr db tk, t = { s with cores := cs, clusters := cl, homes := hs, dram := dr, dramBad := db, tick := tk }

/-- Nothing but core n and clusters differs. -/
def State.coreOnly (n : Nat) (s t : State) : Prop := s.coresOnly t ∧ ∀ m, m ≠ n → t.core m = s.core m

section
variable {s t u : State} {n : Nat}

theorem State.coresOnly_refl (s : State) : s.coresOnly s := ⟨_, _, rfl⟩

theorem State.coresOnly_trans (h : s.coresOnly t) (h' : t.coresOnly u) : s.coresOnly u := by
  obtain ⟨_, _, rfl⟩ := h
  obtain ⟨cs, cl, rfl⟩ := h'
  exact ⟨cs, cl, rfl⟩

theorem State.coresOnly.memoryOnly (h : s.coresOnly t) : s.memoryOnly t := by
  obtain ⟨cs, cl, rfl⟩ := h
  exact ⟨cs, cl, _, _, _, _, rfl⟩

theorem State.memoryOnly_refl (s : State) : s.memoryOnly s := (State.coresOnly_refl s).memoryOnly

theorem State.memoryOnly_trans (h : s.memoryOnly t) (h' : t.memoryOnly u) : s.memoryOnly u := by
  obtain ⟨_, _, _, _, _, _, rfl⟩ := h
  obtain ⟨cs, cl, hs, dr, db, tk, rfl⟩ := h'
  exact ⟨cs, cl, hs, dr, db, tk, rfl⟩

theorem State.coreOnly_refl (n : Nat) (s : State) : State.coreOnly n s s := ⟨s.coresOnly_refl, fun _ _ => rfl⟩

theorem State.coreOnly_trans (h : State.coreOnly n s t) (h' : State.coreOnly n t u) : State.coreOnly n s u :=
  ⟨State.coresOnly_trans h.1 h'.1, fun m hm => (h'.2 m hm).trans (h.2 m hm)⟩

/-- What each step keeps a sequence of steps keeps. -/
theorem State.coreOnly_foldl {α : Type} {f : State → α → State} (hf : ∀ s a, State.coreOnly n s (f s a)) (l : List α) (s : State) :
    State.coreOnly n s (l.foldl f s) := by
  induction l generalizing s with
  | nil => exact State.coreOnly_refl n s
  | cons a l ih => exact State.coreOnly_trans (hf s a) (ih _)

end

section
variable (s : State) (n i a : Nat)

theorem State.coreOnly_setCore (c : Core) : State.coreOnly n s (s.setCore n c) := ⟨⟨_, _, rfl⟩, fun _ hm => State.core_setCore_ne _ hm _⟩

theorem State.coreOnly_setThread (t : Thread) : State.coreOnly n s (s.setThread n i t) := s.coreOnly_setCore n _

theorem State.coreOnly_logPort (size kind : Nat) (w : Source) : State.coreOnly n s (s.logPort n a size kind w) :=
  ⟨s.logPort_frame .., fun _ hm => s.core_logPort_ne _ _ _ _ _ hm⟩

theorem State.coreOnly_lsHard (bs : List Byte) (kind : Nat) (w : Source) : State.coreOnly n s (s.lsHard n a bs kind w) :=
  State.coreOnly_trans (s.coreOnly_setCore n _) (State.coreOnly_logPort _ n a _ _ _)

theorem State.coreOnly_saveRegs (rs : List RegName) (ws : List Word) : State.coreOnly n s (s.saveRegs n i a rs ws) := by
  have hls := s.coreOnly_lsHard n a (wordBytes ws) 7 (s.source n i true)
  unfold State.saveRegs
  dsimp only
  split
  · exact hls
  · exact State.coreOnly_trans hls (State.coreOnly_setCore _ n _)

theorem State.coreOnly_spillWindow (k : Nat) : State.coreOnly n s (s.spillWindow n i k) := by
  unfold State.spillWindow
  dsimp only
  split
  · exact s.coreOnly_saveRegs ..
  · exact State.coreOnly_trans (s.coreOnly_saveRegs ..) (State.coreOnly_saveRegs ..)

theorem State.coreOnly_spillAll : State.coreOnly n s (s.spillAll n i) := State.coreOnly_foldl (fun s k => s.coreOnly_spillWindow n i k) _ s

theorem State.coreOnly_enterHandler : State.coreOnly n s (s.enterHandler n i) :=
  State.coreOnly_trans (s.coreOnly_saveRegs n i _ _ _) (State.coreOnly_setThread _ n i _)

theorem State.coreOnly_saveWindows : State.coreOnly n s (s.saveWindows n i) := by
  unfold State.saveWindows
  dsimp only
  split
  · exact State.coreOnly_refl n s
  · split
    · exact s.coreOnly_spillAll n i
    · exact State.coreOnly_refl n s

/-- What a write of the device itself to DRAM leaves alone. -/
theorem State.logHome_frame (h size kind : Nat) (w : Source) :
    ∃ hs cl, s.logHome h a size kind w = { s with homes := hs, clusters := cl } := by
  unfold State.logHome
  dsimp only
  split
  · exact ⟨_, _, rfl⟩
  · split
    · exact ⟨_, _, rfl⟩
    · exact ⟨_, _, rfl⟩

theorem State.dramWrite_frame (bs : List (Option Byte)) (ps : List Nat) (kind : Nat) (w : Source) :
    ∃ hs cl dr db, s.dramWrite a bs ps kind w = { s with homes := hs, clusters := cl, dram := dr, dramBad := db } := by
  unfold State.dramWrite
  dsimp only
  obtain ⟨hs, cl, h⟩ := State.logHome_frame { s with dram := memWriteMasked (s.dramKey a) bs s.dram
                                                     dramBad := addBad (clearMasked s.dramBad (s.dramKey a) bs) (ps.map (fun g => s.dramKey a / 8 + g)) }
    a (homeOf (a % 2 ^ 40)) bs.length kind w
  exact ⟨hs, cl, _, _, h⟩

theorem State.devWrite_frame (master : Nat) (bs : List Byte) :
    ∃ hs cl dr db, s.devWrite master a bs = { s with homes := hs, clusters := cl, dram := dr, dramBad := db } := by
  unfold State.devWrite
  generalize pieces bs.length a bs.length = l
  induction l generalizing s with
  | nil => exact ⟨_, _, _, _, rfl⟩
  | cons p l ih =>
    rw [List.foldl_cons]
    split
    · obtain ⟨_, _, _, _, hw⟩ := s.dramWrite_frame p.1 (((bs.drop (p.1 - a)).take p.2).map some) [] 0 s.outsider
      rw [hw]
      obtain ⟨hs, cl, dr, db, ht⟩ := ih { s with homes := _, clusters := _, dram := _, dramBad := _ }
      exact ⟨hs, cl, dr, db, ht⟩
    · exact ih s

end

/-! ## Stopping the cores of a rectangle (R66) -/

section
variable (s : State) (n : Nat)

theorem State.coreOnly_stopCore : State.coreOnly n s (s.stopCore n) := by
  unfold State.stopCore
  dsimp only
  refine State.coreOnly_trans ?_ (State.coreOnly_setCore _ n _)
  split
  on_goal 2 => refine State.coreOnly_trans ?_ (State.coreOnly_foldl (fun s (x : Nat × Thread) => s.coreOnly_saveWindows n x.1) _ _)
  all_goals
    refine State.coreOnly_foldl (fun s x => ?_) _ s
    split
    · exact s.coreOnly_enterHandler n x.1
    · exact State.coreOnly_refl n s

theorem State.stopCore_pre : ((s.stopCore n).core n).pre = true := by
  unfold State.stopCore
  rw [State.core_setCore_self]

theorem State.stopCore_pre_of_pre {m : Nat} (h : (s.core m).pre = true) : ((s.stopCore n).core m).pre = true := by
  by_cases hm : m = n
  · subst hm; exact s.stopCore_pre m
  · rw [(s.coreOnly_stopCore n).2 m hm]; exact h

/-- The cores of the list stop; the others, and all else, stay. -/
theorem State.foldl_stopCore (ns : List Nat) : s.coresOnly (ns.foldl State.stopCore s) ∧
    (∀ m, m ∉ ns → (ns.foldl State.stopCore s).core m = s.core m) ∧
    ∀ m, (m ∈ ns ∨ (s.core m).pre = true) → ((ns.foldl State.stopCore s).core m).pre = true := by
  induction ns generalizing s with
  | nil => exact ⟨s.coresOnly_refl, fun _ _ => rfl, fun m hm => by simpa using hm⟩
  | cons n ns ih =>
    obtain ⟨hframe, hother, hpre⟩ := ih (s.stopCore n)
    refine ⟨State.coresOnly_trans (s.coreOnly_stopCore n).1 hframe, fun m hm => ?_, fun m hm => hpre m ?_⟩
    · rw [List.mem_cons, not_or] at hm
      rw [List.foldl_cons, hother m hm.2, (s.coreOnly_stopCore n).2 m hm.1]
    · rw [List.mem_cons] at hm
      rcases hm with (rfl | hm) | hm
      · exact .inr (s.stopCore_pre m)
      · exact .inl hm
      · exact .inr (s.stopCore_pre_of_pre n hm)

end

/-! ## Saving (R66) -/

/-- A saved core, with the ring that its read of the local store left. -/
def Core.kept (c : Core) (r : Ring) : Core := { c with saved := true, ring := r }

theorem State.core_bump (s : State) (m : Nat) : s.bump.core m = s.core m := rfl

/-- Whether the save area takes a core's save does not depend on the memories. -/
theorem State.saveTakes_congr {s t : State} (h : s.memoryOnly t) {area n : Nat} (hbad : (t.core n).saveBad = (s.core n).saveBad)
    (hnum : (t.core n).lcore = (s.core n).lcore) : t.saveTakes area n = s.saveTakes area n := by
  obtain ⟨cs, cl, hs, dr, db, tk, rfl⟩ := h
  simp only [State.saveTakes, State.saveMay, State.saveAt, hbad, hnum]
  rfl

/-- The end of a core's save: the poison that its part of the area carries, and the core. -/
def State.markSaved (s : State) (marks : List Nat) (n : Nat) : State :=
  let t : State := { s with dramBad := marks }
  (t.setCore n { t.core n with saved := true }).bump

section
variable (s : State) (marks : List Nat) (n : Nat)

theorem State.core_markSaved_self : (s.markSaved marks n).core n = { s.core n with saved := true } := by
  unfold State.markSaved
  rw [State.core_bump]
  exact State.core_setCore_self { s with dramBad := marks } n _

theorem State.core_markSaved_ne {m : Nat} (h : m ≠ n) : (s.markSaved marks n).core m = s.core m := by
  unfold State.markSaved
  rw [State.core_bump]
  exact State.core_setCore_ne { s with dramBad := marks } h _

theorem State.memoryOnly_markSaved : s.memoryOnly (s.markSaved marks n) := ⟨_, _, _, _, _, _, rfl⟩

theorem State.core_devWrite (master pa : Nat) (bs : List Byte) (m : Nat) : (s.devWrite master pa bs).core m = s.core m := by
  obtain ⟨hs, cl, dr, db, h⟩ := s.devWrite_frame pa master bs
  rw [h]
  rfl

theorem State.memoryOnly_devWrite (master pa : Nat) (bs : List Byte) : s.memoryOnly (s.devWrite master pa bs) := by
  obtain ⟨hs, cl, dr, db, h⟩ := s.devWrite_frame pa master bs
  rw [h]
  exact ⟨_, _, _, _, _, _, rfl⟩

end

section
variable {s : State} {area n : Nat}

theorem State.saveCore_eq (hsaved : ¬ (s.core n).saved = true) (hlost : (s.core n).lost = false) (htakes : s.saveTakes area n = true) :
    ∃ bs marks, s.saveCore area n =
      ((s.logPort n 0 0x80000 3 (s.coreSource n)).devWrite 1 (s.saveAt area n) bs).markSaved marks n := by
  rw [State.saveCore, if_neg hsaved, if_neg (by rw [hlost]; exact Bool.false_ne_true), if_pos htakes]
  exact ⟨_, _, rfl⟩

theorem State.saveCore_of_takes (hlost : (s.core n).lost = false) (htakes : s.saveTakes area n = true) :
    s.memoryOnly (s.saveCore area n) ∧ (∃ r, (s.saveCore area n).core n = (s.core n).kept r) ∧
      ∀ m, m ≠ n → (s.saveCore area n).core m = s.core m := by
  by_cases hsaved : (s.core n).saved = true
  · rw [State.saveCore, if_pos hsaved]
    exact ⟨s.memoryOnly_refl, ⟨(s.core n).ring, by rw [Core.kept, ← hsaved]⟩, fun _ _ => rfl⟩
  · obtain ⟨bs, marks, heq⟩ := State.saveCore_eq hsaved hlost htakes
    obtain ⟨hframe, hother⟩ := s.coreOnly_logPort n 0 0x80000 3 (s.coreSource n)
    obtain ⟨r, hring⟩ := s.core_logPort n 0 0x80000 3 (s.coreSource n) n
    rw [heq]
    refine ⟨State.memoryOnly_trans hframe.memoryOnly (State.memoryOnly_trans (State.memoryOnly_devWrite ..) (State.memoryOnly_markSaved ..)),
      ⟨r, ?self⟩, fun m hm => ?other⟩
    case self => rw [State.core_markSaved_self, State.core_devWrite, hring]; rfl
    case other => rw [State.core_markSaved_ne _ _ _ hm, State.core_devWrite, hother m hm]

end

/-- The cores of the list are saved; the others, and what is no memory, stay. -/
theorem State.foldl_saveCore {area : Nat} (ns : List Nat) (s : State)
    (h : ∀ n ∈ ns, (s.core n).lost = false ∧ s.saveTakes area n = true) :
    s.memoryOnly (ns.foldl (fun s n => s.saveCore area n) s) ∧
      (∀ n ∈ ns, ∃ r, (ns.foldl (fun s n => s.saveCore area n) s).core n = (s.core n).kept r) ∧
      ∀ n, n ∉ ns → (ns.foldl (fun s n => s.saveCore area n) s).core n = s.core n := by
  induction ns generalizing s with
  | nil => exact ⟨s.memoryOnly_refl, nofun, fun _ _ => rfl⟩
  | cons n ns ih =>
    obtain ⟨hlost, htakes⟩ := h n List.mem_cons_self
    obtain ⟨hframe, ⟨r, hself⟩, hother⟩ := State.saveCore_of_takes hlost htakes
    have hcore (m : Nat) : (s.saveCore area n).core m = s.core m ∨ (m = n ∧ (s.saveCore area n).core m = (s.core m).kept r) := by
      by_cases hm : m = n
      · subst hm; exact .inr ⟨rfl, hself⟩
      · exact .inl (hother m hm)
    have hlater : ∀ m ∈ ns, ((s.saveCore area n).core m).lost = false ∧ (s.saveCore area n).saveTakes area m = true := by
      intro m hm
      obtain ⟨hlost, htakes⟩ := h m (List.mem_cons_of_mem _ hm)
      rcases hcore m with hc | ⟨-, hc⟩
      · exact ⟨by rw [hc, hlost], by rw [State.saveTakes_congr hframe (by rw [hc]) (by rw [hc]), htakes]⟩
      · exact ⟨by rw [hc]; exact hlost, by rw [State.saveTakes_congr hframe (by rw [hc]; rfl) (by rw [hc]; rfl), htakes]⟩
    obtain ⟨hframe', hin, hout⟩ := ih (s.saveCore area n) hlater
    refine ⟨State.memoryOnly_trans hframe hframe', fun m hm => ?_, fun m hm => ?_⟩
    · by_cases hmem : m ∈ ns
      · obtain ⟨r', hr'⟩ := hin m hmem
        refine ⟨r', hr'.trans ?_⟩
        rcases hcore m with hc | ⟨-, hc⟩
        · rw [hc]
        · rw [hc]; rfl
      · obtain rfl : m = n := by simpa [hmem] using hm
        exact ⟨r, (hout m hmem).trans hself⟩
    · rw [List.mem_cons, not_or] at hm
      exact (hout m hm.2).trans (hother m hm.1)

/-! ## Reports -/

/-- Reports enter the port in order. -/
theorem State.foldl_report {α : Type} (f : α → Report) (l : List α) (s : State) :
    l.foldl (fun s x => s.report (f x)) s = { s with port := { s.port with reports := s.port.reports ++ l.map f } } := by
  induction l generalizing s with
  | nil => simp
  | cons x l ih => rw [List.foldl_cons, ih]; simp [State.report]

theorem State.reportGroup_eq (s : State) (kind g : Nat) :
    s.reportGroup kind g = { s with port := { s.port with reports := s.port.reports ++ Claims.groupReports s kind g } } := by
  unfold State.reportGroup Claims.groupReports
  cases hm : s.meets g with
  | nil => rfl
  | cons x l => exact State.foldl_report ..

theorem State.reportSaved_eq (s : State) (g : Nat) : s.reportSaved g = { s with port := { s.port with reports := s.port.reports ++
    (if s.suspendedIn g = true then Claims.savedReports s g else Claims.groupReports s 4 g) } } := by
  unfold State.reportSaved Claims.savedReports
  split
  · rw [State.foldl_report (fun x : Nat × Launch => { kind := 4, lnch := x.1, lseq := 0, code := 0, value := 0 }), List.map_map]
    rfl
  · exact s.reportGroup_eq 4 g

/-! ## Restoring (R67) -/

/-- A core that goes on after a resumption, with the ring that the write of its local store left. -/
def Core.resumed (c : Core) (r : Ring) : Core := { c with pre := false, saved := false, ring := r }

/-- A core whose ring alone may differ. -/
def Core.sameButRing (c d : Core) : Prop := ∃ r, d = { c with ring := r }

/-- Whether a save can be read does not depend on the rings. -/
theorem State.saveReads_congr {s t : State} (h : s.coresOnly t) {area n : Nat} (hc : (s.core n).sameButRing (t.core n)) :
    t.saveReads area n = s.saveReads area n := by
  obtain ⟨cs, cl, rfl⟩ := h
  obtain ⟨r, hr⟩ := hc
  simp only [State.saveReads, State.saveMay, State.saveMarks, State.saveAt, hr]
  rfl

section
variable {s : State} {area n : Nat}

theorem State.restoreCore_of_reads (h : s.saveReads area n = true) :
    State.coreOnly n s (s.restoreCore area n) ∧ ∀ m, (s.core m).sameButRing ((s.restoreCore area n).core m) := by
  unfold State.restoreCore
  split
  · exact ⟨State.coreOnly_refl n s, fun m => ⟨(s.core m).ring, rfl⟩⟩
  · exact ⟨s.coreOnly_logPort .., s.core_logPort n 0 0x80000 7 (s.coreSource n)⟩

end

theorem State.foldl_restoreCore {area : Nat} (ns : List Nat) (s : State) (h : ∀ n ∈ ns, s.saveReads area n = true) :
    s.coresOnly (ns.foldl (fun s n => s.restoreCore area n) s) ∧
      (∀ m, (s.core m).sameButRing ((ns.foldl (fun s n => s.restoreCore area n) s).core m)) ∧
      ∀ m, m ∉ ns → (ns.foldl (fun s n => s.restoreCore area n) s).core m = s.core m := by
  induction ns generalizing s with
  | nil => exact ⟨s.coresOnly_refl, fun m => ⟨(s.core m).ring, rfl⟩, fun _ _ => rfl⟩
  | cons n ns ih =>
    obtain ⟨⟨hframe, hother⟩, hcore⟩ := State.restoreCore_of_reads (h n List.mem_cons_self)
    obtain ⟨hframe', hcore', hother'⟩ := ih (s.restoreCore area n) fun m hm => by
      rw [State.saveReads_congr hframe (hcore m), h m (List.mem_cons_of_mem _ hm)]
    refine ⟨State.coresOnly_trans hframe hframe', fun m => ?_, fun m hm => ?_⟩
    · obtain ⟨r, hr⟩ := hcore m
      obtain ⟨r', hr'⟩ := hcore' m
      exact ⟨r', hr'.trans (by rw [hr])⟩
    · rw [List.mem_cons, not_or] at hm
      exact (hother' m hm.2).trans (hother m hm.1)

/-- With no other pre-emption, every core of the list goes on. -/
theorem State.foldl_releaseCore (ns : List Nat) (s : State) (h : s.port.saves = [] ∧ s.port.pres = []) :
    (∃ cs, ns.foldl State.releaseCore s = { s with cores := cs }) ∧
      (∀ n ∈ ns, (ns.foldl State.releaseCore s).core n = { s.core n with pre := false, saved := false }) ∧
      ∀ n, n ∉ ns → (ns.foldl State.releaseCore s).core n = s.core n := by
  induction ns generalizing s with
  | nil => exact ⟨⟨_, rfl⟩, nofun, fun _ _ => rfl⟩
  | cons n ns ih =>
    have hstep : s.releaseCore n = s.setCore n { s.core n with pre := false, saved := false } := by
      rw [State.releaseCore, State.heldBy, h.1, h.2]
      rfl
    obtain ⟨⟨cs, hframe⟩, hin, hout⟩ := ih (s.releaseCore n) (by rw [hstep]; exact h)
    rw [hstep] at hframe hin hout
    rw [List.foldl_cons, hstep]
    refine ⟨⟨cs, hframe⟩, fun m hm => ?_, fun m hm => ?_⟩
    · by_cases hmem : m ∈ ns
      · rw [hin m hmem]
        by_cases hmn : m = n
        · subst hmn; rw [State.core_setCore_self]
        · rw [State.core_setCore_ne _ hmn]
      · obtain rfl : m = n := by simpa [hmem] using hm
        rw [hout m hmem, State.core_setCore_self]
    · rw [List.mem_cons, not_or] at hm
      rw [hout m hm.2, State.core_setCore_ne _ hm.1]

/-! ## The rectangle that PRGRP names (R319) -/

theorem rectClusters_mod (x : Nat) : rectClusters (x % 2 ^ 14) = rectClusters x := by
  have hbits (lo len : Nat) (h : lo + len ≤ 14) : bits (x % 2 ^ 14) lo len = bits x lo len := by
    have hw : 2 ^ 14 = 2 ^ lo * (2 ^ len * 2 ^ (14 - (lo + len))) := by rw [← Nat.mul_assoc, ← Nat.pow_add, ← Nat.pow_add]; congr 1; omega
    rw [bits, bits, hw, Nat.mod_mul_right_div_self, Nat.mod_mul_right_mod]
  simp only [rectClusters, hbits _ _ (show 0 + 4 ≤ 14 by decide), hbits _ _ (show 4 + 3 ≤ 14 by decide),
    hbits _ _ (show 7 + 4 ≤ 14 by decide), hbits _ _ (show 11 + 3 ≤ 14 by decide)]

theorem State.rectCores_mod (s : State) (x : Nat) : s.rectCores (x % 2 ^ 14) = s.rectCores x := by
  rw [State.rectCores, State.rectCores, rectClusters_mod]

/-- The cores of a rectangle depend on which cores are numbered alone. -/
theorem State.rectCores_congr {s t : State} (h : s.memoryOnly t) (hnum : ∀ n, (t.core n).numbered = (s.core n).numbered) (g : Nat) :
    t.rectCores g = s.rectCores g := by
  have hen : t.enabled = s.enabled := by
    obtain ⟨cs, cl, hs, dr, db, tk, rfl⟩ := h
    funext n
    simp only [State.enabled, hnum]
  have hof : t.coresOf = s.coresOf := by funext k; rw [State.coresOf, State.coresOf, hen]
  rw [State.rectCores, State.rectCores, State.coresIn, State.coresIn, hof]

/-! ## The requests and their ends -/

/-- The register shows what was written to it last (R319). -/
def State.putPrgrp (s : State) (v : Word) : State := { s with port := { s.port with prgrp := v.toNat % 2 ^ 16 } }

section
variable {s : State} {v : Word} (hmay : s.hostMay 0x10188 8 1 = true)

include hmay

theorem exec_preemptRequest_ok (hcmd : bits v.toNat 14 2 = 1) : exec (.preemptRequest v) s =
    .next ((s.putPrgrp v).preempt v.toNat s.port.prsave) := by
  change execPreemptRequest v s = _
  rw [execPreemptRequest, hmay, hcmd, State.setPrgrp, hcmd]
  rfl

theorem exec_resumeRequest_ok (hcmd : bits v.toNat 14 2 = 2) : exec (.resumeRequest v) s =
    .next ((s.putPrgrp v).resume v.toNat s.port.prsave) := by
  change execResumeRequest v s = _
  rw [execResumeRequest, hmay, hcmd, State.setPrgrp, hcmd]
  rfl

end

theorem State.preempt_eq (s : State) (g area : Nat) : ∃ u, s.preempt g area = { u with port := { s.port with
      pres := s.port.pres ++ [(g % 2 ^ 14, area)] } } ∧ s.coresOnly u ∧ (∀ n ∈ s.rectCores g, (u.core n).pre = true) ∧
    ∀ n, n ∉ s.rectCores g → u.core n = s.core n := by
  obtain ⟨hframe, hother, hpre⟩ := s.foldl_stopCore (s.rectCores g)
  refine ⟨_, ?_, hframe, fun n hn => hpre n (.inl hn), hother⟩
  obtain ⟨cs, cl, hframe⟩ := hframe
  rw [State.preempt, hframe]

theorem exec_preemptComplete_up {s : State} (h : Claims.up s) : exec .preemptComplete s = .next s.endPreempt := by
  change execPreemptComplete s = _
  rw [execPreemptComplete, h.1, h.2]
  rfl

theorem exec_resumeComplete_up {s : State} (h : Claims.up s) : exec .resumeComplete s = .next s.endResume := by
  change execResumeComplete s = _
  rw [execResumeComplete, h.1, h.2]
  rfl

/-- The reports that end a pre-emption or a resumption depend on the live launches alone. -/
def State.endReports (s : State) (g : Nat) : List Report :=
  if s.suspendedIn g = true then Claims.savedReports s g else Claims.groupReports s 4 g

theorem State.endPreempt_saved {s : State} {g area : Nat} {rest : List (Nat × Nat)} (hpres : s.port.pres = (g, area) :: rest)
    (hquiet : ∀ n ∈ s.rectCores g, s.quiet n = true)
    (h : ∀ n ∈ s.rectCores g, (s.core n).lost = false ∧ s.saveTakes area n = true) :
    ∃ u, s.memoryOnly u ∧ (∀ n ∈ s.rectCores g, ∃ r, u.core n = (s.core n).kept r) ∧ (∀ n, n ∉ s.rectCores g → u.core n = s.core n) ∧
      s.endPreempt = { u with port := { s.port with pres := rest, saves := s.port.saves ++ [(g, area)]
                                                    reports := s.port.reports ++ s.endReports g } } := by
  obtain ⟨hframe, hin, hout⟩ := State.foldl_saveCore (s.rectCores g) s h
  refine ⟨_, hframe, hin, hout, ?_⟩
  have hall : (s.rectCores g).all s.quiet = true := List.all_eq_true.2 hquiet
  generalize hu : (s.rectCores g).foldl (fun s n => s.saveCore area n) s = u at *
  have hcores : u.rectCores g = s.rectCores g := by
    refine State.rectCores_congr hframe (fun n => ?_) g
    by_cases hn : n ∈ s.rectCores g
    · obtain ⟨r, hr⟩ := hin n hn; rw [hr]; rfl
    · rw [hout n hn]
  obtain ⟨cs, cl, hs, dr, db, tk, hframe⟩ := hframe
  have hsaved : (u.rectCores g).all (fun n => (u.core n).saved) = true := by
    rw [hcores, List.all_eq_true]
    intro n hn
    obtain ⟨r, hr⟩ := hin n hn
    rw [hr]; rfl
  simp only [State.endPreempt, hpres, hall, if_true, hu, hsaved, State.reportSaved_eq]
  rw [hframe]
  rfl

theorem State.endPreempt_busy {s : State} {g area : Nat} {rest : List (Nat × Nat)} (hpres : s.port.pres = (g, area) :: rest)
    (hbusy : ∃ n ∈ s.rectCores g, s.quiet n = false) : s.endPreempt = s := by
  have hall : (s.rectCores g).all s.quiet = false := by
    rw [List.all_eq_false]
    obtain ⟨n, hn, hq⟩ := hbusy
    exact ⟨n, hn, by rw [hq]; exact Bool.false_ne_true⟩
  simp only [State.endPreempt, hpres, hall, Bool.false_eq_true, if_false]

/-- A resumption of a saved group that no launch sleeps in (R319, R341). -/
theorem State.resume_ok {s : State} {x area : Nat} (hsaved : (x % 2 ^ 14, area) ∈ s.port.saves) (hres : (x % 2 ^ 14, area) ∉ s.port.ress)
    (hsusp : s.suspendedIn (x % 2 ^ 14) = false) :
    ∃ ls, s.resume x area = { s with launches := ls, port := { s.port with ress := s.port.ress ++ [(x % 2 ^ 14, area)] } } := by
  have hpass : (!s.port.saves.contains (x % 2 ^ 14, area) || s.port.ress.contains (x % 2 ^ 14, area)) = false := by
    rw [List.contains_iff_mem.2 hsaved, Bool.eq_false_iff.2 (mt List.contains_iff_mem.1 hres)]
    rfl
  simp only [State.resume, hpass, hsusp, Bool.false_eq_true, if_false, Bool.false_and]
  exact ⟨_, rfl⟩

/-- A resumption of a group that is not saved there is ignored. -/
theorem State.resume_not_saved {s : State} {x area : Nat} (h : (x % 2 ^ 14, area) ∉ s.port.saves) : s.resume x area = s := by
  have hpass : (!s.port.saves.contains (x % 2 ^ 14, area) || s.port.ress.contains (x % 2 ^ 14, area)) = true := by
    rw [Bool.eq_false_iff.2 (mt List.contains_iff_mem.1 h)]
    rfl
  simp only [State.resume, hpass, if_true]

theorem State.endResume_restored {s : State} {g area : Nat} {rest : List (Nat × Nat)} (hress : s.port.ress = (g, area) :: rest)
    (hsaves : s.port.saves = [(g, area)]) (hpres : s.port.pres = [])
    (h : ∀ n ∈ s.rectCores g, s.saveReads area n = true ∧ (s.core n).lost = false) :
    ∃ cs cl, s.endResume = { s with cores := cs, clusters := cl, port := { s.port with ress := rest, saves := []
                                                                                       reports := s.port.reports ++ Claims.groupReports s 5 g } } ∧
      (∀ n ∈ s.rectCores g, ∃ r, s.endResume.core n = (s.core n).resumed r) ∧
      ∀ n, n ∉ s.rectCores g → s.endResume.core n = s.core n := by
  obtain ⟨hframe, hsame, hout⟩ := State.foldl_restoreCore (s.rectCores g) s fun n hn => (h n hn).1
  have hkept : (s.rectCores g).any (fun n => (s.core n).lost) = false := by
    rw [List.any_eq_false]
    exact fun n hn => by rw [(h n hn).2]; exact Bool.false_ne_true
  generalize hu : (s.rectCores g).foldl (fun s n => s.restoreCore area n) s = u at *
  have hkept' : (s.rectCores g).any (fun n => (u.core n).lost) = false := by
    rw [List.any_eq_false]
    intro n hn
    obtain ⟨r, hr⟩ := hsame n
    rw [hr]
    exact fun hl => Bool.false_ne_true ((h n hn).2.symm.trans hl)
  have hcores : u.rectCores g = s.rectCores g := by
    refine State.rectCores_congr hframe.memoryOnly (fun n => ?_) g
    obtain ⟨r, hr⟩ := hsame n
    rw [hr]
  have hend : s.endResume = u.finishResume g area rest := by
    simp only [State.endResume, hress, hkept, hu, hkept', Bool.false_eq_true, if_false]
  obtain ⟨cs, cl, hframe⟩ := hframe
  have hcores' (p : Port) : State.rectCores { u with port := p } g = s.rectCores g := hcores
  obtain ⟨⟨cs', hrel⟩, hin, hrest⟩ := State.foldl_releaseCore (s.rectCores g)
    { u with port := { u.port with ress := rest, saves := u.port.saves.erase (g, area) } } (by rw [hframe]; simp [hsaves, hpres])
  rw [hend, State.finishResume]
  dsimp only
  rw [hcores', State.reportGroup_eq]
  refine ⟨cs', cl, ?all, fun n hn => ?inside, fun n hn => (hrest n hn).trans (hout n hn)⟩
  case all =>
    rw [hrel, hframe]
    simp only [hsaves, List.erase_cons_head]
    rfl
  case inside =>
    obtain ⟨r, hr⟩ := hsame n
    refine ⟨r, (hin n hn).trans ?_⟩
    change { u.core n with pre := false, saved := false } = _
    rw [hr]
    rfl

/-- Settles O43: each of the four events by its fold over the cores of the rectangle. -/
theorem preemptionAndResumption : Obligations.PreemptionAndResumption := by
  unfold Obligations.PreemptionAndResumption
  intro s
  refine ⟨fun v hmay hcmd => ?preempt, fun g area rest hup hpres => ⟨fun hquiet htakes hlost => ?saved, fun hbusy => ?busy⟩,
    fun v hmay hcmd => ⟨fun hsaved hres hsusp => ?resume, fun hnone => ?noSave⟩, fun g area rest hup hress hsaves hpres hreads => ?resumed⟩
  case preempt =>
    rw [exec_preemptRequest_ok hmay hcmd, Claims.cores, State.rectCores_mod]
    obtain ⟨u, hu, ⟨cs, cl, hframe⟩, hpre, hother⟩ := (s.putPrgrp v).preempt_eq v.toNat s.port.prsave
    refine ⟨_, rfl, fun n hn => ?_, fun n hn => ?_, ?_, ?_⟩
    · rw [hu]; exact hpre n hn
    · rw [hu]; exact hother n hn
    · rw [hu, hframe]; rfl
    · rw [hu]; rfl
  case saved =>
    obtain ⟨u, ⟨cs, cl, hs, dr, db, tk, hframe⟩, hin, hout, ht⟩ :=
      State.endPreempt_saved hpres hquiet fun n hn => ⟨hlost n hn, htakes n hn⟩
    rw [exec_preemptComplete_up hup, ht]
    refine ⟨_, rfl, fun n hn => ?_, hout, rfl, rfl, rfl⟩
    obtain ⟨r, hr⟩ := hin n hn
    change u.core n = { s.core n with saved := true, ring := (u.core n).ring }
    rw [hr]
    rfl
  case busy => rw [exec_preemptComplete_up hup, State.endPreempt_busy hpres hbusy]
  case resume =>
    rw [exec_resumeRequest_ok hmay hcmd]
    obtain ⟨ls, ht⟩ := State.resume_ok (s := s.putPrgrp v) (x := v.toNat) hsaved hres hsusp
    rw [ht]
    exact ⟨_, rfl, rfl, rfl, rfl, rfl⟩
  case noSave =>
    rw [exec_resumeRequest_ok hmay hcmd, State.resume_not_saved (s := s.putPrgrp v) hnone]
    rfl
  case resumed =>
    obtain ⟨cs, cl, ht, hin, hout⟩ := State.endResume_restored hress hsaves hpres hreads
    rw [exec_resumeComplete_up hup]
    refine ⟨_, rfl, fun n hn => ?_, hout, ?_, ?_, ?_, ?_⟩
    · obtain ⟨r, hr⟩ := hin n hn
      rw [hr]
      rfl
    all_goals rw [ht]

end Sys2Proof.Machine
end

section
/-!
Work for slots: a task begins, a continuation resumes, a record starts (R38, R50, R54, R55, R65, R293, R294, R297).
-/

namespace Sys2Proof.Machine

open Sys2Proof

/-! ## Tables written entry by entry -/

theorem tblGet_foldl_tblSet_of_not_mem {α β : Type} (key : β → Nat) (val : β → α) (d : α) {k : Nat} (l : List β) (g : Tbl α)
    (h : k ∉ l.map key) : tblGet d k (l.foldl (fun g x => tblSet (key x) (val x) g) g) = tblGet d k g := by
  induction l generalizing g with
  | nil => rfl
  | cons x l ih =>
    rw [List.map_cons, List.mem_cons, not_or] at h
    rw [List.foldl_cons, ih _ h.2, tblGet_tblSet_ne d h.1]

/-- Each of several entries with different numbers is read back. -/
theorem tblGet_foldl_tblSet {α β : Type} (key : β → Nat) (val : β → α) (d : α) (l : List β) (g : Tbl α) (h : (l.map key).Nodup)
    {x : β} (hx : x ∈ l) : tblGet d (key x) (l.foldl (fun g x => tblSet (key x) (val x) g) g) = val x := by
  induction l generalizing g with
  | nil => exact absurd hx List.not_mem_nil
  | cons y l ih =>
    rw [List.map_cons, List.nodup_cons] at h
    rw [List.foldl_cons]
    rcases List.mem_cons.1 hx with rfl | hx
    · rw [tblGet_foldl_tblSet_of_not_mem _ _ _ _ _ h.1, tblGet_tblSet_self]
    · exact ih _ h.2 hx

/-- A written table lists what is written and what it listed. -/
theorem mem_tblSet {α : Type} {k : Nat} {v : α} {t : Tbl α} {x : Nat × α} (h : x ∈ tblSet k v t) : x = (k, v) ∨ x ∈ t := by
  induction t with
  | nil => exact .inl (List.mem_singleton.1 h)
  | cons y t ih =>
    obtain ⟨j, w⟩ := y
    simp only [tblSet] at h
    split at h
    · exact List.mem_cons.1 h
    · split at h
      · rcases List.mem_cons.1 h with h | h
        · exact .inl h
        · exact .inr (List.mem_cons_of_mem _ h)
      · rcases List.mem_cons.1 h with h | h
        · exact .inr (by rw [h]; exact List.mem_cons_self)
        · exact (ih h).imp_right (List.mem_cons_of_mem _)

/-! ## The thread of a task that begins (R38, R293) -/

section
variable (s : State) (n i region : Nat) (x : Start)

/-- The arguments stand in s1 and up. -/
theorem State.begun_sreg_arg {u : Thread} (hu : u.glob = (s.begun n i region x).glob) {j : Nat} (hj : j < x.args.length)
    (hlen : x.args.length ≤ 4) : u.sreg i (1 + j) = x.args.getD j 0 := by
  have hmem : (x.args.getD j 0, 1 + j) ∈ x.args.zipIdx 1 := by
    rw [List.mk_mem_zipIdx_iff_le_and_getElem?_sub]
    simp [hj]
  have hnd : ((x.args.zipIdx 1).map (·.2)).Nodup := by
    rw [List.zipIdx_map_snd]
    exact List.nodup_range'
  have hglob := tblGet_foldl_tblSet (fun a : Word × Nat => a.2) (fun a : Word × Nat => a.1) 0 (x.args.zipIdx 1)
    (if (s.thread n i).isWfw then (s.thread n i).kept else []) hnd hmem
  rw [Thread.sreg, if_neg (by omega), if_neg (by omega), if_neg (by omega), hu]
  exact hglob

end

/-- A window that nothing was written to holds zeros. -/
theorem Thread.sreg_window_nil {u : Thread} (hu : u.win = []) (i : Nat) {j : Nat} (h8 : 8 ≤ j) (h23 : j ≤ 23) : u.sreg i j = 0 := by
  rw [Thread.sreg, if_neg (by omega), if_neg (by omega), if_pos ⟨h8, h23⟩, hu]
  rfl

/-! ## What the start of a task leaves alone -/

/-- Of a core nothing but its threads, local store, ring and watchdog counter differs. -/
def Core.threadsOnly (c d : Core) : Prop := ∃ th ls lb r w, d = { c with threads := th, ls := ls, lsBad := lb, ring := r, wdog := w }

/-- Nothing differs but clusters and, of core n, its threads, local store, ring and watchdog counter. -/
def State.slotsOnly (n : Nat) (s t : State) : Prop := State.coreOnly n s t ∧ (s.core n).threadsOnly (t.core n)

theorem Core.threadsOnly_refl (c : Core) : c.threadsOnly c := ⟨_, _, _, _, _, rfl⟩

theorem State.slotsOnly_refl (n : Nat) (s : State) : State.slotsOnly n s s := ⟨State.coreOnly_refl n s, (s.core n).threadsOnly_refl⟩

theorem State.slotsOnly_trans {n : Nat} {s t u : State} (h : State.slotsOnly n s t) (h' : State.slotsOnly n t u) : State.slotsOnly n s u := by
  obtain ⟨hs, _, _, _, _, _, hc⟩ := h
  obtain ⟨ht, th, ls, lb, r, w, hc'⟩ := h'
  exact ⟨State.coreOnly_trans hs ht, th, ls, lb, r, w, by rw [hc', hc]⟩

section
variable (s : State) (n i : Nat)

theorem State.slotsOnly_setCore {c : Core} (h : (s.core n).threadsOnly c) : State.slotsOnly n s (s.setCore n c) :=
  ⟨s.coreOnly_setCore n c, by rw [State.core_setCore_self]; exact h⟩

theorem State.slotsOnly_setThread (t : Thread) : State.slotsOnly n s (s.setThread n i t) :=
  s.slotsOnly_setCore n ⟨_, _, _, _, _, rfl⟩

theorem State.slotsOnly_logPort (a size kind : Nat) (w : Source) : State.slotsOnly n s (s.logPort n a size kind w) := by
  obtain ⟨r, hr⟩ := s.core_logPort n a size kind w n
  exact ⟨s.coreOnly_logPort .., _, _, _, r, _, hr⟩

theorem State.slotsOnly_touch : State.slotsOnly n s (s.touch n) := by
  unfold State.touch
  split
  · exact s.slotsOnly_refl n
  · exact s.slotsOnly_setCore n ⟨_, _, _, _, _, rfl⟩

/-- A core whose threads stay leaves every thread alone. -/
theorem State.thread_setCore_of_threads {c : Core} (h : c.threads = (s.core n).threads) (m j : Nat) :
    (s.setCore n c).thread m j = s.thread m j := by
  by_cases hm : m = n
  · subst hm; rw [State.thread, State.core_setCore_self, Core.thread, h]; rfl
  · rw [State.thread, State.core_setCore_ne _ hm, State.thread]

@[simp] theorem State.thread_touch (m j : Nat) : (s.touch n).thread m j = s.thread m j := by
  unfold State.touch
  split
  · rfl
  · exact s.thread_setCore_of_threads n (by rfl) m j

@[simp] theorem State.thread_copyState (a b size m j : Nat) : (s.copyState n i a b size).thread m j = s.thread m j := by
  rw [State.copyState, State.thread_logPort]
  exact s.thread_setCore_of_threads n (by rfl) m j

theorem State.slotsOnly_copyState (a b size : Nat) : State.slotsOnly n s (s.copyState n i a b size) :=
  State.slotsOnly_trans (s.slotsOnly_setCore n ⟨_, _, _, _, _, rfl⟩) (State.slotsOnly_logPort _ n _ _ _ _)

/-! ## A pair starts (R65) -/

theorem State.slotsOnly_startTrailing : State.slotsOnly n s (s.startTrailing n i) := by
  unfold State.startTrailing
  split
  · exact s.slotsOnly_refl n
  · exact State.slotsOnly_trans (State.slotsOnly_trans (s.slotsOnly_setThread n i _) (State.slotsOnly_setThread _ n (i + 8) _))
      (State.slotsOnly_copyState _ n (i + 8) _ _ _)

theorem State.thread_startTrailing_of_ne {m j : Nat} (h : (m, j) ≠ (n, i)) (h' : (m, j) ≠ (n, i + 8)) :
    (s.startTrailing n i).thread m j = s.thread m j := by
  unfold State.startTrailing
  split
  · rfl
  · rw [State.thread_copyState, State.thread_setThread_of_ne _ _ _ _ h', State.thread_setThread_of_ne _ _ _ _ h]

/-- The leading thread of a pair, when the trailing one finds a region; without one the pair does not form. -/
theorem State.thread_startTrailing_self : ∃ p, (s.startTrailing n i).thread n i = { s.thread n i with pair := p } ∧
    ((s.regionFor n (i + 8)).isSome = true → p = 1) := by
  unfold State.startTrailing
  cases hr : s.regionFor n (i + 8) with
  | none => exact ⟨(s.thread n i).pair, rfl, nofun⟩
  | some r =>
    refine ⟨1, ?_, fun _ => rfl⟩
    dsimp only
    rw [State.thread_copyState, State.thread_setThread_of_ne _ _ _ _ (by simp), State.thread_setThread_self]

end

/-! ## A task begins in a slot -/

section
variable (s : State) (n i : Nat) (x : Start)

theorem State.slotsOnly_startTask : State.slotsOnly n s (s.startTask n i x) := by
  unfold State.startTask
  split
  · exact s.slotsOnly_refl n
  · dsimp only
    split
    · exact State.slotsOnly_trans (State.slotsOnly_trans (s.slotsOnly_setThread n i _) (State.slotsOnly_touch _ n))
        (State.slotsOnly_startTrailing _ n i)
    · exact State.slotsOnly_trans (s.slotsOnly_setThread n i _) (State.slotsOnly_touch _ n)

theorem State.thread_startTask_of_ne {m j : Nat} (h : (m, j) ≠ (n, i)) (h' : (m, j) ≠ (n, i + 8)) :
    (s.startTask n i x).thread m j = s.thread m j := by
  unfold State.startTask
  split
  · rfl
  · dsimp only
    split
    · rw [State.thread_startTrailing_of_ne _ _ _ h h', State.thread_touch, State.thread_setThread_of_ne _ _ _ _ h]
    · rw [State.thread_touch, State.thread_setThread_of_ne _ _ _ _ h]

/-- Without a pair the slot's partner stays as it is. -/
theorem State.thread_startTask_partner (h : s.pairedLaunch x.task.lnch = false) :
    (s.startTask n i x).thread n (i + 8) = s.thread n (i + 8) := by
  have hpair {r : Nat} : ((s.setThread n i (s.begun n i r x)).touch n).pairedLaunch x.task.lnch = false := by
    obtain ⟨⟨⟨cs, cl, hframe⟩, -⟩, -⟩ := State.slotsOnly_trans (s.slotsOnly_setThread n i (s.begun n i r x)) (State.slotsOnly_touch _ n)
    rw [hframe]
    exact h
  unfold State.startTask
  split
  · rfl
  · dsimp only
    rw [hpair, if_neg Bool.false_ne_true, State.thread_touch, State.thread_setThread_of_ne _ _ _ _ (by simp)]

/-- The slot's thread, when there is a region for it. -/
theorem State.thread_startTask_self {r : Nat} (hr : s.regionFor n i = some r) : ∃ p,
    (s.startTask n i x).thread n i = { s.begun n i r x with pair := p } ∧ (s.pairedLaunch x.task.lnch = false → p = 0) ∧
    (s.pairedLaunch x.task.lnch = true →
      (((s.setThread n i (s.begun n i r x)).touch n).regionFor n (i + 8)).isSome = true → p = 1) := by
  have hpair : ((s.setThread n i (s.begun n i r x)).touch n).pairedLaunch x.task.lnch = s.pairedLaunch x.task.lnch := by
    obtain ⟨⟨⟨cs, cl, hframe⟩, -⟩, -⟩ := State.slotsOnly_trans (s.slotsOnly_setThread n i (s.begun n i r x)) (State.slotsOnly_touch _ n)
    rw [hframe]
    rfl
  have hself : ((s.setThread n i (s.begun n i r x)).touch n).thread n i = s.begun n i r x := by
    rw [State.thread_touch, State.thread_setThread_self]
  unfold State.startTask
  rw [hr]
  dsimp only
  rw [hpair]
  split
  · next hp =>
    obtain ⟨p, ht, hsome⟩ := ((s.setThread n i (s.begun n i r x)).touch n).thread_startTrailing_self n i
    rw [hself] at ht
    exact ⟨p, ht, fun h => absurd hp (by rw [h]; exact Bool.false_ne_true), fun _ => hsome⟩
  · next hp => exact ⟨0, hself, fun _ => rfl, fun h => absurd h hp⟩

end

/-! ## Window-stack regions (R46, R47) -/

/-- The regions of a core that are in use. -/
def State.usedRegions (s : State) (n : Nat) : List Nat :=
  (s.core n).regionsUsed ++ ((s.cluster (clusterOf n)).runq.filter (fun e => decide (e.site = n))).map (fun e => e.thread.wsr)

section
variable (s : State) (n i : Nat)

theorem State.freeRegion_isSome_iff : (s.freeRegion n).isSome = true ↔ ∃ k, k < (s.core n).wsn ∧ k ∉ s.usedRegions n := by
  change ((List.range (s.core n).wsn).find? (fun k => !(s.usedRegions n).contains k)).isSome = true ↔ _
  simp [List.find?_isSome]

theorem State.freeRegions_eq : s.freeRegions n = ((List.range (s.core n).wsn).filter (fun k => !(s.usedRegions n).contains k)).length := rfl

theorem State.freeRegion_isSome_of_pos (h : 1 ≤ s.freeRegions n) : (s.freeRegion n).isSome = true := by
  rw [State.freeRegions_eq] at h
  obtain ⟨k, hk⟩ := List.exists_mem_of_length_pos h
  rw [State.freeRegion_isSome_iff]
  exact ⟨k, by simpa using hk⟩

/-- Of two free regions one is left when any one is taken. -/
theorem State.exists_other_region (h : 2 ≤ s.freeRegions n) (r : Nat) : ∃ k, k < (s.core n).wsn ∧ k ∉ s.usedRegions n ∧ k ≠ r := by
  rw [State.freeRegions_eq] at h
  have hnd : ((List.range (s.core n).wsn).filter (fun k => !(s.usedRegions n).contains k)).Nodup := List.nodup_range.filter _
  generalize hl : (List.range (s.core n).wsn).filter (fun k => !(s.usedRegions n).contains k) = l at *
  have hmem (k : Nat) (hk : k ∈ l) : k < (s.core n).wsn ∧ k ∉ s.usedRegions n := by rw [← hl] at hk; simpa using hk
  match l, h, hnd with
  | a :: b :: l, _, hnd =>
    by_cases ha : a = r
    · refine ⟨b, (hmem b (by simp)).1, (hmem b (by simp)).2, fun hb => ?_⟩
      rw [ha, hb] at hnd
      exact (List.nodup_cons.1 hnd).1 List.mem_cons_self
    · exact ⟨a, (hmem a (by simp)).1, (hmem a (by simp)).2, ha⟩

/-- A thread that is replaced may add its own region to those in use. -/
theorem State.usedRegions_setThread (t : Thread) {k : Nat} (h : k ∈ (s.setThread n i t).usedRegions n) : k = t.wsr ∨ k ∈ s.usedRegions n := by
  simp only [State.usedRegions, State.core_setThread_self, State.cluster_setThread, Core.regionsUsed, List.mem_append, List.mem_map,
    List.mem_filter, Core.setThread] at h ⊢
  rcases h with ((⟨x, ⟨hx, hrun⟩, rfl⟩ | h) | h) | h
  · rcases mem_tblSet hx with rfl | hx
    · exact .inl rfl
    · exact .inr (.inl (.inl (.inl ⟨x, ⟨hx, hrun⟩, rfl⟩)))
  · exact .inr (.inl (.inl (.inr h)))
  · exact .inr (.inl (.inr h))
  · exact .inr (.inr h)

theorem State.usedRegions_touch : (s.touch n).usedRegions n = s.usedRegions n ∧ ((s.touch n).core n).wsn = (s.core n).wsn := by
  unfold State.touch
  split
  · exact ⟨rfl, rfl⟩
  · refine ⟨?_, by rw [State.core_setCore_self]⟩
    unfold State.usedRegions
    rw [State.core_setCore_self]
    rfl

end

section
variable {s : State} {n i : Nat}

theorem State.slotTakes_admits {k : Takers} {p : Bool} (h : s.slotTakes n i k p = true) :
    k.admits (s.thread n i) = true ∧ b2n (s.thread n i).isFree ≤ s.freeRegions n := by
  unfold State.slotTakes at h
  split at h
  · simp only [Bool.and_eq_true, decide_eq_true_eq] at h
    exact ⟨h.1.1.2, by omega⟩
  · simpa using h

/-- A slot that can begin a task has a region for it. -/
theorem State.regionFor_isSome {k : Takers} {p : Bool} (h : s.slotTakes n i k p = true) : (s.regionFor n i).isSome = true := by
  obtain ⟨hk, hfree⟩ := State.slotTakes_admits h
  unfold State.regionFor
  split
  · rfl
  · next hw =>
    have hisFree : (s.thread n i).isFree = true := by
      cases k <;> simp_all [Takers.admits]
    exact s.freeRegion_isSome_of_pos n (by rw [hisFree] at hfree; exact hfree)

/-- A free slot that can begin a pair leaves a region for the partner. -/
theorem State.regionFor_partner (h : s.slotTakes n i .free true = true) {t : Thread} :
    (((s.setThread n i t).touch n).regionFor n (i + 8)).isSome = true := by
  have hpartner : ((s.setThread n i t).touch n).thread n (i + 8) = s.thread n (i + 8) := by
    rw [State.thread_touch, State.thread_setThread_of_ne _ _ _ _ (by simp)]
  unfold State.slotTakes at h
  simp only [if_true, Bool.and_eq_true, Bool.or_eq_true, decide_eq_true_eq, Takers.admits] at h
  obtain ⟨⟨⟨-, hfree⟩, hother⟩, hregions⟩ := h
  unfold State.regionFor
  rw [hpartner]
  split
  · rfl
  · next hw =>
    have hu : (s.thread n (i + 8)).isFree = true := hother.resolve_right hw
    rw [hfree, hu] at hregions
    obtain ⟨hused, hwsn⟩ := (s.setThread n i t).usedRegions_touch n
    obtain ⟨k, hk, hnot, hne⟩ := s.exists_other_region n hregions t.wsr
    rw [State.freeRegion_isSome_iff]
    refine ⟨k, ?_, fun hmem => ?_⟩
    · rw [hwsn, State.core_setThread_self]; exact hk
    · rw [hused] at hmem
      exact (s.usedRegions_setThread n i t hmem).elim hne hnot

end

end Sys2Proof.Machine
end

section
/-!
Dispensers (R38, R55), and the work that a free slot takes (R50, R294, R297).
-/

namespace Sys2Proof.Machine

open Sys2Proof

/-! ## The item that goes first (R55) -/

/-- An item beside the best so far. -/
def DispItem.pick : Option DispItem → DispItem → Option DispItem
  | none, x => some x
  | some y, x => some (y.first x)

theorem State.bestItem_eq (s : State) (k : Nat) : s.bestItem k = (Claims.items s k).foldl DispItem.pick none := by
  unfold State.bestItem
  dsimp only
  congr 1
  funext acc x
  cases acc <;> rfl

theorem noLater_refl (a : DispItem) : Claims.noLater a a := .inr ⟨rfl, Nat.le_refl _⟩

theorem noLater_trans {a b c : DispItem} (h : Claims.noLater a b) (h' : Claims.noLater b c) : Claims.noLater a c := by
  unfold Claims.noLater at *
  omega

/-- Of two items one goes first, and no later than either. -/
theorem DispItem.first_spec (a b : DispItem) :
    (a.first b = a ∨ a.first b = b) ∧ Claims.noLater (a.first b) a ∧ Claims.noLater (a.first b) b := by
  unfold Claims.noLater DispItem.first
  split
  · simp; omega
  · split
    · simp; omega
    · split
      · simp; omega
      · split
        · simp; omega
        · split <;> simp <;> omega

theorem DispItem.foldl_pick {l : List DispItem} {y d : DispItem} (h : l.foldl DispItem.pick (some y) = some d) :
    d ∈ y :: l ∧ ∀ z ∈ y :: l, Claims.noLater d z := by
  induction l generalizing y with
  | nil =>
    obtain rfl : y = d := by simpa using h
    exact ⟨List.mem_cons_self, fun z hz => by rw [List.mem_singleton.1 hz]; exact noLater_refl y⟩
  | cons x l ih =>
    obtain ⟨hmem, hall⟩ := ih (y := y.first x) h
    obtain ⟨hone, hy, hx⟩ := y.first_spec x
    have hd := hall _ List.mem_cons_self
    refine ⟨?_, fun z hz => ?_⟩
    · rcases List.mem_cons.1 hmem with rfl | hmem
      · rcases hone with h | h <;> simp [h]
      · simp [hmem]
    · rcases List.mem_cons.1 hz with rfl | hz
      · exact noLater_trans hd hy
      · rcases List.mem_cons.1 hz with rfl | hz
        · exact noLater_trans hd hx
        · exact hall z (List.mem_cons_of_mem _ hz)

theorem State.bestItem_spec {s : State} {k : Nat} {d : DispItem} (h : s.bestItem k = some d) :
    d ∈ Claims.items s k ∧ ∀ y ∈ Claims.items s k, Claims.noLater d y := by
  rw [State.bestItem_eq] at h
  cases hl : Claims.items s k with
  | nil => rw [hl] at h; exact absurd h (by simp)
  | cons y l => rw [hl] at h; exact DispItem.foldl_pick h

/-! ## An item of a launch begins (R38) -/


theorem State.txnItem_item {s : State} {k : Nat} {x : Txn} {d : DispItem} (h : s.txnItem k x = some d) : d.item = none := by
  unfold State.txnItem at h
  split at h
  · exact absurd h (by simp)
  · obtain ⟨i, -, rfl⟩ := Option.map_eq_some_iff.1 h
    rfl

theorem State.launchItem_spec {s : State} {k l : Nat} {x : Launch} {d : DispItem} (h : s.launchItem k l x = some d) :
    s.slotTakes d.core d.slot .both (s.pairedLaunch l) = true := by
  unfold State.launchItem at h
  split at h
  · exact absurd h (by simp)
  · split at h
    · exact absurd h (by simp)
    · obtain ⟨n, -, hn⟩ := List.exists_of_findSome?_eq_some h
      split at hn
      · exact absurd hn (by simp)
      · obtain ⟨i, hi, rfl⟩ := Option.map_eq_some_iff.1 hn
        exact List.find?_some (p := fun i => s.slotTakes n i .both (s.pairedLaunch l)) hi

/-- The item that a dispenser gives has a region. -/
theorem State.bestItem_regionFor {s : State} {k : Nat} {d : DispItem} (h : d ∈ Claims.items s k) {x : Nat × Nat} (hx : d.item = some x) :
    (s.regionFor d.core d.slot).isSome = true := by
  unfold Claims.items at h
  rw [List.mem_append, List.mem_filterMap, List.mem_filterMap] at h
  rcases h with ⟨y, -, hy⟩ | ⟨y, -, hy⟩
  · exact State.regionFor_isSome (State.launchItem_spec hy)
  · rw [State.txnItem_item hy] at hx
    exact absurd hx (by simp)

/-- What an item of a launch begins with (R38). -/
def State.itemStart (s : State) (k l m : Nat) (x : Launch) : Start :=
  { pc := x.hdr.extractLsb' 0 64, args := (List.range 4).map (fun j => x.hdr.extractLsb' (64 + 64 * j) 64), wid := BitVec.ofNat 64 m
    rnd := x.hdr.extractLsb' 422 3
    task := { s.taskOf l with score := (s.core ((s.coresOf k).headD 0)).lcore, item := some m } }

/-- The launch of which an item has started. -/
def Launch.started (x : Launch) (k : Nat) : Launch :=
  { x with handed := tblSet k (tblGet 0 k x.handed + 1) x.handed, toStart := x.toStart - 1, live := x.live + 1 }

theorem State.modLaunch_some {s : State} {l : Nat} {x : Launch} (h : s.launch l = some x) (f : Launch → Launch) :
    s.modLaunch l f = { s with launches := tblSet l (f x) s.launches } := by
  simp only [State.modLaunch, h]

theorem ofNat_bits (x : BitVec 512) (lo len : Nat) : BitVec.ofNat len (bits x.toNat lo len) = x.extractLsb' lo len := by
  apply BitVec.eq_of_toNat_eq
  rw [BitVec.toNat_ofNat, BitVec.extractLsb'_toNat, bits, Nat.shiftRight_eq_div_pow, Nat.mod_mod]

theorem State.placeItem_eq {s : State} {k l m : Nat} {d : DispItem} {x : Launch} (h : s.launch l = some x) :
    s.placeItem k d l m = ((s.startTask d.core d.slot (s.itemStart k l m x)).setCluster k
      { (s.startTask d.core d.slot (s.itemStart k l m x)).cluster k with lastItemCore := some d.core }).modLaunch l (fun x => x.started k) := by
  simp only [State.placeItem, h, Launch.field, ofNat_bits]
  rfl

/-- The thread of a slot in which a task has begun. -/
theorem State.startTask_begun {s t : State} {n i r : Nat} {x : Start} (hr : s.regionFor n i = some r) (hlen : x.args.length ≤ 4)
    (ht : t.thread n i = (s.startTask n i x).thread n i) : Claims.begun s t n i x.pc x.wid x.rnd x.args := by
  obtain ⟨p, hself, -⟩ := s.thread_startTask_self n i x hr
  unfold Claims.begun
  rw [ht, hself]
  have hglob : { s.begun n i r x with pair := p }.glob = (s.begun n i r x).glob := rfl
  have hwin : { s.begun n i r x with pair := p }.win = [] := rfl
  exact ⟨rfl, rfl, rfl, rfl, fun j hj => s.begun_sreg_arg n i r x hglob hj hlen,
    fun j h8 h23 => Thread.sreg_window_nil hwin i h8 h23, rfl, rfl, rfl, rfl, rfl, by simp [Thread.cntr, State.begun], rfl, rfl, rfl⟩

theorem dispensing : Claims.Dispensing := by
  intro s k d halive hbest
  obtain ⟨hmem, hfirst⟩ := State.bestItem_spec hbest
  refine ⟨hmem, hfirst, fun l m x hitem hx => ?_⟩
  obtain ⟨r, hr⟩ := Option.isSome_iff_exists.1 (State.bestItem_regionFor hmem hitem)
  obtain ⟨⟨⟨cs, cl, hframe⟩, -⟩, -⟩ := s.slotsOnly_startTask d.core d.slot (s.itemStart k l m x)
  obtain ⟨p, hself, -⟩ := s.thread_startTask_self d.core d.slot (s.itemStart k l m x) hr
  have hlaunch (c : Cluster) : ((s.startTask d.core d.slot (s.itemStart k l m x)).setCluster k c).launch l = some x := by
    rw [hframe]; exact hx
  have hexec : exec (.dispenserPlace k) s = .next (s.placeItem k d l m) := by
    change execDispenserPlace k s = _
    simp only [execDispenserPlace, hbest, hitem, halive, if_true]
  rw [hexec, State.placeItem_eq hx, State.modLaunch_some (hlaunch _)]
  refine ⟨_, x.started k, rfl, State.startTask_begun hr (by simp [State.itemStart]) rfl,
    fun a j h h' => s.thread_startTask_of_ne d.core d.slot _ h h', tblFind_tblSet_self .., rfl, rfl, rfl, ?item, ?lnch, ?dram, ?chan⟩
  case item =>
    change ((s.startTask d.core d.slot (s.itemStart k l m x)).thread d.core d.slot).task.item = _
    rw [hself]; rfl
  case lnch =>
    change ((s.startTask d.core d.slot (s.itemStart k l m x)).thread d.core d.slot).task.lnch = _
    rw [hself]
    change (s.taskOf l).lnch = l
    rw [State.taskOf, hx]
  case dram =>
    change (s.startTask d.core d.slot (s.itemStart k l m x)).dram = _
    rw [hframe]
  case chan =>
    change (s.startTask d.core d.slot (s.itemStart k l m x)).chan = _
    rw [hframe]

/-! ## The epoch (R122) -/

section
variable (s : State) (n : Nat)

theorem State.core_bumpEpoch_self : (s.bumpEpoch n).core n = (s.core n).bumpEpoch := State.core_setCore_self s n _

@[simp] theorem State.thread_bumpEpoch (m j : Nat) : (s.bumpEpoch n).thread m j = s.thread m j :=
  s.thread_setCore_of_threads n (by rfl) m j

end

/-! ## A record begins in a slot (R50, R293) -/

theorem begun_congr {s u t : State} {n i : Nat} (h : u.thread n i = s.thread n i) {pc wid : Word} {rnd : BitVec 3} {args : List Word}
    (hb : Claims.begun u t n i pc wid rnd args) : Claims.begun s t n i pc wid rnd args := by
  unfold Claims.begun at hb ⊢
  rw [h] at hb
  exact hb

theorem State.startRecord_begins {s : State} {n i : Nat} {r : Record} (hlen : r.args.length ≤ 4)
    (htakes : s.slotTakes n i .free (s.pairedLaunch r.lnch) = true) :
    Claims.recordBegins s (s.startRecord n i r) n i r ∧ ((s.startRecord n i r).core n).deque = (s.core n).deque ∧
      (s.startRecord n i r).chan = s.chan ∧ (s.startRecord n i r).dram = s.dram := by
  obtain ⟨g, hg⟩ := Option.isSome_iff_exists.1 (State.regionFor_isSome htakes)
  obtain ⟨⟨⟨cs, cl, hframe⟩, -⟩, th, ls, lb, ri, w, hcore⟩ := s.slotsOnly_startTask n i (s.recordStart r)
  obtain ⟨p, hself, hone, htwo⟩ := s.thread_startTask_self n i (s.recordStart r) hg
  have hlnch : (s.recordStart r).task.lnch = r.lnch := by
    change (s.taskOf r.lnch).lnch = r.lnch
    unfold State.taskOf
    split <;> rfl
  rw [hlnch] at hone htwo
  have hp : p = if s.pairedLaunch r.lnch then 1 else 0 := by
    split
    · next hpair => rw [hpair] at htakes; exact htwo hpair (State.regionFor_partner htakes)
    · next hpair => exact hone (by simpa using hpair)
  have hthread (m j : Nat) : (s.startRecord n i r).thread m j = (s.startTask n i (s.recordStart r)).thread m j := by
    unfold State.startRecord
    dsimp only
    split
    · rfl
    · rw [State.thread_bumpEpoch]
  have hepoch : ((s.startRecord n i r).core n).epoch = (if r.fref.core = (s.core n).lcore then (s.core n).epoch else (s.core n).epoch + 1) ∧
      ((s.startRecord n i r).core n).deque = (s.core n).deque := by
    unfold State.startRecord
    dsimp only
    rw [hcore]
    split
    · rw [hcore]; exact ⟨rfl, rfl⟩
    · rw [State.core_bumpEpoch_self, hcore]; exact ⟨rfl, rfl⟩
  refine ⟨⟨State.startTask_begun hg hlen (hthread n i), fun m j h h' => (hthread m j).trans (s.thread_startTask_of_ne n i _ h h'),
    by rw [hthread, hself]; rfl, by rw [hthread, hself, hp], fun h => (hthread _ _).trans (s.thread_startTask_partner n i _ (by rw [hlnch]; exact h)),
    hepoch.1⟩, hepoch.2, ?_⟩
  unfold State.startRecord
  dsimp only
  rw [hframe]
  split
  · exact ⟨rfl, rfl⟩
  · exact ⟨rfl, rfl⟩

/-- A slot can take a task whatever else the deque and the run list hold, if the run list's regions stay in use. -/
theorem State.slotTakes_setCore {s : State} {n : Nat} {c : Core} (hth : c.threads = (s.core n).threads) (hwsn : c.wsn = (s.core n).wsn)
    (hused : c.regionsUsed = (s.core n).regionsUsed) (i : Nat) (k : Takers) (p : Bool) :
    (s.setCore n c).slotTakes n i k p = s.slotTakes n i k p := by
  have hregions : (s.setCore n c).freeRegions n = s.freeRegions n := by
    simp only [State.freeRegions, State.core_setCore_self, hused, hwsn]
    rfl
  simp only [State.slotTakes, s.thread_setCore_of_threads n hth, hregions]

theorem exec_dequePop_ok {s : State} {n i : Nat} {r : Record} {rest : List Record} (hworks : s.takesWork n = true)
    (hrun : (s.core n).runList = []) (hdeque : (s.core n).deque = r :: rest) (hi : i < 16)
    (htakes : s.slotTakes n i .free (s.pairedLaunch r.lnch) = true) :
    exec (.dequePop n i) s = .next ((s.setCore n { s.core n with deque := rest }).startRecord n i r) := by
  change execDequePop n i s = _
  simp only [execDequePop, hdeque, hworks, hrun, hi, htakes, List.isEmpty_nil, decide_true, Bool.and_self, if_true]

theorem dequePop_starts {s : State} {n i : Nat} {r : Record} {rest : List Record} (hworks : s.takesWork n = true)
    (hrun : (s.core n).runList = []) (hdeque : (s.core n).deque = r :: rest) (hi : i < 16) (hlen : r.args.length ≤ 4)
    (htakes : s.slotTakes n i .free (s.pairedLaunch r.lnch) = true) :
    ∃ t, exec (.dequePop n i) s = .next t ∧ (t.core n).deque = rest ∧ Claims.recordBegins s t n i r ∧ t.chan = s.chan ∧ t.dram = s.dram := by
  have hthread (m j : Nat) : (s.setCore n { s.core n with deque := rest }).thread m j = s.thread m j :=
    s.thread_setCore_of_threads n (by rfl) m j
  have htakes' : (s.setCore n { s.core n with deque := rest }).slotTakes n i .free (s.pairedLaunch r.lnch) = true := by
    rw [State.slotTakes_setCore (by rfl) (by rfl) (by rfl)]; exact htakes
  obtain ⟨⟨hbegun, hothers, hfref, hpair, hpartner, hepoch⟩, hd, hout⟩ := State.startRecord_begins hlen htakes'
  rw [State.core_setCore_self] at hd hepoch
  refine ⟨_, exec_dequePop_ok hworks hrun hdeque hi htakes, hd, ⟨begun_congr (hthread n i) hbegun,
    fun m j h h' => (hothers m j h h').trans (hthread m j), hfref, hpair, fun h => (hpartner h).trans (hthread _ _), hepoch⟩, hout⟩

end Sys2Proof.Machine
end

section
/-!
A continuation resumes in a free slot (R50, R294, R297).
-/

namespace Sys2Proof.Machine

open Sys2Proof

section
variable (s : State) (n i k : Nat) (regs : List Nat)

/-! ## A window comes back from its region -/

theorem State.logs_slotsOnly (l : List (Nat × Nat)) (b kind : Nat) (w : State → Source) :
    State.slotsOnly n s (l.foldl (fun s p => s.logPort n (b + p.1) p.2 kind (w s)) s) ∧
      ∀ m j, (l.foldl (fun s p => s.logPort n (b + p.1) p.2 kind (w s)) s).thread m j = s.thread m j := by
  induction l generalizing s with
  | nil => exact ⟨s.slotsOnly_refl n, fun _ _ => rfl⟩
  | cons p l ih =>
    obtain ⟨hs, ht⟩ := ih (s.logPort n (b + p.1) p.2 kind (w s))
    exact ⟨State.slotsOnly_trans (s.slotsOnly_logPort ..) hs, fun m j => (ht m j).trans (s.thread_logPort ..)⟩

/-- The window registers after window k came back from the region of a thread. -/
def State.refilled (t : Thread) : Tbl Word := regs.foldl (fun w r => tblSet (winIndex k r) (s.lsWord n (t.region + winPlace k r)) w) t.win

theorem State.thread_fillWindow_self :
    ∃ b, (s.fillWindow n i k regs).thread n i = { s.thread n i with win := s.refilled n k regs (s.thread n i), regBad := b } :=
  ⟨_, State.thread_setThread_self ..⟩

theorem State.thread_fillWindow_of_ne {m j : Nat} (h : (m, j) ≠ (n, i)) : (s.fillWindow n i k regs).thread m j = s.thread m j := by
  rw [State.fillWindow, State.thread_setThread_of_ne _ _ _ _ h]
  exact (s.logs_slotsOnly n (winParts k) (s.thread n i).region 3 (fun s => s.source n i true)).2 m j

theorem State.slotsOnly_fillWindow : State.slotsOnly n s (s.fillWindow n i k regs) :=
  State.slotsOnly_trans (s.logs_slotsOnly n (winParts k) (s.thread n i).region 3 (fun s => s.source n i true)).1 (State.slotsOnly_setThread _ n i _)

/-! ## Free values -/

/-- The registers that a resumption leaves to chance: v, p and e, and the queue names (R297; log entry 2). -/
theorem State.thread_scramble_self : ∃ v p e b q,
    (s.scramble n i).thread n i = { s.thread n i with vec := v, prd := p, ext := e, regBad := b, qmap := q } := by
  refine ⟨_, _, _, _, _, (s.thread_setThread_self n i _).trans rfl⟩

theorem State.thread_scramble_of_ne {m j : Nat} (h : (m, j) ≠ (n, i)) : (s.scramble n i).thread m j = s.thread m j :=
  s.thread_setThread_of_ne n i _ h

theorem State.scramble_core : (s.core n).threadsOnly ((s.scramble n i).core n) := ⟨_, _, _, _, _, State.core_setThread_self s n i _⟩

end

/-! ## The thread of a continuation (R294, R297) -/

/-- What resumes: the registers that the park save area and the frame hold. -/
def State.resumed (s : State) (n i : Nat) (k : Cont) : Thread :=
  let u := s.thread n i
  let a := k.region * 0x1000
  let ws := s.lsWords n a 16
  let t := (k.thread.setGlobals (ws.take 14)).setMode (ws.getD 15 0)
  { t with run := .running, pc := (s.contPoint n k).1, srs := loadSrs (s.contPoint n k).2, wid := ws.getD 14 0
           dpat := BitVec.ofNat 51 (s.lsNum n (a + 0x110) 8), wsr := k.region, gen := u.gen + 1, mbHi := u.mbHi, mbLo := u.mbLo, win := []
           regBad := [], resLo := k.thread.depth, cntL := 0, cntS := 0, cntC := 0, cntT := 0, phase := 0, held := [], reply := none }

/-- What the resumption reads of the local store is logged. -/
def State.resumeLogs (s : State) (n i : Nat) (k : Cont) : State :=
  let a := k.region * 0x1000
  let w := { s.source n i true with gen := ((s.thread n i).gen + 1).toNat }
  let s := s.logPort n a 128 3 w
  match k.frame with
  | none => s.logPort n (a + 0x100) 32 3 w
  | some f => (s.logPort n (a + 0x110) 8 3 w).logPort n f 32 3 w

section
variable {s : State} {n i : Nat} {k : Cont}

theorem State.resumeIn_eq (hpair : k.thread.pair = 0) (hbad : s.contBad n k = none) : s.resumeIn n i k =
    ((((((s.resumeLogs n i k).setThread n i (s.resumed n i k)).fillWindow n i k.thread.depth (List.range' 8 16)).scramble n i).bumpEpoch n).touch n) := by
  unfold State.resumeIn State.resumeLogs State.resumed
  cases k.frame with
  | none => simp only [hbad, Thread.setGlobals, Thread.setMode, hpair, Nat.zero_ne_one, if_false]
  | some f => simp only [hbad, Thread.setGlobals, Thread.setMode, hpair, Nat.zero_ne_one, if_false]

theorem State.slotsOnly_resumeLogs (s : State) (n i : Nat) (k : Cont) : State.slotsOnly n s (s.resumeLogs n i k) ∧
    ((s.resumeLogs n i k).core n).ls = (s.core n).ls ∧ ∀ m j, (s.resumeLogs n i k).thread m j = s.thread m j := by
  unfold State.resumeLogs
  dsimp only
  cases k.frame with
  | none =>
    exact ⟨State.slotsOnly_trans (s.slotsOnly_logPort ..) (State.slotsOnly_logPort ..), by simp, by simp⟩
  | some f =>
    exact ⟨State.slotsOnly_trans (State.slotsOnly_trans (s.slotsOnly_logPort ..) (State.slotsOnly_logPort ..)) (State.slotsOnly_logPort ..),
      by simp, by simp⟩

theorem State.lsWord_congr {s t : State} {n : Nat} (h : (t.core n).ls = (s.core n).ls) (a : Nat) : t.lsWord n a = s.lsWord n a := by
  rw [State.lsWord, State.lsNum, h]; rfl

theorem State.refilled_congr {s t : State} {n : Nat} (h : (t.core n).ls = (s.core n).ls) (k : Nat) (regs : List Nat) (u : Thread) :
    t.refilled n k regs u = s.refilled n k regs u := by
  simp only [State.refilled, State.lsWord_congr h]

/-- The thread that resumes, but for what is left to chance. -/
theorem State.thread_resumeIn_self (hpair : k.thread.pair = 0) (hbad : s.contBad n k = none) : ∃ v p e b q,
    (s.resumeIn n i k).thread n i = { s.resumed n i k with win := s.refilled n k.thread.depth (List.range' 8 16) (s.resumed n i k)
                                                           vec := v, prd := p, ext := e, regBad := b, qmap := q } := by
  obtain ⟨-, hls, -⟩ := s.slotsOnly_resumeLogs n i k
  obtain ⟨v, p, e, b, q, h⟩ := (((s.resumeLogs n i k).setThread n i (s.resumed n i k)).fillWindow n i k.thread.depth
    (List.range' 8 16)).thread_scramble_self n i
  obtain ⟨b', h'⟩ := ((s.resumeLogs n i k).setThread n i (s.resumed n i k)).thread_fillWindow_self n i k.thread.depth (List.range' 8 16)
  refine ⟨v, p, e, b, q, ?_⟩
  rw [State.resumeIn_eq hpair hbad, State.thread_touch, State.thread_bumpEpoch, h, h', State.thread_setThread_self,
    State.refilled_congr (s := s)]
  rw [State.setThread_ls, hls]

theorem State.thread_resumeIn_of_ne (hpair : k.thread.pair = 0) (hbad : s.contBad n k = none) {m j : Nat} (h : (m, j) ≠ (n, i)) :
    (s.resumeIn n i k).thread m j = s.thread m j := by
  obtain ⟨-, -, hth⟩ := s.slotsOnly_resumeLogs n i k
  rw [State.resumeIn_eq hpair hbad, State.thread_touch, State.thread_bumpEpoch, State.thread_scramble_of_ne _ _ _ h,
    State.thread_fillWindow_of_ne _ _ _ _ _ h, State.thread_setThread_of_ne _ _ _ _ h, hth]

/-- What else a resumption changes: the epoch. -/
theorem State.resumeIn_frame (hpair : k.thread.pair = 0) (hbad : s.contBad n k = none) :
    ((s.resumeIn n i k).core n).runList = (s.core n).runList ∧ ((s.resumeIn n i k).core n).epoch = (s.core n).epoch + 1 ∧
      (s.resumeIn n i k).chan = s.chan ∧ (s.resumeIn n i k).dram = s.dram := by
  obtain ⟨hlogs, -, -⟩ := s.slotsOnly_resumeLogs n i k
  have hfill := State.slotsOnly_trans hlogs (State.slotsOnly_trans (State.slotsOnly_setThread _ n i (s.resumed n i k))
    (State.slotsOnly_fillWindow _ n i k.thread.depth (List.range' 8 16)))
  rw [State.resumeIn_eq hpair hbad]
  generalize ((s.resumeLogs n i k).setThread n i (s.resumed n i k)).fillWindow n i k.thread.depth (List.range' 8 16) = u at *
  obtain ⟨⟨⟨cs, cl, hframe⟩, -⟩, th, ls, lb, r, w, hcore⟩ := hfill
  obtain ⟨th', ls', lb', r', w', hscr⟩ := u.scramble_core n i
  obtain ⟨⟨⟨cs', cl', htouch⟩, -⟩, th'', ls'', lb'', r'', w'', hcore'⟩ := ((u.scramble n i).bumpEpoch n).slotsOnly_touch n
  rw [hcore', State.core_bumpEpoch_self, hscr, hcore, htouch]
  refine ⟨rfl, rfl, ?_, ?_⟩
  · change u.chan = s.chan; rw [hframe]
  · change u.dram = s.dram; rw [hframe]

end

/-! ## The registers that come back -/

section
variable (s : State) (n i : Nat) (k : Cont) {u : Thread}

theorem State.resumed_glob : (s.resumed n i k).glob =
    (savedGlobals.zip ((s.lsWords n (k.region * 0x1000) 16).take 14)).foldl (fun g x => tblSet x.1 x.2 g) k.thread.glob := by
  simp only [State.resumed, Thread.setMode, Thread.setGlobals]

/-- The park save area's word m is that of the m-th saved global (R181). -/
theorem State.sreg_resumed_global (hu : u.glob = (s.resumed n i k).glob) {m r : Nat} (hm : savedGlobals[m]? = some r) :
    u.sreg i r = s.lsWord n (k.region * 0x1000 + 8 * m) := by
  have hlt : m < 14 := (List.getElem?_eq_some_iff.1 hm).1
  have hr : r ∈ savedGlobals := List.mem_of_getElem? hm
  have hmem : (r, s.lsWord n (k.region * 0x1000 + 8 * m)) ∈ savedGlobals.zip ((s.lsWords n (k.region * 0x1000) 16).take 14) := by
    refine List.mem_of_getElem? (i := m) ?_
    rw [List.getElem?_zip_eq_some]
    refine ⟨hm, ?_⟩
    rw [List.getElem?_take_of_lt hlt]
    simp [State.lsWords, show m < 16 by omega]
  have hnd : ((savedGlobals.zip ((s.lsWords n (k.region * 0x1000) 16).take 14)).map (·.1)).Nodup := by
    rw [List.map_fst_zip (by simp [savedGlobals, State.lsWords])]
    decide
  have hglob : tblGet 0 r (s.resumed n i k).glob = s.lsWord n (k.region * 0x1000 + 8 * m) := by
    rw [State.resumed_glob]
    exact tblGet_foldl_tblSet (fun x : Nat × Word => x.1) (fun x : Nat × Word => x.2) 0 _ k.thread.glob hnd hmem
  have hranges : ∀ r ∈ savedGlobals, r ≠ 0 ∧ r ≠ 31 ∧ ¬ (8 ≤ r ∧ r ≤ 23) := by decide
  have hrange := hranges r hr
  rw [Thread.sreg, if_neg hrange.1, if_neg hrange.2.1, if_neg hrange.2.2, hu, hglob]

theorem State.resumed_depth : (s.resumed n i k).depth = k.thread.depth := by simp only [State.resumed, Thread.setMode, Thread.setGlobals]

theorem State.resumed_region : (s.resumed n i k).region = k.region * 0x1000 := by rw [Thread.region, State.resumed]

theorem State.resumed_wid : (s.resumed n i k).wid = s.lsWord n (k.region * 0x1000 + 0x70) := by
  simp [State.resumed, State.lsWords]

theorem State.tblGet_refilled (d : Nat) (t : Thread) {r : Nat} {l : List Nat} (hr : r ∈ l) (hnd : (l.map (winIndex d)).Nodup) :
    tblGet 0 (winIndex d r) (s.refilled n d l t) = s.lsWord n (t.region + winPlace d r) :=
  tblGet_foldl_tblSet (winIndex d) (fun r => s.lsWord n (t.region + winPlace d r)) 0 l t.win hnd hr

/-- The top window's registers (R181). -/
theorem State.sreg_refilled_window {t : Thread} {d : Nat} (hu : u.win = s.refilled n d (List.range' 8 16) t) (hd : u.depth = d)
    {r : Nat} (h8 : 8 ≤ r) (h23 : r ≤ 23) : u.sreg i r = s.lsWord n (t.region + winPlace d r) := by
  have hmem : r ∈ List.range' 8 16 := by rw [List.mem_range'_1]; omega
  have hnd : ((List.range' 8 16).map (winIndex d)).Nodup := by
    refine List.Nodup.map_on (fun a ha b hb h => ?_) List.nodup_range'
    rw [List.mem_range'_1] at ha hb
    unfold winIndex at h
    omega
  rw [Thread.sreg, if_neg (by omega), if_neg (by omega), if_pos ⟨h8, h23⟩, hu, hd]
  exact s.tblGet_refilled n d t hmem hnd

end

theorem exec_runListResume_ok {s : State} {n i : Nat} {k : Cont} {rest : List Cont} (hworks : s.takesWork n = true)
    (hrun : (s.core n).runList = k :: rest) (hcan : s.canResume n i k = true) :
    exec (.runListResume n i) s = .next ((s.setCore n { s.core n with runList := rest }).resumeIn n i k) := by
  change execRunListResume n i s = _
  simp only [execRunListResume, hrun, hworks, hcan, Bool.and_self, if_true]

/-- A continuation reads the same of a core whose run list alone differs. -/
theorem State.resumed_congr {s t : State} {n i : Nat} (hls : (t.core n).ls = (s.core n).ls) (hth : t.thread n i = s.thread n i) (k : Cont) :
    t.resumed n i k = s.resumed n i k := by
  have hword := State.lsWord_congr hls
  have hwords (a m : Nat) : t.lsWords n a m = s.lsWords n a m := by simp only [State.lsWords, hword]
  have hpoint : t.contPoint n k = s.contPoint n k := by simp only [State.contPoint, hword]
  have hnum (a z : Nat) : t.lsNum n a z = s.lsNum n a z := by rw [State.lsNum, hls]; rfl
  simp only [State.resumed, hwords, hpoint, hnum, hth]

theorem freeSlots : Claims.FreeSlots := by
  intro s n i hworks
  refine ⟨fun k rest hrun hcan hpair hbad => ?resume, fun r rest hrun hdeque hi hlen htakes =>
    dequePop_starts hworks hrun hdeque hi hlen htakes⟩
  case resume =>
    have hbad' : (s.setCore n { s.core n with runList := rest }).contBad n k = none := by
      rw [← hbad]
      simp only [State.contBad, State.windowBad, State.core_setCore_self]
    have hthread (m j : Nat) : (s.setCore n { s.core n with runList := rest }).thread m j = s.thread m j :=
      s.thread_setCore_of_threads n (by rfl) m j
    have hls : ((s.setCore n { s.core n with runList := rest }).core n).ls = (s.core n).ls := by rw [State.core_setCore_self]
    obtain ⟨v, p, e, b, q, hself⟩ := State.thread_resumeIn_self (n := n) (i := i) hpair hbad'
    obtain ⟨hlist, hepoch, hchan, hdram⟩ := State.resumeIn_frame (n := n) (i := i) hpair hbad'
    rw [State.resumed_congr hls (hthread n i), State.refilled_congr hls] at hself
    rw [State.core_setCore_self] at hlist hepoch
    have hlow : ∀ j < 7, savedGlobals[j]? = some (1 + j) := by decide
    have hhigh : ∀ j < 7, savedGlobals[7 + j]? = some (24 + j) := by decide
    refine ⟨_, exec_runListResume_ok hworks hrun hcan, hlist, ?run, ?pc, ?srs, fun j hj => ⟨?low, ?high⟩, fun r h12 h23 => ?win,
      ?wid, ?wsr, ?depth, ?gen, hepoch, fun m j h => (State.thread_resumeIn_of_ne hpair hbad' h).trans (hthread m j), hchan, hdram⟩
    case low => exact State.sreg_resumed_global s n i k (by rw [hself]) (hlow j hj)
    case high => rw [State.sreg_resumed_global s n i k (by rw [hself]) (hhigh j hj), Nat.mul_add, ← Nat.add_assoc]
    case win =>
      rw [State.sreg_refilled_window s n i (t := s.resumed n i k) (by rw [hself]) (by rw [hself]; exact s.resumed_depth n i k) (by omega) h23,
        State.resumed_region]
    all_goals rw [hself]
    case run => rfl
    case pc =>
      change (s.contPoint n k).1 = _
      unfold State.contPoint
      cases k.frame <;> rfl
    case srs =>
      change loadSrs (s.contPoint n k).2 = _
      unfold State.contPoint
      cases k.frame <;> rfl
    case wid => exact s.resumed_wid n i k
    case wsr => rfl
    case depth => exact s.resumed_depth n i k
    case gen => rfl

/-- Settles O45: the two parts above. -/
theorem itemsAndFreeSlots : Obligations.ItemsAndFreeSlots := by
  unfold Obligations.ItemsAndFreeSlots
  exact ⟨dispensing, freeSlots⟩

end Sys2Proof.Machine
end

section
/-!
Records and bytes that the device itself writes to DRAM (R331, R333, R369).
-/

namespace Sys2Proof.Machine

open Sys2Proof

/-! ## Clusters beside cores -/

section
variable (s : State) (n k : Nat)

@[simp] theorem State.cluster_setCore (c : Core) : (s.setCore n c).cluster k = s.cluster k := rfl

@[simp] theorem State.cluster_touch : (s.touch n).cluster k = s.cluster k := by
  unfold State.touch
  split <;> rfl

/-- The watchdog counter apart, a touched core is as before. -/
theorem State.core_touch (m : Nat) : ∃ w, (s.touch n).core m = { s.core m with wdog := w } := by
  unfold State.touch
  split
  · exact ⟨(s.core m).wdog, rfl⟩
  · by_cases h : m = n
    · subst h; exact ⟨0, State.core_setCore_self ..⟩
    · exact ⟨(s.core m).wdog, State.core_setCore_ne _ h _⟩

/-- A touch changes nothing but cores. -/
theorem State.touch_frame : ∃ cs, s.touch n = { s with cores := cs } := by
  unfold State.touch
  split
  · exact ⟨_, rfl⟩
  · exact ⟨_, rfl⟩

end

/-! ## One write of the device itself -/

/-- The sizes of a piece (R97). -/
def pieceSizes : List Nat := [1, 2, 4, 8, 16, 32, 64]

/-- An aligned range of such a size is one piece (R97). -/
theorem pieces_aligned {a n : Nat} (hn : n ∈ pieceSizes) (ha : a % n = 0) : pieces n a n = [(a, n)] := by
  simp only [pieceSizes, List.mem_cons, List.not_mem_nil, or_false] at hn
  rcases hn with rfl | rfl | rfl | rfl | rfl | rfl | rfl <;> simp [pieces, ha]

theorem memWriteMasked_map_some (a : Nat) (bs : List Byte) (m : Memory) : memWriteMasked a (bs.map some) m = memWrite a bs m := by
  induction bs generalizing a m with
  | nil => rfl
  | cons b bs ih => exact ih ..

/-- Bytes beside those written are read as before. -/
theorem memRead_memWrite_apart {a b n : Nat} {bs : List Byte} {m : Memory} (h : a + n ≤ b ∨ b + bs.length ≤ a) :
    memRead a n (memWrite b bs m) = memRead a n m :=
  memRead_congr fun j hj => by rw [memGet_memWrite, if_neg (by omega)]

section
variable (s : State) (a : Nat)

/-- The trace ring of a home may put a record in its cluster's queue; TAIL stays. -/
theorem State.logHome_errTail (h size kind : Nat) (w : Source) (k : Nat) :
    ((s.logHome h a size kind w).cluster k).errTail = (s.cluster k).errTail := by
  unfold State.logHome
  dsimp only
  split
  · rfl
  · split
    · rfl
    · by_cases hk : k = homeCluster h
      · subst hk; rw [State.record, State.cluster_setCluster_self]; rfl
      · rw [State.record, State.cluster_setCluster_ne _ _ _ hk]; rfl

theorem State.dramWrite_dram (bs : List (Option Byte)) (ps : List Nat) (kind : Nat) (w : Source) :
    (s.dramWrite a bs ps kind w).dram = memWriteMasked (s.dramKey a) bs s.dram := by
  unfold State.dramWrite
  dsimp only
  generalize addBad (clearMasked s.dramBad (s.dramKey a) bs) (ps.map (fun g => s.dramKey a / 8 + g)) = bad
  obtain ⟨hs, cl, h⟩ := State.logHome_frame { s with dram := memWriteMasked (s.dramKey a) bs s.dram, dramBad := bad } a
    (homeOf (a % 2 ^ 40)) bs.length kind w
  rw [h]

theorem State.dramWrite_errTail (bs : List (Option Byte)) (ps : List Nat) (kind : Nat) (w : Source) (k : Nat) :
    ((s.dramWrite a bs ps kind w).cluster k).errTail = (s.cluster k).errTail := by
  unfold State.dramWrite
  exact State.logHome_errTail ..

variable (master : Nat) {bs : List Byte} (hn : bs.length ∈ pieceSizes) (ha : a % bs.length = 0)
include hn ha

/-- An aligned write of one piece takes place at once, or its table refuses it. -/
theorem State.devWrite_aligned : s.devWrite master a bs =
    if s.devMay master a bs.length 1 = true then s.dramWrite a (bs.map some) [] 0 s.outsider else s := by
  simp only [State.devWrite, State.devMay, pieces_aligned hn ha, List.foldl_cons, List.foldl_nil, List.all_cons, List.all_nil,
    Bool.and_true, Nat.sub_self, List.drop_zero, List.take_length]

theorem State.devWrite_dram : (s.devWrite master a bs).dram =
    if s.devMay master a bs.length 1 = true then memWrite (s.dramKey a) bs s.dram else s.dram := by
  rw [State.devWrite_aligned s a master hn ha]
  split
  · rw [State.dramWrite_dram, memWriteMasked_map_some]
  · rfl

theorem State.devWrite_errTail (k : Nat) : ((s.devWrite master a bs).cluster k).errTail = (s.cluster k).errTail := by
  rw [State.devWrite_aligned s a master hn ha]
  split
  · exact State.dramWrite_errTail ..
  · rfl

end

/-! ## The error queue of a cluster (R369) -/

/-- What lies in one page of 0x2000 bytes has keys that lie as its addresses do. -/
theorem State.dramKey_add (s : State) {base off : Nat} (hb : base % 0x2000 = 0) (ho : off < 0x2000) :
    s.dramKey (base + off) = s.dramKey base + off := by
  have hdiv : (base + off) / 2 ^ 40 = base / 2 ^ 40 := by omega
  simp only [State.dramKey, hdiv]
  split <;> omega

theorem State.errQueue_mod (s : State) (k : Nat) : s.errQueue k % 0x2000 = 0 := by
  unfold State.errQueue
  omega

@[simp] theorem ErrRec.length_bytes (r : ErrRec) : r.bytes.length = 64 := by
  simp [ErrRec.bytes]

/-- The cluster once its oldest record is written. -/
def Cluster.wroteRecord (c : Cluster) (tail : Nat) : Cluster := { c with errQ := c.errQ.drop 1, errTail := tail + 1 }

section
variable (s : State) (k : Nat)

/-- The place of the next record in the queue of a cluster. -/
def State.errSlot : Nat := s.errQueue k + 64 * ((s.cluster k).errTail % 64)

theorem State.errSlot_mod : s.errSlot k % 64 = 0 := by
  have h := s.errQueue_mod k
  unfold State.errSlot
  omega

theorem State.dramKey_errSlot : s.dramKey (s.errSlot k) = s.dramKey (s.errQueue k) + 64 * ((s.cluster k).errTail % 64) :=
  s.dramKey_add (s.errQueue_mod k) (by omega)

theorem State.memoryOnly_setCluster (c : Cluster) : s.memoryOnly (s.setCluster k c) := ⟨_, _, _, _, _, _, rfl⟩

variable {r : ErrRec} {rest : List ErrRec} (hq : (s.cluster k).errQ = r :: rest)
  (hroom : (s.cluster k).errTail < (s.cluster k).errHead + 64) (hmay : s.devMay 1 (s.errSlot k) 64 1 = true)
include hq hroom hmay

/-- The oldest record is written and then TAIL, with room in the queue. -/
theorem State.writeRecord_of_room : s.writeRecord k =
    ((s.devWrite 1 (s.errSlot k) r.bytes).setCluster k
      (((s.devWrite 1 (s.errSlot k) r.bytes).cluster k).wroteRecord (s.cluster k).errTail)).devWrite 1 (s.errQueue k + 0x1000)
        (leBytes 8 ((s.cluster k).errTail + 1)) := by
  have hfull : (s.cluster k).errFull = false := by simp [Cluster.errFull, hroom]
  obtain ⟨hs, cl, dr, db, hframe⟩ := s.devWrite_frame (s.errSlot k) 1 r.bytes
  rw [State.errSlot] at hmay hframe ⊢
  simp only [State.writeRecord, hq, hfull, hmay]
  rw [hframe]
  rfl

theorem State.memoryOnly_writeRecord : s.memoryOnly (s.writeRecord k) := by
  rw [s.writeRecord_of_room k hq hroom hmay]
  exact State.memoryOnly_trans (State.memoryOnly_trans (s.memoryOnly_devWrite ..) (State.memoryOnly_setCluster _ k _))
    (State.memoryOnly_devWrite ..)

theorem State.core_writeRecord (m : Nat) : (s.writeRecord k).core m = s.core m := by
  rw [s.writeRecord_of_room k hq hroom hmay, State.core_devWrite, State.core_setCluster, State.core_devWrite]

theorem State.writeRecord_errTail : ((s.writeRecord k).cluster k).errTail = (s.cluster k).errTail + 1 := by
  have hmod := s.errQueue_mod k
  rw [s.writeRecord_of_room k hq hroom hmay, State.devWrite_errTail _ _ _ (by simp [pieceSizes]) (by simp; omega), State.cluster_setCluster_self]
  rfl

/-- What DRAM holds then: the record, and TAIL where its table lets it be written. -/
theorem State.writeRecord_dram : (s.writeRecord k).dram =
    if s.devMay 1 (s.errQueue k + 0x1000) 8 1 = true then
      memWrite (s.dramKey (s.errQueue k) + 0x1000) (leBytes 8 ((s.cluster k).errTail + 1)) (memWrite (s.dramKey (s.errSlot k)) r.bytes s.dram)
    else memWrite (s.dramKey (s.errSlot k)) r.bytes s.dram := by
  have hmod := s.errQueue_mod k
  have hslot := s.errSlot_mod k
  have hdram : (s.devWrite 1 (s.errSlot k) r.bytes).dram = memWrite (s.dramKey (s.errSlot k)) r.bytes s.dram := by
    rw [State.devWrite_dram _ _ _ (by simp [pieceSizes]) (by simp [hslot]), ErrRec.length_bytes, if_pos hmay]
  obtain ⟨hs, cl, dr, db, hframe⟩ := s.devWrite_frame (s.errSlot k) 1 r.bytes
  rw [s.writeRecord_of_room k hq hroom hmay, State.devWrite_dram _ _ _ (by simp [pieceSizes]) (by simp; omega), length_leBytes,
    ← s.dramKey_add hmod (show 0x1000 < 0x2000 by decide)]
  rw [hframe] at hdram ⊢
  simp only at hdram
  subst hdram
  rfl

theorem State.writeRecord_read : memRead (s.dramKey (s.errSlot k)) 64 (s.writeRecord k).dram = r.bytes := by
  have hself : memRead (s.dramKey (s.errSlot k)) 64 (memWrite (s.dramKey (s.errSlot k)) r.bytes s.dram) = r.bytes := by
    have h := memRead_memWrite_self (s.dramKey (s.errSlot k)) r.bytes s.dram
    rwa [ErrRec.length_bytes] at h
  have hslot := s.dramKey_errSlot k
  rw [s.writeRecord_dram k hq hroom hmay]
  split
  · rw [memRead_memWrite_apart (by omega), hself]
  · exact hself

end

theorem State.cluster_record_self (s : State) (k : Nat) (r : ErrRec) :
    (s.record k r).cluster k = { s.cluster k with errQ := (s.cluster k).errQ ++ [r] } := State.cluster_setCluster_self ..

/-- A record that finds no other and room in the queue is written at once. -/
theorem State.writeRecord_record (s : State) {k : Nat} (r : ErrRec) (hq : (s.cluster k).errQ = [])
    (hroom : (s.cluster k).errTail < (s.cluster k).errHead + 64) (hmay : s.devMay 1 (s.errSlot k) 64 1 = true) :
    s.memoryOnly ((s.record k r).writeRecord k) ∧ (∀ m, ((s.record k r).writeRecord k).core m = s.core m) ∧
      (((s.record k r).writeRecord k).cluster k).errTail = (s.cluster k).errTail + 1 ∧
      memRead (s.dramKey (s.errSlot k)) 64 ((s.record k r).writeRecord k).dram = r.bytes := by
  have hc := s.cluster_record_self k r
  have hq' : ((s.record k r).cluster k).errQ = [r] := by rw [hc, hq]; rfl
  have hroom' : ((s.record k r).cluster k).errTail < ((s.record k r).cluster k).errHead + 64 := by rw [hc]; exact hroom
  have hslot : (s.record k r).errSlot k = s.errSlot k := by rw [State.errSlot, hc]; rfl
  have hmay' : (s.record k r).devMay 1 ((s.record k r).errSlot k) 64 1 = true := by rw [hslot]; exact hmay
  refine ⟨State.memoryOnly_trans (s.memoryOnly_setCluster k _) (State.memoryOnly_writeRecord _ k hq' hroom' hmay'),
    State.core_writeRecord _ k hq' hroom' hmay', ?_, ?_⟩
  · rw [State.writeRecord_errTail _ k hq' hroom' hmay', hc]
  · rw [← hslot]; exact State.writeRecord_read _ k hq' hroom' hmay'

end Sys2Proof.Machine
end

section
/-!
Messages, bounces, evicted contexts and barrier arrivals (R58, R59, R61, R62, R301, R372).
-/

namespace Sys2Proof.Machine

open Sys2Proof

/-! ## Mailboxes -/

theorem Thread.hasRoom_iff (t : Thread) (hi : Bool) : t.hasRoom hi = true ↔ Claims.mailRoom t hi := by
  cases hi <;> simp [Thread.hasRoom, Claims.mailRoom]

theorem Thread.pushEntry_eq (t : Thread) (hi : Bool) (e : Entry) : t.pushEntry hi e = Claims.withMail t hi e := by
  cases hi <;> rfl

/-- S falls for the thread that has its generation still. -/
theorem State.sDown_of_gen (s : State) {n i g : Nat} (h : (s.thread n i).gen.toNat = g) :
    s.sDown n i g = s.setThread n i { s.thread n i with cntS := (s.thread n i).cntS - 1 } := by
  simp [State.sDown, h]

theorem State.thread_sDown_cntS (s : State) (n i g : Nat) : ((s.sDown n i g).thread n i).cntS =
    if (s.thread n i).gen.toNat = g then (s.thread n i).cntS - 1 else (s.thread n i).cntS := by
  by_cases h : (s.thread n i).gen.toNat = g
  · rw [s.sDown_of_gen h, State.thread_setThread_self, if_pos h]
  · simp [State.sDown, h]

/-- Nothing but cores changes as S falls. -/
theorem State.sDown_frame (s : State) (n i g : Nat) : ∃ cs, s.sDown n i g = { s with cores := cs } := by
  unfold State.sDown
  dsimp only
  split
  · exact ⟨_, rfl⟩
  · exact ⟨_, rfl⟩

/-! ## Messages -/

section
variable {s : State} {k : Nat} {src dst : Nat × Nat × Nat} {hi : Bool}

theorem State.messageBehind_false (h : Claims.inOrder s k src dst hi) : s.messageBehind k src dst hi = false := by
  rw [State.messageBehind, List.any_eq_false]
  intro p hp
  cases p with
  | message a b g x l b' =>
    simp only [decide_eq_true_eq]
    rintro ⟨rfl, rfl, rfl⟩
    exact h _ hp x l b' rfl
  | _ => exact Bool.false_ne_true

section
variable {n : Nat} (hsite : s.siteOf dst.1 = some n) (hmay : Claims.mailAllowed s src n dst.2.1)
  (hsaved : ¬ ((s.core n).pre = true ∧ (s.core n).saved = true))
include hsite hmay hsaved

theorem State.bounceReason_none (hold : Claims.holds s n dst.2.1 dst.2.2) (hroom : Claims.mailRoom (s.thread n dst.2.1) hi) :
    s.bounceReason src dst hi = none := by
  obtain ⟨hbusy, hgen, hrun⟩ := hold
  rw [← Thread.hasRoom_iff] at hroom
  rw [Claims.mailAllowed] at hmay
  rw [← Bool.and_eq_true] at hsaved
  simp only [State.bounceReason, hsite, hmay, hsaved, hbusy, hgen, hroom]
  cases hr : (s.thread n dst.2.1).run with
  | failing m => exact (hrun m hr).elim
  | _ => simp

theorem State.bounceReason_gone (hold : ¬ Claims.holds s n dst.2.1 dst.2.2) : s.bounceReason src dst hi = some 1 := by
  rw [Claims.mailAllowed] at hmay
  rw [← Bool.and_eq_true] at hsaved
  simp only [State.bounceReason, hsite, hmay, hsaved]
  simp only [Claims.holds, not_and_or, not_forall, not_not, Bool.not_eq_true] at hold
  rcases hold with hbusy | hgen | ⟨m, hr⟩
  · rw [hbusy]
    cases hr : (s.thread n dst.2.1).run with
    | failing m => simp
    | _ => simp
  · simp [hgen]
  · simp [hr]

theorem State.bounceReason_full (hold : Claims.holds s n dst.2.1 dst.2.2) (hroom : ¬ Claims.mailRoom (s.thread n dst.2.1) hi) :
    s.bounceReason src dst hi = some 2 := by
  obtain ⟨hbusy, hgen, hrun⟩ := hold
  rw [← Thread.hasRoom_iff] at hroom
  rw [Claims.mailAllowed] at hmay
  rw [← Bool.and_eq_true] at hsaved
  simp only [State.bounceReason, hsite, hmay, hsaved, hbusy, hgen, hroom]
  cases hr : (s.thread n dst.2.1).run with
  | failing m => exact (hrun m hr).elim
  | _ => simp

end

theorem State.bounceReason_of_bounces {r : Nat} (h : Claims.bounces s src dst hi r) : s.bounceReason src dst hi = some r := by
  rcases h with ⟨hsite, rfl⟩ | ⟨n, hsite, ⟨hmay, rfl⟩ | ⟨hmay, ⟨hpre, hsaved, rfl⟩ | ⟨hsaved, ⟨hold, rfl⟩ | ⟨hold, hroom, rfl⟩⟩⟩⟩
  · simp [State.bounceReason, hsite]
  · rw [Claims.mailAllowed, Bool.not_eq_true] at hmay
    simp [State.bounceReason, hsite, hmay]
  · rw [Claims.mailAllowed] at hmay
    simp [State.bounceReason, hsite, hmay, hpre, hsaved]
  · exact State.bounceReason_gone hsite hmay hsaved hold
  · exact State.bounceReason_full hsite hmay hsaved hold hroom

/-- A message that nothing keeps back, while the package has power. -/
theorem exec_messageDelivery {x : List Word} {l : Nat} {b : Bool} (halive : s.alive = true)
    (hk : s.chan[k]? = some (.message src dst hi x l b)) : exec (.messageDelivery k) s = .next (s.messageArrives k src dst hi x l b) := by
  change execMessageDelivery k s = _
  rw [execMessageDelivery, hk, halive]
  rfl

/-- A message without a bounce reason enters its mailbox. -/
theorem State.messageArrives_delivered {n : Nat} (x : List Word) (l : Nat) (b : Bool) (horder : Claims.inOrder s k src dst hi)
    (hsite : s.siteOf dst.1 = some n) (hreason : s.bounceReason src dst hi = none) : ∃ u : State,
    s.messageArrives k src dst hi x l b = (u.setThread n dst.2.1 (Claims.withMail (s.thread n dst.2.1) hi (Claims.signed s src
      { core := (s.core src.1).lcore, slot := src.2.1, gen := src.2.2, kind := 1, reason := 0, payload := x, lnch := l, bad := b }))).sDown
        src.1 src.2.1 src.2.2 ∧ u.chan = s.chan.eraseIdx k ∧ ∀ m i, u.thread m i = s.thread m i := by
  obtain ⟨cs, hframe⟩ := State.touch_frame { s.bump with chan := s.chan.eraseIdx k } n
  refine ⟨State.touch { s.bump with chan := s.chan.eraseIdx k } n, ?_, by rw [hframe], fun m i => State.thread_touch _ n m i⟩
  simp only [State.messageArrives, State.messageBehind_false horder, hreason, hsite, Thread.pushEntry_eq, State.thread_touch]
  rfl

/-- A message with a bounce reason goes back with it. -/
theorem State.messageArrives_bounced {r : Nat} (x : List Word) (l : Nat) (b : Bool) (horder : Claims.inOrder s k src dst hi)
    (hreason : s.bounceReason src dst hi = some r) :
    (s.messageArrives k src dst hi x l b).chan = s.chan.eraseIdx k ++ [.bounce src hi (Claims.signed s src
      { core := dst.1, slot := dst.2.1, gen := dst.2.2, kind := 2, reason := r, payload := x, lnch := l, bad := b })
      (s.thread src.1 src.2.1).wid true] ∧
    ∀ m i, (s.messageArrives k src dst hi x l b).thread m i = s.thread m i := by
  simp only [State.messageArrives, State.messageBehind_false horder, hreason]
  cases s.siteOf dst.1 with
  | none => exact ⟨rfl, fun _ _ => rfl⟩
  | some n =>
    obtain ⟨cs, hframe⟩ := State.touch_frame { s.bump with chan := s.chan.eraseIdx k } n
    refine ⟨?_, fun m i => State.thread_touch { s.bump with chan := s.chan.eraseIdx k } n m i⟩
    dsimp only
    rw [hframe]
    rfl

end

/-! ## Bounces -/

section
variable {s : State} {k n i gen : Nat} {hi : Bool} {e : Entry} {w : Word}

theorem exec_bounceReturn (halive : s.alive = true) (hk : s.chan[k]? = some (.bounce (n, i, gen) hi e w true)) :
    exec (.bounceReturn k) s = .next (s.bounceArrives k (n, i, gen) hi e w true) := by
  change execBounceReturn k s = _
  rw [execBounceReturn, hk, halive]
  rfl

theorem Thread.gen_of_takes {t : Thread} (h : t.refusesBounce gen = false) : t.gen.toNat = gen := by
  simp only [Thread.refusesBounce, Bool.or_eq_false_iff, decide_eq_false_iff_not, not_not] at h
  exact h.1.1.1

/-- A bounce that finds room enters its mailbox. -/
theorem State.bounceArrives_delivered (htakes : (s.thread n i).refusesBounce gen = false) (hpre : (s.core n).pre = false)
    (hroom : Claims.mailRoom (s.thread n i) hi) :
    (s.bounceArrives k (n, i, gen) hi e w true).chan = s.chan.eraseIdx k ∧
    (s.bounceArrives k (n, i, gen) hi e w true).thread n i =
      { Claims.withMail (s.thread n i) hi e with cntS := (s.thread n i).cntS - 1 } ∧
    ∀ m j, (m, j) ≠ (n, i) → (s.bounceArrives k (n, i, gen) hi e w true).thread m j = s.thread m j := by
  obtain ⟨cs, hframe⟩ := State.touch_frame { s with chan := s.chan.eraseIdx k } n
  have hthread := State.thread_touch { s with chan := s.chan.eraseIdx k } n
  have hgen : (Claims.withMail (s.thread n i) hi e).gen.toNat = gen := Thread.gen_of_takes htakes
  rw [← Thread.hasRoom_iff] at hroom
  simp only [State.bounceArrives, htakes, hpre, hroom, Thread.pushEntry_eq, hthread, if_true]
  simp only [Bool.false_eq_true, if_false, Bool.not_true, Bool.or_self]
  generalize State.touch { s with chan := s.chan.eraseIdx k } n = u at *
  rw [State.sDown_of_gen _ (by rw [State.thread_setThread_self]; exact hgen), State.thread_setThread_self]
  refine ⟨by rw [hframe]; rfl, State.thread_setThread_self .., fun m j hmj => ?_⟩
  rw [State.thread_setThread_of_ne _ _ _ _ hmj, State.thread_setThread_of_ne _ _ _ _ hmj, hthread]
  rfl

/-- A bounce waits while its mailbox is full. -/
theorem State.bounceArrives_waits (htakes : (s.thread n i).refusesBounce gen = false) (hroom : ¬ Claims.mailRoom (s.thread n i) hi) :
    s.bounceArrives k (n, i, gen) hi e w true = s := by
  rw [← Thread.hasRoom_iff, Bool.not_eq_true] at hroom
  simp [State.bounceArrives, htakes, hroom]

/-- A bounce that no thread takes becomes a record. -/
theorem State.bounceArrives_recorded (hrefuses : (s.thread n i).refusesBounce gen = true) (hq : (s.cluster (clusterOf n)).errQ = [])
    (hroom : (s.cluster (clusterOf n)).errTail < (s.cluster (clusterOf n)).errHead + 64) : ∃ cs,
    s.bounceArrives k (n, i, gen) hi e w true =
      ((({ s with chan := s.chan.eraseIdx k, cores := cs } : State).record (clusterOf n) (Claims.undelivered s n i gen e w)).writeRecord
        (clusterOf n)).sDown n i gen ∧ ∀ m j, ({ s with cores := cs } : State).thread m j = s.thread m j := by
  have hflow : s.recordsFlow (clusterOf n) = true := by simp [State.recordsFlow, Cluster.errFull, hq, hroom]
  obtain ⟨cs, hframe⟩ := State.touch_frame { s with chan := s.chan.eraseIdx k } n
  obtain ⟨wd, hcore⟩ := State.core_touch { s with chan := s.chan.eraseIdx k } n n
  have hthread := State.thread_touch { s with chan := s.chan.eraseIdx k } n
  refine ⟨cs, ?_, fun m j => ?_⟩
  · simp only [State.bounceArrives, hrefuses, hflow, if_true, State.bounceRecord, hcore]
    rw [hframe]
    rfl
  · rw [hframe] at hthread
    exact hthread m j

end

theorem messagesArrive : Claims.MessagesArrive := by
  intro s halive
  refine ⟨fun k src dst hi x l b hk horder => ⟨fun n hsite hmay hsaved hold hroom hne hgen => ?delivered, fun r hr => ?bounced⟩,
    fun k n i gen hi e w hk => ⟨fun htakes hpre hroom => ?returned, fun htakes hroom => ?waits, fun hrefuses hq hroom hmay => ?recorded⟩⟩
  case delivered =>
    obtain ⟨u, heq, hchan, hthread⟩ := State.messageArrives_delivered x l b horder hsite (State.bounceReason_none hsite hmay hsaved hold hroom)
    refine ⟨_, exec_messageDelivery halive hk, ?_⟩
    have hsrc : (src.1, src.2.1) ≠ (n, dst.2.1) := fun h => hne h.symm
    rw [heq, State.sDown_of_gen _ (by rw [State.thread_setThread_of_ne _ _ _ _ hsrc, hthread, hgen])]
    refine ⟨hchan, ?_, ?_, fun m i hm hm' => ?_⟩
    · rw [State.thread_setThread_of_ne _ _ _ _ hne, State.thread_setThread_self]
    · rw [State.thread_setThread_self, State.thread_setThread_of_ne _ _ _ _ hsrc, hthread]
    · rw [State.thread_setThread_of_ne _ _ _ _ hm', State.thread_setThread_of_ne _ _ _ _ hm, hthread]
  case bounced => exact ⟨_, exec_messageDelivery halive hk, State.messageArrives_bounced x l b horder (State.bounceReason_of_bounces hr)⟩
  case returned => exact ⟨_, exec_bounceReturn halive hk, State.bounceArrives_delivered htakes hpre hroom⟩
  case waits => rw [exec_bounceReturn halive hk, State.bounceArrives_waits htakes hroom]
  case recorded =>
    obtain ⟨cs, heq, hthread⟩ := State.bounceArrives_recorded (k := k) (hi := hi) (e := e) (w := w) hrefuses hq hroom
    generalize hu : ({ s with chan := s.chan.eraseIdx k, cores := cs } : State) = u at heq
    have hslot : u.errSlot (clusterOf n) = s.errSlot (clusterOf n) := by rw [← hu]; rfl
    obtain ⟨hframe, hcore, htail, hread⟩ := u.writeRecord_record (k := clusterOf n) (Claims.undelivered s n i gen e w)
      (by rw [← hu]; exact hq) (by rw [← hu]; exact hroom) (by rw [hslot, ← hu]; exact hmay)
    have hwt : ((u.record (clusterOf n) (Claims.undelivered s n i gen e w)).writeRecord (clusterOf n)).thread n i = s.thread n i := by
      rw [State.thread, hcore, ← hu]; exact hthread n i
    generalize (u.record (clusterOf n) (Claims.undelivered s n i gen e w)).writeRecord (clusterOf n) = v at *
    obtain ⟨_, _, _, _, _, _, hframe⟩ := hframe
    obtain ⟨cs', hdown⟩ := v.sDown_frame n i gen
    refine ⟨_, exec_bounceReturn halive hk, ?_, ?_, ?_, ?_⟩
    · rw [heq, hdown, hframe, ← hu]
    · rw [heq, hdown]
      change (v.cluster (clusterOf n)).errTail = _
      rw [htail, ← hu]
      rfl
    · rw [hslot, ← hu] at hread
      rw [heq, hdown]
      exact hread
    · rw [heq, State.thread_sDown_cntS, hwt]

/-! ## Evicted contexts -/

/-- The lowest free slot is the one that an unpaired context takes. -/
theorem State.idleSlot_lowest {s : State} {n i : Nat} (hi : i < 16) (hfree : (s.thread n i).run = .free)
    (hlow : ∀ j < i, (s.thread n j).run ≠ .free) : s.idleSlot n false = some i := by
  unfold State.idleSlot
  rw [List.find?_range_eq_some]
  simpa [Thread.isFree, hi, hfree] using hlow

/-- The thread of an evicted context in a slot that held u. -/
def Evicted.reloaded (e : Evicted) (u : Thread) : Thread :=
  { e.thread with run := .stalled, gen := u.gen + 1, mbHi := u.mbHi, mbLo := u.mbLo, cntS := 0, cntC := 0, cntT := 0 }

theorem State.reload_unpaired {s : State} {k i : Nat} {e : Evicted} {rest : List Evicted} (hq : (s.cluster k).runq = e :: rest)
    (hroom : (s.cluster k).mons.length < 64) (htakes : s.takesWork e.site = true) (hpair : e.thread.pair = 0)
    (hslot : s.idleSlot e.site false = some i) : s.reload k =
      ((s.setCluster k { s.cluster k with runq := rest }).setThread e.site i (e.reloaded (s.thread e.site i))).touch e.site := by
  have hno : ¬ (64 ≤ (s.cluster k).mons.length ∨ s.takesWork e.site = false) := by simp [htakes, hroom]
  simp only [State.reload, Evicted.reloaded, hq, hno, hpair, hslot, if_false, Nat.zero_ne_one, decide_false]

theorem exec_evictedContextReload {s : State} (halive : s.alive = true) (k : Nat) : exec (.evictedContextReload k) s = .next (s.reload k) := by
  change execEvictedContextReload k s = _
  rw [execEvictedContextReload, halive]
  rfl

theorem evictedContexts : Claims.EvictedContexts := by
  intro s k i e rest halive hq hroom htakes hpair hi hfree hlow
  have heq := State.reload_unpaired hq hroom htakes hpair (State.idleSlot_lowest hi hfree hlow)
  have hself : (s.reload k).thread e.site i = e.reloaded (s.thread e.site i) := by
    rw [heq, State.thread_touch, State.thread_setThread_self]
  refine ⟨_, exec_evictedContextReload halive k, ?queue, by rw [hself]; rfl, by rw [hself]; rfl, by rw [hself]; rfl, by rw [hself]; rfl,
    by rw [hself]; rfl, by rw [hself]; rfl, by rw [hself]; rfl, by rw [hself]; rfl, by rw [hself]; rfl, fun m j hmj => ?others, ?dram⟩
  case queue => rw [heq, State.cluster_touch, State.cluster_setThread, State.cluster_setCluster_self]
  case others => rw [heq, State.thread_touch, State.thread_setThread_of_ne _ _ _ _ hmj, State.thread_setCluster]
  case dram =>
    obtain ⟨cs, hframe⟩ := ((s.setCluster k { s.cluster k with runq := rest }).setThread e.site i (e.reloaded (s.thread e.site i))).touch_frame e.site
    rw [heq, hframe]
    rfl

/-! ## Barrier arrivals -/

/-- One byte that arrives for a register reads as its number. -/
theorem LoadExt.result_unsigned8 (b : Byte) (old : Vec) (ps : List (Nat × Nat)) :
    (LoadExt.result (.unsigned 8) old (memWrite 0 [b] []) ps).extractLsb' 0 64 = BitVec.ofNat 64 b.toNat := by
  have hnum : memNum 0 (8 / 8) (memWrite 0 [b] []) = b.toNat := by
    have h := memNum_memWrite_self 0 [b] []
    rw [leNat, leNat, Nat.mul_zero, Nat.add_zero] at h
    exact h
  have hlt : b.toNat < 2 ^ 64 := by have := b.isLt; omega
  simp only [LoadExt.result, LoadExt.value, hnum, extZ_eq_setWidth, extractLsb'_zeroExtend_word]
  exact BitVec.eq_of_toNat_eq (by simp)

/-- A load of one register that counts in L and leaves the epoch, the pair and the queues alone. -/
def Load.plainTo (l : Load) (d : Nat) : Prop :=
  l.dst = .s d ∧ l.got = [] ∧ l.waiting = 1 ∧ l.elems = [] ∧ l.acq = false ∧ l.dead = false ∧ l.counted = true ∧ l.toQueue = false

/-- The only load of a thread completes with the bytes that arrive. -/
theorem State.deliver_single {s : State} {n i d : Nat} {l : Load} (hl : (s.thread n i).loads = [l]) (hplain : l.plainTo d)
    (hq : (s.thread n i).accQ = []) (hpair : (s.thread n i).pair = 0) (bs : List Byte) : ∃ pend v,
    s.deliver n i l.id 0 bs = s.setThread n i (({ s.thread n i with loads := [], pend := pend, cntL := (s.thread n i).cntL - 1 } : Thread).setSreg d
      ((l.ext.result v (memWrite 0 bs []) []).extractLsb' 0 64)) := by
  obtain ⟨hdst, hgot, hwait, helems, hacq, hdead, hcount, hqueue⟩ := hplain
  refine ⟨(s.thread n i).pend.filter (fun x => decide (x.2 ≠ l.id)), 0, ?_⟩
  have hp (x : Thread) (y : Word) : (x.setSreg d y).pair = x.pair := by simp
  simp [State.deliver, hl, hwait, State.completeLoad, hdead, hqueue, hacq, hcount, hgot, helems, hdst, hq, Thread.drain, drainAcc, Thread.setReg, hpair]

theorem exec_barrierArrival {s : State} (halive : s.alive = true) {k c u n i id : Nat} (hk : s.chan[k]? = some (.arrive c u n i id)) :
    exec (.barrierArrival k) s = .next (s.barrierArrives k c u n i id) := by
  change execBarrierArrival k s = _
  rw [execBarrierArrival, hk, halive]
  rfl

/-- A unit after one more arrival (R62). -/
def Bar.counted (b : Bar) : Bar :=
  if b.arrived + 1 = b.expected then { b with arrived := 0, gen := (b.gen + 1) % 256 } else { b with arrived := b.arrived + 1 }

/-- The state once the arrival at place k of the channel has counted. -/
def State.countArrival (s : State) (k c u : Nat) : State :=
  ({ s with chan := s.chan.eraseIdx k } : State).setCluster c ((s.cluster c).setBar u (tblGet {} u (s.cluster c).bars).counted)

/-- An arrival counts at its unit, and the register of its word receives the generation. -/
theorem State.barrierArrives_single {s : State} {k c u n i d : Nat} {l : Load} (hl : (s.thread n i).loads = [l]) (hplain : l.plainTo d)
    (hext : l.ext = .unsigned 8) (hq : (s.thread n i).accQ = []) (hpair : (s.thread n i).pair = 0) : ∃ pend cs,
    (∀ m j, ({ s with cores := cs } : State).thread m j = s.thread m j) ∧ s.barrierArrives k c u n i l.id =
      (({ s with cores := cs, chan := s.chan.eraseIdx k } : State).setCluster c
        ((s.cluster c).setBar u (tblGet {} u (s.cluster c).bars).counted)).setThread n i
          (({ s.thread n i with loads := [], pend := pend, cntL := (s.thread n i).cntL - 1 } : Thread).setSreg d
            (BitVec.ofNat 64 ((tblGet {} u (s.cluster c).bars).gen % 256))) := by
  obtain ⟨cs, hframe⟩ := (s.countArrival k c u).touch_frame n
  have hthread (m j : Nat) : ((s.countArrival k c u).touch n).thread m j = s.thread m j := State.thread_touch _ n m j
  obtain ⟨pend, x, hd⟩ := State.deliver_single (s := (s.countArrival k c u).touch n) (n := n) (i := i) (by rw [hthread]; exact hl) hplain (by rw [hthread]; exact hq)
    (by rw [hthread]; exact hpair) [BitVec.ofNat 8 (tblGet {} u (s.cluster c).bars).gen]
  refine ⟨pend, cs, fun m j => by rw [hframe] at hthread; exact hthread m j, ?_⟩
  rw [hext, LoadExt.result_unsigned8, hthread, BitVec.toNat_ofNat] at hd
  change ((s.countArrival k c u).touch n).deliver n i l.id 0 [BitVec.ofNat 8 (tblGet {} u (s.cluster c).bars).gen] = _
  rw [hd, hframe]
  rfl

theorem barrierArrivals : Claims.BarrierArrivals := by
  intro s k c u n i id d l halive hk hl hid hdst hext hgot hwait helems hacq _ hdead hcount hqueue hq hpair h1 h8
  subst hid
  obtain ⟨pend, cs, hthread, heq⟩ := State.barrierArrives_single (k := k) (c := c) (u := u) hl ⟨hdst, hgot, hwait, helems, hacq, hdead, hcount, hqueue⟩ hext hq hpair
  have hset (t : Thread) (x : Word) : t.setSreg d x = { t with glob := tblSet d x t.glob, regBad := t.healed (.s d) } := by
    rw [Thread.setSreg, if_neg (by omega), if_neg (by omega)]
  have hbars : ((s.barrierArrives k c u n i l.id).cluster c).bars = tblSet u (tblGet {} u (s.cluster c).bars).counted (s.cluster c).bars := by
    rw [heq, State.cluster_setThread, State.cluster_setCluster_self]
    rfl
  rw [hset] at heq
  refine ⟨_, exec_barrierArrival halive hk, by rw [heq]; rfl, by rw [hbars, tblGet_tblSet_self]; rfl,
    fun v hv => by rw [hbars, tblGet_tblSet_ne _ hv], ?register, ?count, ?loads, ?pc, fun m j hmj => ?others, by rw [heq]; rfl⟩
  case register =>
    rw [heq, State.thread_setThread_self, Thread.sreg, if_neg (by omega), if_neg (by omega), if_neg (by omega), tblGet_tblSet_self]
  case count => rw [heq, State.thread_setThread_self]
  case loads => rw [heq, State.thread_setThread_self]
  case pc => rw [heq, State.thread_setThread_self]
  case others => rw [heq, State.thread_setThread_of_ne _ _ _ _ hmj]; exact hthread m j

/-- Settles O47: the three parts above. -/
theorem messagesAndBarriersArrive : Obligations.MessagesAndBarriersArrive := by
  unfold Obligations.MessagesAndBarriersArrive
  exact ⟨messagesArrive, evictedContexts, barrierArrivals⟩

end Sys2Proof.Machine
end

section
/-!
Decrements whose arrival a trace ring takes note of (R49, R373, R427).
-/

namespace Sys2Proof.Machine

open Sys2Proof

/-- A trace ring that is full, and has not overflowed yet (R129, R427). -/
def brimful : Ring :=
  { en := true, own := true, entries := List.replicate 256 { addr := 0, size := 0, kind := 0, ord := 0, src := 0, slot := 0, gen := 0, cyc := 0 } }

/-- A package in which a stale decrement reaches a core whose full trace ring takes every access. -/
def overflowing : State := Tests.joining { ring := brimful }

/-- The arrival of the decrement is the access that overflows the ring: its record goes before that of the decrement. -/
theorem errQ_overflowing : (((overflowing.decrementArrives 0 { addr := 0x10000, core := 0, gen := 0 } 0
    (some { base := 0x10000, core := 0 }) Tests.src0 false).cluster 0).errQ.map (·.kind)) = [24, 3] := by decide +kernel

/-- Refutes O46: a stale decrement is an arrival at the port as well (R129), and where it overflows the trace ring of its core (R427) the
queue of the cluster takes a kind 24 record before the kind 3 record. -/
theorem not_stealsAndJoins : ¬ Obligations.StealsAndJoins := by
  unfold Obligations.StealsAndJoins
  rintro ⟨-, hjoin, -⟩
  obtain ⟨-, hlive⟩ := hjoin overflowing 0 0 { addr := 0x10000, core := 0, gen := 0 } 0 (some { base := 0x10000, core := 0 }) Tests.src0
    (by decide +kernel) rfl (by decide +kernel)
  obtain ⟨-, -, hstale⟩ := hlive (by decide +kernel) (by decide +kernel)
  obtain ⟨t, r, ht, -, hq, -⟩ := hstale (.inr (by decide +kernel))
  have hnext : exec (.joinDecrement 0) overflowing = .next (overflowing.decrementArrives 0 { addr := 0x10000, core := 0, gen := 0 } 0
      (some { base := 0x10000, core := 0 }) Tests.src0 false) := rfl
  obtain rfl : _ = t := Host.Outcome.next.inj (hnext.symm.trans ht)
  have hlen := congrArg (fun l : List ErrRec => l.map (·.kind)) hq
  have hold : ((overflowing.cluster (clusterOf 0)).errQ) = [] := by decide +kernel
  rw [hold] at hlen
  have hlen' := errQ_overflowing.symm.trans hlen
  exact absurd (congrArg List.length hlen') (by simp)

end Sys2Proof.Machine
end

section
/-!
The launch port and the report ring (R36 to R38, R316 to R318, R321, R338, R451).
-/

namespace Sys2Proof.Machine

open Sys2Proof

/-! ## Lists of headers -/

section
variable {α : Type} {pre post : List α} {h : α}

/-- The first element that satisfies a predicate, where those before it do not. -/
theorem find?_append_cons {p : α → Bool} (hpre : ∀ x ∈ pre, p x = false) (hh : p h = true) : (pre ++ h :: post).find? p = some h := by
  rw [List.find?_append, List.find?_eq_none.2 fun x hx => by simp [hpre x hx], Option.none_or, List.find?_cons, hh]

/-- An element is dropped by its key, which no other one has. -/
theorem filter_ne_key {f : α → Nat} (hnd : ((pre ++ h :: post).map f).Nodup) :
    (pre ++ h :: post).filter (fun x => decide (f x ≠ f h)) = pre ++ post := by
  rw [List.map_append, List.map_cons, List.nodup_append, List.nodup_cons] at hnd
  obtain ⟨-, ⟨hpost, -⟩, hcross⟩ := hnd
  have hpre : ∀ x ∈ pre, decide (f x ≠ f h) = true := fun x hx =>
    decide_eq_true (hcross _ (List.mem_map_of_mem hx) _ List.mem_cons_self)
  have hpost' : ∀ x ∈ post, decide (f x ≠ f h) = true := fun x hx =>
    decide_eq_true fun he : f x = f h => hpost (he ▸ List.mem_map_of_mem hx)
  rw [List.filter_append, List.filter_cons, List.filter_eq_self.2 hpre, List.filter_eq_self.2 hpost']
  simp

/-- An element is replaced by its key, which no other one has. -/
theorem map_at_key {f : α → Nat} (hnd : ((pre ++ h :: post).map f).Nodup) (g : α → α) :
    (pre ++ h :: post).map (fun x => if f x = f h then g x else x) = pre ++ g h :: post := by
  rw [List.map_append, List.map_cons, List.nodup_append, List.nodup_cons] at hnd
  obtain ⟨-, ⟨hpost, -⟩, hcross⟩ := hnd
  have hpre : pre.map (fun x => if f x = f h then g x else x) = pre.map id :=
    List.map_congr_left fun x hx => if_neg (hcross _ (List.mem_map_of_mem hx) _ List.mem_cons_self)
  have hpost' : post.map (fun x => if f x = f h then g x else x) = post.map id :=
    List.map_congr_left fun x hx => if_neg fun he : f x = f h => hpost (he ▸ List.mem_map_of_mem hx)
  rw [List.map_append, List.map_cons, hpre, hpost', List.map_id, List.map_id, if_pos rfl]

end

/-! ## Headers (R316, R317) -/

theorem Port.shapeWaits_false {p : Port} (h : ∀ x ∈ p.headers, ¬ (x.hdr.getLsbD 427 = true ∧ x.shape = none)) : p.shapeWaits = false := by
  rw [Port.shapeWaits, List.any_eq_false]
  intro x hx
  simpa [Header.shp] using h x hx

theorem firstReason_cons (r : Nat) (b : Bool) (l : List (Nat × Bool)) :
    Claims.firstReason ((r, b) :: l) = if b = true then some r else Claims.firstReason l := by
  unfold Claims.firstReason
  rw [List.find?_cons]
  cases b <;> rfl

theorem Header.widths_eq (h : Header) : h.widths =
    h.field 384 6 + h.field 390 6 + h.field 396 6 + h.field 402 6 + h.field 408 6 + h.field 414 6 := by
  simp [Header.widths, List.range_succ]
  omega

theorem extractLsb'_word_low (x : BitVec 512) : (x.extractLsb' 0 64).extractLsb' 0 56 = x.extractLsb' 0 56 := by
  ext j hj
  simp

/-- The port's checks are those of R317, in their order. -/
theorem State.refusalOf_eq (s : State) (h : Header) : s.refusalOf h = Claims.firstReason (Claims.headerReasons s h) := by
  have hfield (lo len : Nat) : h.hdr.toNat / 2 ^ lo % 2 ^ len = h.field lo len := rfl
  have hlt (a b : Nat) : (a > b) = (b < a) := rfl
  have hle (a : Nat) : (6 ≤ a) = (5 < a) := rfl
  have hlast : Claims.firstReason [] = none := rfl
  unfold State.refusalOf Claims.headerReasons
  simp only [hfield, Header.widths_eq, firstReason_cons, hlast, canonical, decide_eq_true_eq, Bool.not_eq_true', decide_eq_false_iff_not, hlt, hle]
  rw [extractLsb'_word_low]
  cases s.cold.molt <;> rfl

section
variable {s : State} (hup : Claims.up s)
include hup

theorem State.on_of_up : (s.on && s.fatal.isNone) = true := by
  obtain ⟨hon, hfatal⟩ := hup
  rw [hon, hfatal]
  rfl

theorem exec_launchHeaderCheck : exec .launchHeaderCheck s = .next s.checkHeader := by
  change execLaunchHeaderCheck s = _
  rw [execLaunchHeaderCheck, State.on_of_up hup, if_pos rfl]

theorem exec_launchStart : exec .launchStart s = .next s.startLaunch := by
  change execLaunchStart s = _
  rw [execLaunchStart, State.on_of_up hup, if_pos rfl]

theorem exec_reportRecordWrite : exec .reportRecordWrite s = .next s.writeReport := by
  change execReportRecordWrite s = _
  rw [execReportRecordWrite, State.on_of_up hup, if_pos rfl]

end

theorem exec_launchHeaderWrite {s : State} (hmay : s.hostMay 0x10000 64 1 = true) (hdr : BitVec 512) :
    exec (.launchHeaderWrite hdr) s = .next (if s.port.headers.length < 16 ∧ s.port.shapeWaits = false then
      { s with port := { s.port with headers := s.port.headers ++ [{ lseq := s.port.lseq, hdr := hdr, shape := none, accepted := false }]
                                     lseq := (s.port.lseq + 1) % 2 ^ 32 } } else s) := by
  change execLaunchHeaderWrite hdr s = _
  rw [execLaunchHeaderWrite, hmay, if_pos rfl, State.putHeader]
  by_cases h : s.port.headers.length < 16 ∧ s.port.shapeWaits = false
  · rw [if_pos h, if_neg (by simp [h.1, h.2])]
    rfl
  · rw [if_neg h, if_pos (by rw [not_and_or, Nat.not_lt, Bool.not_eq_false] at h; exact h)]
    rfl

/-- The map that gives a shape record to the header that waits for one. -/
theorem map_shape {pre post : List Header} {h : Header} (sh : BitVec 256) (hshp : h.hdr.getLsbD 427 = true) (hnone : h.shape = none)
    (hothers : ∀ x ∈ pre ++ post, ¬ (x.hdr.getLsbD 427 = true ∧ x.shape = none)) :
    (pre ++ h :: post).map (fun h => if h.shp && h.shape.isNone then { h with shape := some sh } else h) =
      pre ++ { h with shape := some sh } :: post := by
  have hid (l : List Header) (hl : ∀ x ∈ l, x ∈ pre ++ post) :
      l.map (fun h => if h.shp && h.shape.isNone then { h with shape := some sh } else h) = l.map id :=
    List.map_congr_left fun x hx => if_neg (by simpa [Header.shp] using hothers x (hl x hx))
  rw [List.map_append, List.map_cons, hid pre fun x hx => List.mem_append_left _ hx, hid post fun x hx => List.mem_append_right _ hx,
    List.map_id, List.map_id, if_pos (by simp [Header.shp, hshp, hnone])]

theorem exec_shapeRecordWrite {s : State} (hmay : s.hostMay 0x10040 32 1 = true) (sh : BitVec 256) :
    exec (.shapeRecordWrite sh) s = (s.putShape sh).forHost s := by
  change execShapeRecordWrite sh s = _
  rw [execShapeRecordWrite, hmay, if_pos rfl]

theorem exec_shapeRecordWrite_taken {s : State} (hmay : s.hostMay 0x10040 32 1 = true) (sh : BitVec 256) {pre post : List Header} {h : Header}
    (hs : s.port.headers = pre ++ h :: post) (hshp : h.hdr.getLsbD 427 = true) (hnone : h.shape = none)
    (hothers : ∀ x ∈ pre ++ post, ¬ (x.hdr.getLsbD 427 = true ∧ x.shape = none)) :
    exec (.shapeRecordWrite sh) s = .next { s with port := { s.port with headers := pre ++ { h with shape := some sh } :: post } } := by
  have hwaits : s.port.shapeWaits = true := by simp [Port.shapeWaits, hs, Header.shp, hshp, hnone]
  rw [exec_shapeRecordWrite hmay, State.putShape, hwaits, if_pos rfl, hs, map_shape sh hshp hnone hothers]
  rfl

/-- The check of the oldest header that was not accepted, once its shape record and the ring are there. -/
theorem State.checkHeader_next {s : State} {pre post : List Header} {h : Header} (hset : s.port.lrset = true)
    (hnext : Claims.nextHeader s pre h post) (hshape : h.hdr.getLsbD 427 = true → h.shape ≠ none) :
    (∀ r, Claims.firstReason (Claims.headerReasons s h) = some r → s.checkHeader = { s with port := { s.port with
      headers := pre ++ post, reports := s.port.reports ++ [{ kind := 2, lnch := 0, lseq := h.lseq, code := r, value := 0 }] } }) ∧
    (Claims.firstReason (Claims.headerReasons s h) = none →
      s.checkHeader = State.wakeMolt { s with port := { s.port with headers := pre ++ { h with accepted := true } :: post } }) := by
  obtain ⟨hs, hpre, hnot, hnd⟩ := hnext
  have hfind : s.port.headers.find? (fun h => !h.accepted) = some h := by
    rw [hs]
    exact find?_append_cons (fun x hx => by rw [hpre x hx]; rfl) (by rw [hnot]; rfl)
  have hready : (h.shp && h.shape.isNone) = false := by
    rw [Header.shp, Bool.and_eq_false_iff]
    by_cases hb : h.hdr.getLsbD 427 = true
    · exact .inr (by simpa [Option.isSome_iff_ne_none] using hshape hb)
    · exact .inl (by simpa using hb)
  rw [hs] at hnd
  rw [← State.refusalOf_eq]
  refine ⟨fun r hr => ?_, fun hr => ?_⟩
  · simp only [State.checkHeader, hfind, hset, hready, hr]
    rw [if_neg (by decide), hs, filter_ne_key hnd]
    rfl
  · simp only [State.checkHeader, hfind, hset, hready, hr]
    rw [if_neg (by decide), hs, map_at_key hnd]

theorem State.wakeMolt_eq (s : State) :
    s.wakeMolt = if s.cold.molt = .coldReady ∧ s.cold.ramping = false then Claims.moltAt s .coldRun else s := by
  unfold State.wakeMolt
  cases hm : s.cold.molt with
  | coldReady => cases s.cold.ramping <;> simp [State.enterMolt, Claims.moltAt]
  | _ => simp

theorem launchHeaders : Claims.LaunchHeaders := by
  intro s
  refine ⟨fun hdr hmay => exec_launchHeaderWrite hmay hdr, fun sh hmay => ⟨fun pre h post hs hshp hnone hothers => ?taken, fun hno => ?refused⟩,
    fun hup hset pre h post hnext hshape => ⟨fun r hr => ?refuse, fun hr => ?accept⟩, fun hup hset => ?unset⟩
  case taken => exact exec_shapeRecordWrite_taken hmay sh hs hshp hnone hothers
  case refused =>
    rw [exec_shapeRecordWrite hmay, State.putShape, Port.shapeWaits_false hno]
    rfl
  case refuse => rw [exec_launchHeaderCheck hup, (State.checkHeader_next hset hnext hshape).1 r hr]
  case accept => rw [exec_launchHeaderCheck hup, (State.checkHeader_next hset hnext hshape).2 hr, State.wakeMolt_eq]
  case unset =>
    rw [exec_launchHeaderCheck hup, State.checkHeader, hset]
    cases s.port.headers.find? (fun h => !h.accepted) <;> rfl

/-! ## Starts (R37) -/

theorem State.freeIndex_of_lowest {s : State} {i : Nat} (h : Claims.lowestFree s i) : s.freeIndex = some i := by
  obtain ⟨hi, hfree, hlow⟩ := h
  unfold State.freeIndex
  rw [List.find?_range_eq_some]
  exact ⟨by rw [hfree]; rfl, List.mem_range.2 hi, fun j hj => by simpa [Option.isSome_iff_ne_none] using hlow j hj⟩

/-- The low bits of a field, as a mask keeps them. -/
theorem extractLsb'_and_mask (x : BitVec 256) (a n : Nat) :
    x.extractLsb' a 64 &&& BitVec.ofNat 64 (2 ^ n - 1) = (x.extractLsb' a n).setWidth 64 := by
  ext j hj
  have hmask : (BitVec.ofNat 64 (2 ^ n - 1))[j] = decide (j < n) := by
    rw [← BitVec.getLsbD_eq_getElem, BitVec.getLsbD_ofNat, Nat.testBit_two_pow_sub_one, decide_eq_true hj, Bool.true_and]
  rw [BitVec.getElem_and, hmask]
  by_cases h : j < n <;> simp [h]

theorem launchStarts : Claims.LaunchStarts := by
  intro s pre h post i hup hs hpre hacc hnd hlow
  have hfind : s.port.headers.find? (fun h => h.accepted) = some h := by rw [hs]; exact find?_append_cons hpre hacc
  rw [hs] at hnd
  have hstart := exec_launchStart hup
  simp only [State.startLaunch, hfind, State.freeIndex_of_lowest hlow, State.report] at hstart
  rw [hs, filter_ne_key hnd] at hstart
  refine ⟨_, _, hstart, tblFind_tblSet_self .., fun j hj => tblFind_tblSet_ne hj .., rfl, rfl, rfl, rfl, rfl, rfl, fun sh hsh => ?_, rfl, rfl, rfl, rfl, rfl, rfl⟩
  rw [hsh]
  exact ⟨extractLsb'_and_mask sh 0 63, extractLsb'_and_mask sh 64 45⟩

/-! ## The report ring (R318, R321, R451) -/

@[simp] theorem Report.length_bytes (r : Report) : r.bytes.length = 16 := by simp [Report.bytes]

/-- An aligned write of one piece is all that changes in the memories. -/
theorem State.devWrite_got (s : State) {a master : Nat} {bs : List Byte} (hn : bs.length ∈ pieceSizes) (ha : a % bs.length = 0)
    (hmay : s.devMay master a bs.length 1 = true) : Claims.dramGot s (s.devWrite master a bs) a bs := by
  have hdram := s.devWrite_dram a master hn ha
  rw [if_pos hmay] at hdram
  obtain ⟨hs, cl, dr, db, hframe⟩ := s.devWrite_frame a master bs
  refine ⟨fun j hj => ?_, fun x hx => ?_, by rw [hframe], by rw [hframe]⟩
  · rw [hdram, memGet_memWrite, if_pos (by omega), Nat.add_sub_cancel_left]
  · rw [hdram, memGet_memWrite, if_neg (by omega)]

theorem Port.unread_of_lt {p : Port} (h : p.lrhead < 512) : p.unread = (p.lrtail + 512 - p.lrhead) % 512 := by
  rw [Port.unread, Nat.mod_eq_of_lt h]

section
variable {s : State} {r : Report} {rest : List Report} (hs : s.port.reports = r :: rest) (hset : s.port.lrset = true)
  (hhead : s.port.lrhead < 512)
include hs hset hhead

theorem State.writeReport_written (hroom : (s.port.lrtail + 512 - s.port.lrhead) % 512 < 256) :
    s.writeReport = { s.devWrite 1 (s.port.lrbase + 16 * (s.port.lrtail % 256)) r.bytes with
      port := { s.port with reports := rest, lrtail := (s.port.lrtail + 1) % 512 } } := by
  have hgo : (!s.port.lrset || decide (256 ≤ s.port.unread)) = false := by
    rw [hset, Port.unread_of_lt hhead, decide_eq_false (by omega)]
    rfl
  obtain ⟨_, cl, dr, db, hframe⟩ := s.devWrite_frame (s.port.lrbase + 16 * (s.port.lrtail % 256)) 1 r.bytes
  simp only [State.writeReport, hs, hgo, hframe]
  rw [if_neg Bool.false_ne_true]

theorem State.writeReport_full (hfull : 256 ≤ (s.port.lrtail + 512 - s.port.lrhead) % 512) : s.writeReport = s := by
  have hstop : (!s.port.lrset || decide (256 ≤ s.port.unread)) = true := by
    rw [hset, Port.unread_of_lt hhead, decide_eq_true hfull]
    rfl
  simp only [State.writeReport, hs, hstop, if_true]

end

/-- A field of bits in its place, as a mask keeps it. -/
theorem toNat_and_field (v : Word) {lo len : Nat} (h : lo + len ≤ 64) :
    (v &&& BitVec.ofNat 64 ((2 ^ len - 1) * 2 ^ lo)).toNat = bits v.toNat lo len * 2 ^ lo := by
  apply Nat.eq_of_testBit_eq
  intro j
  rw [BitVec.toNat_and, Nat.testBit_and, BitVec.toNat_ofNat, Nat.testBit_mod_two_pow, Nat.testBit_mul_two_pow, Nat.testBit_two_pow_sub_one,
    Nat.testBit_mul_two_pow, bits, Nat.testBit_mod_two_pow, Nat.testBit_div_two_pow]
  by_cases hlo : lo ≤ j
  · by_cases hhi : j - lo < len
    · simp [hlo, hhi, show j < 64 by omega]
    · simp [hhi]
  · simp [hlo]

theorem State.noLaunch_iff (s : State) : s.noLaunch = true ↔ s.launches = [] := by rw [State.noLaunch, List.isEmpty_iff]

section
variable {s : State} (v : Word)

theorem exec_lrheadWrite (hmay : s.hostMay 0x10090 8 1 = true) : exec (.lrheadWrite v) s = .next
    (if (s.port.lrtail + 512 - v.toNat % 512) % 512 ≤ 256 then { s with port := { s.port with lrhead := v.toNat % 512 } } else s) := by
  change execLrheadWrite v s = _
  rw [execLrheadWrite, hmay, if_pos rfl, State.setLrhead]
  by_cases h : (s.port.lrtail + 512 - v.toNat % 512) % 512 ≤ 256
  · rw [if_pos h, if_neg (by omega)]
  · rw [if_neg h, if_pos (by omega)]

theorem exec_lrbaseWrite (hmay : s.hostMay 0x10088 8 1 = true) : exec (.lrbaseWrite v) s = .next
    (if s.launches = [] ∧ s.port.lrhead = s.port.lrtail then
      { s with port := { s.port with lrbase := (v &&& 0xFFFFFFFFF000).toNat, lrset := true } } else s) := by
  have hfield := toNat_and_field v (show 12 + 36 ≤ 64 by decide)
  change execLrbaseWrite v s = _
  rw [execLrbaseWrite, hmay, if_pos rfl, State.setLrbase, ← hfield]
  simp only [Bool.and_eq_true, decide_eq_true_eq, State.noLaunch_iff]
  rfl

theorem exec_shwinWrite (hmay : s.hostMay 0x10200 8 1 = true) : exec (.shwinWrite v) s = .next
    (if s.launches = [] then { s with port := { s.port with shsize := v.toNat % 256, shbase := (v &&& 0xFFFFC0000000).toNat } } else s) := by
  have hfield := toNat_and_field v (show 30 + 18 ≤ 64 by decide)
  have hlow : bits v.toNat 0 8 = v.toNat % 256 := by simp [bits]
  change execShwinWrite v s = _
  rw [execShwinWrite, hmay, if_pos rfl, State.setShwin, ← hfield, hlow]
  simp only [State.noLaunch_iff]
  rfl

theorem exec_hwbaseWrite (hmay : s.hostMay 0x10208 8 1 = true) : exec (.hwbaseWrite v) s = .next
    (if s.launches = [] then { s with port := { s.port with hwbase := (v &&& 0xFFFFC0000000).toNat } } else s) := by
  have hfield := toNat_and_field v (show 30 + 18 ≤ 64 by decide)
  change execHwbaseWrite v s = _
  rw [execHwbaseWrite, hmay, if_pos rfl, State.setHwbase, ← hfield]
  simp only [State.noLaunch_iff]
  rfl

end

theorem reportRing : Claims.ReportRing := by
  intro s
  refine ⟨fun r rest hup hs hset hhead _ => ⟨fun hroom hbase hmay => ?written, fun hfull => ?full⟩,
    fun v => ⟨exec_lrheadWrite v, exec_lrbaseWrite v, exec_shwinWrite v, exec_hwbaseWrite v⟩⟩
  case written =>
    obtain ⟨hnew, hold, hcores, hhost⟩ := s.devWrite_got (a := s.port.lrbase + 16 * (s.port.lrtail % 256)) (bs := r.bytes) (by simp [pieceSizes]) (by simp; omega) (by simpa using hmay)
    rw [exec_reportRecordWrite hup, State.writeReport_written hs hset hhead hroom]
    exact ⟨_, rfl, ⟨hnew, hold, hcores, hhost⟩, rfl⟩
  case full => rw [exec_reportRecordWrite hup, State.writeReport_full hs hset hhead hfull]

/-- Settles O41: the three parts above. -/
theorem launches : Obligations.Launches := by
  unfold Obligations.Launches
  exact ⟨launchHeaders, launchStarts, reportRing⟩

end Sys2Proof.Machine
end

section
/-!
Registers saved in a region, and the service of the local-store banks (R34, R100, R180, R181).
-/

namespace Sys2Proof.Machine

open Sys2Proof

/-! ## Words of a memory -/

theorem memWrite_append (a : Nat) (bs cs : List Byte) (m : Memory) :
    memWrite a (bs ++ cs) m = memWrite (a + bs.length) cs (memWrite a bs m) := by
  induction bs generalizing a m with
  | nil => rfl
  | cons b bs ih => rw [List.cons_append, memWrite, ih, memWrite, List.length_cons, Nat.add_right_comm, Nat.add_assoc]

@[simp] theorem length_wordBytes (ws : List Word) : (wordBytes ws).length = 8 * ws.length := by
  induction ws with
  | nil => rfl
  | cons w ws ih => rw [wordBytes, List.flatMap_cons, List.length_append, length_leBytes, ← wordBytes, ih, List.length_cons]; omega

/-- Each of several words is read back. -/
theorem memNum_wordBytes {ws : List Word} {j : Nat} (hj : j < ws.length) (a : Nat) (m : Memory) :
    memNum (a + 8 * j) 8 (memWrite a (wordBytes ws) m) = (ws.getD j 0).toNat := by
  induction ws generalizing a j m with
  | nil => simp at hj
  | cons w ws ih =>
    rw [wordBytes, List.flatMap_cons, memWrite_append, length_leBytes, ← wordBytes]
    cases j with
    | zero =>
      have h := memNum_memWrite_self a (leBytes 8 w.toNat) m
      rw [length_leBytes, leNat_leBytes, Nat.mod_eq_of_lt w.isLt] at h
      rw [memNum, memRead_memWrite_apart (by omega)]
      exact h
    | succ j => rw [Nat.mul_succ, Nat.add_comm (8 * j), ← Nat.add_assoc, ih (by simpa using hj), List.getD_cons_succ]

/-! ## Registers saved at an address -/

section
variable (s : State) (n i a : Nat)

theorem State.lsHard_ls (bs : List Byte) (kind : Nat) (w : Source) : ((s.lsHard n a bs kind w).core n).ls = memWrite a bs (s.core n).ls := by
  rw [State.lsHard, State.logPort_ls, State.core_setCore_self]
  rfl

@[simp] theorem State.thread_lsHard (bs : List Byte) (kind : Nat) (w : Source) (m j : Nat) :
    (s.lsHard n a bs kind w).thread m j = s.thread m j := by
  rw [State.lsHard, State.thread_logPort]
  exact s.thread_setCore_of_threads n (by rfl) m j

theorem State.saveRegs_ls (rs : List RegName) (ws : List Word) :
    ((s.saveRegs n i a rs ws).core n).ls = memWrite a (wordBytes ws) (s.core n).ls := by
  unfold State.saveRegs
  dsimp only
  split
  · exact s.lsHard_ls ..
  · rw [State.core_setCore_self]; exact s.lsHard_ls ..

@[simp] theorem State.thread_saveRegs (rs : List RegName) (ws : List Word) (m j : Nat) :
    (s.saveRegs n i a rs ws).thread m j = s.thread m j := by
  unfold State.saveRegs
  dsimp only
  split
  · exact s.thread_lsHard ..
  · rw [State.thread_setCore_of_threads _ _ (by rfl), State.thread_lsHard]

variable {a}

theorem State.lsWord_saveRegs (rs : List RegName) {ws : List Word} {j : Nat} (hj : j < ws.length) :
    (s.saveRegs n i a rs ws).lsWord n (a + 8 * j) = ws.getD j 0 := by
  rw [State.lsWord, State.lsNum, State.saveRegs_ls, memNum_wordBytes hj, BitVec.ofNat_toNat, BitVec.setWidth_eq]

theorem State.lsWord_saveRegs_apart (rs : List RegName) {ws : List Word} {b : Nat} (h : b + 8 ≤ a ∨ a + 8 * ws.length ≤ b) :
    (s.saveRegs n i a rs ws).lsWord n b = s.lsWord n b := by
  rw [State.lsWord, State.lsNum, State.saveRegs_ls, memNum, memRead_memWrite_apart (by simpa using h), ← memNum]
  rfl

/-! ## Windows saved in a region (R180, R181) -/

theorem winPlace_low {k r : Nat} (hk : k ≠ 0) (h8 : 8 ≤ r) (hr : r < 12) : winPlace k r = winPlace k 8 + 8 * (r - 8) := by
  have hr' : ¬ 12 ≤ r := by omega
  have h8' : ¬ 12 ≤ 8 := by decide
  simp only [winPlace, if_neg hk, if_neg hr', if_neg h8']
  split <;> omega

theorem winPlace_high {k r : Nat} (hk : k ≠ 0) (hr : 12 ≤ r) : winPlace k r = 0x140 + 96 * (k - 1) + 8 * (r - 12) := by
  rw [winPlace, if_neg hk, if_pos hr]

/-- A window's low registers stand before its high ones, and behind the base window. -/
theorem winPlace_bounds {k : Nat} (hk : k ≠ 0) : 0xE0 ≤ winPlace k 8 ∧ winPlace k 8 + 32 ≤ winPlace k 12 := by
  have h8' : ¬ 12 ≤ 8 := by decide
  rw [winPlace_high hk (le_refl 12)]
  simp only [winPlace, if_neg hk, if_neg h8']
  split <;> omega

variable (k : Nat)

@[simp] theorem State.thread_spillWindow (m j : Nat) : (s.spillWindow n i k).thread m j = s.thread m j := by
  unfold State.spillWindow
  dsimp only
  split
  · exact s.thread_saveRegs ..
  · rw [State.thread_saveRegs, State.thread_saveRegs]

@[simp] theorem Thread.length_winWords (t : Thread) (k r cnt : Nat) : (t.winWords k r cnt).length = cnt := by simp [Thread.winWords]

theorem Thread.getD_winWords (t : Thread) (k r : Nat) {cnt j : Nat} (hj : j < cnt) :
    (t.winWords k r cnt).getD j 0 = tblGet 0 (winIndex k (r + j)) t.win := by
  rw [List.getD_eq_getElem _ _ (by simpa using hj)]
  simp [Thread.winWords]

/-- A window register stands in its place once its window is saved. -/
theorem State.lsWord_spillWindow {r : Nat} (h8 : 8 ≤ r) (h23 : r ≤ 23) :
    (s.spillWindow n i k).lsWord n ((s.thread n i).region + winPlace k r) = tblGet 0 (winIndex k r) (s.thread n i).win := by
  unfold State.spillWindow
  dsimp only
  split
  · next hk =>
    subst hk
    have hplace : (s.thread n i).region + winPlace 0 r = (s.thread n i).region + 0x80 + 8 * (r - 8) := by simp [winPlace, Nat.add_assoc]
    rw [hplace, State.lsWord_saveRegs _ _ _ _ (by simp; omega), Thread.getD_winWords _ _ _ (by omega), Nat.add_sub_cancel' h8]
  · next hk =>
    by_cases hr : 12 ≤ r
    · have hplace : (s.thread n i).region + winPlace k r = (s.thread n i).region + winPlace k 12 + 8 * (r - 12) := by
        rw [winPlace_high hk hr, winPlace_high hk (le_refl 12)]; omega
      have hstart := winPlace_bounds hk
      rw [hplace, State.lsWord_saveRegs_apart _ _ _ _ (by simp; omega), State.lsWord_saveRegs _ _ _ _ (by simp; omega),
        Thread.getD_winWords _ _ _ (by omega), Nat.add_sub_cancel' hr]
    · rw [winPlace_low hk h8 (by omega), ← Nat.add_assoc, State.lsWord_saveRegs _ _ _ _ (by simp; omega),
        Thread.getD_winWords _ _ _ (by omega), Nat.add_sub_cancel' h8]

/-- Beside the windows' places a region stays as it is. -/
theorem State.memGet_spillWindow {x : Nat} (hk : k ≤ 31)
    (hx : x < (s.thread n i).region + 0x80 ∨ (s.thread n i).region + 0x1000 ≤ x) :
    memGet x ((s.spillWindow n i k).core n).ls = memGet x (s.core n).ls := by
  unfold State.spillWindow
  dsimp only
  split
  · rw [State.saveRegs_ls, memGet_memWrite, if_neg (by simp; omega)]
  · next h0 =>
    have hstart := winPlace_bounds h0
    have hhigh := winPlace_high h0 (le_refl 12)
    rw [State.saveRegs_ls, memGet_memWrite, if_neg (by simp; omega), State.saveRegs_ls, memGet_memWrite, if_neg (by simp; omega)]

end

end Sys2Proof.Machine
end

section
/-!
What the local-store banks serve (R34, R100, R180).
-/

namespace Sys2Proof.Machine

open Sys2Proof

section
variable (s : State) (n i k : Nat)

theorem State.coresOnly.dram {s t : State} (h : s.coresOnly t) : t.dram = s.dram := by
  obtain ⟨cs, cl, rfl⟩ := h
  rfl

theorem State.logs_ls (l : List (Nat × Nat)) (b kind : Nat) (w : State → Source) (m : Nat) :
    ((l.foldl (fun s p => s.logPort n (b + p.1) p.2 kind (w s)) s).core m).ls = (s.core m).ls := by
  induction l generalizing s with
  | nil => rfl
  | cons p l ih => rw [List.foldl_cons, ih, State.logPort_ls]

@[simp] theorem State.fillWindow_ls (regs : List Nat) (m : Nat) : ((s.fillWindow n i k regs).core m).ls = (s.core m).ls := by
  rw [State.fillWindow, State.setThread_ls]
  exact s.logs_ls n (winParts k) (s.thread n i).region 3 (fun s => s.source n i true) m

theorem State.windowBad_nil (h : (s.core n).lsBad = []) (base : Nat) : s.windowBad n base k = none := by
  have hgood (a m : Nat) : firstBad [] a m = none := by simp [firstBad]
  simp [State.windowBad, h, hgood, List.findSome?_eq_none_iff]

theorem State.serveLocal_none (h : ∀ l ∈ (s.thread n i).loads, l.ready = 0 ∨ (s.core n).cyc < l.ready) : s.serveLocal n i = none := by
  have hnone : (s.thread n i).loads.find? (fun l => decide (0 < l.ready ∧ l.ready ≤ (s.core n).cyc)) = none := by
    rw [List.find?_eq_none]
    intro l hl
    have := h l hl
    rw [decide_eq_true_eq]
    omega
  rw [State.serveLocal, hnone, Option.map_none]

theorem exec_localStoreBankService {s : State} {n : Nat} (hclock : s.clocked n = true) (hpre : (s.core n).pre = false) (i : Nat) :
    (∀ t, s.serveLocal n i = some t → exec (.localStoreBankService n i) s = .next t) ∧
    (s.serveLocal n i = none → (s.thread n i).run = .stalled → exec (.localStoreBankService n i) s = .next (s.serveWindow n i)) := by
  refine ⟨fun t ht => ?_, fun hnone hrun => ?_⟩
  · change execLocalStoreBankService n i s = _
    simp [execLocalStoreBankService, hclock, hpre, ht]
  · change execLocalStoreBankService n i s = _
    simp [execLocalStoreBankService, hclock, hpre, hnone, hrun]

/-! ## A delayed load -/

theorem LoadExt.result_scalar {e : LoadExt} (h : e ≠ .vector) (old : Vec) (m : Memory) (places : List (Nat × Nat)) :
    (e.result old m places).extractLsb' 0 64 = e.value m := by
  cases e with
  | signed w => exact extractLsb'_zeroExtend_word _
  | unsigned w => exact extractLsb'_zeroExtend_word _
  | vector => exact absurd rfl h

/-- A load of a scalar register that belongs to no counter, queue or pair completes in its thread alone. -/
theorem State.completeLoad_scalar {s : State} {n i d : Nat} {l : Load} (hl : (s.thread n i).loads = [l]) (hdst : l.dst = .s d)
    (hext : l.ext ≠ .vector) (hdead : l.dead = false) (hcount : l.counted = false) (hqueue : l.toQueue = false) (hacq : l.acq = false)
    (hq : (s.thread n i).accQ = []) (hpair : (s.thread n i).pair = 0) :
    s.completeLoad n i l = s.setThread n i
      (({ s.thread n i with loads := [], pend := (s.thread n i).pend.filter (fun x => decide (x.2 ≠ l.id)) } : Thread).setSreg d
        (l.ext.value l.got)) := by
  simp [State.completeLoad, hl, hdead, hqueue, hacq, hcount, hdst, hq, Thread.drain, drainAcc, Thread.setReg, hpair, LoadExt.result_scalar hext]

/-! ## Spills and fills -/

theorem State.serveWindow_spill (hneed : (s.thread n i).needSpill = true) (hpend : (s.thread n i).windowPends (s.thread n i).resLo = false) :
    s.serveWindow n i = (s.spillWindow n i (s.thread n i).resLo).setThread n i { s.thread n i with resLo := (s.thread n i).resLo + 1 } := by
  simp only [State.serveWindow, hneed, hpend, Bool.and_false, Bool.false_eq_true, if_false, if_true, State.thread_spillWindow]

/-- The registers that a fill of the caller's window reads. -/
def Thread.fillRegs (t : Thread) : List Nat := List.range' 8 (if t.depth < t.resLo then 16 else 12)

theorem Thread.mem_fillRegs (t : Thread) {r : Nat} (h8 : 8 ≤ r) (h19 : r ≤ 19) : r ∈ t.fillRegs := by
  rw [Thread.fillRegs, List.mem_range'_1]
  split <;> omega

theorem Thread.nodup_fillRegs (t : Thread) (k : Nat) : (t.fillRegs.map (winIndex k)).Nodup := by
  refine List.Nodup.map_on (fun a ha b hb h => ?_) List.nodup_range'
  rw [Thread.fillRegs, List.mem_range'_1] at ha hb
  unfold winIndex at h
  split at ha <;> split at hb <;> omega

theorem State.serveWindow_fill (hspill : (s.thread n i).needSpill = false) (hneed : (s.thread n i).needFill = true)
    (hdepth : 1 ≤ (s.thread n i).depth) (hbad : (s.core n).lsBad = []) :
    s.serveWindow n i = (s.fillWindow n i ((s.thread n i).depth - 1) (s.thread n i).fillRegs).setThread n i
      { (s.fillWindow n i ((s.thread n i).depth - 1) (s.thread n i).fillRegs).thread n i with resLo := (s.thread n i).depth - 1 } := by
  have hpos : decide (0 < (s.thread n i).depth) = true := decide_eq_true hdepth
  simp only [State.serveWindow, hspill, hneed, hpos, Bool.false_and, Bool.false_eq_true, Bool.and_self, if_false, if_true, s.windowBad_nil n _ hbad]
  rfl

end

theorem bankService : Claims.BankService := by
  intro s n i hclock hpre
  dsimp only
  obtain ⟨hserve, hwindow⟩ := exec_localStoreBankService hclock hpre i
  refine ⟨fun l d hl h1 hcyc hdst hd1 hd8 hext hdead hcount hqueue hacq hq hpair => ?load,
    fun hrun hnot => ⟨fun hneed hpend h31 => ?spill, fun hspill hneed hdepth hbad => ?fill⟩⟩
  case load =>
    have hfind : s.serveLocal n i = some (s.completeLoad n i l) := by
      rw [State.serveLocal, hl, List.find?_cons_of_pos (by rw [decide_eq_true_eq]; exact ⟨h1, hcyc⟩), Option.map_some]
    refine ⟨_, hserve _ hfind, ?_⟩
    rw [State.completeLoad_scalar hl hdst hext hdead hcount hqueue hacq hq hpair]
    exact ⟨State.thread_setThread_self .., fun m j h => State.thread_setThread_of_ne _ _ _ _ h, rfl, State.setThread_ls ..⟩
  case spill =>
    refine ⟨_, hwindow (s.serveLocal_none n i hnot) hrun, ?_⟩
    rw [s.serveWindow_spill n i hneed hpend]
    refine ⟨State.thread_setThread_self .., fun r h8 h23 => ?saved, fun m j h => ?others, ?dram⟩
    case saved => rw [State.lsWord_congr (State.setThread_ls ..)]; exact s.lsWord_spillWindow n i _ h8 h23
    case others => rw [State.thread_setThread_of_ne _ _ _ _ h, State.thread_spillWindow]
    case dram => exact (s.coreOnly_spillWindow n i _).1.dram
  case fill =>
    refine ⟨_, hwindow (s.serveLocal_none n i hnot) hrun, ?_⟩
    rw [s.serveWindow_fill n i hspill hneed hdepth hbad]
    obtain ⟨b, hself⟩ := s.thread_fillWindow_self n i ((s.thread n i).depth - 1) (s.thread n i).fillRegs
    rw [hself]
    simp only [State.thread_setThread_self]
    refine ⟨trivial, fun r h8 h19 => ?filled, hrun, trivial, trivial, ?ls, fun m j h => ?others⟩
    case filled => exact s.tblGet_refilled n _ _ (Thread.mem_fillRegs _ h8 h19) (Thread.nodup_fillRegs _ _)
    case ls => rw [State.setThread_ls, State.fillWindow_ls]
    case others => rw [State.thread_setThread_of_ne _ _ _ _ h, s.thread_fillWindow_of_ne n i _ _ h]

end Sys2Proof.Machine
end

section
/-!
Walks, and the upkeep of the homes (R116, R119, R335, R411, R412, R447).
-/

namespace Sys2Proof.Machine

open Sys2Proof

/-! ## What a sequence of steps reaches -/

/-- What every step keeps, and a step for one of the members brings about, holds after the steps for all of them. -/
theorem foldl_reaches {α β : Type} {f : β → α → β} {pre post : β → Prop} {l : List α} {a : α} (ha : a ∈ l) {b : β} (hb : pre b)
    (hpre : ∀ b a, pre b → pre (f b a)) (hstep : ∀ b, pre b → post (f b a)) (hpost : ∀ b a, post b → post (f b a)) :
    post (l.foldl f b) := by
  obtain ⟨l₁, l₂, rfl⟩ := List.append_of_mem ha
  rw [List.foldl_append, List.foldl_cons]
  exact List.foldlRecOn l₂ f (hstep _ (List.foldlRecOn l₁ f hb fun b h a _ => hpre b a h)) fun b h a _ => hpost b a h

/-! ## Which walk ends -/

/-- Among the walks under way one that a test selects is picked, when there is one. -/
theorem State.pickWalk_some {s : State} {c : Nat} {p : Walk → Bool} (h : ∃ w j, Claims.underWay s c w j ∧ p w = true) :
    ∃ w j, s.pickWalk c p = some (w, j) ∧ Claims.underWay s c w j ∧ p w = true := by
  have hmem (w : Walk) (j : Nat) : (w, j) ∈ (((s.cluster c).walks.take walkContexts).zipIdx).filter (fun x => p x.1) ↔
      Claims.underWay s c w j ∧ p w = true := by
    rw [List.mem_filter, List.mem_zipIdx_iff_getElem?, List.getElem?_take, Claims.underWay]
    by_cases hj : j < 8
    · simp [walkContexts, hj]
    · simp [walkContexts, hj]
  obtain ⟨w, j, hw⟩ := h
  have hpos := List.length_pos_of_mem ((hmem w j).2 hw)
  unfold State.pickWalk
  dsimp only
  generalize ((((s.cluster c).walks.take walkContexts).zipIdx).filter (fun x => p x.1)) = ws at hmem hpos ⊢
  have hlt := Nat.mod_lt (Config.freeChoice s.tick) hpos
  have hin := List.getElem_mem hlt
  rw [List.getElem?_eq_getElem hlt]
  exact ⟨_, _, rfl, (hmem _ _).1 hin⟩

/-- The only walk of a cluster is the one picked. -/
theorem State.underWay_single {s : State} {c : Nat} {v w : Walk} {j : Nat} (h : (s.cluster c).walks = [v]) (hw : Claims.underWay s c w j) :
    w = v ∧ j = 0 := by
  obtain ⟨-, hj⟩ := hw
  rw [h, List.getElem?_singleton] at hj
  split at hj
  · next h0 => exact ⟨(Option.some.inj hj).symm, h0⟩
  · cases hj

/-! ## The reads of a walk -/

/-- Nothing differs but homes and records of clusters. -/
def State.recordsOnly (s t : State) : Prop :=
  (∃ hs cl, t = { s with homes := hs, clusters := cl }) ∧ ∀ k, ∃ q, t.cluster k = { s.cluster k with errQ := q }

section
variable {s t u : State}

theorem State.recordsOnly_refl (s : State) : s.recordsOnly s := ⟨⟨_, _, rfl⟩, fun _ => ⟨_, rfl⟩⟩

theorem State.recordsOnly_trans (h : s.recordsOnly t) (h' : t.recordsOnly u) : s.recordsOnly u := by
  obtain ⟨⟨_, _, rfl⟩, hq⟩ := h
  obtain ⟨⟨hs, cl, rfl⟩, hq'⟩ := h'
  refine ⟨⟨hs, cl, rfl⟩, fun k => ?_⟩
  obtain ⟨q, hk⟩ := hq k
  obtain ⟨q', hk'⟩ := hq' k
  exact ⟨q', by rw [hk', hk]⟩

theorem State.recordsOnly.thread (h : s.recordsOnly t) (m j : Nat) : t.thread m j = s.thread m j := by
  obtain ⟨⟨_, _, rfl⟩, -⟩ := h
  rfl

theorem State.recordsOnly.dram (h : s.recordsOnly t) : t.dram = s.dram := by
  obtain ⟨⟨_, _, rfl⟩, -⟩ := h
  rfl

theorem State.recordsOnly.walks (h : s.recordsOnly t) (k : Nat) : (t.cluster k).walks = (s.cluster k).walks := by
  obtain ⟨q, hk⟩ := h.2 k
  rw [hk]

theorem State.recordsOnly_record (s : State) (k : Nat) (r : ErrRec) : s.recordsOnly (s.record k r) := by
  refine ⟨⟨_, _, rfl⟩, fun m => ?_⟩
  by_cases hm : m = k
  · subst hm; exact ⟨_, s.cluster_record_self m r⟩
  · exact ⟨(s.cluster m).errQ, State.cluster_setCluster_ne _ _ _ hm⟩

theorem State.recordsOnly_logHome (s : State) (h a size kind : Nat) (w : Source) : s.recordsOnly (s.logHome h a size kind w) := by
  unfold State.logHome
  dsimp only
  split
  · exact s.recordsOnly_refl
  · split
    · exact ⟨⟨_, _, rfl⟩, fun _ => ⟨_, rfl⟩⟩
    · exact State.recordsOnly_trans (t := s.setHome h _) ⟨⟨_, _, rfl⟩, fun _ => ⟨_, rfl⟩⟩ (State.recordsOnly_record _ _ _)

theorem State.recordsOnly_dramRead (s : State) (pa n kind : Nat) (w : Source) : s.recordsOnly (s.dramRead pa n kind w).2.2 :=
  s.recordsOnly_logHome ..

theorem State.recordsOnly_walkFrom (va : Word) (level : Nat) : ∀ (s : State) (table : Nat), s.recordsOnly (s.walkFrom va level table).2 := by
  induction level with
  | zero =>
    intro s table
    have hread := s.recordsOnly_dramRead (table + 8 * bits va.toNat (levelBits 0).1 (levelBits 0).2) 8 3 s.outsider
    unfold State.walkFrom
    dsimp only
    split_ifs
    any_goals exact hread
    exact s.recordsOnly_refl
  | succ l ih =>
    intro s table
    have hread := s.recordsOnly_dramRead (table + 8 * bits va.toNat (levelBits (l + 1)).1 (levelBits (l + 1)).2) 8 3 s.outsider
    unfold State.walkFrom
    dsimp only
    split_ifs
    any_goals exact hread
    · exact s.recordsOnly_refl
    · exact State.recordsOnly_trans hread (ih ..)

end

/-! ## Requesters -/

section
variable (s : State) (page why : Nat) (r : Nat × Nat)

/-- One requester has its answer. -/
def State.tell (s : State) (page why : Nat) (r : Nat × Nat) : State := (s.walkFault page why r).touch r.1

theorem State.walkFails_eq (w : Walk) : s.walkFails w why = w.who.foldl (fun s r => s.tell w.page why r) s := rfl

theorem State.tell_frame : ∃ cs, s.tell page why r = { s with cores := cs } := by
  obtain ⟨cs, h⟩ := (s.walkFault page why r).touch_frame r.1
  refine ⟨cs, h.trans ?_⟩
  unfold State.walkFault
  dsimp only
  split <;> rfl

theorem State.thread_tell_self (h : r.2 < 16) : (s.tell page why r).thread r.1 r.2 = { s.thread r.1 r.2 with walk := some (page, why) } := by
  rw [State.tell, State.thread_touch, State.walkFault, if_pos h, State.thread_setThread_self]

theorem State.thread_tell_of_ne {m j : Nat} (h : (m, j) ≠ r) : (s.tell page why r).thread m j = s.thread m j := by
  rw [State.tell, State.thread_touch, State.walkFault]
  split
  · exact State.thread_setThread_of_ne _ _ _ _ h
  · exact s.thread_setCore_of_threads r.1 (by rfl) m j

/-- A thread that is told is as before but for what its walk gave. -/
theorem State.thread_tell (m j : Nat) : ∃ x, (s.tell page why r).thread m j = { s.thread m j with walk := x } := by
  by_cases h : (m, j) = r
  · subst h
    by_cases hj : j < 16
    · exact ⟨_, s.thread_tell_self page why (m, j) hj⟩
    · refine ⟨(s.thread m j).walk, ?_⟩
      rw [State.tell, State.thread_touch, State.walkFault, if_neg hj]
      exact s.thread_setCore_of_threads m (by rfl) m j
  · exact ⟨_, s.thread_tell_of_ne page why r h⟩

/-- Every operation of queue q of core n has the page and its fault. -/
def State.opsTold (s : State) (page why n q : Nat) : Prop := ∀ o ∈ (s.core n).ops, o.queue = q → o.walk = some (page, why)

theorem State.ops_touch (n m : Nat) : ((s.touch n).core m).ops = (s.core m).ops := by
  obtain ⟨w, h⟩ := s.core_touch n m
  rw [h]

theorem State.opsTold_tell_self (h : 16 ≤ r.2) : (s.tell page why r).opsTold page why r.1 (r.2 - 16) := by
  intro o ho hq
  rw [State.tell, State.ops_touch, State.walkFault, if_neg (by omega), State.core_setCore_self] at ho
  obtain ⟨o', -, rfl⟩ := List.mem_map.1 ho
  split at hq
  · rw [if_pos (by assumption)]
  · next hne => exact absurd hq hne

theorem State.opsTold_tell {n q : Nat} (h : s.opsTold page why n q) : (s.tell page why r).opsTold page why n q := by
  intro o ho hq
  rw [State.tell, State.ops_touch, State.walkFault] at ho
  split at ho
  · rw [State.setThread] at ho
    by_cases hn : n = r.1
    · subst hn; rw [State.core_setCore_self] at ho; exact h o ho hq
    · rw [State.core_setCore_ne _ hn] at ho; exact h o ho hq
  · by_cases hn : n = r.1
    · subst hn
      rw [State.core_setCore_self] at ho
      obtain ⟨o', ho', rfl⟩ := List.mem_map.1 ho
      split
      · rfl
      · next hne => rw [if_neg hne] at hq; exact h o' ho' hq
    · rw [State.core_setCore_ne _ hn] at ho; exact h o ho hq

theorem State.walkFails_frame (w : Walk) : ∃ cs, s.walkFails w why = { s with cores := cs } := by
  rw [State.walkFails_eq]
  refine List.foldlRecOn w.who _ (motive := fun t : State => ∃ cs, t = { s with cores := cs }) ⟨s.cores, rfl⟩ fun t ht r _ => ?_
  obtain ⟨cs, h⟩ := t.tell_frame w.page why r
  obtain ⟨cs', rfl⟩ := ht
  exact ⟨cs, h⟩

/-- All the requesters of a walk, and nobody else, have its page and fault. -/
theorem State.walkFailed_walkFails (w : Walk) : Claims.walkFailed s (s.walkFails w why) w why := by
  rw [Claims.walkFailed, State.walkFails_eq]
  refine ⟨fun r hr hslot => ?thread, fun r hr hqueue => ?ops, fun m j hne => ?others, ?dram⟩
  case thread =>
    refine foldl_reaches (pre := fun t : State => ∃ x, t.thread r.1 r.2 = { s.thread r.1 r.2 with walk := x })
      (post := fun t : State => t.thread r.1 r.2 = { s.thread r.1 r.2 with walk := some (w.page, why) }) hr ⟨_, rfl⟩
      (fun t q ht => ?_) (fun t ht => ?_) (fun t q ht => ?_)
    · obtain ⟨x, hx⟩ := ht
      obtain ⟨y, hy⟩ := t.thread_tell w.page why q r.1 r.2
      exact ⟨y, by rw [hy, hx]⟩
    · obtain ⟨x, hx⟩ := ht
      rw [State.thread_tell_self _ _ _ _ hslot, hx]
    · by_cases hq : (r.1, r.2) = q
      · subst hq; rw [State.thread_tell_self _ _ _ _ hslot, ht]
      · rw [State.thread_tell_of_ne _ _ _ _ hq, ht]
  case ops =>
    exact foldl_reaches (pre := fun _ : State => True) (post := fun t : State => t.opsTold w.page why r.1 (r.2 - 16)) hr trivial
      (fun _ _ _ => trivial) (fun t _ => t.opsTold_tell_self _ _ _ hqueue) (fun t q ht => t.opsTold_tell _ _ q ht)
  case others =>
    refine List.foldlRecOn w.who _ (motive := fun t : State => t.thread m j = s.thread m j) rfl fun t ht r hr => ?_
    rw [State.thread_tell_of_ne _ _ _ _ (fun h => hne (h ▸ hr)), ht]
  case dram =>
    obtain ⟨cs, h⟩ := s.walkFails_frame why w
    rw [State.walkFails_eq] at h
    rw [h]

end

/-- What a failed walk tells its requesters does not depend on records and homes. -/
theorem walkFailed_congr {s s' t : State} {w : Walk} {why : Nat} (hthread : ∀ m j, s'.thread m j = s.thread m j) (hdram : s'.dram = s.dram)
    (h : Claims.walkFailed s' t w why) : Claims.walkFailed s t w why := by
  obtain ⟨ht, hops, hothers, hd⟩ := h
  exact ⟨fun r hr hs => by rw [ht r hr hs, hthread], hops, fun m j hne => by rw [hothers m j hne, hthread], hd.trans hdram⟩

/-! ## How a walk ends -/

theorem mem_fillTlb {cap : Nat} (hcap : 0 < cap) (l : List TlbEntry) (e : TlbEntry) : e ∈ fillTlb cap l e := by
  unfold fillTlb
  dsimp only
  rw [List.drop_append_of_le_length (by omega)]
  exact List.mem_append_right _ (List.mem_singleton_self e)

/-- The walks of a cluster once one has ended. -/
def State.leaveWalks (s : State) (k : Nat) (ws : List Walk) : State := (s.setCluster k { s.cluster k with walks := ws }).bump

theorem State.cluster_leaveWalks (s : State) (k : Nat) (ws : List Walk) : (s.leaveWalks k ws).cluster k = { s.cluster k with walks := ws } :=
  State.cluster_setCluster_self ..

/-- An entry enters the TLB of a core. -/
def State.giveEntry (s : State) (e : TlbEntry) (r : Nat × Nat) : State :=
  (s.setCore r.1 { s.core r.1 with tlb := fillTlb 64 (s.core r.1).tlb e }).touch r.1

/-- An entry enters the TLB of a cluster. -/
def State.fillCluster (s : State) (k : Nat) (e : TlbEntry) : State :=
  s.setCluster k { s.cluster k with tlb := tblSet e.set (fillTlb 8 (tblGet [] e.set (s.cluster k).tlb) e) (s.cluster k).tlb }

section
variable {s : State} {k : Nat} {w : Walk} {j : Nat} (hpick : s.pickWalk k (fun w => !w.lost) = some (w, j)) {s1 : State}
include hpick

theorem State.serveWalk_lost (hwalk : s.walkFrom (pageVa w.page) 3 ((s.cluster k).ptroot.toNat % 2 ^ 48) = (.lost, s1)) :
    s.serveWalk k = s1.leaveWalks k ((s1.cluster k).walks.set j { w with lost := true }) := by
  simp only [State.serveWalk, hpick, hwalk]
  rfl

theorem State.serveWalk_fault {why : Nat} (hwalk : s.walkFrom (pageVa w.page) 3 ((s.cluster k).ptroot.toNat % 2 ^ 48) = (.fault why, s1)) :
    s.serveWalk k = (s1.leaveWalks k ((s1.cluster k).walks.eraseIdx j)).walkFails w why := by
  simp only [State.serveWalk, hpick, hwalk]
  rfl

theorem State.serveWalk_entry {e : TlbEntry} (hwalk : s.walkFrom (pageVa w.page) 3 ((s.cluster k).ptroot.toNat % 2 ^ 48) = (.entry e, s1)) :
    s.serveWalk k = w.who.foldl (fun s r => s.giveEntry e r) ((s1.leaveWalks k ((s1.cluster k).walks.eraseIdx j)).fillCluster k e) := by
  simp only [State.serveWalk, hpick, hwalk]
  rfl

end

theorem State.walkTimeout_eq {s : State} {k : Nat} {w : Walk} {j : Nat} (hpick : s.pickWalk k (fun _ => true) = some (w, j)) :
    s.walkTimeout k = ((s.leaveWalks k ((s.cluster k).walks.eraseIdx j)).walkFails w 5).record k
      (bareRec 44 0 (BitVec.ofNat 64 k) (pageVa w.page)) := by
  simp only [State.walkTimeout, hpick]
  rfl

/-- An entry for the requesters of a walk enters their cores' TLBs. -/
theorem State.giveEntries (s : State) (e : TlbEntry) (who : List (Nat × Nat)) : let t := who.foldl (fun s r => s.giveEntry e r) s
    (∀ r ∈ who, e ∈ (t.core r.1).tlb) ∧ (∀ m i, t.thread m i = s.thread m i) ∧ ∃ cs, t = { s with cores := cs } := by
  have htlb (t : State) (n m : Nat) : ((t.touch n).core m).tlb = (t.core m).tlb := by
    obtain ⟨w, h⟩ := t.core_touch n m
    rw [h]
  have hself (t : State) (r : Nat × Nat) : e ∈ ((t.giveEntry e r).core r.1).tlb := by
    rw [State.giveEntry, htlb, State.core_setCore_self]
    exact mem_fillTlb (by decide) _ e
  refine ⟨fun r hr => ?_, fun m i => ?_, ?_⟩
  · refine foldl_reaches (pre := fun _ : State => True) (post := fun t : State => e ∈ (t.core r.1).tlb) hr trivial (fun _ _ _ => trivial)
      (fun t _ => hself t r) (fun t q ht => ?_)
    by_cases hq : r.1 = q.1
    · rw [hq]; exact hself t q
    · rw [State.giveEntry, htlb, State.core_setCore_ne _ hq]; exact ht
  · refine List.foldlRecOn who _ (motive := fun t : State => t.thread m i = s.thread m i) rfl fun t ht r _ => ?_
    rw [State.giveEntry, State.thread_touch, State.thread_setCore_of_threads _ _ (by rfl), ht]
  · refine List.foldlRecOn who _ (motive := fun t : State => ∃ cs, t = { s with cores := cs }) ⟨s.cores, rfl⟩ fun t ht r _ => ?_
    obtain ⟨cs, rfl⟩ := ht
    exact State.touch_frame _ _

/-! ## The two parts of O49 about walks -/

/-- What a walk that was picked leaves when no answer comes, when it faults, and when it ends with an entry. -/
theorem State.serveWalk_ends {s : State} {k : Nat} {w : Walk} {j : Nat} (hpick : s.pickWalk k (fun w => !w.lost) = some (w, j)) :
    let e := (s.walkFrom (pageVa w.page) 3 ((s.cluster k).ptroot.toNat % 2 ^ 48)).1
    let t := s.serveWalk k
    (e = .lost → (t.cluster k).walks = (s.cluster k).walks.set j { w with lost := true } ∧ (∀ m i, t.thread m i = s.thread m i) ∧
      t.dram = s.dram) ∧
    (∀ why, e = .fault why → (t.cluster k).walks = (s.cluster k).walks.eraseIdx j ∧ Claims.walkFailed s t w why) ∧
    ∀ x, e = .entry x → (t.cluster k).walks = (s.cluster k).walks.eraseIdx j ∧ x ∈ tblGet [] x.set (t.cluster k).tlb ∧
      (∀ r ∈ w.who, x ∈ (t.core r.1).tlb) ∧ (∀ m i, t.thread m i = s.thread m i) ∧ t.dram = s.dram := by
  have hrec := State.recordsOnly_walkFrom (pageVa w.page) 3 s ((s.cluster k).ptroot.toNat % 2 ^ 48)
  have hrec := State.recordsOnly_walkFrom (pageVa w.page) 3 s ((s.cluster k).ptroot.toNat % 2 ^ 48)
  intro e t
  have hend : s.walkFrom (pageVa w.page) 3 ((s.cluster k).ptroot.toNat % 2 ^ 48) = (e, (s.walkFrom (pageVa w.page) 3
    ((s.cluster k).ptroot.toNat % 2 ^ 48)).2) := rfl
  generalize (s.walkFrom (pageVa w.page) 3 ((s.cluster k).ptroot.toNat % 2 ^ 48)).2 = s1 at hrec hend
  have hleft (ws : List Walk) : (∀ m i, (s1.leaveWalks k ws).thread m i = s.thread m i) ∧ (s1.leaveWalks k ws).dram = s.dram :=
    ⟨hrec.thread, hrec.dram⟩
  rw [← hrec.walks k]
  refine ⟨fun he => ?lost, fun why he => ?fault, fun x he => ?entry⟩ <;> rw [he] at hend
  case lost =>
    have ht : t = _ := State.serveWalk_lost hpick hend
    rw [ht, State.cluster_leaveWalks]
    exact ⟨rfl, hleft _⟩
  case fault =>
    have ht : t = _ := State.serveWalk_fault hpick hend
    obtain ⟨cs, hcs⟩ := (s1.leaveWalks k ((s1.cluster k).walks.eraseIdx j)).walkFails_frame why w
    obtain ⟨hthread, hdram⟩ := hleft ((s1.cluster k).walks.eraseIdx j)
    rw [ht]
    refine ⟨?_, walkFailed_congr hthread hdram (State.walkFailed_walkFails _ why w)⟩
    rw [hcs]
    exact congrArg Cluster.walks (s1.cluster_leaveWalks k _)
  case entry =>
    have ht : t = _ := State.serveWalk_entry hpick hend
    obtain ⟨hthread, hdram⟩ := hleft ((s1.cluster k).walks.eraseIdx j)
    obtain ⟨hcores, hthreads, cs, hcs⟩ := ((s1.leaveWalks k ((s1.cluster k).walks.eraseIdx j)).fillCluster k x).giveEntries x w.who
    have hcluster : (t.cluster k) = ((s1.leaveWalks k ((s1.cluster k).walks.eraseIdx j)).fillCluster k x).cluster k := by rw [ht, hcs]; rfl
    rw [State.fillCluster, State.cluster_setCluster_self] at hcluster
    rw [hcluster]
    refine ⟨congrArg Cluster.walks (s1.cluster_leaveWalks k _), ?_, by rw [ht]; exact hcores, fun m i => ?_, ?_⟩
    · rw [tblGet_tblSet_self]; exact mem_fillTlb (by decide) _ x
    · rw [ht, hthreads]; exact hthread m i
    · rw [ht, hcs]; exact hdram

theorem State.walkTimeout_ends {s : State} {k : Nat} {w : Walk} {j : Nat} (hpick : s.pickWalk k (fun _ => true) = some (w, j)) :
    ((s.walkTimeout k).cluster k).walks = (s.cluster k).walks.eraseIdx j ∧
    ((s.walkTimeout k).cluster k).errQ = (s.cluster k).errQ ++ [bareRec 44 0 (BitVec.ofNat 64 k) (pageVa w.page)] ∧
    Claims.walkFailed s (s.walkTimeout k) w 5 := by
  have hfail := (s.leaveWalks k ((s.cluster k).walks.eraseIdx j)).walkFailed_walkFails 5 w
  obtain ⟨cs, hcs⟩ := (s.leaveWalks k ((s.cluster k).walks.eraseIdx j)).walkFails_frame 5 w
  have hcluster : ((s.leaveWalks k ((s.cluster k).walks.eraseIdx j)).walkFails w 5).cluster k =
      { s.cluster k with walks := (s.cluster k).walks.eraseIdx j } := by rw [hcs]; exact s.cluster_leaveWalks k _
  rw [State.walkTimeout_eq hpick, State.cluster_record_self, hcluster]
  exact ⟨rfl, rfl, hfail⟩

theorem exec_walkRequest {s : State} {k : Nat} (h : s.clocked (2048 + k) = true) : exec (.walkRequest k) s = .next (s.serveWalk k) := by
  change execWalkRequest k s = _
  rw [execWalkRequest, if_pos h]

theorem exec_walkTimeout {s : State} (h : s.alive = true) (k : Nat) : exec (.walkTimeout k) s = .next (s.walkTimeout k) := by
  change execWalkTimeout k s = _
  rw [execWalkTimeout, if_pos h]

theorem walks : Claims.Walks := by
  intro s c
  refine ⟨fun hclock hsome => ?request, fun halive hsome => ?timeout⟩
  case request =>
    obtain ⟨w, j, hpick, hway, hlost⟩ := State.pickWalk_some (s := s) (c := c) (p := fun w => !w.lost) (by
      obtain ⟨w, j, hw, hl⟩ := hsome
      exact ⟨w, j, hw, by rw [hl]; rfl⟩)
    exact ⟨w, j, _, hway, by simpa using hlost, exec_walkRequest hclock, State.serveWalk_ends hpick⟩
  case timeout =>
    obtain ⟨v, vs, hv⟩ := List.exists_cons_of_ne_nil hsome
    obtain ⟨w, j, hpick, hway, -⟩ := State.pickWalk_some (s := s) (c := c) (p := fun _ => true)
      ⟨v, 0, ⟨by decide, by rw [hv]; rfl⟩, rfl⟩
    obtain ⟨hwalks, herr, hfail⟩ := State.walkTimeout_ends hpick
    exact ⟨w, j, _, _, hway, exec_walkTimeout halive c, hwalks, herr, rfl, rfl, rfl, hfail⟩

/-! ## The patrol scrub (R412) -/

/-- A codeword of a line is poisoned and reported. -/
def State.poisonWord (s : State) (a : Nat) : State :=
  { s with dramBad := addBad s.dramBad (granules a 32) : State }.record (homeCluster (homeOf a))
    (bareRec 17 5 (BitVec.ofNat 64 (s.scarab.pidx * 2 ^ 40 + a)) 3)

theorem State.poisonWord_frame (s : State) (a : Nat) : ∃ cl, s.poisonWord a = { s with dramBad := addBad s.dramBad (granules a 32), clusters := cl } :=
  ⟨_, rfl⟩

theorem mem_addBad {bad gs : List Nat} {g : Nat} : g ∈ addBad bad gs ↔ g ∈ bad ∨ g ∈ gs := by
  unfold addBad
  by_cases hg : g ∈ bad <;> simp [hg]

/-- What a scrub finds in a line is one of its codewords. -/
theorem State.mem_scrubbed (s : State) {l a : Nat} (h : a ∈ s.scrubbed l) : a = 64 * l ∨ a = 64 * l + 32 := by
  unfold State.scrubbed at h
  dsimp only at h
  rw [List.mem_append] at h
  split_ifs at h <;> simp at h <;> omega

theorem State.exists_scrubbed (s : State) (l : Nat) : ∃ a, a ∈ s.scrubbed l := by
  unfold State.scrubbed
  dsimp only
  by_cases h : Config.freeChoice s.tick % 3 = 0
  · exact ⟨64 * l, by rw [if_neg (by omega)]; simp⟩
  · exact ⟨64 * l + 32, by rw [if_neg h]; simp⟩

/-- Marks of codewords keep what is poisoned and recorded. -/
theorem State.poisonWord_keeps (s : State) (a : Nat) : (∀ g ∈ s.dramBad, g ∈ (s.poisonWord a).dramBad) ∧
    (∀ k r, r ∈ (s.cluster k).errQ → r ∈ ((s.poisonWord a).cluster k).errQ) := by
  refine ⟨fun g hg => mem_addBad.2 (.inl hg), fun k r hr => ?_⟩
  by_cases hk : k = homeCluster (homeOf a)
  · subst hk
    rw [State.poisonWord, State.cluster_record_self]
    exact List.mem_append_left _ hr
  · rw [State.poisonWord, State.record, State.cluster_setCluster_ne _ _ _ hk]
    exact hr

/-- A scrub that finds an uncorrectable codeword: some granule of the line is poisoned, and a record tells it. -/
theorem State.patrol_poisons (s : State) {l : Nat} (hl : 64 * l + 64 ≤ 0x7735940000) :
    (∃ g, 8 * l ≤ g ∧ g < 8 * l + 8 ∧ g ∈ (s.patrol l true).dramBad) ∧ (∀ g ∈ s.dramBad, g ∈ (s.patrol l true).dramBad) ∧
    (∃ k r, r ∈ ((s.patrol l true).cluster k).errQ ∧ r.kind = 17 ∧ r.cause = 5) ∧
    (s.patrol l true).dram = s.dram ∧ (s.patrol l true).cores = s.cores := by
  have hin : inDram (64 * l) 64 = true := by
    have h0 : 64 * l % 2 ^ 40 = 64 * l := by omega
    simp only [inDram, h0, regionOf, Bool.and_eq_true, decide_eq_true_eq]
    constructor <;> rw [if_pos (by omega)]
  have hfold : s.patrol l true = ((s.scrubbed l).foldl State.poisonWord s).bump := by
    have hlt : ¬ 2 ^ 40 ≤ 64 * l := by omega
    simp only [State.patrol, hin, hlt, Bool.not_true, decide_false, Bool.or_self, Bool.false_eq_true, if_false]
    rfl
  obtain ⟨a, ha⟩ := s.exists_scrubbed l
  have hfirst : a / 8 ∈ granules a 32 := by
    rw [granules, if_neg (by decide), List.mem_range'_1]
    omega
  rw [hfold]
  refine ⟨⟨a / 8, ?_, ?_, ?poison⟩, fun g hg => ?kept, ?recorded, ?dram, ?cores⟩
  case poison =>
    exact foldl_reaches (pre := fun _ : State => True) (post := fun t : State => a / 8 ∈ t.dramBad) ha trivial (fun _ _ _ => trivial)
      (fun t _ => mem_addBad.2 (.inr hfirst)) (fun t b h => (t.poisonWord_keeps b).1 _ h)
  case kept => exact List.foldlRecOn (s.scrubbed l) State.poisonWord (motive := fun t : State => g ∈ t.dramBad) hg fun t h b _ => (t.poisonWord_keeps b).1 _ h
  case recorded =>
    refine foldl_reaches (pre := fun _ : State => True) (post := fun t : State => ∃ k r, r ∈ (t.cluster k).errQ ∧ r.kind = 17 ∧ r.cause = 5) ha trivial
      (fun _ _ _ => trivial) (fun t _ => ⟨homeCluster (homeOf a), bareRec 17 5 (BitVec.ofNat 64 (t.scarab.pidx * 2 ^ 40 + a)) 3, ?_, rfl, rfl⟩) (fun t b h => ?_)
    · rw [State.poisonWord, State.cluster_record_self]
      exact List.mem_append_right _ (List.mem_singleton_self _)
    · obtain ⟨k, r, hr, hkind⟩ := h
      exact ⟨k, r, (t.poisonWord_keeps b).2 k r hr, hkind⟩
  case dram => exact List.foldlRecOn (s.scrubbed l) State.poisonWord (motive := fun t : State => t.dram = s.dram) rfl fun t h b _ => h
  case cores => exact List.foldlRecOn (s.scrubbed l) State.poisonWord (motive := fun t : State => t.cores = s.cores) rfl fun t h b _ => h
  all_goals
    have := s.mem_scrubbed ha
    omega

theorem exec_patrolScrub {s : State} (h : s.alive = true) (l : Nat) : exec (.patrolScrub l true) s = .next (s.patrol l true) := by
  change execPatrolScrub l true s = _
  rw [execPatrolScrub, if_pos h]

theorem exec_patrolScrub_sound (s : State) (l : Nat) : exec (.patrolScrub l false) s = .next s := by
  change execPatrolScrub l false s = _
  rw [execPatrolScrub]
  split <;> rfl

/-! ## Reports of corrected errors (R411) -/

/-- The structure stands at the place of a report. -/
def Corrected.named (c : Nat) (code : Byte) (at_ : Word) (x : Corrected) : Prop := x.cluster = c ∧ x.code = code.toNat ∧ x.last = at_

/-- Its count is not 0, and its last record is a second old. -/
def Corrected.mayReport (now : Nat) (x : Corrected) : Prop := 1 ≤ x.count ∧ ∀ w, x.wrote = some w → w + 1000000 ≤ now

theorem Corrected.due_iff (x : Corrected) (now : Nat) : x.due now = true ↔ x.mayReport now := by
  unfold Corrected.due Corrected.mayReport
  cases x.wrote with
  | none => simp [Nat.pos_iff_ne_zero, Nat.one_le_iff_ne_zero]
  | some w => simp [Nat.pos_iff_ne_zero, Nat.one_le_iff_ne_zero]

section
variable {s : State} (halive : s.alive = true) {c : Nat} {code : Byte} {at_ : Word}
include halive

theorem exec_correctedErrorReport_none (hnone : ∀ y ∈ s.corrected, y.named c code at_ → ¬ y.mayReport s.cold.time) :
    exec (.correctedErrorReport c code at_) s = .next s := by
  have hfind : s.corrected.findIdx? (fun x => decide (x.cluster = c ∧ x.code = code.toNat ∧ x.last = at_) && x.due s.cold.time) = none := by
    rw [List.findIdx?_eq_none_iff]
    intro y hy
    rw [← Bool.not_eq_true, Bool.and_eq_true, decide_eq_true_eq, Corrected.due_iff]
    exact fun h => hnone y hy h.1 h.2
  change execCorrectedErrorReport c code at_ s = _
  simp only [execCorrectedErrorReport, halive, if_true, State.correctedReport, hfind]

theorem exec_correctedErrorReport_due {j : Nat} {x : Corrected} (hx : s.corrected[j]? = some x) (hnamed : x.named c code at_)
    (hdue : x.mayReport s.cold.time) (hfirst : ∀ i < j, ∀ y, s.corrected[i]? = some y → y.named c code at_ → ¬ y.mayReport s.cold.time) :
    exec (.correctedErrorReport c code at_) s = .next
      (({ s with corrected := s.corrected.set j { x with count := 0, wrote := some s.cold.time } } : State).record c
        (bareRec 16 code.toNat at_ (BitVec.ofNat 64 x.count))) := by
  have hfind : s.corrected.findIdx? (fun x => decide (x.cluster = c ∧ x.code = code.toNat ∧ x.last = at_) && x.due s.cold.time) = some j := by
    rw [List.findIdx?_eq_some_iff_getElem]
    obtain ⟨hj, hget⟩ := List.getElem?_eq_some_iff.1 hx
    refine ⟨hj, ?_, fun i hi => ?_⟩
    · rw [hget, Bool.and_eq_true, decide_eq_true_eq, Corrected.due_iff]
      exact ⟨hnamed, hdue⟩
    · rw [Bool.and_eq_true, decide_eq_true_eq, Corrected.due_iff]
      exact fun h => hfirst i hi _ (List.getElem?_eq_getElem _) h.1 h.2
  change execCorrectedErrorReport c code at_ s = _
  simp only [execCorrectedErrorReport, halive, if_true, State.correctedReport, hfind, hx]

end

theorem homesUpkeep : Claims.HomesUpkeep := by
  intro s
  refine ⟨fun h => rfl, exec_patrolScrub_sound s, fun l halive hl => ?scrub, fun c code at_ halive => ⟨fun j x hx hnamed hdue hfirst => ?due,
    fun hnone => exec_correctedErrorReport_none halive hnone⟩⟩
  case scrub =>
    obtain ⟨hpoison, hkept, hrec, hdram, hcores⟩ := s.patrol_poisons hl
    exact ⟨_, exec_patrolScrub halive l, hdram, hpoison, hkept, hrec, hcores⟩
  case due =>
    refine ⟨_, bareRec 16 code.toNat at_ (BitVec.ofNat 64 x.count), exec_correctedErrorReport_due halive hx hnamed hdue hfirst, ?_, rfl, rfl, rfl, rfl, rfl, fun b hb => ?_, rfl, rfl⟩
    · rw [State.cluster_record_self]; rfl
    · exact State.cluster_setCluster_ne _ _ _ hb

/-- Settles O49: the three parts above. -/
theorem walksBanksAndHomes : Obligations.WalksBanksAndHomes := by
  unfold Obligations.WalksBanksAndHomes
  exact ⟨walks, bankService, homesUpkeep⟩

end Sys2Proof.Machine
end

section
/-!
What numbering, loads of descriptors and frame assignments do to the Scarab (R73, R77, R78).
-/

namespace Sys2Proof.Machine

open Sys2Proof

/-! ## What leaves the Scarab alone -/

section
variable (s : State)

theorem State.scarab_logHome (h a size kind : Nat) (w : Source) : (s.logHome h a size kind w).scarab = s.scarab := by
  obtain ⟨hs, cl, hframe⟩ := s.logHome_frame a h size kind w
  rw [hframe]

theorem State.scarab_devRead (master pa n : Nat) : (s.devRead master pa n).2.scarab = s.scarab := by
  refine List.foldlRecOn (pieces n pa n) _ (motive := fun acc : List Byte × State => acc.2.scarab = s.scarab) rfl fun acc h p _ => ?_
  have hread : (acc.2.dramRead p.1 p.2 3 acc.2.outsider).2.2.scarab = s.scarab := (acc.2.scarab_logHome ..).trans h
  dsimp only
  split
  · exact hread
  · exact h

theorem State.scarab_lockHome (x : Space) (tile : Nat) : (s.lockHome x tile).2.scarab = s.scarab := by
  unfold State.lockHome
  split
  · exact s.scarab_devRead ..
  · rfl

theorem State.scarab_lockHomes (r : SubRec) : (s.lockHomes r).2.scarab = s.scarab :=
  List.foldlRecOn r.entries _ (motive := fun acc : Tbl Nat × State => acc.2.scarab = s.scarab) rfl
    fun acc h _ _ => (acc.2.scarab_lockHome ..).trans h

theorem State.scarab_spaceHomes (x : Space) : (s.spaceHomes x).2.scarab = s.scarab :=
  List.foldlRecOn (List.range x.count) _ (motive := fun acc : List Nat × State => acc.2.scarab = s.scarab) rfl
    fun acc h _ _ => (acc.2.scarab_lockHome ..).trans h

theorem State.scarab_sDown (n i g : Nat) : (s.sDown n i g).scarab = s.scarab := by
  obtain ⟨cs, h⟩ := s.sDown_frame n i g
  rw [h]

theorem State.scarab_modLaunch (i : Nat) (f : Launch → Launch) : (s.modLaunch i f).scarab = s.scarab := by
  unfold State.modLaunch
  split <;> rfl

theorem State.scarab_pickCluster (r : SubRec) : (s.pickCluster r).2.scarab = s.scarab := by
  unfold State.pickCluster
  split
  · rfl
  · split
    · rfl
    · dsimp only
      split <;> exact s.scarab_modLaunch ..

theorem State.scarab_failRecords (x : Txn) (k : Nat) (b : Nat × Nat × Nat) : (s.failRecords x k b).2.scarab = s.scarab := by
  unfold State.failRecords
  cases x.why <;> rfl

/-- A packet that leaves changes flows and the channel alone. -/
theorem State.postFar_frame (p : Packet) : ∃ fl, s.postFar p = { s with flows := fl, chan := s.chan ++ [p] } := by
  unfold State.postFar
  split
  · exact ⟨_, rfl⟩
  · split
    · exact ⟨_, rfl⟩
    · exact ⟨_, rfl⟩

/-- Lock requests change the Scarab's ordinals alone. -/
theorem State.scarab_sendRequests (x : Txn) : ∃ o, (s.sendRequests x).scarab = { s.scarab with ords := o } := by
  refine List.foldlRecOn x.sub.entries _ (motive := fun t : State => ∃ o, t.scarab = { s.scarab with ords := o }) ⟨_, rfl⟩ fun t ht e _ => ?_
  obtain ⟨o, ho⟩ := ht
  obtain ⟨fl, hpost⟩ := (t.takeOrd (x.home e.1)).2.postFar_frame (.lockReq (x.home e.1) (t.takeOrd (x.home e.1)).1
    { seq := x.seq, entry := e.1, space := entrySpace e.2, tile := entryTile e.2, mode := entryMode e.2, granted := false, sent := false })
  dsimp only
  rw [hpost]
  refine ⟨tblSet (x.home e.1) (tblGet 0 (x.home e.1) t.scarab.ords + 1) t.scarab.ords, ?_⟩
  change ({ t.scarab with ords := _ } : Scarab) = _
  rw [ho]

/-- Enrolments change the Scarab's channels alone. -/
theorem State.scarab_enrol (l : List Nat) : ∃ ch, (l.foldl State.enrol s).scarab = { s.scarab with channels := ch } := by
  refine List.foldlRecOn l State.enrol (motive := fun t : State => ∃ ch, t.scarab = { s.scarab with channels := ch }) ⟨_, rfl⟩ fun t ht h _ => ?_
  obtain ⟨ch, hch⟩ := ht
  unfold State.enrol
  dsimp only
  split
  · exact ⟨ch, hch⟩
  · refine ⟨t.scarab.channels ++ [(h, t.scarab.batch)], ?_⟩
    change ({ t.scarab with channels := _ } : Scarab) = _
    rw [hch]

end

/-! ## Numbering (R77, R78) -/

theorem State.nextSeq_eq (s : State) : s.scarab.seqNum = Claims.nextSeq s := rfl

/-- The state in which a record from a core finds its faults. -/
def State.counted (s : State) (r : SubRec) (src : Nat × Nat × Nat) : State :=
  (State.sDown { (s.pickCluster r).2 with scarab := { (s.pickCluster r).2.scarab with pos := (s.pickCluster r).2.scarab.pos + 1 } }
    src.1 src.2.1 src.2.2).fresh.2

theorem State.scarab_counted (s : State) (r : SubRec) (src : Nat × Nat × Nat) :
    (s.counted r src).scarab = { s.scarab with pos := s.scarab.pos + 1 } := by
  refine (State.scarab_sDown ..).trans ?_
  dsimp only
  rw [s.scarab_pickCluster r]

/-- The transaction of a record, as it is numbered. -/
def State.newTxn (s : State) (r : SubRec) (src : Nat × Nat × Nat) : Txn :=
  { seq := s.scarab.seqNum, sub := r, cluster := (s.pickCluster r).1, age := (s.counted r src).nextId - 1 }

/-- One more transaction. -/
def State.addTxn (s : State) (x : Txn) : State := { s with scarab := { s.scarab with txns := s.scarab.txns ++ [x] } }

/-- A numbered record without a fault waits for a frame and its locks. -/
def State.acceptTxn (s : State) (r : SubRec) (src : Nat × Nat × Nat) : State :=
  let u := ((s.counted r src).lockHomes r).2
  let k := (s.pickCluster r).1
  let x := { s.newTxn r src with homes := ((s.counted r src).lockHomes r).1 }
  ((u.setCluster k { u.cluster k with txq := (u.cluster k).txq ++ [s.scarab.seqNum] }).addTxn x).sendRequests x

/-- A numbered record with a fault has ended. -/
def State.reject (s : State) (r : SubRec) (src : Nat × Nat × Nat) (why : Nat × Nat × Nat) : State :=
  let u := s.counted r src
  let p := u.failRecords { s.newTxn r src with failed := true, why := some why } (u.recordCluster r) (0xFFF, 0, 0)
  p.2.addTxn p.1

/-- A batch that is full seals. -/
def State.sealFull (s : State) : State := if 4096 ≤ s.scarab.pos then s.sealBatch else s

theorem State.number_of_no_fault {s : State} {r : SubRec} {src : Nat × Nat × Nat} (hsrc : r.src = some src)
    (hfault : (s.counted r src).numberFault r (s.pickCluster r).1 = none) : s.number r = (s.acceptTxn r src).sealFull := by
  unfold State.number
  rw [hsrc]
  rw [State.counted] at hfault
  dsimp only at hfault ⊢
  simp only [hfault]
  rfl

theorem State.number_of_fault {s : State} {r : SubRec} {src why : Nat × Nat × Nat} (hsrc : r.src = some src)
    (hfault : (s.counted r src).numberFault r (s.pickCluster r).1 = some why) : s.number r = (s.reject r src why).sealFull := by
  unfold State.number
  rw [hsrc]
  rw [State.counted] at hfault
  dsimp only at hfault ⊢
  simp only [hfault]
  rfl

theorem State.sealFull_of_room {s : State} (h : s.scarab.pos < 4096) : s.sealFull = s := by rw [State.sealFull, if_neg (by omega)]

/-- A record that is numbered becomes the last transaction, and the batch goes on. -/
theorem State.number_scarab {s : State} {r : SubRec} (hsrc : r.src.isSome) (hpos : s.scarab.pos + 1 < 4096) : ∃ x o,
    (s.number r).scarab = { s.scarab with pos := s.scarab.pos + 1, txns := s.scarab.txns ++ [x], ords := o } ∧
      x.seq = Claims.nextSeq s ∧ x.sub = r := by
  obtain ⟨src, hsrc⟩ := Option.isSome_iff_exists.1 hsrc
  have hcount := s.scarab_counted r src
  have hadd (u : State) (x : Txn) (h : u.scarab = (s.counted r src).scarab) :
      (u.addTxn x).scarab = { s.scarab with pos := s.scarab.pos + 1, txns := s.scarab.txns ++ [x] } := by
    rw [State.addTxn, h, hcount]
  cases hfault : (s.counted r src).numberFault r (s.pickCluster r).1 with
  | none =>
    obtain ⟨o, hsend⟩ : ∃ o, (s.acceptTxn r src).scarab = _ := State.scarab_sendRequests _ _
    rw [hadd (State.setCluster _ _ _) _ (State.scarab_lockHomes _ r)] at hsend
    rw [State.number_of_no_fault hsrc hfault, State.sealFull_of_room (by rw [hsend]; exact hpos), hsend]
    exact ⟨_, o, rfl, rfl, rfl⟩
  | some why =>
    have hreject : (s.reject r src why).scarab = _ := hadd _ _ (State.scarab_failRecords _ _ _ _)
    rw [State.number_of_fault hsrc hfault, State.sealFull_of_room (by rw [hreject]; exact hpos), hreject]
    exact ⟨_, s.scarab.ords, rfl, rfl, rfl⟩

/-- The one record that waits is the one that is numbered. -/
theorem State.numberNext_only {s : State} {r : SubRec} (h : Claims.onlyRecord s r) (hsrc : r.src.isSome) (hfree : s.namesLoading r = false) :
    s.numberNext = State.number { s.bump with scarab := { s.scarab with head := none, subs := [] } } r := by
  obtain ⟨hnext, hsubs, hhead⟩ := h
  obtain ⟨src, hsrc⟩ := Option.isSome_iff_exists.1 hsrc
  have hfetch : s.bump.fetchSub r = (r, s.bump) := by rw [State.fetchSub, hsrc]
  have hbump : s.bump.namesLoading r = false := hfree
  have hsubs' : s.bump.scarab.subs = [r] := hsubs
  simp only [State.numberNext, hhead, hnext, List.length_singleton, Nat.mod_one, List.getElem?_cons_zero, hfetch, State.numberHead, hbump,
    Bool.false_eq_true, if_false, hsubs', List.erase_cons_head]
  rfl

theorem exec_scarabNumbering {s : State} (halive : s.alive = true) (h : s.numberNext.scarab.batch = s.scarab.batch) :
    exec .scarabNumbering s = .next s.numberNext := by
  change execScarabNumbering s = _
  simp only [execScarabNumbering, halive, if_true, h]

/-! ## Seals (R78) -/

theorem exec_batchSeal {s : State} (halive : s.alive = true) (hrun : s.cold.stopped = false) (hband : s.cold.req = s.cold.band) :
    exec .batchSeal s = .next s.sealBatch := by
  have hcold : s.sealBatch.cold = s.cold := by
    refine List.foldlRecOn s.scarab.channels _ (motive := fun t : State => t.cold = s.cold) rfl fun t ht c _ => ?_
    obtain ⟨fl, hpost⟩ := (t.takeOrd c.1).2.postFar_frame (.seal c.1 (t.takeOrd c.1).1 (t.takeOrd c.1).2.scarab.pidx s.scarab.batch)
    dsimp only
    rw [hpost]
    exact ht
  change execBatchSeal s = _
  simp only [execBatchSeal, halive, if_true, State.sealTick, hrun, Bool.false_eq_true, if_false, State.bandAtSeal, hcold, hband, decide_true, Bool.or_true]

/-! ## Loads of descriptors (R73) -/

theorem tblFind_tblDel {α : Type} (k : Nat) (t : Tbl α) : tblFind k (tblDel k t) = none := by
  unfold tblDel
  induction t with
  | nil => rfl
  | cons x t ih =>
    by_cases h : x.1 = k
    · simpa [List.filter_cons, h] using ih
    · have h' : k ≠ x.1 := fun e => h e.symm
      simpa [List.filter_cons, h, tblFind, h'] using ih

/-- An aligned read of the device itself that its table allows gets the bytes of DRAM. -/
theorem State.devRead_aligned {s : State} {master a n : Nat} (hn : n ∈ pieceSizes) (ha : a % n = 0) (hmay : s.devMay master a n 0 = true) :
    (s.devRead master a n).1 = memRead (s.dramKey a) n s.dram := by
  simp only [State.devMay, pieces_aligned hn ha, List.all_cons, List.all_nil, Bool.and_true] at hmay
  simp only [State.devRead, pieces_aligned hn ha, List.foldl_cons, List.foldl_nil, hmay, if_true, List.nil_append]
  rfl

/-- A field of a descriptor. -/
def descNum (bs : List Byte) (o n : Nat) : Nat := leNat ((bs.drop o).take n)

/-- The space that a descriptor describes. -/
def spaceOf (num : Nat → Nat → Nat) : Space :=
  { vbase := BitVec.ofNat 64 (num 0 8), pbase := num 8 6, log2 := num 14 1, explicit := bit (num 15 1) 0, count := num 16 6, pmap := num 24 6 }

theorem descriptorOk_iff (bs : List Byte) : descriptorOk (descNum bs) = true ↔ Claims.descGood bs := by
  have hbit (x : Nat) : bit x 1 = true ↔ x / 2 % 2 = 1 := by simp [bit]
  have hflags (x : Nat) : x / 4 = 0 ↔ x < 4 := by omega
  unfold descriptorOk Claims.descGood
  simp only [Bool.and_eq_true, decide_eq_true_eq, hbit, hflags]
  unfold descNum
  constructor
  · rintro ⟨⟨⟨⟨⟨⟨⟨h1, h2⟩, h3⟩, h4⟩, h5⟩, h6⟩, h7⟩, h8⟩
    exact ⟨h1.1, h1.2, h2, h3, h4, h5, h6, h7, h8⟩
  · rintro ⟨h1, h1', h2, h3, h4, h5, h6, h7, h8⟩
    exact ⟨⟨⟨⟨⟨⟨⟨⟨h1, h1'⟩, h2⟩, h3⟩, h4⟩, h5⟩, h6⟩, h7⟩, h8⟩

/-- A space becomes valid: its homes are enrolled, and its load has ended. -/
def State.validate (s : State) (i : Nat) (x : Space) : State :=
  let p := State.spaceHomes { s with scarab := { s.scarab with spaces := tblSet i x s.scarab.spaces } } x
  let v := p.1.foldl State.enrol p.2
  { v with homes := v.homes.map (fun (h : Nat × Home) => (h.1, { h.2 with broken := h.2.broken.filter (fun b => decide (b.1 ≠ i)) }))
           scarab := { v.scarab with load := false, err := false } }

/-- A space becomes invalid, and ERR is set. -/
def State.dropSpace (s : State) (i : Nat) : State :=
  { s with scarab := { s.scarab with spaces := tblDel i s.scarab.spaces, load := false, err := true } }

theorem State.scarab_validate (s : State) (i : Nat) (x : Space) : ∃ ch,
    (s.validate i x).scarab = { s.scarab with spaces := tblSet i x s.scarab.spaces, channels := ch, load := false, err := false } := by
  have hhomes := State.scarab_spaceHomes { s with scarab := { s.scarab with spaces := tblSet i x s.scarab.spaces } : State } x
  unfold State.validate
  generalize State.spaceHomes { s with scarab := { s.scarab with spaces := tblSet i x s.scarab.spaces } : State } x = p at *
  obtain ⟨ch, hch⟩ := p.2.scarab_enrol p.1
  refine ⟨ch, ?_⟩
  dsimp only
  rw [hch, hhomes]

section
variable {s : State}

/-- The load reads a descriptor, and its space becomes valid or invalid. -/
theorem State.loadSpace_eq : s.loadSpace =
    let p := s.devRead 2 (s.scarab.base + 32 * s.scarab.loading) 32
    if descriptorOk (descNum p.1) then p.2.validate s.scarab.loading (spaceOf (descNum p.1)) else p.2.dropSpace s.scarab.loading := by
  dsimp only
  by_cases h : descriptorOk (descNum (s.devRead 2 (s.scarab.base + 32 * s.scarab.loading) 32).1) = true
  · rw [if_pos h]
    unfold descNum at h
    simp only [State.loadSpace, h, if_true, State.validate, spaceOf, descNum]
    rfl
  · rw [if_neg h]
    unfold descNum at h
    simp only [State.loadSpace, h, State.dropSpace]
    rfl

/-- The load ends with the space valid, or not and ERR set, as its descriptor is. -/
theorem State.loadSpace_ends (halign : s.scarab.base % 32 = 0) (hmay : s.devMay 2 (s.scarab.base + 32 * s.scarab.loading) 32 0 = true) :
    s.loadSpace.scarab.load = false ∧ (s.loadSpace.scarab.err = false ↔ Claims.descGood (Claims.descBytes s)) ∧
      ((tblFind s.scarab.loading s.loadSpace.scarab.spaces).isSome ↔ Claims.descGood (Claims.descBytes s)) := by
  have hbytes : (s.devRead 2 (s.scarab.base + 32 * s.scarab.loading) 32).1 = Claims.descBytes s :=
    State.devRead_aligned (by decide) (by omega) hmay
  rw [← descriptorOk_iff, ← hbytes, State.loadSpace_eq]
  generalize s.devRead 2 (s.scarab.base + 32 * s.scarab.loading) 32 = p
  dsimp only
  by_cases h : descriptorOk (descNum p.1) = true
  · obtain ⟨ch, hch⟩ := p.2.scarab_validate s.scarab.loading (spaceOf (descNum p.1))
    rw [if_pos h, hch]
    simp [h]
  · rw [if_neg h]
    simp [h, State.dropSpace, tblFind_tblDel]

theorem exec_tsDescriptorLoad (halive : s.alive = true) (hload : s.scarab.load = true) (hfree : s.spaceBusy s.scarab.loading = false) :
    exec .tsDescriptorLoad s = .next s.loadSpace := by
  change execTsDescriptorLoad s = _
  simp [execTsDescriptorLoad, halive, hload, hfree]

end

/-! ## Frames (R77) -/

theorem mem_rotateAfter (last : Option Nat) {l : List Nat} {n : Nat} : n ∈ rotateAfter last l ↔ n ∈ l := by
  unfold rotateAfter
  cases last with
  | none => rfl
  | some x =>
    dsimp only
    split
    · rfl
    · next j _ => rw [List.mem_append, Or.comm, ← List.mem_append, List.take_append_drop]

/-- A core fits the frame that a transaction needs. -/
def State.fits (s : State) (x : Txn) (n : Nat) : Bool :=
  decide (s.frameNeed x.sub ≤ 2 ^ (s.core n).flog) && (s.core n).freeFrame.isSome && !(s.core n).pre

/-- The one core of a cluster that fits is the one found, wherever the rotation stands. -/
theorem State.find_fits {s : State} {x : Txn} {k n f : Nat} (last : Option Nat) (hn : n ∈ s.coresOf k) (hpre : (s.core n).pre = false)
    (hneed : s.frameNeed x.sub ≤ 2 ^ (s.core n).flog) (hfree : (s.core n).freeFrame = some f)
    (hothers : ∀ m ∈ s.coresOf k, m ≠ n → (s.core m).freeFrame = none) : (rotateAfter last (s.coresOf k)).find? (s.fits x) = some n := by
  have hfits : s.fits x n = true := by simp [State.fits, hpre, hneed, hfree]
  obtain ⟨m, hm⟩ := Option.isSome_iff_exists.1 (List.find?_isSome.2 ⟨n, (mem_rotateAfter last).2 hn, hfits⟩)
  have hmem := (mem_rotateAfter last).1 (List.mem_of_find?_eq_some hm)
  have hmfits := List.find?_some hm
  by_cases h : m = n
  · rw [hm, h]
  · simp [State.fits, hothers m hmem h] at hmfits

/-- A transaction with its frame. -/
def Txn.framedAt (x : Txn) (n f : Nat) : Txn := { x with core := n, frame := f, stage := .framed }

theorem State.recordsOnly_logPort_cluster (s : State) (n a size kind : Nat) (w : Source) (k : Nat) :
    ∃ q, (s.logPort n a size kind w).cluster k = { s.cluster k with errQ := q } := by
  unfold State.logPort
  dsimp only
  split
  · exact ⟨_, rfl⟩
  · split
    · exact ⟨_, rfl⟩
    · exact (State.recordsOnly_record _ _ _).2 k

theorem State.logPort_scarab (s : State) (n a size kind : Nat) (w : Source) : (s.logPort n a size kind w).scarab = s.scarab := by
  obtain ⟨cs, cl, h⟩ := s.logPort_frame n a size kind w
  rw [h]

/-- The transaction that is found is the one that takes its place. -/
theorem State.txn_setTxn {s : State} {seq : Nat} {x y : Txn} (h : s.txn seq = some x) (hy : y.seq = seq) : (s.setTxn y).txn seq = some y := by
  unfold State.txn at h
  change (s.scarab.txns.map (fun z => if z.seq = y.seq then y else z)).find? (fun z => decide (z.seq = seq)) = some y
  generalize s.scarab.txns = l at h
  induction l with
  | nil => cases h
  | cons z l ih =>
    by_cases hz : z.seq = seq
    · simp [hz, hy]
    · rw [List.find?_cons_of_neg (by simpa using hz)] at h
      rw [List.map_cons, if_neg (by rw [hy]; exact hz), List.find?_cons_of_neg (by simpa using hz), ih h]

/-- The state of a frame's core and header before the notices go. -/
def State.takeFrame (s : State) (k n seq : Nat) (rest : List Nat) (x : Txn) : State :=
  let f := (s.core n).freeFrame.getD 0
  let base := (s.core n).frameAt f
  let slots := ((s.slotsOf x.sub).filter (fun y => decide (2 ≤ entryMode y.2.1))).map (fun y => (base + 256 + y.2.2.1, y.2.2.2))
  let u := (s.setCluster k { s.cluster k with txq := rest, lastFrameCore := some n })
  let v := u.lsHard n base (u.headerBytes (x.framedAt n f)) 0 (u.txSource x.sub)
  v.setCore n { v.core n with frames := (v.core n).frames ++ [{ index := f, seq := seq, slots := slots, dirty := [] }] }

/-- The notices of a transaction leave. -/
def State.sendNotices (s : State) (x : Txn) (seq : Nat) : State := x.sub.entries.foldl (fun s e => s.postFar (.notice (x.home e.1) seq)) s

theorem State.sendNotices_frame (s : State) (x : Txn) (seq : Nat) : ∃ fl ch, s.sendNotices x seq = { s with flows := fl, chan := ch } := by
  refine List.foldlRecOn x.sub.entries _ (motive := fun t : State => ∃ fl ch, t = { s with flows := fl, chan := ch }) ⟨_, _, rfl⟩ fun t ht e _ => ?_
  obtain ⟨fl, ch, rfl⟩ := ht
  obtain ⟨fl', h⟩ := State.postFar_frame { s with flows := fl, chan := ch } (.notice (x.home e.1) seq)
  exact ⟨fl', _, h⟩

theorem State.assignFrame_eq {s : State} {k seq n : Nat} {rest : List Nat} {x : Txn} (hq : (s.cluster k).txq = seq :: rest)
    (hx : s.txn seq = some x) (hfind : (rotateAfter (s.cluster k).lastFrameCore (s.coresOf k)).find? (s.fits x) = some n) :
    s.assignFrame k = ((((s.takeFrame k n seq rest x).setTxn (x.framedAt n ((s.core n).freeFrame.getD 0))).sendNotices x seq).touch n) := by
  unfold State.fits at hfind
  simp only [State.assignFrame, hq, hx, hfind]
  rfl

theorem State.takeFrame_scarab (s : State) (k n seq : Nat) (rest : List Nat) (x : Txn) : (s.takeFrame k n seq rest x).scarab = s.scarab :=
  State.logPort_scarab ..

theorem State.takeFrame_txq (s : State) (k n seq : Nat) (rest : List Nat) (x : Txn) : ((s.takeFrame k n seq rest x).cluster k).txq = rest := by
  unfold State.takeFrame State.lsHard
  dsimp only
  rw [State.cluster_setCore]
  generalize (s.setCluster k { s.cluster k with txq := rest, lastFrameCore := some n }).headerBytes _ = bs
  obtain ⟨q, hq⟩ := State.recordsOnly_logPort_cluster (((s.setCluster k { s.cluster k with txq := rest, lastFrameCore := some n }).setCore n _)) n
    ((s.core n).frameAt ((s.core n).freeFrame.getD 0)) bs.length 0 _ k
  rw [hq, State.cluster_setCore, State.cluster_setCluster_self]

/-- The transaction has its frame, and its cluster's queue goes on. -/
theorem State.assignFrame_frames {s : State} {k seq n f : Nat} {rest : List Nat} {x : Txn} (hq : (s.cluster k).txq = seq :: rest)
    (hx : s.txn seq = some x) (hfree : (s.core n).freeFrame = some f)
    (hfind : (rotateAfter (s.cluster k).lastFrameCore (s.coresOf k)).find? (s.fits x) = some n) :
    ((s.assignFrame k).cluster k).txq = rest ∧ (s.assignFrame k).txn seq = some (x.framedAt n f) := by
  have hseq : x.seq = seq := by simpa using List.find?_some hx
  have htx : (s.takeFrame k n seq rest x).txn seq = some x := by
    unfold State.txn at hx ⊢
    rw [State.takeFrame_scarab]
    exact hx
  have hset := State.txn_setTxn (y := x.framedAt n f) htx hseq
  have hqueue : (((s.takeFrame k n seq rest x).setTxn (x.framedAt n f)).cluster k).txq = rest := s.takeFrame_txq k n seq rest x
  rw [State.assignFrame_eq hq hx hfind, hfree, Option.getD_some]
  obtain ⟨fl, ch, hsend⟩ := ((s.takeFrame k n seq rest x).setTxn (x.framedAt n f)).sendNotices_frame x seq
  obtain ⟨cs, htouch⟩ := (((s.takeFrame k n seq rest x).setTxn (x.framedAt n f)).sendNotices x seq).touch_frame n
  rw [htouch, hsend]
  exact ⟨hqueue, hset⟩

theorem exec_frameAssignment {s : State} (halive : s.alive = true) (k : Nat) : exec (.frameAssignment k) s = .next (s.assignFrame k) := by
  change execFrameAssignment k s = _
  rw [execFrameAssignment, if_pos halive]

/-! ## Messages, bounces, contexts and arrivals of any agent -/

/-- Nothing differs but cores and flights. -/
def State.loadsOnly (s t : State) : Prop := ∃ cs fl, t = { s with cores := cs, flights := fl }

theorem State.loadsOnly_setThread {s t : State} (h : s.loadsOnly t) (n i : Nat) (u : Thread) : s.loadsOnly (t.setThread n i u) := by
  obtain ⟨cs, fl, rfl⟩ := h
  exact ⟨_, fl, rfl⟩

theorem State.loadsOnly_bumpEpoch {s t : State} (h : s.loadsOnly t) (n : Nat) : s.loadsOnly (t.bumpEpoch n) := by
  obtain ⟨cs, fl, rfl⟩ := h
  exact ⟨_, _, rfl⟩

theorem State.loadsOnly_ite {s t u : State} {c : Prop} [Decidable c] (ht : s.loadsOnly t) (hu : s.loadsOnly u) :
    s.loadsOnly (if c then t else u) := by
  split
  · exact ht
  · exact hu

theorem State.loadsOnly_completeLoad (s : State) (n i : Nat) (l : Load) : s.loadsOnly (s.completeLoad n i l) := by
  have hset (t : Thread) : s.loadsOnly (s.setThread n i t) := State.loadsOnly_setThread ⟨_, _, rfl⟩ n i t
  have hbump {c : Prop} [Decidable c] {t : State} (h : s.loadsOnly t) : s.loadsOnly (if c then t.bumpEpoch n else t) :=
    State.loadsOnly_ite (State.loadsOnly_bumpEpoch h n) h
  unfold State.completeLoad
  refine State.loadsOnly_ite (hset _) (State.loadsOnly_ite (State.loadsOnly_setThread (hbump ?_) ..) (hbump ?_))
  all_goals exact State.loadsOnly_ite (hset _) (hset _)

theorem State.loadsOnly_deliver (s : State) (n i id place : Nat) (bs : List Byte) : s.loadsOnly (s.deliver n i id place bs) := by
  unfold State.deliver
  dsimp only
  split
  · exact ⟨_, _, rfl⟩
  · split
    · exact s.loadsOnly_completeLoad n i _
    · exact State.loadsOnly_setThread ⟨_, _, rfl⟩ n i _

/-- A bounce that finds room enters its mailbox, whether it counts in S or not. -/
theorem State.bounceArrives_taken {s : State} {k n i gen : Nat} {hi b : Bool} {e : Entry} {w : Word}
    (htakes : (s.thread n i).refusesBounce gen = false) (hpre : (s.core n).pre = false) (hroom : Claims.mailRoom (s.thread n i) hi) :
    (s.bounceArrives k (n, i, gen) hi e w b).chan = s.chan.eraseIdx k ∧
    ∃ c, (s.bounceArrives k (n, i, gen) hi e w b).thread n i = { Claims.withMail (s.thread n i) hi e with cntS := c } := by
  cases b with
  | true =>
    obtain ⟨hchan, hself, -⟩ := State.bounceArrives_delivered (k := k) (e := e) (w := w) htakes hpre hroom
    exact ⟨hchan, _, hself⟩
  | false =>
    obtain ⟨cs, hframe⟩ := State.touch_frame { s with chan := s.chan.eraseIdx k } n
    have hthread := State.thread_touch { s with chan := s.chan.eraseIdx k } n
    rw [← Thread.hasRoom_iff] at hroom
    simp only [State.bounceArrives, htakes, hpre, hroom, Thread.pushEntry_eq, hthread]
    refine ⟨by rw [hframe]; rfl, _, State.thread_setThread_self ..⟩

/-- As S falls a thread keeps all but its S. -/
theorem State.thread_sDown (s : State) (n i g m j : Nat) : ∃ c, (s.sDown n i g).thread m j = { s.thread m j with cntS := c } := by
  by_cases hg : (s.thread n i).gen.toNat = g
  · rw [s.sDown_of_gen hg]
    by_cases h : (m, j) = (n, i)
    · obtain ⟨rfl, rfl⟩ := Prod.mk.inj h
      exact ⟨_, State.thread_setThread_self ..⟩
    · exact ⟨(s.thread m j).cntS, State.thread_setThread_of_ne _ _ _ _ h⟩
  · exact ⟨(s.thread m j).cntS, by simp [State.sDown, hg]⟩

theorem Thread.refusesBounce_false {t : Thread} {gen : Nat} (hbusy : t.busyTask = true) (hgen : t.gen.toNat = gen)
    (hrun : ∀ m, t.run ≠ .failing m) (hphase : ∀ p ∈ [8, 16, 17], t.phase ≠ p) : t.refusesBounce gen = false := by
  have hphase' : [8, 16, 17].contains t.phase = false := by
    rw [List.contains_eq_mem, decide_eq_false_iff_not]
    exact fun h => hphase _ h rfl
  unfold Thread.refusesBounce
  rw [hphase', hbusy, hgen]
  cases hr : t.run with
  | failing m => exact (hrun m hr).elim
  | _ => simp

/-- Some free slot is the one that an unpaired context takes. -/
theorem State.idleSlot_some {s : State} {n : Nat} (h : ∃ j < 16, (s.thread n j).run = .free) :
    ∃ i, s.idleSlot n false = some i ∧ (s.thread n i).run = .free := by
  obtain ⟨j, hj, hfree⟩ := h
  have hsome : (s.idleSlot n false).isSome := by
    unfold State.idleSlot
    rw [List.find?_isSome]
    exact ⟨j, List.mem_range.2 hj, by simp [Thread.isFree, hfree]⟩
  obtain ⟨i, hi⟩ := Option.isSome_iff_exists.1 hsome
  refine ⟨i, hi, ?_⟩
  have := List.find?_some hi
  simpa [Thread.isFree] using this

theorem coordinationEvents : Claims.CoordinationEvents := by
  intro s halive
  refine ⟨fun k src n site slot gen hi x l b hk horder hsite hmay hpre hold hroom => ?message,
    fun k n i gen hi e w b hk hold hpre hphase hroom => ?bounce, fun k e rest hq hlen htakes hpair hfree => ?context,
    fun k c u n i id hk => ?arrival, fun hload hfree halign hmay => ?descriptor, fun r honly hnames hsrc hpos _ => ?numbering,
    fun hrun hband => ⟨_, exec_batchSeal halive hrun hband, rfl, rfl⟩,
    fun k seq rest x n f hq hx hn hpre hneed hfree hothers => ?frame⟩
  case message =>
    have hreason := State.bounceReason_none (src := src) (dst := (site, slot, gen)) (hi := hi) hsite hmay (by simp [hpre]) hold hroom
    obtain ⟨v, heq, hchan, hthread⟩ := State.messageArrives_delivered x l b horder hsite hreason
    generalize hm : Claims.signed s src
      { core := (s.core src.1).lcore, slot := src.2.1, gen := src.2.2, kind := 1, reason := 0, payload := x, lnch := l, bad := b } = m at heq
    dsimp only at heq
    refine ⟨_, m, exec_messageDelivery halive hk, ?_⟩
    rw [heq]
    obtain ⟨cs, hdown⟩ := (v.setThread n slot (Claims.withMail (s.thread n slot) hi m)).sDown_frame src.1 src.2.1 src.2.2
    obtain ⟨c, hself⟩ := (v.setThread n slot (Claims.withMail (s.thread n slot) hi m)).thread_sDown src.1 src.2.1 src.2.2 n slot
    rw [State.thread_setThread_self] at hself
    refine ⟨by rw [hdown]; exact hchan, by rw [← hm]; rfl, by rw [← hm]; rfl, by rw [← hm]; rfl, by rw [← hm]; rfl, by rw [← hm]; rfl,
      fun h => ?_, fun h => ?_⟩
    · rw [hself, h]; rfl
    · rw [hself, h]; rfl
  case bounce =>
    obtain ⟨hbusy, hgen, hrun⟩ := hold
    obtain ⟨hchan, c, hself⟩ := State.bounceArrives_taken (k := k) (e := e) (w := w) (b := b)
      (Thread.refusesBounce_false hbusy hgen hrun hphase) hpre hroom
    refine ⟨s.bounceArrives k (n, i, gen) hi e w b, ?_, hchan, fun h => by rw [hself, h]; rfl, fun h => by rw [hself, h]; rfl⟩
    change execBounceReturn k s = _
    rw [execBounceReturn, hk, halive]
    rfl
  case context =>
    obtain ⟨i, hslot, hi⟩ := State.idleSlot_some hfree
    have heq := State.reload_unpaired hq hlen htakes hpair hslot
    have hself : (s.reload k).thread e.site i = e.reloaded (s.thread e.site i) := by rw [heq, State.thread_touch, State.thread_setThread_self]
    refine ⟨_, i, exec_evictedContextReload halive k, ?_, hi, by rw [hself]; rfl, by rw [hself]; rfl⟩
    rw [heq, State.cluster_touch, State.cluster_setThread, State.cluster_setCluster_self]
  case arrival =>
    dsimp only
    refine ⟨_, exec_barrierArrival halive hk, ?_⟩
    obtain ⟨cs, htouch⟩ := (s.countArrival k c u).touch_frame n
    obtain ⟨cs', fl, hdeliver⟩ := ((s.countArrival k c u).touch n).loadsOnly_deliver n i id 0 [BitVec.ofNat 8 (tblGet {} u (s.cluster c).bars).gen]
    have heq : s.barrierArrives k c u n i id = { s.countArrival k c u with cores := cs', flights := fl } := by
      refine Eq.trans ?_ (hdeliver.trans (by rw [htouch]))
      rfl
    have hbars : ((s.countArrival k c u).cluster c).bars = tblSet u (tblGet {} u (s.cluster c).bars).counted (s.cluster c).bars := by
      rw [State.countArrival, State.cluster_setCluster_self]
      rfl
    rw [heq]
    refine ⟨rfl, ?_⟩
    change tblGet {} u ((s.countArrival k c u).cluster c).bars = _
    rw [hbars, tblGet_tblSet_self]
    rfl
  case descriptor => exact ⟨_, exec_tsDescriptorLoad halive hload hfree, State.loadSpace_ends halign hmay⟩
  case numbering =>
    obtain ⟨x, o, hscarab, hseq, hsub⟩ := State.number_scarab (s := { s.bump with scarab := { s.scarab with head := none, subs := [] } }) hsrc hpos
    rw [← State.numberNext_only honly hsrc hnames] at hscarab
    exact ⟨_, x, exec_scarabNumbering halive (by rw [hscarab]), by rw [hscarab], hseq, hsub, by rw [hscarab], by rw [hscarab]⟩
  case frame =>
    have hfind := State.find_fits (s.cluster k).lastFrameCore hn hpre hneed hfree hothers
    obtain ⟨hqueue, htx⟩ := State.assignFrame_frames hq hx hfree hfind
    exact ⟨_, _, exec_frameAssignment halive k, hqueue, htx, rfl, rfl, rfl⟩

end Sys2Proof.Machine
end

section
/-!
Events of memory and of the climate of the package (R116, R119, R180, R334 to R343, R411, R412, R443 to R447).
-/

namespace Sys2Proof.Machine

open Sys2Proof

theorem memoryEvents : Claims.MemoryEvents := by
  intro s
  refine ⟨fun c w hclock hw hlost => ?walk, fun c w halive hw => ?timeout, fun n i hclock hpre hrun hloads hpend hneed => ?spill,
    fun h => rfl, fun l halive hl => ?scrub, fun c code at_ x halive hx hc hcode hat hcount hwrote => ?report⟩
  case walk =>
    obtain ⟨w', j, hpick, hway, -⟩ := State.pickWalk_some (s := s) (c := c) (p := fun w => !w.lost)
      ⟨w, 0, ⟨by decide, by rw [hw]; rfl⟩, by rw [hlost]; rfl⟩
    obtain ⟨rfl, rfl⟩ := State.underWay_single hw hway
    obtain ⟨hlostEnd, hfault, hentry⟩ := State.serveWalk_ends hpick
    rw [hw] at hlostEnd hfault hentry
    refine ⟨_, exec_walkRequest hclock, ?_⟩
    cases he : (s.walkFrom (pageVa w'.page) 3 ((s.cluster c).ptroot.toNat % 2 ^ 48)).1 with
    | lost => exact (hlostEnd he).1
    | fault why =>
      obtain ⟨hwalks, hthreads, -⟩ := hfault why he
      exact ⟨hwalks, fun r hr hslot => by rw [hthreads r hr hslot]⟩
    | entry x =>
      obtain ⟨hwalks, htlb, -⟩ := hentry x he
      exact ⟨hwalks, htlb⟩
  case timeout =>
    obtain ⟨w', j, hpick, hway, -⟩ := State.pickWalk_some (s := s) (c := c) (p := fun _ => true) ⟨w, 0, ⟨by decide, by rw [hw]; rfl⟩, rfl⟩
    obtain ⟨rfl, rfl⟩ := State.underWay_single hw hway
    obtain ⟨hwalks, herr, hthreads, -⟩ := State.walkTimeout_ends hpick
    rw [hw] at hwalks
    exact ⟨_, _, exec_walkTimeout halive c, hwalks, herr, rfl, fun r hr hslot => by rw [hthreads r hr hslot]⟩
  case spill =>
    have hnot : ∀ l ∈ (s.thread n i).loads, l.ready = 0 ∨ (s.core n).cyc < l.ready := by rw [hloads]; simp
    have hwin : (s.thread n i).windowPends (s.thread n i).resLo = false := by simp [Thread.windowPends, hpend]
    refine ⟨_, (exec_localStoreBankService hclock hpre i).2 (s.serveLocal_none n i hnot) hrun, ?_⟩
    rw [s.serveWindow_spill n i hneed hwin, State.thread_setThread_self]
  case scrub =>
    obtain ⟨⟨g, hlo, hhi, hbad⟩, -⟩ := s.patrol_poisons hl
    exact ⟨_, g, exec_patrolScrub halive l, hbad, by omega⟩
  case report =>
    have hdue : x.mayReport s.cold.time := ⟨hcount, fun w hw => by rw [hwrote] at hw; cases hw⟩
    refine ⟨_, bareRec 16 code.toNat at_ (BitVec.ofNat 64 x.count), exec_correctedErrorReport_due (j := 0) halive (by rw [hx]; rfl)
      ⟨hc, hcode, hat⟩ hdue (fun i hi => absurd hi (Nat.not_lt_zero i)), ?_, rfl, rfl, rfl, rfl⟩
    rw [State.cluster_record_self]
    rfl

/-! ## A sound sample (R336, R339, R442, R443) -/

section
variable {c : Cold} {readings : List Nat}

theorem getD_mem_or {α : Type} (l : List α) (i : Nat) (d : α) : l.getD i d ∈ l ∨ l.getD i d = d := by
  by_cases h : i < l.length
  · rw [List.getD_eq_getElem _ _ h]; exact .inl (List.getElem_mem h)
  · exact .inr (List.getD_eq_default _ _ (by omega))

/-- A sensor that has not been still for long has not been still for 999 samples with this one. -/
theorem Cold.still_short (hstuck : ∀ x ∈ c.stuck, x.1 < 900) (now : List Nat) (i : Nat) : (c.still now i).1 < 999 := by
  have hx : (c.stuck.getD i (0, [])).1 < 900 := by
    rcases getD_mem_or c.stuck i (0, []) with h | h
    · exact hstuck _ h
    · rw [h]; decide
  unfold Cold.still
  dsimp only
  split
  · exact Nat.lt_of_le_of_lt (Nat.succ_le_of_lt hx) (by decide)
  · exact (by decide : 0 < 999)

theorem foldl_max_le (l : List Nat) {b m : Nat} (hb : b ≤ m) (hl : ∀ r ∈ l, r ≤ m) : l.foldl max b ≤ m :=
  List.foldlRecOn l max (motive := fun x : Nat => x ≤ m) hb fun _ h r hr => Nat.max_le.2 ⟨h, hl r hr⟩

/-- No sensor fails by a sound sample. -/
theorem Cold.sensorFails_none (hlen : readings.length = 64) (hrange : ∀ r ∈ readings, 320 ≤ r ∧ r ≤ 5280) (hstuck : ∀ x ∈ c.stuck, x.1 < 900) {i : Nat} (hi : i < 64) : c.sensorFails readings i = none := by
  have hshort := c.still_short hstuck readings i
  obtain ⟨hlo, hhi⟩ := hrange _ (List.getElem_mem (by rw [hlen]; exact hi))
  rw [← List.getD_eq_getElem _ 0] at hlo hhi
  have hok : ¬ (readings.getD i 0 < 320 ∨ 6400 < readings.getD i 0) := by omega
  have hstill : ¬ 999 ≤ (c.still readings i).1 := by omega
  simp only [Cold.sensorFails, hok, hstill, false_and, if_false]

/-- Nor does it trip the package. -/
theorem Cold.tripBy_none (hrange : ∀ r ∈ readings, 320 ≤ r ∧ r ≤ 5280) : c.tripBy readings = none := by
  have htop : (c.inService.map (fun i => readings.getD i 0)).foldl max 0 ≤ 5280 := by
    refine foldl_max_le _ (Nat.zero_le _) fun r hr => ?_
    obtain ⟨i, -, rfl⟩ := List.mem_map.1 hr
    rcases getD_mem_or readings i 0 with h | h
    · exact (hrange _ h).2
    · rw [h]; exact Nat.zero_le _
  simp only [Cold.tripBy, Nat.not_lt.2 htop, if_false]

/-- The readings in range are 64, and what a sample takes of them is all of them. -/
theorem Cold.sample_all (c : Cold) (hlen : readings.length = 64) : c.sample readings = readings := map_getD_range hlen _

/-- A sample that no sensor fails by: the readings, their highest, and 4 µs more. -/
theorem Cold.take_sound (hlen : readings.length = 64) (hrange : ∀ r ∈ readings, 320 ≤ r ∧ r ≤ 5280) (hfailed : c.failed = []) (hstuck : ∀ x ∈ c.stuck, x.1 < 900) : (c.take readings).temps = readings ∧
    (c.take readings).tmax = Claims.hottest readings ∧ (c.take readings).time = c.time + 4 := by
  have hnew : c.inService.filter (fun i => (c.sensorFails readings i).isSome) = [] := by
    rw [List.filter_eq_nil_iff]
    intro i hi
    rw [Cold.sensorFails_none hlen hrange hstuck (List.mem_range.1 (List.mem_of_mem_filter hi))]
    exact Bool.false_ne_true
  obtain ⟨i, hi, hmax⟩ := Cold.hottest_of_all { c with time := c.time + 4, powerTime := c.powerTime + 4, stuck := (List.range 64).map (c.still readings)
                                                       failed := [], temps := readings } rfl hlen
  simp only [Cold.take, hnew, hfailed, List.append_nil, hi]
  exact ⟨trivial, hmax, trivial⟩

end

/-- What a state's sensors last read is the same in another. -/
def State.sameSample (s t : State) : Prop := t.cold.temps = s.cold.temps ∧ t.cold.tmax = s.cold.tmax ∧ t.cold.time = s.cold.time

theorem State.sameSample_trans {s t u : State} (h : s.sameSample t) (h' : t.sameSample u) : s.sameSample u := by
  obtain ⟨h1, h2, h3⟩ := h
  obtain ⟨h1', h2', h3'⟩ := h'
  exact ⟨h1'.trans h1, h2'.trans h2, h3'.trans h3⟩

theorem State.sameSample_rampCheck (s : State) : s.sameSample s.rampCheck := by
  unfold State.rampCheck
  dsimp only
  split
  · split <;> exact ⟨rfl, rfl, rfl⟩
  · exact ⟨rfl, rfl, rfl⟩

theorem State.sameSample_rampStop (s : State) : s.sameSample s.rampStop := ⟨rfl, rfl, rfl⟩

/-- The band that is called for, and what EXCURSION that begins, leave the sample. -/
theorem State.sampleSensors_sound {s : State} {readings : List Nat} (h : Claims.soundSample s readings) :
    (s.sampleSensors readings).cold.temps = readings ∧ (s.sampleSensors readings).cold.tmax = Claims.hottest readings ∧
      (s.sampleSensors readings).cold.time = s.cold.time + 4 := by
  obtain ⟨hfailed, hlen, hrange, hstuck⟩ := h
  obtain ⟨htemps, hmax, htime⟩ := Cold.take_sound hlen hrange hfailed hstuck
  have hnone : s.cold.inService.filterMap (fun i => (s.cold.sensorFails readings i).map (fun why => (i, why))) = [] := by
    rw [List.filterMap_eq_nil_iff]
    intro i hi
    rw [Cold.sensorFails_none hlen hrange hstuck (List.mem_range.1 (List.mem_of_mem_filter hi))]
    rfl
  have hlast (u : State) (hu : u.cold.temps = readings ∧ u.cold.tmax = Claims.hottest readings ∧ u.cold.time = s.cold.time + 4) :
      u.rampCheck.rampStop.cold.temps = readings ∧ u.rampCheck.rampStop.cold.tmax = Claims.hottest readings ∧
        u.rampCheck.rampStop.cold.time = s.cold.time + 4 := by
    obtain ⟨h1, h2, h3⟩ := State.sameSample_trans u.sameSample_rampCheck u.rampCheck.sameSample_rampStop
    rw [h1, h2, h3]
    exact hu
  unfold State.sampleSensors
  simp only [s.cold.sample_all hlen, Cold.tripBy_none hrange, hnone, List.foldl_nil]
  apply hlast
  split
  · split <;> exact ⟨htemps, hmax, htime⟩
  · exact ⟨htemps, hmax, htime⟩

theorem exec_sensorSample {s : State} (h : s.on = true) (readings : List Nat) : exec (.sensorSample readings) s = .next (s.sampleSensors readings) := by
  change execSensorSample readings s = _
  rw [execSensorSample, if_pos h]

/-! ## Timers, clocks and the Molt (R336, R338, R340, R444) -/

theorem exec_bandFallTimer {s : State} {a : Nat} (hon : s.on = true) (hfall : s.cold.fallFrom = some a) (hband : s.cold.band = 1)
    (hreq : s.cold.req = 1) (hlong : a + 10000000 ≤ s.cold.time) : exec .bandFallTimer s = .next { s with cold := { s.cold with req := 0 } } := by
  change execBandFallTimer s = _
  simp only [execBandFallTimer, hon, if_true, State.fallTimer, hfall, hband, hreq, hlong, and_self]

/-- The clocks run again in the band that they stopped for. -/
theorem State.restartClocks_cold {s : State} (h : s.cold.stopped = true) :
    s.restartClocks.cold.stopped = false ∧ s.restartClocks.cold.band = s.cold.nextBand := by
  unfold State.restartClocks
  simp only [h, Bool.not_true, Bool.false_eq_true, if_false]
  split <;> exact ⟨rfl, rfl⟩

theorem exec_clockRestart {s : State} (h : s.alive = true) : exec .clockRestart s = .next s.restartClocks := by
  change execClockRestart s = _
  rw [execClockRestart, if_pos h]

/-- COOLING ends once it is cool. -/
theorem exec_moltTransition_cooled {s : State} (hon : s.on = true) (hramp : s.cold.ramping = false) (hheld : s.cold.cmdHeld = 0)
    (hmolt : s.cold.molt = .cooling) (hcool : s.cold.tmax ≤ 1424) : exec .moltTransition s = .next (s.enterMolt .soak) := by
  change execMoltTransition s = _
  simp [execMoltTransition, hon, State.moltStep, hramp, hheld, hmolt, hcool]

/-- A soak of 120 s makes the package ready. -/
theorem exec_soakComplete_ready {s : State} {a : Nat} (hon : s.on = true) (hmolt : s.cold.molt = .soak) (hsoak : s.cold.soakFrom = some a)
    (htrain : s.cold.trainDead = false) (hramp : s.cold.ramping = false) (hband : s.cold.band = 0) (hwarm : s.cold.warmHeld = false)
    (hlong : a + 120000000 ≤ s.cold.time) : exec (.soakComplete none) s = .next (s.enterMolt .coldReady) := by
  have htime : ¬ s.cold.time < a + 120000000 := by omega
  change execSoakComplete none s = _
  simp [execSoakComplete, hon, State.soakEnds, hmolt, hsoak, htrain, hramp, hband, htime, State.coldReady, hwarm]

/-- WARMING that has lasted its three hours writes a record. -/
theorem exec_moltLimitExpiry_warming {s : State} (hon : s.on = true) (hmolt : s.cold.molt = .warming) (hlim : s.cold.limited = false)
    (hlong : 10800 ≤ (s.cold.time - s.cold.entered) / 1000000) : exec .moltLimitExpiry s = .next (State.edgeRec
      { s with cold := { s.cold with limited := true } } false 41 0 (BitVec.ofNat 64 Molt.warming.code)
      (BitVec.ofNat 64 ((s.cold.time - s.cold.entered) / 1000000))) := by
  have hsec : ¬ (s.cold.time - s.cold.entered) / 1000000 < 10800 := by omega
  change execMoltLimitExpiry s = _
  simp [execMoltLimitExpiry, hon, State.moltLimit, hmolt, Molt.limit, hlim, hsec]

theorem climateEvents : Claims.ClimateEvents := by
  intro s readings
  refine ⟨fun hon hsound => ⟨_, exec_sensorSample hon readings, State.sampleSensors_sound hsound⟩,
    fun a hon hfall hband hreq hlong => ⟨_, exec_bandFallTimer hon hfall hband hreq hlong, rfl⟩,
    fun halive hstop => ⟨_, exec_clockRestart halive, State.restartClocks_cold hstop⟩,
    fun hon hramp hheld hmolt hcool => ⟨_, exec_moltTransition_cooled hon hramp hheld hmolt hcool, rfl, rfl⟩,
    fun a hon hmolt hsoak htrain hramp hband hwarm hlong => ⟨_, exec_soakComplete_ready hon hmolt hsoak htrain hramp hband hwarm hlong, rfl⟩,
    fun hon hmolt hlim hlong => ?limit, fun hoff => ⟨_, exec_powerOn hoff readings, rfl, rfl, rfl, rfl⟩,
    fun hon => ⟨_, exec_packageReset hon readings, rfl, rfl, rfl, rfl⟩, ⟨_, rfl, rfl, rfl⟩, fun halive hpowered => ?unit,
    fun n halive hn hcount => ?governor, fun b hon => ⟨_, exec_packagePowerCap hon b, rfl⟩⟩
  case limit =>
    have hq := State.cluster_record_self { s with cold := { s.cold with limited := true } } 0
      { bareRec 41 0 (BitVec.ofNat 64 Molt.warming.code) (BitVec.ofNat 64 ((s.cold.time - s.cold.entered) / 1000000)) with cyc := 0 }
    exact ⟨_, _, exec_moltLimitExpiry_warming hon hmolt hlim hlong, rfl, congrArg Cluster.errQ hq, rfl⟩
  case unit => exact ⟨_, exec_unitPowerUp halive, by rw [State.powerUnit_unit hpowered]⟩
  case governor =>
    refine ⟨_, exec_governorTick halive hn 0, ?_⟩
    rw [State.govTick_calms (by omega), State.core_setCore_self]
    exact ⟨by simp [Core.withGov, Gov.calmed, hcount], rfl⟩

/-- Settles O60: the three parts above. -/
theorem eventsTakePlace : Obligations.EventsTakePlace := by
  unfold Obligations.EventsTakePlace
  exact ⟨coordinationEvents, memoryEvents, climateEvents⟩

end Sys2Proof.Machine
end

section
/-!
Comparators, error queues and the core watchdog (R64, R369, R370, R375).
-/

namespace Sys2Proof.Machine

open Sys2Proof

/-! ## Threads that begin to fail (R364, R370) -/

/-- What a failure notes of its thread (R368). -/
def State.noted (s : State) (n i : Nat) (f : FailInfo) : FailInfo := { f with wid := (s.thread n i).wid, cyc := (s.core n).cyc }

section
variable {s : State} {n i : Nat} (f : FailInfo)

theorem State.failThread_single (hpair : (s.thread n i).pair = 0) (hrun : (s.thread n i).run ≠ .halted) :
    s.failThread n i f = s.setThread n i ((s.thread n i).failWith (s.noted n i f)) := by
  simp only [State.failThread, hpair, hrun, if_false]
  rfl

/-- The leading thread of a pair fails with its partner. -/
theorem State.failThread_leading (hpair : (s.thread n i).pair = 1) (hrun : (s.thread n i).run ≠ .halted)
    (hrun' : (s.thread n (i + 8)).run ≠ .halted) : ∃ f', s.failThread n i f =
      (s.setThread n i ((s.thread n i).failWith (s.noted n i f))).setThread n (i + 8) ((s.thread n (i + 8)).failWith f') := by
  have hne : (n, i + 8) ≠ (n, i) := by simp
  have hpartner (t : Thread) : (s.setThread n i t).thread n (i + 8) = s.thread n (i + 8) := State.thread_setThread_of_ne _ _ _ _ hne
  refine ⟨{ f with queued := true, wid := (s.thread n (i + 8)).wid
                   cyc := ((s.setThread n i ((s.thread n i).failWith (s.noted n i f))).core n).cyc }, ?_⟩
  simp only [State.failThread, hpair, hrun, hrun', hpartner, if_false]
  rfl

end

/-! ## The comparator (R64) -/

theorem exec_pairCompare {s : State} {n : Nat} (h : s.clocked n = true) (i : Nat) : exec (.pairCompare n i) s = .next (s.comparePair n i) := by
  change execPairCompare n i s = _
  rw [execPairCompare, if_pos h]

theorem pairsCompare : Claims.PairsCompare := by
  intro s n i e f hclock hlead htrail he hf hgo hrun hrun'
  have hne : (n, i) ≠ (n, i + 8) := by simp
  refine ⟨fun htrap hkey => ?equal, fun hdiff => ?unequal⟩
  case equal =>
    have heq : s.comparePair n i = (s.setThread n i { s.thread n i with cmp := some { e with go := true } }).setThread n (i + 8)
        { s.thread n (i + 8) with cmp := some { f with go := f.trap.isSome } } := by
      simp [State.comparePair, hlead, htrail, he, hf, hgo, htrap, hkey]
    refine ⟨_, exec_pairCompare hclock i, ?_, ?_, fun m j h h' => ?_⟩
    · rw [heq, State.thread_setThread_of_ne _ _ _ _ hne, State.thread_setThread_self]
    · rw [heq, State.thread_setThread_self]
    · rw [heq, State.thread_setThread_of_ne _ _ _ _ h', State.thread_setThread_of_ne _ _ _ _ h]
  case unequal =>
    have hno : ¬ (e.trap = f.trap ∧ e.key = f.key) := fun h => hdiff.elim (· h.1) (· h.2)
    have heq : s.comparePair n i = s.failThread n i
        { cause := 4, pc := (s.thread n i).pc, val1 := e.shown f, val2 := f.shown e, pre := false, queued := false } := by
      simp only [State.comparePair, hlead, htrail, he, hf, hgo, hno]
      simp
    obtain ⟨f', hfail⟩ := State.failThread_leading
      { cause := 4, pc := (s.thread n i).pc, val1 := e.shown f, val2 := f.shown e, pre := false, queued := false } hlead hrun hrun'
    rw [hfail] at heq
    refine ⟨_, s.noted n i { cause := 4, pc := (s.thread n i).pc, val1 := e.shown f, val2 := f.shown e, pre := false, queued := false },
      exec_pairCompare hclock i, ?_, ?_, ?_, rfl, rfl, fun m j h h' => ?_⟩
    · rw [heq, State.thread_setThread_of_ne _ _ _ _ hne, State.thread_setThread_self]; rfl
    · rw [heq, State.thread_setThread_self]; rfl
    · rw [heq, State.thread_setThread_of_ne _ _ _ _ hne, State.thread_setThread_self]; rfl
    · rw [heq, State.thread_setThread_of_ne _ _ _ _ h', State.thread_setThread_of_ne _ _ _ _ h]

/-! ## The error queue (R369) -/

theorem State.logHome_silent (s : State) {h : Nat} (hoff : (s.home h).ring.en = false) (a size kind : Nat) (w : Source) :
    s.logHome h a size kind w = s := by
  simp [State.logHome, hoff]

/-- While no ring of a home is on, a write of the device itself changes DRAM alone. -/
theorem State.devWrite_silent (s : State) {a master : Nat} {bs : List Byte} (hn : bs.length ∈ pieceSizes) (ha : a % bs.length = 0)
    (hoff : ∀ h, (s.home h).ring.en = false) : ∃ dr db, s.devWrite master a bs = { s with dram := dr, dramBad := db } := by
  rw [State.devWrite_aligned s a master hn ha]
  split
  · rw [State.dramWrite, State.logHome_silent _ (by exact hoff _)]
    exact ⟨_, _, rfl⟩
  · exact ⟨_, _, rfl⟩

theorem exec_errorRecordWrite {s : State} (h : s.alive = true) (k : Nat) : exec (.errorRecordWrite k) s = .next (s.writeRecord k) := by
  change execErrorRecordWrite k s = _
  rw [execErrorRecordWrite, if_pos h]

theorem State.writeRecord_full {s : State} {k : Nat} (h : (s.cluster k).errHead + 64 ≤ (s.cluster k).errTail) : s.writeRecord k = s := by
  have hfull : (s.cluster k).errFull = true := by simp [Cluster.errFull, h]
  unfold State.writeRecord
  dsimp only
  split
  · rfl
  · rw [hfull]; rfl

/-- While no ring of a home is on, a record that is written changes its cluster and DRAM alone. -/
theorem State.writeRecord_silent {s : State} {k : Nat} {r : ErrRec} {rest : List ErrRec} (hq : (s.cluster k).errQ = r :: rest)
    (hroom : (s.cluster k).errTail < (s.cluster k).errHead + 64) (hmay : s.devMay 1 (s.errSlot k) 64 1 = true)
    (hoff : ∀ h, (s.home h).ring.en = false) :
    ((s.writeRecord k).cluster k) = { s.cluster k with errQ := rest, errTail := (s.cluster k).errTail + 1 } ∧ (s.writeRecord k).cores = s.cores := by
  have hmod := s.errQueue_mod k
  have hslot := s.errSlot_mod k
  rw [s.writeRecord_of_room k hq hroom hmay]
  obtain ⟨dr, db, hfirst⟩ := s.devWrite_silent (a := s.errSlot k) (master := 1) (bs := r.bytes) (by simp [pieceSizes]) (by simp [hslot]) hoff
  rw [hfirst]
  obtain ⟨dr', db', hsecond⟩ := State.devWrite_silent (State.setCluster { s with dram := dr, dramBad := db } k
    ((State.cluster { s with dram := dr, dramBad := db } k).wroteRecord (s.cluster k).errTail)) (a := s.errQueue k + 0x1000) (master := 1)
    (bs := leBytes 8 ((s.cluster k).errTail + 1)) (by simp [pieceSizes]) (by simp; omega) hoff
  rw [hsecond]
  refine ⟨?_, rfl⟩
  refine (State.cluster_setCluster_self ..).trans ?_
  rw [Cluster.wroteRecord, show (State.cluster { s with dram := dr, dramBad := db } k) = s.cluster k from rfl, hq]
  rfl

/-- An aligned read of the device itself that its table allows changes homes and records alone. -/
theorem State.recordsOnly_devRead {s : State} {master a n : Nat} (hn : n ∈ pieceSizes) (ha : a % n = 0) (hmay : s.devMay master a n 0 = true) :
    s.recordsOnly (s.devRead master a n).2 := by
  simp only [State.devMay, pieces_aligned hn ha, List.all_cons, List.all_nil, Bool.and_true] at hmay
  simp only [State.devRead, pieces_aligned hn ha, List.foldl_cons, List.foldl_nil, hmay, if_true]
  exact s.recordsOnly_dramRead ..

theorem State.recordsOnly.cores {s t : State} (h : s.recordsOnly t) : t.cores = s.cores := by
  obtain ⟨⟨_, _, rfl⟩, -⟩ := h
  rfl

/-- A cluster notes a HEAD that was read; a read changes homes and records alone. -/
theorem State.noteHead {s t : State} (h : s.recordsOnly t) (k v : Nat) : let u := t.setCluster k { t.cluster k with errHead := v }
    (u.cluster k).errHead = v ∧ (u.cluster k).errTail = (s.cluster k).errTail ∧ u.dram = s.dram ∧ u.cores = s.cores := by
  obtain ⟨q, hq⟩ := h.2 k
  dsimp only
  rw [State.cluster_setCluster_self, hq]
  exact ⟨rfl, rfl, h.dram, h.cores⟩

/-- A full queue's HEAD is read. -/
theorem State.pollHead_full {s : State} {k : Nat} (hfull : (s.cluster k).errHead + 64 ≤ (s.cluster k).errTail)
    (hmay : s.devMay 1 (s.errQueue k + 0x1008) 8 0 = true) :
    ((s.pollHead k).cluster k).errHead = memNum (s.dramKey (s.errQueue k + 0x1008)) 8 s.dram ∧
      ((s.pollHead k).cluster k).errTail = (s.cluster k).errTail ∧ (s.pollHead k).dram = s.dram ∧ (s.pollHead k).cores = s.cores := by
  have hmod := s.errQueue_mod k
  have hfull' : (s.cluster k).errFull = true := by simp [Cluster.errFull, hfull]
  unfold State.pollHead
  rw [hfull', hmay, Bool.and_self, if_pos rfl]
  have halign : (s.errQueue k + 0x1008) % 8 = 0 := by omega
  generalize s.errQueue k + 0x1008 = a at *
  have hbytes := State.devRead_aligned (by decide) halign hmay
  have hrec := State.recordsOnly_devRead (by decide) halign hmay
  rw [memNum, ← hbytes]
  generalize s.devRead 1 a 8 = p at hrec ⊢
  obtain ⟨bs, u⟩ := p
  exact State.noteHead hrec k _

theorem exec_errorQueueHeadPoll {s : State} (h : s.alive = true) (k : Nat) : exec (.errorQueueHeadPoll k) s = .next (s.pollHead k) := by
  change execErrorQueueHeadPoll k s = _
  rw [execErrorQueueHeadPoll, if_pos h]

/-! ## The watchdog (R375) -/

/-- A slot that is stalled on a queue register fails. -/
def State.failStuck (s : State) (n : Nat) (x : Nat × Thread) : State :=
  match (s.thread n x.1).run with
  | .stalled => s.failThread n x.1 { cause := 5, pc := x.2.pc, val1 := BitVec.ofNat 64 ((x.2.qblock.getD (0, false)).1 % 4 +
      4 * b2n (x.2.qblock.getD (0, false)).2), val2 := 0, pre := false, queued := false }
  | _ => s

/-- The watchdog's record (R375). -/
def Core.stuckRecord (c : Core) : ErrRec :=
  { bareRec 6 0 (BitVec.ofNat 64 (((c.threads.filter (fun x => x.2.queueStalled)).map (fun x => 2 ^ x.1)).sum))
      (BitVec.ofNat 64 (((List.range 4).map (fun q => (c.queue q).items.length * 2 ^ (8 * q))).sum)) with core := c.lcore, cyc := c.cyc }

/-- The state once every blocked thread has failed. -/
def State.failAllStuck (s : State) (n : Nat) : State :=
  ((s.core n).threads.filter (fun x => x.2.queueStalled)).foldl (fun s x => s.failStuck n x) (s.record (clusterOf n) (s.core n).stuckRecord)

theorem State.watchdog_expired {s : State} {n : Nat} (h : 0x100000 ≤ (s.core n).wdog) :
    s.watchdog n = (s.failAllStuck n).setCore n { (s.failAllStuck n).core n with hwq := [], wdog := 0 } := by
  unfold State.watchdog
  rw [if_neg (by omega)]
  rfl

/-- No thread of a core is of a pair. -/
def State.unpaired (s : State) (n : Nat) : Prop := ∀ j, (s.thread n j).pair = 0

/-- The failure of a slot that is stalled on a queue register. -/
def stuckInfo (x : Nat × Thread) : FailInfo :=
  { cause := 5, pc := x.2.pc, val1 := BitVec.ofNat 64 ((x.2.qblock.getD (0, false)).1 % 4 + 4 * b2n (x.2.qblock.getD (0, false)).2), val2 := 0
    pre := false, queued := false }

section
variable {s : State} {n : Nat}

theorem State.failStuck_stalled (hsingle : s.unpaired n) {x : Nat × Thread} (hrun : (s.thread n x.1).run = .stalled) :
    s.failStuck n x = s.setThread n x.1 ((s.thread n x.1).failWith (s.noted n x.1 (stuckInfo x))) := by
  unfold State.failStuck
  rw [hrun]
  exact State.failThread_single _ (hsingle x.1) (by rw [hrun]; exact Run.noConfusion)

theorem State.failStuck_other {x : Nat × Thread} (hrun : (s.thread n x.1).run ≠ .stalled) : s.failStuck n x = s := by
  unfold State.failStuck
  split
  · next h => exact absurd h hrun
  · rfl

/-- The threads apart, a blocked slot's failure changes nothing; other threads stay, and none becomes one of a pair. -/
theorem State.failStuck_frame (hsingle : s.unpaired n) (x : Nat × Thread) : (∃ cs, s.failStuck n x = { s with cores := cs }) ∧
    (s.failStuck n x).unpaired n ∧ (∀ m j, (m, j) ≠ (n, x.1) → (s.failStuck n x).thread m j = s.thread m j) ∧
    ∀ m, m ≠ n → (s.failStuck n x).core m = s.core m := by
  by_cases hrun : (s.thread n x.1).run = .stalled
  · rw [State.failStuck_stalled hsingle hrun]
    refine ⟨⟨_, rfl⟩, fun j => ?_, fun m j h => State.thread_setThread_of_ne _ _ _ _ h, fun m hm => State.core_setCore_ne _ hm _⟩
    by_cases hj : j = x.1
    · rw [hj, State.thread_setThread_self]; exact hsingle x.1
    · rw [State.thread_setThread_of_ne _ _ _ _ (fun h => hj (Prod.mk.inj h).2)]; exact hsingle j
  · rw [State.failStuck_other hrun]
    exact ⟨⟨_, rfl⟩, hsingle, fun _ _ _ => rfl, fun _ _ => rfl⟩

/-- A thread that the watchdog has failed. -/
def Thread.timedOut (t : Thread) : Prop := t.run = .failing 1 ∧ ∃ f, t.fail = some f ∧ f.cause = 5

theorem State.failStuck_keeps (hsingle : s.unpaired n) (x : Nat × Thread) {j : Nat} (h : (s.thread n j).timedOut) :
    ((s.failStuck n x).thread n j).timedOut := by
  by_cases hj : (n, j) = (n, x.1)
  · have hrun : (s.thread n x.1).run ≠ .stalled := by
      rw [← (Prod.mk.inj hj).2, h.1]
      exact Run.noConfusion
    rw [State.failStuck_other hrun]
    exact h
  · rw [(State.failStuck_frame hsingle x).2.2.1 n j hj]
    exact h

theorem State.failStuck_self (hsingle : s.unpaired n) {x : Nat × Thread} (hrun : (s.thread n x.1).run = .stalled) :
    ((s.failStuck n x).thread n x.1).timedOut := by
  rw [State.failStuck_stalled hsingle hrun, State.thread_setThread_self]
  exact ⟨rfl, _, rfl, rfl⟩

end

/-- A thread of a core is in its table, or it is the free one. -/
theorem Core.thread_mem (c : Core) (i : Nat) : (i, c.thread i) ∈ c.threads ∨ c.thread i = {} := by
  unfold Core.thread tblGet
  induction c.threads with
  | nil => exact .inr rfl
  | cons x l ih =>
    by_cases h : i = x.1
    · subst h; simp [tblFind]
    · simp only [tblFind, h, if_false, List.mem_cons]
      exact ih.imp_left .inr

theorem Core.thread_of_mem (c : Core) (h : (c.threads.map (·.1)).Nodup) {x : Nat × Thread} (hx : x ∈ c.threads) : c.thread x.1 = x.2 := by
  unfold Core.thread tblGet
  generalize c.threads = l at *
  induction l with
  | nil => cases hx
  | cons y l ih =>
    rw [List.map_cons, List.nodup_cons] at h
    rcases List.mem_cons.1 hx with rfl | hx
    · simp [tblFind]
    · have hne : x.1 ≠ y.1 := fun e => h.1 (e ▸ List.mem_map_of_mem hx)
      simp only [tblFind, hne, if_false]
      exact ih h.2 hx

theorem Thread.stalled_of_queueStalled {t : Thread} (h : t.queueStalled = true) : t.run = .stalled := by
  unfold Thread.queueStalled at h
  cases hr : t.run <;> simp [hr] at h ⊢

section
variable {s : State} {n : Nat} (hsingle : s.unpaired n)
include hsingle

/-- What the failures of a core's blocked threads leave. -/
theorem State.failAllStuck_frame : (∃ cs, s.failAllStuck n = { s.record (clusterOf n) (s.core n).stuckRecord with cores := cs }) ∧
    (s.failAllStuck n).unpaired n ∧ ∀ m, m ≠ n → (s.failAllStuck n).core m = s.core m := by
  refine List.foldlRecOn ((s.core n).threads.filter (fun x => x.2.queueStalled)) _ (motive := fun t : State =>
    (∃ cs, t = { s.record (clusterOf n) (s.core n).stuckRecord with cores := cs }) ∧ t.unpaired n ∧ ∀ m, m ≠ n → t.core m = s.core m)
    ⟨⟨_, rfl⟩, hsingle, fun _ _ => rfl⟩ fun t ⟨⟨cs, hcs⟩, ht, hcore⟩ x _ => ?_
  obtain ⟨⟨cs', hframe⟩, hpair, -, hother⟩ := State.failStuck_frame ht x
  exact ⟨⟨cs', by rw [hframe, hcs]⟩, hpair, fun m hm => (hother m hm).trans (hcore m hm)⟩

theorem State.failAllStuck_stalled {i : Nat} (hi : (s.thread n i).queueStalled = true) : ((s.failAllStuck n).thread n i).timedOut := by
  have hrun := Thread.stalled_of_queueStalled hi
  have hmem : (i, s.thread n i) ∈ (s.core n).threads.filter (fun x => x.2.queueStalled) := by
    refine List.mem_filter.2 ⟨?_, hi⟩
    rcases (s.core n).thread_mem i with h | h
    · exact h
    · have hfree : s.thread n i = {} := h
      rw [hfree] at hrun
      cases hrun
  have hpre (t : State) (x : Nat × Thread) (h : t.unpaired n ∧ ((t.thread n i).run = .stalled ∨ (t.thread n i).timedOut)) :
      (t.failStuck n x).unpaired n ∧ (((t.failStuck n x).thread n i).run = .stalled ∨ ((t.failStuck n x).thread n i).timedOut) := by
    obtain ⟨ht, hcase⟩ := h
    refine ⟨(State.failStuck_frame ht x).2.1, ?_⟩
    by_cases hx : x.1 = i
    · rcases hcase with hst | hout
      · subst hx; exact .inr (State.failStuck_self ht hst)
      · exact .inr (State.failStuck_keeps ht x hout)
    · rw [(State.failStuck_frame ht x).2.2.1 n i (fun h => hx (Prod.mk.inj h).2.symm)]
      exact hcase
  suffices h : (s.failAllStuck n).unpaired n ∧ ((s.failAllStuck n).thread n i).timedOut from h.2
  refine foldl_reaches (pre := fun t : State => t.unpaired n ∧ ((t.thread n i).run = .stalled ∨ (t.thread n i).timedOut))
    (post := fun t : State => t.unpaired n ∧ (t.thread n i).timedOut) hmem ⟨hsingle, .inl hrun⟩ hpre (fun t h => ?_) (fun t x h => ?_)
  · refine ⟨(hpre t _ h).1, ?_⟩
    rcases h.2 with hst | hout
    · exact State.failStuck_self (x := (i, s.thread n i)) h.1 hst
    · exact State.failStuck_keeps h.1 _ hout
  · exact ⟨(State.failStuck_frame h.1 x).2.1, State.failStuck_keeps h.1 x h.2⟩

theorem State.failAllStuck_other (hnodup : ((s.core n).threads.map (·.1)).Nodup) {i : Nat} (hi : (s.thread n i).queueStalled = false) : (s.failAllStuck n).thread n i = s.thread n i := by
  suffices h : (s.failAllStuck n).unpaired n ∧ (s.failAllStuck n).thread n i = s.thread n i from h.2
  unfold State.failAllStuck
  refine List.foldlRecOn ((s.core n).threads.filter (fun x => x.2.queueStalled)) (fun s x => s.failStuck n x) (motive := fun t : State =>
    t.unpaired n ∧ t.thread n i = s.thread n i) (b := s.record (clusterOf n) (s.core n).stuckRecord) ⟨hsingle, rfl⟩ fun t ⟨ht, heq⟩ x hx => ?_
  obtain ⟨hmem, hstuck⟩ := List.mem_filter.1 hx
  have hne : x.1 ≠ i := by
    rintro rfl
    have hthread : s.thread n x.1 = x.2 := (s.core n).thread_of_mem hnodup hmem
    rw [hthread, hstuck] at hi
    cases hi
  obtain ⟨-, hpair, hother, -⟩ := State.failStuck_frame ht x
  exact ⟨hpair, (hother n i (fun h => hne (Prod.mk.inj h).2.symm)).trans heq⟩

end

theorem recordsAndWatchdog : Claims.RecordsAndWatchdog := by
  intro s
  refine ⟨fun c r rest halive hq => ⟨fun hroom hoff hmay hmay' => ?write, fun hfull => ?held⟩, fun c halive hfull hmay => ?poll,
    fun n hlong hnodup hpairs => ?watchdog⟩
  case write =>
    obtain ⟨hcluster, hcores⟩ := State.writeRecord_silent hq hroom hmay hoff
    have hdram := s.writeRecord_dram c hq hroom hmay
    have hbase := s.dramKey_add (s.errQueue_mod c) (show 0x1000 < 0x2000 by decide)
    refine ⟨_, exec_errorRecordWrite halive c, by rw [hcluster], by rw [hcluster], s.writeRecord_read c hq hroom hmay, ?_, hcores⟩
    have htail := memNum_memWrite_self (s.dramKey (s.errQueue c) + 0x1000) (leBytes 8 ((s.cluster c).errTail + 1))
      (memWrite (s.dramKey (s.errSlot c)) r.bytes s.dram)
    rw [length_leBytes, leNat_leBytes] at htail
    rw [hdram, if_pos hmay', hbase, htail]
  case held => rw [exec_errorRecordWrite halive, State.writeRecord_full hfull]
  case poll => exact ⟨_, exec_errorQueueHeadPoll halive c, State.pollHead_full hfull hmay⟩
  case watchdog =>
    have hsingle : s.unpaired n := fun j => by
      rcases (s.core n).thread_mem j with h | h
      · exact hpairs _ h
      · rw [State.thread, h]
    obtain ⟨⟨cs, hframe⟩, -, hother⟩ := State.failAllStuck_frame hsingle
    have hthread (m j : Nat) : (s.watchdog n).thread m j = (s.failAllStuck n).thread m j := by
      rw [State.watchdog_expired hlong]
      exact State.thread_setCore_of_threads _ n (by rfl) m j
    have hcore : (s.watchdog n).core n = { (s.failAllStuck n).core n with hwq := [], wdog := 0 } := by
      rw [State.watchdog_expired hlong, State.core_setCore_self]
    refine ⟨s.watchdog n, (s.core n).stuckRecord, rfl, ?_, rfl, by rw [hcore], by rw [hcore], fun i hi => ?_, fun i hi => ?_, fun m hm => ?_⟩
    · rw [State.watchdog_expired hlong, State.cluster_setCore, hframe]
      exact congrArg Cluster.errQ (s.cluster_record_self (clusterOf n) (s.core n).stuckRecord)
    · rw [hthread]; exact State.failAllStuck_stalled hsingle hi
    · rw [hthread]; exact State.failAllStuck_other hsingle hnodup hi
    · rw [State.watchdog_expired hlong, State.core_setCore_ne _ hm, hother m hm]

end Sys2Proof.Machine
end

section
/-!
Words of the threads of a pair: what waits in the comparator, and what passes through the load-value queue (R63, R64, R370).
-/

namespace Sys2Proof.Machine

open Sys2Proof

/-! ## Issue in a pair -/

section
variable {s : State} {p : Nat} (h : Claims.pairState s p) {k : Issue} (body : State → Except Stop State)
include h

theorem queueOf_of_pairState (n : Nat) : s.th.live.queueOf n = none := by
  obtain ⟨-, -, -, hmap, -, -⟩ := h
  exact State.queueOf_plain hmap n

/-- A word of a pair's thread that waits for nothing reaches its side of the pair. -/
theorem issue_paired (hp : p = 1 ∨ p = 2) (htrap : ∀ e, s.th.cmp = some e → (e.go && e.trap.isSome) = false) (hbars : k.bars = none)
    (hpred : k.pred = none) :
    issue k s body = .next (if p = 1 then issueLeading k s.live body else issueTrailing k s.live body) := by
  obtain ⟨hpend, hbad, hpair, hmap, hrecon, hphase⟩ := h
  have hlive : s.setTh { s.th with run := .running, qblock := none } = s.live := rfl
  have hwait : s.live.th.blocked k = false := Thread.blocked_of_pend_nil (by rw [State.th_live]; exact hpend) k
  have hready : s.live.th.trapReady = none := by
    rw [State.th_live]
    have hcmp : s.th.live.cmp = s.th.cmp := rfl
    cases hc : s.th.cmp with
    | none => simp [Thread.trapReady, hcmp, hc]
    | some e => simp [Thread.trapReady, hcmp, hc, htrap e hc]
  have hgood (rs : List RegName) : s.live.poisonedIn rs = none := by simp [State.poisonedIn, Thread.live, hbad]
  have hrecon' : (k.quiet && s.live.th.inRecon) = false := by
    rw [State.th_live, show s.th.live.inRecon = false from hrecon, Bool.and_false]
  have hqueue : s.live.queueCheck k = none := by simp [State.queueCheck, Thread.live, hmap]
  have hside : s.live.th.pair = p := by rw [State.th_live]; exact hpair
  simp only [issue, issueState, State.poisoned, hlive, hwait, hready, hpred, hgood, hrecon', hbars, hqueue, hside, Bool.false_eq_true, if_false]
  rcases hp with rfl | rfl <;> rfl

end

theorem issue_leading {s : State} (h : Claims.pairState s 1) {k : Issue} (body : State → Except Stop State)
    (htrap : ∀ e, s.th.cmp = some e → (e.go && e.trap.isSome) = false) (hbars : k.bars = none) (hpred : k.pred = none) :
    issue k s body = .next (issueLeading k s.live body) := issue_paired h body (.inl rfl) htrap hbars hpred

theorem issue_trailing {s : State} (h : Claims.pairState s 2) {k : Issue} (body : State → Except Stop State)
    (htrap : ∀ e, s.th.cmp = some e → (e.go && e.trap.isSome) = false) (hbars : k.bars = none) (hpred : k.pred = none) :
    issue k s body = .next (issueTrailing k s.live body) := issue_paired h body (.inr rfl) htrap hbars hpred

/-- The partner of the issuing thread is not changed by its issue. -/
theorem State.thread_partner_live (s : State) : s.live.thread s.cur.1 (s.cur.2 + 8) = s.thread s.cur.1 (s.cur.2 + 8) :=
  State.thread_setThread_of_ne _ _ _ _ (by intro h; have := (Prod.mk.inj h).2; omega)

/-- What a word passes on, with its queue names off. -/
theorem Issue.passes {s : State} {p : Nat} (h : Claims.pairState s p) (k : Issue) :
    k.dequeues s.th.live = 0 ∧ k.results s.th.live = k.writes.map RegName.s ++ k.dests ∧ k.wanted s.th.live = k.writes.map RegName.s ++ k.dests := by
  have hdequeues : k.dequeues s.th.live = 0 := by
    rw [Issue.dequeues, List.length_eq_zero_iff, List.filterMap_eq_nil_iff]
    exact fun n _ => queueOf_of_pairState h n
  have hresults : k.results s.th.live = k.writes.map RegName.s ++ k.dests := by
    rw [Issue.results, List.filter_eq_self.2 fun n _ => by rw [queueOf_of_pairState h n]; rfl]
  exact ⟨hdequeues, hresults, by rw [Issue.wanted, hdequeues, hresults]; rfl⟩

/-- The trailing thread's queue has room for what a word passes on. -/
theorem State.passFull_iff {s : State} {p : Nat} (h : Claims.pairState s p) (k : Issue) :
    s.live.passFull k = decide (32 < (s.thread s.cur.1 (s.cur.2 + 8)).lvq.length + (if k.takes then (k.writes.map RegName.s ++ k.dests).length else 0)) := by
  obtain ⟨hdequeues, -, hwanted⟩ := Issue.passes h k
  obtain ⟨-, -, -, -, -, hphase⟩ := h
  rw [State.passFull, State.th_live, hdequeues, hwanted, State.cur_live, State.thread_partner_live,
    show s.th.live.phase = 0 from hphase, decide_eq_true rfl, Bool.true_and]

/-- An effect of either thread waits in the comparator. -/
theorem issue_offers {s : State} {p : Nat} (h : Claims.pairState s p) (hp : p = 1 ∨ p = 2) (hcmp : s.th.cmp = none) {k : Issue}
    (heffect : k.effect = true) (hbars : k.bars = none) (hpred : k.pred = none)
    (hroom : p = 1 → (s.thread s.cur.1 (s.cur.2 + 8)).lvq.length + (if k.takes then (k.writes.map RegName.s ++ k.dests).length else 0) ≤ 32)
    (body : State → Except Stop State) : issue k s body = .next (s.live.offer k) := by
  have htrap : ∀ e, s.th.cmp = some e → (e.go && e.trap.isSome) = false := fun e he => by rw [hcmp] at he; cases he
  have hcmp' : s.live.th.cmp = none := by rw [State.th_live]; exact hcmp
  rcases hp with rfl | rfl
  · rw [issue_leading h body htrap hbars hpred]
    have hfull : s.live.passFull k = false := by rw [State.passFull_iff h, decide_eq_false (by have := hroom rfl; omega)]
    simp only [issueLeading, hfull, heffect, hcmp', Bool.false_eq_true, if_false, if_true]
  · rw [issue_trailing h body htrap hbars hpred]
    obtain ⟨hdequeues, -⟩ := Issue.passes h k
    obtain ⟨-, -, -, -, -, hphase⟩ := h
    simp [issueTrailing, heffect, show s.th.live.phase = 0 from hphase, show s.th.live.cmp = none from hcmp, hdequeues]

/-- A compared word waits on until its effects agree, whatever it passes on. -/
theorem issue_waits_compared {s : State} {p : Nat} (h : Claims.pairState s p) (hp : p = 1 ∨ p = 2) {e : PairEffect} (hcmp : s.th.cmp = some e)
    (hgo : e.go = false) {k : Issue} (heffect : k.effect = true) (htakes : k.takes = false) (hbars : k.bars = none) (hpred : k.pred = none)
    (body : State → Except Stop State) : issue k s body = .next (Claims.waits s) := by
  have htrap : ∀ e, s.th.cmp = some e → (e.go && e.trap.isSome) = false := fun e' he => by
    rw [hcmp] at he; obtain rfl := Option.some.inj he; rw [hgo]; rfl
  have hstall : s.live.stalled = Claims.waits s := by rw [State.stalled, State.th_live, State.setTh_live]; rfl
  rcases hp with rfl | rfl
  · rw [issue_leading h body htrap hbars hpred, ← hstall]
    simp [issueLeading, heffect, show s.th.live.cmp = some e from hcmp, hgo]
  · rw [issue_trailing h body htrap hbars hpred, ← hstall]
    simp [issueTrailing, heffect, htakes, show s.th.live.cmp = some e from hcmp]

/-- A word that would pass on what does not fit waits. -/
theorem issue_waits_full {s : State} (h : Claims.pairState s 1) (hcmp : s.th.cmp = none) {k : Issue} (htakes : k.takes = true)
    (hbars : k.bars = none) (hpred : k.pred = none)
    (hfull : 32 < (s.thread s.cur.1 (s.cur.2 + 8)).lvq.length + (k.writes.map RegName.s ++ k.dests).length)
    (body : State → Except Stop State) : issue k s body = .next (Claims.waits s) := by
  have hstall : s.live.stalled = Claims.waits s := by rw [State.stalled, State.th_live, State.setTh_live]; rfl
  have hpass : s.live.passFull k = true := by rw [State.passFull_iff h, if_pos htakes, decide_eq_true hfull]
  rw [issue_leading h body (fun e he => by rw [hcmp] at he; cases he) hbars hpred, ← hstall]
  simp only [issueLeading, hpass, if_true]

/-! ## Words of the trailing thread that take a value -/

section
variable {s : State} (h : Claims.pairState s 2) (hcmp : s.th.cmp = none) {k : Issue} (htakes : k.takes = true) (heffect : k.effect = false)
  (hbars : k.bars = none) (hpred : k.pred = none) {d : Nat} (hwrites : k.writes = [d]) (hdests : k.dests = []) (body : State → Except Stop State)
include h hcmp htakes heffect hbars hpred hwrites hdests

theorem issue_takes_passed {id : Nat} {v : Vec} {rest : List (Nat × Option Vec)} (hq : s.th.lvq = (id, some v) :: rest) :
    issue k s body = .next (s.setTh ((({ s.th with lvq := rest } : Thread).setSreg d (v.extractLsb' 0 64)).went k.code.bytes)) := by
  obtain ⟨-, -, hwanted⟩ := Issue.passes h k
  rw [issue_trailing h body (fun e he => by rw [hcmp] at he; cases he) hbars hpred]
  obtain ⟨-, -, -, -, -, hphase⟩ := h
  have hq' : s.th.live.lvq = (id, some v) :: rest := hq
  rw [hwrites, hdests] at hwanted
  have hlvq : ({ s.th.live with lvq := rest, phase := 0 } : Thread) = ({ s.th with lvq := rest } : Thread).live := by
    rw [← show s.th.live.phase = 0 from hphase]; rfl
  simp only [issueTrailing, heffect, htakes, State.takePassed, State.th_live, hwanted, hq', takeValues, Thread.setReg, List.zip_cons_cons, List.zip_nil_right,
    List.foldl_cons, List.foldl_nil, List.map_cons, List.map_nil, List.append_nil, State.setTh_live, hlvq, Bool.false_and, Bool.false_eq_true, if_false, if_true]
  rw [State.advance, State.th_setTh, State.setTh_setTh, Thread.went_setSreg]

theorem issue_awaits_passed (hq : s.th.lvq = []) (hlead : (s.thread s.cur.1 (s.cur.2 - 8)).cmp = none) :
    issue k s body = .next (Claims.waits s) := by
  obtain ⟨-, -, hwanted⟩ := Issue.passes h k
  rw [issue_trailing h body (fun e he => by rw [hcmp] at he; cases he) hbars hpred]
  have hq' : s.th.live.lvq = [] := hq
  rw [hwrites, hdests] at hwanted
  have hlead' : (s.live.thread s.cur.1 (s.cur.2 - 8)).cmp = none := by
    by_cases hself : (s.cur.1, s.cur.2 - 8) = s.cur
    · have hthread : s.live.thread s.cur.1 (s.cur.2 - 8) = s.th.live := by
        rw [← s.th_live, State.th, State.cur_live]
        exact congrArg (fun x : Nat × Nat => s.live.thread x.1 x.2) hself
      rw [hthread]; exact hcmp
    · rw [State.live, State.setTh, State.thread_setThread_of_ne _ _ _ _ hself]; exact hlead
  have hstall : s.live.stalled = Claims.waits s := by rw [State.stalled, State.th_live, State.setTh_live]; rfl
  simp only [issueTrailing, heffect, htakes, State.takePassed, State.th_live, hwanted, hq', takeValues, State.awaitValues, State.cur_live, hlead', hstall,
    List.map_cons, List.map_nil, List.append_nil, Bool.false_and, Bool.false_eq_true, if_false, if_true]

end

/-! ## Stores and atomics in the comparator -/

/-- What a word shows to the comparator. -/
theorem State.offer_shown (s : State) {k : Issue} {as : List Word} {bs : List Byte} (h : k.shows = some (as, bs)) :
    ∃ e, s.live.offer k = s.setTh { s.th.live with run := .stalled, cmp := some e } ∧ e.go = false ∧ e.trap = none ∧ e.pc = s.th.pc ∧
      e.addrs = as ∧ e.key = k.word :: BitVec.ofNat 64 as.length :: as ++ bs.map (fun b => b.zeroExtend 64) := by
  simp only [State.offer, State.effectKey, h, State.th_live, State.setTh_live]
  exact ⟨_, rfl, rfl, rfl, rfl, rfl, rfl⟩

theorem State.operandWords_off {s : State} (h : s.th.qmap = false) (rs : List Nat) : s.operandWords rs = rs.map s.reg := by
  have hnone (x : Nat × Nat) : s.th.queueOf x.1 = none := State.queueOf_plain h x.1
  simp only [State.operandWords, hnone]
  change rs.zipIdx.map (s.reg ∘ Prod.fst) = _
  rw [← List.map_map, List.zipIdx_map_fst]

/-- A store's word as the comparator sees it. -/
theorem storeIssue_shows {s : State} (h : s.th.qmap = false) (c : Code) (a : Nat) (off : Word) (d n : Nat) :
    (storeIssue c a off d n s).shows = some ([s.reg a + off], leBytes n (s.reg d).toNat) := by
  simp only [storeIssue, State.operandWords_off h]
  rfl

section
variable (k : BitVec 12) (a d : BitVec 5)

/-- A store that issues as `storeIssue` says, whatever its port. -/
def StoreWord (i : Instr) (n : Nat) : Prop := ∃ c body, c.bits.zeroExtend 64 = Claims.word i ∧
  ∀ s, exec i s = issue (storeIssue c a.toNat (k.signExtend 64) d.toNat n s) s body

theorem storeWord_of_device {i : Instr} {c : Code} {n : Nat} (h : ∀ s, exec i s = storeDevice c a.toNat (k.signExtend 64) d.toNat n s)
    (hc : c.bits.zeroExtend 64 = Claims.word i) : StoreWord k a d i n := ⟨c, _, hc, h⟩

theorem storeWord_of_local {i : Instr} {c : Code} {n : Nat} (h : ∀ s, exec i s = storeLocal c a.toNat (k.signExtend 64) d.toNat n s)
    (hc : c.bits.zeroExtend 64 = Claims.word i) : StoreWord k a d i n := ⟨c, _, hc, h⟩

theorem storeWord_of_mem : ∀ r ∈ Claims.deviceStores ++ Claims.localStores, StoreWord k a d (r.1 k a d) r.2 := by
  simp only [Claims.deviceStores, Claims.localStores, List.cons_append, List.nil_append, List.forall_mem_cons, List.not_mem_nil,
    false_implies, implies_true, and_true]
  refine ⟨?_, ?_, ?_, ?_, ?_, ?_, ?_, ?_⟩
  iterate 4 exact storeWord_of_device k a d (fun s => rfl) rfl
  all_goals exact storeWord_of_local k a d (fun s => rfl) rfl

/-- The words of R215 and their functions. -/
theorem exec_of_mem_atomics (q r l w : BitVec 1) (b : BitVec 5) : ∀ x ∈ Claims.atomics, ∃ c : BitVec 32, ∃ fn ≤ 9,
    ∀ s, exec (x.1 r q l b a w d) s = atomic (.long c) fn r q l b.toNat a.toNat w d.toNat s := by
  simp only [Claims.atomics, List.forall_mem_cons, List.not_mem_nil, false_implies, implies_true, and_true]
  exact ⟨⟨_, 0, by decide, fun s => rfl⟩, ⟨_, 1, by decide, fun s => rfl⟩, ⟨_, 2, by decide, fun s => rfl⟩, ⟨_, 3, by decide, fun s => rfl⟩,
    ⟨_, 4, by decide, fun s => rfl⟩, ⟨_, 5, by decide, fun s => rfl⟩, ⟨_, 6, by decide, fun s => rfl⟩, ⟨_, 7, by decide, fun s => rfl⟩,
    ⟨_, 8, by decide, fun s => rfl⟩, ⟨_, 9, by decide, fun s => rfl⟩⟩

end

/-- What an atomic names, with its address and operands (R370). -/
def atomicIssue (c : Code) (fn b a : Nat) (w : BitVec 1) (d : Nat) (s : State) : Issue :=
  let width := if w = 0 then 8 else 4
  let reads := if fn = 9 then [d, a, b] else [a, b]
  let xs := s.operandWords reads
  { code := c, reads := reads, writes := if d = 0 then [] else [d], effect := true, takes := true
    shows := some ([xs.getD (reads.length - 2) 0], (xs.eraseIdx (reads.length - 2)).reverse.flatMap (fun x => leBytes width x.toNat)) }

/-- An atomic shows its address, and no more than one register waits for its value. -/
theorem atomicIssue_shows {s : State} (h : s.th.qmap = false) (c : Code) (fn b a : Nat) (w : BitVec 1) (d : Nat) :
    (∃ bs, (atomicIssue c fn b a w d s).shows = some ([s.reg a], bs)) ∧ (atomicIssue c fn b a w d s).writes.length ≤ 1 := by
  refine ⟨?_, ?_⟩
  · by_cases hfn : fn = 9
    · simp only [atomicIssue, State.operandWords_off h, hfn, if_true]
      exact ⟨_, rfl⟩
    · simp only [atomicIssue, State.operandWords_off h, hfn, if_false]
      exact ⟨_, rfl⟩
  · simp only [atomicIssue]
    split <;> simp

theorem atomic_issue (c : Code) (fn : Nat) (r q l : BitVec 1) (b a : Nat) (w : BitVec 1) (d : Nat) :
    ∃ body, ∀ s, atomic c fn r q l b a w d s = issue (atomicIssue c fn b a w d s) s body := ⟨_, fun _ => rfl⟩

section
variable {s : State} {p : Nat} (h : Claims.pairState s p) (hp : p = 1 ∨ p = 2)
include h hp

/-- A store of either thread waits with its address and data, and makes no access. -/
theorem stores_offer (hcmp : s.th.cmp = none) (hroom : p = 1 → (s.thread s.cur.1 (s.cur.2 + 8)).lvq.length ≤ 31) (k : BitVec 12) (a d : BitVec 5) :
    ∀ r ∈ Claims.deviceStores ++ Claims.localStores, ∃ e, exec (r.1 k a d) s = .next (s.setTh { s.th.live with run := .stalled, cmp := some e }) ∧
      e.go = false ∧ e.trap = none ∧ e.pc = s.th.pc ∧ e.addrs = [s.reg a.toNat + k.signExtend 64] ∧
      e.key = Claims.word (r.1 k a d) :: 1 :: (s.reg a.toNat + k.signExtend 64) :: (leBytes r.2 (s.reg d.toNat).toNat).map (fun b => b.zeroExtend 64) := by
  intro r hr
  obtain ⟨c, body, hword, hexec⟩ := storeWord_of_mem k a d r hr
  obtain ⟨-, -, -, hmap, -, -⟩ := id h
  obtain ⟨e, heq, hgo, htrap, hpc, haddrs, hkey⟩ := s.offer_shown (storeIssue_shows hmap c a.toNat (k.signExtend 64) d.toNat r.2)
  refine ⟨e, ?_, hgo, htrap, hpc, haddrs, ?_⟩
  · rw [hexec, issue_offers (k := storeIssue c a.toNat (k.signExtend 64) d.toNat r.2 s) h hp hcmp rfl rfl rfl
      (fun h1 => Nat.le_succ_of_le (hroom h1)), heq]
  · rw [hkey, ← hword]; rfl

/-- An atomic of either thread waits with its address. -/
theorem atomics_offer (hcmp : s.th.cmp = none) (hroom : p = 1 → (s.thread s.cur.1 (s.cur.2 + 8)).lvq.length ≤ 31) (r q l w : BitVec 1)
    (a b d : BitVec 5) : ∀ x ∈ Claims.atomics, ∃ e, exec (x.1 r q l b a w d) s =
      .next (s.setTh { s.th.live with run := .stalled, cmp := some e }) ∧ e.go = false ∧ e.trap = none ∧ e.addrs = [s.reg a.toNat] := by
  intro x hx
  obtain ⟨c, fn, -, hexec⟩ := exec_of_mem_atomics a d q r l w b x hx
  obtain ⟨body, hissue⟩ := atomic_issue (.long c) fn r q l b.toNat a.toNat w d.toNat
  obtain ⟨-, -, -, hmap, -, -⟩ := id h
  obtain ⟨⟨bs, hshows⟩, hlen⟩ := atomicIssue_shows hmap (.long c) fn b.toNat a.toNat w d.toNat
  obtain ⟨e, heq, hgo, htrap, -, haddrs, -⟩ := s.offer_shown hshows
  refine ⟨e, ?_, hgo, htrap, haddrs⟩
  rw [hexec, hissue, issue_offers (k := atomicIssue (.long c) fn b.toNat a.toNat w d.toNat s) h hp hcmp rfl rfl rfl (fun h1 => ?_), heq]
  have hdests : (atomicIssue (.long c) fn b.toNat a.toNat w d.toNat s).dests = [] := rfl
  have htakes : (atomicIssue (.long c) fn b.toNat a.toNat w d.toNat s).takes = true := rfl
  have := hroom h1
  rw [if_pos htakes, List.length_append, List.length_map, hdests, List.length_nil]
  omega

/-- A store that has been offered waits on. -/
theorem stores_wait {e : PairEffect} (hcmp : s.th.cmp = some e) (hgo : e.go = false) (k : BitVec 12) (a d : BitVec 5) :
    ∀ r ∈ Claims.deviceStores ++ Claims.localStores, exec (r.1 k a d) s = .next (Claims.waits s) := by
  intro r hr
  obtain ⟨c, body, -, hexec⟩ := storeWord_of_mem k a d r hr
  rw [hexec, issue_waits_compared (k := storeIssue c a.toNat (k.signExtend 64) d.toNat r.2 s) h hp hcmp hgo rfl rfl rfl rfl]

end

end Sys2Proof.Machine
end

section
/-!
The accesses that the leading thread of a pair makes (R63, R64, R370).
-/

namespace Sys2Proof.Machine

open Sys2Proof

/-! ## One access outside the core -/

/-- An access of n bytes is one segment of one piece at another unit, without a line. -/
def OnePiece (v : State) (va : Word) (n acc : Nat) (g : Seg) : Prop :=
  v.segments va n acc = .ok ([g], v) ∧ g.pa % n = 0 ∧ n ∈ pieceSizes ∧ g.cached = false ∧ v.ownWindow g = false ∧ g.size = n

section
variable {v : State} {va : Word} {n acc : Nat} {g : Seg}

theorem onePiece_of_uncached {s : State} (h : Claims.uncached s va n acc g) (hn : n ∈ pieceSizes) : OnePiece s.live va n acc g := by
  obtain ⟨hseg, hpa, hcached, htgt, hsize⟩ := h
  exact ⟨hseg, hpa, hn, hcached, decide_eq_false htgt, hsize⟩

theorem State.checkAll_one (hseg : v.segments va n acc = .ok ([g], v)) (hown : v.ownWindow g = false) :
    v.checkAll acc [(va, 0, n)] = .ok ([((va, 0, n), [g])], v) := by
  have hfree : v.ownRefused [g] = none := by simp [State.ownRefused, hown]
  simp only [State.checkAll, hseg, hfree, ite_self, bind, Except.bind, pure, Except.pure]

/-- A flight more on its way, under the next identifier. -/
def State.sent (v : State) (f : Flight) : State := { v with nextId := v.nextId + 1, flights := v.flights ++ [f] }

@[simp] theorem State.th_sent (v : State) (f : Flight) : (v.sent f).th = v.th := rfl

/-- A segment of one piece sends one flight for its load. -/
theorem State.loadSeg_sends (h : OnePiece v va n acc g) (l : Load) (word : BitVec 32) (parts : List (Nat × Nat)) (place : Nat) :
    ∃ f, v.fresh.2.loadSeg l word parts g place = .ok ({ l with waiting := l.waiting + 1 }, v.sent f) ∧
      f.kind = .load ∧ f.pa = g.pa ∧ f.slot = v.cur.2 ∧ f.grp = l.id := by
  obtain ⟨-, hpa, hn, hcached, hown, hsize⟩ := h
  have hpieces : pieces g.size g.pa g.size = [(g.pa, g.size)] := pieces_aligned (by rw [hsize]; exact hn) (by rw [hsize]; exact hpa)
  have hown' : v.fresh.2.ownWindow g = false := hown
  simp only [State.loadSeg, hown', hcached, Bool.false_and, Bool.false_eq_true, if_false, hpieces, List.foldl_cons, List.foldl_nil, List.length_singleton]
  exact ⟨_, rfl, rfl, rfl, rfl, rfl⟩

theorem State.loadAccs_sends (h : OnePiece v va n acc g) (l : Load) (word : BitVec 32) : ∃ f,
    v.fresh.2.loadAccs l word [((va, 0, n), [g])] = .ok ({ l with waiting := l.waiting + 1 }, v.sent f) ∧
      f.kind = .load ∧ f.pa = g.pa ∧ f.slot = v.cur.2 ∧ f.grp = l.id := by
  obtain ⟨f, hseg, hf⟩ := State.loadSeg_sends h l word (partsOf [g]) 0
  refine ⟨f, ?_, hf⟩
  simp only [State.loadAccs, State.loadSegs, hseg, bind, Except.bind]

/-- A load of one piece is on its way: its register waits, and L counts it. -/
theorem State.deviceLoad_sends (h : OnePiece v va n 0 g) (word : BitVec 32) (ext : LoadExt) {d : Nat} (hd : d ≠ 0) (hd' : d ≠ 31)
    (hL : v.th.cntL < 1023) : ∃ q l f, v.deviceLoad word [(va, 0, n)] [(va, 0, n)] (.s d) ext false =
      .ok ((v.sent f).setTh { v.th with accQ := q, loads := v.th.loads ++ [l], cntL := v.th.cntL + 1
                                        pend := v.th.pend ++ [(v.th.abs (.s d), v.nextId)] }) ∧
      f.kind = .load ∧ f.pa = g.pa ∧ f.slot = v.cur.2 ∧ f.grp = v.nextId := by
  obtain ⟨hseg, -, -, -, hown, -⟩ := id h
  obtain ⟨f, haccs, hkind, hpa, hslot, hgrp⟩ := State.loadAccs_sends h
    { id := v.nextId, dst := v.th.abs (.s d), ext := ext, got := [], waiting := 0, elems := [(va, 0, n)], acq := false, refused := false
      dead := false, counted := false, isLoad := true, toQueue := false } word
  have hL' : ¬ 1023 ≤ v.th.cntL := by omega
  have hid : v.fresh.1 = v.nextId := rfl
  simp only [State.deviceLoad, State.checkAll_one hseg hown, bind, Except.bind, hid, haccs, State.th_sent, State.setTh_setTh, hL', if_false,
    Nat.zero_add, Nat.one_ne_zero, pure, Except.pure]
  split
  · next hdst => cases hdst; exact absurd rfl hd
  · next hdst => cases hdst; exact absurd rfl hd'
  · exact ⟨_, _, f, rfl, hkind, hpa, hslot, hgrp⟩

/-- A store of one piece sends one flight with its bytes. -/
theorem State.storeAccs_sends (h : OnePiece v va n 1 g) (w : State) (hw : w.ownWindow g = false) (word : BitVec 32) (id : Nat) {bs : List Byte}
    (hbs : bs.length = n) : ∃ f, w.storeAccs word id bs [((va, 0, n), [g])] = .ok (some (w.send f)) ∧
      f.kind = .store ∧ f.pa = g.pa ∧ f.slot = w.cur.2 ∧ f.data = bs.map some := by
  obtain ⟨-, hpa, hn, hcached, -, hsize⟩ := h
  have hpieces : pieces g.size g.pa g.size = [(g.pa, g.size)] := pieces_aligned (by rw [hsize]; exact hn) (by rw [hsize]; exact hpa)
  have hall : bs.take n = bs := List.take_of_length_le (by omega)
  have hbytes : ((((bs.drop 0).take n).take g.size).drop (g.pa - g.pa)).take g.size = bs := by
    rw [hsize, Nat.sub_self, List.drop_zero, List.drop_zero, hall, hall, hall]
  simp only [State.storeAccs, State.storeSegs, State.storeSeg, hw, hcached, Bool.false_and, Bool.false_eq_true, if_false, hpieces, List.foldl_cons,
    List.foldl_nil, bind, Except.bind, hbytes]
  exact ⟨_, rfl, rfl, rfl, rfl, rfl⟩

/-- A store of one piece is on its way, and S counts it. -/
theorem State.deviceStore_sends (h : OnePiece v va n 1 g) (hrecon : v.th.inRecon = false) (word : BitVec 32) {bs : List Byte} (hbs : bs.length = n)
    (hS : v.th.cntS < 1023) : ∃ f, v.deviceStore word [(va, 0, n)] bs = .ok ((v.sent f).setTh { v.th with cntS := v.th.cntS + 1 }) ∧
      f.kind = .store ∧ f.pa = g.pa ∧ f.slot = v.cur.2 ∧ f.data = bs.map some := by
  obtain ⟨hseg, -, -, hcached, hown, -⟩ := id h
  have hS' : ¬ 1023 ≤ v.th.cntS := by omega
  obtain ⟨f, haccs, hf⟩ := State.storeAccs_sends h (v.fresh.2.setTh { v.fresh.2.th with cntS := v.fresh.2.th.cntS + 1 }) hown word v.fresh.1 hbs
  refine ⟨f, ?_, hf⟩
  have hhere (x : State) : x.commitAfter v [] = .ok x := by simp [State.commitAfter, State.atCommit]
  simp only [State.deviceStore, hrecon, Bool.false_eq_true, if_false, State.checkAll_one hseg hown, bind, Except.bind, List.any_cons, List.any_nil,
    hown, hcached, Bool.not_false, Bool.and_self, Bool.or_false, Bool.true_and, hS', decide_false, if_true, haccs, List.flatMap_cons, List.flatMap_nil,
    List.filter_cons, List.filter_nil, List.map_nil, List.append_nil, hhere]
  rfl

end

/-! ## The words of the accesses -/

section
variable (k : BitVec 12) (a d : BitVec 5)

theorem exec_of_mem_deviceStores : ∀ r ∈ Claims.deviceStores, r.2 ∈ pieceSizes ∧
    ∃ c : BitVec 32, ∀ s, exec (r.1 k a d) s = storeDevice (.long c) a.toNat (k.signExtend 64) d.toNat r.2 s := by
  simp only [Claims.deviceStores, List.forall_mem_cons, List.not_mem_nil, false_implies, implies_true, and_true]
  exact ⟨⟨by decide, _, fun s => rfl⟩, ⟨by decide, _, fun s => rfl⟩, ⟨by decide, _, fun s => rfl⟩, by decide, _, fun s => rfl⟩

theorem exec_of_mem_deviceLoads : ∀ r ∈ Claims.deviceLoads, r.2.1 ∈ pieceSizes ∧
    ∃ c : BitVec 32, ∀ s, exec (r.1 k a d) s = loadDevice (.long c) a.toNat (k.signExtend 64) d.toNat r.2.1 r.2.2 s := by
  simp only [Claims.deviceLoads, List.forall_mem_cons, List.not_mem_nil, false_implies, implies_true, and_true]
  exact ⟨⟨by decide, _, fun s => rfl⟩, ⟨by decide, _, fun s => rfl⟩, ⟨by decide, _, fun s => rfl⟩, ⟨by decide, _, fun s => rfl⟩,
    ⟨by decide, _, fun s => rfl⟩, ⟨by decide, _, fun s => rfl⟩, by decide, _, fun s => rfl⟩

end

/-! ## How the trailing thread goes on -/

/-- The leading thread behind the effect that it has made. -/
def State.behind (v : State) (k : Issue) : State := v.setTh { v.th with pc := v.th.pc + BitVec.ofNat 64 k.code.bytes, cmp := none }

theorem State.behind_eq (v : State) (k : Issue) :
    (v.advance k.code.bytes).setTh { (v.advance k.code.bytes).th with cmp := none } = v.behind k := by
  rw [State.behind, State.th_advance, State.advance, State.setTh_setTh]

section
variable {s : State} (h : Claims.pairState s 1) {e : PairEffect} (hcmp : s.th.cmp = some e) (hgo : e.go = true) (htrap : e.trap = none)
  {k : Issue} (heffect : k.effect = true) (hjumps : k.jumps = false) (hbars : k.bars = none) (hpred : k.pred = none)
  (hroom : (s.thread s.cur.1 (s.cur.2 + 8)).lvq.length + (if k.takes then (k.writes.map RegName.s ++ k.dests).length else 0) ≤ 32)
  {body : State → Except Stop State} {v : State} (hb : body s.live = .ok v)
include h hcmp hgo htrap heffect hjumps hbars hpred hroom hb

/-- An effect that the comparator has released is made, and the trailing thread goes on behind it. -/
theorem issue_makes_effect : issue k s body =
    .next (if k.takes then ((v.behind k).pushResults k).releaseTrailing s.th.flg else ((v.behind k).followTrailing s.live).freePartner) := by
  have htrap' : ∀ x, s.th.cmp = some x → (x.go && x.trap.isSome) = false := fun x hx => by
    rw [hcmp] at hx; obtain rfl := Option.some.inj hx; rw [htrap, Option.isSome_none, Bool.and_false]
  have hfull : s.live.passFull k = false := by rw [State.passFull_iff h, decide_eq_false (by omega)]
  have hcmp' : s.live.th.cmp = some e := by rw [State.th_live]; exact hcmp
  have hflg : s.live.th.flg = s.th.flg := by rw [State.th_live]; rfl
  rw [issue_leading h body htrap' hbars hpred]
  simp only [issueLeading, hfull, heffect, hcmp', hgo, hb, hjumps, hflg, State.behind_eq, Bool.not_true, Bool.false_eq_true, if_false, if_true]

end

/-- A table that an instruction left as it was changes nothing in the trailing thread. -/
theorem carryTbl_self {α : Type} [DecidableEq α] (a u : Tbl α) : carryTbl a a u = u := by
  refine List.foldlRecOn (motive := fun v => v = u) _ _ rfl fun v hv k _ => ?_
  rw [if_pos rfl]; exact hv

theorem changedBlocks_of_ls {r : Nat} {c d : Core} (h : c.ls = d.ls) : changedBlocks r c d = [] := by
  simp [changedBlocks, h]

/-- After an effect that left the local store as it was, the trailing thread follows in its registers, and waits no more. -/
theorem State.follow_free {s s0 : State} (hls : s0.co.ls = s.co.ls) (hpair : s.th.pair = 1) (hpair' : (s.thread s.cur.1 (s.cur.2 + 8)).pair = 2) :
    ((s.followTrailing s0).freePartner) = s.setThread s.cur.1 (s.cur.2 + 8)
      { s0.th.follow s.th (s.thread s.cur.1 (s.cur.2 + 8)) with cmp := none, lvq := [], phase := 0, reply := none, held := [] } := by
  have hne : (s.cur.1, s.cur.2) ≠ (s.cur.1, s.cur.2 + 8) := fun h => by have := (Prod.mk.inj h).2; omega
  have hth (t : Thread) : (s.setThread s.cur.1 (s.cur.2 + 8) t).th = s.th := State.thread_setThread_of_ne _ _ _ _ hne
  have hcur (t : Thread) : (s.setThread s.cur.1 (s.cur.2 + 8) t).cur = s.cur := rfl
  have hfollow : (s0.th.follow s.th (s.thread s.cur.1 (s.cur.2 + 8))).pair = 2 := hpair'
  simp only [State.followTrailing, hpair, hpair', changedBlocks_of_ls hls, and_self, if_true, List.foldl_nil, State.freePartner, hth, hcur,
    State.thread_setThread_self, hfollow, State.setThread_setThread]

/-- A store that both threads agreed on is made by the leading one, and the trailing one goes on behind it. -/
theorem stores_go {s : State} (h : Claims.pairState s 1) {e : PairEffect} (hpair : (s.thread s.cur.1 (s.cur.2 + 8)).pair = 2)
    (hcmp : s.th.cmp = some e) (hgo : e.go = true) (htrap : e.trap = none) (hroom : (s.thread s.cur.1 (s.cur.2 + 8)).lvq.length ≤ 32)
    (hS : s.th.cntS < 1023) (k : BitVec 12) (a d : BitVec 5) : ∀ r ∈ Claims.deviceStores, ∀ g,
      Claims.uncached s (s.reg a.toNat + k.signExtend 64) r.2 1 g → ∃ t f, exec (r.1 k a d) s = .next t ∧ t.flights = s.flights ++ [f] ∧
        f.kind = .store ∧ f.pa = g.pa ∧ f.slot = s.cur.2 ∧ f.data = (leBytes r.2 (s.reg d.toNat).toNat).map some ∧ t.th.cmp = none ∧
        t.th.pc = s.th.pc + 4 ∧ t.th.cntS = s.th.cntS + 1 ∧ (t.thread s.cur.1 (s.cur.2 + 8)).cmp = none ∧
        (t.thread s.cur.1 (s.cur.2 + 8)).pc = s.th.pc + 4 ∧
        (t.thread s.cur.1 (s.cur.2 + 8)).cntS = (s.thread s.cur.1 (s.cur.2 + 8)).cntS ∧
        (t.thread s.cur.1 (s.cur.2 + 8)).glob = (s.thread s.cur.1 (s.cur.2 + 8)).glob := by
  intro r hr g hg
  obtain ⟨hn, c, hexec⟩ := exec_of_mem_deviceStores k a d r hr
  obtain ⟨-, -, hlead, hmap, hrecon, -⟩ := id h
  have hmap' : s.live.th.qmap = false := by rw [State.th_live]; exact hmap
  obtain ⟨f, hstore, hkind, hpa, hslot, hdata⟩ := State.deviceStore_sends (onePiece_of_uncached hg hn) (by rw [State.th_live]; exact hrecon) c
    (bs := leBytes r.2 (s.reg d.toNat).toNat) (by simp) (by rw [State.th_live]; exact hS)
  have hne : s.cur ≠ (s.cur.1, s.cur.2 + 8) := fun h => by have := congrArg Prod.snd h; simp at this
  rw [hexec, storeDevice, issue_makes_effect (k := storeIssue (.long c) a.toNat (k.signExtend 64) d.toNat r.2 s) h hcmp hgo htrap rfl rfl rfl rfl
    (by exact hroom) (v := (s.live.sent f).setTh { s.live.th with cntS := s.live.th.cntS + 1 })
    (by simp only [State.readS_off hmap', State.sreg_live]; exact hstore)]
  have htakes : (storeIssue (.long c) a.toNat (k.signExtend 64) d.toNat r.2 s).takes = false := rfl
  have hbehind : ((s.live.sent f).setTh { s.live.th with cntS := s.live.th.cntS + 1 }).behind (storeIssue (.long c) a.toNat (k.signExtend 64) d.toNat r.2 s)
      = (s.live.sent f).setTh { s.live.th with cntS := s.live.th.cntS + 1, pc := s.live.th.pc + 4, cmp := none } := by
    rw [State.behind, State.th_setTh, State.setTh_setTh]; rfl
  have hpartner (t : Thread) : ((s.live.sent f).setTh t).thread s.cur.1 (s.cur.2 + 8) = s.thread s.cur.1 (s.cur.2 + 8) :=
    (State.thread_setThread_of_ne _ _ _ _ hne.symm).trans s.thread_partner_live
  have hcur (t : Thread) : ((s.live.sent f).setTh t).cur = s.cur := rfl
  have hls (t : Thread) : s.live.co.ls = ((s.live.sent f).setTh t).co.ls := (State.setTh_ls ..).symm
  rw [hbehind, if_neg (by rw [htakes]; exact Bool.false_ne_true), State.follow_free (hls _) (by rw [State.th_setTh, State.th_live]; exact hlead)
    (by rw [hcur, hpartner]; exact hpair), hcur, hpartner, State.th_setTh, State.th_live]
  refine ⟨_, f, rfl, rfl, hkind, hpa, hslot, hdata, ?_⟩
  have hth (t u : Thread) : (((s.live.sent f).setTh t).setThread s.cur.1 (s.cur.2 + 8) u).th = t :=
    (State.thread_setThread_of_ne _ _ _ _ hne).trans (State.th_setTh _ t)
  rw [hth, State.thread_setThread_self]
  refine ⟨rfl, rfl, rfl, rfl, ?_, rfl, carryTbl_self _ _⟩
  exact if_neg (by bv_omega)

/-! ## Values that the trailing thread waits for -/

/-- The trailing thread's queue has an entry more. -/
def Thread.passedOn (u : Thread) (id : Nat) : Thread := { u with lvq := u.lvq ++ [(id, none)] }

/-- A register that waits for its access passes on as that access. -/
theorem State.pushResults_pending {w : State} {k : Issue} {d id : Nat} (hmap : w.th.qmap = false) (hwrites : k.writes = [d]) (hdests : k.dests = [])
    (hpend : w.th.pend = [(w.th.abs (.s d), id)]) :
    w.pushResults k = w.setThread w.cur.1 (w.cur.2 + 8) ((w.thread w.cur.1 (w.cur.2 + 8)).passedOn id) := by
  have hresults : k.results w.th = [.s d] := by
    rw [Issue.results, hwrites, hdests, List.filter_eq_self.2 fun n _ => by rw [State.queueOf_plain hmap n]; rfl]; rfl
  simp only [State.pushResults, hresults, List.map_cons, List.map_nil, hpend, List.find?_cons, decide_true]
  rfl

/-- A word of the leading thread that passes its register on, after its body. -/
theorem issue_passes {s : State} (h : Claims.pairState s 1) (hcmp : s.th.cmp = none) {k : Issue} (heffect : k.effect = false) (htakes : k.takes = true)
    (hjumps : k.jumps = false) (hbars : k.bars = none) (hpred : k.pred = none)
    (hroom : (s.thread s.cur.1 (s.cur.2 + 8)).lvq.length + (k.writes.map RegName.s ++ k.dests).length ≤ 32)
    {body : State → Except Stop State} {v : State} (hb : body s.live = .ok v) :
    issue k s body = .next ((v.advance k.code.bytes).pushResults k) := by
  have hfull : s.live.passFull k = false := by rw [State.passFull_iff h, if_pos htakes, decide_eq_false (by omega)]
  rw [issue_leading h body (fun e he => by rw [hcmp] at he; cases he) hbars hpred]
  simp only [issueLeading, hfull, heffect, htakes, hb, hjumps, Bool.false_eq_true, if_false, if_true]

/-- A load is made by the leading thread, and its register's value will pass through the queue. -/
theorem loads_pass {s : State} (h : Claims.pairState s 1) (hroom : (s.thread s.cur.1 (s.cur.2 + 8)).lvq.length ≤ 31) (hL : s.th.cntL < 1023)
    (hcmp : s.th.cmp = none) (k : BitVec 12) (a d : BitVec 5) (hd : d ≠ 0) (hd' : d ≠ 31) : ∀ r ∈ Claims.deviceLoads, ∀ g,
      Claims.uncached s (s.reg a.toNat + k.signExtend 64) r.2.1 0 g → ∃ t f, exec (r.1 k a d) s = .next t ∧ t.flights = s.flights ++ [f] ∧
        f.kind = .load ∧ f.pa = g.pa ∧ f.slot = s.cur.2 ∧ t.th.cntL = s.th.cntL + 1 ∧ t.th.pc = s.th.pc + 4 ∧
        t.thread s.cur.1 (s.cur.2 + 8) = (s.thread s.cur.1 (s.cur.2 + 8)).passedOn f.grp := by
  intro r hr g hg
  obtain ⟨hn, c, hexec⟩ := exec_of_mem_deviceLoads k a d r hr
  obtain ⟨hpend, -, -, hmap, -, hphase⟩ := id h
  have hmap' : s.live.th.qmap = false := by rw [State.th_live]; exact hmap
  obtain ⟨q, l, f, hload, hkind, hpa, hslot, hgrp⟩ := State.deviceLoad_sends (onePiece_of_uncached hg hn) (Code.long c).bits r.2.2
    (d := d.toNat) (by bv_omega) (by bv_omega)
    (by rw [State.th_live]; exact hL)
  have hqueue : s.live.th.queueOf d.toNat = none := State.queueOf_plain hmap' _
  have hne : s.cur ≠ (s.cur.1, s.cur.2 + 8) := fun h => by have := congrArg Prod.snd h; simp at this
  have hphase' : ¬ s.live.th.phase ≠ 0 := by rw [State.th_live]; exact fun h => h hphase
  rw [hexec, loadDevice, issue_passes h hcmp rfl rfl rfl rfl rfl (by exact Nat.succ_le_succ hroom)
    (by simp only [hqueue, State.readS_off hmap', State.sreg_live, hphase', if_false, Option.isSome_none, hload, bind, Except.bind,
      Bool.false_eq_true, pure, Except.pure]; rfl),
    State.pushResults_pending (d := d.toNat) (id := s.live.nextId) (by rw [State.th_advance, State.th_setTh]; exact hmap') rfl rfl
      (by rw [State.th_advance, State.th_setTh, State.th_live]; rw [show s.th.live.pend = [] from hpend]; rfl)]
  have hpartner (t : Thread) : (((s.live.sent f).setTh t).advance 4).thread s.cur.1 (s.cur.2 + 8) = s.thread s.cur.1 (s.cur.2 + 8) :=
    (State.thread_setThread_of_ne _ _ _ _ hne.symm).trans ((State.thread_setThread_of_ne _ _ _ _ hne.symm).trans s.thread_partner_live)
  have hth (t u : Thread) : ((((s.live.sent f).setTh t).advance 4).setThread s.cur.1 (s.cur.2 + 8) u).th = { t with pc := t.pc + 4 } :=
    (State.thread_setThread_of_ne _ _ _ _ hne).trans ((State.th_advance ..).trans (by rw [State.th_setTh]; rfl))
  have hlive : s.live.th.cntL = s.th.cntL ∧ s.live.th.pc = s.th.pc := by rw [State.th_live]; exact ⟨rfl, rfl⟩
  exact ⟨_, f, rfl, rfl, hkind, hpa, hslot, (congrArg Thread.cntL (hth _ _)).trans (congrArg (· + 1) hlive.1),
    (congrArg Thread.pc (hth _ _)).trans (congrArg (· + 4) hlive.2),
    (State.thread_setThread_self ..).trans (congrArg₂ Thread.passedOn (hpartner _) hgrp.symm)⟩

/-! ## Atomics of the leading thread -/

section
variable {v : State} {va : Word} {n : Nat} {g : Seg}

/-- An atomic at another unit than DRAM goes to its port. -/
theorem State.amoTarget_port (hseg : v.segments va n 2 = .ok ([g], v)) (hown : v.ownWindow g = false) (hva : va.toNat % n = 0)
    (hregion : regionOf (g.pa % 2 ^ 40) ≠ some 0) : v.amoTarget va n false = .ok (.port g.pa (g.nc || decide (g.tgt ≠ .dram)) false, v) := by
  simp only [State.amoTarget, hva, ne_eq, not_true_eq_false, if_false, Bool.false_eq_true, State.checkAll_one hseg hown, bind, Except.bind, hown,
    decide_eq_false hregion]
  rfl

/-- A thread that has sent an atomic for register d: the register waits for it, and L counts it. -/
def Thread.awaits (t : Thread) (l : Load) (d id : Nat) : Thread :=
  { t with cntL := t.cntL + 1, loads := t.loads ++ [l], phase := 0, reply := none, held := [], pend := t.pend ++ [(t.abs (.s d), id)] }

theorem State.amoSend_sends (word : BitVec 32) (va : Word) (pa : Nat) (nc : Bool) (o : Amo) {d : Nat} (hmap : v.th.qmap = false) (hd : d ≠ 0)
    (hd' : d ≠ 31) (hL : v.th.cntL < 1023) : ∃ l f, v.amoSend word va pa d nc false o false =
      .ok ((v.sent f).setTh (v.th.awaits l d v.nextId)) ∧
      f.kind = .atomic (v.amoActs o) ∧ f.pa = pa ∧ f.grp = v.nextId := by
  have hqueue : v.th.queueOf d = none := State.queueOf_plain hmap _
  have hL' : ¬ 1023 ≤ v.fresh.2.th.cntL := Nat.not_le.2 hL
  simp only [State.amoSend, hqueue, Option.isSome_none, Bool.false_and, Bool.false_eq_true, if_false, hd, hL', Bool.or_false, decide_eq_false hd']
  exact ⟨_, _, rfl, rfl, rfl, rfl⟩

end

/-- An atomic that both threads agreed on is made by the leading one, and the trailing one waits for its value. -/
theorem atomics_go {s : State} (h : Claims.pairState s 1) {e : PairEffect}
    (hcmp : s.th.cmp = some e) (hgo : e.go = true) (htrap : e.trap = none) (hroom : (s.thread s.cur.1 (s.cur.2 + 8)).lvq.length ≤ 31)
    (hL : s.th.cntL < 1023) (w : BitVec 1) (a b d : BitVec 5) (hd : d ≠ 0) (hd' : d ≠ 31) (hva : (s.reg a.toNat).toNat % Claims.amoBytes w = 0)
    {g : Seg} (hseg : s.live.segments (s.reg a.toNat) (Claims.amoBytes w) 2 = .ok ([g], s.live)) (htgt : g.tgt ≠ .window s.cur.1)
    (hregion : regionOf (g.pa % 2 ^ 40) ≠ some 0) : ∀ r ∈ Claims.atomics, ∃ t f o, exec (r.1 0 0 0 b a w d) s = .next t ∧
      t.flights = s.flights ++ [f] ∧ f.kind = .atomic o ∧ f.pa = g.pa ∧ t.th.cmp = none ∧ t.th.cntL = s.th.cntL + 1 ∧
      (t.thread s.cur.1 (s.cur.2 + 8)).cmp = none ∧ (t.thread s.cur.1 (s.cur.2 + 8)).phase = 1 ∧
      (t.thread s.cur.1 (s.cur.2 + 8)).pc = (s.thread s.cur.1 (s.cur.2 + 8)).pc ∧
      (t.thread s.cur.1 (s.cur.2 + 8)).lvq = (s.thread s.cur.1 (s.cur.2 + 8)).lvq ++ [(f.grp, none)] := by
  intro r hr
  obtain ⟨c, fn, -, hexec⟩ := exec_of_mem_atomics a d 0 0 0 w b r hr
  obtain ⟨hpend, -, -, hmap, -, hphase⟩ := id h
  have hmap' : s.live.th.qmap = false := by rw [State.th_live]; exact hmap
  have hd0 : d.toNat ≠ 0 := by bv_omega
  have htarget := State.amoTarget_port hseg (decide_eq_false htgt) hva hregion
  obtain ⟨l, f, hsend, hkind, hpa, hgrp⟩ := State.amoSend_sends (v := s.live) (Code.long c).bits (s.reg a.toNat) g.pa
    (g.nc || decide (g.tgt ≠ .dram))
    { fn := fn, width := Claims.amoBytes w, b := (s.reg b.toNat).toNat % 2 ^ (8 * Claims.amoBytes w)
      cmp := (if fn = 9 then s.reg d.toNat else 0).toNat % 2 ^ (8 * Claims.amoBytes w) } hmap' hd0 (by bv_omega) (by rw [State.th_live]; exact hL)
  have hne : s.cur ≠ (s.cur.1, s.cur.2 + 8) := fun h => by have := congrArg Prod.snd h; simp at this
  have hwrites : (atomicIssue (.long c) fn b.toNat a.toNat w d.toNat s).writes = [d.toNat] := if_neg hd0
  have hphase' : ¬ s.live.th.phase = 2 := by rw [State.th_live]; exact fun h2 => absurd (h2.symm.trans hphase) (by decide)
  have hcmpReg : (if fn = 9 then (s.reg d.toNat, s.live) else (0, s.live)) = (if fn = 9 then s.reg d.toNat else 0, s.live) := by split <;> rfl
  have hoff : decide ((0 : BitVec 1) = 1) = false := rfl
  have hrel : ¬ ((0 : BitVec 1) = 1 ∧ ¬ s.live.th.inRecon = true) := fun h => absurd h.1 (by decide)
  have hwidth : (if w = 0 then 8 else 4) = Claims.amoBytes w := rfl
  have htakes : (atomicIssue (.long c) fn b.toNat a.toNat w d.toNat s).takes = true := rfl
  have hstep : exec (r.1 0 0 0 b a w d) s = .next (((((s.live.sent f).setTh (s.live.th.awaits l d.toNat s.live.nextId)).behind
      (atomicIssue (.long c) fn b.toNat a.toNat w d.toNat s)).pushResults
        (atomicIssue (.long c) fn b.toNat a.toNat w d.toNat s)).releaseTrailing s.th.flg) := by
    rw [hexec]
    refine (issue_makes_effect (k := atomicIssue (.long c) fn b.toNat a.toNat w d.toNat s) h hcmp hgo htrap rfl rfl rfl rfl
      (by rw [hwrites]; exact Nat.succ_le_succ hroom) ?_).trans (by rw [if_pos htakes])
    simp only [hphase', if_false, State.readS_off hmap', State.sreg_live, hcmpReg, hoff, hwidth, htarget, hrel, State.amoGo, hsend, bind, Except.bind,
      pure, Except.pure]
  have hbehind : ((s.live.sent f).setTh (s.live.th.awaits l d.toNat s.live.nextId)).behind (atomicIssue (.long c) fn b.toNat a.toNat w d.toNat s) =
      (s.live.sent f).setTh { s.live.th.awaits l d.toNat s.live.nextId with pc := s.live.th.pc + 4, cmp := none } := by
    rw [State.behind, State.th_setTh, State.setTh_setTh]; rfl
  have hpartner (t : Thread) : ((s.live.sent f).setTh t).thread s.cur.1 (s.cur.2 + 8) = s.thread s.cur.1 (s.cur.2 + 8) :=
    (State.thread_setThread_of_ne _ _ _ _ hne.symm).trans s.thread_partner_live
  have hcur (t : Thread) : ((s.live.sent f).setTh t).cur = s.cur := rfl
  have hcur' (t u : Thread) : (((s.live.sent f).setTh t).setThread s.cur.1 (s.cur.2 + 8) u).cur = s.cur := rfl
  rw [hbehind, State.pushResults_pending (d := d.toNat) (id := s.live.nextId) (by rw [State.th_setTh]; exact hmap') hwrites rfl
    (by rw [State.th_setTh, State.th_live, Thread.awaits, show s.th.live.pend = [] from hpend]; rfl), hcur, hpartner] at hstep
  simp only [State.releaseTrailing, hcur', State.thread_setThread_self, State.setThread_setThread] at hstep
  have hth (t u : Thread) : (((s.live.sent f).setTh t).setThread s.cur.1 (s.cur.2 + 8) u).th = t :=
    (State.thread_setThread_of_ne _ _ _ _ hne).trans (State.th_setTh _ t)
  refine ⟨_, f, _, hstep, rfl, hkind, hpa, ?_⟩
  rw [hth, State.thread_setThread_self, hgrp, State.th_live]
  exact ⟨rfl, rfl, rfl, rfl, rfl, rfl⟩

/-! ## Loads of either thread -/

/-- What a load names. -/
def loadIssue (c : BitVec 32) (a d : Nat) : Issue := { code := .long c, reads := [a], writes := [d], takes := true }

/-- A load issues as `loadIssue` says, whatever its port. -/
def LoadWord (a d : BitVec 5) (i : Instr) : Prop := ∃ c body, ∀ s, exec i s = issue (loadIssue c a.toNat d.toNat) s body

section
variable (k : BitVec 12) (a d : BitVec 5)

theorem loadWord_of_mem_deviceLoads (r : Claims.Imm × Nat × LoadExt) (hr : r ∈ Claims.deviceLoads) : LoadWord a d (r.1 k a d) := by
  obtain ⟨-, c, hexec⟩ := exec_of_mem_deviceLoads k a d r hr
  exact ⟨c, _, hexec⟩

theorem loadWord_of_mem : ∀ x ∈ Claims.deviceLoads.map (·.1) ++ Claims.localLoads.map (·.1), LoadWord a d (x k a d) := by
  rw [List.forall_mem_append]
  refine ⟨List.forall_mem_map.2 (loadWord_of_mem_deviceLoads k a d), ?_⟩
  simp only [Claims.localLoads, List.map_cons, List.map_nil, List.forall_mem_cons, List.not_mem_nil, false_implies, implies_true, and_true]
  exact ⟨⟨_, _, fun s => rfl⟩, ⟨_, _, fun s => rfl⟩, ⟨_, _, fun s => rfl⟩, _, _, fun s => rfl⟩

end

/-- A load for which the trailing thread's queue has no room waits. -/
theorem loads_wait {s : State} (h : Claims.pairState s 1) (hfull : 32 ≤ (s.thread s.cur.1 (s.cur.2 + 8)).lvq.length) (hcmp : s.th.cmp = none)
    {a d : BitVec 5} {i : Instr} (hi : LoadWord a d i) : exec i s = .next (Claims.waits s) := by
  obtain ⟨c, body, hexec⟩ := hi
  rw [hexec]
  exact issue_waits_full (k := loadIssue c a.toNat d.toNat) h hcmp rfl rfl rfl (Nat.lt_succ_of_le hfull) body

/-- A load of the trailing thread takes the value that was passed. -/
theorem loads_take {s : State} (h : Claims.pairState s 2) (hcmp : s.th.cmp = none) {a d : BitVec 5} {i : Instr} (hi : LoadWord a d i) :
    (∀ id v rest, s.th.lvq = (id, some v) :: rest →
      exec i s = .next (s.setTh ((({ s.th with lvq := rest } : Thread).setSreg d.toNat (v.extractLsb' 0 64)).went 4))) ∧
    (s.th.lvq = [] → (s.thread s.cur.1 (s.cur.2 - 8)).cmp = none → exec i s = .next (Claims.waits s)) := by
  obtain ⟨c, body, hexec⟩ := hi
  rw [hexec]
  exact ⟨fun id v rest hq => issue_takes_passed (k := loadIssue c a.toNat d.toNat) h hcmp rfl rfl rfl rfl rfl rfl body hq,
    fun hq hlead => issue_awaits_passed (k := loadIssue c a.toNat d.toNat) h hcmp rfl rfl rfl rfl rfl rfl body hq hlead⟩

/-- The accesses of a pair take place once, by the leading thread (R63, R64, R370). -/
theorem pairsAccessOnce : Claims.PairsAccessOnce := fun _ =>
  ⟨fun _ hp h hcmp hroom k a d => stores_offer h hp hcmp hroom k a d,
   fun _ hp h hcmp hroom l rb q w a b d => atomics_offer h hp hcmp hroom rb q l w a b d,
   fun _ _ hp h hcmp hgo k a d => stores_wait h hp hcmp hgo k a d,
   fun _ h hpair hcmp hgo htrap hroom hS k a d => stores_go h hpair hcmp hgo htrap hroom hS k a d,
   fun _ h _ hcmp hgo htrap hroom hL w a b d hd hd' hva _ hseg htgt hregion => atomics_go h hcmp hgo htrap hroom hL w a b d hd hd' hva hseg htgt hregion,
   fun h hroom hL hcmp k a d hd hd' => loads_pass h hroom hL hcmp k a d hd hd',
   fun h hfull k a d hcmp r hr => loads_wait h hfull hcmp (loadWord_of_mem_deviceLoads k a d r hr),
   fun h hcmp k a d x hx => loads_take h hcmp (loadWord_of_mem k a d x hx)⟩

/-- Settles O52: the comparator, the accesses that a pair makes once, and the queues of the error records with the core watchdog. -/
theorem pairsAndRecords : Obligations.PairsAndRecords := by
  unfold Obligations.PairsAndRecords
  exact ⟨pairsCompare, pairsAccessOnce, recordsAndWatchdog⟩

end Sys2Proof.Machine
end

section
/-!
The end of a task, and of an inline child (R43, R48, R295, R296).
-/

namespace Sys2Proof.Machine

open Sys2Proof

/-! ## A thread whose lines and writes are at home -/

section
variable {s : State} (h : Claims.atHome s)
include h

theorem State.cleanSlot_atHome : s.cleanSlot s.cur.1 s.cur.2 = (s, true) := by
  obtain ⟨hlines, -, -⟩ := h
  rw [State.cleanSlot, List.filter_eq_nil_iff.2 fun l hl => by rw [hlines l hl]; exact Bool.false_ne_true]
  rfl

theorem State.storesHome_atHome : s.storesHome s.cur.1 s.cur.2 = true := by
  obtain ⟨-, -, hwriters⟩ := h
  have hnone : s.flights.any (fun f => decide (f.site = s.cur.1) && f.writers.getLsbD s.cur.2) = false :=
    List.any_eq_false.2 fun f hf hx => by
      obtain ⟨hsite, hbit⟩ := Bool.and_eq_true_iff.1 hx
      exact hwriters f hf ⟨of_decide_eq_true hsite, hbit⟩
  rw [State.storesHome, hnone]; rfl

theorem State.settled_atHome : s.settled s.cur.1 s.cur.2 = true := by
  obtain ⟨-, hstores, -⟩ := id h
  have hnone : s.flights.any (fun f => decide (f.site = s.cur.1 ∧ f.slot = s.cur.2) && f.inS) = false :=
    List.any_eq_false.2 fun f hf hx => by
      obtain ⟨hat, hin⟩ := Bool.and_eq_true_iff.1 hx
      obtain ⟨hsite, hslot⟩ := of_decide_eq_true hat
      exact hstores f hf ⟨hsite, hslot, hin⟩
  rw [State.settled, hnone, State.storesHome_atHome h]; rfl

theorem atHome_setTh (t : Thread) : Claims.atHome (s.setTh t) := by
  obtain ⟨hlines, hstores, hwriters⟩ := h
  refine ⟨fun l hl => hlines l ?_, hstores, hwriters⟩
  rw [State.co_setTh] at hl
  exact hl

end

theorem Thread.cntr_of_idle {s : State} (h : Claims.idle s) : s.th.cntr = 0 := by
  obtain ⟨hL, hS, hC, hT⟩ := h
  rw [Thread.cntr, hL, hS, hC, hT]; rfl

/-- The issuing thread waits in a phase. -/
def State.phased (s : State) (ph : Nat) : State := s.setTh { s.th with phase := ph }

theorem State.th_phased (s : State) (ph : Nat) : (s.phased ph).th = { s.th with phase := ph } := State.th_setTh ..

/-- A thread with nothing under way is drained. -/
theorem State.drained_atHome {s : State} (h : Claims.atHome s) (hidle : Claims.idle s) (ph : Nat) : s.drained ph = .ok (s.phased ph) := by
  have hhome := atHome_setTh h { s.th with phase := ph }
  have hcntr : ¬ (s.setTh { s.th with phase := ph }).th.cntr ≠ 0 := by rw [State.th_setTh]; exact fun hne => hne (Thread.cntr_of_idle hidle)
  have hcur : (s.setTh { s.th with phase := ph }).cur = s.cur := rfl
  have hclean := State.cleanSlot_atHome hhome
  have hstores := State.storesHome_atHome hhome
  rw [hcur] at hclean hstores
  obtain ⟨-, hS, -, -⟩ := hidle
  have hS' : (s.setTh { s.th with phase := ph }).th.cntS = 0 := by rw [State.th_setTh]; exact hS
  simp only [State.drained, hcntr, if_false, hcur, hclean, hstores, hS', decide_true, Bool.and_self, if_true]
  rfl

theorem State.drained_counting {s : State} (hcntr : s.th.cntr ≠ 0) (ph : Nat) : s.drained ph = .error (.stall (s.phased ph)) :=
  if_pos (by rw [State.th_setTh]; exact hcntr)

/-! ## What a task leaves behind -/

/-- Nothing differs but the launches and the launch port. -/
def State.launchesOnly (s t : State) : Prop := ∃ ls p, t = { s with launches := ls, port := p }

theorem State.launchesOnly_modLaunch (s : State) (i : Nat) (f : Launch → Launch) : s.launchesOnly (s.modLaunch i f) := by
  unfold State.modLaunch
  split
  · exact ⟨_, _, rfl⟩
  · exact ⟨_, _, rfl⟩

theorem State.launchesOnly_complete (s : State) (i : Nat) : s.launchesOnly (s.complete i) := by
  unfold State.complete
  split
  · exact ⟨_, _, rfl⟩
  · split
    · dsimp only
      split <;> exact ⟨_, _, rfl⟩
    · exact ⟨_, _, rfl⟩

theorem State.launchesOnly_ended (s : State) (i : Nat) : s.launchesOnly (s.ended i) := by
  obtain ⟨_, _, hmod⟩ := s.launchesOnly_modLaunch i fun l => { l with live := l.live - 1 }
  obtain ⟨_, _, hend⟩ := (s.modLaunch i fun l => { l with live := l.live - 1 }).launchesOnly_complete i
  exact ⟨_, _, hend.trans (by rw [hmod])⟩

/-- The packets of a task's end leave. -/
theorem State.leave_eq (s : State) : s.leave s.self s.th.task = let v := { s with chan := s.chan ++ Claims.lastDecrement s }
    if s.th.task.body.isSome then v else v.ended s.th.task.lnch := by
  unfold State.leave Claims.lastDecrement
  cases s.th.task.fref with
  | some f => rfl
  | none =>
    cases h : (if s.th.task.txn then s.th.task.txf else none) with
    | some x => rfl
    | none => simp

/-- A task's end changes nothing but the packets on their way and its launch. -/
theorem State.leave_frame (s : State) : ∃ ls p, s.leave s.self s.th.task =
    { s with chan := s.chan ++ Claims.lastDecrement s, launches := ls, port := p } := by
  rw [State.leave_eq]
  dsimp only
  split
  · exact ⟨_, _, rfl⟩
  · exact State.launchesOnly_ended _ _

section
variable {s : State} {t : Thread}

theorem State.self_setTh (hgen : t.gen = s.th.gen) : (s.setTh t).self = s.self := by
  have hcore (f : Core → Nat) (hf : ∀ c : Core, f (c.setThread s.cur.2 t) = f c) : f ((s.setTh t).core s.cur.1) = f (s.core s.cur.1) :=
    s.core_setThread_field _ _ _ _ f hf
  have hgen' : ((s.setTh t).thread s.cur.1 s.cur.2).gen = (s.thread s.cur.1 s.cur.2).gen := by
    rw [State.setTh, State.thread_setThread_self]; exact hgen
  change State.source (s.setTh t) s.cur.1 s.cur.2 true = s.source s.cur.1 s.cur.2 true
  rw [State.source, State.source, hcore (·.lcore) fun _ => rfl, hcore (·.cyc) fun _ => rfl, hgen']

theorem lastDecrement_setTh (htask : t.task = s.th.task) (hgen : t.gen = s.th.gen) :
    Claims.lastDecrement (s.setTh t) = Claims.lastDecrement s := by
  unfold Claims.lastDecrement
  rw [State.th_setTh, htask, State.self_setTh hgen]

end

theorem State.releaseTask_single {s : State} {n i : Nat} (h : (s.thread n i).pair = 0) : s.releaseTask n i = s.releaseSlot n i := by
  simp [State.releaseTask, h]

theorem State.restSlot_single {s : State} {n i : Nat} (h : (s.thread n i).pair = 0) : s.restSlot n i = s.restOne n i := by
  simp [State.restSlot, h]

/-- A thread whose task has ended, behind its packets. -/
def State.hasLeft (s : State) (ls : Tbl Launch) (p : Port) : State :=
  { s with chan := s.chan ++ Claims.lastDecrement s, launches := ls, port := p }

theorem State.thread_hasLeft (s : State) (ls : Tbl Launch) (p : Port) (n i : Nat) : (s.hasLeft ls p).thread n i = s.thread n i := rfl

/-- A thread with nothing under way quits: its slot is released. -/
theorem State.quitTask_atHome {v : State} (hhome : Claims.atHome v) (hidle : Claims.idle v) (hpair : v.th.pair = 0) (ph : Nat) :
    ∃ ls p, v.quitTask ph = .ok (((v.phased ph).hasLeft ls p).releaseSlot v.cur.1 v.cur.2) := by
  obtain ⟨ls, p, hleave⟩ := (v.phased ph).leave_frame
  refine ⟨ls, p, ?_⟩
  have hpair' : (((v.phased ph).hasLeft ls p).thread v.cur.1 v.cur.2).pair = 0 := by
    rw [State.thread_hasLeft, State.phased, State.setTh, State.thread_setThread_self]; exact hpair
  unfold State.quitTask
  rw [State.drained_atHome hhome hidle]
  change Except.ok (((v.phased ph).leave (v.phased ph).self (v.phased ph).th.task).releaseTask v.cur.1 v.cur.2) = _
  rw [hleave]
  exact congrArg Except.ok (State.releaseTask_single hpair')

section
variable {s : State} (h : s.plain)
include h

/-- `quit` of a task with nothing under way releases its slot behind what it leaves. -/
theorem exec_quit_drained (hinl : s.th.inl = []) (hmon : s.th.monHeld = none) (hidle : Claims.idle s) (hhome : Claims.atHome s) :
    ∃ ls p, exec .quit s = .next (((s.live.phased 16).hasLeft ls p).releaseSlot s.cur.1 s.cur.2) := by
  obtain ⟨-, -, hpair, -⟩ := id h
  have hinl' : s.live.th.inl = [] := by rw [State.th_live]; exact hinl
  have hmon' : s.live.th.monHeld.isSome = false := by rw [State.th_live]; exact congrArg Option.isSome hmon
  obtain ⟨ls, p, hquit⟩ := State.quitTask_atHome (v := s.live) (atHome_setTh hhome _) (by rw [Claims.idle, State.th_live]; exact hidle)
    (by rw [State.th_live]; exact hpair) 16
  refine ⟨ls, p, ?_⟩
  change execQuit s = _
  unfold execQuit
  refine issue_plain_jump h rfl rfl rfl ?_
  simp only [hinl', hmon', Bool.false_eq_true, if_false]
  exact hquit

/-- `wfw` of a task with nothing under way rests its slot behind what it leaves. -/
theorem exec_wfw_drained (hinl : s.th.inl = []) (hmon : s.th.monHeld = none) (hidle : Claims.idle s) (hhome : Claims.atHome s) :
    ∃ ls p, exec .wfw s = .next (((s.live.phased 17).hasLeft ls p).restOne s.cur.1 s.cur.2) := by
  obtain ⟨-, -, hpair, -⟩ := id h
  have hrefused : (!s.live.th.inl.isEmpty || s.live.th.monHeld.isSome) = false := by
    rw [State.th_live, show s.th.live.inl = [] from hinl, show s.th.live.monHeld = none from hmon]; rfl
  obtain ⟨ls, p, hleave⟩ := (s.live.phased 17).leave_frame
  have hpair' : (((s.live.phased 17).hasLeft ls p).thread s.cur.1 s.cur.2).pair = 0 := by
    rw [State.thread_hasLeft]
    exact (congrArg Thread.pair (State.th_phased s.live 17)).trans (by rw [State.th_live]; exact hpair)
  refine ⟨ls, p, ?_⟩
  change execWfw s = _
  unfold execWfw
  refine issue_plain_jump h rfl rfl rfl ?_
  simp only [hrefused, Bool.false_eq_true, if_false]
  rw [State.drained_atHome (s := s.live) (atHome_setTh hhome _) (by rw [Claims.idle, State.th_live]; exact hidle)]
  change Except.ok (((s.live.phased 17).leave (s.live.phased 17).self (s.live.phased 17).th.task).restSlot s.cur.1 s.cur.2) = _
  rw [hleave]
  exact congrArg Except.ok (State.restSlot_single hpair')

/-- A thread that holds a monitor, or runs inline, does not leave its slot. -/
theorem exec_wfw_refused (hbad : s.th.inl ≠ [] ∨ s.th.monHeld.isSome = true) :
    exec .wfw s = .next (Claims.trapped s 5 (Claims.word .wfw)) := by
  have hrefused : (!s.live.th.inl.isEmpty || s.live.th.monHeld.isSome) = true := by
    rw [State.th_live, Bool.or_eq_true, Bool.not_eq_true', List.isEmpty_eq_false_iff]
    exact hbad
  change execWfw s = _
  unfold execWfw
  refine issue_plain_trap h rfl rfl (by decide) ?_
  simp only [hrefused, if_true]
  rfl

theorem exec_quit_refused (hinl : s.th.inl = []) (hmon : s.th.monHeld.isSome = true) :
    exec .quit s = .next (Claims.trapped s 5 (Claims.word .quit)) := by
  have hinl' : s.live.th.inl = [] := by rw [State.th_live]; exact hinl
  have hmon' : s.live.th.monHeld.isSome = true := by rw [State.th_live]; exact hmon
  change execQuit s = _
  unfold execQuit
  refine issue_plain_trap h rfl rfl (by decide) ?_
  simp only [hinl', hmon', if_true]
  rfl

/-- `quit` waits while a counter is not 0. -/
theorem exec_quit_counting (hinl : s.th.inl = []) (hmon : s.th.monHeld = none) (hcntr : s.th.cntr ≠ 0) :
    exec .quit s = .next (s.setTh { s.th.live with run := .stalled, phase := 16 }) := by
  have hinl' : s.live.th.inl = [] := by rw [State.th_live]; exact hinl
  have hmon' : s.live.th.monHeld.isSome = false := by rw [State.th_live]; exact congrArg Option.isSome hmon
  change execQuit s = _
  unfold execQuit
  refine issue_plain_stall_phase h rfl rfl (u := s) (t := { s.th.live with phase := 16 }) (p := 16) ?_ rfl (by decide)
  simp only [hinl', hmon', Bool.false_eq_true, if_false, State.quitTask]
  rw [State.drained_counting (by rw [State.th_live]; exact hcntr), State.phased, State.setTh_live, State.th_live]
  rfl

end

section
variable (s : State) (ls : Tbl Launch) (p : Port) (ph : Nat)

theorem State.chan_hasLeft : ((s.live.phased ph).hasLeft ls p).chan = s.chan ++ Claims.lastDecrement s := by
  have hlast : Claims.lastDecrement (s.live.phased ph) = Claims.lastDecrement s :=
    (lastDecrement_setTh (s := s.live) (t := { s.live.th with phase := ph }) rfl rfl).trans (lastDecrement_setTh (t := s.th.live) rfl rfl)
  exact congrArg (s.chan ++ ·) hlast

theorem State.th_hasLeft : ((s.live.phased ph).hasLeft ls p).thread s.cur.1 s.cur.2 = { s.th.live with phase := ph } :=
  (State.th_phased s.live ph).trans (by rw [State.th_live])

theorem State.elsewhere_hasLeft : Claims.elsewhere s ((s.live.phased ph).hasLeft ls p) :=
  elsewhere_trans s.cur_live s.elsewhere_live (s.live.elsewhere_setTh _)

theorem State.hasLeft_ls (m : Nat) : (((s.live.phased ph).hasLeft ls p).core m).ls = (s.core m).ls :=
  (State.setTh_ls ..).trans (State.live_ls ..)

end

/-! ## Inline children -/

section
variable {v : State} {x : Inl}

/-- The interrupted thread may go on: its windows are closed down to the child's. -/
theorem State.inlineReady_ok (hres : v.th.resLo < x.depth) (hbad : v.co.lsBad = []) : v.inlineReady x = .ok (v.setTh (v.th.closeTo x.depth)) := by
  have hfill : (v.setTh (v.th.closeTo x.depth)).th.needFill = false := by
    rw [State.th_setTh, Thread.needFill]; exact decide_eq_false (Nat.not_le.2 hres)
  have hbad' : (v.setTh (v.th.closeTo x.depth)).co.lsBad = [] := (State.setTh_lsBad ..).trans hbad
  simp only [State.inlineReady, hfill, hbad', firstBad_nil, Bool.false_eq_true, if_false]

/-- Arguments stand in s1 and up. -/
theorem Thread.sreg_setArgs {t u : Thread} {ws : List Word} (hu : u.glob = (t.setArgs ws).glob) (i : Nat) {j : Nat} (hj : j < ws.length)
    (hlen : ws.length ≤ 4) : u.sreg i (1 + j) = ws.getD j 0 := by
  have hmem : (ws.getD j 0, 1 + j) ∈ ws.zipIdx 1 := by
    rw [List.mk_mem_zipIdx_iff_le_and_getElem?_sub]
    simp [hj]
  have hnd : ((ws.zipIdx 1).map (·.2)).Nodup := by
    rw [List.zipIdx_map_snd]
    exact List.nodup_range'
  rw [Thread.sreg, if_neg (by omega), if_neg (by omega), if_neg (by omega), hu]
  exact tblGet_foldl_tblSet (fun a : Word × Nat => a.2) (fun a : Word × Nat => a.1) 0 (ws.zipIdx 1) t.glob hnd hmem

theorem State.getD_lsWords (s : State) (n a : Nat) {j k : Nat} (hj : j < k) : (s.lsWords n a k).getD j 0 = s.lsWord n (a + 8 * j) := by
  simp [State.lsWords, hj]

/-- The thread that an inline child interrupted goes on with its saved words. -/
def State.backFrom (v : State) (x : Inl) : Thread :=
  let ws := v.lsWords v.cur.1 v.th.saveAt 8
  let t := ((v.th.closeTo (x.depth - 1)).setArgs (ws.take 4)).setMode (ws.getD 6 0)
  { t with wid := ws.getD 4 0, srs := loadSrs (ws.getD 5 0), task := x.task, inl := t.inl.drop 1, pc := x.ret
           regBad := t.regBad.filter (fun r => !(RegName.spr 0x014 :: x.kind.writes).contains r) }

theorem State.closeInline_eq (v : State) (x : Inl) :
    v.closeInline x = (v.logPort v.cur.1 v.th.saveAt 64 3 v.self).setTh (v.backFrom x) := rfl

/-- What the interrupted thread goes on with. -/
theorem State.backFrom_words (v : State) (x : Inl) : (v.backFrom x).pc = x.ret ∧ (v.backFrom x).inl = v.th.inl.drop 1 ∧ (v.backFrom x).task = x.task ∧
    (v.backFrom x).depth = x.depth - 1 ∧ (∀ i, ∀ j < 4, (v.backFrom x).sreg i (1 + j) = v.lsWord v.cur.1 (v.th.saveAt + 8 * j)) ∧
    (v.backFrom x).wid = v.lsWord v.cur.1 (v.th.saveAt + 32) ∧
    (v.backFrom x).rnd = (v.lsWord v.cur.1 (v.th.saveAt + 48)).extractLsb' 0 3 ∧
    (v.backFrom x).flg = (v.lsWord v.cur.1 (v.th.saveAt + 48)).extractLsb' 16 14 := by
  refine ⟨rfl, rfl, rfl, rfl, fun i j hj => ?_, rfl, rfl, rfl⟩
  have hlen : ((v.lsWords v.cur.1 v.th.saveAt 8).take 4).length = 4 := by simp [State.lsWords]
  rw [Thread.sreg_setArgs (t := v.th.closeTo (x.depth - 1)) (u := v.backFrom x) (ws := (v.lsWords v.cur.1 v.th.saveAt 8).take 4) rfl i (by omega) (by omega),
    List.getD_eq_getElem?_getD, List.getElem?_take_of_lt hj, ← List.getD_eq_getElem?_getD, State.getD_lsWords _ _ _ (by omega)]

end

/-- `quit` in an inline child goes on with the thread that it interrupted. -/
theorem exec_quit_child {s : State} (h : s.plain) {x : Inl} {rest : List Inl} (hinl : s.th.inl = x :: rest) (hkind : x.kind = .child)
    (hidle : Claims.idle s) (hbad : s.co.lsBad = []) (hres : s.th.resLo < x.depth) :
    exec .quit s = .next (((s.setTh (s.th.live.closeTo x.depth)).closeInline x).endPhase) := by
  have hinl' : s.live.th.inl = x :: rest := by rw [State.th_live]; exact hinl
  have hcntr : s.live.idle 16 = .ok s.live := if_pos (by rw [State.th_live]; exact Thread.cntr_of_idle hidle)
  have hready : s.live.inlineReady x = .ok (s.setTh (s.th.live.closeTo x.depth)) := by
    rw [State.inlineReady_ok (by rw [State.th_live]; exact hres) ((State.live_lsBad ..).trans hbad), State.setTh_live, State.th_live]
  change execQuit s = _
  unfold execQuit
  refine issue_plain_jump h rfl rfl rfl ?_
  simp only [hinl', State.endInline, hkind]
  rw [hcntr]
  change (s.live.inlineReady x >>= fun s => pure (s.closeInline x).endPhase) = _
  rw [hready]
  rfl

/-- Words of the local store do not depend on the threads. -/
theorem State.lsWord_setTh (s : State) (t : Thread) (n a : Nat) : (s.setTh t).lsWord n a = s.lsWord n a := by
  rw [State.lsWord, State.lsNum, State.setTh_ls]; rfl

section
variable (s : State) (n i : Nat)

theorem State.thread_releaseSlot : ((s.releaseSlot n i).thread n i).run = .free ∧ ((s.releaseSlot n i).thread n i).task = {} ∧
    ((s.releaseSlot n i).thread n i).qmap = false ∧ ((s.releaseSlot n i).thread n i).mbHi = (s.thread n i).mbHi ∧
    ((s.releaseSlot n i).thread n i).mbLo = (s.thread n i).mbLo ∧ ((s.releaseSlot n i).thread n i).wsr = (s.thread n i).wsr ∧
    ((s.releaseSlot n i).thread n i).ext = (s.thread n i).ext ∧ ((s.releaseSlot n i).thread n i).glob = (s.thread n i).glob := by
  have hself : (s.releaseSlot n i).thread n i = _ := State.thread_setThread_self ..
  rw [hself]
  exact ⟨rfl, rfl, rfl, rfl, rfl, rfl, rfl, rfl⟩

theorem State.thread_restOne : ((s.restOne n i).thread n i).run = .wfw ∧ ((s.restOne n i).thread n i).wsr = (s.thread n i).wsr ∧
    ((s.restOne n i).thread n i).ext = (s.thread n i).ext ∧ ((s.restOne n i).thread n i).glob = (s.thread n i).glob := by
  obtain ⟨-, -, -, -, -, -, hext, hglob⟩ := s.thread_releaseSlot n i
  have hself : (s.restOne n i).thread n i = _ := State.thread_setThread_self ..
  rw [hself]
  exact ⟨rfl, rfl, hext, hglob⟩

end

theorem State.elsewhere_releaseSlot (w : State) : Claims.elsewhere w (w.releaseSlot w.cur.1 w.cur.2) := w.elsewhere_setTh _

theorem State.elsewhere_restOne (w : State) : Claims.elsewhere w (w.restOne w.cur.1 w.cur.2) :=
  elsewhere_trans (t := w.releaseSlot w.cur.1 w.cur.2) rfl w.elsewhere_releaseSlot (State.elsewhere_setTh _ _)

theorem Thread.sreg_of_glob {t u : Thread} (h : t.glob = u.glob) (i : Nat) {r : Nat} (hr : (5 ≤ r ∧ r ≤ 7) ∨ (24 ≤ r ∧ r ≤ 30)) :
    t.sreg i r = u.sreg i r := by
  rw [Thread.sreg, Thread.sreg, if_neg (by omega), if_neg (by omega), if_neg (by omega), if_neg (by omega), if_neg (by omega), if_neg (by omega), h]

/-- The end of an inline child changes the issuing thread, and nothing else but what the trace ring logs. -/
theorem State.closed_inline (v : State) (x : Inl) : ∃ t, (v.closeInline x).endPhase = t ∧ t.th = (v.backFrom x).endPhase ∧ t.cur = v.cur ∧
    t.chan = v.chan ∧ (∀ m, (t.core m).ls = (v.core m).ls) ∧ Claims.elsewhere v t := by
  let w := v.logPort v.cur.1 v.th.saveAt 64 3 v.self
  have hw : ∃ cs cl, w = { v with cores := cs, clusters := cl } := State.logPort_frame ..
  have hcur : w.cur = v.cur := State.logPort_cur ..
  have heq : (v.closeInline x).endPhase = w.setTh (v.backFrom x).endPhase := by
    rw [State.closeInline_eq, State.endPhase, State.th_setTh, State.setTh_setTh]
  refine ⟨_, heq, State.th_setTh .., hcur, ?_, fun m => (State.setTh_ls ..).trans (State.logPort_ls ..),
    elsewhere_trans hcur (State.elsewhere_logPort ..) (State.elsewhere_setTh ..)⟩
  obtain ⟨cs, cl, hw⟩ := hw
  change w.chan = v.chan
  rw [hw]

section
variable {s : State} (h : s.plain)
include h

theorem quit_ends (hinl : s.th.inl = []) (hmon : s.th.monHeld = none) (hidle : Claims.idle s) (hhome : Claims.atHome s) :
    ∃ t, exec .quit s = .next t ∧ t.chan = s.chan ++ Claims.lastDecrement s ∧ t.th.run = .free ∧ t.th.task = {} ∧ t.th.qmap = false ∧
      t.th.mbHi = s.th.mbHi ∧ t.th.mbLo = s.th.mbLo ∧ t.co.ls = s.co.ls ∧ Claims.elsewhere s t := by
  obtain ⟨ls, p, hexec⟩ := exec_quit_drained h hinl hmon hidle hhome
  have hth := State.th_hasLeft s ls p 16
  obtain ⟨hrun, htask, hqmap, hhi, hlo, -⟩ := ((s.live.phased 16).hasLeft ls p).thread_releaseSlot s.cur.1 s.cur.2
  rw [hth] at hhi hlo
  exact ⟨_, hexec, State.chan_hasLeft s ls p 16, hrun, htask, hqmap, hhi, hlo, (State.setThread_ls ..).trans (State.hasLeft_ls ..),
    elsewhere_trans (t := (s.live.phased 16).hasLeft ls p) rfl (State.elsewhere_hasLeft ..) (State.elsewhere_releaseSlot _)⟩

theorem wfw_ends (hinl : s.th.inl = []) (hmon : s.th.monHeld = none) (hidle : Claims.idle s) (hhome : Claims.atHome s) :
    ∃ t, exec .wfw s = .next t ∧ t.chan = s.chan ++ Claims.lastDecrement s ∧ t.th.run = .wfw ∧ t.th.wsr = s.th.wsr ∧ t.th.ext = s.th.ext ∧
      (∀ r, (5 ≤ r ∧ r ≤ 7) ∨ (24 ≤ r ∧ r ≤ 30) → t.reg r = s.reg r) ∧ t.co.ls = s.co.ls ∧ Claims.elsewhere s t := by
  obtain ⟨ls, p, hexec⟩ := exec_wfw_drained h hinl hmon hidle hhome
  have hth := State.th_hasLeft s ls p 17
  obtain ⟨hrun, hwsr, hext, hglob⟩ := ((s.live.phased 17).hasLeft ls p).thread_restOne s.cur.1 s.cur.2
  rw [hth] at hwsr hext hglob
  exact ⟨_, hexec, State.chan_hasLeft s ls p 17, hrun, hwsr, hext, fun r hr => Thread.sreg_of_glob hglob _ hr,
    (State.setThread_ls ..).trans ((State.setThread_ls ..).trans (State.hasLeft_ls ..)),
    elsewhere_trans (t := (s.live.phased 17).hasLeft ls p) rfl (State.elsewhere_hasLeft ..) (State.elsewhere_restOne _)⟩

theorem quit_restores {x : Inl} {rest : List Inl} (hinl : s.th.inl = x :: rest) (hkind : x.kind = .child)
    (hidle : Claims.idle s) (hbad : s.co.lsBad = []) (hres : s.th.resLo < x.depth) : let save := s.th.region + 0x1000 - 64 * s.th.inl.length
    ∃ t, exec .quit s = .next t ∧ t.th.pc = x.ret ∧ t.th.inl = rest ∧ t.th.task = x.task ∧ t.th.depth = x.depth - 1 ∧
      (∀ j < 4, t.reg (1 + j) = s.lsWord s.cur.1 (save + 8 * j)) ∧ t.th.wid = s.lsWord s.cur.1 (save + 32) ∧
      t.th.rnd = (s.lsWord s.cur.1 (save + 48)).extractLsb' 0 3 ∧ t.th.flg = (s.lsWord s.cur.1 (save + 48)).extractLsb' 16 14 ∧
      t.chan = s.chan ∧ t.co.ls = s.co.ls ∧ Claims.elsewhere s t := by
  have hexec := exec_quit_child h hinl hkind hidle hbad hres
  have hsave : (s.setTh (s.th.live.closeTo x.depth)).th.saveAt = s.th.region + 0x1000 - 64 * s.th.inl.length := by rw [State.th_setTh]; rfl
  have hinl' : (s.setTh (s.th.live.closeTo x.depth)).th.inl.drop 1 = rest := by rw [State.th_setTh]; exact congrArg (List.drop 1) hinl
  have hcur : (s.setTh (s.th.live.closeTo x.depth)).cur = s.cur := rfl
  obtain ⟨hpc, hin, htask, hdepth, hregs, hwid, hrnd, hflg⟩ := (s.setTh (s.th.live.closeTo x.depth)).backFrom_words x
  simp only [hsave, hcur, State.lsWord_setTh] at hregs hwid hrnd hflg
  obtain ⟨t, ht, hth, htcur, hchan, hls, helse⟩ := (s.setTh (s.th.live.closeTo x.depth)).closed_inline x
  rw [ht] at hexec
  generalize (s.setTh (s.th.live.closeTo x.depth)).backFrom x = u at hth hpc hin htask hdepth hregs hwid hrnd hflg
  have hreg (r : Nat) : t.reg r = u.sreg s.cur.2 r := by rw [State.reg, hth, htcur]; rfl
  refine ⟨t, hexec, ?_⟩
  rw [hth]
  refine ⟨hpc, hin.trans hinl', htask, hdepth, fun j hj => (hreg _).trans (hregs _ j hj), hwid, hrnd, hflg, hchan, ?_,
    elsewhere_trans (t := s.setTh (s.th.live.closeTo x.depth)) rfl (s.elsewhere_setTh _) helse⟩
  rw [State.co, htcur]
  exact (hls _).trans (State.setTh_ls ..)

end

/-- The end of a task and of an inline child (R48, R295, R296). -/
theorem endOfTask : Claims.EndOfTask := by
  intro s h
  refine ⟨fun hinl hmon hidle hhome => ⟨quit_ends h hinl hmon hidle hhome, wfw_ends h hinl hmon hidle hhome⟩, fun hinl hmon hcntr => ?_,
    fun hmon => ⟨exec_wfw_refused h (.inr hmon), fun hinl => exec_quit_refused h hinl hmon⟩, fun hinl => exec_wfw_refused h (.inl hinl),
    fun x rest hinl hkind hidle hbad hres _ => quit_restores h hinl hkind hidle hbad hres⟩
  refine ⟨_, exec_quit_counting h hinl hmon hcntr, ?_, ?_, rfl, State.setTh_ls .., s.elsewhere_setTh _⟩
  · rw [State.th_setTh]
  · rw [State.th_setTh]; rfl

end Sys2Proof.Machine
end

section
/-!
Threads that are saved as continuations: `await` and `yield` (R47, R181, R294, R297).
-/

namespace Sys2Proof.Machine

open Sys2Proof

/-! ## The save of a thread in its region (R180, R181) -/

section
variable (s : State) (n i a : Nat)

theorem State.slotsOnly_lsHard (bs : List Byte) (kind : Nat) (w : Source) : State.slotsOnly n s (s.lsHard n a bs kind w) :=
  State.slotsOnly_trans (s.slotsOnly_setCore n ⟨_, _, _, _, _, rfl⟩) (State.slotsOnly_logPort _ n _ _ _ _)

theorem State.slotsOnly_saveRegs (rs : List RegName) (ws : List Word) : State.slotsOnly n s (s.saveRegs n i a rs ws) := by
  have hls := s.slotsOnly_lsHard n a (wordBytes ws) 7 (s.source n i true)
  unfold State.saveRegs
  dsimp only
  split
  · exact hls
  · exact State.slotsOnly_trans hls (State.slotsOnly_setCore _ n ⟨_, _, _, _, _, rfl⟩)

theorem State.slotsOnly_spillWindow (k : Nat) : State.slotsOnly n s (s.spillWindow n i k) := by
  unfold State.spillWindow
  dsimp only
  split
  · exact s.slotsOnly_saveRegs ..
  · exact State.slotsOnly_trans (s.slotsOnly_saveRegs ..) (State.slotsOnly_saveRegs ..)

/-- A thread's registers are in its region. -/
def State.saved : State := (s.spillAll n i).parkSave n i

/-- The windows of a thread reach no byte before their places in its region, and none behind it. -/
theorem State.spillAll_keeps (hdepth : (s.thread n i).depth ≤ 31) : State.slotsOnly n s (s.spillAll n i) ∧
    (∀ m j, (s.spillAll n i).thread m j = s.thread m j) ∧
    ∀ x, x < (s.thread n i).region + 0x80 ∨ (s.thread n i).region + 0x1000 ≤ x →
      memGet x ((s.spillAll n i).core n).ls = memGet x (s.core n).ls := by
  refine List.foldlRecOn (motive := fun v => State.slotsOnly n s v ∧ (∀ m j, v.thread m j = s.thread m j) ∧ ∀ x,
    x < (s.thread n i).region + 0x80 ∨ (s.thread n i).region + 0x1000 ≤ x → memGet x (v.core n).ls = memGet x (s.core n).ls)
    (List.range' (s.thread n i).resLo ((s.thread n i).depth + 1 - (s.thread n i).resLo)) (fun v k => v.spillWindow n i k)
    ⟨s.slotsOnly_refl n, fun _ _ => rfl, fun _ _ => rfl⟩ ?_
  rintro v ⟨hslots, hthreads, hmem⟩ k hk
  have hk31 : k ≤ 31 := by rw [List.mem_range'_1] at hk; omega
  refine ⟨State.slotsOnly_trans hslots (v.slotsOnly_spillWindow n i k), fun m j => (v.thread_spillWindow n i k m j).trans (hthreads m j), fun x hx => ?_⟩
  rw [v.memGet_spillWindow n i k hk31 (by rw [hthreads]; exact hx), hmem x hx]

/-- The park save reaches no byte outside the start of the region. -/
theorem State.parkSave_keeps : State.slotsOnly n s (s.parkSave n i) ∧ (∀ m j, (s.parkSave n i).thread m j = s.thread m j) ∧
    ∀ x, x < (s.thread n i).region ∨ (s.thread n i).region + 0x140 ≤ x →
      memGet x ((s.parkSave n i).core n).ls = memGet x (s.core n).ls := by
  unfold State.parkSave
  dsimp only
  refine ⟨State.slotsOnly_trans (State.slotsOnly_trans (s.slotsOnly_saveRegs ..) (State.slotsOnly_saveRegs ..)) (State.slotsOnly_lsHard ..),
    fun m j => by rw [State.thread_lsHard, State.thread_saveRegs, State.thread_saveRegs], fun x hx => ?_⟩
  have hglobals : ((s.thread n i).globals ++ [(s.thread n i).wid, (s.thread n i).modeWord]).length = 16 := by simp [Thread.globals, savedGlobals]
  rw [State.lsHard_ls, memGet_memWrite, if_neg (by simp; omega), State.saveRegs_ls, memGet_memWrite, if_neg (by simp; omega), State.saveRegs_ls,
    memGet_memWrite, if_neg (by rw [length_wordBytes, hglobals]; omega)]

/-- The save of a thread changes its region, and no thread. -/
theorem State.saved_keeps (hdepth : (s.thread n i).depth ≤ 31) : State.slotsOnly n s (s.saved n i) ∧
    (∀ m j, (s.saved n i).thread m j = s.thread m j) ∧
    ∀ x, x < (s.thread n i).region ∨ (s.thread n i).region + 0x1000 ≤ x → memGet x ((s.saved n i).core n).ls = memGet x (s.core n).ls := by
  obtain ⟨hslots, hthreads, hmem⟩ := s.spillAll_keeps n i hdepth
  obtain ⟨hslots', hthreads', hmem'⟩ := (s.spillAll n i).parkSave_keeps n i
  refine ⟨State.slotsOnly_trans hslots hslots', fun m j => (hthreads' m j).trans (hthreads m j), fun x hx => ?_⟩
  exact (hmem' x (by rw [hthreads]; omega)).trans (hmem x (by omega))

end

theorem State.slotsOnly_cur {n : Nat} {s t : State} (h : State.slotsOnly n s t) : t.cur = s.cur := by
  obtain ⟨⟨⟨cs, cl, rfl⟩, -⟩, -⟩ := h
  rfl

/-- A save of the issuing thread disturbs nothing elsewhere. -/
theorem elsewhere_of_slotsOnly {s t : State} (h : State.slotsOnly s.cur.1 s t) (ht : ∀ n i, (n, i) ≠ s.cur → t.thread n i = s.thread n i) :
    Claims.elsewhere s t := by
  obtain ⟨⟨hframe, hcore⟩, _, _, _, _, _, hslots⟩ := h
  refine ⟨?_, ?_, fun m => ?_, fun m hm => by rw [hcore m hm], ht⟩
  · obtain ⟨cs, cl, rfl⟩ := hframe; rfl
  · obtain ⟨cs, cl, rfl⟩ := hframe; rfl
  · by_cases hm : m = s.cur.1
    · subst hm; rw [hslots]
    · rw [hcore m hm]

/-! ## Parking at a frame (R45, R47) -/

/-- What `await` writes to a frame from its STATE on: STATE 1, LNCH, the next instruction, the region and SRS (R45). -/
def Thread.frameBytes (t : Thread) : List Byte :=
  leBytes 1 1 ++ leBytes 1 (t.task.lnch % 16) ++ leBytes 8 (t.pc + 4).toNat ++ leBytes 8 t.region ++ leBytes 8 t.srs.toNat

/-- The issuing thread's continuation is bound to a frame. -/
def State.bindFrame (u : State) (n a : Nat) : State :=
  let v := u.setCo (u.co.lsPut (a + 6) u.th.frameBytes)
  let w := v.logPort n a 32 6 v.self
  w.setCo { w.co with parked := w.co.parked ++ [w.contOf (some a)] }

theorem State.park_eq (v : State) (a : Nat) : v.park a = (
    let w := (v.saved v.cur.1 v.cur.2).bindFrame v.cur.1 a
    let z := w.releaseTask v.cur.1 w.cur.2
    if z.frameCount v.cur.1 a = 0 then z.wakeFrame v.cur.1 a else z) := by
  unfold State.park State.saved State.bindFrame Thread.frameBytes
  rfl

/-- Parking writes the frame, and the core holds the continuation. -/
theorem State.bindFrame_facts (u : State) (a : Nat) : (u.bindFrame u.cur.1 a).cur = u.cur ∧ Claims.elsewhere u (u.bindFrame u.cur.1 a) ∧
    (∀ m j, (u.bindFrame u.cur.1 a).thread m j = u.thread m j) ∧
    (u.bindFrame u.cur.1 a).co.ls = memWrite (a + 6) u.th.frameBytes u.co.ls ∧
    ∃ k, (u.bindFrame u.cur.1 a).co.parked = u.co.parked ++ [k] ∧ k.frame = some a ∧ k.region = u.th.wsr := by
  let v := u.setCo (u.co.lsPut (a + 6) u.th.frameBytes)
  let w := v.logPort u.cur.1 a 32 6 v.self
  have hcur : w.cur = u.cur := State.logPort_cur ..
  obtain ⟨r, hcore⟩ := v.core_logPort u.cur.1 a 32 6 v.self u.cur.1
  have hthread (m j : Nat) : w.thread m j = u.thread m j :=
    (State.thread_logPort ..).trans (u.thread_setCore_of_threads u.cur.1 (c := u.co.lsPut (a + 6) u.th.frameBytes) rfl m j)
  have hco : w.co = { u.co.lsPut (a + 6) u.th.frameBytes with ring := r } := by
    rw [State.co, hcur, hcore]
    exact congrArg (fun c : Core => { c with ring := r }) (u.co_setCo _)
  have hth : w.th = u.th := by rw [State.th, hcur]; exact hthread ..
  have helse : Claims.elsewhere u w := elsewhere_trans (t := v) rfl (State.elsewhere_setCo rfl fun _ _ => rfl) (State.elsewhere_logPort ..)
  have hbind : (u.bindFrame u.cur.1 a).co = { w.co with parked := w.co.parked ++ [w.contOf (some a)] } := w.co_setCo _
  refine ⟨hcur, elsewhere_trans hcur helse (State.elsewhere_setCo rfl fun _ _ => rfl), fun m j => ?_, ?_, w.contOf (some a), ?_, rfl,
    congrArg Thread.wsr hth⟩
  · exact (w.thread_setCore_of_threads w.cur.1 (c := { w.co with parked := w.co.parked ++ [w.contOf (some a)] }) rfl m j).trans (hthread m j)
  · rw [hbind, hco]; rfl
  · rw [hbind, hco]; rfl

theorem Thread.length_frameBytes (t : Thread) : t.frameBytes.length = 26 := by simp [Thread.frameBytes]

/-- A word behind other bytes of a write is read back. -/
theorem memNum_memWrite_word {a b : Nat} {pre post : List Byte} (x : Word) (m : Memory) (hb : b = a + pre.length) :
    memNum b 8 (memWrite a (pre ++ leBytes 8 x.toNat ++ post) m) = x.toNat := by
  subst hb
  have hself := memNum_memWrite_self (a + pre.length) (leBytes 8 x.toNat) (memWrite a pre m)
  rw [length_leBytes, leNat_leBytes, Nat.mod_eq_of_lt x.isLt] at hself
  rw [memWrite_append, memWrite_append, memNum, memRead_memWrite_apart (by simp; omega)]
  exact hself

/-- The words of a frame that a continuation is bound to (R45). -/
theorem Thread.frame_words (t : Thread) (a : Nat) (m : Memory) : memGet (a + 6) (memWrite (a + 6) t.frameBytes m) = 1 ∧
    memNum (a + 8) 8 (memWrite (a + 6) t.frameBytes m) = (t.pc + 4).toNat ∧
    memNum (a + 24) 8 (memWrite (a + 6) t.frameBytes m) = t.srs.toNat ∧
    memNum a 4 (memWrite (a + 6) t.frameBytes m) = memNum a 4 m := by
  refine ⟨?_, ?_, ?_, ?_⟩
  · rw [memGet_memWrite, if_pos (by rw [Thread.length_frameBytes]; omega), Nat.sub_self]
    rfl
  · have hbytes : t.frameBytes = (leBytes 1 1 ++ leBytes 1 (t.task.lnch % 16)) ++ leBytes 8 (t.pc + 4).toNat ++
        (leBytes 8 t.region ++ leBytes 8 t.srs.toNat) := by
      simp only [Thread.frameBytes, List.append_assoc]
    rw [hbytes]
    exact memNum_memWrite_word _ _ (by simp)
  · have hbytes : t.frameBytes = (leBytes 1 1 ++ leBytes 1 (t.task.lnch % 16) ++ leBytes 8 (t.pc + 4).toNat ++ leBytes 8 t.region) ++
        leBytes 8 t.srs.toNat ++ [] := by
      rw [List.append_nil, Thread.frameBytes]
    rw [hbytes]
    exact memNum_memWrite_word _ _ (by simp)
  · rw [memNum, memRead_memWrite_apart (.inl (by omega))]
    rfl

/-- A thread that may be saved: no pair, its windows and the frame apart. -/
theorem State.park_facts (v : State) {a : Nat} (hpair : v.th.pair = 0) (hdepth : v.th.depth ≤ 31) (hregion : v.th.region + 0x1000 ≤ a)
    (hcount : v.frameCount v.cur.1 a ≠ 0) : ∃ t k, v.park a = t ∧ t.cur = v.cur ∧ t.co.parked = v.co.parked ++ [k] ∧ k.frame = some a ∧
      k.region = v.th.wsr ∧
      t.th.run = .free ∧ memGet (a + 6) t.co.ls = 1 ∧ t.frameCount v.cur.1 a = v.frameCount v.cur.1 a ∧
      t.lsWord v.cur.1 (a + 8) = v.th.pc + 4 ∧ t.lsWord v.cur.1 (a + 24) = v.th.srs ∧ Claims.elsewhere v t := by
  obtain ⟨hslots, hthreads, hmem⟩ := v.saved_keeps v.cur.1 v.cur.2 hdepth
  have hpark := v.park_eq a
  generalize v.saved v.cur.1 v.cur.2 = u at hslots hthreads hmem hpark
  have hcur : u.cur = v.cur := State.slotsOnly_cur hslots
  have hth : u.th = v.th := by rw [State.th, hcur]; exact hthreads ..
  obtain ⟨hbcur, hbelse, hbthreads, hbls, k, hparked, hframe, hkregion⟩ := u.bindFrame_facts a
  rw [hcur] at hbcur hbelse hbthreads hbls hparked
  generalize u.bindFrame v.cur.1 a = w at hpark hbcur hbelse hbthreads hbls hparked
  have hrelease : w.releaseTask v.cur.1 w.cur.2 = w.releaseSlot v.cur.1 v.cur.2 := by
    rw [hbcur]
    exact State.releaseTask_single (by rw [hbthreads, hthreads]; exact hpair)
  have hzls : ((w.releaseSlot v.cur.1 v.cur.2).core v.cur.1).ls = memWrite (a + 6) v.th.frameBytes u.co.ls := by
    rw [← hth, ← hbls, State.co, hbcur]; exact State.setThread_ls ..
  have hzco : (w.releaseSlot v.cur.1 v.cur.2).co = (w.releaseSlot v.cur.1 v.cur.2).core v.cur.1 :=
    congrArg (fun x : Nat × Nat => (w.releaseSlot v.cur.1 v.cur.2).core x.1) hbcur
  obtain ⟨hstate, hpc, hsrs, hkept⟩ := v.th.frame_words a u.co.ls
  have hcountKept : memNum a 4 u.co.ls = memNum a 4 v.co.ls := by
    rw [memNum, memNum, State.co, hcur, memRead_congr fun j _ => hmem (a + j) (.inr (hregion.trans (Nat.le_add_right a j)))]
    rfl
  have hzcount : (w.releaseSlot v.cur.1 v.cur.2).frameCount v.cur.1 a = v.frameCount v.cur.1 a := by
    rw [State.frameCount, State.lsNum, hzls, hkept, hcountKept]; rfl
  have hpark' : v.park a = w.releaseSlot v.cur.1 v.cur.2 := by
    rw [hpark]
    dsimp only
    rw [hrelease, hzcount, if_neg hcount]
  refine ⟨_, k, hpark', hbcur, ?_, hframe, by rw [hkregion, hth], ?_, ?_, hzcount, ?_, ?_, ?_⟩
  · have hkept : ((w.releaseSlot v.cur.1 v.cur.2).core v.cur.1).parked = (w.core v.cur.1).parked :=
      w.core_setThread_field _ _ _ _ (·.parked) fun _ => rfl
    have hsaved : (u.core v.cur.1).parked = (v.core v.cur.1).parked := by
      obtain ⟨-, _, _, _, _, _, hcore⟩ := hslots
      rw [hcore]
    rw [State.co, hbcur, State.co, hcur, hsaved] at hparked
    rw [hzco, hkept, hparked]; rfl
  · obtain ⟨hrun, -⟩ := w.thread_releaseSlot v.cur.1 v.cur.2
    exact (congrArg (fun x : Nat × Nat => ((w.releaseSlot v.cur.1 v.cur.2).thread x.1 x.2).run) hbcur).trans hrun
  · rw [hzco, hzls]; exact hstate
  · rw [State.lsWord, State.lsNum, hzls, hpc, BitVec.ofNat_toNat, BitVec.setWidth_eq]
  · rw [State.lsWord, State.lsNum, hzls, hsrs, BitVec.ofNat_toNat, BitVec.setWidth_eq]
  · have hrel : Claims.elsewhere w (w.releaseSlot v.cur.1 v.cur.2) := by rw [← hbcur]; exact w.elsewhere_releaseSlot
    exact elsewhere_trans hbcur (elsewhere_trans hcur (elsewhere_of_slotsOnly hslots fun m j _ => hthreads m j) hbelse) hrel

end Sys2Proof.Machine
end

section
/-!
`await` and `yield` (R47, R294, R297).
-/

namespace Sys2Proof.Machine

open Sys2Proof

/-! ## Regions and the trace ring -/

section
variable (s : State) (n a size kind : Nat) (w : Source)

theorem State.runq_logPort (m : Nat) : ((s.logPort n a size kind w).cluster m).runq = (s.cluster m).runq := by
  have hrecord (v : State) (k : Nat) (r : ErrRec) : ((v.record k r).cluster m).runq = (v.cluster m).runq := by
    by_cases hm : m = k
    · subst hm; rw [State.record, State.cluster_setCluster_self]
    · rw [State.record, State.cluster_setCluster_ne _ _ _ hm]
  unfold State.logPort
  dsimp only
  split
  · rfl
  · split
    · rfl
    · rw [hrecord]; rfl

/-- Logging an access takes no region. -/
theorem State.mayPark_logPort : (s.logPort n a size kind w).mayPark = s.mayPark := by
  have hth : (s.logPort n a size kind w).th = s.th := by rw [State.th, State.logPort_cur, State.thread_logPort]; rfl
  obtain ⟨r, hcore⟩ := s.core_logPort n a size kind w s.cur.1
  rw [State.mayPark, State.mayPark, hth, State.logPort_cur, State.freeRegions, State.freeRegions, State.runq_logPort, hcore]
  rfl

end

/-! ## `await` -/

/-- A thread with its lines at home and no load may be saved. -/
theorem State.parkReady_atHome {s : State} (h : Claims.atHome s) (hL : s.th.cntL = 0) (hpend : s.th.pend = []) : s.parkReady = (true, s) := by
  unfold State.parkReady
  rw [State.cleanSlot_atHome h]
  simp only [State.settled_atHome h, hL, hpend, decide_true, List.isEmpty_nil, Bool.and_self]

theorem atHome_logPort {s : State} (h : Claims.atHome s) (n a size kind : Nat) (w : Source) : Claims.atHome (s.logPort n a size kind w) := by
  obtain ⟨hlines, hstores, hwriters⟩ := h
  obtain ⟨r, hcore⟩ := s.core_logPort n a size kind w s.cur.1
  have hflights : (s.logPort n a size kind w).flights = s.flights := by
    obtain ⟨cs, cl, hw⟩ := s.logPort_frame n a size kind w
    rw [hw]
  rw [Claims.atHome, State.co, State.logPort_cur, hcore, hflights]
  exact ⟨hlines, hstores, hwriters⟩

section
variable {s : State} {k : Issue} {a : Nat} {x : Word}

/-- An idle frame of the local store is read. -/
theorem State.awaitFrame_idle (hfit : x.toNat % 32 = 0 ∧ x.toNat + 32 ≤ 0x80000) (hbad : s.co.lsBad = []) (hstate : s.frameState s.cur.1 x.toNat = 0)
    (hmon : s.th.monHeld = none) : s.awaitFrame k a x = s.awaitCount a x := by
  have hfits : frameFits x.toNat = true := decide_eq_true hfit
  simp only [State.awaitFrame, hfits, hbad, firstBad_nil, hstate, hmon, Bool.not_true, Bool.false_eq_true, if_false, ne_eq, not_true_eq_false,
    Option.isSome_none, or_self]

/-- The state in which `await` has read the frame. -/
def State.frameRead (s : State) (x : Word) : State := s.logPort s.cur.1 x.toNat 4 6 s.self

theorem State.frameRead_count (x : Word) (b : Nat) : (s.frameRead x).frameCount s.cur.1 b = s.frameCount s.cur.1 b := by
  rw [State.frameCount, State.lsNum, State.frameRead, State.logPort_ls]; rfl

theorem State.awaitCount_zero (hcount : s.frameCount s.cur.1 x.toNat = 0) (hmap : s.th.qmap = false) :
    s.awaitCount a x = .ok ((s.frameRead x).bumpEpoch s.cur.1).goOn := by
  have hcur : (s.frameRead x).cur = s.cur := State.logPort_cur ..
  have hth : (s.frameRead x).th = s.th := by rw [State.th, hcur]; exact State.thread_logPort ..
  have hread : (s.frameRead x).readS a = ((s.frameRead x).th.sreg (s.frameRead x).cur.2 a, s.frameRead x) := State.readS_off (by rw [hth]; exact hmap) a
  have hcount' : (s.frameRead x).frameCount (s.frameRead x).cur.1 x.toNat = 0 := by rw [hcur, State.frameRead_count]; exact hcount
  change (if (s.frameRead x).frameCount (s.frameRead x).cur.1 x.toNat = 0 then _ else _) = _
  rw [if_pos hcount']
  change Except.ok (((s.frameRead x).readS a).2.bumpEpoch (s.frameRead x).cur.1).goOn = _
  rw [hread, hcur]

theorem State.awaitCount_parks (hcount : s.frameCount s.cur.1 x.toNat ≠ 0) (hpark : s.mayPark = true) (hhome : Claims.atHome s) (hL : s.th.cntL = 0)
    (hpend : s.th.pend = []) (hmap : s.th.qmap = false) : s.awaitCount a x = .ok ((s.frameRead x).endPhase.park x.toNat) := by
  have hcur : (s.frameRead x).cur = s.cur := State.logPort_cur ..
  have hth : (s.frameRead x).th = s.th := by rw [State.th, hcur]; exact State.thread_logPort ..
  have hread : (s.frameRead x).readS a = ((s.frameRead x).th.sreg (s.frameRead x).cur.2 a, s.frameRead x) := State.readS_off (by rw [hth]; exact hmap) a
  have hcount' : (s.frameRead x).frameCount (s.frameRead x).cur.1 x.toNat ≠ 0 := by rw [hcur, State.frameRead_count]; exact hcount
  have hpark' : (s.frameRead x).mayPark = true := by rw [State.frameRead, State.mayPark_logPort]; exact hpark
  have hready : (s.frameRead x).parkReady = (true, s.frameRead x) :=
    State.parkReady_atHome (atHome_logPort hhome ..) (by rw [hth]; exact hL) (by rw [hth]; exact hpend)
  change (if (s.frameRead x).frameCount (s.frameRead x).cur.1 x.toNat = 0 then _ else if (s.frameRead x).mayPark then (s.frameRead x).parkAt a x else _) = _
  rw [if_neg hcount', if_pos hpark', State.parkAt, hready]
  change Except.ok (((s.frameRead x).readS a).2.endPhase.park x.toNat) = _
  rw [hread]

end

theorem State.goOn_eq (s : State) : s.goOn = s.setTh { s.th.endPhase with pc := s.th.pc + 4 } := by
  rw [State.goOn, State.endPhase, State.advance, State.th_setTh, State.setTh_setTh]
  rfl

theorem State.bumpEpoch_ls (s : State) (n m : Nat) : ((s.bumpEpoch n).core m).ls = (s.core m).ls ∧ ((s.bumpEpoch n).core m).ws = (s.core m).ws := by
  by_cases hm : m = n
  · subst hm; rw [State.core_bumpEpoch_self]; exact ⟨rfl, rfl⟩
  · rw [show (s.bumpEpoch n).core m = s.core m from State.core_setCore_ne _ hm _]; exact ⟨rfl, rfl⟩

theorem State.elsewhere_bumpEpoch (s : State) (n : Nat) : Claims.elsewhere s (s.bumpEpoch n) :=
  ⟨rfl, rfl, fun m => (s.bumpEpoch_ls n m).2, fun m _ => (s.bumpEpoch_ls n m).1, fun m j _ => s.thread_bumpEpoch n m j⟩

theorem Thread.sreg_congr {t u : Thread} (h : t.glob = u.glob ∧ t.win = u.win ∧ t.depth = u.depth) (i : Nat) {r : Nat} (hr : r < 31) :
    t.sreg i r = u.sreg i r := by
  obtain ⟨hglob, hwin, hdepth⟩ := h
  have hr' : r ≠ 31 := by omega
  simp only [Thread.sreg, hr', if_false, hglob, hwin, hdepth]

section
variable {s : State} (h : s.plain) (a : BitVec 5) (hfit : (s.reg a.toNat).toNat % 32 = 0 ∧ (s.reg a.toNat).toNat + 32 ≤ 0x80000)
  (hbad : s.co.lsBad = []) (hstate : Claims.frameState s (s.reg a.toNat).toNat = 0) (hmon : s.th.monHeld = none)
include h hfit hbad hstate hmon

/-- `await` of an idle frame goes by its COUNT. -/
theorem exec_await {t : State} (hcount : ∀ n, s.live.awaitCount n (s.reg a.toNat) = .ok t) : exec (.await a) s = .next t := by
  have hstate' : s.live.frameState s.live.cur.1 (s.reg a.toNat).toNat = 0 := by
    rw [State.frameState, State.lsNum, State.live_ls]; exact hstate
  change execAwait a s = _
  unfold execAwait
  refine issue_plain_jump h rfl rfl rfl ?_
  rw [State.phase_live h, State.peekS_live h]
  exact (State.awaitFrame_idle hfit ((State.live_lsBad ..).trans hbad) hstate' (by rw [State.th_live]; exact hmon)).trans (hcount _)

/-- `await` of a frame without open children bumps the epoch and goes on. -/
theorem await_goes_on (hcount : Claims.frameCount s (s.reg a.toNat).toNat = 0) : ∃ t, exec (.await a) s = .next t ∧
    t.co.epoch = s.co.epoch + 1 ∧ t.th.pc = s.th.pc + 4 ∧ t.th.run = .running ∧ (∀ r < 31, t.reg r = s.reg r) ∧ t.th.vec = s.th.vec ∧
    t.th.prd = s.th.prd ∧ t.co.ls = s.co.ls ∧ Claims.elsewhere s t := by
  have hcount' : s.live.frameCount s.live.cur.1 (s.reg a.toNat).toNat = 0 := by rw [State.frameCount, State.lsNum, State.live_ls]; exact hcount
  have hexec := exec_await h a hfit hbad hstate hmon fun n => State.awaitCount_zero (a := n) hcount' (qmap_live h)
  have hcur : (s.live.frameRead (s.reg a.toNat)).cur = s.cur := State.logPort_cur ..
  have hread : Claims.elsewhere s.live (s.live.frameRead (s.reg a.toNat)) := State.elsewhere_logPort ..
  have hthreads (m j : Nat) : (s.live.frameRead (s.reg a.toNat)).thread m j = s.live.thread m j := State.thread_logPort ..
  have hls (m : Nat) : ((s.live.frameRead (s.reg a.toNat)).core m).ls = (s.live.core m).ls := State.logPort_ls ..
  obtain ⟨r, hcore⟩ : ∃ r, (s.live.frameRead (s.reg a.toNat)).core s.cur.1 = { s.live.core s.cur.1 with ring := r } := State.core_logPort ..
  generalize s.live.frameRead (s.reg a.toNat) = w at hexec hcur hread hthreads hls hcore
  have hth : (w.bumpEpoch s.cur.1).th = s.th.live := by
    rw [State.th, show (w.bumpEpoch s.cur.1).cur = s.cur from hcur, State.thread_bumpEpoch, hthreads]
    exact s.th_live
  rw [State.cur_live, State.goOn_eq, hth] at hexec
  have hbcur : (w.bumpEpoch s.cur.1).cur = s.cur := hcur
  have hbls (m : Nat) : ((w.bumpEpoch s.cur.1).core m).ls = (s.core m).ls := ((w.bumpEpoch_ls s.cur.1 m).1.trans (hls m)).trans (State.live_ls ..)
  have hbepoch : ((w.bumpEpoch s.cur.1).core s.cur.1).epoch = s.co.epoch + 1 := by
    rw [State.core_bumpEpoch_self, hcore]
    exact congrArg (· + 1) (s.core_setThread_field _ _ _ _ (·.epoch) fun _ => rfl)
  have hbelse : Claims.elsewhere s (w.bumpEpoch s.cur.1) :=
    elsewhere_trans hcur (elsewhere_trans s.cur_live s.elsewhere_live hread) (w.elsewhere_bumpEpoch _)
  generalize w.bumpEpoch s.cur.1 = b at hexec hbcur hbls hbepoch hbelse
  have hreg (t : Thread) (ht : t.glob = s.th.glob ∧ t.win = s.th.win ∧ t.depth = s.th.depth) (r : Nat) (hr : r < 31) : (b.setTh t).reg r = s.reg r := by
    rw [State.reg, State.reg, State.th_setTh, State.setTh_cur, hbcur]
    exact Thread.sreg_congr ht _ hr
  refine ⟨_, hexec, ?_, ?_, ?_, hreg _ ⟨rfl, rfl, rfl⟩, ?_, ?_, ?_, elsewhere_trans hbcur hbelse (b.elsewhere_setTh _)⟩
  · rw [← hbepoch, ← hbcur]; exact b.core_setThread_field _ _ _ _ (·.epoch) fun _ => rfl
  · rw [State.th_setTh]; rfl
  · rw [State.th_setTh]; rfl
  · rw [State.th_setTh]; rfl
  · rw [State.th_setTh]; rfl
  · rw [State.co, State.setTh_cur, hbcur]; exact (State.setTh_ls ..).trans (hbls _)

/-- `await` of a frame with open children parks the thread. -/
theorem await_parks (hcount : Claims.frameCount s (s.reg a.toNat).toNat ≠ 0) (hpark : s.live.mayPark = true) (hhome : Claims.atHome s)
    (hL : s.th.cntL = 0) (hdepth : s.th.depth ≤ 31) (hregion : s.th.wsr * 0x1000 + 0x1000 ≤ (s.reg a.toNat).toNat) :
    let x := (s.reg a.toNat).toNat
    ∃ t k, exec (.await a) s = .next t ∧ t.co.parked = s.co.parked ++ [k] ∧ k.frame = some x ∧ k.region = s.th.wsr ∧ t.th.run = .free ∧
      memGet (x + 6) t.co.ls = 1 ∧ Claims.frameCount t x = Claims.frameCount s x ∧ t.lsWord s.cur.1 (x + 8) = s.th.pc + 4 ∧
      t.lsWord s.cur.1 (x + 24) = s.th.srs ∧ Claims.elsewhere s t := by
  obtain ⟨hpend, -, hpair, -⟩ := id h
  have hcount' : s.live.frameCount s.live.cur.1 (s.reg a.toNat).toNat ≠ 0 := by rw [State.frameCount, State.lsNum, State.live_ls]; exact hcount
  have hexec := exec_await h a hfit hbad hstate hmon fun n => State.awaitCount_parks (a := n) hcount' hpark (atHome_setTh hhome _)
    (by rw [State.th_live]; exact hL) (by rw [State.th_live]; exact hpend) (qmap_live h)
  have hcur : (s.live.frameRead (s.reg a.toNat)).cur = s.cur := State.logPort_cur ..
  have hread : Claims.elsewhere s.live (s.live.frameRead (s.reg a.toNat)) := State.elsewhere_logPort ..
  have hrcount : (s.live.frameRead (s.reg a.toNat)).frameCount s.cur.1 (s.reg a.toNat).toNat = Claims.frameCount s (s.reg a.toNat).toNat := by
    rw [← s.cur_live, State.frameRead_count, State.frameCount, State.lsNum, State.live_ls]; rfl
  have hrth : (s.live.frameRead (s.reg a.toNat)).th = s.th.live := by
    rw [State.th, hcur]; exact (State.thread_logPort ..).trans s.th_live
  have hrparked : ((s.live.frameRead (s.reg a.toNat)).core s.cur.1).parked = s.co.parked := by
    obtain ⟨r, hcore⟩ := s.live.core_logPort s.live.cur.1 (s.reg a.toNat).toNat 4 6 s.live.self s.cur.1
    rw [State.frameRead, hcore]
    exact s.core_setThread_field _ _ _ _ (·.parked) fun _ => rfl
  generalize s.live.frameRead (s.reg a.toNat) = w at hexec hcur hread hrcount hrth hrparked
  have hth : w.endPhase.th = s.th.live.endPhase := by rw [State.endPhase, State.th_setTh, hrth]
  have hvcur : w.endPhase.cur = s.cur := hcur
  have hvcount : w.endPhase.frameCount w.endPhase.cur.1 (s.reg a.toNat).toNat = Claims.frameCount s (s.reg a.toNat).toNat := by
    rw [hvcur, ← hrcount, State.frameCount, State.lsNum, State.endPhase, State.setTh_ls]; rfl
  have hvparked : w.endPhase.co.parked = s.co.parked := by
    rw [State.co, hvcur, ← hrparked]; exact w.core_setThread_field _ _ _ _ (·.parked) fun _ => rfl
  have hvelse : Claims.elsewhere s w.endPhase :=
    elsewhere_trans hcur (elsewhere_trans s.cur_live s.elsewhere_live hread) (w.elsewhere_setTh _)
  generalize w.endPhase = v at hexec hth hvcur hvcount hvparked hvelse
  obtain ⟨t, k, hpark', htcur, hparked, hframe, hkregion, hrun, hstate', hcount'', hpc, hsrs, helse⟩ := v.park_facts (a := (s.reg a.toNat).toNat)
    (by rw [hth]; exact hpair) (by rw [hth]; exact hdepth) (by rw [hth]; exact hregion) (by rw [hvcount]; exact hcount)
  rw [hpark'] at hexec
  rw [hth] at hkregion hpc hsrs
  rw [hvcur] at hpc hsrs hcount'' hvcount
  refine ⟨t, k, hexec, by rw [hparked, hvparked], hframe, hkregion, hrun, hstate', ?_, hpc, hsrs, elsewhere_trans hvcur hvelse helse⟩
  rw [Claims.frameCount, htcur, hvcur]
  exact hcount''.trans hvcount

end

/-! ## `yield` -/

/-- The issuing thread's continuation stands at the tail of the run list, with its next instruction and SRS in its region (R297). -/
def State.listed (u : State) (n : Nat) : State :=
  let v := u.lsHard n (u.th.region + 0x100) (leBytes 8 (u.th.pc + 4).toNat ++ leBytes 8 u.th.srs.toNat) 7 u.self
  let w := v.lsHard n (u.th.region + 0x118) (leBytes 8 (u.th.task.lnch % 16)) 7 v.self
  w.setCo { w.co with runList := w.co.runList ++ [w.contOf none] }

theorem State.yieldPark_eq (v : State) : v.yieldPark = (
    let w := (v.saved v.cur.1 v.cur.2).listed v.cur.1
    w.releaseTask v.cur.1 w.cur.2) := by
  unfold State.yieldPark State.saved State.listed
  rfl

theorem State.listed_facts (u : State) : (u.listed u.cur.1).cur = u.cur ∧ Claims.elsewhere u (u.listed u.cur.1) ∧
    (∀ m j, (u.listed u.cur.1).thread m j = u.thread m j) ∧
    (u.listed u.cur.1).lsWord u.cur.1 (u.th.region + 0x100) = u.th.pc + 4 ∧
    (u.listed u.cur.1).lsWord u.cur.1 (u.th.region + 0x108) = u.th.srs ∧
    ∃ k, (u.listed u.cur.1).co.runList = u.co.runList ++ [k] ∧ k.frame = none ∧ k.region = u.th.wsr := by
  let v := u.lsHard u.cur.1 (u.th.region + 0x100) (leBytes 8 (u.th.pc + 4).toNat ++ leBytes 8 u.th.srs.toNat) 7 u.self
  let w := v.lsHard u.cur.1 (u.th.region + 0x118) (leBytes 8 (u.th.task.lnch % 16)) 7 v.self
  have hslots : State.slotsOnly u.cur.1 u w := State.slotsOnly_trans (u.slotsOnly_lsHard ..) (v.slotsOnly_lsHard ..)
  have hcur : w.cur = u.cur := State.slotsOnly_cur hslots
  have hthread (m j : Nat) : w.thread m j = u.thread m j := (State.thread_lsHard ..).trans (State.thread_lsHard ..)
  have hth : w.th = u.th := by rw [State.th, hcur]; exact hthread ..
  have hls : (w.core u.cur.1).ls = memWrite (u.th.region + 0x118) (leBytes 8 (u.th.task.lnch % 16))
      (memWrite (u.th.region + 0x100) (leBytes 8 (u.th.pc + 4).toNat ++ leBytes 8 u.th.srs.toNat) u.co.ls) := by
    rw [State.lsHard_ls, State.lsHard_ls]; rfl
  have hrunList : w.co.runList = u.co.runList := by
    obtain ⟨-, _, _, _, _, _, hcore⟩ := hslots
    rw [State.co, hcur, hcore]; rfl
  have hco : (u.listed u.cur.1).co = { w.co with runList := w.co.runList ++ [w.contOf none] } := w.co_setCo _
  have hlsWord (b : Nat) : (u.listed u.cur.1).lsWord u.cur.1 b = w.lsWord u.cur.1 b := by
    have hcore : (u.listed u.cur.1).core u.cur.1 = { w.co with runList := w.co.runList ++ [w.contOf none] } :=
      (congrArg (fun x : Nat × Nat => (u.listed u.cur.1).core x.1) hcur).symm.trans hco
    rw [State.lsWord, State.lsNum, hcore]
    exact congrArg (fun x : Nat × Nat => BitVec.ofNat 64 (memNum b 8 (w.core x.1).ls)) hcur
  refine ⟨hcur, elsewhere_trans hcur (elsewhere_of_slotsOnly hslots fun m j _ => hthread m j) (State.elsewhere_setCo rfl fun _ _ => rfl),
    fun m j => ?_, ?_, ?_, w.contOf none, by rw [hco, hrunList], rfl, congrArg Thread.wsr hth⟩
  · exact (w.thread_setCore_of_threads w.cur.1 (c := { w.co with runList := w.co.runList ++ [w.contOf none] }) rfl m j).trans (hthread m j)
  · rw [hlsWord, State.lsWord, State.lsNum, hls, memNum, memRead_memWrite_apart (.inl (by omega))]
    have hword := memNum_memWrite_word (pre := []) (post := leBytes 8 u.th.srs.toNat) (u.th.pc + 4) u.co.ls (a := u.th.region + 0x100)
      (b := u.th.region + 0x100) (by rw [List.length_nil, Nat.add_zero])
    rw [List.nil_append, memNum] at hword
    rw [hword, BitVec.ofNat_toNat, BitVec.setWidth_eq]
  · rw [hlsWord, State.lsWord, State.lsNum, hls, memNum, memRead_memWrite_apart (.inl (by omega))]
    have hword := memNum_memWrite_word (pre := leBytes 8 (u.th.pc + 4).toNat) (post := []) u.th.srs u.co.ls (a := u.th.region + 0x100)
      (b := u.th.region + 0x108) (by simp)
    rw [List.append_nil, memNum] at hword
    rw [hword, BitVec.ofNat_toNat, BitVec.setWidth_eq]

/-- A thread that yields is a continuation at the tail of the run list. -/
theorem State.yieldPark_facts (v : State) (hpair : v.th.pair = 0) (hdepth : v.th.depth ≤ 31) : ∃ t k, v.yieldPark = t ∧
    t.co.runList = v.co.runList ++ [k] ∧ k.frame = none ∧ k.region = v.th.wsr ∧ t.th.run = .free ∧
    t.lsWord v.cur.1 (v.th.region + 0x100) = v.th.pc + 4 ∧ t.lsWord v.cur.1 (v.th.region + 0x108) = v.th.srs ∧ Claims.elsewhere v t := by
  obtain ⟨hslots, hthreads, -⟩ := v.saved_keeps v.cur.1 v.cur.2 hdepth
  have hyield := v.yieldPark_eq
  generalize v.saved v.cur.1 v.cur.2 = u at hslots hthreads hyield
  have hcur : u.cur = v.cur := State.slotsOnly_cur hslots
  have hth : u.th = v.th := by rw [State.th, hcur]; exact hthreads ..
  obtain ⟨hlcur, hlelse, hlthreads, hpc, hsrs, k, hrunList, hframe, hkregion⟩ := u.listed_facts
  rw [hth] at hpc hsrs hkregion
  rw [hcur] at hlcur hlelse hlthreads hpc hsrs hrunList
  generalize u.listed v.cur.1 = w at hyield hlcur hlelse hlthreads hpc hsrs hrunList
  have hrelease : w.releaseTask v.cur.1 w.cur.2 = w.releaseSlot v.cur.1 v.cur.2 := by
    rw [hlcur]
    exact State.releaseTask_single (by rw [hlthreads, hthreads]; exact hpair)
  have hfield {α : Type} (f : Core → α) (hf : ∀ (c : Core) (i : Nat) (t : Thread), f (c.setThread i t) = f c) :
      f ((w.releaseSlot v.cur.1 v.cur.2).core v.cur.1) = f (w.core v.cur.1) := w.core_setThread_field _ _ _ _ f fun c => hf c _ _
  have hword (b : Nat) : (w.releaseSlot v.cur.1 v.cur.2).lsWord v.cur.1 b = w.lsWord v.cur.1 b := by
    rw [State.lsWord, State.lsNum, hfield (·.ls) fun _ _ _ => rfl]; rfl
  refine ⟨_, k, hyield.trans hrelease, ?_, hframe, hkregion, ?_, (hword _).trans hpc, (hword _).trans hsrs, ?_⟩
  · have hsaved : (u.core v.cur.1).runList = (v.core v.cur.1).runList := by
      obtain ⟨-, _, _, _, _, _, hcore⟩ := hslots
      rw [hcore]
    rw [State.co, hlcur, State.co, hcur, hsaved] at hrunList
    rw [State.co, show (w.releaseSlot v.cur.1 v.cur.2).cur = v.cur from hlcur, hfield (·.runList) fun _ _ _ => rfl, hrunList]
    rfl
  · obtain ⟨hrun, -⟩ := w.thread_releaseSlot v.cur.1 v.cur.2
    exact (congrArg (fun x : Nat × Nat => ((w.releaseSlot v.cur.1 v.cur.2).thread x.1 x.2).run) hlcur).trans hrun
  · have hrel : Claims.elsewhere w (w.releaseSlot v.cur.1 v.cur.2) := by rw [← hlcur]; exact w.elsewhere_releaseSlot
    exact elsewhere_trans hlcur (elsewhere_trans hcur (elsewhere_of_slotsOnly hslots fun m j _ => hthreads m j) hlelse) hrel

section
variable {s : State} (h : s.plain)
include h

/-- `yield` without anything to yield to, or with what it may not leave, goes on. -/
theorem exec_yield_on (hstay : (s.th.inl.isEmpty && s.th.monHeld.isNone && s.live.workWaits s.cur.1 && s.live.mayPark) = false) :
    exec .yield s = .next (s.went 4) := by
  have hstay' : (s.live.th.inl.isEmpty && s.live.th.monHeld.isNone && s.live.workWaits s.live.cur.1 && s.live.mayPark) = false := by
    rw [State.th_live]; exact hstay
  change execYield s = _
  unfold execYield
  refine issue_plain_jump h rfl rfl rfl ?_
  rw [hstay', if_neg Bool.false_ne_true, State.went_eq]

theorem exec_yield_parks (hleave : (s.th.inl.isEmpty && s.th.monHeld.isNone && s.live.workWaits s.cur.1 && s.live.mayPark) = true)
    (hhome : Claims.atHome s) (hL : s.th.cntL = 0) : exec .yield s = .next s.live.yieldPark := by
  obtain ⟨hpend, -⟩ := id h
  have hleave' : (s.live.th.inl.isEmpty && s.live.th.monHeld.isNone && s.live.workWaits s.live.cur.1 && s.live.mayPark) = true := by
    rw [State.th_live]; exact hleave
  have hready : s.live.parkReady = (true, s.live) :=
    State.parkReady_atHome (atHome_setTh hhome _) (by rw [State.th_live]; exact hL) (by rw [State.th_live]; exact hpend)
  change execYield s = _
  unfold execYield
  refine issue_plain_jump h rfl rfl rfl ?_
  rw [hleave', if_pos rfl, hready]
  rfl

end

/-- `yield` (R297). -/
theorem yieldWord : Claims.YieldWord := by
  intro s h
  refine ⟨fun hstay => exec_yield_on h ?_, fun hinl hmon hwork hpark hhome hL hdepth => ?_⟩
  · rcases hstay with hinl | hmon | hwork | hpark
    · rw [List.isEmpty_eq_false_iff.2 hinl]; rfl
    · rw [Option.isNone_eq_false_iff.2 hmon, Bool.and_false]; rfl
    · rw [hwork, Bool.and_false]; rfl
    · rw [hpark, Bool.and_false]
  · obtain ⟨-, -, hpair, -⟩ := id h
    have hexec := exec_yield_parks h (by rw [hinl, hmon, hwork, hpark]; rfl) hhome hL
    obtain ⟨t, k, hyield, hrunList, hframe, hregion, hrun, hpc, hsrs, helse⟩ := s.live.yieldPark_facts (by rw [State.th_live]; exact hpair)
      (by rw [State.th_live]; exact hdepth)
    rw [State.th_live] at hregion hpc hsrs
    have hlist : s.live.co.runList = s.co.runList := s.core_setThread_field _ _ _ _ (·.runList) fun _ => rfl
    exact ⟨t, k, hexec.trans (congrArg _ hyield), hrunList.trans (by rw [hlist]), hframe, hregion, hrun, hpc, hsrs,
      elsewhere_trans s.cur_live s.elsewhere_live helse⟩

/-- `await` (R47, R294). -/
theorem awaitWord : Claims.AwaitWord := fun _ h a halign hfit hbad hstate hmon =>
  ⟨fun hcount => await_goes_on h a ⟨halign, hfit⟩ hbad hstate hmon hcount,
   fun hcount hpark hhome hL hdepth hregion => await_parks h a ⟨halign, hfit⟩ hbad hstate hmon hcount hpark hhome hL hdepth hregion⟩

/-- Settles O38: `await` by its frame's COUNT, the end of a task and of an inline child, and `yield`. -/
theorem awaitingAndEnding : Obligations.AwaitingAndEnding := by
  unfold Obligations.AwaitingAndEnding
  exact ⟨awaitWord, endOfTask, yieldWord⟩

end Sys2Proof.Machine
end

section
/-!
Issuing while nothing keeps the thread waiting, in or outside a reconnaissance pass (R34, R91, R383).
-/

namespace Sys2Proof.Machine

open Sys2Proof

/-- The issuing thread waits for nothing and is watched by nothing; it may be in a reconnaissance pass. -/
def State.ready (s : State) : Prop :=
  s.th.pend = [] ∧ s.th.regBad = [] ∧ s.th.pair = 0 ∧ s.th.qmap = false ∧ s.th.phase = 0

theorem State.ready_of_plain {s : State} (h : s.plain) : s.ready := by
  obtain ⟨hpend, hbad, hpair, hmap, -, hphase⟩ := h
  exact ⟨hpend, hbad, hpair, hmap, hphase⟩

theorem State.ready_of_inPass {s : State} (h : Claims.inPass s) : s.ready := by
  obtain ⟨hpend, hbad, hpair, hmap, -, hphase⟩ := h
  exact ⟨hpend, hbad, hpair, hmap, hphase⟩

section
variable {s : State} (h : s.ready)
include h

theorem pend_ready : s.live.th.pend = [] := by rw [State.th_live]; exact h.1

theorem pair_ready : s.live.th.pair = 0 := by
  obtain ⟨-, -, hpair, -, -⟩ := h
  rw [State.th_live]; exact hpair

theorem qmap_ready : s.live.th.qmap = false := by
  obtain ⟨-, -, -, hmap, -⟩ := h
  rw [State.th_live]; exact hmap

theorem phase_ready : s.live.th.phase = 0 := by
  obtain ⟨-, -, -, -, hphase⟩ := h
  rw [State.th_live]; exact hphase

theorem readS_ready (n : Nat) : s.live.readS n = (s.reg n, s.live) := by
  rw [State.readS_off (qmap_ready h), State.sreg_live]

/-- A trap other than spill exhaustion is taken at once (R359). -/
theorem State.stop_trap_ready {code : Nat} (hc : code ≠ 16) (val : Word) : s.live.stop (.trap code val) = Claims.trapped s code val := by
  have hpc : s.live.th.pc = s.th.pc := by rw [State.th_live]; rfl
  simp only [State.stop, State.stopBy, State.gateTrap_alone (pair_ready h), State.enterTrap, if_neg hc, hpc, Claims.trapped]

variable {k : Issue} {body : State → Except Stop State}

/-- Nothing keeps a word of such a thread: no pending or poisoned register, and no trap of a pair. -/
theorem unhindered_ready : s.live.th.blocked k = false ∧ (∀ rs, s.live.poisonedIn rs = none) ∧ s.live.th.trapReady = none := by
  obtain ⟨-, hbad, -, -, -⟩ := id h
  have hbad' : s.live.th.regBad = [] := by rw [State.th_live]; exact hbad
  refine ⟨by simp [Thread.blocked, pend_ready h, -State.th_live], fun rs => ?_, by simp [Thread.trapReady, pair_ready h, -State.th_live]⟩
  simp [State.poisonedIn, hbad', -State.th_live]

/-- A word that no predicate and no pass suppresses acts. -/
theorem issue_ready (hpred : k.pred = none) (hquiet : k.quiet = false) (hbars : k.bars = none) :
    issue k s body = .next (finish k s.live (body s.live)) := by
  have hissued : s.setTh { s.th with run := .running, qblock := none } = s.live := rfl
  obtain ⟨hblocked, hsound, htrap⟩ := unhindered_ready h (k := k)
  have hqueues : s.live.queueCheck k = none := by simp [State.queueCheck, qmap_ready h, -State.th_live]
  simp only [issue, issueState, State.poisoned, hissued, hblocked, hsound, hqueues, htrap, pair_ready h, hpred, hbars, hquiet,
    Option.toList, List.map_nil, Bool.false_and, Bool.false_eq_true, if_false]
  rfl

/-- A word that a pass suppresses only goes on (R91). -/
theorem issue_quiet (hpred : k.pred = none) (hquiet : k.quiet = true) (hpass : s.th.inRecon = true) :
    issue k s body = .next (s.went k.code.bytes) := by
  have hissued : s.setTh { s.th with run := .running, qblock := none } = s.live := rfl
  obtain ⟨hblocked, hsound, htrap⟩ := unhindered_ready h (k := k)
  have hpass' : s.live.th.inRecon = true := by rw [State.th_live]; exact hpass
  simp only [issue, issueState, hissued, hblocked, hsound, htrap, hpred, hquiet, hpass', Option.toList, List.map_nil,
    Bool.and_self, Bool.false_eq_true, if_false, if_true, State.went_eq]

variable (hpred : k.pred = none) (hquiet : k.quiet = false) (hbars : k.bars = none)
include hpred hquiet hbars

theorem issue_ready_ok {t : State} (hj : k.jumps = false) (hb : body s.live = .ok t) : issue k s body = .next (t.advance k.code.bytes) := by
  rw [issue_ready h hpred hquiet hbars, hb, finish_ok, hj]
  rfl

theorem issue_ready_stop {r : Stop} (hb : body s.live = .error r) : issue k s body = .next (s.live.stop r) := by
  rw [issue_ready h hpred hquiet hbars, hb, finish_error]

theorem issue_ready_trap {code : Nat} {val : Word} (hc : code ≠ 16) (hb : body s.live = .error (.trap code val)) :
    issue k s body = .next (Claims.trapped s code val) := by
  rw [issue_ready_stop h hpred hquiet hbars hb, State.stop_trap_ready h hc]

theorem issue_ready_stall (hb : body s.live = .error (.stall s.live)) : issue k s body = .next (Claims.waits s) := by
  obtain ⟨-, -, hpair, -, -⟩ := id h
  rw [issue_ready_stop h hpred hquiet hbars hb, State.stop_stall_live hpair]

end

/-- The issuing thread is that of the core that is put back. -/
theorem State.th_setCo (s : State) {c : Core} (hc : c.thread s.cur.2 = s.th) : (s.setCo c).th = s.th :=
  (congrArg (fun c => Core.thread c s.cur.2) (State.core_setCore_self s s.cur.1 c)).trans hc

/-- A trap after translations keeps what they filled in the core's TLB (R115). -/
theorem State.stop_trapTlb {s : State} (h : s.ready) {code : Nat} (hc : code ≠ 16) (tlb : List TlbEntry) (val : Word) :
    s.live.stop (.trapTlb tlb code val) = (s.live.setCo { s.live.co with tlb := tlb }).takeTrap code val s.th.pc := by
  have hth : (s.live.setCo { s.live.co with tlb := tlb }).th = s.live.th := State.th_setCo _ rfl
  have hpc : s.live.th.pc = s.th.pc := by rw [State.th_live]; rfl
  simp only [State.stop, State.stopBy, hth, State.gateTrap_alone ((congrArg Thread.pair hth).trans (pair_ready h)), State.enterTrap, if_neg hc, hpc]

theorem State.stop_trapTlb_own {s : State} (h : s.ready) {code : Nat} (hc : code ≠ 16) (val : Word) :
    s.live.stop (.trapTlb s.live.co.tlb code val) = Claims.trapped s code val := by
  rw [State.stop_trapTlb h hc]
  exact congrArg (fun u => State.takeTrap u code val s.th.pc) (s.setCo_co_setTh _)

/-! ## Steps that keep every memory -/

/-- A step that leaves every memory alone, and every thread but the issuing one. -/
structure State.KeepsMemory (s t : State) : Prop where
  cur : t.cur = s.cur
  ls : ∀ m, (t.core m).ls = (s.core m).ls
  elsewhere : Claims.elsewhere s t

namespace State.KeepsMemory

variable {s t u : State}

theorem refl (s : State) : s.KeepsMemory s := ⟨rfl, fun _ => rfl, s.elsewhere_refl⟩

theorem trans (h : s.KeepsMemory t) (h' : t.KeepsMemory u) : s.KeepsMemory u :=
  ⟨h'.cur.trans h.cur, fun m => (h'.ls m).trans (h.ls m), elsewhere_trans h.cur h.elsewhere h'.elsewhere⟩

theorem setTh (h : s.KeepsMemory t) (x : Thread) : s.KeepsMemory (t.setTh x) :=
  h.trans ⟨rfl, fun _ => State.setTh_ls .., t.elsewhere_setTh x⟩

theorem live (s : State) : s.KeepsMemory s.live := (refl s).setTh _

theorem advance (h : s.KeepsMemory t) (k : Nat) : s.KeepsMemory (t.advance k) := h.setTh _

theorem logPort (h : s.KeepsMemory t) (n a size kind : Nat) (w : Source) : s.KeepsMemory (t.logPort n a size kind w) :=
  h.trans ⟨State.logPort_cur .., fun _ => State.logPort_ls .., t.elsewhere_logPort n a size kind w⟩

theorem bump (h : s.KeepsMemory t) : s.KeepsMemory t.bump :=
  h.trans ⟨rfl, fun _ => rfl, rfl, rfl, fun _ => rfl, fun _ _ => rfl, fun _ _ _ => rfl⟩

theorem fresh (h : s.KeepsMemory t) : s.KeepsMemory t.fresh.2 :=
  h.trans ⟨rfl, fun _ => rfl, rfl, rfl, fun _ => rfl, fun _ _ => rfl, fun _ _ _ => rfl⟩

theorem send (h : s.KeepsMemory t) (f : Flight) : s.KeepsMemory (t.send f) :=
  h.trans ⟨rfl, fun _ => rfl, rfl, rfl, fun _ => rfl, fun _ _ => rfl, fun _ _ _ => rfl⟩

/-- Lines of the L1 are no memory that a claim reads. -/
theorem setLine (h : s.KeepsMemory t) (l : Line) : s.KeepsMemory (t.setCo (t.co.setLine l)) := by
  refine h.trans ⟨rfl, fun m => ?_, State.elsewhere_setCo rfl fun _ _ => rfl⟩
  by_cases hm : m = t.cur.1
  · rw [hm]; exact (congrArg Core.ls (State.core_setCore_self t t.cur.1 (t.co.setLine l))).trans rfl
  · exact congrArg Core.ls (State.core_setCore_ne _ hm _)

theorem setCo_co (t : State) : t.KeepsMemory (t.setCo t.co) := by
  refine ⟨rfl, fun m => ?_, State.elsewhere_setCo rfl fun _ _ => rfl⟩
  by_cases hm : m = t.cur.1
  · rw [hm]; exact congrArg Core.ls (State.core_setCore_self ..)
  · exact congrArg Core.ls (State.core_setCore_ne _ hm _)

theorem co_ls (h : s.KeepsMemory t) : t.co.ls = s.co.ls := by rw [State.co, h.cur, h.ls, State.co]

end State.KeepsMemory

end Sys2Proof.Machine
end

section
/-!
Loads of the local store by local address (R34, R100, R214).
-/

namespace Sys2Proof.Machine

open Sys2Proof

/-- The value of a signed scalar load is its bytes, sign-extended (R214). -/
theorem LoadExt.result_signed {n : Nat} {bs : List Byte} (h : bs.length = n) (old : Vec) (ps : List (Nat × Nat)) :
    (LoadExt.result (.signed (8 * n)) old (memWrite 0 bs []) ps).extractLsb' 0 64 = (BitVec.ofNat (8 * n) (leNat bs)).signExtend 64 := by
  have hnum : memNum 0 n (memWrite 0 bs []) = leNat bs := by rw [← h, memNum_memWrite_self]
  rw [LoadExt.result_scalar (by simp), LoadExt.value, Nat.mul_div_cancel_left _ (by decide), hnum, extS_eq_signExtend]

/-- Banks that serve a load after the thread's next slot leave its register pending (R34, R100). -/
theorem State.finishLocal_later {s : State} {d la n : Nat} {ext : LoadExt} {bs : List Byte} (h : s.co.cyc + 16 ≤ s.co.bankReady la n)
    (hd : d ≠ 0) (hd' : d ≠ 31) : ∃ l, s.finishLocal (.s d) ext la n bs =
      s.fresh.2.setTh { s.th with loads := s.th.loads ++ [l], pend := s.th.pend ++ [(s.th.abs (.s d), s.nextId)] } := by
  have hslow : ¬ s.co.bankReady la n < s.co.cyc + 16 := by omega
  simp only [State.finishLocal, State.finishAt, hslow, decide_false, Bool.or_false]
  split
  · next hdst => exact absurd (RegName.s.inj hdst) hd
  · next hdst => exact absurd (RegName.s.inj hdst) hd'
  · exact ⟨_, rfl⟩

section
variable {s : State} (h : s.ready) {c : Code} {a d n : Nat} {off : Word} (hin : (s.reg a + off).toNat + n ≤ 0x80000)
  (hbad : anyBad s.co.lsBad (s.reg a + off).toNat n = false)
include h hin hbad

/-- A load of the local store reads its bytes, is logged, and leaves them to the banks. -/
theorem loadLocal_reads : loadLocal c a off d n s = .next
    (((s.live.logPort s.cur.1 (s.reg a + off).toNat n 3 s.live.self).bump.finishLocal (.s d) (.signed (8 * n)) (s.reg a + off).toNat n
      (s.lsSeen s.cur.1 (s.reg a + off).toNat n)).advance c.bytes) := by
  have hload := State.localLoad_ok (s := s.live) (la := s.reg a + off) hin (by rw [State.co_live]; exact hbad)
  have hqueue : (s.live.logPort s.cur.1 (s.reg a + off).toNat n 3 s.live.self).bump.th.queueOf d = none :=
    State.queueOf_plain (by
      change (s.live.logPort s.cur.1 (s.reg a + off).toNat n 3 s.live.self).th.qmap = _
      rw [State.th_logPort]; exact qmap_ready h) _
  have hseen : s.live.lsSeen s.cur.1 (s.reg a + off).toNat n = s.lsSeen s.cur.1 (s.reg a + off).toNat n := s.lsSeen_live _ _
  refine issue_ready_ok h rfl rfl rfl rfl ?_
  rw [readS_ready h]
  simp only [hload, hseen, State.cur_live, hqueue, bind, Except.bind, pure, Except.pure]

end

/-- The state after a load that was logged, before the banks serve it. -/
theorem State.th_logged_live (s : State) (a n : Nat) : (s.live.logPort s.cur.1 a n 3 s.live.self).bump.th = s.th.live := by
  change (s.live.logPort s.cur.1 a n 3 s.live.self).th = _
  rw [State.th_logPort, State.th_live]

theorem State.bankReady_logged (s : State) (a n : Nat) : let t := (s.live.logPort s.cur.1 a n 3 s.live.self).bump
    t.co.bankReady a n = s.co.bankReady a n ∧ t.co.cyc = s.co.cyc := by
  obtain ⟨hready, hcyc⟩ := s.live.bankReady_logPort s.cur.1 s.cur.1 a n 3 s.live.self a n
  have hco : s.live.core s.cur.1 = s.co.setThread s.cur.2 s.th.live := s.co_live
  dsimp only
  rw [State.co_bump, State.co, State.logPort_cur, State.cur_live, hready, hcyc, hco]
  exact ⟨rfl, rfl⟩

theorem State.keepsMemory_logged (s : State) (a n : Nat) : s.KeepsMemory (s.live.logPort s.cur.1 a n 3 s.live.self).bump :=
  ((State.KeepsMemory.live s).logPort ..).bump

/-- What a local load does, for each of its forms. -/
theorem loadLocal_loadsLocal {s : State} (h : s.ready) {i : Instr} {c : Code} {a d n : Nat} {off : Word}
    (hi : exec i s = loadLocal c a off d n s) : Claims.loadsLocal s i (s.reg a + off) d n c.bytes := by
  intro hin hbad
  rw [hi, loadLocal_reads h hin hbad]
  generalize hla : (s.reg a + off).toNat = la
  obtain ⟨hready, hcyc⟩ := s.bankReady_logged la n
  have hth := s.th_logged_live la n
  by_cases hnow : s.co.bankReady la n < s.co.cyc + 16
  case pos =>
    rw [State.finishLocal_now (by rw [hready, hcyc]; exact hnow), hth, Thread.setReg, LoadExt.result_signed (length_lsSeen ..)]
    have hkeep := ((s.keepsMemory_logged la n).setTh (s.th.live.setSreg d
      ((BitVec.ofNat (8 * n) (leNat (s.lsSeen s.cur.1 la n))).signExtend 64))).advance c.bytes
    refine ⟨_, rfl, hkeep.co_ls, hkeep.elsewhere, fun _ => ?_, fun hlate => absurd hnow (by omega)⟩
    rw [State.th_advance, State.th_setTh, Thread.went_setSreg]
  case neg =>
    by_cases hd : d = 0 ∨ d = 31
    case pos =>
      have hconst : (s.live.logPort s.cur.1 la n 3 s.live.self).bump.finishLocal (.s d) (.signed (8 * n)) la n (s.lsSeen s.cur.1 la n) =
          (s.live.logPort s.cur.1 la n 3 s.live.self).bump.setTh s.th.live := by
        rcases hd with rfl | rfl <;> exact congrArg (State.setTh _) hth
      have hkeep := ((s.keepsMemory_logged la n).setTh s.th.live).advance c.bytes
      rw [hconst]
      exact ⟨_, rfl, hkeep.co_ls, hkeep.elsewhere, fun hsoon => absurd hsoon hnow, fun _ h0 h31 => absurd hd (by simp [h0, h31])⟩
    case neg =>
      obtain ⟨hd0, hd31⟩ := not_or.1 hd
      obtain ⟨l, hlate⟩ := State.finishLocal_later (s := (s.live.logPort s.cur.1 la n 3 s.live.self).bump) (d := d) (la := la) (n := n)
        (ext := .signed (8 * n)) (bs := s.lsSeen s.cur.1 la n) (by rw [hready, hcyc]; omega) hd0 hd31
      rw [hlate, hth]
      have hkeep (t : Thread) := ((s.keepsMemory_logged la n).fresh.setTh t).advance c.bytes
      refine ⟨_, rfl, (hkeep _).co_ls, (hkeep _).elsewhere, fun hsoon => absurd hsoon hnow, fun _ _ _ => ⟨?pend, fun r _ => ?regs, ?pc⟩⟩
      case pend => rw [State.th_advance, State.th_setTh, show s.th.live.pend = [] from h.1]; rfl
      case regs =>
        have hcur : ((s.live.logPort s.cur.1 la n 3 s.live.self).bump).fresh.2.cur = s.cur := State.logPort_cur ..
        rw [State.reg, State.th_advance, State.th_setTh, State.cur_advance, State.setTh_cur, hcur]
        rfl
      case pc => rw [State.th_advance, State.th_setTh]; rfl

/-- The local loads of R214 are one function of their fields. -/
theorem exec_of_mem_localLoads (k : BitVec 12) (a d : BitVec 5) : ∀ r ∈ Claims.localLoads,
    ∃ c : BitVec 32, ∀ s, exec (r.1 k a d) s = loadLocal (.long c) a.toNat (k.signExtend 64) d.toNat r.2 s := by
  simp only [Claims.localLoads, List.forall_mem_cons, List.not_mem_nil, false_implies, implies_true, and_true]
  exact ⟨⟨_, fun s => rfl⟩, ⟨_, fun s => rfl⟩, ⟨_, fun s => rfl⟩, _, fun s => rfl⟩

end Sys2Proof.Machine
end

section
/-!
Stores at the issuing core's own port (R85, R104, R214): bytes, dirty bits of tile-slot segments, and nothing else.
-/

namespace Sys2Proof.Machine

open Sys2Proof

/-! ## The dirty bits of a frame (R85) -/

/-- The dirty segments of a frame after a write of n bytes at a (R85). -/
def FrameUse.marked (f : FrameUse) (a n : Nat) : List Nat :=
  f.dirty ++ (List.range' (a / 64) ((a + n - 1) / 64 - a / 64 + 1)).filterMap (fun g =>
    if f.slots.any (fun x => decide (x.1 ≤ g * 64 ∧ g * 64 < x.1 + x.2)) && !f.dirty.contains (g * 64) then some (g * 64) else none)

theorem Core.markDirty_frames (c : Core) (a n : Nat) :
    (c.markDirty a n).frames = c.frames.map (fun f => { f with dirty := f.marked a n }) := rfl

/-- A write marks the segments of tile slots that it reaches, and keeps those that are marked. -/
theorem FrameUse.mem_marked (f : FrameUse) {a n : Nat} (hn : 0 < n) (g : Nat) : g ∈ f.marked a n ↔
    g ∈ f.dirty ∨ (g % 64 = 0 ∧ g < a + n ∧ a < g + 64 ∧ ∃ x ∈ f.slots, x.1 ≤ g ∧ g < x.1 + x.2) := by
  have hreach (k : Nat) : k ∈ List.range' (a / 64) ((a + n - 1) / 64 - a / 64 + 1) ↔ k * 64 < a + n ∧ a < k * 64 + 64 := by
    rw [List.mem_range'_1]; omega
  simp only [FrameUse.marked, List.mem_append, List.mem_filterMap, hreach]
  constructor
  · rintro (hold | ⟨k, ⟨hlt, hgt⟩, hk⟩)
    · exact .inl hold
    · split at hk
      · next hcond =>
        obtain rfl := Option.some.inj hk
        simp only [Bool.and_eq_true, List.any_eq_true, decide_eq_true_eq] at hcond
        exact .inr ⟨Nat.mul_mod_left .., hlt, hgt, hcond.1⟩
      · cases hk
  · rintro (hold | ⟨hmod, hlt, hgt, hslot⟩)
    · exact .inl hold
    · by_cases hold : g ∈ f.dirty
      · exact .inl hold
      · have hg : g / 64 * 64 = g := by omega
        refine .inr ⟨g / 64, by rw [hg]; exact ⟨hlt, hgt⟩, ?_⟩
        rw [hg, if_pos]
        simpa [hold] using hslot

/-! ## A store at the own port -/

/-- A step that stores bytes at an address of the issuing core's local store, and does nothing else but what the trace ring takes. -/
structure State.StoresHere (s t : State) (a : Nat) (bs : List Byte) : Prop where
  frame : ∃ cs cl, t = { s with cores := cs, clusters := cl }
  th : t.th = s.th
  numbers : ∀ n, (t.core n).lcore = (s.core n).lcore ∧ (t.core n).numbered = (s.core n).numbered
  stored : Claims.storedAt s t s.cur.1 a bs
  dirty : Claims.segmentsDirty s t a bs.length
  elsewhere : Claims.elsewhere s t

namespace State.StoresHere

variable {s t : State} {a : Nat} {bs : List Byte} (h : s.StoresHere t a bs)
include h

theorem cur : t.cur = s.cur := by obtain ⟨cs, cl, rfl⟩ := h.frame; rfl

theorem flights : t.flights = s.flights := by obtain ⟨cs, cl, rfl⟩ := h.frame; rfl

theorem site : t.site = s.site := by obtain ⟨cs, cl, rfl⟩ := h.frame; rfl

theorem fused : t.fused = s.fused := by obtain ⟨cs, cl, rfl⟩ := h.frame; rfl

theorem bootPidx : t.bootPidx = s.bootPidx := by obtain ⟨cs, cl, rfl⟩ := h.frame; rfl

end State.StoresHere

theorem State.lsStore_storesHere (s : State) (a : Nat) {bs : List Byte} (hbs : 0 < bs.length) (kind : Nat) (w : Source) :
    s.StoresHere (s.lsStore s.cur.1 a bs kind w) a bs := by
  have hput : s.lsStore s.cur.1 a bs kind w = (s.setCore s.cur.1 (((s.core s.cur.1).lsPut a bs).markDirty a bs.length)).logPort
      s.cur.1 a bs.length kind w := by rw [State.lsStore, if_neg (by omega)]
  generalize hu : s.setCore s.cur.1 (((s.core s.cur.1).lsPut a bs).markDirty a bs.length) = u at hput
  have hcore : u.core s.cur.1 = ((s.core s.cur.1).lsPut a bs).markDirty a bs.length := by rw [← hu, State.core_setCore_self]
  have hcur : u.cur = s.cur := by rw [← hu]; rfl
  have hls : (u.core s.cur.1).ls = memWrite a bs (s.core s.cur.1).ls := by rw [hcore]; rfl
  obtain ⟨r, hr⟩ := u.core_logPort s.cur.1 a bs.length kind w s.cur.1
  rw [hput]
  refine ⟨?frame, ?th, fun n => ?numbers, ⟨fun j hj => ?new, fun x hx => ?old⟩, ⟨?length, fun j f hf => ?marked⟩, ?elsewhere⟩
  case frame =>
    obtain ⟨cs, cl, hlog⟩ := u.logPort_frame s.cur.1 a bs.length kind w
    exact ⟨cs, cl, by rw [hlog, ← hu]; rfl⟩
  case numbers =>
    obtain ⟨r', hr'⟩ := u.core_logPort s.cur.1 a bs.length kind w n
    rw [hr']
    by_cases hn : n = s.cur.1
    · rw [hn, hcore]; exact ⟨rfl, rfl⟩
    · rw [← hu, State.core_setCore_ne _ hn]; exact ⟨rfl, rfl⟩
  case th => rw [State.th_logPort, State.th, State.thread, hcur, hcore]; rfl
  case new => rw [State.logPort_ls, hls, memGet_memWrite, if_pos (by omega), Nat.add_sub_cancel_left]
  case old => rw [State.logPort_ls, hls, memGet_memWrite, if_neg (by omega)]
  case length => rw [State.co, State.logPort_cur, hcur, hr, hcore]; exact List.length_map ..
  case marked =>
    refine ⟨{ f with dirty := f.marked a bs.length }, ?_, rfl, f.mem_marked hbs⟩
    rw [State.co, State.logPort_cur, hcur, hr, hcore]
    exact (List.getElem?_map ..).trans (congrArg (Option.map _) hf)
  case elsewhere =>
    refine elsewhere_trans hcur ?_ (u.elsewhere_logPort ..)
    rw [← hu]
    exact State.elsewhere_setCo (s := s) rfl fun _ _ => rfl

/-- Outside a pass a store at the own port is one access. -/
theorem State.putHere_storesHere {s : State} (h : s.th.inRecon = false) (a : Nat) {bs : List Byte} (hbs : 0 < bs.length) :
    s.StoresHere (s.putHere a bs) a bs := by
  rw [State.putHere, if_neg (by rw [h]; decide)]
  exact s.lsStore_storesHere a hbs 0 s.self

/-- What a store does holds of the step of the word that makes it. -/
theorem State.StoresHere.of_kept {s w t : State} {a : Nat} {bs : List Byte} (h : w.StoresHere t a bs) (hkeep : s.KeepsMemory w)
    (hw : w.th = s.th.live) (hframes : w.co.frames = s.co.frames) (k : Nat) :
    (t.advance k).th = s.th.went k ∧ Claims.storedAt s (t.advance k) s.cur.1 a bs ∧ Claims.elsewhere s (t.advance k) ∧
      Claims.segmentsDirty s (t.advance k) a bs.length ∧ (t.advance k).flights = w.flights := by
  have hcur : t.cur = w.cur := h.cur
  have hflights := h.flights
  obtain ⟨-, hth, -, ⟨hnew, hold⟩, ⟨hlen, hdirty⟩, helse⟩ := h
  have hframes' : (t.advance k).co.frames = t.co.frames := by rw [State.advance, State.co_setTh]; rfl
  rw [hkeep.cur] at hnew hold
  refine ⟨?_, ⟨fun j hj => ?_, fun x hx => ?_⟩, ?_, ⟨?_, fun j f hf => ?_⟩, hflights⟩
  · rw [State.th_advance, hth, hw]; rfl
  · rw [State.advance_ls]; exact hnew j hj
  · rw [State.advance_ls]; exact (hold x hx).trans (congrArg (memGet x) (hkeep.ls _))
  · exact elsewhere_trans hkeep.cur hkeep.elsewhere (elsewhere_trans hcur helse (t.elsewhere_setTh _))
  · rw [hframes', hlen, hframes]
  · rw [hframes']; exact hdirty j f (by rw [hframes]; exact hf)

/-- A store that does not write the boot block's last word in site mode commits nothing (R355). -/
theorem State.commitAfter_of_not_site {s : State} (h : s.site = false) (s0 : State) (rs : List (Nat × Nat)) :
    s.commitAfter s0 rs = .ok s := by simp [State.commitAfter, State.atCommit, h]

/-- The store of a number, in range and clear of the claimed range. -/
theorem State.localStore_puts {s : State} (hrecon : s.th.inRecon = false) {la : Word} {bs : List Byte} (hin : la.toNat + bs.length ≤ 0x80000)
    (hfree : s.co.inClaim la.toNat bs.length = false) : s.localStore la bs = (s.putHere la.toNat bs).commitAfter s [(la.toNat, bs.length)] := by
  have hnone : s.co.refusedAt la.toNat bs.length = none := by rw [Core.refusedAt, hfree]; rfl
  have hrange : outOfLocal la bs.length = false := by simpa [outOfLocal] using hin
  simp only [State.localStore, hrange, hrecon, hnone, Bool.false_eq_true, if_false]

/-! ## The words -/

section
variable {s : State} (h : s.ready) {a d n : Nat} {off : Word}
include h

/-- The body of a local store makes the store of its register's low bytes. -/
theorem storeLocal_body : (let (x, v) := s.live.readS d
    let (y, v) := v.readS a
    v.localStore (y + off) (leBytes n x.toNat)) = s.live.localStore (s.reg a + off) (leBytes n (s.reg d).toNat) := by
  rw [readS_ready h]
  dsimp only
  rw [readS_ready h]

end

/-- What a local store does, for each of its forms. -/
theorem storeLocal_storesLocal {s : State} (h : s.plain) {i : Instr} {c : Code} {a d n : Nat} {off : Word} (hn : 0 < n)
    (hi : exec i s = storeLocal c a off d n s) : Claims.storesLocal s i (s.reg a + off) (s.reg d) n c.bytes := by
  intro hin hfree hsite
  have hready := State.ready_of_plain h
  obtain ⟨-, -, -, -, hrecon, -⟩ := h
  have hrecon' : s.live.th.inRecon = false := by rw [State.th_live]; exact hrecon
  have hlen : (leBytes n (s.reg d).toNat).length = n := length_leBytes ..
  have hput := State.putHere_storesHere hrecon' (s.reg a + off).toNat (bs := leBytes n (s.reg d).toNat) (by rw [hlen]; exact hn)
  have hbody := State.localStore_puts hrecon' (la := s.reg a + off) (bs := leBytes n (s.reg d).toNat) (by rw [hlen]; exact hin)
    (by rw [hlen, State.co_live]; exact hfree)
  rw [State.commitAfter_of_not_site (hput.site.trans hsite)] at hbody
  obtain ⟨hth, hstored, helse, hdirty, -⟩ := hput.of_kept (.live s) s.th_live (by rw [State.co_live]; rfl) c.bytes
  rw [hlen] at hdirty
  refine ⟨_, ?_, hth, hstored, helse, hdirty⟩
  rw [hi, storeLocal]
  exact issue_ready_ok hready rfl rfl rfl rfl ((storeLocal_body hready).trans hbody)

theorem exec_of_mem_localStores (k : BitVec 12) (a d : BitVec 5) : ∀ r ∈ Claims.localStores, r.2 ∈ pieceSizes ∧
    ∃ c : BitVec 32, ∀ s, exec (r.1 k a d) s = storeLocal (.long c) a.toNat (k.signExtend 64) d.toNat r.2 s := by
  simp only [Claims.localStores, List.forall_mem_cons, List.not_mem_nil, false_implies, implies_true, and_true]
  exact ⟨⟨by decide, _, fun s => rfl⟩, ⟨by decide, _, fun s => rfl⟩, ⟨by decide, _, fun s => rfl⟩, by decide, _, fun s => rfl⟩

theorem pos_of_mem_pieceSizes {n : Nat} (h : n ∈ pieceSizes) : 0 < n := by
  revert n; decide

theorem localLoadsAndStores : Claims.LocalLoadsAndStores := by
  intro s h
  have hready := State.ready_of_plain h
  refine ⟨fun r hr i a d => ?_, fun r hr i a d => ?_, fun d a => ⟨?_, ?_⟩⟩
  · obtain ⟨c, hexec⟩ := exec_of_mem_localLoads i a d r hr
    exact loadLocal_loadsLocal hready (hexec s)
  · obtain ⟨hn, c, hexec⟩ := exec_of_mem_localStores i a d r hr
    exact storeLocal_storesLocal h (pos_of_mem_pieceSizes hn) (hexec s)
  · have hzero : s.reg a.toNat + 0 = s.reg a.toNat := BitVec.add_zero _
    have hload := loadLocal_loadsLocal hready (i := .cLdDLs d a) (off := 0) (d := d.toNat) (a := a.toNat) (n := 8) rfl
    rwa [hzero] at hload
  · have hzero : s.reg a.toNat + 0 = s.reg a.toNat := BitVec.add_zero _
    have hstore := storeLocal_storesLocal h (i := .cStDLs d a) (off := 0) (d := d.toNat) (a := a.toNat) (n := 8) (by decide) rfl
    rwa [hzero] at hstore

/-! ## Traps (R104, R214, R360) -/

theorem localTraps : Claims.LocalTraps := by
  intro s h i a d
  have hready := State.ready_of_plain h
  obtain ⟨-, -, -, -, hrecon, -⟩ := h
  have hrecon' : s.live.th.inRecon = false := by rw [State.th_live]; exact hrecon
  refine ⟨fun r hr hout => ?range, fun r hr hin hclaim => ?claimed⟩
  case range =>
    have hrange : outOfLocal (s.reg a.toNat + i.signExtend 64) r.2 = true := by simpa [outOfLocal] using hout
    rcases List.mem_append.1 hr with hr | hr
    · obtain ⟨c, hexec⟩ := exec_of_mem_localLoads i a d r hr
      rw [hexec]
      refine issue_ready_trap hready rfl rfl rfl (by decide) ?_
      rw [readS_ready hready]
      simp only [State.localLoad, hrange, if_true]
      rfl
    · obtain ⟨-, c, hexec⟩ := exec_of_mem_localStores i a d r hr
      rw [hexec]
      refine issue_ready_trap hready rfl rfl rfl (by decide) ((storeLocal_body hready).trans ?_)
      simp only [State.localStore, length_leBytes, hrange, if_true]
  case claimed =>
    obtain ⟨-, c, hexec⟩ := exec_of_mem_localStores i a d r hr
    have hrange : outOfLocal (s.reg a.toNat + i.signExtend 64) r.2 = false := by simpa [outOfLocal] using hin
    have hrefused : s.live.co.refusedAt (s.reg a.toNat + i.signExtend 64).toNat r.2 =
        some (max (s.reg a.toNat + i.signExtend 64).toNat s.co.hvb) := by
      rw [State.co_live, Core.refusedAt, if_pos (by exact hclaim)]; rfl
    rw [hexec]
    refine issue_ready_trap hready rfl rfl rfl (by decide) ((storeLocal_body hready).trans ?_)
    simp only [State.localStore, length_leBytes, hrange, hrecon', hrefused, Bool.false_eq_true, if_false]

end Sys2Proof.Machine
end

section
/-!
The boot commit (R355): what ending site mode leaves in the thread, the cores and the package.
-/

namespace Sys2Proof.Machine

open Sys2Proof

/-! ## The numbers of the cores -/

section
variable (n : Nat) (c : Core)

@[simp] theorem Core.commit_ls : (c.commit n).ls = c.ls := by unfold Core.commit; dsimp only; split <;> rfl

@[simp] theorem Core.commit_threads : (c.commit n).threads = c.threads := by unfold Core.commit; dsimp only; split <;> rfl

@[simp] theorem Core.commit_thread (i : Nat) : (c.commit n).thread i = c.thread i := by simp only [Core.thread, Core.commit_threads]

variable {n c}

/-- A core whose SET bit is 1 takes its number. -/
theorem Core.commit_set (hn : n < 2048) (hset : bit (memNum 0x7FFC0 8 c.ls) 63 = true) :
    c.commit n = { c with lcore := memNum 0x7FFC0 8 c.ls % 0x1000, numbered := true } := if_pos ⟨hn, hset⟩

theorem Core.commit_unset (hset : bit (memNum 0x7FFC0 8 c.ls) 63 = false) : c.commit n = c :=
  if_neg fun h => by rw [hset] at h; exact absurd h.2 (by decide)

end

section
variable (s : State)

/-- The cores of some sites are replaced. -/
theorem State.core_replaced {t : State} {f : Nat → Core} {l : List Nat} (hl : l.Nodup)
    (ht : t.cores = l.foldl (fun cs n => tblSet n (f n) cs) s.cores) (hf : t.fused = s.fused) (n : Nat) :
    (n ∈ l → t.core n = f n) ∧ (n ∉ l → t.core n = s.core n) := by
  have hcore : t.core n = tblGet (Core.reset s.fused n) n (l.foldl (fun cs n => tblSet n (f n) cs) s.cores) := by
    rw [State.core, ht, hf, tblGet]
  have hkeys : l.map (fun n => n) = l := List.map_id' l
  refine ⟨fun h => ?_, fun h => ?_⟩
  · rw [hcore, tblGet_foldl_tblSet (fun n => n) f _ _ _ (by rw [hkeys]; exact hl) h]
  · rw [hcore, tblGet_foldl_tblSet_of_not_mem (fun n => n) f _ _ _ (by rw [hkeys]; exact h), State.core, tblGet]

theorem State.core_congr {s t : State} (hc : t.cores = s.cores) (hf : t.fused = s.fused) (n : Nat) : t.core n = s.core n := by
  rw [State.core, State.core, hc, hf]

theorem State.bootCommit_cores : s.bootCommit.cores = ((List.range 2048).filter (fun n => !s.fused.contains n)).foldl
    (fun cs n => tblSet n (((s.restOne s.cur.1 s.cur.2).core n).commit n) cs) (s.restOne s.cur.1 s.cur.2).cores := by
  have hfused : (s.restOne s.cur.1 s.cur.2).fused = s.fused := rfl
  simp only [State.bootCommit, hfused]
  exact List.foldl_ext _ _ _ fun cs n _ => congrArg (fun c => tblSet n (Core.commit n c) cs) (State.core_congr rfl rfl n)

theorem State.mem_sites (n : Nat) : n ∈ (List.range 2048).filter (fun n => !s.fused.contains n) ↔ n < 2048 ∧ n ∉ s.fused := by simp

theorem State.core_bootCommit (n : Nat) : (n < 2048 ∧ n ∉ s.fused → s.bootCommit.core n = ((s.restOne s.cur.1 s.cur.2).core n).commit n) ∧
    (¬ (n < 2048 ∧ n ∉ s.fused) → s.bootCommit.core n = (s.restOne s.cur.1 s.cur.2).core n) := by
  rw [← s.mem_sites n]
  exact (s.restOne s.cur.1 s.cur.2).core_replaced (List.nodup_range.filter _) s.bootCommit_cores rfl n

@[simp] theorem State.bootCommit_ls (n : Nat) : (s.bootCommit.core n).ls = (s.core n).ls := by
  have hrest : ((s.restOne s.cur.1 s.cur.2).core n).ls = (s.core n).ls := by simp [State.restOne, State.releaseSlot]
  obtain ⟨hsite, hother⟩ := s.core_bootCommit n
  by_cases hn : n < 2048 ∧ n ∉ s.fused
  · rw [hsite hn, Core.commit_ls, hrest]
  · rw [hother hn, hrest]

theorem State.thread_bootCommit (n i : Nat) : s.bootCommit.thread n i = (s.restOne s.cur.1 s.cur.2).thread n i := by
  obtain ⟨hsite, hother⟩ := s.core_bootCommit n
  by_cases hn : n < 2048 ∧ n ∉ s.fused
  · rw [State.thread, hsite hn, Core.commit_thread, State.thread]
  · rw [State.thread, hother hn, State.thread]

/-- A slot that goes out of rotation leaves the numbers and the local store of every core. -/
theorem State.numbers_restOne (n : Nat) : ((s.restOne s.cur.1 s.cur.2).core n).lcore = (s.core n).lcore ∧
    ((s.restOne s.cur.1 s.cur.2).core n).numbered = (s.core n).numbered ∧ ((s.restOne s.cur.1 s.cur.2).core n).ls = (s.core n).ls := by
  refine ⟨?_, ?_, by simp [State.restOne, State.releaseSlot]⟩
  · exact (State.core_setThread_field _ _ _ _ _ (·.lcore) fun _ => rfl).trans (State.core_setThread_field _ _ _ _ _ (·.lcore) fun _ => rfl)
  · exact (State.core_setThread_field _ _ _ _ _ (·.numbered) fun _ => rfl).trans (State.core_setThread_field _ _ _ _ _ (·.numbered) fun _ => rfl)

/-- An enabled core takes the number of its word where its SET bit is 1, and keeps its own where it is 0. -/
theorem State.numbers_bootCommit {n : Nat} (hn : n < 2048) (hf : n ∉ s.fused) : let w := s.lsWord n 0x7FFC0
    (w.getLsbD 63 = true → (s.bootCommit.core n).lcore = w.toNat % 0x1000 ∧ (s.bootCommit.core n).numbered = true) ∧
    (w.getLsbD 63 = false → (s.bootCommit.core n).lcore = (s.core n).lcore ∧ (s.bootCommit.core n).numbered = (s.core n).numbered) := by
  obtain ⟨hcore, hnumbered, hls⟩ := s.numbers_restOne n
  have hword : (s.lsWord n 0x7FFC0).toNat = memNum 0x7FFC0 8 ((s.restOne s.cur.1 s.cur.2).core n).ls := by
    rw [hls, State.lsWord, State.lsNum, BitVec.toNat_ofNat, Nat.mod_eq_of_lt]
    have := leNat_lt (memRead 0x7FFC0 8 (s.core n).ls)
    rwa [length_memRead] at this
  have hset : bit (memNum 0x7FFC0 8 ((s.restOne s.cur.1 s.cur.2).core n).ls) 63 = (s.lsWord n 0x7FFC0).getLsbD 63 := by
    rw [← hword, bit_toNat]
  dsimp only
  rw [(s.core_bootCommit n).1 ⟨hn, hf⟩]
  refine ⟨fun h => ?_, fun h => ?_⟩
  · rw [Core.commit_set hn (hset.trans h), hword]; exact ⟨rfl, rfl⟩
  · rw [Core.commit_unset (hset.trans h)]; exact ⟨hcore, hnumbered⟩

end

/-- A store's bytes are read back as their number. -/
theorem State.StoresHere.memNum_self {s t : State} {a : Nat} {bs : List Byte} (h : s.StoresHere t a bs) :
    memNum a bs.length t.co.ls = leNat bs := by
  obtain ⟨hnew, -⟩ := h.stored
  have hread : memRead a bs.length t.co.ls = bs := by
    apply List.ext_getElem (by simp)
    intro j hj hj'
    rw [getElem_memRead, State.co, h.cur, hnew j hj', List.getD_eq_getElem _ _ hj']
  rw [memNum, hread]

theorem State.StoresHere.memNum_word {s t : State} {a : Nat} {x : Word} (h : s.StoresHere t a (leBytes 8 x.toNat)) :
    memNum a 8 t.co.ls = x.toNat := by
  have hself := h.memNum_self
  rwa [length_leBytes, leNat_leBytes, Nat.mod_eq_of_lt x.isLt] at hself

/-- The number words lie below COMMIT, and a store there leaves them. -/
theorem State.StoresHere.lsWord_below {s t : State} {a : Nat} {bs : List Byte} (h : s.StoresHere t a bs) {x : Nat} (hx : x + 8 ≤ a) (n : Nat) :
    t.lsWord n x = s.lsWord n x := by
  obtain ⟨-, hold⟩ := h.stored
  obtain ⟨-, -, -, hls, -⟩ := h.elsewhere
  by_cases hn : n = s.cur.1
  · rw [hn, State.lsWord, State.lsWord, State.lsNum, State.lsNum, memNum, memNum, memRead_congr fun j hj => hold (x + j) (.inl (by omega))]
  · rw [State.lsWord_congr (hls n hn)]

/-- A store that leaves COMMIT[63] = 1 commits the boot, or waits for its thread's counters (R296, R355). -/
theorem State.commitAfter_commits {s t : State} (hsite : s.site = true) (hcur : s.cur = (bootSite s.fused, 0)) {x : Word}
    (h : s.StoresHere t 0x7FFC8 (leBytes 8 x.toNat)) (hx : x.getLsbD 63 = true) :
    t.commitAfter s [(0x7FFC8, 8)] = if s.th.cntr ≠ 0 then .error (.stall s) else .ok t.bootCommit := by
  have hat : t.atCommit [(0x7FFC8, 8)] = true := by
    have hroot : t.cur = (bootSite t.fused, 0) := by rw [h.cur, h.fused, hcur]
    simp [State.atCommit, h.site, hsite, hroot]
  have hbit : bit (memNum 0x7FFC8 8 t.co.ls) 63 = true := by rw [h.memNum_word, bit_toNat, hx]
  simp [State.commitAfter, hat, hbit]

theorem bootCommit : Claims.BootCommit := by
  intro s h hsite hcur i a d hla hx hfree
  have hready := State.ready_of_plain h
  obtain ⟨-, -, -, -, hrecon, -⟩ := h
  have hrecon' : s.live.th.inRecon = false := by rw [State.th_live]; exact hrecon
  generalize hxv : s.reg d.toNat = x at *
  have hlen : (leBytes 8 x.toNat).length = 8 := length_leBytes ..
  have hput := State.putHere_storesHere hrecon' 0x7FFC8 (bs := leBytes 8 x.toNat) (by rw [hlen]; decide)
  generalize hu : s.live.putHere 0x7FFC8 (leBytes 8 x.toNat) = u at hput
  have haddr : (0x7FFC8 : Word).toNat = 0x7FFC8 := rfl
  have hbody : s.live.localStore 0x7FFC8 (leBytes 8 x.toNat) = if s.live.th.cntr ≠ 0 then .error (.stall s.live) else .ok u.bootCommit := by
    rw [State.localStore_puts hrecon' (by rw [hlen]; decide) (by rw [hlen, State.co_live]; exact hfree), hlen,
      haddr, hu, State.commitAfter_commits (s := s.live) hsite hcur hput hx]
  have hcntr : s.live.th.cntr = s.th.cntr := by rw [State.th_live]; rfl
  rw [hcntr] at hbody
  have hstep := storeLocal_body (d := d.toNat) (a := a.toNat) (n := 8) (off := i.signExtend 64) hready
  rw [hla, hxv, hbody] at hstep
  refine ⟨fun hwait => ?waits, fun hzero => ?commits⟩
  case waits =>
    rw [if_pos hwait] at hstep
    exact issue_ready_stall hready rfl rfl rfl hstep
  case commits =>
    rw [if_neg (not_not_intro hzero)] at hstep
    have hcur' : u.cur = s.cur := hput.cur
    obtain ⟨hrun, hwsr, -, -⟩ := State.thread_restOne u u.cur.1 u.cur.2
    have hth : u.bootCommit.th = (u.restOne u.cur.1 u.cur.2).thread u.cur.1 u.cur.2 := u.thread_bootCommit _ _
    have hkeep : (u.thread u.cur.1 u.cur.2).wsr = s.th.wsr := by
      rw [show u.thread u.cur.1 u.cur.2 = s.th.live from hput.th.trans s.th_live]; rfl
    obtain ⟨hnew, hold⟩ := hput.stored
    refine ⟨u.bootCommit.advance 4, issue_ready_ok hready rfl rfl rfl rfl hstep, rfl, ?encnt, ?pidx, ?run, ?wsr, ⟨fun j hj => ?new, fun y hy => ?old⟩,
      fun n hn hf => ?numbers⟩
    case encnt => exact congrArg (· % 0x1000) hput.memNum_word
    case pidx => exact hput.bootPidx
    case run => rw [State.th_advance, hth]; exact hrun
    case wsr => rw [State.th_advance, hth]; exact hwsr.trans hkeep
    case new => rw [State.advance_ls, State.bootCommit_ls]; exact hnew j hj
    case old => rw [State.advance_ls, State.bootCommit_ls]; exact (hold y hy).trans (congrArg (memGet y) (s.live_ls _))
    case numbers =>
      obtain ⟨hlcore, hnumbered⟩ := hput.numbers n
      have hword : u.lsWord n 0x7FFC0 = s.lsWord n 0x7FFC0 := (hput.lsWord_below (by decide) n).trans (State.lsWord_congr (s.live_ls n) _)
      obtain ⟨hset, hunset⟩ := u.numbers_bootCommit hn (by rw [hput.fused]; exact hf)
      rw [hword] at hset hunset
      have hcore : (u.core n).lcore = (s.core n).lcore ∧ (u.core n).numbered = (s.core n).numbered :=
        ⟨hlcore.trans (State.core_setThread_field _ _ _ _ _ (·.lcore) fun _ => rfl),
          hnumbered.trans (State.core_setThread_field _ _ _ _ _ (·.numbered) fun _ => rfl)⟩
      have hadvance : ((u.bootCommit.advance 4).core n).lcore = (u.bootCommit.core n).lcore ∧
          ((u.bootCommit.advance 4).core n).numbered = (u.bootCommit.core n).numbered :=
        ⟨State.core_setThread_field _ _ _ _ _ (·.lcore) fun _ => rfl, State.core_setThread_field _ _ _ _ _ (·.numbered) fun _ => rfl⟩
      dsimp only
      rw [hadvance.1, hadvance.2, ← hcore.1, ← hcore.2]
      exact ⟨hset, hunset⟩

/-- Settles O16: the three parts above. -/
theorem localAccesses : Obligations.LocalAccesses := by
  unfold Obligations.LocalAccesses
  exact ⟨localLoadsAndStores, localTraps, bootCommit⟩

end Sys2Proof.Machine
end

section
/-!
The requests of an access outside the L1 (R97): its aligned pieces cover its bytes in order.
-/

namespace Sys2Proof.Machine

open Sys2Proof

/-! ## Pieces -/

/-- The length of the first piece of an access. -/
def pieceAt (a n : Nat) : Nat := ([64, 32, 16, 8, 4, 2].find? (fun z => decide (a % z = 0 ∧ z ≤ n))).getD 1

theorem pieces_cons {fuel a n : Nat} (hn : 0 < n) :
    pieces (fuel + 1) a n = (a, pieceAt a n) :: pieces fuel (a + pieceAt a n) (n - pieceAt a n) := by
  rw [pieces, if_neg (by omega)]
  rfl

/-- A piece is aligned, of a size that a request has, and lies in the access. -/
theorem pieceAt_spec (a : Nat) {n : Nat} (hn : 0 < n) : a % pieceAt a n = 0 ∧ pieceAt a n ≤ n ∧ pieceAt a n ∈ pieceSizes := by
  rw [pieceAt]
  cases hfind : [64, 32, 16, 8, 4, 2].find? (fun z => decide (a % z = 0 ∧ z ≤ n)) with
  | none => exact ⟨Nat.mod_one a, hn, by decide⟩
  | some z =>
    have hz := List.find?_some hfind
    have hmem : z ∈ [64, 32, 16, 8, 4, 2] := List.mem_of_find?_eq_some hfind
    obtain ⟨hmod, hle⟩ := of_decide_eq_true hz
    refine ⟨hmod, hle, ?_⟩
    simp only [List.mem_cons, List.not_mem_nil, or_false] at hmem
    rcases hmem with rfl | rfl | rfl | rfl | rfl | rfl <;> decide

theorem pieceAt_pos (a : Nat) {n : Nat} (hn : 0 < n) : 0 < pieceAt a n := by
  obtain ⟨-, -, hmem⟩ := pieceAt_spec a hn
  exact pos_of_mem_pieceSizes hmem

/-- Induction over the pieces of an access. -/
theorem pieces_induction {motive : Nat → Nat → List (Nat × Nat) → Prop} (nil : ∀ a, motive a 0 [])
    (cons : ∀ a n ps, 0 < n → motive (a + pieceAt a n) (n - pieceAt a n) ps → motive a n ((a, pieceAt a n) :: ps)) (fuel a n : Nat)
    (hfuel : n ≤ fuel) : motive a n (pieces fuel a n) := by
  induction fuel generalizing a n with
  | zero => obtain rfl := Nat.le_zero.1 hfuel; exact nil a
  | succ fuel ih =>
    by_cases hn : n = 0
    · subst hn; exact nil a
    · have hpos := Nat.pos_of_ne_zero hn
      have := pieceAt_pos a hpos
      rw [pieces_cons hpos]
      exact cons a n _ hpos (ih _ _ (by omega))

theorem small_of_mem_pieceSizes : ∀ n ∈ pieceSizes, n ≤ 8 → n ∈ [1, 2, 4, 8] := by decide

/-- The pieces of an access of at most 8 bytes are aligned, of 1, 2, 4 or 8 bytes. -/
theorem pieces_small {n : Nat} (a : Nat) (hn : n ≤ 8) : ∀ p ∈ pieces n a n, p.2 ∈ [1, 2, 4, 8] ∧ p.1 % p.2 = 0 := by
  refine pieces_induction (motive := fun _ n ps => n ≤ 8 → ∀ p ∈ ps, p.2 ∈ [1, 2, 4, 8] ∧ p.1 % p.2 = 0)
    (fun _ _ _ h => absurd h (by simp)) (fun a n ps hpos ih hn p hp => ?_) n a n le_rfl hn
  rcases List.mem_cons.1 hp with rfl | hp
  · obtain ⟨hmod, hle, hmem⟩ := pieceAt_spec a hpos
    exact ⟨small_of_mem_pieceSizes _ hmem (by omega), hmod⟩
  · exact ih (by omega) p hp

/-- The pieces of an access cover its bytes in order. -/
theorem pieces_cover (a n : Nat) : (pieces n a n).flatMap (fun p => List.range' p.1 p.2) = List.range' a n := by
  refine pieces_induction (motive := fun a n ps => ps.flatMap (fun p => List.range' p.1 p.2) = List.range' a n)
    (fun _ => rfl) (fun a n ps hpos ih => ?_) n a n le_rfl
  obtain ⟨-, hle, -⟩ := pieceAt_spec a hpos
  rw [List.flatMap_cons, ih, List.range'_append_1, Nat.add_sub_cancel' hle]

/-- The bytes that the pieces of an access take are its bytes. -/
theorem pieces_bytes (bs : List Byte) (a : Nat) : (pieces bs.length a bs.length).flatMap (fun p => (bs.drop (p.1 - a)).take p.2) = bs := by
  have hgen := pieces_induction (motive := fun b n ps => a ≤ b → ps.flatMap (fun p => (bs.drop (p.1 - a)).take p.2) = (bs.drop (b - a)).take n)
    (fun _ _ => by simp) (fun b n ps hpos ih hab => ?_) bs.length a bs.length le_rfl le_rfl
  · simpa using hgen
  · obtain ⟨-, hle, -⟩ := pieceAt_spec b hpos
    have hskip : b + pieceAt b n - a = b - a + pieceAt b n := by omega
    rw [List.flatMap_cons, ih (by omega), hskip, ← List.drop_drop, ← List.take_add, Nat.add_sub_cancel' hle]

theorem pieces_ne_nil (a : Nat) {n : Nat} (hn : 0 < n) : pieces n a n ≠ [] := by
  obtain ⟨m, rfl⟩ := Nat.exists_eq_succ_of_ne_zero (Nat.pos_iff_ne_zero.1 hn)
  rw [pieces_cons hn]; simp

/-! ## The segments of an access -/

theorem left_pos (va : Word) : 0 < 0x10000 - (va.extractLsb' 0 16).toNat := by
  have := (va.extractLsb' 0 16).isLt
  omega

/-- An access of n bytes is one segment of n bytes, or two in two pages that make n bytes together. -/
theorem State.segments_sizes {v w : State} {va : Word} {n acc : Nat} {gs : List Seg} (hn : 0 < n) (h : v.segments va n acc = .ok (gs, w)) :
    (∀ g ∈ gs, 0 < g.size) ∧ (gs.map (·.size)).sum = n ∧ gs ≠ [] := by
  have hleft := left_pos va
  simp only [State.segments, bind, Except.bind] at h
  generalize 0x10000 - (va.extractLsb' 0 16).toNat = left at h hleft
  split at h
  · cases h
  · split at h
    · split at h
      · cases h
      · cases h; simp [hn]
      · cases h; simp [hn]
    · split at h
      · cases h
      · next hfit _ _ _ =>
        split at h
        · split at h
          · cases h; simp; omega
          · cases h
        · split at h
          · cases h; simp; omega
          · cases h
        · cases h
        · cases h

end Sys2Proof.Machine
end

section
/-!
Device loads at issue (R34, R90, R97, R187, R211): what is asked for, and what is written at once.
-/

namespace Sys2Proof.Machine

open Sys2Proof

/-! ## The requests of a load -/

/-- Flights more on their way. -/
def State.sending (s : State) (fs : List Flight) : State := { s with flights := s.flights ++ fs }

@[simp] theorem State.th_sending (s : State) (fs : List Flight) : (s.sending fs).th = s.th := rfl

@[simp] theorem State.sending_sending (s : State) (fs gs : List Flight) : (s.sending fs).sending gs = s.sending (fs ++ gs) := by
  simp only [State.sending, List.append_assoc]

theorem State.KeepsMemory.sending {s t : State} (h : s.KeepsMemory t) (fs : List Flight) : s.KeepsMemory (t.sending fs) :=
  h.trans ⟨rfl, fun _ => rfl, rfl, rfl, fun _ => rfl, fun _ _ => rfl, fun _ _ _ => rfl⟩

/-- Sending one flight for each item sends them all, where a flight does not depend on those before it. -/
theorem State.foldl_send {β : Type} (F : State → β → Flight) (hF : ∀ s fs p, F (State.sending s fs) p = F s p) (ps : List β) (s : State) :
    ps.foldl (fun s p => s.send (F s p)) s = s.sending (ps.map (F s)) := by
  induction ps generalizing s with
  | nil => simp [State.sending]
  | cons p ps ih =>
    have hrest : ps.map (F (s.send (F s p))) = ps.map (F s) := List.map_congr_left fun q _ => hF s [F s p] q
    rw [List.foldl_cons, ih, hrest]
    exact State.sending_sending s [F s p] _

section
variable (s : State) (id : Nat) (word : BitVec 32) (parts : List (Nat × Nat))

/-- The request for one piece of a segment of a load outside the L1. -/
def State.loadFlight (g : Seg) (place : Nat) (p : Nat × Nat) : Flight :=
  { s.mkFlight .load id (place + (p.1 - g.pa)) (g.va + BitVec.ofNat 64 (p.1 - g.pa)) p.1 p.2 [] false (g.nc || decide (g.tgt ≠ .dram)) word with
    far := g.far, parts := parts }

/-- The requests for the segments of a load outside the L1. -/
def State.loadFlights (place : Nat) : List Seg → List Flight
  | [] => []
  | g :: gs => (pieces g.size g.pa g.size).map (s.loadFlight id word parts g place) ++ State.loadFlights (place + g.size) gs

theorem State.loadFlights_sending (fs : List Flight) (place : Nat) (gs : List Seg) :
    (s.sending fs).loadFlights id word parts place gs = s.loadFlights id word parts place gs := by
  induction gs generalizing place with
  | nil => rfl
  | cons g gs ih => rw [State.loadFlights, State.loadFlights, ih]; rfl

theorem State.mem_loadFlights {f : Flight} {place : Nat} {gs : List Seg} (h : f ∈ s.loadFlights id word parts place gs) :
    f.kind = .load ∧ f.grp = id ∧ f.stage = .request ∧ ∃ g ∈ gs, ∃ p ∈ pieces g.size g.pa g.size, f.pa = p.1 ∧ f.size = p.2 := by
  induction gs generalizing place with
  | nil => cases h
  | cons g gs ih =>
    rcases List.mem_append.1 h with h | h
    · obtain ⟨p, hp, rfl⟩ := List.mem_map.1 h
      exact ⟨rfl, rfl, rfl, g, List.mem_cons_self, p, hp, rfl, rfl⟩
    · obtain ⟨hkind, hgrp, hstage, g', hg', hp⟩ := ih h
      exact ⟨hkind, hgrp, hstage, g', List.mem_cons_of_mem _ hg', hp⟩

/-- The requests of a load of at most 8 bytes are aligned pieces of its segments. -/
theorem State.loadFlights_inPieces (place : Nat) {gs : List Seg} (hsize : ∀ g ∈ gs, g.size ≤ 8) :
    Claims.inPieces gs (s.loadFlights id word parts place gs) := by
  refine ⟨fun f hf => ?_, ?_⟩
  · obtain ⟨-, -, hstage, g, hg, p, hp, hpa, hsz⟩ := s.mem_loadFlights id word parts hf
    obtain ⟨hmem, hal⟩ := pieces_small g.pa (hsize g hg) p hp
    exact ⟨hstage, by rw [hsz]; exact hmem, by rw [hpa, hsz]; exact hal⟩
  · induction gs generalizing place with
    | nil => rfl
    | cons g gs ih =>
      rw [State.loadFlights, List.flatMap_append, ih _ fun g' hg' => hsize g' (List.mem_cons_of_mem _ hg'), List.flatMap_cons, List.flatMap_map]
      exact congrArg (· ++ _) (pieces_cover g.pa g.size)

theorem State.loadFlights_ne_nil (place : Nat) {gs : List Seg} (hpos : ∀ g ∈ gs, 0 < g.size) (hne : gs ≠ []) :
    s.loadFlights id word parts place gs ≠ [] := by
  cases gs with
  | nil => exact absurd rfl hne
  | cons g gs =>
    simp only [State.loadFlights, ne_eq, List.append_eq_nil_iff, List.map_eq_nil_iff, not_and]
    exact fun h => absurd h (pieces_ne_nil g.pa (hpos g List.mem_cons_self))

end

/-- A segment of a load outside the L1 and the own window sends its requests. -/
theorem State.loadSeg_requests (s : State) (l : Load) (word : BitVec 32) (parts : List (Nat × Nat)) {g : Seg} (place : Nat)
    (hcached : g.cached = false) (htgt : g.tgt ≠ .window s.cur.1) : s.loadSeg l word parts g place =
      .ok ({ l with waiting := l.waiting + (pieces g.size g.pa g.size).length },
        s.sending ((pieces g.size g.pa g.size).map (s.loadFlight l.id word parts g place))) := by
  have hown : s.ownWindow g = false := decide_eq_false htgt
  rw [State.loadSeg, if_neg (by rw [hown]; decide), if_neg (by rw [hcached]; exact Bool.false_ne_true)]
  exact congrArg (fun w => Except.ok (_, w)) (State.foldl_send (fun s p => s.loadFlight l.id word parts g place p) (fun _ _ _ => rfl) _ s)

theorem State.loadSegs_requests (s : State) (l : Load) (word : BitVec 32) (parts : List (Nat × Nat)) (place : Nat) {gs : List Seg}
    (h : ∀ g ∈ gs, g.cached = false ∧ g.tgt ≠ .window s.cur.1) : s.loadSegs l word parts place gs =
      .ok ({ l with waiting := l.waiting + (s.loadFlights l.id word parts place gs).length },
        s.sending (s.loadFlights l.id word parts place gs)) := by
  induction gs generalizing s l place with
  | nil => simp [State.loadSegs, State.loadFlights, State.sending]
  | cons g gs ih =>
    obtain ⟨hcached, htgt⟩ := h g List.mem_cons_self
    have hrest := ih (s.sending ((pieces g.size g.pa g.size).map (s.loadFlight l.id word parts g place)))
      { l with waiting := l.waiting + (pieces g.size g.pa g.size).length } (place + g.size) fun g' hg' => h g' (List.mem_cons_of_mem _ hg')
    simp only [State.loadSegs, s.loadSeg_requests l word parts place hcached htgt, bind, Except.bind, hrest, State.loadFlights_sending,
      State.sending_sending, State.loadFlights, List.length_append, List.length_map, Nat.add_assoc]

/-! ## The whole load -/

/-- A load before its accesses are made. -/
def Load.begun (id : Nat) (dst : RegName) (ext : LoadExt) (els : List Acc) : Load :=
  { id := id, dst := dst, ext := ext, got := [], waiting := 0, elems := els, acq := false, refused := false, dead := false, counted := false
    isLoad := true, toQueue := false }

section
variable {v : State} {va : Word} {n acc : Nat} {gs : List Seg}

theorem State.checkAll_single (hseg : v.segments va n acc = .ok (gs, v)) (hfree : acc = 0 ∨ v.ownRefused gs = none) :
    v.checkAll acc [(va, 0, n)] = .ok ([((va, 0, n), gs)], v) := by
  have hnone : (if acc = 0 then none else v.ownRefused gs) = none := by
    rcases hfree with rfl | hfree
    · rfl
    · rw [hfree, ite_self]
  simp only [State.checkAll, hseg, hnone, bind, Except.bind, pure, Except.pure]

theorem State.checkAll_error {e : Stop} (hseg : v.segments va n acc = .error e) : v.checkAll acc [(va, 0, n)] = .error e := by
  simp only [State.checkAll, hseg, bind, Except.bind]

theorem State.loadAccs_single (s : State) (l : Load) (word : BitVec 32) (a : Acc) (gs : List Seg) :
    s.loadAccs l word [(a, gs)] = s.loadSegs l word (partsOf gs) a.2.1 gs := by
  simp only [State.loadAccs, bind, Except.bind]
  split
  · next h => rw [h]
  · next h => rw [h]

/-- A scalar load takes ACC where its first byte comes from no local store (log entry 29). -/
def countsIn (gs : List Seg) : Bool := match gs with | g :: _ => (match g.tgt with | .window _ => false | _ => true) | [] => true

/-- What a load enters for ACC. -/
def accEntry (va : Word) (id : Nat) (gs : List Seg) : List (Word × Option Word × Nat × Nat) := if countsIn gs then [(va, none, id, 0)] else []

theorem State.deviceLoad_single (hseg : v.segments va n 0 = .ok (gs, v)) (hn : 0 < n) (word : BitVec 32) (d : Nat) {ext : LoadExt} (hext : ext ≠ .vector)
    {l : Load} {w : State} (hloads : v.fresh.2.loadSegs (Load.begun v.nextId (v.th.abs (.s d)) ext [(va, 0, n)]) word (partsOf gs) 0 gs = .ok (l, w)) :
    let t := { w.th with accQ := w.th.accQ ++ accEntry va v.nextId gs }
    v.deviceLoad word [(va, 0, n)] [(va, 0, n)] (.s d) ext false =
      if l.waiting = 0 then .ok ((w.setTh t).completeLoad v.cur.1 v.cur.2 l)
      else if 1023 ≤ t.cntL then .error (.stall v)
      else .ok ((w.setTh t).setTh { t with loads := t.loads ++ [{ l with counted := true }], cntL := t.cntL + 1
                                           pend := if d = 0 ∨ d = 31 then t.pend else t.pend ++ [(t.abs (.s d), v.nextId)] }) := by
  have hid : v.fresh.1 = v.nextId := rfl
  have hfind : [(((va, 0, n), gs) : Acc × List Seg)].find? (fun c => decide (c.1.2.1 ≤ (0 : Nat) ∧ 0 < c.1.2.1 + c.1.2.2)) = some ((va, 0, n), gs) :=
    List.find?_cons_of_pos (by simpa using hn)
  rw [Load.begun] at hloads
  simp only [State.deviceLoad, State.checkAll_single hseg (.inl rfl), State.loadAccs_single, bind, Except.bind, hid, pure, Except.pure, hloads,
    List.filter_cons, List.filter_nil, hfind, decide_eq_false hext, Bool.false_or]
  have hentry : (if (match some ((va, 0, n), gs) with
      | some (_, g :: _) => (match g.tgt with | .window _ => false | _ => true)
      | _ => true) = true then [((va, 0, n) : Acc)] else []).map (fun e => (e.1, (none : Option Word), v.nextId, e.2.1)) = accEntry va v.nextId gs := by
    cases gs with
    | nil => rfl
    | cons g gs => obtain ⟨_, _, _, _, tgt, _⟩ := g; cases tgt <;> rfl
  by_cases hd : d = 0 ∨ d = 31
  case pos =>
    rw [if_pos hd, ← hentry]
    rcases hd with rfl | rfl <;> rfl
  case neg =>
    rw [if_neg hd, ← hentry]
    obtain ⟨h0, h31⟩ := not_or.1 hd
    simp only [RegName.s.injEq, h0, h31, imp_self, Bool.not_false, if_true] <;> rfl

end

end Sys2Proof.Machine
end

section
/-!
What a word that loads device memory leaves (R34, R90, R187, R211): requests and a pending register, or the value at once.
-/

namespace Sys2Proof.Machine

open Sys2Proof

/-! ## Scalar registers -/

/-- Two threads with the same scalar registers. -/
def Thread.SameRegs (t u : Thread) : Prop := t.glob = u.glob ∧ t.win = u.win ∧ t.depth = u.depth ∧ ∀ i, t.status i = u.status i

theorem Thread.SameRegs.sreg {t u : Thread} (h : t.SameRegs u) (i r : Nat) : t.sreg i r = u.sreg i r := by
  obtain ⟨hglob, hwin, hdepth, hstatus⟩ := h
  simp only [Thread.sreg, hglob, hwin, hdepth, hstatus]

theorem Thread.SameRegs.setSreg {t u : Thread} (h : t.SameRegs u) (d : Nat) (v : Word) : (t.setSreg d v).SameRegs (u.setSreg d v) := by
  obtain ⟨hglob, hwin, hdepth, hstatus⟩ := h
  simp only [Thread.setSreg]
  split
  · exact ⟨hglob, hwin, hdepth, hstatus⟩
  · split
    · exact ⟨hglob, by rw [hwin, hdepth], hdepth, hstatus⟩
    · exact ⟨by rw [hglob], hwin, hdepth, hstatus⟩

/-- A register keeps its value when another is written. -/
theorem Thread.sreg_setSreg_ne (t : Thread) (i : Nat) {d r : Nat} (hr : r < 31) (hrd : r ≠ d) (v : Word) : (t.setSreg d v).sreg i r = t.sreg i r := by
  have h31 : r ≠ 31 := by omega
  simp only [Thread.setSreg]
  split
  · rfl
  · split
    · next hd =>
      by_cases hw : 8 ≤ r ∧ r ≤ 23
      · simp only [Thread.sreg, h31, hw, and_self, if_true, if_false]
        rw [tblGet_tblSet_ne]
        unfold winIndex
        omega
      · simp only [Thread.sreg, h31, hw, if_false]
    · simp only [Thread.sreg, h31, if_false, tblGet_tblSet_ne _ hrd]

/-- A register as the machine keeps it is written as by its name. -/
theorem Thread.setReg_abs (t : Thread) (d : Nat) (v : Vec) (hbad : t.regBad = []) : t.setReg (t.abs (.s d)) v = t.setSreg d (v.extractLsb' 0 64) := by
  by_cases hw : 8 ≤ d ∧ d ≤ 23
  · have hno : ¬ (d = 0 ∨ d = 31) := by omega
    simp only [Thread.abs, Thread.setReg, Thread.setSreg, hw, hno, and_self, if_true, if_false, Thread.healed, hbad, List.filter_nil]
  · simp only [Thread.abs, Thread.setReg, hw, if_false]

/-! ## The word -/

section
variable {s : State} (h : s.ready) {c : Code} {a d n : Nat} {off : Word} {ext : LoadExt}
include h

/-- The word makes its load, and goes on. -/
theorem loadDevice_ok {t : State} (hload : s.live.deviceLoad c.bits [(s.reg a + off, 0, n)] [(s.reg a + off, 0, n)] (.s d) ext false = .ok t) :
    loadDevice c a off d n ext s = .next (t.advance c.bytes) := by
  have hqueue : s.live.th.queueOf d = none := State.queueOf_plain (qmap_ready h) d
  have hphase : ¬ s.live.th.phase ≠ 0 := not_not_intro (phase_ready h)
  refine issue_ready_ok h rfl rfl rfl rfl ?_
  simp only [hqueue, hphase, if_false, readS_ready h, Option.isSome_none, hload, bind, Except.bind, Bool.false_eq_true, pure, Except.pure]

theorem loadDevice_stop {e : Stop} (hload : s.live.deviceLoad c.bits [(s.reg a + off, 0, n)] [(s.reg a + off, 0, n)] (.s d) ext false = .error e) :
    loadDevice c a off d n ext s = .next (s.live.stop e) := by
  have hqueue : s.live.th.queueOf d = none := State.queueOf_plain (qmap_ready h) d
  have hphase : ¬ s.live.th.phase ≠ 0 := not_not_intro (phase_ready h)
  refine issue_ready_stop h rfl rfl rfl ?_
  simp only [hqueue, hphase, if_false, readS_ready h, Option.isSome_none, hload, bind, Except.bind]

end

/-! ## A load whose bytes are at hand -/

/-- What ACC becomes with the value of a load (R90). -/
def accTaken (acc va : Word) (gs : List Seg) (v : Word) : Word := if countsIn gs then accStep acc va v else acc

/-- An entry for ACC takes the value of its load (R90). -/
def Load.arrived (l : Load) (x : Word × Option Word × Nat × Nat) : Word × Option Word × Nat × Nat :=
  if x.2.2.1 = l.id then
    match l.elems.find? (fun (e : Word × Nat × Nat) => decide (e.2.1 = x.2.2.2)) with
    | some e => (x.1, some (BitVec.ofNat 64 (memNum e.2.1 e.2.2 l.got)), x.2.2)
    | none => x
  else x

/-- The thread as the completion of a load leaves it before its register is written. -/
def Thread.taken (t : Thread) (l : Load) : Thread :=
  { t with loads := t.loads.filter (fun x => decide (x.id ≠ l.id)), pend := t.pend.filter (fun x => decide (x.2 ≠ l.id)), acc := (drainAcc t.acc (t.accQ.map l.arrived)).1
           accQ := (drainAcc t.acc (t.accQ.map l.arrived)).2 }

/-- A load of a thread that waits for nothing, completed at issue, changes that thread alone. -/
theorem State.completeLoad_alone {u : State} {l : Load} {d : Nat} (hbad : u.th.regBad = []) (hpair : u.th.pair = 0)
    (hdst : l.dst = u.th.abs (.s d)) (hext : l.ext ≠ .vector) (hdead : l.dead = false) (hqueue : l.toQueue = false) (hacq : l.acq = false)
    (hcount : l.counted = false) :
    u.completeLoad u.cur.1 u.cur.2 l = u.setTh ((u.th.taken l).setSreg d (l.ext.value l.got)) := by
  have hth : u.thread u.cur.1 u.cur.2 = u.th := rfl
  have hone : ¬ (u.th.taken l).pair = 1 := by
    change ¬ u.th.pair = 1
    omega
  simp only [State.completeLoad, hth, hdead, hqueue, hacq, hcount, Bool.false_eq_true, if_false]
  refine (if_neg hone).trans (congrArg (u.setThread u.cur.1 u.cur.2) ?_)
  refine ((congrArg (fun r => (u.th.taken l).setReg r _) hdst).trans ((u.th.taken l).setReg_abs d _ hbad)).trans ?_
  exact congrArg ((u.th.taken l).setSreg d) (LoadExt.result_scalar hext ..)

/-- The entry of a load for ACC, once it has its value (R90). -/
theorem Thread.taken_acc {t : Thread} {id n : Nat} {ext : LoadExt} {va : Word} {m : Memory} {gs : List Seg} (hq : t.accQ = accEntry va id gs)
    (dst : RegName) : (t.taken { Load.begun id dst ext [(va, 0, n)] with got := m }).acc = accTaken t.acc va gs (BitVec.ofNat 64 (memNum 0 n m)) := by
  rw [Thread.taken, hq, accEntry, accTaken]
  split
  · simp [Load.arrived, Load.begun, drainAcc]
  · rfl

/-! ## A load that asks -/

/-- What a step that asks for a load leaves: its requests are on their way, its register is pending and L counts it; no register and no
memory changes. -/
structure State.AsksFor (s t : State) (d k : Nat) (id : Nat) (fs : List Flight) : Prop where
  flights : t.flights = s.flights ++ fs
  cntL : t.th.cntL = s.th.cntL + 1
  pend : t.th.pend = [(s.th.abs (.s d), id)]
  pc : t.th.pc = s.th.pc + BitVec.ofNat 64 k
  regs : ∀ r < 31, t.reg r = s.reg r
  l1 : t.co.l1 = s.co.l1
  keeps : s.KeepsMemory t

theorem State.setTh_l1 (s : State) (t : Thread) : (s.setTh t).co.l1 = s.co.l1 := by rw [State.co_setTh]; rfl

section
variable {s : State} (h : s.ready) {i : Instr} {c : Code} {a d n : Nat} {off : Word} {ext : LoadExt}
  (hi : exec i s = loadDevice c a off d n ext s) (hn : 0 < n) (hext : ext ≠ .vector) {gs : List Seg}
  (hseg : s.live.segments (s.reg a + off) n 0 = .ok (gs, s.live))
include h hi hn hext hseg

/-- A load whose segments leave something to wait for asks for it. -/
theorem loadDevice_asks {l : Load} {fs : List Flight} (hloads : s.live.fresh.2.loadSegs (Load.begun s.live.nextId (s.live.th.abs (.s d)) ext
      [(s.reg a + off, 0, n)]) c.bits (partsOf gs) 0 gs = .ok (l, s.live.fresh.2.sending fs)) (hwait : l.waiting ≠ 0)
    (hL : s.th.cntL < 1023) (hd : d ≠ 0) (hd' : d ≠ 31) :
    ∃ t, exec i s = .next t ∧ s.AsksFor t d c.bytes s.live.nextId fs := by
  have hfull : ¬ 1023 ≤ s.th.cntL := by omega
  have hload := State.deviceLoad_single hseg hn c.bits d hext hloads
  have hth : (s.live.fresh.2.sending fs).th = s.th.live := s.th_live
  have hpend : s.th.live.pend = [] := h.1
  rw [hth] at hload
  dsimp only at hload
  rw [if_neg hwait, if_neg (by exact hfull), if_neg (by omega), State.setTh_setTh, hpend, List.nil_append] at hload
  refine ⟨_, by rw [hi, loadDevice_ok h hload], ?_⟩
  refine ⟨rfl, ?cntL, ?pend, ?pc, fun r hr => ?regs, ?l1, ((((State.KeepsMemory.live s).fresh).sending fs).setTh _).advance _⟩
  case cntL => rw [State.th_advance, State.th_setTh]; rfl
  case pend => rw [State.th_advance, State.th_setTh]; rfl
  case pc => rw [State.th_advance, State.th_setTh]; rfl
  case regs => rw [State.reg, State.th_advance, State.th_setTh]; rfl
  case l1 => exact (State.setTh_l1 ..).trans ((State.setTh_l1 (s.live.fresh.2.sending fs) _).trans (State.setTh_l1 s _))

/-- A load whose bytes are all at hand writes its register at once (R34). -/
theorem loadDevice_now {m : Memory} {w : State} (hloads : s.live.fresh.2.loadSegs (Load.begun s.live.nextId (s.live.th.abs (.s d)) ext
      [(s.reg a + off, 0, n)]) c.bits (partsOf gs) 0 gs =
      .ok ({ Load.begun s.live.nextId (s.live.th.abs (.s d)) ext [(s.reg a + off, 0, n)] with got := m }, w)) (hw : w.th = s.th.live)
    (hkeep : s.KeepsMemory w) :
    ∃ t, exec i s = .next t ∧ t.reg d = (s.th.setSreg d (ext.value m)).sreg s.cur.2 d ∧ (∀ r < 31, r ≠ d → t.reg r = s.reg r) ∧
      t.th.pc = s.th.pc + BitVec.ofNat 64 c.bytes ∧ t.th.cntL = s.th.cntL ∧ t.th.pend = [] ∧
      (s.th.accQ = [] → t.th.acc = accTaken s.th.acc (s.reg a + off) gs (BitVec.ofNat 64 (memNum 0 n m))) ∧
      t.flights = w.flights ∧ t.co.l1 = w.co.l1 ∧ s.KeepsMemory t := by
  have hload := State.deviceLoad_single hseg hn c.bits d hext hloads
  obtain ⟨hpend, hbad, hpair, -, -⟩ := id h
  rw [hw] at hload
  dsimp only at hload
  rw [if_pos (by rfl)] at hload
  generalize hu : w.setTh { s.th.live with accQ := s.th.live.accQ ++ accEntry (s.reg a + off) s.live.nextId gs } = u at hload
  have hth : u.th = { s.th.live with accQ := s.th.live.accQ ++ accEntry (s.reg a + off) s.live.nextId gs } := by rw [← hu, State.th_setTh]
  have hcur : u.cur = s.cur := by rw [← hu]; exact hkeep.cur
  have hkeep' : s.KeepsMemory u := by rw [← hu]; exact hkeep.setTh _
  have habs : s.live.th.abs (.s d) = u.th.abs (.s d) := by rw [hth, State.th_live]; rfl
  rw [habs, State.cur_live, ← hcur, State.completeLoad_alone (d := d) (by rw [hth]; exact hbad) (by rw [hth]; exact hpair)
    rfl hext rfl rfl rfl rfl] at hload
  generalize hL : ({ Load.begun s.live.nextId (u.th.abs (.s d)) ext [(s.reg a + off, 0, n)] with got := m } : Load) = l at hload
  have hsame : (u.th.taken l).SameRegs s.th := by rw [hth]; exact ⟨rfl, rfl, rfl, fun _ => rfl⟩
  have hval : l.ext.value l.got = ext.value m := by rw [← hL]; rfl
  rw [hval] at hload
  have hstep (t : Thread) : ((u.setTh t).advance c.bytes).th = { t with pc := t.pc + BitVec.ofNat 64 c.bytes } := by
    rw [State.th_advance, State.th_setTh]
  have hregs (r : Nat) : ((u.setTh ((u.th.taken l).setSreg d (ext.value m))).advance c.bytes).reg r = (s.th.setSreg d (ext.value m)).sreg s.cur.2 r := by
    rw [State.reg, hstep, State.cur_advance, State.setTh_cur, hcur]
    exact (hsame.setSreg d _).sreg _ _
  refine ⟨_, by rw [hi, loadDevice_ok h hload], hregs d, fun r hr hrd => (hregs r).trans (s.th.sreg_setSreg_ne _ hr hrd _), ?pc, ?cntL, ?pend,
    fun hq => ?acc, ?flights, ?l1, (hkeep'.setTh _).advance _⟩
  case pc => rw [hstep, Thread.setSreg_pc, hth]; rfl
  case cntL => rw [hstep]; exact (Thread.setSreg_cntL ..).trans (by rw [hth]; rfl)
  case pend => rw [hstep]; exact (Thread.setSreg_pend ..).trans (by rw [hth, Thread.taken, show s.th.live.pend = [] from hpend]; rfl)
  case acc =>
    rw [hstep]
    refine (Thread.setSreg_acc ..).trans ?_
    rw [← hL, Thread.taken_acc (gs := gs) (by rw [hth]; exact congrArg (· ++ _) hq), hth]
    rfl
  case flights => rw [← hu]; rfl
  case l1 => rw [State.advance, State.setTh_l1, State.setTh_l1, ← hu, State.setTh_l1]

end

end Sys2Proof.Machine
end

section
/-!
The forms of a device load (R90, R96, R97, R107, R211, R214): a hit, a miss, two lines, requests outside the L1, and the own window.
-/

namespace Sys2Proof.Machine

open Sys2Proof

/-! ## The lines of an access -/

theorem lineParts_one {a n : Nat} (hn : 0 < n) (hfit : a % 64 + n ≤ 64) (place : Nat) : lineParts 3 a n place = [(a / 64 * 64, a % 64, n, place)] := by
  have hmin : min n (64 - a % 64) = n := by omega
  simp only [lineParts, hmin, Nat.sub_self, if_true, if_neg (Nat.pos_iff_ne_zero.1 hn)]

theorem lineParts_two {a n : Nat} (hn : n ≤ 64) (hover : 64 < a % 64 + n) (place : Nat) : lineParts 3 a n place =
    [(a / 64 * 64, a % 64, 64 - a % 64, place), (a / 64 * 64 + 64, 0, n - (64 - a % 64), place + (64 - a % 64))] := by
  have hmin : min n (64 - a % 64) = 64 - a % 64 := by omega
  have hnext : (a + (64 - a % 64)) / 64 * 64 = a / 64 * 64 + 64 ∧ (a + (64 - a % 64)) % 64 = 0 := by omega
  have hrest : min (n - (64 - a % 64)) 64 = n - (64 - a % 64) := by omega
  have hne : n ≠ 0 ∧ n - (64 - a % 64) ≠ 0 := by omega
  simp only [lineParts, hne.1, hne.2, hmin, hnext.1, hnext.2, Nat.sub_zero, hrest, Nat.sub_self, if_true, if_false]

section
variable (s : State) (l : Load) (word : BitVec 32) (parts : List (Nat × Nat))

theorem State.loadSeg_lines {g : Seg} (place : Nat) (hcached : g.cached = true) (hfar : g.far = none) (htgt : g.tgt ≠ .window s.cur.1) :
    s.loadSeg l word parts g place = s.loadLines l word parts g place (lineParts 3 g.pa g.size place) := by
  have hown : s.ownWindow g = false := decide_eq_false htgt
  rw [State.loadSeg, if_neg (by rw [hown]; exact Bool.false_ne_true), if_pos (by rw [hcached, hfar]; rfl)]

variable (nc : Bool) (va : Word) {base off n : Nat} (place : Nat)

/-- A part of a load that the L1 holds gives its bytes, and sends nothing. -/
theorem State.loadLine_hit {x : Line} (hhit : s.co.hit base off n = true) (hline : s.co.line base = some x) (hbad : x.bad = 0) :
    s.loadLine l word parts nc va base off n place = .ok (l.take place (x.bytes off n), s) := by
  have hnone : (List.range' off n).find? (fun j => x.bad.getLsbD (j / 8)) = none := by simp [hbad]
  simp only [State.loadLine, hhit, hline, hnone, if_true]

/-- A part of a load that the L1 does not hold asks for its line. -/
theorem State.loadLine_miss (hhit : s.co.hit base off n = false) : ∃ f, s.loadLine l word parts nc va base off n place =
    .ok ({ l with waiting := l.waiting + 1 }, s.sending [f]) ∧ f.kind = .fill ∧ f.stage = .request ∧ f.pa = base ∧ f.size = 64 ∧
      f.site = s.cur.1 ∧ f.slot = s.cur.2 ∧ f.grp = l.id := by
  simp only [State.loadLine, hhit, Bool.false_eq_true, if_false]
  exact ⟨_, rfl, rfl, rfl, rfl, rfl, rfl, rfl, rfl⟩

end

theorem Line.length_bytes (l : Line) (off n : Nat) : (l.bytes off n).length = n := by simp [Line.bytes]

/-- What the L1 may hold comes from no local store. -/
theorem countsIn_of_cached {g : Seg} (h : g.cached = true) : countsIn [g] = true := by
  obtain ⟨_, _, _, _, tgt, _⟩ := g
  cases tgt <;> simp_all [Seg.cached, countsIn]

/-! ## The words -/

section
variable {s : State} (h : s.ready) {i : Instr} {c : Code} {a d n : Nat} {off : Word} {ext : LoadExt}
  (hi : exec i s = loadDevice c a off d n ext s) (hn : 0 < n) (hext : ext ≠ .vector)
include h hi hn hext

theorem loadDevice_loadHits : Claims.loadHits s i (s.reg a + off) d n c.bytes ext := by
  rintro g ⟨hseg, hcached, hfar, htgt, hfit, hsize⟩ hhit bs hbs hsound hq
  obtain ⟨x, hx, rfl⟩ := Option.map_eq_some_iff.1 hbs
  have hco : s.live.fresh.2.co = s.co.setThread s.cur.2 s.th.live := s.co_live
  have hlines : s.live.fresh.2.loadSegs (Load.begun s.live.nextId (s.live.th.abs (.s d)) ext [(s.reg a + off, 0, n)]) c.bits (partsOf [g]) 0 [g] =
      .ok ({ Load.begun s.live.nextId (s.live.th.abs (.s d)) ext [(s.reg a + off, 0, n)] with got := memWrite 0 (x.bytes (g.pa % 64) n) [] },
        s.live.fresh.2) := by
    have hline := fun l va => State.loadLine_hit s.live.fresh.2 l c.bits (partsOf [g]) g.nc va (base := g.pa / 64 * 64) (off := g.pa % 64) (n := n) 0
      (x := x) (by rw [hco]; exact hhit) (by rw [hco]; exact hx) (hsound x hx)
    simp only [State.loadSegs, State.loadSeg_lines s.live.fresh.2 _ c.bits _ 0 hcached hfar htgt, hsize, lineParts_one hn hfit, State.loadLines, hline,
      bind, Except.bind]
    rfl
  obtain ⟨t, ht, hd, hregs, hpc, hcnt, hpend, hacc, hflights, hl1, hkeep⟩ := loadDevice_now h hi hn hext hseg hlines s.th_live
    (State.KeepsMemory.live s).fresh
  have hnum : memNum 0 n (memWrite 0 (x.bytes (g.pa % 64) n) []) = leNat (x.bytes (g.pa % 64) n) := by
    have hself := memNum_memWrite_self 0 (x.bytes (g.pa % 64) n) []
    rwa [Line.length_bytes] at hself
  have hcounts := countsIn_of_cached hcached
  refine ⟨t, ht, hd, hflights, hpc, hcnt, hpend, ?_, hregs, hkeep.co_ls, ?_, hkeep.elsewhere⟩
  · rw [hacc hq, accTaken, if_pos hcounts, hnum]
  · rw [hl1]; exact State.setTh_l1 s _

theorem loadDevice_loadWindow : Claims.loadWindow s i (s.reg a + off) d n c.bytes ext := by
  rintro g ⟨hseg, htgt, hsize⟩ hbad hq
  have hown : s.live.fresh.2.ownWindow g = true := decide_eq_true htgt
  have hfirst : firstBad s.live.fresh.2.co.lsBad (g.pa % 0x80000) n = none := by
    have hco : s.live.fresh.2.co = s.co.setThread s.cur.2 s.th.live := s.co_live
    rw [hco]
    simpa [firstBad, anyBad] using hbad
  have hseen : s.live.fresh.2.lsSeen s.live.fresh.2.cur.1 (g.pa % 0x80000) n = s.lsSeen s.cur.1 (g.pa % 0x80000) n := s.lsSeen_live _ _
  have hloads : s.live.fresh.2.loadSegs (Load.begun s.live.nextId (s.live.th.abs (.s d)) ext [(s.reg a + off, 0, n)]) c.bits (partsOf [g]) 0 [g] =
      .ok ({ Load.begun s.live.nextId (s.live.th.abs (.s d)) ext [(s.reg a + off, 0, n)] with
          got := memWrite 0 (s.lsSeen s.cur.1 (g.pa % 0x80000) n) [] },
        (s.live.fresh.2.logPort s.live.fresh.2.cur.1 (g.pa % 0x80000) n 3 s.live.fresh.2.self).bump) := by
    simp only [State.loadSegs, State.loadSeg, hown, if_true, hsize, hfirst, hseen, bind, Except.bind]
    rfl
  have hth : (s.live.fresh.2.logPort s.live.fresh.2.cur.1 (g.pa % 0x80000) n 3 s.live.fresh.2.self).bump.th = s.th.live :=
    (State.th_logPort ..).trans s.th_live
  obtain ⟨t, ht, hd, hregs, hpc, hcnt, hpend, hacc, hflights, -, hkeep⟩ := loadDevice_now h hi hn hext hseg hloads hth
    (((State.KeepsMemory.live s).fresh.logPort ..).bump)
  have hcounts : countsIn [g] = false := by rw [countsIn, htgt]
  refine ⟨t, ht, hd, hregs, hpc, hpend, hcnt, ?_, hflights.trans (State.logPort_flights ..), hkeep.co_ls, hkeep.elsewhere⟩
  rw [hacc hq, accTaken, hcounts]
  rfl

theorem loadDevice_loadMisses : Claims.loadMisses s i (s.reg a + off) d n c.bytes := by
  rintro g ⟨hseg, hcached, hfar, htgt, hfit, hsize⟩ hhit hL hd hd'
  have hco : s.live.fresh.2.co = s.co.setThread s.cur.2 s.th.live := s.co_live
  obtain ⟨f, hline, hkind, hstage, hpa, hsz, hsite, hslot, hgrp⟩ := State.loadLine_miss s.live.fresh.2
    (Load.begun s.live.nextId (s.live.th.abs (.s d)) ext [(s.reg a + off, 0, n)]) c.bits (partsOf [g]) g.nc (g.va + BitVec.ofNat 64 (0 - 0))
    (base := g.pa / 64 * 64) (off := g.pa % 64) (n := n) 0 (by rw [hco]; exact hhit)
  obtain ⟨t, ht, hasks⟩ := loadDevice_asks h hi hn hext hseg (d := d) (fs := [f])
    (l := { Load.begun s.live.nextId (s.live.th.abs (.s d)) ext [(s.reg a + off, 0, n)] with waiting := 0 + 1 }) (by
    simp only [State.loadSegs, State.loadSeg_lines s.live.fresh.2 _ c.bits _ 0 hcached hfar htgt, hsize, lineParts_one hn hfit, State.loadLines, hline,
      bind, Except.bind]
    rfl) (Nat.succ_ne_zero _) hL hd hd'
  obtain ⟨hflights, hcnt, hpend, hpc, hregs, hl1, hkeep⟩ := hasks
  refine ⟨t, f, ht, hflights, hkind, hstage, hpa, hsz, hsite, hslot, hcnt, ?_, hpc, hregs, hl1, hkeep.co_ls, hkeep.elsewhere⟩
  rw [hpend, hgrp]; rfl

theorem loadDevice_loadStraddles (hn' : n ≤ 64) : Claims.loadStraddles s i (s.reg a + off) d n c.bytes := by
  intro g hseg hcached hfar htgt hsize hover
  dsimp only
  intro hfirst hsecond hL hd hd'
  have hco : s.live.fresh.2.co = s.co.setThread s.cur.2 s.th.live := s.co_live
  obtain ⟨e, hline, hkind, -, hpa, hsz, -, -, hgrp⟩ := State.loadLine_miss s.live.fresh.2
    (Load.begun s.live.nextId (s.live.th.abs (.s d)) ext [(s.reg a + off, 0, n)]) c.bits (partsOf [g]) g.nc (g.va + BitVec.ofNat 64 (0 - 0))
    (base := g.pa / 64 * 64) (off := g.pa % 64) (n := 64 - g.pa % 64) 0 (by rw [hco]; exact hfirst)
  obtain ⟨f, hline', hkind', -, hpa', hsz', -, -, hgrp'⟩ := State.loadLine_miss (s.live.fresh.2.sending [e])
    { Load.begun s.live.nextId (s.live.th.abs (.s d)) ext [(s.reg a + off, 0, n)] with waiting := 0 + 1 } c.bits (partsOf [g]) g.nc
    (g.va + BitVec.ofNat 64 (0 + (64 - g.pa % 64) - 0)) (base := g.pa / 64 * 64 + 64) (off := 0) (n := n - (64 - g.pa % 64)) (0 + (64 - g.pa % 64))
    (by rw [show (s.live.fresh.2.sending [e]).co = s.live.fresh.2.co from rfl, hco]; exact hsecond)
  obtain ⟨t, ht, hasks⟩ := loadDevice_asks h hi hn hext hseg (d := d) (fs := [e, f])
    (l := { Load.begun s.live.nextId (s.live.th.abs (.s d)) ext [(s.reg a + off, 0, n)] with waiting := 0 + 1 + 1 }) (by
    have hline0 := hline
    rw [show (Load.begun s.live.nextId (s.live.th.abs (.s d)) ext [(s.reg a + off, 0, n)]).waiting = 0 from rfl] at hline0
    simp only [State.loadSegs, State.loadSeg_lines s.live.fresh.2 _ c.bits _ 0 hcached hfar htgt, hsize, lineParts_two hn' hover, State.loadLines, hline0,
      hline', bind, Except.bind, State.sending_sending]
    rfl) (Nat.succ_ne_zero _) hL hd hd'
  obtain ⟨hflights, hcnt, hpend, hpc, hregs, -, hkeep⟩ := hasks
  refine ⟨t, e, f, ht, hflights, hkind, hkind', hpa, hpa', hsz, hsz', ?_, hcnt, ?_, hpc, hregs, hkeep.co_ls, hkeep.elsewhere⟩
  · rw [hgrp, hgrp']
  · rw [hpend, hgrp]; rfl

/-- A load outside the L1 asks for its pieces. -/
theorem loadDevice_requests {gs : List Seg} (hseg : s.live.segments (s.reg a + off) n 0 = .ok (gs, s.live))
    (hout : ∀ g ∈ gs, g.cached = false ∧ g.tgt ≠ .window s.cur.1) (hL : s.th.cntL < 1023) (hd : d ≠ 0) (hd' : d ≠ 31) :
    ∃ t, exec i s = .next t ∧ s.AsksFor t d c.bytes s.live.nextId (s.live.fresh.2.loadFlights s.live.nextId c.bits (partsOf gs) 0 gs) := by
  obtain ⟨hpos, -, hne⟩ := State.segments_sizes hn hseg
  have hloads := State.loadSegs_requests s.live.fresh.2 (Load.begun s.live.nextId (s.live.th.abs (.s d)) ext [(s.reg a + off, 0, n)]) c.bits
    (partsOf gs) 0 hout
  refine loadDevice_asks h hi hn hext hseg hloads ?_ hL hd hd'
  have hflights := List.length_pos_iff.2 (s.live.fresh.2.loadFlights_ne_nil s.live.nextId c.bits (partsOf gs) 0 hpos hne)
  change 0 + (s.live.fresh.2.loadFlights s.live.nextId c.bits (partsOf gs) 0 gs).length ≠ 0
  omega

theorem loadDevice_loadSplit (hn' : n ≤ 8) : Claims.loadSplit s i (s.reg a + off) d n c.bytes := by
  intro gs hseg hout hL hd hd'
  obtain ⟨t, ht, hasks⟩ := loadDevice_requests h hi hn hext hseg hout hL hd hd'
  obtain ⟨hflights, hcnt, hpend, hpc, hregs, -, hkeep⟩ := hasks
  obtain ⟨-, hsum, -⟩ := State.segments_sizes hn hseg
  refine ⟨t, _, s.live.nextId, ht, hflights, State.loadFlights_inPieces _ _ _ _ _ fun g hg => ?_, fun f hf => ?_, hcnt, hpend, hpc, hregs, hkeep.co_ls,
    hkeep.elsewhere⟩
  · have hsizes : (gs.map Seg.size).sum = n := hsum
    have := List.single_le_sum (fun _ _ => Nat.zero_le _) _ (List.mem_map_of_mem (f := Seg.size) hg)
    omega
  · obtain ⟨hkind, hgrp, -⟩ := State.mem_loadFlights _ _ _ _ hf
    exact ⟨hkind, hgrp⟩

theorem loadDevice_loadSent (hmem : n ∈ pieceSizes) : Claims.loadSent s i (s.reg a + off) d n c.bytes := by
  rintro g ⟨hseg, hpa, hcached, htgt, hsize⟩ hL hd hd'
  obtain ⟨t, ht, hasks⟩ := loadDevice_requests h hi hn hext hseg (by simpa using ⟨hcached, htgt⟩) hL hd hd'
  obtain ⟨hflights, hcnt, hpend, hpc, hregs, -, hkeep⟩ := hasks
  have hpieces : pieces g.size g.pa g.size = [(g.pa, g.size)] := by rw [hsize]; exact pieces_aligned hmem hpa
  simp only [State.loadFlights, hpieces, List.map_cons, List.map_nil, List.append_nil] at hflights
  exact ⟨t, _, ht, hflights, rfl, rfl, rfl, hsize, rfl, rfl, hcnt, hpend, hpc, hregs, hkeep.co_ls, hkeep.elsewhere⟩

end

theorem ext_of_mem_deviceLoads : ∀ r ∈ Claims.deviceLoads, r.2.1 ∈ pieceSizes ∧ r.2.1 ≤ 8 ∧ r.2.2 ≠ .vector := by decide

theorem deviceLoads : Claims.DeviceLoads := by
  intro s h
  have hready := State.ready_of_plain h
  refine ⟨fun r hr i a d => ?_, fun d a => ?_, fun d i => ?_⟩
  · obtain ⟨-, c, hexec⟩ := exec_of_mem_deviceLoads i a d r hr
    obtain ⟨hmem, -, hext⟩ := ext_of_mem_deviceLoads r hr
    have hn := pos_of_mem_pieceSizes hmem
    exact ⟨loadDevice_loadHits hready (hexec s) hn hext, loadDevice_loadSent hready (hexec s) hn hext hmem⟩
  · have hzero : s.reg a.toNat + 0 = s.reg a.toNat := BitVec.add_zero _
    have hexec : exec (.cLdD d a) s = loadDevice (.half (11#6 ++ d ++ a ++ 0#2)) a.toNat 0 d.toNat 8 (.signed 64) s := rfl
    have hhits := loadDevice_loadHits hready hexec (by decide) (by decide)
    have hsent := loadDevice_loadSent hready hexec (by decide) (by decide) (by decide)
    rw [hzero] at hhits hsent
    exact ⟨hhits, hsent⟩
  · have hexec : exec (.cLdDSp d i) s = loadDevice (.half (6#4 ++ d ++ i ++ 1#2)) 29 (spOffset i) d.toNat 8 (.signed 64) s := rfl
    exact ⟨loadDevice_loadHits hready hexec (by decide) (by decide), loadDevice_loadSent hready hexec (by decide) (by decide) (by decide)⟩

end Sys2Proof.Machine
end

section
/-!
Device stores at issue (R85, R96, R97, R104, R107, R187, R211): requests with their bytes, a line that the L1 holds, and the own window.
-/

namespace Sys2Proof.Machine

open Sys2Proof

/-! ## The requests of a store -/

section
variable (s : State) (id : Nat) (word : BitVec 32) (place : Nat) (parts : List (Nat × Nat))

/-- The request for one piece of a segment of a store outside the L1, with its bytes. -/
def State.storeFlight (g : Seg) (bs : List Byte) (p : Nat × Nat) : Flight :=
  { s.mkFlight .store id place (g.va + BitVec.ofNat 64 (p.1 - g.pa)) p.1 p.2 (((bs.drop (p.1 - g.pa)).take p.2).map some) true
      (g.nc || decide (g.tgt ≠ .dram)) word with far := g.far, parts := parts }

/-- The requests for the segments of a store outside the L1. -/
def State.storeFlights (bs : List Byte) : List Seg → List Flight
  | [] => []
  | g :: gs => (pieces g.size g.pa g.size).map (s.storeFlight id word place parts g (bs.take g.size)) ++ State.storeFlights (bs.drop g.size) gs

theorem State.storeFlights_sending (fs : List Flight) (bs : List Byte) (gs : List Seg) :
    (s.sending fs).storeFlights id word place parts bs gs = s.storeFlights id word place parts bs gs := by
  induction gs generalizing bs with
  | nil => rfl
  | cons g gs ih => rw [State.storeFlights, State.storeFlights, ih]; rfl

theorem State.mem_storeFlights {f : Flight} {bs : List Byte} {gs : List Seg} (h : f ∈ s.storeFlights id word place parts bs gs) :
    f.kind = .store ∧ f.stage = .request ∧ ∃ g ∈ gs, ∃ p ∈ pieces g.size g.pa g.size, f.pa = p.1 ∧ f.size = p.2 := by
  induction gs generalizing bs with
  | nil => cases h
  | cons g gs ih =>
    rcases List.mem_append.1 h with h | h
    · obtain ⟨p, hp, rfl⟩ := List.mem_map.1 h
      exact ⟨rfl, rfl, g, List.mem_cons_self, p, hp, rfl, rfl⟩
    · obtain ⟨hkind, hstage, g', hg', hp⟩ := ih h
      exact ⟨hkind, hstage, g', List.mem_cons_of_mem _ hg', hp⟩

/-- The requests of a store of at most 8 bytes are aligned pieces of its segments. -/
theorem State.storeFlights_inPieces (bs : List Byte) {gs : List Seg} (hsize : ∀ g ∈ gs, g.size ≤ 8) :
    Claims.inPieces gs (s.storeFlights id word place parts bs gs) := by
  refine ⟨fun f hf => ?_, ?_⟩
  · obtain ⟨-, hstage, g, hg, p, hp, hpa, hsz⟩ := s.mem_storeFlights id word place parts hf
    obtain ⟨hmem, hal⟩ := pieces_small g.pa (hsize g hg) p hp
    exact ⟨hstage, by rw [hsz]; exact hmem, by rw [hpa, hsz]; exact hal⟩
  · induction gs generalizing bs with
    | nil => rfl
    | cons g gs ih =>
      rw [State.storeFlights, List.flatMap_append, ih _ fun g' hg' => hsize g' (List.mem_cons_of_mem _ hg'), List.flatMap_cons, List.flatMap_map]
      exact congrArg (· ++ _) (pieces_cover g.pa g.size)

/-- The requests of a store carry its bytes in order. -/
theorem State.storeFlights_data (bs : List Byte) {gs : List Seg} (hsum : (gs.map Seg.size).sum = bs.length) :
    (s.storeFlights id word place parts bs gs).flatMap (fun f => f.data) = bs.map some := by
  induction gs generalizing bs with
  | nil => obtain rfl := List.length_eq_zero_iff.1 hsum.symm; rfl
  | cons g gs ih =>
    rw [List.map_cons, List.sum_cons] at hsum
    have hlen : (bs.take g.size).length = g.size := by rw [List.length_take]; omega
    have hbytes := pieces_bytes (bs.take g.size) g.pa
    rw [hlen] at hbytes
    rw [State.storeFlights, List.flatMap_append, ih _ (by rw [List.length_drop]; omega), List.flatMap_map]
    change (pieces g.size g.pa g.size).flatMap (fun p => (((bs.take g.size).drop (p.1 - g.pa)).take p.2).map some) ++ _ = _
    rw [← List.map_flatMap, hbytes, ← List.map_append, List.take_append_drop]

/-- A segment of a store outside the L1 and the own window sends its requests. -/
theorem State.storeSeg_requests {g : Seg} (bs : List Byte) (hcached : g.cached = false) (htgt : g.tgt ≠ .window s.cur.1) :
    s.storeSeg word id place parts g bs = .ok (some (s.sending ((pieces g.size g.pa g.size).map (s.storeFlight id word place parts g bs)))) := by
  have hown : s.ownWindow g = false := decide_eq_false htgt
  rw [State.storeSeg, if_neg (by rw [hown]; exact Bool.false_ne_true), if_neg (by rw [hcached]; exact Bool.false_ne_true)]
  exact congrArg (fun w => Except.ok (some w)) (State.foldl_send (fun s p => s.storeFlight id word place parts g bs p) (fun _ _ _ => rfl) _ s)

theorem State.storeSegs_requests (bs : List Byte) {gs : List Seg} (h : ∀ g ∈ gs, g.cached = false ∧ g.tgt ≠ .window s.cur.1) :
    s.storeSegs word id place parts bs gs = .ok (some (s.sending (s.storeFlights id word place parts bs gs))) := by
  induction gs generalizing s bs with
  | nil => simp [State.storeSegs, State.storeFlights, State.sending]
  | cons g gs ih =>
    obtain ⟨hcached, htgt⟩ := h g List.mem_cons_self
    have hrest := ih (s.sending ((pieces g.size g.pa g.size).map (s.storeFlight id word place parts g (bs.take g.size)))) (bs.drop g.size)
      fun g' hg' => h g' (List.mem_cons_of_mem _ hg')
    simp only [State.storeSegs, s.storeSeg_requests id word place parts _ hcached htgt, bind, Except.bind, hrest, State.storeFlights_sending,
      State.sending_sending, State.storeFlights]

end

/-- A segment of a store that the L1 holds goes into its line. -/
theorem State.storeSegs_line (s : State) (id : Nat) (word : BitVec 32) (place : Nat) (parts : List (Nat × Nat)) {g : Seg} {bs : List Byte} {l : Line}
    (hown : s.ownWindow g = false) (hcached : g.cached = true) (hfar : g.far = none) (hsize : g.size = bs.length) (hn : 0 < bs.length)
    (hfit : g.pa % 64 + bs.length ≤ 64) (hline : (s.core s.cur.1).line (g.pa / 64 * 64) = some l) : s.storeSegs word id place parts bs [g] =
      .ok (some (s.setCo (s.co.setLine (l.store s.co.epoch s.cur.2 (g.pa % 64) bs)))) := by
  have hall : (bs.drop 0).take bs.length = bs := by rw [List.drop_zero, List.take_length]
  simp only [State.storeSegs, State.storeSeg, hown, hcached, hfar, hsize, List.take_length, lineParts_one hn hfit, State.storeLines, hall, State.storeLine,
    hline, bind, Except.bind, Bool.false_eq_true, if_false, Option.isNone_none, Bool.and_self, if_true]
  rfl

/-! ## The whole store -/

/-- A store sends where a segment is neither the own window's nor the L1's, and S counts it then. -/
def State.countsOut (s : State) (gs : List Seg) : Bool := gs.any (fun g => !s.ownWindow g && !g.cached)

/-- The thread as a store that sends counts it. -/
def State.storeCounted (s : State) (gs : List Seg) : State := if s.countsOut gs then s.setTh { s.th with cntS := s.th.cntS + 1 } else s

/-- The places of a store in the own local store. -/
def State.placesHere (s : State) (gs : List Seg) : List (Nat × Nat) := (gs.filter s.ownWindow).map (fun g => (g.pa % 0x80000, g.size))

section
variable {v : State} {va : Word} {n : Nat} {gs : List Seg}

theorem State.storeAccs_single (s : State) (word : BitVec 32) (id : Nat) {bs : List Byte} (hn : bs.length = n) (gs : List Seg) :
    s.storeAccs word id bs [((va, 0, n), gs)] = s.storeSegs word id 0 (partsOf gs) bs gs := by
  have hall : (bs.drop 0).take n = bs := by rw [List.drop_zero, ← hn, List.take_length]
  simp only [State.storeAccs, bind, Except.bind, hall, pure, Except.pure]
  split
  · next h => rw [h]
  · next h =>
    rw [h]
    split <;> rfl

theorem State.deviceStore_single (hseg : v.segments va n 1 = .ok (gs, v)) (hfree : v.ownRefused gs = none) (hrecon : v.th.inRecon = false)
    (hS : v.countsOut gs = true → v.th.cntS < 1023) (word : BitVec 32) {bs : List Byte} (hn : bs.length = n) {u : State}
    (hstore : (v.fresh.2.storeCounted gs).storeSegs word v.nextId 0 (partsOf gs) bs gs = .ok (some u)) :
    v.deviceStore word [(va, 0, n)] bs = u.commitAfter v (v.placesHere gs) := by
  have hid : v.fresh.1 = v.nextId := rfl
  have hroom : (v.countsOut gs && decide (1023 ≤ v.th.cntS)) = false := by
    cases hout : v.countsOut gs
    · rfl
    · rw [decide_eq_false (by have := hS hout; omega)]; rfl
  have hcounts : [(((va, 0, n), gs) : Acc × List Seg)].any (fun c => c.2.any (fun g => !v.ownWindow g && !g.cached)) = v.countsOut gs := by
    simp [State.countsOut]
  have hhere : [(((va, 0, n), gs) : Acc × List Seg)].flatMap (fun c => (c.2.filter v.ownWindow).map (fun g => (g.pa % 0x80000, g.size))) =
      v.placesHere gs := by simp [State.placesHere]
  rw [← State.storeAccs_single (va := va) _ word v.nextId hn] at hstore
  simp only [State.deviceStore, hrecon, Bool.false_eq_true, if_false, State.checkAll_single hseg (.inr hfree), bind, Except.bind, hcounts, hroom, hid, hhere]
  have hsame : (if v.countsOut gs then v.fresh.2.setTh { v.fresh.2.th with cntS := v.fresh.2.th.cntS + 1 } else v.fresh.2) = v.fresh.2.storeCounted gs := rfl
  rw [hsame, hstore]

theorem State.deviceStore_error {e : Stop} (hseg : v.segments va n 1 = .error e) (hrecon : v.th.inRecon = false) (word : BitVec 32) (bs : List Byte) :
    v.deviceStore word [(va, 0, n)] bs = .error e := by
  simp only [State.deviceStore, hrecon, Bool.false_eq_true, if_false, State.checkAll_error hseg, bind, Except.bind]

theorem State.deviceStore_refused (hseg : v.segments va n 1 = .ok (gs, v)) {b : Nat} (hrefused : v.ownRefused gs = some b)
    (hrecon : v.th.inRecon = false) (word : BitVec 32) (bs : List Byte) :
    v.deviceStore word [(va, 0, n)] bs = .error (.trapTlb v.co.tlb 12 (BitVec.ofNat 64 b)) := by
  have hsome : (if (1 : Nat) = 0 then none else v.ownRefused gs) = some b := by rw [if_neg (by decide), hrefused]
  simp only [State.deviceStore, hrecon, Bool.false_eq_true, if_false, State.checkAll, hseg, hsome, bind, Except.bind]
  rfl

end

/-! ## The word -/

/-- A word that stores bytes at a device address, and goes on by k. -/
def State.StoresAt (s : State) (i : Instr) (va : Word) (bs : List Byte) (k : Nat) : Prop := ∃ word : BitVec 32,
  (∀ t, s.live.deviceStore word [(va, 0, bs.length)] bs = .ok t → exec i s = .next (t.advance k)) ∧
    ∀ e, s.live.deviceStore word [(va, 0, bs.length)] bs = .error e → exec i s = .next (s.live.stop e)

theorem storeDevice_storesAt {s : State} (h : s.ready) {i : Instr} {c : Code} {a d n : Nat} {off : Word}
    (hi : exec i s = storeDevice c a off d n s) : s.StoresAt i (s.reg a + off) (leBytes n (s.reg d).toNat) c.bytes := by
  have hbody : (let (x, v) := s.live.readS d
      let (y, v) := v.readS a
      v.deviceStore c.bits [(y + off, 0, n)] (leBytes n x.toNat)) =
      s.live.deviceStore c.bits [(s.reg a + off, 0, n)] (leBytes n (s.reg d).toNat) := by
    rw [readS_ready h]
    dsimp only
    rw [readS_ready h]
  refine ⟨c.bits, fun t ht => ?_, fun e he => ?_⟩
  · rw [length_leBytes] at ht
    rw [hi]
    exact issue_ready_ok h rfl rfl rfl rfl (hbody.trans ht)
  · rw [length_leBytes] at he
    rw [hi]
    exact issue_ready_stop h rfl rfl rfl (hbody.trans he)

theorem stZ_storesAt {s : State} (h : s.ready) (i : BitVec 12) (a : BitVec 5) :
    s.StoresAt (.stZ i a) ((s.reg a.toNat + i.signExtend 64) &&& ~~~63) (List.replicate 64 0) 4 := by
  have hbody : (let (x, v) := s.live.readS a.toNat
      v.deviceStore (Code.long (i ++ a ++ 16407#15)).bits [((x + i.signExtend 64) &&& ~~~63, 0, 64)] (List.replicate 64 0)) =
      s.live.deviceStore (Code.long (i ++ a ++ 16407#15)).bits [((s.reg a.toNat + i.signExtend 64) &&& ~~~63, 0, 64)] (List.replicate 64 0) := by
    rw [readS_ready h]
  refine ⟨(Code.long (i ++ a ++ 16407#15)).bits, fun t ht => ?_, fun e he => ?_⟩
  · rw [List.length_replicate] at ht
    exact issue_ready_ok h rfl rfl rfl rfl (hbody.trans ht)
  · rw [List.length_replicate] at he
    exact issue_ready_stop h rfl rfl rfl (hbody.trans he)

theorem inRecon_live {s : State} (h : s.plain) : s.live.th.inRecon = false := by
  obtain ⟨-, -, -, -, hrecon, -⟩ := h
  rw [State.th_live]; exact hrecon

section
variable {s : State} (h : s.plain) {i : Instr} {va : Word} {bs : List Byte} {k : Nat} (hi : s.StoresAt i va bs k) (hn : 0 < bs.length)
include h hi hn

/-- A store outside the L1 sends its pieces, and S counts it. -/
theorem store_requests {gs : List Seg} (hseg : s.live.segments va bs.length 1 = .ok (gs, s.live))
    (hout : ∀ g ∈ gs, g.cached = false ∧ g.tgt ≠ .window s.cur.1) (hS : s.th.cntS < 1023) : ∃ t w word id, exec i s = .next t ∧
      t.flights = s.flights ++ State.storeFlights w id word 0 (partsOf gs) bs gs ∧ t.th.cntS = s.th.cntS + 1 ∧
      t.th.pc = s.th.pc + BitVec.ofNat 64 k ∧ (∀ r < 31, t.reg r = s.reg r) ∧ s.KeepsMemory t := by
  obtain ⟨word, hok, -⟩ := hi
  obtain ⟨-, -, hne⟩ := State.segments_sizes hn hseg
  have hown (g : Seg) (hg : g ∈ gs) : s.live.ownWindow g = false := decide_eq_false (hout g hg).2
  have hfree : s.live.ownRefused gs = none := List.findSome?_eq_none_iff.2 fun g hg => if_neg (by rw [hown g hg]; exact Bool.false_ne_true)
  have hhere : s.live.placesHere gs = [] := by
    rw [State.placesHere, List.filter_eq_nil_iff.2 fun g hg => by rw [hown g hg]; exact Bool.false_ne_true]; rfl
  have hcounts : s.live.fresh.2.countsOut gs = true := by
    obtain ⟨g, hg⟩ := List.exists_mem_of_ne_nil gs hne
    have hown' : s.live.fresh.2.ownWindow g = false := hown g hg
    exact List.any_eq_true.2 ⟨g, hg, by rw [hown', (hout g hg).1]; rfl⟩
  have hstore := State.storeSegs_requests (s.live.fresh.2.storeCounted gs) s.live.nextId word 0 (partsOf gs) bs (gs := gs)
    fun g hg => ⟨(hout g hg).1, by rw [State.storeCounted, if_pos hcounts]; exact (hout g hg).2⟩
  have hdone := State.deviceStore_single hseg hfree (inRecon_live h) (fun _ => by rw [State.th_live]; exact hS) word rfl hstore
  have hcommit (x : State) : x.commitAfter s.live [] = .ok x := by simp [State.commitAfter, State.atCommit]
  rw [hhere, hcommit, State.storeCounted, if_pos hcounts] at hdone
  have hth : s.live.fresh.2.th = s.th.live := s.th_live
  rw [hth] at hdone
  refine ⟨_, _, word, s.live.nextId, hok _ hdone, rfl, ?cnt, ?pc, fun r _ => ?regs,
    ((((State.KeepsMemory.live s).fresh).setTh _).sending _).advance _⟩
  case cnt => rw [State.th_advance, State.th_sending, State.th_setTh]; rfl
  case pc => rw [State.th_advance, State.th_sending, State.th_setTh]; rfl
  case regs => rw [State.reg, State.th_advance, State.th_sending, State.th_setTh]; rfl

theorem store_storeSplit (hn' : bs.length ≤ 8) : Claims.storeSplit s i va bs k := by
  intro gs hseg hout hS
  obtain ⟨t, w, word, id, ht, hflights, hcnt, hpc, hregs, hkeep⟩ := store_requests h hi hn hseg hout hS
  obtain ⟨-, hsum, -⟩ := State.segments_sizes hn hseg
  have hsizes : (gs.map Seg.size).sum = bs.length := hsum
  refine ⟨t, _, ht, hflights, State.storeFlights_inPieces _ _ _ _ _ _ fun g hg => ?_, fun f hf => ?_, State.storeFlights_data _ _ _ _ _ _ hsizes, hcnt,
    hpc, hregs, hkeep.co_ls, hkeep.elsewhere⟩
  · have := List.single_le_sum (fun _ _ => Nat.zero_le _) _ (List.mem_map_of_mem (f := Seg.size) hg)
    omega
  · exact (State.mem_storeFlights _ _ _ _ _ hf).1

theorem store_storeHits : Claims.storeHits s i va bs k := by
  rintro g ⟨hseg, hcached, hfar, htgt, hfit, hsize⟩ l hl
  obtain ⟨word, hok, -⟩ := hi
  have hown : s.live.ownWindow g = false := decide_eq_false htgt
  have hfree : s.live.ownRefused [g] = none := by simp [State.ownRefused, hown]
  have hhere : s.live.placesHere [g] = [] := by simp [State.placesHere, hown]
  have hcounts : s.live.fresh.2.countsOut [g] = false := by simp [State.countsOut, hcached]
  have hplain : s.live.fresh.2.storeCounted [g] = s.live.fresh.2 := by rw [State.storeCounted, hcounts]; rfl
  have hco : s.live.fresh.2.core s.cur.1 = s.co.setThread s.cur.2 s.th.live := s.co_live
  have hline : (s.live.fresh.2.core s.live.fresh.2.cur.1).line (g.pa / 64 * 64) = some l := by
    rw [show s.live.fresh.2.cur.1 = s.cur.1 from rfl, hco]; exact hl
  have hall : (bs.drop 0).take bs.length = bs := by rw [List.drop_zero, List.take_length]
  have hstore := State.storeSegs_line s.live.fresh.2 s.live.nextId word 0 (partsOf [g]) hown hcached hfar hsize hn hfit hline
  have hdone := State.deviceStore_single hseg hfree (inRecon_live h) (fun hout => absurd (hout.symm.trans hcounts) (by decide)) word rfl
    (by rw [hplain]; exact hstore)
  have hcommit (x : State) : x.commitAfter s.live [] = .ok x := by simp [State.commitAfter, State.atCommit]
  rw [hhere, hcommit] at hdone
  have hcoEpoch : s.live.fresh.2.co.epoch = s.co.epoch := (congrArg Core.epoch hco).trans rfl
  have hlines : s.live.fresh.2.co.l1 = s.co.l1 := (congrArg Core.l1 hco).trans rfl
  rw [hcoEpoch, show s.live.fresh.2.cur.2 = s.cur.2 from rfl] at hdone
  have hkeep := ((State.KeepsMemory.live s).fresh.setLine (l.store s.co.epoch s.cur.2 (g.pa % 64) bs)).advance k
  have hth : (s.live.fresh.2.setCo (s.live.fresh.2.co.setLine (l.store s.co.epoch s.cur.2 (g.pa % 64) bs))).th = s.th.live :=
    (State.th_setCo s.live.fresh.2 (c := s.live.fresh.2.co.setLine (l.store s.co.epoch s.cur.2 (g.pa % 64) bs)) rfl).trans s.th_live
  refine ⟨_, hok _ hdone, rfl, ?l1, ?pc, ?cnt, fun r _ => ?regs, hkeep.co_ls, hkeep.elsewhere⟩
  case l1 =>
    rw [State.advance, State.setTh_l1, State.co_setCo, Core.setLine, Core.setLine, hlines]
  case pc => rw [State.th_advance, hth]; rfl
  case cnt => rw [State.th_advance, hth]; rfl
  case regs => rw [State.reg, State.th_advance, hth]; rfl

theorem store_storeWindow : Claims.storeWindow s i va bs k := by
  rintro g ⟨hseg, htgt, hsize⟩
  obtain ⟨word, hok, herr⟩ := hi
  have hown : s.live.ownWindow g = true := decide_eq_true htgt
  have hrefused : s.live.ownRefused [g] = s.co.refusedAt (g.pa % 0x80000) bs.length := by
    have hco : s.live.co.refusedAt (g.pa % 0x80000) g.size = s.co.refusedAt (g.pa % 0x80000) bs.length := by rw [State.co_live, hsize]; rfl
    simp only [State.ownRefused, List.findSome?_cons, hown, if_true, List.findSome?_nil, hco]
    split <;> simp_all
  refine ⟨fun hfree hsite => ?stores, fun hclaim => ?refused⟩
  case stores =>
    have hnone : s.live.ownRefused [g] = none := by rw [hrefused, Core.refusedAt, hfree]; rfl
    have hcounts : s.live.fresh.2.countsOut [g] = false := by
      simp only [State.countsOut, List.any_cons, show s.live.fresh.2.ownWindow g = true from hown]; rfl
    have hplain : s.live.fresh.2.storeCounted [g] = s.live.fresh.2 := by rw [State.storeCounted, hcounts]; rfl
    have hstore : s.live.fresh.2.storeSegs word s.live.nextId 0 (partsOf [g]) bs [g] = .ok (some (s.live.fresh.2.putHere (g.pa % 0x80000) bs)) := by
      simp only [State.storeSegs, State.storeSeg, show s.live.fresh.2.ownWindow g = true from hown, if_true, hsize, List.take_length, bind, Except.bind]
    have hput := State.putHere_storesHere (s := s.live.fresh.2) (inRecon_live h) (g.pa % 0x80000) hn
    have hdone := State.deviceStore_single hseg hnone (inRecon_live h) (fun hout => absurd (hout.symm.trans hcounts) (by decide)) word rfl
      (by rw [hplain]; exact hstore)
    rw [State.commitAfter_of_not_site (hput.site.trans hsite)] at hdone
    obtain ⟨hth, hstored, helse, hdirty, hflights⟩ := hput.of_kept (State.KeepsMemory.live s).fresh s.th_live
      ((congrArg Core.frames s.co_live).trans rfl) k
    exact ⟨_, hok _ hdone, hth, hstored, hdirty, hflights, helse⟩
  case refused =>
    have hsome : s.live.ownRefused [g] = some (max (g.pa % 0x80000) s.co.hvb) := by rw [hrefused, Core.refusedAt, if_pos hclaim]
    rw [herr _ (State.deviceStore_refused hseg hsome (inRecon_live h) word bs), State.stop_trapTlb_own (State.ready_of_plain h) (by decide)]

end

theorem storeDevice_storeSent {s : State} (h : s.plain) {i : Instr} {c : Code} {a d n : Nat} {off : Word} (hmem : n ∈ pieceSizes)
    (hi : exec i s = storeDevice c a off d n s) : Claims.storeSent s i (s.reg a + off) (s.reg d) n c.bytes := by
  rintro g ⟨hseg, hpa, hcached, htgt, hsize⟩ hS
  have hlen : (leBytes n (s.reg d).toNat).length = n := length_leBytes ..
  obtain ⟨t, w, word, id, ht, hflights, hcnt, hpc, hregs, hkeep⟩ := store_requests h (storeDevice_storesAt (State.ready_of_plain h) hi)
    (by rw [hlen]; exact pos_of_mem_pieceSizes hmem) (by rw [hlen]; exact hseg) (by simpa using ⟨hcached, htgt⟩) hS
  have hpieces : pieces n g.pa n = [(g.pa, n)] := pieces_aligned hmem hpa
  have hall : (leBytes n (s.reg d).toNat).take n = leBytes n (s.reg d).toNat := List.take_of_length_le (by omega)
  simp only [State.storeFlights, hpieces, List.map_cons, List.map_nil, List.append_nil, hsize, hall] at hflights
  refine ⟨t, _, ht, hflights, rfl, rfl, rfl, rfl, ?_, hcnt, hpc, hregs, hkeep.co_ls, hkeep.elsewhere⟩
  change ((((leBytes n (s.reg d).toNat).drop (g.pa - g.pa)).take n).map some) = _
  rw [Nat.sub_self, List.drop_zero, hall]

end Sys2Proof.Machine
end

section
/-!
Faults of a device access and prefetches (R97, R113 to R116, R213, R360, R414, R415).
-/

namespace Sys2Proof.Machine

open Sys2Proof

/-! ## Translation -/

/-- Only the TLB of the asking core may change with a translation that succeeds (R115). -/
theorem State.translate_ok {u v : State} {n who : Nat} {priv : Bool} {ans : Option (Nat × Nat)} {va : Word} {acc pa : Nat} {nc : Bool}
    (h : u.translate n who priv ans va acc = .ok pa nc v) : v = u ∨ ∃ tlb, v = u.setCore n { u.core n with tlb := tlb } := by
  have hcheck (e : TlbEntry) {w : State} (hw : (if e.w0.getLsbD 6 && !priv then Xlat.fault 3 w
      else if !e.allows acc then .fault 2 w else .ok (e.phys va) (e.w0.getLsbD 5) w) = .ok pa nc v) : v = w := by
    split at hw
    · cases hw
    · split at hw
      · cases hw
      · exact (Xlat.ok.inj hw).2.2.symm
  simp only [State.translate] at h
  split at h
  · cases h
  · split at h
    · exact .inl (Xlat.ok.inj h).2.2.symm
    · split at h
      · exact .inl (hcheck _ h)
      · split at h
        · exact .inr ⟨_, hcheck _ h⟩
        · split at h
          · split at h <;> cases h
          · cases h

/-- A translation that misses both TLBs asks for a walk (R116). -/
theorem State.translate_miss {u v : State} {n who : Nat} {priv : Bool} {ans : Option (Nat × Nat)} {va : Word} {acc : Nat}
    (h : u.translate n who priv ans va acc = .miss v) : v = u.askWalk n who va := by
  have hcheck (e : TlbEntry) (w : State) : (if e.w0.getLsbD 6 && !priv then Xlat.fault 3 w
      else if !e.allows acc then .fault 2 w else .ok (e.phys va) (e.w0.getLsbD 5) w) ≠ .miss v := by
    split
    · exact Xlat.noConfusion
    · split <;> exact Xlat.noConfusion
  simp only [State.translate] at h
  split at h
  · cases h
  · split at h
    · cases h
    · split at h
      · exact absurd h (hcheck _ _)
      · split at h
        · exact absurd h (hcheck _ _)
        · split at h
          · split at h
            · cases h
            · exact (Xlat.miss.inj h).symm
          · exact (Xlat.miss.inj h).symm

/-- Asking for a walk changes the walks of one cluster, among which one of the page then knows its asker (R116). -/
theorem State.askWalk_asks (u : State) (n who : Nat) (va : Word) : (∃ cs, u.askWalk n who va = { u with clusters := cs }) ∧
    ∃ w ∈ ((u.askWalk n who va).cluster (clusterOf n)).walks, w.page = (va.extractLsb' 16 40).toNat ∧ (n, who) ∈ w.who := by
  simp only [State.askWalk]
  split
  · next hknown =>
    obtain ⟨w, hw, hmatch⟩ := List.any_eq_true.1 hknown
    simp only [Bool.and_eq_true, decide_eq_true_eq, List.contains_iff_mem] at hmatch
    exact ⟨⟨u.clusters, rfl⟩, w, hw, hmatch⟩
  · split
    · next hunder =>
      obtain ⟨w, hw, hpage⟩ := List.any_eq_true.1 hunder
      have hpage' := of_decide_eq_true hpage
      refine ⟨⟨_, rfl⟩, { w with who := w.who ++ [(n, who)] }, ?_, hpage', by simp⟩
      rw [State.cluster_setCluster_self]
      exact List.mem_append_left _ (List.mem_map.2 ⟨w, hw, if_pos hpage'⟩)
    · refine ⟨⟨_, rfl⟩, { page := (va.extractLsb' 16 40).toNat, who := [(n, who)] }, ?_, rfl, by simp⟩
      rw [State.cluster_setCluster_self]
      exact List.mem_append_right _ (by simp)

/-- An instruction that asked for a walk issues again, and has changed nothing else. -/
theorem State.stop_askWalk {s : State} (h : s.ready) (va : Word) :
    Claims.walkAsked s (s.live.stop (.stall (s.live.askWalk s.cur.1 s.cur.2 va))) va := by
  obtain ⟨⟨cs, hcs⟩, hwalk⟩ := s.live.askWalk_asks s.cur.1 s.cur.2 va
  generalize s.live.askWalk s.cur.1 s.cur.2 va = u at hcs hwalk
  have hcore (m : Nat) : u.core m = s.live.core m := by rw [hcs]; rfl
  have hcur : u.cur = s.cur := by rw [hcs]; rfl
  have hth : u.th = s.th.live := by rw [hcs]; exact s.th_live
  have hkeep : s.KeepsMemory u := (State.KeepsMemory.live s).trans (by
    rw [hcs]; exact ⟨rfl, fun _ => rfl, rfl, rfl, fun _ => rfl, fun _ _ => rfl, fun _ _ _ => rfl⟩)
  have hphase : u.th.phase = 0 := by rw [hth, ← s.th_live]; exact phase_ready h
  have hpair := pair_ready h
  have hsame : ({ u.co with hwq := s.live.co.hwq } : Core) = u.co := by rw [State.co, State.co, hcur, State.cur_live, hcore]
  have hkeep' : s.KeepsMemory (u.setCo u.co) := hkeep.trans (State.KeepsMemory.setCo_co u)
  have hstop : s.live.stop (.stall u) = (u.setCo u.co).stalled := by
    simp only [State.stop, State.stopBy, hphase, true_or, if_true, State.undoReads, hpair, hsame]
    rfl
  have hth' : (u.setCo u.co).th = s.th.live := (State.th_setCo u rfl).trans hth
  rw [hstop]
  have hdone := hkeep'.setTh { (u.setCo u.co).th with run := .stalled }
  refine ⟨?_, hdone.elsewhere, hdone.co_ls, ?_⟩
  · rw [State.stalled, State.th_setTh, hth']
  · exact hwalk

/-! ## Faults -/

/-- XVAL of a translation fault is a sum of its fields (R414). -/
theorem xlatVal_eq (va : Word) {acc why : Nat} (hacc : acc < 8) (hwhy : why < 8) :
    xlatVal va acc why = BitVec.ofNat 64 ((va.extractLsb' 0 56).toNat + acc * 2 ^ 56 + why * 2 ^ 59) := by
  have hlow : (va.extractLsb' 0 56).toNat < 2 ^ 56 := (va.extractLsb' 0 56).isLt
  have hor := Nat.two_pow_add_eq_or_of_lt hlow (acc + 8 * why)
  apply BitVec.eq_of_toNat_eq
  rw [xlatVal, BitVec.toNat_or]
  generalize va.extractLsb' 0 56 = x at hlow hor ⊢
  have hx : (x.zeroExtend 64).toNat = x.toNat := by
    rw [BitVec.toNat_setWidth, Nat.mod_eq_of_lt (by omega)]
  have hhigh : (BitVec.ofNat 64 (acc * 2 ^ 56 + why * 2 ^ 59)).toNat = 2 ^ 56 * (acc + 8 * why) := by
    rw [BitVec.toNat_ofNat, Nat.mod_eq_of_lt (by omega)]; omega
  rw [hx, hhigh, Nat.lor_comm, ← hor, BitVec.toNat_ofNat, Nat.mod_eq_of_lt (by omega)]
  omega

theorem mapVal_eq (pa why acc : Nat) : mapVal pa why acc false = BitVec.ofNat 64 (pa % 2 ^ 48 + why * 2 ^ 48 + acc * 2 ^ 51) := by
  rw [mapVal, b2n, if_neg Bool.false_ne_true, Nat.zero_mul, Nat.add_zero]

/-- A word that begins with the translation of an access stops where that does. -/
def State.Accesses (s : State) (i : Instr) (va : Word) (n acc : Nat) : Prop :=
  ∀ e, s.live.segments va n acc = .error e → exec i s = .next (s.live.stop e)

/-- The translation of an address for the issuing thread, from a state that its own translations left. -/
def State.xlat (s u : State) (va : Word) (acc : Nat) : Xlat := u.translate s.cur.1 s.cur.2 s.th.priv s.th.walk va acc

theorem State.xlatTh_of {s u : State} (hcur : u.cur = s.cur) (hth : u.th = s.th.live) (va : Word) (acc : Nat) : u.xlatTh va acc =
    match s.xlat u va acc with
    | .ok pa nc s' => .ok (pa, nc, s')
    | .fault why s' => .error (.trapTlb s'.co.tlb 13 (xlatVal va acc why))
    | .miss s' => .error (.stall s') := by
  rw [State.xlatTh, hcur, hth]
  rfl

section
variable {s v w : State} {va : Word} {n acc pa why : Nat} {nc : Bool}

theorem State.xlatTh_first (s : State) (va : Word) (acc : Nat) : s.live.xlatTh va acc =
    match s.xlat s.live va acc with
    | .ok pa nc s' => .ok (pa, nc, s')
    | .fault why s' => .error (.trapTlb s'.co.tlb 13 (xlatVal va acc why))
    | .miss s' => .error (.stall s') := State.xlatTh_of (s := s) (u := s.live) rfl s.th_live va acc

/-- A second translation goes on from the state of the first. -/
theorem State.xlatTh_second (hx : s.xlat s.live va acc = .ok pa nc v) (va2 : Word) : v.xlatTh va2 acc =
    match s.xlat v va2 acc with
    | .ok pa nc s' => .ok (pa, nc, s')
    | .fault why s' => .error (.trapTlb s'.co.tlb 13 (xlatVal va2 acc why))
    | .miss s' => .error (.stall s') := by
  rcases State.translate_ok hx with rfl | ⟨tlb, rfl⟩
  · exact s.xlatTh_first va2 acc
  · exact State.xlatTh_of (s := s) (u := s.live.setCo { s.live.core s.cur.1 with tlb := tlb }) rfl ((State.th_setCo s.live (c := { s.live.core s.cur.1 with tlb := tlb }) rfl).trans s.th_live) va2 acc

theorem State.segments_fault (hx : s.xlat s.live va acc = .fault why v) :
    s.live.segments va n acc = .error (.trapTlb v.co.tlb 13 (xlatVal va acc why)) := by
  simp only [State.segments, State.xlatTh_first, hx, bind, Except.bind]

theorem State.segments_miss (hx : s.xlat s.live va acc = .miss v) : s.live.segments va n acc = .error (.stall v) := by
  simp only [State.segments, State.xlatTh_first, hx, bind, Except.bind]

theorem State.segments_map (hx : s.xlat s.live va acc = .ok pa nc v) (hle : n ≤ 0x10000 - (va.extractLsb' 0 16).toNat)
    (hdec : v.decodePa pa n acc = .error why) : s.live.segments va n acc = .error (.trapTlb v.co.tlb 14 (mapVal pa why acc false)) := by
  simp only [State.segments, State.xlatTh_first, hx, bind, Except.bind, if_pos hle, hdec]
  rfl

variable (hx : s.xlat s.live va acc = .ok pa nc v) (hover : 0x10000 - (va.extractLsb' 0 16).toNat < n)
include hx hover

theorem State.segments_fault_second (hx2 : s.xlat v (va + BitVec.ofNat 64 (0x10000 - (va.extractLsb' 0 16).toNat)) acc = .fault why w) :
    s.live.segments va n acc =
      .error (.trapTlb w.co.tlb 13 (xlatVal (va + BitVec.ofNat 64 (0x10000 - (va.extractLsb' 0 16).toNat)) acc why)) := by
  have hsecond := State.xlatTh_second hx (va + BitVec.ofNat 64 (0x10000 - (va.extractLsb' 0 16).toNat))
  rw [hx2] at hsecond
  simp only [State.segments, State.xlatTh_first, hx, bind, Except.bind, if_neg (Nat.not_le.2 hover), hsecond]

theorem State.segments_targets {pa2 : Nat} {nc2 : Bool} {t u : Target}
    (hx2 : s.xlat v (va + BitVec.ofNat 64 (0x10000 - (va.extractLsb' 0 16).toNat)) acc = .ok pa2 nc2 w)
    (ht : w.decodePa pa (0x10000 - (va.extractLsb' 0 16).toNat) acc = .ok t)
    (hu : w.decodePa pa2 (n - (0x10000 - (va.extractLsb' 0 16).toNat)) acc = .ok u) (hne : t ≠ u) :
    s.live.segments va n acc = .error (.trapTlb w.co.tlb 14 (mapVal pa 2 acc false)) := by
  have hsecond := State.xlatTh_second hx (va + BitVec.ofNat 64 (0x10000 - (va.extractLsb' 0 16).toNat))
  rw [hx2] at hsecond
  simp only [State.segments, State.xlatTh_first, hx, bind, Except.bind, if_neg (Nat.not_le.2 hover), hsecond, ht, hu]
  split
  · next hpeer hpeer' =>
    cases hpeer
    cases hpeer'
    rw [if_neg fun hd => hne (by rw [hd])]
    rfl
  · next hok hok' =>
    cases hok
    cases hok'
    rw [if_neg hne]
    rfl
  · next herr => cases herr
  · next herr _ => cases herr

end

/-- Where an access stops, the word stops (R97, R116, R360, R414, R415). -/
theorem accessFaults_of_accesses {s : State} (h : s.ready) {i : Instr} {va : Word} {n acc : Nat} (hi : s.Accesses i va n acc) (hacc : acc < 8) :
    Claims.accessFaults s i va n acc := by
  have htrap (code : Nat) (hc : code ≠ 16) (v : State) (val : Word) :
      s.live.stop (.trapTlb v.co.tlb code val) = (s.live.setCo { s.live.co with tlb := v.co.tlb }).takeTrap code val s.th.pc :=
    State.stop_trapTlb h hc _ _
  refine ⟨fun why v hx hwhy => ?fault, fun v hx => ?miss, fun pa nc v why hx hle hdec => ?map, fun pa nc v why w hx hover hx2 hwhy => ?second,
    fun pa nc v pa2 nc2 w t u hx hover hx2 ht hu hne => ?targets⟩
  case fault => rw [hi _ (State.segments_fault hx), htrap 13 (by decide), xlatVal_eq va hacc hwhy, Claims.trappedAt]
  case miss =>
    have hasks := State.stop_askWalk h va
    rw [← State.translate_miss hx] at hasks
    exact ⟨_, hi _ (State.segments_miss hx), hasks⟩
  case map => rw [hi _ (State.segments_map hx hle hdec), htrap 14 (by decide), mapVal_eq, Claims.trappedAt]
  case second => rw [hi _ (State.segments_fault_second hx hover hx2), htrap 13 (by decide), xlatVal_eq _ hacc hwhy, Claims.trappedAt]
  case targets => rw [hi _ (State.segments_targets hx hover hx2 ht hu hne), htrap 14 (by decide), mapVal_eq, Claims.trappedAt]

theorem State.StoresAt.accesses {s : State} (h : s.plain) {i : Instr} {va : Word} {bs : List Byte} {k : Nat} (hi : s.StoresAt i va bs k) :
    s.Accesses i va bs.length 1 := by
  obtain ⟨word, -, herr⟩ := hi
  exact fun e he => herr e (State.deviceStore_error he (inRecon_live h) word bs)

theorem loadDevice_accesses {s : State} (h : s.ready) {i : Instr} {c : Code} {a d n : Nat} {off : Word} {ext : LoadExt}
    (hi : exec i s = loadDevice c a off d n ext s) : s.Accesses i (s.reg a + off) n 0 := by
  intro e he
  rw [hi]
  refine loadDevice_stop h ?_
  simp only [State.deviceLoad, State.checkAll_error he, bind, Except.bind]

/-! ## All forms -/

theorem loadDevice_loadRest {s : State} (h : s.ready) {i : Instr} {c : Code} {a d n : Nat} {off : Word} {ext : LoadExt}
    (hi : exec i s = loadDevice c a off d n ext s) (hn : 0 < n) (hn' : n ≤ 8) (hext : ext ≠ .vector) :
    Claims.loadRest s i (s.reg a + off) d n c.bytes ext :=
  ⟨loadDevice_loadMisses h hi hn hext, loadDevice_loadStraddles h hi hn hext (by omega), loadDevice_loadSplit h hi hn hext hn',
    loadDevice_loadWindow h hi hn hext, accessFaults_of_accesses h (loadDevice_accesses h hi) (by decide)⟩

theorem storeDevice_storeRest {s : State} (h : s.plain) {i : Instr} {c : Code} {a d n : Nat} {off : Word} (hn : 0 < n) (hn' : n ≤ 8)
    (hi : exec i s = storeDevice c a off d n s) : Claims.storeRest s i (s.reg a + off) (leBytes n (s.reg d).toNat) c.bytes := by
  have hat := storeDevice_storesAt (State.ready_of_plain h) hi
  have hlen : (leBytes n (s.reg d).toNat).length = n := length_leBytes ..
  exact ⟨store_storeSplit h hat (by omega) (by omega), store_storeWindow h hat (by omega),
    accessFaults_of_accesses (State.ready_of_plain h) (hat.accesses h) (by decide)⟩

theorem small_of_mem_deviceStores : ∀ r ∈ Claims.deviceStores, r.2 ≤ 8 := by decide

theorem deviceStores : Claims.DeviceStores := by
  intro s h
  have hready := State.ready_of_plain h
  have hboth {i : Instr} {c : Code} {a d n : Nat} {off : Word} (hmem : n ∈ pieceSizes) (hi : exec i s = storeDevice c a off d n s) :
      Claims.storeHits s i (s.reg a + off) (leBytes n (s.reg d).toNat) c.bytes ∧ Claims.storeSent s i (s.reg a + off) (s.reg d) n c.bytes :=
    ⟨store_storeHits h (storeDevice_storesAt hready hi) (by rw [length_leBytes]; exact pos_of_mem_pieceSizes hmem),
      storeDevice_storeSent h hmem hi⟩
  refine ⟨fun r hr i a d => ?_, fun i a => ?_, fun d a => ?_, fun d i => ?_⟩
  · obtain ⟨hmem, c, hexec⟩ := exec_of_mem_deviceStores i a d r hr
    exact hboth hmem (hexec s)
  · exact store_storeHits h (stZ_storesAt hready i a) (by rw [List.length_replicate]; decide)
  · have hzero : s.reg a.toNat + 0 = s.reg a.toNat := BitVec.add_zero _
    have hpair := hboth (i := .cStD d a) (n := 8) (a := a.toNat) (d := d.toNat) (off := 0) (by decide) rfl
    rwa [hzero] at hpair
  · exact hboth (i := .cStDSp d i) (n := 8) (a := 29) (d := d.toNat) (off := spOffset i) (by decide) rfl

theorem deviceSplitsWindowsAndFaults : Claims.DeviceSplitsWindowsAndFaults := by
  intro s h
  have hready := State.ready_of_plain h
  refine ⟨fun r hr i a d => ?_, fun d a => ?_, fun d i => ?_, fun r hr i a d => ?_, fun d a => ?_, fun d i => ?_, fun i a => ⟨?_, ?_⟩⟩
  · obtain ⟨-, c, hexec⟩ := exec_of_mem_deviceLoads i a d r hr
    obtain ⟨hmem, hsmall, hext⟩ := ext_of_mem_deviceLoads r hr
    exact loadDevice_loadRest hready (hexec s) (pos_of_mem_pieceSizes hmem) hsmall hext
  · have hzero : s.reg a.toNat + 0 = s.reg a.toNat := BitVec.add_zero _
    have hrest := loadDevice_loadRest hready (i := .cLdD d a) (n := 8) (a := a.toNat) (d := d.toNat) (off := 0) (ext := .signed 64) rfl
      (by decide) (by decide) (by decide)
    rwa [hzero] at hrest
  · exact loadDevice_loadRest hready (i := .cLdDSp d i) (n := 8) (a := 29) (off := spOffset i) (ext := .signed 64) rfl
      (by decide) (by decide) (by decide)
  · obtain ⟨hmem, c, hexec⟩ := exec_of_mem_deviceStores i a d r hr
    exact storeDevice_storeRest h (pos_of_mem_pieceSizes hmem) (small_of_mem_deviceStores r hr) (hexec s)
  · have hzero : s.reg a.toNat + 0 = s.reg a.toNat := BitVec.add_zero _
    have hrest := storeDevice_storeRest h (i := .cStD d a) (n := 8) (a := a.toNat) (d := d.toNat) (off := 0) (by decide) (by decide) rfl
    rwa [hzero] at hrest
  · exact storeDevice_storeRest h (i := .cStDSp d i) (n := 8) (a := 29) (d := d.toNat) (off := spOffset i) (by decide) (by decide) rfl
  · exact store_storeWindow h (stZ_storesAt hready i a) (by rw [List.length_replicate]; decide)
  · have hat := (stZ_storesAt hready i a).accesses h
    rw [List.length_replicate] at hat
    exact accessFaults_of_accesses hready hat (by decide)

/-! ## Prefetches (R115, R213) -/

section
variable {s : State} (h : s.plain) (i : BitVec 12) (a : BitVec 5) (k : BitVec 1)
include h

theorem exec_pf_body : ∃ word, ∀ r, s.live.prefetch word (s.reg a.toNat + i.signExtend 64) (decide (k = 0)) = r →
    exec (.pf i a k) s = .next (match r with | .ok t => t.advance 4 | .error e => s.live.stop e) := by
  have hready := State.ready_of_plain h
  have hpair : ¬ s.live.th.pair = 2 := by rw [pair_ready hready]; decide
  refine ⟨(Code.long (i ++ a ++ 112#7 ++ k ++ 19#7)).bits, fun r hr => ?_⟩
  have hbody : (let (x, v) := s.live.readS a.toNat
      if v.th.pair = 2 then Except.ok v else v.prefetch (Code.long (i ++ a ++ 112#7 ++ k ++ 19#7)).bits (x + i.signExtend 64) (decide (k = 0))) = r := by
    rw [readS_ready hready]
    dsimp only
    rw [if_neg hpair, hr]
  cases r with
  | ok t => exact issue_ready_ok hready rfl rfl rfl rfl hbody
  | error e => exact issue_ready_stop hready rfl rfl rfl hbody

end

theorem prefetch : Claims.Prefetch := by
  intro i a k s h
  obtain ⟨word, hexec⟩ := exec_pf_body h i a k
  have hready := State.ready_of_plain h
  have hpriv : s.live.th.priv = s.th.priv ∧ s.live.th.walk = s.th.walk := by rw [State.th_live]; exact ⟨rfl, rfl⟩
  have hwent : s.live.advance 4 = s.went 4 := s.went_eq 4
  have hhit (base off n : Nat) : s.live.co.hit base off n = s.co.hit base off n := by rw [State.co_live]; rfl
  refine ⟨fun pa hx hdec hout => ?asks, fun pa hx hdec hk hin => ?held, fun why v hx => ?fault, fun pa v hx => ?uncached, fun pa v why hx hdec => ?map,
    fun pa tgt hx hdec hdram hpeer => ?elsewhere, fun v hx => ?miss⟩
  all_goals
    have hfetch := hexec _ rfl
    rw [State.prefetch, hpriv.1, hpriv.2, State.cur_live, hx] at hfetch
    dsimp only at hfetch
  case asks =>
    rw [hdec] at hfetch
    dsimp only at hfetch
    rw [if_pos (by
      refine ⟨rfl, fun hboth => ?_⟩
      rw [hhit, hout (of_decide_eq_true hboth.1)] at hboth
      exact absurd hboth.2 (by decide))] at hfetch
    refine ⟨_, _, hfetch, rfl, rfl, rfl, rfl, ?_⟩
    rw [State.th_advance]
    exact congrArg (fun t : Thread => { t with pc := t.pc + BitVec.ofNat 64 4 }) s.th_live
  case held =>
    rw [hdec] at hfetch
    dsimp only at hfetch
    rw [if_neg (by rintro ⟨-, hnot⟩; exact hnot ⟨decide_eq_true hk, by rw [hhit]; exact hin⟩)] at hfetch
    rw [hfetch, hwent]
  case fault =>
    have hgone : (if s.th.walk.isNone then s.live else s.live.setTh { s.live.th with walk := none }) = s.setTh { s.th.live with walk := none } := by
      split
      · next hnone => rw [← Option.isNone_iff_eq_none.1 hnone]; rfl
      · rw [State.setTh_live, State.th_live]
    rw [hfetch, hgone, State.advance, State.setTh_setTh, State.th_setTh]
    rfl
  case uncached => rw [hfetch, hwent]
  case map =>
    rw [hdec] at hfetch
    rw [hfetch]
    exact congrArg _ hwent
  case elsewhere =>
    rw [hdec] at hfetch
    dsimp only at hfetch
    rw [if_neg (by
      rintro ⟨hcached, -⟩
      cases tgt <;> simp_all [Seg.cached])] at hfetch
    rw [hfetch, hwent]
  case miss =>
    have hasks := State.stop_askWalk hready (s.reg a.toNat + i.signExtend 64)
    rw [← State.translate_miss hx] at hasks
    exact ⟨_, hfetch, hasks⟩

/-- Settles O17: the four parts above. -/
theorem deviceAccesses : Obligations.DeviceAccesses := by
  unfold Obligations.DeviceAccesses
  exact ⟨deviceLoads, deviceStores, deviceSplitsWindowsAndFaults, prefetch⟩

end Sys2Proof.Machine
end

section
/-!
What a reconnaissance pass suppresses, and the scratch that its local stores reach (R91, R102).
-/

namespace Sys2Proof.Machine

open Sys2Proof

/-! ## Suppressed words (R91) -/

/-- In a pass a device store is discarded, before any translation. -/
theorem State.deviceStore_discarded {v : State} (h : v.th.inRecon = true) (word : BitVec 32) (accs : List Acc) (bs : List Byte) :
    v.deviceStore word accs bs = .ok v := by
  rw [State.deviceStore, if_pos h]; rfl

theorem passes_live {s : State} (h : Claims.inPass s) : s.live.th.inRecon = true := by
  obtain ⟨-, -, -, -, hpass, -⟩ := h
  rw [State.th_live]; exact hpass

/-- A store of a register that a pass discards only goes on. -/
theorem storeDevice_discarded {s : State} (h : Claims.inPass s) (c : Code) (a : Nat) (off : Word) (d n : Nat) :
    storeDevice c a off d n s = .next (s.went c.bytes) := by
  have hready := State.ready_of_inPass h
  rw [← s.went_eq]
  refine issue_ready_ok (k := storeIssue c a off d n s) hready rfl rfl rfl rfl (t := s.live) ?_
  rw [readS_ready hready]
  dsimp only
  rw [readS_ready hready]
  exact State.deviceStore_discarded (passes_live h) ..

theorem exec_of_mem_deviceStores_pass (k : BitVec 12) (a d : BitVec 5) : ∀ r ∈ Claims.deviceStores, ∃ c : BitVec 32, ∀ s,
    exec (r.1 k a d) s = storeDevice (.long c) a.toNat (k.signExtend 64) d.toNat r.2 s := by
  simp only [Claims.deviceStores, List.forall_mem_cons, List.not_mem_nil, false_implies, implies_true, and_true]
  exact ⟨⟨_, fun s => rfl⟩, ⟨_, fun s => rfl⟩, ⟨_, fun s => rfl⟩, _, fun s => rfl⟩

theorem stZ_discarded {s : State} (h : Claims.inPass s) (i : BitVec 12) (a : BitVec 5) : exec (.stZ i a) s = .next (s.went 4) := by
  have hready := State.ready_of_inPass h
  rw [← s.went_eq]
  change execStZ i a s = _
  refine issue_ready_ok (t := s.live) hready rfl rfl rfl rfl ?_
  rw [readS_ready hready]
  exact State.deviceStore_discarded (passes_live h) ..

theorem passSuppresses : Claims.PassSuppresses := by
  intro s h a b d x m i e c j
  have hready := State.ready_of_inPass h
  obtain ⟨-, -, -, -, hpass, -⟩ := id h
  refine ⟨?words, fun r hr => ?stores, stZ_discarded h i a, storeDevice_discarded h .., storeDevice_discarded h ..⟩
  case words =>
    simp only [List.forall_mem_cons, List.not_mem_nil, false_implies, implies_true, and_true]
    refine ⟨?_, ?_, ?_, ?_, ?_, ?_, ?_, ?_, ?_, ?_, ?_⟩ <;> exact issue_quiet hready rfl rfl hpass
  case stores =>
    obtain ⟨w, hexec⟩ := exec_of_mem_deviceStores_pass i a d r hr
    rw [hexec]
    exact storeDevice_discarded h ..

/-! ## The scratch of a pass (R91) -/

@[simp] theorem Core.scratch_lsPut (c : Core) (a : Nat) (bs : List Byte) (x : Nat) : (c.lsPut a bs).scratch x = c.scratch x := rfl

@[simp] theorem Core.scratch_markDirty (c : Core) (a n x : Nat) : (c.markDirty a n).scratch x = c.scratch x := rfl

theorem State.scratch_lsStore (s : State) (a : Nat) (bs : List Byte) (kind : Nat) (w : Source) (x : Nat) :
    (s.lsStore s.cur.1 a bs kind w).co.scratch x = s.co.scratch x := by
  by_cases hbs : bs.length = 0
  · rw [State.lsStore, if_pos hbs]
  · rw [State.lsStore, if_neg hbs, State.co, State.logPort_cur]
    obtain ⟨r, hr⟩ := (s.setCore s.cur.1 (((s.core s.cur.1).lsPut a bs).markDirty a bs.length)).core_logPort s.cur.1 a bs.length kind w s.cur.1
    have hcur : (s.setCore s.cur.1 (((s.core s.cur.1).lsPut a bs).markDirty a bs.length)).cur = s.cur := rfl
    rw [hcur, hr, State.core_setCore_self]
    rfl

/-- Stores in the scratch of a pass, that together write the bytes at an address. -/
structure State.StoresScratch (s t : State) (a : Nat) (bs : List Byte) : Prop where
  cur : t.cur = s.cur
  th : t.th = s.th
  site : t.site = s.site
  scratch : ∀ x, t.co.scratch x = s.co.scratch x
  stored : Claims.storedAt s t s.cur.1 a bs
  elsewhere : Claims.elsewhere s t

namespace State.StoresScratch

variable {s t u : State} {a : Nat} {xs ys : List Byte}

theorem nil (s : State) (a : Nat) : s.StoresScratch s a [] :=
  ⟨rfl, rfl, rfl, fun _ => rfl, ⟨fun _ hj => absurd hj (Nat.not_lt_zero _), fun _ _ => rfl⟩, s.elsewhere_refl⟩

theorem lsStore (s : State) (a : Nat) {bs : List Byte} (hbs : 0 < bs.length) :
    s.StoresScratch (s.lsStore s.cur.1 a bs 0 s.self) a bs := by
  have h := s.lsStore_storesHere a hbs 0 s.self
  exact ⟨h.cur, h.th, h.site, s.scratch_lsStore a bs 0 s.self, h.stored, h.elsewhere⟩

theorem append (h : s.StoresScratch t a xs) (h' : t.StoresScratch u (a + xs.length) ys) : s.StoresScratch u a (xs ++ ys) := by
  obtain ⟨hnew, hold⟩ := h.stored
  obtain ⟨hnew', hold'⟩ := h'.stored
  rw [h.cur] at hnew' hold'
  refine ⟨h'.cur.trans h.cur, h'.th.trans h.th, h'.site.trans h.site, fun x => (h'.scratch x).trans (h.scratch x),
    ⟨fun j hj => ?new, fun x hx => ?old⟩, elsewhere_trans h.cur h.elsewhere h'.elsewhere⟩
  case new =>
    rw [List.length_append] at hj
    by_cases hlt : j < xs.length
    · rw [hold' _ (by omega), hnew j hlt, List.getD_append _ _ _ _ hlt]
    · have hplace : a + j = a + xs.length + (j - xs.length) := by omega
      rw [hplace, hnew' _ (by omega), List.getD_append_right _ _ _ _ (by omega)]
  case old =>
    rw [List.length_append] at hx
    rw [hold' x (by omega), hold x (by omega)]

end State.StoresScratch

/-- One piece of a store of bytes at an address, in a pass: in scratch, or discarded. -/
def State.putScratch (a : Nat) (bs : List Byte) (s : State) (p : Nat × Nat) : State :=
  if s.co.scratch p.1 then s.lsStore s.cur.1 p.1 ((bs.drop (p.1 - a)).take p.2) 0 s.self else s

theorem State.putHere_pass {s : State} (h : s.th.inRecon = true) (a : Nat) (bs : List Byte) :
    s.putHere a bs = (pieces bs.length a bs.length).foldl (State.putScratch a bs) s := by
  rw [State.putHere, if_pos h]; rfl

/-- Bytes that all lie in scratch are all stored. -/
theorem State.foldl_putScratch (a : Nat) (bs : List Byte) (s : State) (h : ∀ k < bs.length, s.co.scratch (a + k) = true) :
    s.StoresScratch ((pieces bs.length a bs.length).foldl (State.putScratch a bs) s) a bs := by
  have hgen := pieces_induction
    (motive := fun b n ps => a ≤ b → b - a + n = bs.length → ∀ s : State, (∀ k < n, s.co.scratch (b + k) = true) →
      s.StoresScratch (ps.foldl (State.putScratch a bs) s) b (bs.drop (b - a)))
    (fun b _ hlen s _ => ?nil) (fun b n ps hpos ih hab hlen s h => ?cons) bs.length a bs.length le_rfl le_rfl (by omega) s h
  · simpa using hgen
  case nil =>
    rw [List.drop_eq_nil_of_le (by omega)]
    exact .nil s b
  case cons =>
    obtain ⟨-, hle, -⟩ := pieceAt_spec b hpos
    have hpiece := pieceAt_pos b hpos
    have hskip : b + pieceAt b n - a = b - a + pieceAt b n := by omega
    have htake : ((bs.drop (b - a)).take (pieceAt b n)).length = pieceAt b n := by rw [List.length_take, List.length_drop]; omega
    have hfirst := State.StoresScratch.lsStore s b (bs := (bs.drop (b - a)).take (pieceAt b n)) (by omega)
    have hput : State.putScratch a bs s (b, pieceAt b n) = s.lsStore s.cur.1 b ((bs.drop (b - a)).take (pieceAt b n)) 0 s.self :=
      if_pos (h 0 hpos)
    have hrest := ih (by omega) (by omega) (s.lsStore s.cur.1 b ((bs.drop (b - a)).take (pieceAt b n)) 0 s.self) fun k hk => by
      rw [hfirst.scratch, Nat.add_assoc]; exact h _ (by omega)
    have hsplit : (bs.drop (b - a)).take (pieceAt b n) ++ bs.drop (b + pieceAt b n - a) = bs.drop (b - a) := by
      rw [hskip, ← List.drop_drop, List.take_append_drop]
    have hall := hfirst.append (by rw [htake]; exact hrest)
    rwa [hsplit, ← hput] at hall

/-- Bytes that all lie outside scratch are all discarded. -/
theorem State.foldl_putScratch_none (a : Nat) (bs : List Byte) (s : State) (h : ∀ k < bs.length, s.co.scratch (a + k) = false) :
    (pieces bs.length a bs.length).foldl (State.putScratch a bs) s = s := by
  refine pieces_induction (motive := fun b n ps => (∀ k < n, s.co.scratch (b + k) = false) → ps.foldl (State.putScratch a bs) s = s)
    (fun _ _ => rfl) (fun b n ps hpos ih h => ?_) bs.length a bs.length le_rfl h
  obtain ⟨-, hle, -⟩ := pieceAt_spec b hpos
  have hpiece := pieceAt_pos b hpos
  have hput : State.putScratch a bs s (b, pieceAt b n) = s := if_neg (by rw [show s.co.scratch b = false from h 0 hpos]; decide)
  rw [List.foldl_cons, hput]
  exact ih fun k hk => by rw [Nat.add_assoc]; exact h _ (by omega)

theorem Core.scratch_iff (c : Core) (x : Nat) : c.scratch x = true ↔ (c.wsn * 0x1000 ≤ x ∧ x < c.txb) ∨ (c.scrb ≤ x ∧ x < c.hvb) := by
  simp [Core.scratch]

/-- In a pass a store in range makes the stores of its pieces, whatever is claimed, and leaves site mode alone. -/
theorem State.localStore_pass {s : State} (hpass : s.th.inRecon = true) {la : Word} {bs : List Byte} (hin : la.toNat + bs.length ≤ 0x80000) :
    s.localStore la bs =
      ((pieces bs.length la.toNat bs.length).foldl (State.putScratch la.toNat bs) s).commitAfter s [(la.toNat, bs.length)] := by
  have hrange : outOfLocal la bs.length = false := by simpa [outOfLocal] using hin
  simp only [State.localStore, hrange, hpass, Bool.false_eq_true, if_false, if_true, State.putHere_pass hpass]

theorem scratch_live (s : State) (x : Nat) : s.live.co.scratch x = s.co.scratch x := by rw [State.co_live]; rfl

/-- What stores in scratch do holds of the step of the word that makes them. -/
theorem State.StoresScratch.stepped {s t : State} {a : Nat} {bs : List Byte} (h : s.live.StoresScratch t a bs) (k : Nat) :
    (t.advance k).th = s.th.went k ∧ Claims.elsewhere s (t.advance k) ∧ Claims.storedAt s (t.advance k) s.cur.1 a bs := by
  obtain ⟨hnew, hold⟩ := h.stored
  rw [State.cur_live] at hnew hold
  refine ⟨by rw [State.th_advance, h.th, State.th_live]; rfl, ?_, fun j hj => ?_, fun x hx => ?_⟩
  · exact elsewhere_trans s.cur_live (s.elsewhere_setTh _) (elsewhere_trans h.cur h.elsewhere (State.elsewhere_setTh ..))
  · rw [State.advance_ls]; exact hnew j hj
  · rw [State.advance_ls]; exact (hold x hx).trans (congrArg (memGet x) (State.setTh_ls ..))

theorem passStoresScratch : Claims.PassStoresScratch := by
  intro s h hsite r hr i a d
  have hready := State.ready_of_inPass h
  have hpass := passes_live h
  obtain ⟨hn, c, hexec⟩ := exec_of_mem_localStores i a d r hr
  have hbody := storeLocal_body hready (a := a.toNat) (d := d.toNat) (n := r.2) (off := i.signExtend 64)
  generalize s.reg a.toNat + i.signExtend 64 = la at hbody ⊢
  have hlen : (leBytes r.2 (s.reg d.toNat).toNat).length = r.2 := length_leBytes ..
  generalize leBytes r.2 (s.reg d.toNat).toNat = bs at hbody hlen ⊢
  dsimp only
  rw [← hlen]
  have hgo : ∀ t, s.live.localStore la bs = .ok t → exec (r.1 i a d) s = .next (t.advance 4) := fun t ht => by
    rw [hexec]
    exact issue_ready_ok (k := storeIssue (.long c) a.toNat (i.signExtend 64) d.toNat r.2 s) hready rfl rfl rfl rfl (hbody.trans ht)
  refine ⟨fun hout => ?range, fun hin hscratch => ?stored, fun hin hnone => ?discarded⟩
  case range =>
    have hrange : outOfLocal la bs.length = true := by simpa [outOfLocal] using hout
    rw [hexec]
    exact issue_ready_trap (k := storeIssue (.long c) a.toNat (i.signExtend 64) d.toNat r.2 s) hready rfl rfl rfl (by decide)
      (hbody.trans (if_pos hrange))
  case stored =>
    have hput := State.foldl_putScratch la.toNat bs s.live fun k hk => by
      rw [scratch_live, Core.scratch_iff]; omega
    exact ⟨_, hgo _ ((State.localStore_pass hpass hin).trans (State.commitAfter_of_not_site (hput.site.trans hsite) ..)), hput.stepped 4⟩
  case discarded =>
    have hput := State.foldl_putScratch_none la.toNat bs s.live fun k hk => by
      have := hnone k hk
      rw [Bool.eq_false_iff, ne_eq, scratch_live, Core.scratch_iff]
      omega
    have hsite' : s.live.site = false := hsite
    rw [← s.went_eq]
    refine hgo s.live ((State.localStore_pass hpass hin).trans ?_)
    rw [hput, State.commitAfter_of_not_site hsite']

end Sys2Proof.Machine
end

section
/-!
The loads and atomics of a reconnaissance pass (R90, R91, R136).
-/

namespace Sys2Proof.Machine

open Sys2Proof

/-! ## Atomics at the own bank -/

theorem State.KeepsMemory.bumpEpoch {s t : State} (h : s.KeepsMemory t) (n : Nat) : s.KeepsMemory (t.bumpEpoch n) :=
  h.trans ⟨rfl, fun m => (t.bumpEpoch_ls n m).1, t.elsewhere_bumpEpoch n⟩

theorem State.epoch_setTh (s : State) (t : Thread) : (s.setTh t).co.epoch = s.co.epoch := by rw [State.co_setTh]; rfl

theorem State.epoch_logPort (s : State) (n a size kind : Nat) (w : Source) : (s.logPort n a size kind w).co.epoch = s.co.epoch := by
  obtain ⟨r, hr⟩ := s.core_logPort n a size kind w s.cur.1
  rw [State.co, State.logPort_cur, hr]; rfl

theorem State.epoch_bumpEpoch (s : State) : (s.bumpEpoch s.cur.1).co.epoch = s.co.epoch + 1 := congrArg Core.epoch (s.core_bumpEpoch_self _)

theorem State.th_bumpEpoch (s : State) (n : Nat) : (s.bumpEpoch n).th = s.th := State.thread_bumpEpoch ..

/-- The address checks of an atomic at the own bank, by local address or through the own window. -/
theorem State.amoTarget_bank {s : State} {l : BitVec 1} {va : Word} {n A : Nat} (h : Claims.bankReady s l va n A) :
    s.live.amoTarget va n (decide (l = 1)) = .ok (.bank A, s.live) := by
  obtain ⟨hva, hin, hclaim, -, hwhere⟩ := h
  have hfree : s.live.co.refusedAt A n = none := by
    rw [Core.refusedAt, State.co_live]; exact if_neg (by rw [show (s.co.setThread _ _).inClaim A n = false from hclaim]; decide)
  rcases hwhere with ⟨rfl, rfl⟩ | ⟨rfl, g, ⟨hseg, htgt, hsize⟩, rfl⟩
  · have hrange : outOfLocal va n = false := by simpa [outOfLocal] using hin
    simp [State.amoTarget, hva, hrange, hfree, -State.co_live]
  · have hown : s.live.ownWindow g = true := decide_eq_true htgt
    have hrefused : s.live.ownRefused [g] = none := by
      simp [State.ownRefused, hown, hsize, hfree, -State.co_live]
    simp [State.amoTarget, hva, State.checkAll_single hseg (.inr hrefused), hown, bind, Except.bind, pure, Except.pure]

section
variable {v : State} (hpass : v.th.inRecon = true) (hmap : v.th.qmap = false)
include hpass hmap

/-- In a pass an atomic at the own bank reads: it gives the old value, and an acquire bumps the epoch. -/
theorem State.amoHere_pass {a : Nat} {o : Amo} (hsound : anyBad v.co.lsBad a o.width = false) (d : Nat) (acq : Bool) :
    ∃ t, v.amoHere a d o acq = .ok t ∧ v.KeepsMemory t ∧
      t.th = (if o.fn = 12 then v.th else v.th.setSreg d (o.result (v.lsNum v.cur.1 a o.width))).endPhase ∧
      t.co.epoch = (if acq then v.co.epoch + 1 else v.co.epoch) := by
  have hgood : (if d = 0 then none else firstBad v.co.lsBad a o.width) = none := by
    have : firstBad v.co.lsBad a o.width = none := by simpa [firstBad, anyBad] using hsound
    rw [this, ite_self]
  have hacts : v.amoActs o = { o with fn := 13 } := if_pos hpass
  generalize hw : v.logPort v.cur.1 a o.width 1 v.self = w
  have hwth : w.th = v.th := by rw [← hw, State.th_logPort]
  have hwcur : w.cur = v.cur := by rw [← hw, State.logPort_cur]
  have hkeep : v.KeepsMemory w := by rw [← hw]; exact (State.KeepsMemory.refl v).logPort ..
  have hepoch : w.co.epoch = v.co.epoch := by rw [← hw, State.epoch_logPort]
  have hatomic : v.bankAtomic v.cur.1 a (v.amoActs o) v.self = (v.lsNum v.cur.1 a o.width, 0, w) := by
    rw [hacts, ← hw]; rfl
  have hraise (n i : Nat) : w.raise n i 0 = w := if_pos rfl
  obtain ⟨x, hwrite, hxth, hxcur, hxkeep, hxepoch⟩ : ∃ x, (if o.fn = 12 then w else w.writeS d (o.result (v.lsNum v.cur.1 a o.width))) = x ∧
      x.th = (if o.fn = 12 then v.th else v.th.setSreg d (o.result (v.lsNum v.cur.1 a o.width))) ∧ x.cur = v.cur ∧ v.KeepsMemory x ∧
      x.co.epoch = v.co.epoch := by
    by_cases hst : o.fn = 12
    · rw [if_pos hst, if_pos hst]
      exact ⟨w, rfl, hwth, hwcur, hkeep, hepoch⟩
    · rw [if_neg hst, if_neg hst, State.writeS_off (by rw [hwth]; exact hmap), hwth]
      exact ⟨_, rfl, State.th_setTh .., hwcur, hkeep.setTh _, (w.epoch_setTh _).trans hepoch⟩
  have hend : v.amoHere a d o acq = .ok (if acq then x.bumpEpoch x.cur.1 else x).endPhase := by
    simp only [State.amoHere, hgood, hatomic, hraise, hwrite]
  cases acq with
  | false => exact ⟨_, hend, hxkeep.setTh _, by rw [← hxth]; exact State.th_setTh .., (x.epoch_setTh _).trans hxepoch⟩
  | true =>
    refine ⟨_, hend, (hxkeep.bumpEpoch _).setTh _, ?_, ?_⟩
    · rw [← hxth, ← x.th_bumpEpoch x.cur.1]; exact State.th_setTh ..
    · exact ((x.bumpEpoch x.cur.1).epoch_setTh _).trans (x.epoch_bumpEpoch.trans (by rw [hxepoch]; rfl))

/-- In a pass an atomic for another port leaves as one request that writes nothing, and a register waits for it; an acquire waits on. -/
theorem State.amoSend_pass (word : BitVec 32) (va : Word) (pa : Nat) (nc acq : Bool) (o : Amo) (dram : Bool) {d : Nat} (hd : d ≠ 0)
    (hd' : d ≠ 31) (hL : v.th.cntL < 1023) : ∃ f t, v.amoSend word va pa d nc acq o dram =
        (if acq then .error (.stall ((v.sent f).setTh t)) else .ok ((v.sent f).setTh t)) ∧
      f.kind = .atomic { o with fn := 13 } ∧ f.pa = pa ∧ t.cntS = v.th.cntS ∧ t.cntL = v.th.cntL + 1 ∧ t.phase = (if acq then 2 else 0) := by
  have hqueue : v.th.queueOf d = none := State.queueOf_plain hmap _
  have hL' : ¬ 1023 ≤ v.fresh.2.th.cntL := Nat.not_le.2 hL
  have hacts : v.fresh.2.amoActs o = { o with fn := 13 } := if_pos hpass
  simp only [State.amoSend, hqueue, hpass, Option.isSome_none, Bool.not_true, Bool.and_false, Bool.false_eq_true, if_false, hd, hL',
    Bool.or_false, decide_eq_false hd']
  exact ⟨_, _, rfl, congrArg FlightKind.atomic hacts, rfl, rfl, rfl, rfl⟩

end

/-- The operand of an atomic that is read from sD: that of `amo.cas`. -/
def amoCmp (s : State) (fn d : Nat) : Word := if fn = 9 then s.reg d else 0

/-- An atomic as issued, whose effect in a pass is a read. -/
def amoIssued (s : State) (fn n b d : Nat) : Amo :=
  { fn := fn, width := n, b := (s.reg b).toNat % 2 ^ (8 * n), cmp := (amoCmp s fn d).toNat % 2 ^ (8 * n) }

section
variable {s : State} (h : Claims.inPass s) {i : Instr} {c : BitVec 32} {fn b a d : Nat} {r q l w : BitVec 1}
  (hi : exec i s = atomic (.long c) fn r q l b a w d s)
include h hi

/-- In a pass an atomic goes on from its address, and waits for no release. -/
theorem atomic_pass {at_ : AmoAt} (htgt : s.live.amoTarget (s.reg a) (Claims.amoBytes w) (decide (l = 1)) = .ok (at_, s.live)) :
    exec i s = .next (finish (atomicIssue (.long c) fn b a w d s) s.live
      (s.live.amoGo c (s.reg a) at_ d (decide (q = 1)) (amoIssued s fn (Claims.amoBytes w) b d))) := by
  have hready := State.ready_of_inPass h
  have hphase : ¬ s.live.th.phase = 2 := by rw [phase_ready hready]; decide
  have hcmp : (if fn = 9 then (s.reg d, s.live) else (0, s.live)) = (amoCmp s fn d, s.live) := by rw [amoCmp]; split <;> rfl
  have hrel : ¬ (r = 1 ∧ ¬ s.live.th.inRecon = true) := fun hr => hr.2 (passes_live h)
  have hwidth : (if w = 0 then 8 else 4) = Claims.amoBytes w := rfl
  rw [hi]
  refine (issue_ready (k := atomicIssue (.long c) fn b a w d s) hready rfl rfl rfl).trans ?_
  simp only [hphase, if_false, readS_ready hready, hcmp, hwidth, htgt, hrel, bind, Except.bind, pure, Except.pure]
  rfl

/-- An atomic of a pass at the own bank. -/
theorem atomic_bank_pass {A : Nat} (hbank : Claims.bankReady s l (s.reg a) (Claims.amoBytes w) A) : ∃ t, exec i s = .next t ∧
    t.co.ls = s.co.ls ∧ t.th = ((if fn = 12 then s.th else s.th.setSreg d ((amoIssued s fn (Claims.amoBytes w) b d).result
      (s.lsNum s.cur.1 A (Claims.amoBytes w)))).went 4).endPhase ∧ Claims.elsewhere s t ∧ Claims.acquires s t q := by
  have hready := State.ready_of_inPass h
  obtain ⟨-, -, -, hsound, -⟩ := id hbank
  obtain ⟨t, ht, hkeep, hth, hepoch⟩ := State.amoHere_pass (passes_live h) (qmap_ready hready) (a := A)
    (o := amoIssued s fn (Claims.amoBytes w) b d) (by rw [State.co_live]; exact hsound) d (decide (q = 1))
  have hexec := atomic_pass h hi (State.amoTarget_bank hbank)
  rw [State.amoGo, ht] at hexec
  have hkeep' := ((State.KeepsMemory.live s).trans hkeep).advance 4
  have hlsNum : s.live.lsNum s.live.cur.1 A (Claims.amoBytes w) = s.lsNum s.cur.1 A (Claims.amoBytes w) := by
    rw [State.lsNum, State.live_ls]; rfl
  replace hth : t.th = (if fn = 12 then s.th.live else s.th.live.setSreg d ((amoIssued s fn (Claims.amoBytes w) b d).result
      (s.lsNum s.cur.1 A (Claims.amoBytes w)))).endPhase := by rw [hth, ← hlsNum, ← State.th_live]; rfl
  refine ⟨t.advance 4, hexec, hkeep'.co_ls, ?_, hkeep'.elsewhere, ?_⟩
  · by_cases hst : fn = 12
    · rw [if_pos hst] at hth ⊢
      rw [State.th_advance, hth]; rfl
    · rw [if_neg hst] at hth ⊢
      rw [State.th_advance, hth]
      exact congrArg Thread.endPhase (Thread.went_setSreg ..)
  · have hq : decide (q = 1) = true ↔ q = 1 := decide_eq_true_iff
    rw [Claims.acquires, State.advance, State.epoch_setTh, hepoch, State.live, State.epoch_setTh]
    exact if_congr hq rfl rfl

/-- An atomic of a pass at another port leaves as one request that writes nothing. -/
theorem atomic_port_pass {g : Seg} (hl : l = 0) (hva : (s.reg a).toNat % Claims.amoBytes w = 0)
    (hseg : s.live.segments (s.reg a) (Claims.amoBytes w) 2 = .ok ([g], s.live)) (htgt : g.tgt ≠ .window s.cur.1) (hL : s.th.cntL < 1023)
    (hd : d ≠ 0) (hd' : d ≠ 31) : ∃ t f o, exec i s = .next t ∧ t.flights = s.flights ++ [f] ∧
      f.kind = .atomic o ∧ o.writes = false ∧ f.pa = g.pa ∧ t.th.cntS = s.th.cntS ∧ t.th.cntL = s.th.cntL + 1 ∧
      t.co.l1 = s.co.l1 ∧ t.co.ls = s.co.ls ∧ Claims.elsewhere s t := by
  subst hl
  have hready := State.ready_of_inPass h
  have hown : s.live.ownWindow g = false := decide_eq_false htgt
  have hrefused : s.live.ownRefused [g] = none := by simp [State.ownRefused, hown]
  have hat : s.live.amoTarget (s.reg a) (Claims.amoBytes w) (decide ((0 : BitVec 1) = 1)) =
      .ok (.port g.pa (g.nc || decide (g.tgt ≠ .dram)) (decide (regionOf (g.pa % 2 ^ 40) = some 0)), s.live) := by
    simp [State.amoTarget, hva, State.checkAll_single hseg (.inr hrefused), hown, bind, Except.bind, pure, Except.pure]
  have hexec := atomic_pass h hi hat
  obtain ⟨f, t, hsend, hkind, hpa, hS, hL', hphase⟩ := State.amoSend_pass (passes_live h) (qmap_ready hready) c (s.reg a) g.pa
    (g.nc || decide (g.tgt ≠ .dram)) (decide (q = 1)) (amoIssued s fn (Claims.amoBytes w) b d)
    (decide (regionOf (g.pa % 2 ^ 40) = some 0)) hd hd' (by rw [State.th_live]; exact hL)
  rw [State.th_live] at hS hL'
  rw [State.amoGo, hsend] at hexec
  have hkeep : s.KeepsMemory (s.live.sent f) := (State.KeepsMemory.live s).fresh.send f
  have hl1 : (s.live.sent f).co.l1 = s.co.l1 := (rfl : _ = s.live.co.l1).trans (State.setTh_l1 s s.th.live)
  obtain ⟨u, hu, huS, huL⟩ : ∃ u, exec i s = .next ((s.live.sent f).setTh u) ∧ u.cntS = s.th.cntS ∧ u.cntL = s.th.cntL + 1 := by
    by_cases hq : q = 1
    · have hstall : s.live.stop (.stall ((s.live.sent f).setTh t)) = ((s.live.sent f).setTh t).setTh { t with run := .stalled } := by
        rw [State.stop_stall_phase (by rw [State.th_setTh, hphase, if_pos (decide_eq_true hq)]; decide), State.th_setTh]
      rw [if_pos (decide_eq_true hq), finish_error, hstall, State.setTh_setTh] at hexec
      exact ⟨_, hexec, hS, hL'⟩
    · rw [if_neg (by rw [decide_eq_true_iff]; exact hq)] at hexec
      refine ⟨{ t with pc := t.pc + 4 }, hexec.trans ?_, hS, hL'⟩
      change Host.Outcome.next (((s.live.sent f).setTh t).advance 4) = _
      rw [State.advance, State.th_setTh, State.setTh_setTh]
      rfl
  refine ⟨_, f, _, hu, rfl, hkind, rfl, hpa, ?_, ?_, ?_, (hkeep.setTh u).co_ls, (hkeep.setTh u).elsewhere⟩
  · rw [State.th_setTh]; exact huS
  · rw [State.th_setTh]; exact huL
  · rw [State.setTh_l1]; exact hl1

end

/-- The words of R215 with their numbers, and how each extends its result. -/
theorem exec_of_mem_atomics_ext (r q l w : BitVec 1) (b a d : BitVec 5) : ∀ x ∈ Claims.atomics, ∃ c : BitVec 32, ∃ fn, fn ≠ 12 ∧
    (x.2.1 = true ↔ fn = 5 ∨ fn = 6 ∨ fn = 9) ∧ ∀ s, exec (x.1 r q l b a w d) s = atomic (.long c) fn r q l b.toNat a.toNat w d.toNat s := by
  simp only [Claims.atomics, List.forall_mem_cons, List.not_mem_nil, false_implies, implies_true, and_true]
  exact ⟨⟨_, 0, by decide, by decide, fun s => rfl⟩, ⟨_, 1, by decide, by decide, fun s => rfl⟩, ⟨_, 2, by decide, by decide, fun s => rfl⟩,
    ⟨_, 3, by decide, by decide, fun s => rfl⟩, ⟨_, 4, by decide, by decide, fun s => rfl⟩, ⟨_, 5, by decide, by decide, fun s => rfl⟩,
    ⟨_, 6, by decide, by decide, fun s => rfl⟩, ⟨_, 7, by decide, by decide, fun s => rfl⟩, ⟨_, 8, by decide, by decide, fun s => rfl⟩,
    ⟨_, 9, by decide, by decide, fun s => rfl⟩⟩

/-- The result of an atomic is its old value, sign- or zero-extended. -/
theorem Amo.result_eq {o : Amo} {signed : Bool} (h : signed = true ↔ o.fn = 5 ∨ o.fn = 6 ∨ o.fn = 9) (m : Nat) :
    o.result m = if signed then (BitVec.ofNat (8 * o.width) m).signExtend 64 else (BitVec.ofNat (8 * o.width) m).setWidth 64 := by
  rw [Amo.result, extS_eq_signExtend, extZ_eq_setWidth]
  exact (if_congr h rfl rfl).symm

theorem passReads : Claims.PassReads := by
  intro s h i a b d
  have hready := State.ready_of_inPass h
  refine ⟨fun r hr => ?locals, fun r hr => ?devices, fun l rb q w => ⟨fun A hbank => ⟨fun r hr => ?bank, ?store⟩, ?port⟩⟩
  case locals =>
    obtain ⟨c, hexec⟩ := exec_of_mem_localLoads i a d r hr
    exact loadLocal_loadsLocal hready (hexec s)
  case devices =>
    obtain ⟨-, c, hexec⟩ := exec_of_mem_deviceLoads i a d r hr
    obtain ⟨hmem, hsmall, hext⟩ := ext_of_mem_deviceLoads r hr
    have hn := pos_of_mem_pieceSizes hmem
    exact ⟨loadDevice_loadHits hready (hexec s) hn hext, loadDevice_loadSent hready (hexec s) hn hext hmem,
      loadDevice_loadRest hready (hexec s) hn hsmall hext⟩
  case bank =>
    obtain ⟨c, fn, hst, hsigned, hexec⟩ := exec_of_mem_atomics_ext rb q l w b a d r hr
    obtain ⟨t, ht, hls, hth, helse, hacq⟩ := atomic_bank_pass h (hexec s) hbank
    refine ⟨t, ht, hls, ?_, helse, hacq⟩
    rw [hth, if_neg hst, Amo.result_eq (o := amoIssued ..) hsigned]
    rfl
  case store =>
    exact atomic_bank_pass h (i := .amoSt rb q l b a w) (fn := 12) (d := 0) rfl hbank
  case port =>
    rintro g rfl hva hseg htgt hL hd hd' r hr
    obtain ⟨c, fn, -, -, hexec⟩ := exec_of_mem_atomics_ext rb q 0 w b a d r hr
    exact atomic_port_pass h (hexec s) rfl hva hseg htgt hL (by bv_omega) (by bv_omega)

end Sys2Proof.Machine
end

section
/-!
Inline children within a reconnaissance pass, and the end of a pass (R43, R91, R299).
-/

namespace Sys2Proof.Machine

open Sys2Proof

/-! ## Opening a window -/

/-- Writes of scalar registers change those registers and what poison they heal. -/
theorem Thread.foldl_setSreg (l : List Nat) (F : Nat → Word) (t : Thread) :
    ∃ g w b, l.foldl (fun t n => t.setSreg n (F n)) t = { t with glob := g, win := w, regBad := b } := by
  induction l generalizing t with
  | nil => exact ⟨t.glob, t.win, t.regBad, rfl⟩
  | cons n l ih =>
    obtain ⟨g, w, b, h⟩ := ih (t.setSreg n (F n))
    refine ⟨g, w, b, h.trans ?_⟩
    rw [Thread.setSreg]
    split
    · rfl
    · split <;> rfl

theorem State.openWindow_eq (v : State) : ∃ g w b,
    v.openWindow = (v.setTh { v.th with depth := v.th.depth + 1, glob := g, win := w, regBad := b }).bump := by
  obtain ⟨g, w, b, h⟩ := Thread.foldl_setSreg freshWindow (Config.freeWord v.tick) { v.th with depth := v.th.depth + 1 }
  exact ⟨g, w, b, by rw [State.openWindow, h]⟩

theorem State.kept_of_slotsOnly {n : Nat} {v u : State} (h : State.slotsOnly n v u) :
    u.cur = v.cur ∧ u.launches = v.launches ∧ (u.core n).deque = (v.core n).deque := by
  obtain ⟨⟨⟨cs, cl, hframe⟩, -⟩, _, _, _, _, _, hcore⟩ := h
  exact ⟨by rw [hframe], by rw [hframe], by rw [hcore]⟩

theorem State.deque_setTh (v : State) (t : Thread) : (v.setTh t).co.deque = v.co.deque := by rw [State.co_setTh]; rfl

theorem State.th_bump_setTh (v : State) (t : Thread) : (v.setTh t).bump.th = t := State.th_setTh v t

/-! ## Opening an inline child (R43) -/

/-- The thread of an inline child, in its new window. -/
def Thread.entersInline (t : Thread) (kind : InlKind) (ret : Word) (dst : Nat) (x : Start) (seed : Word) : Thread :=
  { t.setArgs x.args with
    pc := x.pc &&& ~~~1#64, wid := x.wid, rnd := x.rnd, flg := 0, task := x.task
    inl := { kind := kind, ret := ret, depth := t.depth, dst := dst, task := t.task } :: t.inl
    srs := startSrs seed x.task.score x.wid, regBad := (t.setArgs x.args).regBad.filter (fun r => !kind.writes.contains r) }

theorem Thread.glob_entersInline (t : Thread) (kind : InlKind) (ret : Word) (dst : Nat) (x : Start) (seed : Word) :
    (t.entersInline kind ret dst x seed).glob = (t.setArgs x.args).glob := rfl

/-- An inline child in a state: a new window, the registers it starts with, and the thread that it interrupts behind it. -/
structure State.OpensInline (v t : State) (kind : InlKind) (ret : Word) (dst : Nat) (x : Start) : Prop where
  th : ∃ u : Thread, t.th = u.entersInline kind ret dst x (v.seed x.task.lnch) ∧ u.run = v.th.run ∧ u.depth = v.th.depth + 1 ∧
    u.inl = v.th.inl ∧ u.qmap = v.th.qmap
  args : x.args.length ≤ 4 → ∀ i, ∀ j < x.args.length, t.th.sreg i (1 + j) = x.args.getD j 0
  cur : t.cur = v.cur
  deque : t.co.deque = v.co.deque
  thread : ∀ n i, (n, i) ≠ v.cur → t.thread n i = v.thread n i

theorem Thread.overflows_of_canOpen {s : State} (h : Claims.canOpen s) : s.th.overflows 1 = false := by
  obtain ⟨-, hdepth, hroom, -⟩ := h
  simp only [Thread.overflows, Bool.or_eq_false_iff, decide_eq_false_iff_not]
  omega

theorem State.openInline_opens {v : State} (h : Claims.canOpen v) (hpend : v.th.pend = []) (kind : InlKind) (ret : Word) (dst : Nat) (x : Start) :
    ∃ t, v.openInline kind ret dst x = .ok t ∧ v.OpensInline t kind ret dst x := by
  have hover := Thread.overflows_of_canOpen h
  obtain ⟨hspill, -, -, hacc⟩ := h
  have hwaits : v.th.inlineWaits = false := by
    simp only [Thread.inlineWaits, Thread.needSpill, hpend, hacc, Bool.or_eq_false_iff, decide_eq_false_iff_not]
    exact ⟨⟨by omega, rfl⟩, rfl⟩
  generalize hu : v.saveRegs v.cur.1 v.cur.2 (v.th.region + 0x1000 - 64 * (v.th.inl.length + 1))
    [.s 1, .s 2, .s 3, .s 4, .spr 0x010, .spr 0x016, v.th.modeName, .spr 0x019] v.th.inlineSave = u
  have hslots : State.slotsOnly v.cur.1 v u := by rw [← hu]; exact v.slotsOnly_saveRegs ..
  have hthread (n i : Nat) : u.thread n i = v.thread n i := by rw [← hu, State.thread_saveRegs]
  obtain ⟨hcur, hlaunches, hdeque⟩ := State.kept_of_slotsOnly hslots
  replace hdeque : u.co.deque = v.co.deque := by rw [State.co, hcur, hdeque]; rfl
  have hth : u.th = v.th := by rw [State.th, hcur, hthread, State.th]
  obtain ⟨g, w, b, hopen⟩ := u.openWindow_eq
  rw [hth] at hopen
  generalize hW : u.openWindow = W at hopen
  have hWth : W.th = { v.th with depth := v.th.depth + 1, glob := g, win := w, regBad := b } := by rw [hopen]; exact State.th_bump_setTh ..
  have hWcur : W.cur = v.cur := by rw [hopen]; exact hcur
  have hWdeque : W.co.deque = v.co.deque := by rw [hopen]; exact (u.deque_setTh _).trans hdeque
  have hWseed : W.seed x.task.lnch = v.seed x.task.lnch := by
    have hlaunch : W.launch x.task.lnch = v.launch x.task.lnch := by rw [State.launch, State.launch, ← hlaunches, hopen]; rfl
    rw [State.seed, hlaunch, State.seed]
  have hWthread (n i : Nat) (hne : (n, i) ≠ v.cur) : W.thread n i = v.thread n i := by
    rw [hopen]; exact (State.thread_setTh_ne u _ (by rw [hcur]; exact hne)).trans (hthread n i)
  have hopened : v.openInline kind ret dst x = .ok (W.setTh (W.th.entersInline kind ret dst x (W.seed x.task.lnch))) := by
    simp only [State.openInline, hover, hwaits, hu, hW, Bool.false_eq_true, if_false]
    rfl
  rw [hWseed] at hopened
  refine ⟨_, hopened, ⟨W.th, State.th_setTh .., ?_⟩, fun hlen i j hj => ?_, hWcur, ?_, fun n i hne => ?_⟩
  · rw [hWth]; exact ⟨rfl, rfl, rfl, rfl⟩
  · rw [State.th_setTh]; exact Thread.sreg_setArgs (W.th.glob_entersInline ..) i hj hlen
  · rw [State.deque_setTh, hWdeque]
  · rw [State.thread_setTh_ne _ _ (by rw [hWcur]; exact hne), hWthread n i hne]

/-! ## Spawns in a pass (R91, R291, R292) -/

/-- A word that gives the address of its next instruction itself. -/
theorem issue_ready_jump {s : State} (h : s.ready) {k : Issue} {body : State → Except Stop State} (hpred : k.pred = none) (hquiet : k.quiet = false)
    (hbars : k.bars = none) (hj : k.jumps = true) {t : State} (hb : body s.live = .ok t) : issue k s body = .next t := by
  rw [issue_ready h hpred hquiet hbars, hb, finish_ok, hj]
  rfl

theorem canOpen_live {s : State} (h : Claims.canOpen s) : Claims.canOpen s.live := by
  rw [Claims.canOpen, State.th_live]; exact h

theorem entryOk_of_entry {pc : Word} (h : Claims.entry pc) : entryOk pc = true := by
  obtain ⟨heven, hcanonical⟩ := h
  simp only [entryOk, heven, canonical, hcanonical, Bool.not_false, decide_true, Bool.and_self]

/-- An entry address has bit 0 clear. -/
theorem and_not_one_of_entry {pc : Word} (h : Claims.entry pc) : pc &&& ~~~1#64 = pc := by
  obtain ⟨heven, -⟩ := h
  refine BitVec.eq_of_getLsbD_eq fun j hj => ?_
  simp only [BitVec.getLsbD_and, BitVec.getLsbD_not, BitVec.getLsbD_one, hj, decide_true, Bool.true_and]
  rcases Nat.eq_zero_or_pos j with rfl | hpos
  · rw [heven]; rfl
  · rw [decide_eq_false (Nat.pos_iff_ne_zero.1 hpos)]
    simp

/-- The checks of a spawn let a well-formed child through. -/
theorem State.spawnCheck_ok {s : State} {pc w : Word} (hzero : w.extractLsb' 19 13 = 0) (hzero' : w.extractLsb' 44 20 = 0)
    (hframe : Claims.frameOpen s (w.extractLsb' 0 19).toNat) (hentry : Claims.entry pc) {named : Bool}
    (hcore : if named then s.live.coreTakes (w.extractLsb' 32 12).toNat = true else w.extractLsb' 32 12 = 0) (k : Issue) :
    s.live.spawnCheck k pc w named = .ok () := by
  obtain ⟨halign, hin, hstate, hcount⟩ := hframe
  have hfits : frameFits (w.extractLsb' 0 19).toNat = true := decide_eq_true ⟨halign, hin⟩
  have htakes : s.live.frameTakes (w.extractLsb' 0 19).toNat = true := by
    have hls (a n : Nat) : s.live.lsNum s.live.cur.1 a n = s.lsNum s.cur.1 a n := by rw [State.lsNum, State.live_ls]; rfl
    rw [State.frameTakes, State.frameState, State.frameCount, hls, hls, Bool.and_eq_true]
    exact ⟨decide_eq_true hstate, decide_eq_true hcount⟩
  cases named <;> simp_all [State.spawnCheck, bits_toNat, entryOk_of_entry hentry]

/-- In a pass a child runs inline (R91). -/
theorem State.spawnInline_ran {s : State} (h : Claims.inPass s) (hopen : Claims.canOpen s) {pc : Word} (hentry : Claims.entry pc) {args : List Word}
    (hlen : args.length = 4) (fa : Nat) : ∃ t, s.live.spawnInline (s.live.childRecord pc args fa) = .ok t ∧ Claims.ranInline s t pc args ∧
      t.th.qmap = false := by
  have hready := State.ready_of_inPass h
  obtain ⟨hpend, -, -, hmap, -⟩ := id h
  have hmark : s.live.markSpawn.th = { s.th.live with task := { s.th.task with spawned := true } } := by
    rw [State.markSpawn, State.th_setTh, State.th_live]; rfl
  have hopen' : Claims.canOpen s.live.markSpawn := by rw [Claims.canOpen, hmark]; exact hopen
  obtain ⟨t, ht, ⟨u, hth, hrun, hdepth, hinl, hqmap⟩, hargs, hcur, hdeque, hthread⟩ :=
    State.openInline_opens hopen' (by rw [hmark]; exact hpend) .child (s.live.markSpawn.th.pc + 4) 0
      { pc := pc, args := args, wid := s.th.wid, rnd := s.th.rnd
        task := { s.live.markSpawn.th.task with body := none, item := none, fref := some (s.live.childRecord pc args fa).fref } }
  have hseed : s.live.markSpawn.seed s.th.task.lnch = s.seed s.th.task.lnch := rfl
  have hlive : s.live.markSpawn.cur = s.cur := rfl
  have hparent : s.live.markSpawn.th.task.lnch = s.th.task.lnch ∧ s.live.markSpawn.th.task.score = s.th.task.score := by rw [hmark]; exact ⟨rfl, rfl⟩
  obtain ⟨hlnch, hscore⟩ := hparent
  rw [hmark] at hrun hdepth hinl hqmap
  have hrecord : s.live.spawnInline (s.live.childRecord pc args fa) = .ok t := by
    rw [← ht, State.spawnInline, State.childRecord, hmark, State.th_live]
    rfl
  refine ⟨t, hrecord, ⟨?_, ?_, fun j hj => ?_, ?_, ?_, ?_, ?_, ?_, ?_, ?_, fun n i hne => ?_⟩, ?_⟩
  · rw [hth]; exact and_not_one_of_entry hentry
  · rw [hth]; exact hrun
  · exact hargs (le_of_eq hlen) _ j (by rw [hlen]; exact hj)
  · rw [hth]; rfl
  · rw [hth]; rfl
  · rw [hth]; rfl
  · rw [hth]; exact hdepth
  · rw [hth]; exact congrArg (fun l => l.length + 1) hinl
  · rw [hth, ← hseed, ← hlnch, ← hscore]; rfl
  · rw [hdeque, State.markSpawn, State.deque_setTh, State.live, State.deque_setTh]
  · rw [hthread n i hne, State.markSpawn, State.thread_setTh_ne s.live _ (by exact hne), State.live, State.thread_setTh_ne _ _ hne]
  · rw [hth]; exact hqmap.trans hmap


theorem readGroup_live (s : State) (d k : Nat) : s.live.readGroup d k = Claims.group s d k := by
  rw [State.readGroup, State.th_live]; rfl

theorem length_group (s : State) (d k : Nat) : (Claims.group s d k).length = k := by
  rw [Claims.group]
  split <;> simp

theorem State.takeReads_off {s : State} (h : s.th.qmap = false) (rs : List Nat) : s.takeReads rs = s := by
  induction rs with
  | nil => rfl
  | cons r rs ih =>
    have hread : (s.readS r).2 = s := by rw [State.readS_off h]
    rw [State.takeReads, List.foldl_cons, hread]
    exact ih

section
variable {s : State} (h : Claims.inPass s) (hopen : Claims.canOpen s) {a b d : BitVec 5}
  (hentry : Claims.entry (s.reg a.toNat))
include h hopen hentry

section
variable (hzero : (s.reg b.toNat).extractLsb' 19 13 = 0) (hzero' : (s.reg b.toNat).extractLsb' 44 20 = 0)
  (hframe : Claims.frameOpen s ((s.reg b.toNat).extractLsb' 0 19).toNat)
include hzero hzero' hframe

theorem spawn_pass (hcore : (s.reg b.toNat).extractLsb' 32 12 = 0) :
    ∃ t, exec (.spawn b a d) s = .next t ∧ Claims.ranInline s t (s.reg a.toNat) (Claims.group s d.toNat 4) := by
  have hready := State.ready_of_inPass h
  obtain ⟨t, ht, hran, -⟩ := State.spawnInline_ran h hopen hentry (length_group s d.toNat 4) ((s.reg b.toNat).extractLsb' 0 19).toNat
  refine ⟨t, ?_, hran⟩
  have hcheck := State.spawnCheck_ok hzero hzero' hframe hentry (named := false) hcore
  change execSpawn b a d s = _
  unfold execSpawn
  refine issue_ready_jump hready rfl rfl rfl rfl ?_
  simp only [readS_ready hready, hcheck, bind, Except.bind, readGroup_live, State.spawnHere, bits_toNat, passes_live h, Bool.or_true, if_true]
  exact ht

theorem spawnAt_pass (hcore : s.live.coreTakes ((s.reg b.toNat).extractLsb' 32 12).toNat = true) :
    ∃ t, exec (.spawnAt b a d) s = .next t ∧ Claims.ranInline s t (s.reg a.toNat) (Claims.group s d.toNat 4) := by
  have hready := State.ready_of_inPass h
  obtain ⟨t, ht, hran, hmap⟩ := State.spawnInline_ran h hopen hentry (length_group s d.toNat 4) ((s.reg b.toNat).extractLsb' 0 19).toNat
  refine ⟨t, ?_, hran⟩
  have hcheck := State.spawnCheck_ok hzero hzero' hframe hentry (named := true) hcore
  have hphase : ¬ s.live.th.phase ≠ 0 := not_not.2 (phase_ready hready)
  have hwords : s.live.operandWords [a.toNat, b.toNat] = [s.reg a.toNat, s.reg b.toNat] := by
    rw [State.operandWords_off (qmap_ready hready)]; exact congrArg₂ (fun x y => [x, y]) (s.sreg_live _) (s.sreg_live _)
  change execSpawnAt b a d s = _
  unfold execSpawnAt
  refine issue_ready_jump hready rfl rfl rfl rfl ?_
  simp only [hphase, if_false, hwords, List.headD_cons, List.getD_cons_succ, List.getD_cons_zero, hcheck, bind, Except.bind, readGroup_live, bits_toNat,
    passes_live h, if_true, ht, pure, Except.pure, State.takeReads_off hmap]

end

/-- A pass within a pass gives 0 (R299). -/
theorem txrecon_pass : exec (.txrecon b a d) s = .next (Claims.wrote s d.toNat 0 4) := by
  have hready := State.ready_of_inPass h
  have hover : s.live.th.overflows 1 = false := Thread.overflows_of_canOpen (canOpen_live hopen)
  change execTxrecon b a d s = _
  unfold execTxrecon
  refine (issue_ready_jump hready rfl rfl rfl rfl (t := (s.live.setTh (s.live.th.setSreg d.toNat 0)).advance 4) ?_).trans ?_
  · simp only [readS_ready hready, entryOk_of_entry hentry, hover, passes_live h, State.writeS_off (qmap_ready hready), Bool.not_true,
      Bool.false_eq_true, if_false, if_true, pure, Except.pure]
  · rw [State.advance, State.th_setTh, State.setTh_setTh, State.th_live, Thread.went_setSreg, Claims.wrote, State.live, State.setTh_setTh]

end

/-! ## The end of a pass (R91, R299) -/

theorem Thread.sreg_setSreg_self (t : Thread) (i : Nat) {d : Nat} (hd : d ≠ 0) (hd' : d < 31) (v : Word) : (t.setSreg d v).sreg i d = v := by
  have h31 : d ≠ 31 := by omega
  by_cases hw : 8 ≤ d ∧ d ≤ 23
  · simp only [Thread.setSreg, Thread.sreg, hd, h31, hw, and_self, or_self, if_true, if_false, tblGet_tblSet_self]
  · simp only [Thread.setSreg, Thread.sreg, hd, h31, hw, or_self, if_false, tblGet_tblSet_self]

/-- The thread that a pass interrupted before its destination is written: its own ACC is back. -/
def State.backWithAcc (v : State) (x : Inl) : Thread :=
  { v.backFrom x with acc := v.lsWord v.cur.1 (v.th.saveAt + 56)
                      regBad := (v.backFrom x).regBad.filter (fun r => decide (r ≠ RegName.spr 0x019)) }

theorem State.sregs_backWithAcc (v : State) (x : Inl) : (v.backWithAcc x).glob = (v.backFrom x).glob ∧
    (v.backWithAcc x).win = (v.backFrom x).win ∧ (v.backWithAcc x).depth = (v.backFrom x).depth := by
  rw [State.backWithAcc]
  exact ⟨rfl, rfl, rfl⟩

/-- The thread that a pass interrupted goes on, with the pass's ACC in its destination. -/
def State.backFromPass (v : State) (x : Inl) : Thread := (v.backWithAcc x).setSreg x.dst v.th.acc

theorem State.closePass_eq {v : State} (hmap : v.th.qmap = false) (x : Inl) :
    (v.closePass x).endPhase = (v.logPort v.cur.1 v.th.saveAt 64 3 v.self).setTh (v.backFromPass x).endPhase := by
  have hback : (v.backWithAcc x).qmap = false := hmap
  have hclose : v.closePass x = (v.logPort v.cur.1 v.th.saveAt 64 3 v.self).setTh (v.backFromPass x) := by
    simp only [State.closePass, State.closeInline_eq, State.th_setTh, State.setTh_setTh]
    exact (State.writeS_off (by rw [State.th_setTh]; exact hback) ..).trans (by rw [State.th_setTh, State.setTh_setTh]; rfl)
  rw [hclose, State.endPhase, State.th_setTh, State.setTh_setTh]

/-- What the interrupted thread goes on with. -/
theorem State.backFromPass_words (v : State) {x : Inl} (hdst : x.dst < 32) : (v.backFromPass x).pc = x.ret ∧
    (v.backFromPass x).inl = v.th.inl.drop 1 ∧ (v.backFromPass x).task = x.task ∧ (v.backFromPass x).depth = x.depth - 1 ∧
    (v.backFromPass x).run = v.th.run ∧ (x.dst ≠ 0 → x.dst ≠ 31 → ∀ i, (v.backFromPass x).sreg i x.dst = v.th.acc) ∧
    (∀ j, (v.backFromPass x).ereg j = v.th.ereg j) ∧
    (∀ i, ∀ j < 4, 1 + j ≠ x.dst → (v.backFromPass x).sreg i (1 + j) = v.lsWord v.cur.1 (v.th.saveAt + 8 * j)) ∧
    (v.backFromPass x).wid = v.lsWord v.cur.1 (v.th.saveAt + 32) ∧
    (v.backFromPass x).rnd = (v.lsWord v.cur.1 (v.th.saveAt + 48)).extractLsb' 0 3 ∧
    (v.backFromPass x).flg = (v.lsWord v.cur.1 (v.th.saveAt + 48)).extractLsb' 16 14 ∧
    (v.backFromPass x).acc = v.lsWord v.cur.1 (v.th.saveAt + 56) := by
  obtain ⟨hpc, hinl, htask, hdepth, hregs, hwid, hrnd, hflg⟩ := v.backFrom_words x
  rw [State.backFromPass]
  refine ⟨?_, ?_, ?_, ?_, ?_, ?_, ?_, ?_, ?_, ?_, ?_, ?_⟩
  · exact (Thread.setSreg_pc ..).trans hpc
  · exact (Thread.setSreg_inl ..).trans hinl
  · exact (Thread.setSreg_task ..).trans htask
  · exact (Thread.setSreg_depth ..).trans hdepth
  · exact Thread.setSreg_run ..
  · exact fun h0 h31 i => Thread.sreg_setSreg_self _ i h0 (by omega) _
  · exact fun j => congrArg (tblGet 0 j) (Thread.setSreg_ext ..)
  · intro i j hj hne
    rw [Thread.sreg_setSreg_ne _ i (by omega) hne, ← hregs i j hj]
    exact Thread.sreg_congr (v.sregs_backWithAcc x) i (by omega)
  · exact (Thread.setSreg_wid ..).trans hwid
  · exact (Thread.setSreg_rnd ..).trans hrnd
  · exact (Thread.setSreg_flg ..).trans hflg
  · exact Thread.setSreg_acc ..

section
variable {s : State} (h : Claims.inPass s) {x : Inl} {rest : List Inl} (hinl : s.th.inl = x :: rest)
include h hinl

/-- `quit` and `txchk` end the innermost pass. -/
theorem exec_endPass {restart : Bool} (hkind : x.kind = .pass restart) : ∀ i ∈ [Instr.quit, .txchk], exec i s = .next (match s.live.endPass x restart with
    | .ok t => t
    | .error e => s.live.stop e) := by
  have hready := State.ready_of_inPass h
  have hinl' : s.live.th.inl = x :: rest := by rw [State.th_live]; exact hinl
  have hphase : ¬ s.live.th.phase = 8 := by rw [phase_ready hready]; decide
  simp only [List.forall_mem_cons, List.not_mem_nil, false_implies, implies_true, and_true]
  refine ⟨?_, ?_⟩
  · change execQuit s = _
    unfold execQuit
    refine (issue_ready hready rfl rfl rfl).trans ?_
    simp only [hinl', State.endInline, hkind]
    cases s.live.endPass x restart <;> rfl
  · change execTxchk s = _
    unfold execTxchk
    refine (issue_ready hready rfl rfl rfl).trans ?_
    simp only [hinl', hphase, if_false, hkind]
    cases s.live.endPass x restart <;> rfl

/-- A pass whose loads are not back waits. -/
theorem pass_waits (hkind : x.kind = .pass false) (hL : s.th.cntL ≠ 0) : ∀ i ∈ [Instr.quit, .txchk], ∃ t, exec i s = .next t ∧
    t.th.run = .stalled ∧ t.th.pc = s.th.pc ∧ t.th.inl = s.th.inl ∧ t.co.ls = s.co.ls ∧ Claims.elsewhere s t := by
  intro i hi
  have hwait : s.live.endPass x false = .error (.stall (s.live.setTh { s.live.th with phase := 24, held := [] })) :=
    if_pos (.inl (by rw [State.th_live]; exact hL))
  have hexec := exec_endPass h hinl hkind i hi
  rw [hwait] at hexec
  dsimp only at hexec
  rw [State.stop_stall_phase (by rw [State.th_setTh]; change (24 : Nat) ≠ 0 ∧ 24 ≠ 10 ∧ 24 ≠ 11; decide), State.th_setTh, State.setTh_setTh, State.th_live, State.live, State.setTh_setTh] at hexec
  refine ⟨_, hexec, ?_, ?_, ?_, (State.KeepsMemory.refl s |>.setTh _).co_ls, s.elsewhere_setTh _⟩ <;> rw [State.th_setTh] <;> rfl

/-- A pass whose loads are back ends. -/
theorem pass_ends (hkind : x.kind = .pass false) (hL : s.th.cntL = 0) (hacc : s.th.accQ = []) (hbad : s.co.lsBad = []) (hres : s.th.resLo < x.depth)
    (hdst : x.dst < 32) : ∀ i ∈ [Instr.quit, .txchk], let save := s.th.region + 0x1000 - 64 * s.th.inl.length
    ∃ t, exec i s = .next t ∧ t.th.pc = x.ret ∧ t.th.inl = rest ∧ t.th.task = x.task ∧ t.th.depth = x.depth - 1 ∧
      t.th.run = .running ∧ (x.dst ≠ 0 → x.dst ≠ 31 → t.reg x.dst = s.th.acc) ∧ (∀ j < 8, t.th.ereg j = s.th.ereg j) ∧
      (∀ j < 4, 1 + j ≠ x.dst → t.reg (1 + j) = s.lsWord s.cur.1 (save + 8 * j)) ∧ t.th.wid = s.lsWord s.cur.1 (save + 32) ∧
      t.th.rnd = (s.lsWord s.cur.1 (save + 48)).extractLsb' 0 3 ∧
      t.th.flg = (s.lsWord s.cur.1 (save + 48)).extractLsb' 16 14 ∧ t.th.acc = s.lsWord s.cur.1 (save + 56) ∧
      t.co.ls = s.co.ls ∧ Claims.elsewhere s t := by
  intro i hi save
  have hready := State.ready_of_inPass h
  obtain ⟨-, -, -, hmap, -⟩ := id h
  generalize hv : s.setTh (s.th.live.closeTo x.depth) = v
  have hvth : v.th = s.th.live.closeTo x.depth := by rw [← hv]; exact State.th_setTh ..
  have hvcur : v.cur = s.cur := by rw [← hv]; rfl
  have hwords (a : Nat) : v.lsWord v.cur.1 a = s.lsWord s.cur.1 a := by rw [hvcur, ← hv, State.lsWord_setTh]
  have hkeep : s.KeepsMemory v := by rw [← hv]; exact (State.KeepsMemory.refl s).setTh _
  have hclosed : s.live.inlineReady x = .ok v := by
    rw [State.inlineReady_ok (by rw [State.th_live]; exact hres) ((State.live_lsBad ..).trans hbad), State.setTh_live, State.th_live, hv]
  have hend : s.live.endPass x false = .ok (v.closePass x).endPhase := by
    have hback : ¬ (s.live.th.cntL ≠ 0 ∨ s.live.th.accQ.isEmpty = false) := by
      rw [State.th_live]; exact not_or.2 ⟨not_not.2 hL, by rw [show s.th.live.accQ = [] from hacc]; exact Bool.noConfusion⟩
    rw [State.endPass, if_neg hback, if_neg (fun h => Bool.noConfusion h.1), hclosed]
    rfl
  have hexec := exec_endPass h hinl hkind i hi
  rw [hend] at hexec
  dsimp only at hexec
  rw [State.closePass_eq (by rw [hvth]; exact hmap)] at hexec
  obtain ⟨hpc, hin, htask, hdepth, hrun, hacc', hext, hregs, hwid, hrnd, hflg, hold⟩ := v.backFromPass_words hdst
  have hsave : v.th.saveAt = save := by rw [hvth]; rfl
  simp only [hsave, hwords] at hregs hwid hrnd hflg hold
  rw [hvth] at hin hrun hacc' hext
  generalize v.backFromPass x = u at hexec hpc hin htask hdepth hrun hacc' hext hregs hwid hrnd hflg hold
  have hlog : s.KeepsMemory (v.logPort v.cur.1 v.th.saveAt 64 3 v.self) := hkeep.logPort ..
  generalize v.logPort v.cur.1 v.th.saveAt 64 3 v.self = w at hexec hlog
  have hreg (r : Nat) : (w.setTh u.endPhase).reg r = u.sreg s.cur.2 r := by rw [State.reg, State.th_setTh, State.setTh_cur, hlog.cur]; rfl
  refine ⟨_, hexec, ?_⟩
  rw [State.th_setTh]
  refine ⟨hpc, hin.trans ?_, htask, hdepth, hrun, fun h0 h31 => (hreg _).trans (hacc' h0 h31 _), fun j _ => hext j,
    fun j hj hne => (hreg _).trans (hregs _ j hj hne), hwid, hrnd, hflg, hold, (hlog.setTh _).co_ls, (hlog.setTh _).elsewhere⟩
  exact congrArg (List.drop 1) hinl

/-- A `txchk` of an inline child traps (R300; log entry 21). -/
theorem txchk_child (hkind : x.kind = .child) : exec .txchk s = .next (Claims.trapped s 5 (Claims.word .txchk)) := by
  have hready := State.ready_of_inPass h
  have hinl' : s.live.th.inl = x :: rest := by rw [State.th_live]; exact hinl
  have hphase : ¬ s.live.th.phase = 8 := by rw [phase_ready hready]; decide
  change execTxchk s = _
  unfold execTxchk
  refine issue_ready_trap hready rfl rfl rfl (by decide) ?_
  simp only [hinl', hphase, if_false, hkind]
  rfl

end

theorem passChildrenAndEnd : Claims.PassChildrenAndEnd := by
  intro s h a b d
  refine ⟨?spawns, fun hentry hopen => txrecon_pass h hopen hentry, fun x rest hinl => ⟨fun hkind i hi => ⟨?waits, ?ends⟩, ?child⟩⟩
  case spawns =>
    simp only [List.forall_mem_cons, List.not_mem_nil, false_implies, implies_true, and_true]
    exact ⟨fun hzero hzero' hframe hentry hcore _ hopen => spawn_pass h hopen hentry hzero hzero' hframe (hcore trivial),
      fun hzero hzero' hframe hentry _ hcore hopen => spawnAt_pass h hopen hentry hzero hzero' hframe (hcore trivial)⟩
  case waits => exact fun hL => pass_waits h hinl hkind hL i hi
  case ends => exact fun hL hacc hbad hres _ hdst => pass_ends h hinl hkind hL hacc hbad hres hdst i hi
  case child => exact txchk_child h hinl

/-- Settles O9: a word that a pass suppresses only goes on, a local store is split at the scratch ranges, loads are those of a ready
thread, an atomic acts as one that writes nothing, and children and the end of a pass are inline openings and closings. -/
theorem reconnaissanceSuppresses : Obligations.ReconnaissanceSuppresses :=
  ⟨passSuppresses, passStoresScratch, passReads, passChildrenAndEnd⟩

end Sys2Proof.Machine
end

section
/-!
Descriptors, numbering and seals at the Scarab, and what they leave alone (R70, R73, R77, R78).
-/

namespace Sys2Proof.Machine

open Sys2Proof

/-! ## What the Scarab's reads leave alone -/

theorem State.memoriesKept_of_cores {s t : State} (hcores : t.cores = s.cores) (hfused : t.fused = s.fused) (hdram : t.dram = s.dram) :
    Claims.memoriesKept s t := by
  have hcore := State.core_congr hcores hfused
  exact ⟨fun m j => by rw [State.thread, hcore, State.thread], fun m => by rw [hcore], hdram⟩

/-- Nothing differs but homes, records of clusters, and the free choices. -/
def State.readsOnly (s t : State) : Prop :=
  (∃ hs cl tk, t = { s with homes := hs, clusters := cl, tick := tk }) ∧ ∀ k, ∃ q, t.cluster k = { s.cluster k with errQ := q }

namespace State.readsOnly

variable {s t u : State}

theorem refl (s : State) : s.readsOnly s := ⟨⟨_, _, _, rfl⟩, fun _ => ⟨_, rfl⟩⟩

theorem trans (h : s.readsOnly t) (h' : t.readsOnly u) : s.readsOnly u := by
  obtain ⟨⟨_, _, _, rfl⟩, hq⟩ := h
  obtain ⟨⟨hs, cl, tk, rfl⟩, hq'⟩ := h'
  refine ⟨⟨hs, cl, tk, rfl⟩, fun k => ?_⟩
  obtain ⟨q, hk⟩ := hq k
  obtain ⟨q', hk'⟩ := hq' k
  exact ⟨q', by rw [hk', hk]⟩

theorem of_recordsOnly (h : s.recordsOnly t) : s.readsOnly t := by
  obtain ⟨⟨hs, cl, rfl⟩, hq⟩ := h
  exact ⟨⟨hs, cl, _, rfl⟩, hq⟩

theorem bump (h : s.readsOnly t) : s.readsOnly t.bump := h.trans ⟨⟨_, _, _, rfl⟩, fun _ => ⟨_, rfl⟩⟩

theorem cores (h : s.readsOnly t) : t.cores = s.cores := by obtain ⟨⟨_, _, _, rfl⟩, -⟩ := h; rfl

theorem fused (h : s.readsOnly t) : t.fused = s.fused := by obtain ⟨⟨_, _, _, rfl⟩, -⟩ := h; rfl

theorem dram (h : s.readsOnly t) : t.dram = s.dram := by obtain ⟨⟨_, _, _, rfl⟩, -⟩ := h; rfl

theorem chan (h : s.readsOnly t) : t.chan = s.chan := by obtain ⟨⟨_, _, _, rfl⟩, -⟩ := h; rfl

end State.readsOnly

theorem State.readsOnly_devRead (s : State) (master pa n : Nat) : s.readsOnly (s.devRead master pa n).2 := by
  refine List.foldlRecOn (pieces n pa n) _ (motive := fun acc : List Byte × State => s.readsOnly acc.2) (.refl s) fun acc h p _ => ?_
  dsimp only
  split
  · exact h.trans (.of_recordsOnly (State.recordsOnly_dramRead ..))
  · exact h.bump

theorem State.readsOnly_lockHome (s : State) (x : Space) (tile : Nat) : s.readsOnly (s.lockHome x tile).2 := by
  unfold State.lockHome
  split
  · exact s.readsOnly_devRead ..
  · exact .refl s

theorem State.readsOnly_lockHomes (s : State) (r : SubRec) : s.readsOnly (s.lockHomes r).2 :=
  List.foldlRecOn r.entries _ (motive := fun acc : Tbl Nat × State => s.readsOnly acc.2) (.refl s)
    fun acc h _ _ => h.trans (acc.2.readsOnly_lockHome ..)

theorem State.readsOnly_spaceHomes (s : State) (x : Space) : s.readsOnly (s.spaceHomes x).2 :=
  List.foldlRecOn (List.range x.count) _ (motive := fun acc : List Nat × State => s.readsOnly acc.2) (.refl s)
    fun acc h _ _ => h.trans (acc.2.readsOnly_lockHome ..)

/-- Enrolments change the Scarab and homes alone. -/
theorem State.enrol_frame (s : State) (l : List Nat) : ∃ c hs, l.foldl State.enrol s = { s with scarab := c, homes := hs } := by
  refine List.foldlRecOn l State.enrol (motive := fun t : State => ∃ c hs, t = { s with scarab := c, homes := hs }) ⟨_, _, rfl⟩ fun t ht h _ => ?_
  obtain ⟨c, hs, rfl⟩ := ht
  unfold State.enrol
  dsimp only
  split
  · exact ⟨_, _, rfl⟩
  · exact ⟨_, _, rfl⟩

/-! ## Loads of descriptors (R70, R73) -/

theorem tblFind_tblDel_ne {α : Type} {j k : Nat} (h : j ≠ k) (t : Tbl α) : tblFind j (tblDel k t) = tblFind j t := by
  unfold tblDel
  induction t with
  | nil => rfl
  | cons x t ih =>
    by_cases hx : x.1 = k
    · have hj : j ≠ x.1 := fun e => h (e.trans hx)
      simpa [List.filter_cons, hx, tblFind, hj, h] using ih
    · simp only [List.filter_cons, hx, ne_eq, not_false_eq_true, decide_true, if_true, tblFind]
      split
      · rfl
      · exact ih

theorem State.memoriesKept_validate (s : State) (i : Nat) (x : Space) : Claims.memoriesKept s (s.validate i x) := by
  have hread := State.readsOnly_spaceHomes { s with scarab := { s.scarab with spaces := tblSet i x s.scarab.spaces } : State } x
  unfold State.validate
  generalize State.spaceHomes { s with scarab := { s.scarab with spaces := tblSet i x s.scarab.spaces } : State } x = p at *
  obtain ⟨c, hs, hframe⟩ := p.2.enrol_frame p.1
  dsimp only
  rw [hframe]
  exact State.memoriesKept_of_cores hread.cores hread.fused hread.dram

/-- What a load of a descriptor leaves. -/
theorem descriptorLoads {s : State} (halive : s.alive = true) (hload : s.scarab.load = true) (hfree : s.spaceBusy s.scarab.loading = false)
    (halign : s.scarab.base % 32 = 0) (hmay : s.devMay 2 (s.scarab.base + 32 * s.scarab.loading) 32 0 = true) : let i := s.scarab.loading
      let bs := Claims.descBytes s
      let num := fun o n => leNat ((bs.drop o).take n)
      (Claims.descGood bs → ∃ t x, exec .tsDescriptorLoad s = .next t ∧ tblFind i t.scarab.spaces = some x ∧
        x.vbase = BitVec.ofNat 64 (num 0 8) ∧ x.pbase = num 8 6 ∧ x.log2 = num 14 1 ∧ x.explicit = decide (num 15 1 % 2 = 1) ∧
        x.count = num 16 6 ∧ x.pmap = num 24 6 ∧ (∀ j, j ≠ i → tblFind j t.scarab.spaces = tblFind j s.scarab.spaces) ∧ t.scarab.load = false ∧
        t.scarab.err = false ∧ Claims.memoriesKept s t) ∧
      (¬ Claims.descGood bs → ∃ t, exec .tsDescriptorLoad s = .next t ∧ tblFind i t.scarab.spaces = none ∧
        (∀ j, j ≠ i → tblFind j t.scarab.spaces = tblFind j s.scarab.spaces) ∧ t.scarab.load = false ∧ t.scarab.err = true ∧
        Claims.memoriesKept s t) := by
  have hbytes : (s.devRead 2 (s.scarab.base + 32 * s.scarab.loading) 32).1 = Claims.descBytes s :=
    State.devRead_aligned (by decide) (by omega) hmay
  have hread := s.readsOnly_devRead 2 (s.scarab.base + 32 * s.scarab.loading) 32
  have hscarab := s.scarab_devRead 2 (s.scarab.base + 32 * s.scarab.loading) 32
  have hexec := exec_tsDescriptorLoad halive hload hfree
  rw [State.loadSpace_eq] at hexec
  dsimp only at hexec ⊢
  rw [← descriptorOk_iff, ← hbytes]
  generalize s.devRead 2 (s.scarab.base + 32 * s.scarab.loading) 32 = p at hread hscarab hexec
  have hkept : Claims.memoriesKept s p.2 := State.memoriesKept_of_cores hread.cores hread.fused hread.dram
  refine ⟨fun hgood => ?good, fun hbad => ?bad⟩
  case good =>
    rw [if_pos hgood] at hexec
    obtain ⟨ch, hch⟩ := p.2.scarab_validate s.scarab.loading (spaceOf (descNum p.1))
    obtain ⟨hth, hls, hdram⟩ := p.2.memoriesKept_validate s.scarab.loading (spaceOf (descNum p.1))
    obtain ⟨hth', hls', hdram'⟩ := hkept
    refine ⟨_, spaceOf (descNum p.1), hexec, ?_, rfl, rfl, rfl, ?_, rfl, rfl, fun j hj => ?_, ?_, ?_,
      fun m j => (hth m j).trans (hth' m j), fun m => (hls m).trans (hls' m), hdram.trans hdram'⟩
    · rw [hch]; exact tblFind_tblSet_self ..
    · exact congrArg (fun v => decide (v % 2 = 1)) (Nat.div_one _)
    · rw [hch, hscarab]; exact tblFind_tblSet_ne hj ..
    · rw [hch]
    · rw [hch]
  case bad =>
    rw [if_neg hbad] at hexec
    refine ⟨_, hexec, tblFind_tblDel .., fun j hj => ?_, rfl, rfl, hkept⟩
    exact (tblFind_tblDel_ne hj _).trans (by rw [hscarab])

/-! ## Faults at numbering (R75, R424) -/

section
variable {s t : State} (hspaces : t.scarab.spaces = s.scarab.spaces)
include hspaces

theorem State.space_congr (i : Nat) : t.space i = s.space i := by rw [State.space, hspaces, State.space]

theorem State.slotsOf_congr (r : SubRec) : t.slotsOf r = s.slotsOf r := by
  simp only [State.slotsOf, State.space_congr hspaces]

theorem State.badEntry_congr (es seen : List (Nat × Word)) : t.badEntry seen es = s.badEntry seen es := by
  induction es generalizing seen with
  | nil => rfl
  | cons e es ih => simp only [State.badEntry, hspaces, State.space_congr hspaces, ih]

/-- The faults of a record are found in the spaces and the frames of the cluster. -/
theorem State.numberFault_congr (hsite : t.site = s.site) (hfused : t.fused = s.fused) (hcores : ∀ n, (t.core n).fcnt = (s.core n).fcnt ∧
    (t.core n).flog = (s.core n).flog ∧ (t.core n).numbered = (s.core n).numbered) (r : SubRec) (k : Nat) : t.numberFault r k = s.numberFault r k := by
  have henabled : t.enabled = s.enabled := by
    funext n
    obtain ⟨-, -, hnumbered⟩ := hcores n
    rw [State.enabled, State.enabled, hsite, hfused, hnumbered]
  have hframes (n : Nat) : decide ((t.core n).fcnt ≠ 0 ∧ s.frameNeed r ≤ 2 ^ (t.core n).flog) =
      decide ((s.core n).fcnt ≠ 0 ∧ s.frameNeed r ≤ 2 ^ (s.core n).flog) := by
    obtain ⟨hcnt, hlog, -⟩ := hcores n
    rw [hcnt, hlog]
  have hneed : t.frameNeed r = s.frameNeed r := by rw [State.frameNeed, State.slotsOf_congr hspaces, State.frameNeed]
  simp only [State.numberFault, State.badEntry_congr hspaces, State.coresOf, henabled, hneed, hframes]
  rfl

end

/-! ## Numbering (R77, R78) -/

theorem State.core_sDown (s : State) (n i g m : Nat) : ∃ th, (s.sDown n i g).core m = { s.core m with threads := th } := by
  unfold State.sDown
  dsimp only
  split
  · by_cases hm : m = n
    · subst hm; exact ⟨_, State.core_setCore_self ..⟩
    · exact ⟨(s.core m).threads, State.core_setCore_ne _ hm _⟩
  · exact ⟨(s.core m).threads, rfl⟩

/-- Lock requests change the Scarab, the channel and flows alone. -/
theorem State.sendRequests_frame (s : State) (x : Txn) : ∃ c ch fl, s.sendRequests x = { s with scarab := c, chan := ch, flows := fl } := by
  refine List.foldlRecOn x.sub.entries _ (motive := fun t : State => ∃ c ch fl, t = { s with scarab := c, chan := ch, flows := fl })
    ⟨_, _, _, rfl⟩ fun t ht e _ => ?_
  obtain ⟨c, ch, fl, rfl⟩ := ht
  dsimp only
  obtain ⟨fl', h⟩ := State.postFar_frame (State.takeOrd { s with scarab := c, chan := ch, flows := fl } (x.home e.1)).2 (.lockReq (x.home e.1)
    (State.takeOrd { s with scarab := c, chan := ch, flows := fl } (x.home e.1)).1
    { seq := x.seq, entry := e.1, space := entrySpace e.2, tile := entryTile e.2, mode := entryMode e.2, granted := false, sent := false })
  rw [h]
  exact ⟨_, _, _, rfl⟩

section
variable {s : State} {r : SubRec} {n i gen : Nat}

/-- What a record with a dispatch cluster leaves as it is numbered: the Scarab apart, one waiting transaction more at the cluster, and one
less in the sender's S. -/
theorem State.acceptTxn_leaves (hint : r.hexp = true) (hgen : (s.thread n i).gen.toNat = gen) :
    ((s.acceptTxn r (n, i, gen)).cluster r.clus).txq = (s.cluster r.clus).txq ++ [Claims.nextSeq s] ∧
      (s.acceptTxn r (n, i, gen)).thread n i = { s.thread n i with cntS := (s.thread n i).cntS - 1 } ∧
      (s.acceptTxn r (n, i, gen)).dram = s.dram := by
  have hpick : s.pickCluster r = (r.clus, s) := by rw [State.pickCluster, if_pos hint]
  have hcounted : s.counted r (n, i, gen) = { s.setThread n i { s.thread n i with cntS := (s.thread n i).cntS - 1 } with
      scarab := { s.scarab with pos := s.scarab.pos + 1 }, nextId := s.nextId + 1 } := by
    rw [State.counted, hpick]
    exact congrArg (fun u : State => u.fresh.2)
      (State.sDown_of_gen { s with scarab := { s.scarab with pos := s.scarab.pos + 1 } } hgen)
  have hread := (s.counted r (n, i, gen)).readsOnly_lockHomes r
  unfold State.acceptTxn
  rw [hpick]
  generalize (s.counted r (n, i, gen)).lockHomes r = p at hread
  obtain ⟨q, hq⟩ := hread.2 r.clus
  have htxq : (p.2.cluster r.clus).txq = (s.cluster r.clus).txq := by rw [hq, hcounted]; rfl
  have hself : (s.counted r (n, i, gen)).thread n i = { s.thread n i with cntS := (s.thread n i).cntS - 1 } := by
    rw [hcounted]; exact State.thread_setThread_self ..
  have hthread : p.2.thread n i = { s.thread n i with cntS := (s.thread n i).cntS - 1 } := by
    rw [State.thread, State.core_congr hread.cores hread.fused]; exact hself
  have hdram : p.2.dram = s.dram := hread.dram.trans (by rw [hcounted]; rfl)
  dsimp only
  obtain ⟨c, ch, fl, hframe⟩ := State.sendRequests_frame ((p.2.setCluster r.clus { p.2.cluster r.clus with
    txq := (p.2.cluster r.clus).txq ++ [s.scarab.seqNum] }).addTxn { s.newTxn r (n, i, gen) with homes := p.1 })
    { s.newTxn r (n, i, gen) with homes := p.1 }
  rw [hframe]
  refine ⟨?_, hthread, hdram⟩
  exact (congrArg Cluster.txq (State.cluster_setCluster_self ..)).trans (by rw [htxq]; rfl)

/-- The Scarab numbers a record without a fault as its last transaction. -/
theorem State.acceptTxn_scarab (hint : r.hexp = true) (src : Nat × Nat × Nat) : ∃ x o,
    (s.acceptTxn r src).scarab = { s.scarab with pos := s.scarab.pos + 1, txns := s.scarab.txns ++ [x], ords := o } ∧
      x.seq = Claims.nextSeq s ∧ x.sub = r ∧ x.cluster = r.clus := by
  have hpick : s.pickCluster r = (r.clus, s) := by rw [State.pickCluster, if_pos hint]
  have hread := ((s.counted r src).scarab_lockHomes r).trans (s.scarab_counted r src)
  unfold State.acceptTxn
  rw [hpick]
  generalize (s.counted r src).lockHomes r = p at hread
  dsimp only
  obtain ⟨o, ho⟩ := State.scarab_sendRequests ((p.2.setCluster r.clus { p.2.cluster r.clus with
    txq := (p.2.cluster r.clus).txq ++ [s.scarab.seqNum] }).addTxn { s.newTxn r src with homes := p.1 }) { s.newTxn r src with homes := p.1 }
  refine ⟨{ s.newTxn r src with homes := p.1 }, o, ?_, rfl, rfl, by rw [State.newTxn, hpick]⟩
  rw [ho]
  exact congrArg (fun c : Scarab => { c with txns := c.txns ++ [{ s.newTxn r src with homes := p.1 }], ords := o }) hread

end

/-- The count of a record leaves what its faults are found in. -/
theorem State.counted_frames (s : State) (r : SubRec) (src : Nat × Nat × Nat) (hint : r.hexp = true) :
    (s.counted r src).site = s.site ∧ (s.counted r src).fused = s.fused ∧ ∀ m, ((s.counted r src).core m).fcnt = (s.core m).fcnt ∧
      ((s.counted r src).core m).flog = (s.core m).flog ∧ ((s.counted r src).core m).numbered = (s.core m).numbered := by
  have hpick : s.pickCluster r = (r.clus, s) := by rw [State.pickCluster, if_pos hint]
  have hcounted : s.counted r src = (State.sDown { s with scarab := { s.scarab with pos := s.scarab.pos + 1 } } src.1 src.2.1 src.2.2).fresh.2 := by
    rw [State.counted, hpick]
  have hcore := State.core_sDown { s with scarab := { s.scarab with pos := s.scarab.pos + 1 } } src.1 src.2.1 src.2.2
  obtain ⟨cs, hdown⟩ := State.sDown_frame { s with scarab := { s.scarab with pos := s.scarab.pos + 1 } } src.1 src.2.1 src.2.2
  refine ⟨by rw [hcounted, hdown]; rfl, by rw [hcounted, hdown]; rfl, fun m => ?_⟩
  obtain ⟨th, hm⟩ := hcore m
  have hm' : (s.counted r src).core m = { s.core m with threads := th } := by rw [hcounted]; exact hm
  rw [hm']
  exact ⟨rfl, rfl, rfl⟩

/-- The Scarab numbers the one record that is ready. -/
theorem numbers {s : State} (halive : s.alive = true) {r : SubRec} {n i gen k : Nat} (honly : Claims.onlyRecord s r) (hnames : s.namesLoading r = false)
    (hsrc : r.src = some (n, i, gen)) (hint : r.hexp = true) (hk : r.clus = k) (hgen : (s.thread n i).gen.toNat = gen)
    (hfault : s.numberFault r k = none) (hpos : s.scarab.pos + 1 < 4096) :
    ∃ t x, exec .scarabNumbering s = .next t ∧ t.scarab.txns = s.scarab.txns ++ [x] ∧
        x.seq = Claims.nextSeq s ∧ x.sub = r ∧ x.cluster = k ∧ t.scarab.pos = s.scarab.pos + 1 ∧ t.scarab.batch = s.scarab.batch ∧
        t.scarab.subs = [] ∧ (t.cluster k).txq = (s.cluster k).txq ++ [Claims.nextSeq s] ∧
        t.thread n i = { s.thread n i with cntS := (s.thread n i).cntS - 1 } ∧ t.dram = s.dram := by
  subst hk
  have hnext := State.numberNext_only honly (by rw [hsrc]; rfl) hnames
  generalize hu : ({ s.bump with scarab := { s.scarab with head := none, subs := [] } } : State) = u at hnext
  have hthread : u.thread n i = s.thread n i := by rw [← hu]; rfl
  have hpick : u.pickCluster r = (r.clus, u) := by rw [State.pickCluster, if_pos hint]
  have hfault' : (u.counted r (n, i, gen)).numberFault r (u.pickCluster r).1 = none := by
    rw [hpick, ← hfault]
    obtain ⟨hsite, hfused, hcores⟩ := u.counted_frames r (n, i, gen) hint
    have hsame : u.numberFault r r.clus = s.numberFault r r.clus :=
      State.numberFault_congr (by rw [← hu]) (by rw [← hu]; rfl) (by rw [← hu]; rfl) (fun m => by rw [← hu]; exact ⟨rfl, rfl, rfl⟩) r r.clus
    exact (State.numberFault_congr (by rw [State.scarab_counted]) hsite hfused hcores r r.clus).trans hsame
  obtain ⟨x, o, hscarab, hseq, hsub, hcluster⟩ := State.acceptTxn_scarab (s := u) hint (n, i, gen)
  obtain ⟨htxq, hself, hdram⟩ := State.acceptTxn_leaves (s := u) (n := n) (i := i) (gen := gen) hint (by rw [hthread]; exact hgen)
  have hroom : (u.acceptTxn r (n, i, gen)).scarab.pos < 4096 := by rw [hscarab, ← hu]; exact hpos
  rw [State.number_of_no_fault hsrc hfault', State.sealFull_of_room hroom] at hnext
  rw [← hnext] at hscarab htxq hself hdram
  rw [← hu] at hscarab hseq htxq hdram
  rw [hthread] at hself
  refine ⟨_, x, exec_scarabNumbering halive (by rw [hscarab]), by rw [hscarab], hseq, hsub, hcluster, by rw [hscarab], by rw [hscarab], by rw [hscarab],
    htxq, hself, hdram⟩

/-- A record that names a space under load waits at the head (R73). -/
theorem holdsBack {s : State} (halive : s.alive = true) {r : SubRec} (honly : Claims.onlyRecord s r) (hsrc : r.src.isSome)
    (hnames : s.namesLoading r = true) : ∃ t, exec .scarabNumbering s = .next t ∧
      t.scarab = { s.scarab with head := some r } ∧ t.chan = s.chan ∧ Claims.memoriesKept s t := by
  obtain ⟨hnext, -, hhead⟩ := honly
  obtain ⟨src, hsrc⟩ := Option.isSome_iff_exists.1 hsrc
  have hfetch : s.bump.fetchSub r = (r, s.bump) := by rw [State.fetchSub, hsrc]
  have hheld : s.numberNext = { s.bump with scarab := { s.scarab with head := some r } } := by
    simp only [State.numberNext, hhead, hnext, List.length_singleton, Nat.mod_one, List.getElem?_cons_zero, hfetch, State.numberHead]
    exact if_pos hnames
  refine ⟨_, exec_scarabNumbering halive (by rw [hheld]), ?_⟩
  rw [hheld]
  exact ⟨rfl, rfl, State.memoriesKept_of_cores rfl rfl rfl⟩

/-! ## Seals (R78) -/

/-- The seal that a packet carries: its home, package and batch. -/
def Packet.sealed : Packet → Option (Nat × Nat × Nat)
  | .seal h _ g b => some (h, g, b)
  | _ => none

/-- A sealed batch leaves one seal on each channel, and the next batch opens. -/
theorem State.sealBatch_seals (s : State) : s.sealBatch.scarab.batch = (s.scarab.batch + 1) % 2 ^ 40 ∧ s.sealBatch.scarab.pos = 0 ∧
    s.sealBatch.scarab.txns = s.scarab.txns ∧ Claims.memoriesKept s s.sealBatch ∧
    s.sealBatch.chan.filterMap Packet.sealed = s.chan.filterMap Packet.sealed ++ s.scarab.channels.map (fun c => (c.1, s.scarab.pidx, s.scarab.batch)) := by
  have hgen (l : List (Nat × Nat)) (b : Nat) (u : State) : ∃ o fl ch, l.foldl (fun s c =>
      (s.takeOrd c.1).2.postFar (.seal c.1 (s.takeOrd c.1).1 (s.takeOrd c.1).2.scarab.pidx b)) u =
        { u with scarab := { u.scarab with ords := o }, flows := fl, chan := ch } ∧
      ch.filterMap Packet.sealed = u.chan.filterMap Packet.sealed ++ l.map (fun c => (c.1, u.scarab.pidx, b)) := by
    induction l generalizing u with
    | nil => exact ⟨_, _, _, rfl, by simp⟩
    | cons c l ih =>
      obtain ⟨fl, hpost⟩ := (u.takeOrd c.1).2.postFar_frame (.seal c.1 (u.takeOrd c.1).1 (u.takeOrd c.1).2.scarab.pidx b)
      obtain ⟨o, fl', ch, hfold, hch⟩ := ih ((u.takeOrd c.1).2.postFar (.seal c.1 (u.takeOrd c.1).1 (u.takeOrd c.1).2.scarab.pidx b))
      refine ⟨o, fl', ch, ?_, ?_⟩
      · rw [List.foldl_cons, hfold, hpost]; rfl
      · rw [hch, hpost]
        simp [Packet.sealed, State.takeOrd]
  obtain ⟨o, fl, ch, hfold, hch⟩ := hgen s.scarab.channels s.scarab.batch s
  have hseal : s.sealBatch = { s with
      scarab := { s.scarab with ords := o, batch := (s.scarab.batch + 1) % 2 ^ 40, pos := 0 }, flows := fl, chan := ch } := by
    unfold State.sealBatch
    dsimp only
    rw [hfold]
  rw [hseal]
  exact ⟨rfl, rfl, rfl, State.memoriesKept_of_cores rfl rfl rfl, hch⟩

theorem numbering : Claims.Numbering := by
  intro s halive
  refine ⟨fun hload hfree halign hmay => descriptorLoads halive hload hfree halign hmay, fun hload hbusy => ?busy,
    fun r n i gen k honly hnames hsrc hint hk hgen hfault hpos _ => numbers halive honly hnames hsrc hint hk hgen hfault hpos,
    fun r honly hsrc hnames => holdsBack halive honly hsrc hnames, fun hrun hband => ⟨_, exec_batchSeal halive hrun hband, ?seals⟩⟩
  case busy =>
    change execTsDescriptorLoad s = _
    rw [execTsDescriptorLoad, if_pos halive, hload, hbusy]
    rfl
  case seals =>
    obtain ⟨hbatch, hpos, htxns, hkept, hseals⟩ := s.sealBatch_seals
    exact ⟨hbatch, hpos, htxns, hkept, (List.filterMap_congr fun p _ => by cases p <;> rfl).trans
      (hseals.trans (congrArg (· ++ _) (List.filterMap_congr fun p _ => by cases p <;> rfl)))⟩

end Sys2Proof.Machine
end

section
/-!
The frame that a dispenser gives to a transaction, and its header (R77, R83).
-/

namespace Sys2Proof.Machine

open Sys2Proof

/-- A number among the bytes that are written is read back. -/
theorem memNum_memWrite_part {a : Nat} (pre mid post : List Byte) (m : Memory) :
    memNum (a + pre.length) mid.length (memWrite a (pre ++ mid ++ post) m) = leNat mid := by
  rw [memWrite_append, memWrite_append, memNum, memRead_memWrite_apart (by simp; omega), ← memNum]
  exact memNum_memWrite_self ..

/-- A frame that is free is the lowest that no transaction has. -/
theorem Core.freeFrame_some {c : Core} {f : Nat} (h : c.freeFrame = some f) :
    f < c.fcnt ∧ (∀ u ∈ c.frames, u.index ≠ f) ∧ ∀ g < f, ∃ u ∈ c.frames, u.index = g := by
  obtain ⟨hfree, hmem, hlow⟩ := List.find?_range_eq_some.1 h
  refine ⟨List.mem_range.1 hmem, by simpa using hfree, fun g hg => ?_⟩
  simpa using hlow g hg

/-- The header's fields behind OFFS. -/
theorem State.headerBytes_words (s : State) (x : Txn) (a : Nat) (m : Memory) : memNum a 8 (memWrite a (s.headerBytes x) m) = x.seq % 2 ^ 64 ∧
    memNum (a + 8) 8 (memWrite a (s.headerBytes x) m) = (x.sub.args.getD 2 0).toNat ∧
    memNum (a + 16) 8 (memWrite a (s.headerBytes x) m) = (x.sub.args.getD 3 0).toNat ∧
    memNum (a + 24) 4 (memWrite a (s.headerBytes x) m) = 0 := by
  generalize hoffs : (List.range 8).flatMap (fun e => match (s.slotsOf x.sub).find? (fun y => decide (y.1 = e)) with
    | some y => leBytes 4 y.2.2.1
    | none => leBytes 4 0xFFFFFFFF) = offs
  have hbytes : s.headerBytes x = leBytes 8 x.seq ++ leBytes 8 (x.sub.args.getD 2 0).toNat ++ leBytes 8 (x.sub.args.getD 3 0).toNat ++ leBytes 8 0 ++ offs := by
    rw [← hoffs]; rfl
  have hzero : leBytes 8 0 = leBytes 4 0 ++ leBytes 4 0 := by decide
  have hseq := memNum_memWrite_part (a := a) [] (leBytes 8 x.seq)
    (leBytes 8 (x.sub.args.getD 2 0).toNat ++ leBytes 8 (x.sub.args.getD 3 0).toNat ++ leBytes 8 0 ++ offs) m
  have htree := memNum_memWrite_part (a := a) (leBytes 8 x.seq ++ leBytes 8 (x.sub.args.getD 2 0).toNat ++ leBytes 8 (x.sub.args.getD 3 0).toNat)
    (leBytes 4 0) (leBytes 4 0 ++ offs) m
  simp only [List.append_assoc, List.nil_append, length_leBytes, leNat_leBytes, List.length_append, List.length_nil, Nat.add_zero] at hseq htree
  rw [hbytes]
  refine ⟨?_, ?_, ?_, ?_⟩
  · simpa only [List.append_assoc] using hseq
  · have h := memNum_memWrite_word (a := a) (b := a + 8) (pre := leBytes 8 x.seq)
      (post := leBytes 8 (x.sub.args.getD 3 0).toNat ++ leBytes 8 0 ++ offs) (x.sub.args.getD 2 0) m (by rw [length_leBytes])
    simpa only [List.append_assoc] using h
  · have h := memNum_memWrite_word (a := a) (b := a + 16) (pre := leBytes 8 x.seq ++ leBytes 8 (x.sub.args.getD 2 0).toNat)
      (post := leBytes 8 0 ++ offs) (x.sub.args.getD 3 0) m (by rw [List.length_append, length_leBytes, length_leBytes])
    simpa only [List.append_assoc] using h
  · rw [hzero]
    simp only [List.append_assoc]
    exact htree

/-! ## Frame assignment (R77, R83) -/

/-- The notices of a transaction leave in entry order, and nothing else but flows changes. -/
theorem State.sendNotices_leave (s : State) (x : Txn) (seq : Nat) : ∃ fl, s.sendNotices x seq = { s with
    flows := fl, chan := s.chan ++ x.sub.entries.map (fun e => .notice (x.home e.1) seq) } := by
  unfold State.sendNotices
  generalize x.sub.entries = l
  induction l generalizing s with
  | nil => exact ⟨s.flows, by simp⟩
  | cons e l ih =>
    obtain ⟨fl, hpost⟩ := s.postFar_frame (.notice (x.home e.1) seq)
    obtain ⟨fl', hrest⟩ := ih (s.postFar (.notice (x.home e.1) seq))
    exact ⟨fl', by rw [List.foldl_cons, hrest, hpost]; simp⟩

/-- The core of a frame that is given: its header is written, and the frame is in use. -/
theorem State.takeFrame_core {s : State} {n f : Nat} (hfree : (s.core n).freeFrame = some f) (k seq : Nat) (rest : List Nat) (x : Txn) :
    ∃ u v, ((s.takeFrame k n seq rest x).core n).frames = (s.core n).frames ++ [u] ∧ u.index = f ∧ u.seq = seq ∧ u.dirty = [] ∧
      ((s.takeFrame k n seq rest x).core n).ls = memWrite ((s.core n).frameAt f) (State.headerBytes v (x.framedAt n f)) (s.core n).ls ∧
      (∀ m j, (s.takeFrame k n seq rest x).thread m j = s.thread m j) ∧ (s.takeFrame k n seq rest x).dram = s.dram ∧
      (s.takeFrame k n seq rest x).chan = s.chan := by
  unfold State.takeFrame
  rw [hfree, Option.getD_some]
  dsimp only
  generalize ((s.slotsOf x.sub).filter (fun y => decide (2 ≤ entryMode y.2.1))).map (fun y => ((s.core n).frameAt f + 256 + y.2.2.1, y.2.2.2)) = slots
  generalize hu : s.setCluster k { s.cluster k with txq := rest, lastFrameCore := some n } = u
  have hcore (m : Nat) : u.core m = s.core m := by rw [← hu]; rfl
  have hls := u.lsHard_ls (n := n) (a := (s.core n).frameAt f) (u.headerBytes (x.framedAt n f)) 0 (u.txSource x.sub)
  have hframes : ((u.lsHard n ((s.core n).frameAt f) (u.headerBytes (x.framedAt n f)) 0 (u.txSource x.sub)).core n).frames = (s.core n).frames := by
    obtain ⟨r, hr⟩ := State.core_logPort (u.setCore n ((u.core n).lsPut ((s.core n).frameAt f) (u.headerBytes (x.framedAt n f)))) n
      ((s.core n).frameAt f) (u.headerBytes (x.framedAt n f)).length 0 (u.txSource x.sub) n
    rw [State.lsHard, hr, State.core_setCore_self, hcore]
    rfl
  have hthread (m j : Nat) := u.thread_lsHard n ((s.core n).frameAt f) (u.headerBytes (x.framedAt n f)) 0 (u.txSource x.sub) m j
  obtain ⟨⟨cs, cl, hframe⟩, -⟩ := u.coreOnly_lsHard n ((s.core n).frameAt f) (u.headerBytes (x.framedAt n f)) 0 (u.txSource x.sub)
  refine ⟨{ index := f, seq := seq, slots := slots, dirty := [] }, u, ?_, rfl, rfl, rfl, ?_, fun m j => ?_, ?_, ?_⟩
  · rw [State.core_setCore_self, hframes]
  · rw [State.core_setCore_self, ← congrArg Core.ls (hcore n), ← hls]
  · rw [State.thread_setCore_of_threads _ _ (by rfl), hthread, ← hu]; rfl
  · rw [hframe, ← hu]; rfl
  · rw [hframe, ← hu]; rfl

theorem frameAssignment : Claims.FrameAssignment := by
  intro s k seq n f rest x halive hq hx _ hfind hfree base
  obtain ⟨hlt, hunused, hlow⟩ := Core.freeFrame_some hfree
  have hfind' : (rotateAfter (s.cluster k).lastFrameCore (s.coresOf k)).find? (s.fits x) = some n := hfind
  obtain ⟨hqueue, htxn⟩ := State.assignFrame_frames hq hx hfree hfind'
  have hassign := State.assignFrame_eq hq hx hfind'
  rw [hfree, Option.getD_some] at hassign
  obtain ⟨u, v, hframes, hindex, hseq, hdirty, hls, hthread, hdram, hchan⟩ := State.takeFrame_core hfree k seq rest x
  generalize s.takeFrame k n seq rest x = w at hassign hframes hls hthread hdram hchan
  obtain ⟨fl, hsend⟩ := (w.setTxn (x.framedAt n f)).sendNotices_leave x seq
  rw [hsend] at hassign
  generalize hz : ({ w.setTxn (x.framedAt n f) with
    flows := fl, chan := (w.setTxn (x.framedAt n f)).chan ++ x.sub.entries.map (fun e => .notice (x.home e.1) seq) } : State) = z at hassign
  obtain ⟨wd, hcore⟩ := z.core_touch n n
  obtain ⟨cs, htouch⟩ := z.touch_frame n
  have hzcore : z.core n = w.core n := by rw [← hz]; rfl
  refine ⟨hlt, hunused, hlow, _, u, _, exec_frameAssignment halive k, hqueue, ?_, hindex, hseq, hdirty, htxn, rfl, rfl, rfl, ?_⟩
  · rw [hassign, hcore, hzcore]; exact hframes
  have hls' : ((s.assignFrame k).core n).ls = memWrite base (State.headerBytes v (x.framedAt n f)) (s.core n).ls := by
    rw [hassign, hcore, hzcore]; exact hls
  have hseq : x.seq = seq := by simpa using List.find?_some hx
  obtain ⟨hnum, ha2, ha3, htree⟩ := v.headerBytes_words (x.framedAt n f) base (s.core n).ls
  rw [State.lsWord, State.lsWord, State.lsNum, State.lsNum, State.lsNum, State.lsNum, hls', hnum, ha2, ha3, htree]
  refine ⟨by rw [← hseq]; rfl, ?_, ?_, rfl, fun m j => ?_, ?_, ?_⟩
  · exact BitVec.eq_of_toNat_eq (by simp [Txn.framedAt])
  · exact BitVec.eq_of_toNat_eq (by simp [Txn.framedAt])
  · rw [hassign, State.thread_touch, ← hthread m j, ← hz]; rfl
  · rw [hassign, htouch, ← hdram, ← hz]; rfl
  · rw [hassign, htouch, ← hz]; exact congrArg (· ++ _) hchan

/-- Settles O53: the load, the numbering and the seal are what the Scarab's lemmas say, and a frame is given as `assignFrame_eq` unfolds it. -/
theorem numberingAndFrames : Obligations.NumberingAndFrames := ⟨numbering, frameAssignment⟩

end Sys2Proof.Machine
end

section
/-!
Lock queues and seals at the homes (R80, R81, R82, R422, R423).
-/

namespace Sys2Proof.Machine

open Sys2Proof

/-! ## Grants of a queue (R81) -/

/-- Of two requests for one tile the later is granted only with the earlier, and then both are R requests. -/
def LockReq.ranks (a b : LockReq) : Prop :=
  a.space = b.space → a.tile = b.tile → b.granted = true → a.granted = true ∧ a.mode = 1 ∧ b.mode = 1

/-- The number and the entry that tell a request from the others of its home. -/
def LockReq.key (r : LockReq) : Nat × Nat := (r.seq, r.entry)

theorem pairwise_ranks {l : List LockReq} (hcompatible : Claims.lockCompatible l) (hordered : Claims.lockOrdered l)
    (hkeys : (l.map LockReq.key).Nodup) : l.Pairwise LockReq.ranks := by
  rw [List.pairwise_iff_forall_sublist]
  intro a b hsub hspace htile hb
  obtain ⟨pre, tail, rfl, hpre, htail⟩ := List.cons_sublist_iff.1 hsub
  obtain ⟨mid, post, rfl⟩ := List.append_of_mem (List.singleton_sublist.1 htail)
  have ha : a.granted = true := hordered (pre ++ mid) b post (by simp) hb a (by simp [hpre]) hspace htile
  have hne : a.key ≠ b.key := by
    rw [List.map_append, List.map_append, List.nodup_append] at hkeys
    obtain ⟨-, -, hdisjoint⟩ := hkeys
    exact hdisjoint _ (List.mem_map_of_mem hpre) _ (by simp)
  exact ⟨ha, hcompatible a b (by simp [hpre]) (by simp) hspace htile ha hb hne⟩

theorem lockCompatible_of_ranks {l : List LockReq} (h : l.Pairwise LockReq.ranks) : Claims.lockCompatible l := by
  intro a b ha hb
  refine List.Pairwise.forall_of_forall_of_flip (R := fun a b => a.space = b.space → a.tile = b.tile → a.granted = true →
    b.granted = true → a.key ≠ b.key → a.mode = 1 ∧ b.mode = 1) (fun x _ _ _ _ _ hne => absurd rfl hne) ?_ ?_ ha hb
  · exact h.imp fun hab hspace htile _ hb _ => (hab hspace htile hb).2
  · exact h.imp fun hab hspace htile hb _ _ => (hab hspace.symm htile.symm hb).2.symm

theorem lockOrdered_of_ranks {l : List LockReq} (h : l.Pairwise LockReq.ranks) : Claims.lockOrdered l := by
  rintro pre r post rfl hr x hx hspace htile
  exact ((List.pairwise_append.1 h).2.2 x hx r List.mem_cons_self hspace htile hr).1

/-- A request of a queue as `grantAll` leaves it behind those before it. -/
def LockReq.grantedAfter (before : List LockReq) (r : LockReq) : LockReq :=
  { r with granted := r.granted || ((before.filter r.same).isEmpty ||
    (decide (r.mode = 1) && (before.filter r.same).all (fun x => decide (x.mode = 1) && x.granted))) }

theorem grantAll_cons (before : List LockReq) (r : LockReq) (l : List LockReq) :
    grantAll before (r :: l) = grantAll (before ++ [r.grantedAfter before]) l := rfl

theorem ranks_grantedAfter {before : List LockReq} {a r : LockReq} (ha : a ∈ before) (h : a.ranks r) : a.ranks (r.grantedAfter before) := by
  intro hspace htile hgranted
  have hsame : r.same a = true := decide_eq_true ⟨hspace.symm, htile.symm⟩
  have hsome : (before.filter r.same).isEmpty = false := by simpa using ⟨a, ha, hsame⟩
  have hcases : r.granted = true ∨ r.mode = 1 ∧ ∀ x ∈ before, r.same x = false ∨ x.mode = 1 ∧ x.granted = true := by
    simpa [LockReq.grantedAfter, hsome] using hgranted
  rcases hcases with hr | ⟨hmode, hall⟩
  · exact h hspace htile hr
  · obtain ⟨hamode, hagranted⟩ := (hall a ha).resolve_left (by simp [hsame])
    exact ⟨hagranted, hamode, hmode⟩

theorem grantedAfter_ranks {before : List LockReq} {r b : LockReq} (h : r.ranks b) : (r.grantedAfter before).ranks b := by
  intro hspace htile hb
  obtain ⟨hr, hmodes⟩ := h hspace htile hb
  exact ⟨by simp [LockReq.grantedAfter, hr], hmodes⟩

theorem grantAll_ranks {before l : List LockReq} (h : (before ++ l).Pairwise LockReq.ranks) : (grantAll before l).Pairwise LockReq.ranks := by
  induction l generalizing before with
  | nil => simpa [grantAll] using h
  | cons r l ih =>
    rw [grantAll_cons]
    refine ih ?_
    obtain ⟨hbefore, htail, hcross⟩ := List.pairwise_append.1 h
    obtain ⟨hr, hl⟩ := List.pairwise_cons.1 htail
    rw [List.append_assoc, List.singleton_append]
    refine List.pairwise_append.2 ⟨hbefore, List.pairwise_cons.2 ⟨fun b hb => grantedAfter_ranks (hr b hb), hl⟩, fun a ha b hb => ?_⟩
    rcases List.mem_cons.1 hb with rfl | hb
    · exact ranks_grantedAfter ha (hcross a ha r List.mem_cons_self)
    · exact hcross a ha b (List.mem_cons_of_mem _ hb)

theorem grantAll_keys (before l : List LockReq) : (grantAll before l).map LockReq.key = (before ++ l).map LockReq.key := by
  induction l generalizing before with
  | nil => simp [grantAll]
  | cons r l ih => rw [grantAll_cons, ih]; simp [LockReq.key, LockReq.grantedAfter]

/-- A granted request stays granted, and one alone in its queue is granted. -/
theorem grantAll_singleton (r : LockReq) : grantAll [] [r] = [{ r with granted := true }] := by
  simp [grantAll]

/-! ## What a home serves (R80, R81, R82) -/

/-- The seals that a request of a home waits for are there. -/
def State.admits (s : State) (x : Home) (r : LockReq) : Bool := decide (s.scarab.podm = 0) || (x.missing r.seq).isEmpty

/-- The queue of a home with the requests that its seals admit. -/
def State.queueOf (s : State) (x : Home) : List LockReq :=
  grantAll [] (x.reqs ++ (x.early.filter (s.admits x)).foldl (fun l r => insertReq r l) [])

/-- A granted request whose frame notice has come, and whose grant is still to be sent. -/
def Home.sends (x : Home) (r : LockReq) : Bool := r.granted && !r.sent && x.notices.contains r.seq

/-- A home that has served what it can. -/
def State.served (s : State) (x : Home) : Home :=
  { x with early := x.early.filter (fun r => !s.admits x r), reqs := (s.queueOf x).map (fun r => { r with sent := r.sent || x.sends r }) }

/-- The grant of a request. -/
def State.grantOf (s : State) (h : Nat) (x : Home) (r : LockReq) : Packet :=
  .grant r.seq r.entry (x.brokenTile r) (if x.brokenTile r || decide (r.mode = 2) then {} else pushOf h (2 ^ (s.space r.space).log2))

/-- Packets that leave one after another change flows and the channel alone. -/
theorem State.foldl_postFar {α : Type} {f : State → α → Packet} {g : α → Packet} (l : List α) (s : State)
    (hf : ∀ fl ch r, f { s with flows := fl, chan := ch } r = g r) :
    ∃ fl, l.foldl (fun t r => t.postFar (f t r)) s = { s with flows := fl, chan := s.chan ++ l.map g } := by
  suffices ∀ fl ch, ∃ fl', l.foldl (fun t r => t.postFar (f t r)) { s with flows := fl, chan := ch } =
      { s with flows := fl', chan := ch ++ l.map g } from this s.flows s.chan
  induction l with
  | nil => exact fun fl ch => ⟨fl, by simp⟩
  | cons r l ih =>
    intro fl ch
    obtain ⟨fl', hpost⟩ := State.postFar_frame { s with flows := fl, chan := ch } (g r)
    obtain ⟨fl'', hrest⟩ := ih fl' (ch ++ [g r])
    exact ⟨fl'', by rw [List.foldl_cons, hf, hpost]; simpa using hrest⟩

theorem State.serveHome_leaves (s : State) (h : Nat) : ∃ fl, s.serveHome h = { s.setHome h (s.served (s.home h)) with
    flows := fl, chan := s.chan ++ ((s.queueOf (s.home h)).filter (s.home h).sends).map (s.grantOf h (s.home h)) } := by
  obtain ⟨fl, hfold⟩ := State.foldl_postFar (f := fun t => t.grantOf h (s.home h)) (g := s.grantOf h (s.home h))
    ((s.queueOf (s.home h)).filter (s.home h).sends) (s.setHome h (s.served (s.home h))) fun _ _ _ => rfl
  refine ⟨fl, ?_⟩
  unfold State.serveHome
  dsimp only
  rw [List.partition_eq_filter_filter]
  exact hfold

@[simp] theorem State.home_setHome_self (s : State) (h : Nat) (x : Home) : (s.setHome h x).home h = x := tblGet_tblSet_self ..

theorem State.home_setHome_ne (s : State) {g h : Nat} (hne : g ≠ h) (x : Home) : (s.setHome h x).home g = s.home g :=
  tblGet_tblSet_ne _ hne ..

theorem State.memoriesKept_serveHome (s : State) (h : Nat) : Claims.memoriesKept s (s.serveHome h) := by
  obtain ⟨fl, hserve⟩ := s.serveHome_leaves h
  rw [hserve]
  exact State.memoriesKept_of_cores rfl rfl rfl

theorem State.home_serveHome_self (s : State) (h : Nat) : (s.serveHome h).home h = s.served (s.home h) := by
  obtain ⟨fl, hserve⟩ := s.serveHome_leaves h
  rw [hserve]
  exact s.home_setHome_self h _

theorem State.home_serveHome_ne (s : State) {g h : Nat} (hne : g ≠ h) : (s.serveHome h).home g = s.home g := by
  obtain ⟨fl, hserve⟩ := s.serveHome_leaves h
  rw [hserve]
  exact s.home_setHome_ne hne _

theorem State.served_keys (s : State) (x : Home) : (s.served x).reqs.map LockReq.key = (s.queueOf x).map LockReq.key := by
  rw [State.served, List.map_map]
  rfl

/-! ## Requests (R80, R81) -/

section
variable {s : State} {k h : Nat} {r : LockReq}

/-- A home at which one request waits for its seals. -/
def Home.awaiting (x : Home) (r : LockReq) : Home := { x with early := [r] }

/-- A request has arrived at a home at which none waits. -/
def State.requested (s : State) (k h : Nat) (r : LockReq) : State := (s.unpost k).setHome h ((s.home h).awaiting r)

theorem State.home_serveHome_requested : ((s.requested k h r).serveHome h).home h = s.served ((s.home h).awaiting r) := by
  rw [State.home_serveHome_self, State.requested, State.home_setHome_self]
  rfl

theorem State.memoriesKept_requested : Claims.memoriesKept s ((s.requested k h r).serveHome h) :=
  (s.requested k h r).memoriesKept_serveHome h

/-- With its seals there a request is queued last. -/
theorem State.queueOf_admitted (hadmits : s.admits (s.home h) r = true) :
    s.queueOf ((s.home h).awaiting r) = grantAll [] ((s.home h).reqs ++ [r]) := by
  have hearly : ((s.home h).awaiting r).early.filter (s.admits ((s.home h).awaiting r)) = [r] := List.filter_cons_of_pos hadmits
  rw [State.queueOf, hearly]
  rfl

theorem State.served_awaiting_early (x : Home) : (s.served (x.awaiting r)).early = if s.admits x r then [] else [r] := by
  change [r].filter (fun r => !s.admits x r) = _
  cases hadmits : s.admits x r <;> simp [hadmits]

theorem State.served_admitted_keys (hadmits : s.admits (s.home h) r = true) :
    (s.served ((s.home h).awaiting r)).reqs.map LockReq.key = (s.home h).reqs.map LockReq.key ++ [r.key] := by
  rw [State.served_keys, State.queueOf_admitted hadmits, grantAll_keys]
  simp

/-- A request alone in its queue, whose frame notice has not come, is granted, and nothing is sent. -/
theorem State.serveHome_alone (hadmits : s.admits (s.home h) r = true) (hempty : (s.home h).reqs = []) (hnotice : ∀ q ∈ (s.home h).notices, q ≠ r.seq)
    (hsent : r.sent = false) : ((s.requested k h r).serveHome h).chan = s.chan.eraseIdx k ∧
      (((s.requested k h r).serveHome h).home h).reqs = [{ r with granted := true }] := by
  have hqueue : s.queueOf ((s.home h).awaiting r) = [{ r with granted := true }] := by
    rw [State.queueOf_admitted hadmits, hempty, List.nil_append, grantAll_singleton]
  have hholds : (((s.home h).awaiting r) : Home).sends { r with granted := true } = false := by
    have hnone : r.seq ∉ (s.home h).notices := fun hmem => hnotice _ hmem rfl
    simp [Home.sends, Home.awaiting, hnone]
  constructor
  · obtain ⟨fl, hserve⟩ := (s.requested k h r).serveHome_leaves h
    have hhome : (s.requested k h r).home h = ((s.home h).awaiting r) := State.home_setHome_self ..
    have hqueue' : (s.requested k h r).queueOf ((s.home h).awaiting r) = [{ r with granted := true }] := hqueue
    rw [hserve, hhome, hqueue', List.filter_cons_of_neg (by rw [hholds]; exact Bool.false_ne_true)]
    exact List.append_nil _
  · rw [State.home_serveHome_requested, State.served, hqueue, List.map_singleton, hholds, hsent]
    simp [← hsent]

end

theorem exec_lockRequestArrival {s : State} (halive : s.alive = true) {k h o : Nat} {r : LockReq} (hk : s.chan[k]? = some (.lockReq h o r))
    (hcut : s.cut (.lockReq h o r) = false) (horder : s.outOfOrder h o = false) (hroom : (s.home h).reqs.length + (s.home h).early.length < 16384)
    (hwindow : (s.home h).outside (seqPkg r.seq) (seqBatch r.seq) = false) (hearly : (s.home h).early = []) :
    exec (.lockRequestArrival k) s = .next ((s.requested k h r).serveHome h) := by
  have hreach : (s.unpost k).requestReaches h r = (s.requested k h r).serveHome h := by
    have hin : ((s.unpost k).home h).outside (seqPkg r.seq) (seqBatch r.seq) = false := hwindow
    have hnone : ((s.unpost k).home h).early = [] := hearly
    rw [State.requestReaches, if_neg (by rw [hin]; exact Bool.false_ne_true), hnone]
    rfl
  change execLockRequestArrival k s = _
  rw [execLockRequestArrival, hk]
  dsimp only
  rw [if_pos halive, State.takeRequest, hcut, horder, decide_eq_false (by omega), ← hreach]
  rfl

/-! ## Seals (R80, R422, R423) -/

section
variable (s : State)

/-- A record of a seal leaves every home, core and memory alone. -/
theorem State.sealRecord_frame (kind h p b : Nat) : ∃ cl, s.sealRecord kind h p b = { s with clusters := cl } := by
  unfold State.sealRecord
  split
  · exact ⟨_, rfl⟩
  · exact ⟨_, rfl⟩

theorem State.sealRecord_errQ {h : Nat} (hh : h < 256) (kind p b : Nat) :
    ((s.sealRecord kind h p b).cluster (homeCluster h)).errQ = (s.cluster (homeCluster h)).errQ ++
      [bareRec kind 0 (BitVec.ofNat 64 (h + p * 2 ^ 8)) (BitVec.ofNat 64 b)] := by
  rw [State.sealRecord, if_neg (by omega), Nat.mod_eq_of_lt hh, State.record, State.cluster_setCluster_self]

end

/-- A home after the seal of a package's batch. -/
def Home.sealed (x : Home) (p b : Nat) : Home :=
  { x with seals := tblSet p b x.seals, overdue := x.overdue.filter (fun m => decide (m ≠ (p, b))) }

theorem exec_sealArrival {s : State} (halive : s.alive = true) {k h o p b : Nat} (hk : s.chan[k]? = some (.seal h o p b))
    (hcut : s.cut (.seal h o p b) = false) (horder : s.outOfOrder h o = false) (hwindow : (s.home h).outside p b = false) :
    let u := (s.unpost k).setHome h ((s.home h).sealed p b)
    exec (.sealArrival k) s = .next ((if (s.home h).overdue.contains (p, b) then u.sealRecord 22 h p b else u).serveHome h) := by
  have hin : ((s.unpost k).home h).outside p b = false := hwindow
  change execSealArrival k s = _
  rw [execSealArrival, hk]
  dsimp only
  rw [if_pos halive, State.takeSeal, hcut, horder, if_neg (by decide), State.sealReaches, if_neg (by rw [hin]; exact Bool.false_ne_true)]
  rfl

/-- What the arrival of a seal leaves at its home. -/
theorem sealArrives {s : State} (halive : s.alive = true) {k h o p b : Nat} (hk : s.chan[k]? = some (.seal h o p b))
    (hcut : s.cut (.seal h o p b) = false) (horder : s.outOfOrder h o = false) (hwindow : (s.home h).outside p b = false) :
    ∃ t, exec (.sealArrival k) s = .next t ∧ tblFind p (t.home h).seals = some b ∧
        (∀ q, q ≠ p → tblFind q (t.home h).seals = tblFind q (s.home h).seals) ∧
        (∀ m, m ∈ (t.home h).overdue ↔ m ∈ (s.home h).overdue ∧ m ≠ (p, b)) ∧ Claims.memoriesKept s t ∧
        (h < 256 → (p, b) ∈ (s.home h).overdue → ∃ x, (t.cluster (homeCluster h)).errQ = (s.cluster (homeCluster h)).errQ ++ [x] ∧
          x.kind = 22 ∧ x.val1 = BitVec.ofNat 64 (h + p * 2 ^ 8) ∧ x.val2 = BitVec.ofNat 64 b) := by
  refine ⟨_, exec_sealArrival halive hk hcut horder hwindow, ?_⟩
  generalize hu : (s.unpost k).setHome h ((s.home h).sealed p b) = u
  generalize hv : (if (s.home h).overdue.contains (p, b) then u.sealRecord 22 h p b else u) = v
  have hframe : ∃ cl, v = { u with clusters := cl } := by
    rw [← hv]
    split
    · exact u.sealRecord_frame ..
    · exact ⟨_, rfl⟩
  have hrecord (hh : h < 256) (hmem : (p, b) ∈ (s.home h).overdue) : (v.cluster (homeCluster h)).errQ =
      (u.cluster (homeCluster h)).errQ ++ [bareRec 22 0 (BitVec.ofNat 64 (h + p * 2 ^ 8)) (BitVec.ofNat 64 b)] := by
    rw [← hv, if_pos (List.contains_iff_mem.2 hmem), u.sealRecord_errQ hh]
  have hhome : v.home h = (s.home h).sealed p b := by
    obtain ⟨cl, rfl⟩ := hframe
    rw [← State.home_setHome_self (s.unpost k) h ((s.home h).sealed p b), hu]
    rfl
  rw [State.home_serveHome_self, hhome]
  refine ⟨tblFind_tblSet_self .., fun q hq => tblFind_tblSet_ne hq .., fun m => ?_, ?_, fun hh hmem =>
    ⟨bareRec 22 0 (BitVec.ofNat 64 (h + p * 2 ^ 8)) (BitVec.ofNat 64 b), ?_, rfl, rfl, rfl⟩⟩
  · simp [State.served, Home.sealed]
  · obtain ⟨cl, rfl⟩ := hframe
    rw [← hu]
    exact State.memoriesKept_serveHome _ h
  · obtain ⟨fl, hserve⟩ := v.serveHome_leaves h
    rw [hserve]
    change (v.cluster (homeCluster h)).errQ = _
    rw [hrecord hh hmem, ← hu]
    rfl

/-- An overdue seal is reported once (R423). -/
theorem sealOverdueOnce {s : State} (halive : s.alive = true) {h : Nat} (hh : h < 256) :
    let waited := (s.home h).early.flatMap (fun r => (s.home h).missing r.seq);
      ((∀ m ∈ waited, m ∈ (s.home h).overdue) → exec (.sealOverdue h) s = .next s) ∧
      ∀ m ∈ waited, m ∉ (s.home h).overdue → ∃ t x w, exec (.sealOverdue h) s = .next t ∧ w ∈ waited ∧ w ∉ (s.home h).overdue ∧
        (t.home h).overdue = (s.home h).overdue ++ [w] ∧ (t.cluster (homeCluster h)).errQ = (s.cluster (homeCluster h)).errQ ++ [x] ∧
        x.kind = 21 ∧ x.val1 = BitVec.ofNat 64 (h + w.1 * 2 ^ 8) ∧ x.val2 = BitVec.ofNat 64 w.2 ∧ Claims.memoriesKept s t := by
  intro waited
  have hexec : exec (.sealOverdue h) s = .next (s.overdueSeal h) := by
    change execSealOverdue h s = _
    rw [execSealOverdue, if_pos halive]
  have hunfold : s.overdueSeal h = match waited.find? (fun m => !(s.home h).overdue.contains m) with
    | none => s
    | some m => (s.setHome h { s.home h with overdue := (s.home h).overdue ++ [m] }).sealRecord 21 h m.1 m.2 := rfl
  rw [hexec]
  constructor
  · intro hall
    have hnone : waited.find? (fun m => !(s.home h).overdue.contains m) = none := by simpa using fun a b => hall (a, b)
    rw [hunfold, hnone]
  · intro m hm hnew
    obtain ⟨w, hfind⟩ := Option.isSome_iff_exists.1
      (List.find?_isSome (p := fun m => !(s.home h).overdue.contains m).2 ⟨m, hm, by simpa using hnew⟩)
    have hw : w ∉ (s.home h).overdue := by simpa using List.find?_some hfind
    rw [hunfold, hfind]
    dsimp only
    generalize hu : s.setHome h { s.home h with overdue := (s.home h).overdue ++ [w] } = u
    obtain ⟨cl, hframe⟩ := u.sealRecord_frame 21 h w.1 w.2
    have hhome : (u.sealRecord 21 h w.1 w.2).home h = u.home h := by rw [hframe]; rfl
    refine ⟨_, bareRec 21 0 (BitVec.ofNat 64 (h + w.1 * 2 ^ 8)) (BitVec.ofNat 64 w.2), w, rfl, List.mem_of_find?_eq_some hfind, hw, ?_, (u.sealRecord_errQ hh 21 w.1 w.2).trans ?_, rfl, rfl, rfl, ?_⟩
    · rw [hhome, ← hu, State.home_setHome_self]
    · rw [← hu]; rfl
    · rw [hframe, ← hu]
      exact State.memoriesKept_of_cores rfl rfl rfl

theorem lockQueues : Claims.LockQueues := by
  intro s halive
  refine ⟨fun k h o r hk hcut horder hroom hwindow hearly hnotice _ hsent => ?requests, fun l hcompatible hordered hkeys => ?grants,
    fun k h o p b hk hcut horder hwindow _ => sealArrives halive hk hcut horder hwindow, fun h hh => sealOverdueOnce halive hh⟩
  case requests =>
    have hexec := exec_lockRequestArrival halive hk hcut horder hroom hwindow hearly
    have hearlyAfter := State.home_serveHome_requested (s := s) (k := k) (h := h) (r := r)
    refine ⟨fun hseals => ?_, fun hpod hmissing => ⟨_, hexec, ?_⟩⟩
    · have hadmits : s.admits (s.home h) r = true := by simpa [State.admits] using hseals
      refine ⟨fun hempty => ?_, fun _ => ⟨_, hexec, ?_, ?_⟩⟩
      · obtain ⟨hchan, hreqs⟩ := State.serveHome_alone (k := k) hadmits hempty hnotice hsent
        exact ⟨_, hexec, hchan, by rw [hearlyAfter, State.served_awaiting_early, if_pos hadmits], hreqs, State.memoriesKept_requested⟩
      · rw [hearlyAfter, State.served_awaiting_early, if_pos hadmits]
      · rw [hearlyAfter]
        exact State.served_admitted_keys hadmits
    · have hwaits : s.admits (s.home h) r = false := by simpa [State.admits] using ⟨hpod, hmissing⟩
      rw [hearlyAfter, State.served_awaiting_early, hwaits]
      rfl
  case grants =>
    have hranks := grantAll_ranks (before := []) (pairwise_ranks hcompatible hordered hkeys)
    exact ⟨lockCompatible_of_ranks hranks, lockOrdered_of_ranks hranks⟩

end Sys2Proof.Machine
end

section
/-!
Frame notices, grants with their pushes, and the dispatch of granted transactions (R82, R84, R130).
-/

namespace Sys2Proof.Machine

open Sys2Proof

/-- Bytes that are written to a local store stand there, and nothing else changes. -/
theorem storedAt_of_ls {s t : State} {n a : Nat} {bs : List Byte} (h : (t.core n).ls = memWrite a bs (s.core n).ls) :
    Claims.storedAt s t n a bs := by
  refine ⟨fun j hj => ?_, fun x hx => ?_⟩
  · rw [h, memGet_memWrite, if_pos ⟨by omega, by omega⟩, Nat.add_sub_cancel_left]
  · rw [h, memGet_memWrite, if_neg (by omega)]

/-! ## Frame notices (R82) -/

section
variable {s : State} {k h seq : Nat}

/-- A home that a frame notice reached. -/
def Home.noticed (x : Home) (seq : Nat) : Home := { x with notices := x.notices ++ [seq] }

theorem exec_frameNoticeArrival (halive : s.alive = true) (hk : s.chan[k]? = some (.notice h seq)) (hcut : s.cut (.notice h seq) = false) :
    exec (.frameNoticeArrival k) s = .next (((s.unpost k).setHome h ((s.home h).noticed seq)).serveHome h) := by
  change execFrameNoticeArrival k s = _
  rw [execFrameNoticeArrival, hk]
  dsimp only
  rw [halive, hcut]
  rfl

theorem noticeArrives (halive : s.alive = true) (hk : s.chan[k]? = some (.notice h seq)) (hcut : s.cut (.notice h seq) = false) :
    ∃ t, exec (.frameNoticeArrival k) s = .next t ∧ (t.home h).notices = (s.home h).notices ++ [seq] ∧ Claims.memoriesKept s t ∧
      ((s.home h).early = [] → t.chan = s.chan.eraseIdx k ++ ((grantAll [] (s.home h).reqs).filter ((s.home h).noticed seq).sends).map
        (s.grantOf h ((s.home h).noticed seq))) := by
  refine ⟨_, exec_frameNoticeArrival halive hk hcut, ?_⟩
  generalize hu : (s.unpost k).setHome h ((s.home h).noticed seq) = u
  have hhome : u.home h = (s.home h).noticed seq := by rw [← hu, State.home_setHome_self]
  refine ⟨?_, ?_, fun hearly => ?_⟩
  · rw [State.home_serveHome_self, hhome]
    rfl
  · rw [← hu]
    exact State.memoriesKept_serveHome _ h
  · obtain ⟨fl, hserve⟩ := u.serveHome_leaves h
    have hqueue : u.queueOf ((s.home h).noticed seq) = grantAll [] (s.home h).reqs := by
      have hnone : ((s.home h).noticed seq).early = [] := hearly
      rw [State.queueOf, hnone]
      exact congrArg (grantAll []) (List.append_nil _)
    rw [hserve, hhome, hqueue, ← hu]
    rfl

/-- With a granted request the notice lets its grant leave. -/
theorem noticeSends {r : LockReq} (hreqs : (s.home h).reqs = [r]) (hseq : r.seq = seq) (hgranted : r.granted = true) (hsent : r.sent = false)
    (hwhole : (s.home h).brokenTile r = false) : ((grantAll [] (s.home h).reqs).filter ((s.home h).noticed seq).sends).map
      (s.grantOf h ((s.home h).noticed seq)) =
        [.grant seq r.entry false (if r.mode = 2 then {} else pushOf h (2 ^ (s.space r.space).log2))] := by
  have hself : ({ r with granted := true } : LockReq) = r := by rw [← hgranted]
  have hsends : ((s.home h).noticed seq).sends r = true := by simp [Home.sends, Home.noticed, hgranted, hsent, hseq]
  have hwhole' : ((s.home h).noticed seq).brokenTile r = false := hwhole
  rw [hreqs, grantAll_singleton, hself, List.filter_cons_of_pos hsends, List.filter_nil, List.map_singleton, State.grantOf, hwhole', hseq]
  simp

end

/-! ## Grants and their pushes (R82, R130) -/

section
variable {s : State} {k seq entry : Nat} {x : Txn} {p : Push}

theorem exec_grantLanding (halive : s.alive = true) (hk : s.chan[k]? = some (.grant seq entry false p)) (hx : s.txn seq = some x)
    (hpre : (s.core x.core).pre = false) (hcut : s.cut (.grant seq entry false p) = false) :
    exec (.grantLanding k) s = .next (if p.gather.isEmpty && p.land.isEmpty then ((s.unpost k).landGrant x entry false).touch x.core
      else { (s.movePush x entry p).2 with chan := (s.movePush x entry p).2.chan.set k (.grant seq entry false (s.movePush x entry p).1) }) := by
  change execGrantLanding k s = _
  rw [execGrantLanding, hk]
  dsimp only
  rw [if_pos halive, State.moveGrant, hx]
  dsimp only
  rw [hpre, hcut]
  rfl

/-- The grant lands after its push. -/
theorem State.landGrant_lands (hx : s.txn seq = some x) (hgood : x.failedGrant = false) :
    let t := ((s.unpost k).landGrant x entry false).touch x.core
    t.chan = s.chan.eraseIdx k ∧ t.txn seq = some { x with landed := x.landed ++ [entry] } ∧ Claims.memoriesKept s t := by
  have hseq : x.seq = seq := by simpa using List.find?_some hx
  have hland : (s.unpost k).landGrant x entry false = (s.unpost k).setTxn { x with landed := x.landed ++ [entry] } := by
    simp [State.landGrant, hgood]
  intro t
  have ht : t = ((s.unpost k).setTxn { x with landed := x.landed ++ [entry] }).touch x.core := by rw [← hland]
  obtain ⟨cs, hframe⟩ := ((s.unpost k).setTxn { x with landed := x.landed ++ [entry] }).touch_frame x.core
  refine ⟨by rw [ht, hframe]; rfl, ?_, fun m j => by rw [ht, State.thread_touch]; rfl, fun m => ?_, by rw [ht, hframe]; rfl⟩
  · have htxn : (s.unpost k).txn seq = some x := hx
    rw [← State.txn_setTxn (y := { x with landed := x.landed ++ [entry] }) htxn hseq, ht, hframe]
    rfl
  · obtain ⟨w, hcore⟩ := ((s.unpost k).setTxn { x with landed := x.landed ++ [entry] }).core_touch x.core m
    rw [ht, hcore]
    rfl

/-- A part that lands in its slot. -/
theorem State.landPart_lands {a z o : Nat} (hslot : s.slotAt x entry = some (a, z))
    (hmay : s.tableAllows 1 2 (s.windowPa x.core (a + o)) (landSize (x.home entry)) 1 = true) :
    (s.landPart x entry p o).chan = s.chan ∧ (s.landPart x entry p o).dram = s.dram ∧
      (∀ m j, (s.landPart x entry p o).thread m j = s.thread m j) ∧
      ((s.landPart x entry p o).core x.core).ls = memWrite (a + o) ((p.bytes.drop o).take (landSize (x.home entry))) (s.core x.core).ls := by
  unfold State.landPart
  rw [hslot]
  dsimp only
  rw [hmay, if_neg (by decide)]
  generalize hbs : (p.bytes.drop o).take (landSize (x.home entry)) = bs
  generalize { s.outsider with core := x.home entry % 256, slot := 0 } = w
  generalize ((p.bad.filter (fun g => decide (8 * g / landSize (x.home entry) = o / landSize (x.home entry)))).map (fun g => a / 8 + g)) = bad
  obtain ⟨⟨cs, cl, hframe⟩, -⟩ := s.coreOnly_lsHard x.core (a + o) bs 4 w
  have hls := s.lsHard_ls (n := x.core) (a := a + o) bs 4 w
  have hthread (m j : Nat) := s.thread_lsHard x.core (a + o) bs 4 w m j
  generalize s.lsHard x.core (a + o) bs 4 w = u at hframe hls hthread
  generalize hv : u.setCore x.core { u.core x.core with lsBad := addBad (u.core x.core).lsBad bad } = v
  obtain ⟨cs', htouch⟩ := v.touch_frame x.core
  obtain ⟨wd, hcore⟩ := v.core_touch x.core x.core
  refine ⟨?_, ?_, fun m j => ?_, ?_⟩
  · rw [htouch, ← hv, hframe]; rfl
  · rw [htouch, ← hv, hframe]; rfl
  · rw [State.thread_touch, ← hv, State.thread_setCore_of_threads _ _ (by rfl), hthread]
  · rw [hcore, ← hls, ← hv, State.core_setCore_self]

/-- With all parts gathered one of those that are left lands, over the mesh the first of them. -/
theorem State.movePush_lands (hgather : p.gather = []) (hland : p.land ≠ []) : ∃ o, o ∈ p.land ∧
    (x.home entry < 256 → p.land.head? = some o) ∧ s.movePush x entry p = ({ p with land := p.land.erase o }, s.bump.landPart x entry p o) := by
  have hmove {o : Nat} (h : s.nextPart x entry p = some o) :
      s.movePush x entry p = ({ p with land := p.land.erase o }, s.bump.landPart x entry p o) := by
    rw [State.movePush, h, hgather]
    rfl
  by_cases hmesh : x.home entry < 256
  · obtain ⟨o, ho⟩ := Option.isSome_iff_exists.1 (List.isSome_head?.2 hland)
    refine ⟨o, List.mem_of_mem_head? ho, fun _ => ho, hmove ?_⟩
    simp [State.nextPart, hmesh, hgather, ho]
  · have hlt := Nat.mod_lt (Config.freeChoice s.tick) (List.length_pos_of_ne_nil hland)
    refine ⟨p.land[Config.freeChoice s.tick % p.land.length], List.getElem_mem hlt, fun h => absurd h hmesh, hmove ?_⟩
    simp [State.nextPart, hmesh, hgather, List.getElem?_eq_getElem hlt]

/-- One part of a tile is read with the bytes that stand at its home now. -/
theorem State.gatherPart_reads {pa o : Nat} (hclean : s.dramBad = []) (hmay : s.devMay 2 (pa + o) 256 0 = true) :
    ∃ t, s.gatherPart pa p o = ({ p with
      gather := p.gather.erase o
      bytes := p.bytes.take o ++ memRead (s.dramKey (pa + o)) 256 s.dram ++ p.bytes.drop (o + 256) }, t) ∧ s.recordsOnly t := by
  refine ⟨_, ?_, s.recordsOnly_dramRead (pa + o) 256 3 s.outsider⟩
  unfold State.gatherPart
  dsimp only
  rw [if_pos hmay, hclean]
  simp [State.dramRead]

/-- While no part that is gathered is left to land, the next one is gathered. -/
theorem State.movePush_gathers (hgather : p.gather ≠ []) (hland : ∀ o ∈ p.land, o / 256 * 256 ∈ p.gather) : ∃ o, o ∈ p.gather ∧
    s.movePush x entry p = s.bump.gatherPart (s.tilePa x entry) p o := by
  have hlt := Nat.mod_lt (Config.freeChoice s.tick) (List.length_pos_of_ne_nil hgather)
  have hnone : p.land.filter (fun o => !p.gather.contains (o / 256 * 256)) = [] := by simpa using hland
  have hnext : s.nextPart x entry p = none := by
    unfold State.nextPart
    dsimp only
    split
    · rw [Option.filter_eq_none_iff]
      intro o ho
      simpa using hland o (List.mem_of_mem_head? ho)
    · rw [hnone]
      rfl
  refine ⟨p.gather[Config.freeChoice s.tick % p.gather.length], List.getElem_mem hlt, ?_⟩
  rw [State.movePush, hnext, List.getElem?_eq_getElem hlt]

end

theorem grantLands {s : State} (halive : s.alive = true) {k seq entry : Nat} {x : Txn} {p : Push} (hk : s.chan[k]? = some (.grant seq entry false p))
    (hx : s.txn seq = some x) (hpre : (s.core x.core).pre = false) (hcut : s.cut (.grant seq entry false p) = false) :
      (p.gather = [] → p.land = [] → x.failedGrant = false → ∃ t y, exec (.grantLanding k) s = .next t ∧ t.chan = s.chan.eraseIdx k ∧
        t.txn seq = some y ∧ y.landed = x.landed ++ [entry] ∧ y.sub = x.sub ∧ Claims.memoriesKept s t) ∧
      (p.gather = [] → p.land ≠ [] → ∀ a z, s.slotAt x entry = some (a, z) →
        (∀ o ∈ p.land, s.tableAllows 1 2 (s.windowPa x.core (a + o)) (landSize (x.home entry)) 1 = true) → ∃ t o, exec (.grantLanding k) s = .next t ∧ o ∈ p.land ∧
          (x.home entry < 256 → p.land.head? = some o) ∧ t.chan = s.chan.set k (.grant seq entry false { p with land := p.land.erase o }) ∧
          Claims.storedAt s t x.core (a + o) ((p.bytes.drop o).take (landSize (x.home entry))) ∧ (∀ m j, t.thread m j = s.thread m j) ∧ t.dram = s.dram) ∧
      (p.gather ≠ [] → (∀ o ∈ p.land, o / 256 * 256 ∈ p.gather) → s.dramBad = [] →
        (∀ o ∈ p.gather, s.devMay 2 (s.tilePa x entry + o) 256 0 = true) → ∃ t o, exec (.grantLanding k) s = .next t ∧ o ∈ p.gather ∧
          t.chan = s.chan.set k (.grant seq entry false { p with
            gather := p.gather.erase o
            bytes := p.bytes.take o ++ memRead (s.dramKey (s.tilePa x entry + o)) 256 s.dram ++ p.bytes.drop (o + 256) }) ∧
          Claims.memoriesKept s t) := by
  have hexec := exec_grantLanding halive hk hx hpre hcut
  refine ⟨fun hgather hland hgood => ?lands, fun hgather hland a z hslot hmay => ?part, fun hgather hland hclean hmay => ?gathers⟩
  case lands =>
    rw [hgather, hland] at hexec
    obtain ⟨hchan, htxn, hkept⟩ := State.landGrant_lands (k := k) (entry := entry) hx hgood
    exact ⟨_, _, hexec, hchan, htxn, rfl, rfl, hkept⟩
  case part =>
    obtain ⟨o, ho, hfirst, hmove⟩ := State.movePush_lands (s := s) (x := x) (entry := entry) hgather hland
    obtain ⟨hchan, hdram, hthread, hls⟩ := State.landPart_lands (s := s.bump) (p := p) hslot (hmay o ho)
    have hmoving : (p.gather.isEmpty && p.land.isEmpty) = false := by simpa using fun _ => hland
    rw [hmoving, if_neg Bool.false_ne_true, hmove] at hexec
    dsimp only at hexec
    rw [hchan] at hexec
    exact ⟨_, o, hexec, ho, hfirst, rfl, storedAt_of_ls hls, hthread, hdram⟩
  case gathers =>
    obtain ⟨o, ho, hmove⟩ := State.movePush_gathers (s := s) (x := x) (entry := entry) hgather hland
    obtain ⟨t, hread, hrecords⟩ := State.gatherPart_reads (s := s.bump) (p := p) hclean (hmay o ho)
    have hmoving : (p.gather.isEmpty && p.land.isEmpty) = false := by simp [hgather]
    rw [hmoving, if_neg Bool.false_ne_true, hmove, hread] at hexec
    have hreads := State.readsOnly.of_recordsOnly hrecords
    dsimp only at hexec
    rw [hreads.chan] at hexec
    exact ⟨_, o, hexec, ho, rfl, State.memoriesKept_of_cores hreads.cores hreads.fused hreads.dram⟩

/-! ## Dispatch (R84) -/

/-- With different numbers a numbered transaction is the one of its number. -/
theorem State.txn_of_mem {s : State} {x : Txn} (hseqs : (s.scarab.txns.map (·.seq)).Nodup) (hx : x ∈ s.scarab.txns) : s.txn x.seq = some x := by
  obtain ⟨y, hy⟩ := Option.isSome_iff_exists.1 (List.find?_isSome (p := fun y : Txn => decide (y.seq = x.seq)).2 ⟨x, hx, by simp⟩)
  have hseq : y.seq = x.seq := by simpa using List.find?_some hy
  rw [State.txn, hy, List.inj_on_of_nodup_map hseqs (List.mem_of_find?_eq_some hy) hx hseq]

/-- A transaction that the dispenser gives has a thread in `wfw` on its core. -/
theorem State.txnItem_takes {s : State} {k : Nat} {x : Txn} {d : DispItem} (h : s.txnItem k x = some d) :
    d.seq = x.seq ∧ d.core = x.core ∧ (s.thread d.core d.slot).run = .wfw := by
  unfold State.txnItem at h
  split at h
  · exact absurd h (by simp)
  · obtain ⟨i, hi, rfl⟩ := Option.map_eq_some_iff.1 h
    have htakes : s.slotTakes x.core i .wfw (s.pairedLaunch x.sub.lnch) = true :=
      List.find?_some (p := fun i => s.slotTakes x.core i .wfw (s.pairedLaunch x.sub.lnch)) hi
    obtain ⟨hwfw, -⟩ := State.slotTakes_admits htakes
    exact ⟨rfl, rfl, of_decide_eq_true hwfw⟩

theorem State.launchItem_item {s : State} {k l : Nat} {x : Launch} {d : DispItem} (h : s.launchItem k l x = some d) : d.item ≠ none := by
  unfold State.launchItem at h
  split at h
  · exact absurd h (by simp)
  · split at h
    · exact absurd h (by simp)
    · obtain ⟨n, -, hn⟩ := List.exists_of_findSome?_eq_some h
      split at hn
      · exact absurd hn (by simp)
      · obtain ⟨i, -, rfl⟩ := Option.map_eq_some_iff.1 hn
        simp

theorem State.bestItem_txn {s : State} {k : Nat} {d : DispItem} {x : Txn} (hbest : s.bestItem k = some d) (hitem : d.item = none)
    (hx : s.txn d.seq = some x) (hseqs : (s.scarab.txns.map (·.seq)).Nodup) :
    d.seq = x.seq ∧ d.core = x.core ∧ (s.thread d.core d.slot).run = .wfw := by
  obtain ⟨hmem, -⟩ := State.bestItem_spec hbest
  unfold Claims.items at hmem
  rw [List.mem_append, List.mem_filterMap, List.mem_filterMap] at hmem
  rcases hmem with ⟨l, -, hl⟩ | ⟨y, hy, htakes⟩
  · exact absurd hitem (State.launchItem_item hl)
  · obtain ⟨hseq, hcore, hrun⟩ := State.txnItem_takes htakes
    rw [hseq, State.txn_of_mem hseqs hy] at hx
    cases hx
    exact ⟨hseq, hcore, hrun⟩

/-- What a transaction begins with (R84). -/
def State.txnStart (s : State) (n : Nat) (x : Txn) : Start where
  pc := x.sub.pc
  args := [BitVec.ofNat 64 (x.seq % 2 ^ 32), BitVec.ofNat 64 (s.txBase x + 256), x.sub.args.getD 0 0, x.sub.args.getD 1 0]
  wid := x.sub.wid
  rnd := match s.launch x.sub.lnch with | some l => BitVec.ofNat 3 (l.field 422 3) | none => 0
  task := { s.taskOf x.sub.lnch with
    txn := true, txf := some { base := s.txBase x, core := (s.core n).lcore }, score := (s.core n).lcore, body := some x.seq }

/-- TREE and STATE of a frame are written. -/
def State.stamped (s : State) (n : Nat) (x : Txn) : State :=
  s.lsHard n (s.txBase x + 24) (leBytes 4 1 ++ leBytes 1 1) 0 (s.txSource x.sub)

theorem State.dispatchTxn_eq {s : State} {d : DispItem} {x : Txn} (hclean : anyBad (s.core d.core).lsBad (s.txBase x) 64 = false) :
    s.dispatchTxn d x = (((s.stamped d.core x).startTask d.core d.slot (s.txnStart d.core x)).setTxn { x with stage := .running }).bumpEpoch d.core := by
  have hnone : firstBad (s.core d.core).lsBad (s.txBase x) 64 = none := by
    rw [firstBad, List.find?_eq_none.2 fun g hg hbad => ?_, Option.map_none]
    exact Bool.false_ne_true (hclean.symm.trans (List.any_eq_true.2 ⟨g, hg, hbad⟩))
  unfold State.dispatchTxn
  dsimp only
  rw [hnone]
  rfl

/-- A task that begins without a pair leaves local stores alone. -/
theorem State.startTask_ls (s : State) (n i : Nat) (x : Start) (hsingle : s.pairedLaunch x.task.lnch = false) (m : Nat) :
    ((s.startTask n i x).core m).ls = (s.core m).ls := by
  unfold State.startTask
  split
  · rfl
  · next r _ =>
    obtain ⟨w, hcore⟩ := (s.setThread n i (s.begun n i r x)).core_touch n m
    obtain ⟨cs, hframe⟩ := (s.setThread n i (s.begun n i r x)).touch_frame n
    have hpair : ((s.setThread n i (s.begun n i r x)).touch n).pairedLaunch x.task.lnch = false := by rw [hframe]; exact hsingle
    dsimp only
    rw [hpair, if_neg Bool.false_ne_true, hcore]
    exact s.setThread_ls ..

theorem State.taskOf_lnch (s : State) (l : Nat) : (s.taskOf l).lnch = l := by
  unfold State.taskOf
  split <;> rfl

theorem exec_transactionDispatch {s : State} (halive : s.alive = true) {k : Nat} {d : DispItem} {x : Txn} (hbest : s.bestItem k = some d)
    (hitem : d.item = none) (hx : s.txn d.seq = some x) : exec (.transactionDispatch k) s = .next (s.dispatchTxn d x) := by
  change execTransactionDispatch k s = _
  rw [execTransactionDispatch, hbest]
  dsimp only
  rw [hitem, hx]
  exact congrArg _ (if_pos halive)

section
variable {s : State} {d : DispItem} {x : Txn}

/-- A transaction that began in its slot. -/
def State.begunTxn (s : State) (d : DispItem) (x : Txn) : State := (s.stamped d.core x).startTask d.core d.slot (s.txnStart d.core x)

theorem State.begunTxn_slotsOnly : State.slotsOnly d.core (s.stamped d.core x) (s.begunTxn d x) := State.slotsOnly_startTask ..

theorem State.stamped_frame (n : Nat) : ∃ cs cl, s.stamped n x = { s with cores := cs, clusters := cl } :=
  (s.coreOnly_lsHard n (s.txBase x + 24) (leBytes 4 1 ++ leBytes 1 1) 0 (s.txSource x.sub)).1

theorem State.begunTxn_frame : ∃ cs cl, s.begunTxn d x = { s with cores := cs, clusters := cl } := by
  obtain ⟨cs, cl, hstamp⟩ := State.stamped_frame (s := s) (x := x) d.core
  obtain ⟨⟨cs', cl', hbegun⟩, -⟩ := (State.begunTxn_slotsOnly (s := s) (d := d) (x := x)).1
  exact ⟨cs', cl', by rw [hbegun, hstamp]⟩

theorem State.begunTxn_epoch : ((s.begunTxn d x).core d.core).epoch = (s.core d.core).epoch := by
  obtain ⟨-, th, ls, lb, r, w, hcore⟩ := State.begunTxn_slotsOnly (s := s) (d := d) (x := x)
  obtain ⟨r', hstamp⟩ := State.core_logPort (s.setCore d.core ((s.core d.core).lsPut (s.txBase x + 24) (leBytes 4 1 ++ leBytes 1 1))) d.core
    (s.txBase x + 24) (leBytes 4 1 ++ leBytes 1 1).length 0 (s.txSource x.sub) d.core
  rw [hcore, State.stamped, State.lsHard, hstamp, State.core_setCore_self]
  rfl

/-- The thread of a transaction in its slot. -/
theorem State.thread_begunTxn (hrun : (s.thread d.core d.slot).run = .wfw) : ∃ r p, (s.begunTxn d x).thread d.core d.slot =
    { (s.stamped d.core x).begun d.core d.slot r (s.txnStart d.core x) with pair := p } := by
  have hregion : (s.stamped d.core x).regionFor d.core d.slot = some (s.thread d.core d.slot).wsr := by
    rw [State.regionFor, State.stamped, State.thread_lsHard, if_pos (by rw [Thread.isWfw, hrun]; rfl)]
  obtain ⟨p, hself, -⟩ := (s.stamped d.core x).thread_startTask_self d.core d.slot (s.txnStart d.core x) hregion
  exact ⟨_, p, hself⟩

/-- TREE and STATE stand at 1 when no trailing thread's window was copied behind them. -/
theorem State.begunTxn_ls (hsingle : s.pairedLaunch x.sub.lnch = false) : ((s.begunTxn d x).core d.core).ls =
    memWrite (s.txBase x + 24) (leBytes 4 1 ++ leBytes 1 1) (s.core d.core).ls := by
  have hpair : (s.stamped d.core x).pairedLaunch (s.txnStart d.core x).task.lnch = false := by
    obtain ⟨cs, cl, hstamp⟩ := State.stamped_frame (s := s) (x := x) d.core
    rw [hstamp, ← hsingle, ← s.taskOf_lnch x.sub.lnch]
    rfl
  rw [State.begunTxn, State.startTask_ls _ _ _ _ hpair, State.stamped, State.lsHard_ls]

theorem dispatches {k : Nat} (halive : s.alive = true) (hbest : s.bestItem k = some d) (hitem : d.item = none) (hx : s.txn d.seq = some x)
    (hseqs : (s.scarab.txns.map (·.seq)).Nodup) (hclean : anyBad (s.core d.core).lsBad (s.txBase x) 64 = false) :
    ∃ t y, exec (.transactionDispatch k) s = .next t ∧
        let u := t.thread d.core d.slot
        (s.thread d.core d.slot).run = .wfw ∧ u.run = .running ∧ u.pc = x.sub.pc &&& ~~~1#64 ∧ u.wid = x.sub.wid ∧
        u.sreg d.slot 1 = BitVec.ofNat 64 (x.seq % 2 ^ 32) ∧ u.sreg d.slot 2 = BitVec.ofNat 64 (s.txBase x + 256) ∧
        u.sreg d.slot 3 = x.sub.args.getD 0 0 ∧ u.sreg d.slot 4 = x.sub.args.getD 1 0 ∧ u.task.txn = true ∧ u.task.body = some x.seq ∧
        t.txn d.seq = some y ∧ y.stage = .running ∧
        (s.pairedLaunch x.sub.lnch = false → t.lsNum d.core (s.txBase x + 24) 4 = 1 ∧ t.lsNum d.core (s.txBase x + 28) 1 = 1) ∧
        (t.core d.core).epoch = (s.core d.core).epoch + 1 ∧ t.dram = s.dram := by
  obtain ⟨hseq, -, hrun⟩ := State.bestItem_txn hbest hitem hx hseqs
  obtain ⟨r, p, hthread⟩ := State.thread_begunTxn (x := x) hrun
  obtain ⟨cs, cl, hframe⟩ := State.begunTxn_frame (s := s) (d := d) (x := x)
  have hargs (j : Nat) (hj : j < 4) : ((s.begunTxn d x).thread d.core d.slot).sreg d.slot (1 + j) = (s.txnStart d.core x).args.getD j 0 :=
    State.begun_sreg_arg _ d.core d.slot r _ (by rw [hthread]) hj (Nat.le_refl 4)
  have hepoch := State.begunTxn_epoch (s := s) (d := d) (x := x)
  have hls (hsingle : s.pairedLaunch x.sub.lnch = false) := State.begunTxn_ls (d := d) hsingle
  have hexec := exec_transactionDispatch halive hbest hitem hx
  rw [State.dispatchTxn_eq hclean] at hexec
  change exec (.transactionDispatch k) s = .next (((s.begunTxn d x).setTxn { x with stage := .running }).bumpEpoch d.core) at hexec
  generalize s.begunTxn d x = v at *
  refine ⟨_, { x with stage := .running }, hexec, ?_⟩
  have hself : ((v.setTxn { x with stage := .running }).bumpEpoch d.core).thread d.core d.slot = v.thread d.core d.slot :=
    State.thread_bumpEpoch ..
  dsimp only
  rw [hself]
  refine ⟨hrun, ?_, ?_, ?_, hargs 0 (by decide), hargs 1 (by decide), hargs 2 (by decide), hargs 3 (by decide), ?_, ?_, ?_, rfl, fun hsingle => ?_, ?_, ?_⟩
  · rw [hthread]; rfl
  · rw [hthread]; rfl
  · rw [hthread]; rfl
  · rw [hthread]; rfl
  · rw [hthread]; rfl
  · have htxn : v.txn d.seq = some x := by rw [hframe]; exact hx
    exact State.txn_setTxn (y := { x with stage := .running }) htxn hseq.symm
  · have hmem : (((v.setTxn { x with stage := .running }).bumpEpoch d.core).core d.core).ls =
        memWrite (s.txBase x + 24) (leBytes 4 1 ++ leBytes 1 1) (s.core d.core).ls := by
      rw [(State.bumpEpoch_ls ..).1, ← hls hsingle]
      rfl
    have htree := memNum_memWrite_part (a := s.txBase x + 24) [] (leBytes 4 1) (leBytes 1 1) (s.core d.core).ls
    have hstate := memNum_memWrite_part (a := s.txBase x + 24) (leBytes 4 1) (leBytes 1 1) [] (s.core d.core).ls
    rw [State.lsNum, State.lsNum, hmem]
    exact ⟨htree, by rwa [List.append_nil] at hstate⟩
  · rw [State.core_bumpEpoch_self, ← hepoch]
    rfl
  · have hdram : v.dram = s.dram := by rw [hframe]
    exact hdram

end

theorem grantsAndDispatch : Claims.GrantsAndDispatch := by
  intro s halive
  refine ⟨fun k h seq hk hcut hreqs hearly => ?_, fun k h seq r hk hcut hreqs hearly hseq hgranted hsent hwhole => ?_,
    fun k seq entry x p hk hx hpre hcut _ => grantLands halive hk hx hpre hcut,
    fun k d x hbest hitem hx hseqs hclean => dispatches halive hbest hitem hx hseqs hclean⟩
  · obtain ⟨t, hexec, hnotices, hkept, hchan⟩ := noticeArrives halive hk hcut
    refine ⟨t, hexec, ?_, hnotices, hkept⟩
    rw [hchan hearly, hreqs]
    exact List.append_nil _
  · obtain ⟨t, hexec, -, hkept, hchan⟩ := noticeArrives halive hk hcut
    refine ⟨t, hexec, ?_, hkept⟩
    rw [hchan hearly, noticeSends hreqs hseq hgranted hsent hwhole]

end Sys2Proof.Machine
end

section
/-!
Committed segments, the release of tiles and frames, and the decrement of TREE (R86, R366).
-/

namespace Sys2Proof.Machine

open Sys2Proof

/-! ## Segments (R86) -/

section
variable {s : State} {k seq entry pa : Nat} {bs : List Byte} {bad : Bool}

theorem State.dramWrite_got (ps : List Nat) (kind : Nat) (w : Source) :
    Claims.dramGot s (s.dramWrite pa (bs.map some) ps kind w) pa bs ∧ (s.dramWrite pa (bs.map some) ps kind w).chan = s.chan := by
  obtain ⟨hs, cl, dr, db, hframe⟩ := s.dramWrite_frame pa (bs.map some) ps kind w
  have hdram := s.dramWrite_dram pa (bs.map some) ps kind w
  rw [memWriteMasked_map_some] at hdram
  refine ⟨⟨fun j hj => ?_, fun x hx => ?_, ?_, ?_⟩, ?_⟩
  · rw [hdram, memGet_memWrite, if_pos ⟨by omega, by omega⟩, Nat.add_sub_cancel_left]
  · rw [hdram, memGet_memWrite, if_neg (by omega)]
  · rw [hframe]
  · rw [hframe]
  · rw [hframe]

theorem exec_commitSegmentArrival (halive : s.alive = true) (hk : s.chan[k]? = some (.segment seq entry pa bs bad))
    (hcut : s.cut (.segment seq entry pa bs bad) = false)
    (hfirst : ∀ e a b c, .segment seq e a b c ∈ s.chan.take k → s.homeFor a ≠ s.homeFor pa) :
    exec (.commitSegmentArrival k) s = .next (if s.devMay 2 pa 64 1 then
      (s.unpost k).dramWrite pa (bs.map some) (if bad then List.range 8 else []) 0 s.outsider else s.unpost k) := by
  have hahead : (s.chan.take k).any (fun p => match p with
      | .segment q _ a _ _ => decide (q = seq ∧ s.homeFor a = s.homeFor pa) | _ => false) = false := by
    rw [List.any_eq_false]
    intro p hp
    cases p with
    | segment q e a b c =>
      simp only [decide_eq_true_eq, not_and]
      rintro rfl
      exact hfirst e a b c hp
    | _ => exact Bool.false_ne_true
  change execCommitSegmentArrival k s = _
  rw [execCommitSegmentArrival, hk]
  dsimp only
  rw [if_pos halive, State.segmentArrives]
  rw [hcut, Bool.or_false, if_neg]
  rw [Bool.not_eq_true]
  exact hahead

end

/-! ## The release of a tile (R86) -/

/-- No request of a home is that of a transaction's entry. -/
def Home.clear (x : Home) (q : Nat × Nat) : Prop := ∀ r ∈ x.reqs ++ x.early, r.key ≠ q

/-- A home without the request of a transaction's entry, and without the notice of a transaction that it has no request of. -/
def Home.released (x : Home) (seq entry : Nat) : Home :=
  let reqs := x.reqs.filter (fun r => !decide (r.seq = seq ∧ r.entry = entry))
  { x with reqs := reqs, notices := if reqs.any (fun r => decide (r.seq = seq)) then x.notices else x.notices.filter (fun q => decide (q ≠ seq))
           early := x.early.filter (fun r => !decide (r.seq = seq ∧ r.entry = entry)) }

/-- A home releases the tile of a transaction's entry, and serves its queue. -/
def State.releaseAt (seq entry : Nat) (s : State) (h : Nat) : State := (s.setHome h ((s.home h).released seq entry)).serveHome h

/-- The homes that have the request of a transaction's entry. -/
def State.holders (s : State) (seq entry : Nat) : List Nat :=
  (s.homes.filter (fun x => (x.2.reqs ++ x.2.early).any (fun r => decide (r.seq = seq ∧ r.entry = entry)))).map (·.1)

theorem State.releaseTile_eq (s : State) (seq entry : Nat) : s.releaseTile seq entry =
    match ((s.holders seq entry).foldl (State.releaseAt seq entry) s).txn seq with
    | none => (s.holders seq entry).foldl (State.releaseAt seq entry) s
    | some x => ((s.holders seq entry).foldl (State.releaseAt seq entry) s).setTxn
      { x with unreleased := x.unreleased.filter (fun e => decide (e ≠ entry)) } := rfl

theorem Home.clear_released (x : Home) (seq entry : Nat) : (x.released seq entry).clear (seq, entry) := by
  intro r hr
  rw [Home.released, List.mem_append, List.mem_filter, List.mem_filter] at hr
  have hkept : (!decide (r.seq = seq ∧ r.entry = entry)) = true := hr.elim And.right And.right
  have hother : ¬ (r.seq = seq ∧ r.entry = entry) := of_decide_eq_false ((Bool.not_eq_true' _).mp hkept)
  simpa [LockReq.key] using hother

theorem mem_insertReq {r x : LockReq} {l : List LockReq} (h : x ∈ insertReq r l) : x = r ∨ x ∈ l := by
  induction l with
  | nil => exact .inl (List.mem_singleton.1 h)
  | cons y l ih =>
    rw [insertReq] at h
    split at h
    · exact List.mem_cons.1 h
    · rcases List.mem_cons.1 h with rfl | h
      · exact .inr List.mem_cons_self
      · exact (ih h).imp_right (List.mem_cons_of_mem _)

theorem mem_foldl_insertReq {x : LockReq} {l acc : List LockReq} (h : x ∈ l.foldl (fun l r => insertReq r l) acc) : x ∈ l ∨ x ∈ acc := by
  induction l generalizing acc with
  | nil => exact .inr h
  | cons r l ih =>
    rcases ih h with h | h
    · exact .inl (List.mem_cons_of_mem _ h)
    · exact (mem_insertReq h).imp_left fun e => by rw [e]; exact List.mem_cons_self

/-- What a home serves are requests that it had. -/
theorem State.served_clear (s : State) {x : Home} {q : Nat × Nat} (h : x.clear q) : (s.served x).clear q := by
  intro r hr
  rcases List.mem_append.1 hr with hr | hr
  · have hkey : r.key ∈ (s.served x).reqs.map LockReq.key := List.mem_map_of_mem hr
    rw [State.served_keys, State.queueOf, grantAll_keys, List.nil_append, List.mem_map] at hkey
    obtain ⟨y, hy, hyr⟩ := hkey
    rw [← hyr]
    rcases List.mem_append.1 hy with hy | hy
    · exact h y (List.mem_append_left _ hy)
    · rcases mem_foldl_insertReq hy with hy | hy
      · exact h y (List.mem_append_right _ (List.mem_of_mem_filter hy))
      · exact absurd hy List.not_mem_nil
  · exact h r (List.mem_append_right _ (List.mem_of_mem_filter hr))

section
variable {s : State} {seq entry : Nat}

theorem State.releaseAt_frame (h : Nat) : ∃ hs fl ch, s.releaseAt seq entry h = { s with homes := hs, flows := fl, chan := ch } := by
  obtain ⟨fl, hserve⟩ := (s.setHome h ((s.home h).released seq entry)).serveHome_leaves h
  exact ⟨_, fl, _, hserve⟩

theorem State.foldl_releaseAt_frame (hs : List Nat) : ∃ hm fl ch, hs.foldl (State.releaseAt seq entry) s = { s with homes := hm, flows := fl, chan := ch } := by
  refine List.foldlRecOn hs (State.releaseAt seq entry) (motive := fun t : State => ∃ hm fl ch, t = { s with homes := hm, flows := fl, chan := ch })
    ⟨_, _, _, rfl⟩ fun t ht h _ => ?_
  obtain ⟨hm, fl, ch, rfl⟩ := ht
  exact State.releaseAt_frame h

theorem State.releaseAt_clear (h : Nat) : ((s.releaseAt seq entry h).home h).clear (seq, entry) := by
  rw [State.releaseAt, State.home_serveHome_self, State.home_setHome_self]
  exact State.served_clear _ (Home.clear_released _ seq entry)

theorem State.home_releaseAt_ne {g h : Nat} (hne : g ≠ h) : (s.releaseAt seq entry h).home g = s.home g := by
  rw [State.releaseAt, State.home_serveHome_ne _ hne, State.home_setHome_ne _ hne]

theorem State.foldl_releaseAt_clear {hs : List Nat} (h : ∀ g, g ∉ hs → (s.home g).clear (seq, entry)) (g : Nat) :
    ((hs.foldl (State.releaseAt seq entry) s).home g).clear (seq, entry) := by
  induction hs generalizing s with
  | nil => exact h g List.not_mem_nil
  | cons k hs ih =>
    refine ih fun g hg => ?_
    by_cases hk : g = k
    · rw [hk]; exact State.releaseAt_clear k
    · rw [State.home_releaseAt_ne hk]
      exact h g (by simp [hk, hg])

theorem mem_of_tblFind {α : Type} {k : Nat} {v : α} {t : Tbl α} (h : tblFind k t = some v) : (k, v) ∈ t := by
  induction t with
  | nil => cases h
  | cons x t ih =>
    rw [tblFind] at h
    split at h
    · next hk => cases h; rw [hk]; exact List.mem_cons_self
    · exact List.mem_cons_of_mem _ (ih h)

/-- A home that is not among the holders has no such request. -/
theorem State.clear_of_not_holder {g : Nat} (h : g ∉ s.holders seq entry) : (s.home g).clear (seq, entry) := by
  unfold State.home tblGet
  cases hfind : tblFind g s.homes with
  | none => intro r hr; exact absurd hr List.not_mem_nil
  | some x =>
    intro r hr hkey
    refine h (List.mem_map.2 ⟨(g, x), List.mem_filter.2 ⟨mem_of_tblFind hfind, List.any_eq_true.2 ⟨r, hr, ?_⟩⟩, rfl⟩)
    simpa [LockReq.key] using hkey

theorem tileReleases (halive : s.alive = true) {k : Nat} (hk : s.chan[k]? = some (.release seq entry)) :
      (s.segmentLeft seq entry = true ∨ s.requestLeft seq entry = true → exec (.tileRelease k) s = .next s) ∧
      (s.entryCut seq entry = false → s.segmentLeft seq entry = false → s.requestLeft seq entry = false → ∀ x, s.txn seq = some x →
        ∃ t y, exec (.tileRelease k) s = .next t ∧ t.txn seq = some y ∧ y.unreleased = x.unreleased.filter (fun e => decide (e ≠ entry)) ∧
          (∀ h, ∀ r ∈ (t.home h).reqs, ¬ (r.seq = seq ∧ r.entry = entry)) ∧ Claims.memoriesKept s t) := by
  have hexec : exec (.tileRelease k) s = .next (if s.segmentLeft seq entry || s.requestLeft seq entry || s.entryCut seq entry
      then s else (s.unpost k).releaseTile seq entry) := by
    change execTileRelease k s = _
    rw [execTileRelease, hk]
    exact if_pos halive
  constructor
  · intro hleft
    rw [hexec, if_pos (by rcases hleft with h | h <;> simp [h])]
  · intro hcut hseg hreq x hx
    have hseq : x.seq = seq := by simpa using List.find?_some hx
    rw [hcut, hseg, hreq, if_neg (by decide), State.releaseTile_eq] at hexec
    obtain ⟨hm, fl, ch, hframe⟩ := State.foldl_releaseAt_frame (s := s.unpost k) (seq := seq) (entry := entry) ((s.unpost k).holders seq entry)
    have hclear (g : Nat) := State.foldl_releaseAt_clear (s := s.unpost k) (seq := seq) (entry := entry)
      (fun g hg => State.clear_of_not_holder hg) g
    generalize ((s.unpost k).holders seq entry).foldl (State.releaseAt seq entry) (s.unpost k) = v at hexec hframe hclear
    have htxn : v.txn seq = some x := by rw [hframe]; exact hx
    rw [htxn] at hexec
    refine ⟨_, _, hexec, State.txn_setTxn htxn hseq, rfl, fun h r hr hsame => ?_, ?_⟩
    · exact hclear h r (List.mem_append_left _ hr) (by simpa [LockReq.key] using hsame)
    · rw [hframe]
      exact State.memoriesKept_of_cores rfl rfl rfl

end

/-! ## The end of a transaction (R86, R366) -/

/-- A core without the frame of a transaction. -/
def Core.freed (c : Core) (seq : Nat) : Core := { c with frames := c.frames.filter (fun u => decide (u.seq ≠ seq)) }

theorem State.txSource_freed (s : State) (n seq : Nat) (r : SubRec) : (s.setCore n ((s.core n).freed seq)).txSource r = s.txSource r := by
  unfold State.txSource
  cases r.src with
  | none => rfl
  | some src =>
    obtain ⟨m, i, gen⟩ := src
    dsimp only
    by_cases hm : m = n
    · rw [hm, State.core_setCore_self]; rfl
    · rw [State.core_setCore_ne _ hm]

/-- The FRAME decrement of a transaction that ends. -/
def State.frameDecrement (s : State) (x : Txn) : List Packet :=
  match x.sub.frame with
  | some f => if x.restarted then [] else [.decrement f x.sub.lnch none (s.txSource x.sub) false]
  | none => []

/-- A transaction that did not fail leaves its FRAME decrement, and its launch counts it. -/
theorem State.endTxn_leaves (s : State) {x : Txn} (hgood : x.failed = false) : ∃ ls p, s.endTxn x = { s with
    scarab := { s.scarab with txns := s.scarab.txns.filter (fun y => decide (y.seq ≠ x.seq)) }
    chan := s.chan ++ s.frameDecrement x, launches := ls, port := p } := by
  unfold State.endTxn
  dsimp only
  rw [hgood, if_neg Bool.false_ne_true]
  unfold State.frameDecrement
  cases x.sub.frame with
  | none =>
    obtain ⟨ls, p, hend⟩ := State.launchesOnly_ended
      { s with scarab := { s.scarab with txns := s.scarab.txns.filter (fun y => decide (y.seq ≠ x.seq)) } } x.sub.lnch
    exact ⟨ls, p, by rw [hend]; simp⟩
  | some f =>
    dsimp only
    split
    · obtain ⟨ls, p, hend⟩ := State.launchesOnly_ended
        { s with scarab := { s.scarab with txns := s.scarab.txns.filter (fun y => decide (y.seq ≠ x.seq)) } } x.sub.lnch
      exact ⟨ls, p, by rw [hend]; simp⟩
    · obtain ⟨ls, p, hend⟩ := State.launchesOnly_ended (State.post
        { s with scarab := { s.scarab with txns := s.scarab.txns.filter (fun y => decide (y.seq ≠ x.seq)) } }
        (.decrement f x.sub.lnch none (s.txSource x.sub) false)) x.sub.lnch
      exact ⟨ls, p, hend⟩

theorem exec_transactionFrameFree {s : State} (halive : s.alive = true) {k : Nat} {x : Txn} (hk : s.scarab.txns[k]? = some x) :
    exec (.transactionFrameFree k) s = .next (s.freeTxn x) := by
  change execTransactionFrameFree k s = _
  rw [execTransactionFrameFree, hk]
  exact congrArg _ (if_pos halive)

theorem frameFrees {s : State} (halive : s.alive = true) {k : Nat} {x : Txn} (hk : s.scarab.txns[k]? = some x) (hstage : x.stage = .committing) :
      (x.unreleased ≠ [] → exec (.transactionFrameFree k) s = .next s) ∧
      (x.unreleased = [] → x.failed = false → ∃ t, exec (.transactionFrameFree k) s = .next t ∧ t.txn x.seq = none ∧
        (t.core x.core).frames = (s.core x.core).frames.filter (fun u => decide (u.seq ≠ x.seq)) ∧
        t.chan = s.chan ++ s.frameDecrement x ∧ Claims.memoriesKept s t) := by
  have hexec := exec_transactionFrameFree halive hk
  constructor
  · intro hheld
    rw [hexec, State.freeTxn, hstage]
    exact congrArg _ (if_pos (by simpa using hheld))
  · intro hreleased hgood
    have hfree : s.freeTxn x = (s.setCore x.core ((s.core x.core).freed x.seq)).endTxn x := by
      rw [State.freeTxn, hstage]
      dsimp only
      rw [hreleased, hgood, if_neg (by decide), if_neg Bool.false_ne_true]
      rfl
    obtain ⟨ls, p, hend⟩ := (s.setCore x.core ((s.core x.core).freed x.seq)).endTxn_leaves hgood
    refine ⟨_, hexec, ?_⟩
    rw [hfree, hend]
    refine ⟨?_, ?_, ?_, fun m j => ?_, fun m => ?_, rfl⟩
    · rw [State.txn, List.find?_eq_none]
      intro y hy
      simpa using (List.mem_filter.1 hy).2
    · exact congrArg Core.frames (State.core_setCore_self s x.core ((s.core x.core).freed x.seq))
    · unfold State.frameDecrement
      rw [State.txSource_freed]
      rfl
    · exact s.thread_setCore_of_threads x.core (c := (s.core x.core).freed x.seq) rfl m j
    · change ((s.setCore x.core ((s.core x.core).freed x.seq)).core m).ls = _
      by_cases hm : m = x.core
      · rw [hm, State.core_setCore_self]; rfl
      · rw [State.core_setCore_ne _ hm]

/-! ## The decrement of TREE (R86) -/

theorem treeFalls {s : State} (halive : s.alive = true) {k n : Nat} {x : TxF} {w : Source} (hk : s.chan[k]? = some (.tree x w))
    (hsite : s.siteOf x.core = some n) (hpre : (s.core n).pre = false) (hmore : s.lsNum n (x.base + 24) 4 ≠ 1) :
    ∃ t, exec (.joinDecrement k) s = .next t ∧ t.chan = s.chan.eraseIdx k ∧
      Claims.storedAt s t n (x.base + 24) (leBytes 4 (s.lsNum n (x.base + 24) 4 - 1)) ∧ (∀ m j, t.thread m j = s.thread m j) ∧ t.dram = s.dram := by
  generalize hu : (s.unpost k).touch n = u
  obtain ⟨wd, hcore⟩ := (s.unpost k).core_touch n n
  obtain ⟨cs, htouch⟩ := (s.unpost k).touch_frame n
  have hls : (u.core n).ls = (s.core n).ls := by rw [← hu, hcore]; rfl
  have hnum : u.lsNum n (x.base + 24) 4 = s.lsNum n (x.base + 24) 4 := by rw [State.lsNum, hls]; rfl
  have hdown : u.treeDown n x.base w = u.lsHard n (x.base + 24) (leBytes 4 (s.lsNum n (x.base + 24) 4 - 1)) 6 w := by
    unfold State.treeDown
    dsimp only
    rw [hnum, if_neg hmore]
  have hexec : exec (.joinDecrement k) s = .next (u.treeDown n x.base w) := by
    change execJoinDecrement k s = _
    rw [execJoinDecrement, hk]
    dsimp only
    rw [if_pos halive, State.treeArrives, hsite]
    dsimp only
    rw [hpre, if_neg Bool.false_ne_true, hu]
  obtain ⟨⟨cs', cl, hframe⟩, -⟩ := u.coreOnly_lsHard n (x.base + 24) (leBytes 4 (s.lsNum n (x.base + 24) 4 - 1)) 6 w
  refine ⟨_, hexec, ?_, storedAt_of_ls ?_, fun m j => ?_, ?_⟩
  · rw [hdown, hframe, ← hu, htouch]; rfl
  · rw [hdown, State.lsHard_ls, hls]
  · rw [hdown, State.thread_lsHard, ← hu, State.thread_touch]; rfl
  · rw [hdown, hframe, ← hu, htouch]; rfl

theorem commits : Claims.Commits := by
  intro s halive
  refine ⟨fun k seq entry pa bs bad hk hcut hfirst => ?segment, fun k seq entry hk => ?release, fun k x hk hstage _ => ?free,
    fun k x w hk n hsite hpre hmore => treeFalls halive hk hsite hpre hmore⟩
  case segment =>
    have hexec := exec_commitSegmentArrival halive hk hcut hfirst
    refine ⟨fun hmay => ?_, fun hmay => ?_⟩
    · rw [if_pos hmay] at hexec
      obtain ⟨hgot, hchan⟩ := State.dramWrite_got (s := s.unpost k) (pa := pa) (bs := bs) (if bad then List.range 8 else []) 0 s.outsider
      exact ⟨_, hexec, hchan, hgot⟩
    · rw [hmay, if_neg Bool.false_ne_true] at hexec
      exact ⟨_, hexec, rfl, rfl, rfl, rfl, rfl⟩
  case release =>
    obtain ⟨hwaits, hreleases⟩ := tileReleases halive hk
    exact ⟨hwaits, fun hcut hseg hreq x hx _ => hreleases hcut hseg hreq x hx⟩
  case free => exact frameFrees halive hk hstage

/-- Settles O54: each clause is the lemma of its event, of which `serveHome_leaves` and `pairwise_ranks` carry the lock queues. -/
theorem locksGrantsAndCommits : Obligations.LocksGrantsAndCommits := ⟨lockQueues, grantsAndDispatch, commits⟩

end Sys2Proof.Machine
end
